-- ==== Sys2Proof/Word.lean ====
section
/-!
DEFINITION. The word types of the hub and the plain shapes its register tables and stores are made of:
a 32-bit register, a 64-bit accumulator, a byte, the place of a field in a register, one row of a register table, and
a sparse table keyed by a number.
-/
namespace Sys2Proof

/-- A register, a tick RAM word, a sample word, a K register (32 bits). -/
abbrev Word := BitVec 32
/-- An accumulator (64 bits). -/
abbrev Acc := BitVec 64
/-- A byte of an image, a frame or a log page. -/
abbrev Byte := BitVec 8

/-- Where a field stands: the address of its register and its bits [hi:lo]. -/
structure RegField where
  addr : Nat
  hi : Nat
  lo : Nat
  deriving DecidableEq, Repr

/-- The Reset column of a register table (R540). -/
inductive Rst where
  /-- a number: the value of the whole register -/
  | val (w : Nat)
  /-- `factory`: the fields in the mask come from one-time-programmable memory, the others hold `w` -/
  | factory (w mask : Nat)
  /-- `per table`: the value of each instance, in index order -/
  | table (ws : List Nat)
  /-- EDG_Ss_LAT: factory for the edge inputs 0 to 15, 0x000C_0000 for the comparator sources -/
  | edgeLat
  deriving DecidableEq, Repr

/-- One register of a register table: where its instances lie, its reset value, and for each access code of R8 that a
write acts through the mask of the bits that carry it. -/
structure RegRow where
  base : Nat
  /-- count and stride of each index, outermost first -/
  dims : List (Nat × Nat)
  rst : Rst
  rw : Nat
  w1c : Nat
  w1s : Nat
  rwl : Nat
  rof : Nat
  deriving DecidableEq, Repr

/-- A sparse table: entries (key, value) with rising keys; a key that is not listed holds the table's default. -/
abbrev Tab (α : Type) := List (Nat × α)

end Sys2Proof
end

