-- ==== Sys2Proof/Syntax.lean ====
section
/-!
DEFINITION. The commands of the hub: one constructor of `Instr` per row of spec/opcode_table.json, with the
operands that the command brings from outside the hub; and the types of those operands. A timer that expires, a measurement that
ends and a frame that arrives are commands too: the command is that moment.
-/
namespace Sys2Proof

/-! ### Event names -/

/-- The events that the rules of the spec name (R547: the dictionary lists them under these names). -/
inductive EvName where
  | BUS_ADDR | EVENT_OVERFLOW | COMMON_CAUSE | COMMON_CAUSE_END | ACCESS_LOCKED | FENCE_WRITE
  | TICK_RATE_BUSY | TICK_RATE_BAD | TICK_BUDGET | SCHED_DROPPED | SCHED_SKIPPED | SCHED_APPLIED_LATE
  | SLATE_RATE_MISMATCH | KILN_MISS | KILN_FAULT | KILN_PARITY | KILN_SIGNAL | KLN_TRAM_ECC
  | BANK_WRITE | LOAD_START_REFUSED | LOAD_RESTARTED | LOAD_CMD_BAD | LOAD_ABANDONED | LOAD_REFUSED
  | ENVELOPE_EXCEEDED | SWAP_SUPERSEDED | SWAP_REFUSED | TILE_DOWN | TILE_UP | SUPPLY_LOW
  | STEWARD_TAKEN | STEWARD_YIELDED | PARTNER_UP | PARTNER_LOST | KND_MASK_FAIL | CAL_SESSION_END
  | GAP_OVERFLOW | AFE_CFG_BAD | EXC_COMPLY | EXC_CLAMP | EXC_LIMIT | EXC_LIMIT_END
  | SENSE_LOW | CM_FAULT | CM_CLEAR | UT_BAD | UT_ACTIVE | TIA_SWITCH
  | CNV_SCAN_BAD | MISMATCH_RANGE | VISIT_HANDOVER | VISIT_MISMATCH | VISIT_FORCED | CORE_FAULTY
  | CORE_CAL_DONE | CORE_CAL_REFUSED | CAL_REF_BAD | REFCAL_LOST | REFCAL_OK | SENSE_CAL_RANGE
  | CAL_CMD_BAD | CAL_BUSY | CAL_DELAYED | CAL_ACCEPTED | CAL_REJECTED | CAL_NOT_STEWARD
  | CAL_CFG_BAD | CHR_CFG_BAD | CHR_RATE_BAD | CHR_BANK_WRITE | CHR_SWAP_SUPERSEDED | CHR_SWAP_REFUSED
  | CHR_GD_CHANGE | CHR_DELAY_FULL | CHR_DET_RATE | QMG_CFG_BUSY | QMG_CFG_BAD | QMG_FLUSH_DONE
  | BACKLOG_FULL | QMG_HIST_BUSY | QMG_ECC | QUEUE_DEEP | QUEUE_CLEAR | ARB_STARVED
  | LANE_EQ_BAD | LANE_UP | LANE_DOWN | LANE_RELOCK | LANE_ATTEMPT_FAIL | LANE_FALLBACK
  | LANE_LP_REFUSED | LANE_WAKE_FAR | PARTNER_RENUMBERED | CHAIN_LONG | PARTNER_CLASH | PTN_NOT_STEWARD
  | PARTNER_NO_REPLY | MIRROR_LAG | SLATE_ROLE_CLASH | MIRROR_LATE | MIRROR_OVERWRITTEN | STEWARD_UNSYNCED
  | PEER_SILENT | PTP_RATE_CLAMP | PTP_CFG_BUSY | PTP_PORT_SWITCH | PTP_PORT_DISAGREE | PTP_STEP
  | PTP_STATE | TIME_OFFSET | RESTEP_CMD_BAD | RESTEP_DONE | RESTEP_REFUSED | HOP_DELAY_STEP
  | HOP_PROBE_LOST | KND_BUSY | KND_CFG_BAD | KND_SET_SKIP | KND_SET_BUSY | KND_FIRE
  | KND_FIRE_LATE | KND_FIRE_STALE | KND_CAPTURE_END | KND_TRUNCATED | KND_MASK_BUSY | KND_SKEW_DONE
  | SKEW_RANGE | INTERP_CAL_BAD | EDGE_OVERRATE | EDG_QUEUE_FULL | EDG_CFG_BAD | EDG_GROUP_CUT
  | PRS_ITEM_LARGE | PRS_CFG_BAD | PRS_NO_OUT | PRS_VERIFY_FAIL | PRS_ENGINE_FAULT | PRS_INFLATE_FAULT
  | CRD_CTRL_REFUSED | CRD_NS_FORMAT | FENCE_WRITE_EXTENT | CRD_ITEM_LARGE | CRD_PIN_FULL | CRD_CTRL_FAILED
  | CRD_WRITE_FAIL | ARCHIVE_DOWN | ARCHIVE_UP | CRD_CFG_BAD | PRP_TABLE_FULL | UPL_CFG_BAD
  | UPLINK_DOWN | UPLINK_UP | LAUNCH_APPLIED_LATE | LAUNCH_EMPTY | HCP_AUTH_FAIL | HCP_REASSEMBLY
  | SENSOR_LIMIT | SENSOR_OK | I2C_NACK | THERMAL_TRIP | LOG_RECOVERED | LOG_LOST
  | UMB_MBOX_BUSY | UMB_MBOX_RELEASED | LC_CHANGED | FENCE_SET | FENCE_TX_CAP | UPDATE_ABANDONED
  | UPDATE_REVERTED | XREF_LOST | XREF_OK | REFCLK_LOST | REFCLK_OK | UXTAL_LOST
  | SMP_UNLOCK | HUB_RESET | DOM_RESET | UMB_ABSENT
  deriving DecidableEq, Repr

/-! ### Who sends a command -/

/-- A register-bus master (R541, R546): 1 Hub Control Protocol, 2 SPI slave, 3 Stoker, 4 Umber. -/
inductive Master where
  | hcp | spis | stoker | umber
  deriving DecidableEq, Repr

/-! ### Operands of the Kiln instructions (R81 to R106) -/

/-- The predicate of an instruction (R81): it runs when PF[sel] XOR neg is 1. -/
structure Pred where
  sel : Fin 8
  neg : Bool
  deriving DecidableEq, Repr

/-- The `alu` operations (R89), in FN order. -/
inductive AluFn where
  | add | sub | and | or | xor | shl | shr | sra | min | max | minu | maxu | adds | subs | abs
  deriving DecidableEq, Repr

/-- The comparison conditions (R92), in COND order. -/
inductive Cond where
  | eq | ne | lt | le | gt | ge | ltu | geu
  deriving DecidableEq, Repr

/-- The `flop` operations (R93), in FN order. -/
inductive FlopFn where
  | and | or | xor | andn | copy | not | set | clear
  deriving DecidableEq, Repr

/-- The `swd` operations (R94), in FN order. -/
inductive SwdFn where
  | data | stat | pack
  deriving DecidableEq, Repr

/-- The view `scnt` counts in (R96). -/
inductive View where
  | output | staging
  deriving DecidableEq, Repr

/-- How `fire` names its fire time (R102), in FN order. -/
inductive FireMode where
  | stagingEntry | outputWord | boundaryPlus
  deriving DecidableEq, Repr

/-- The operation and operands of one Kiln instruction word, the predicate aside (R81 to R106). Register fields are
K register, accumulator or flag numbers; immediates are the field's bits. -/
inductive KOp where
  | nop
  | br (off : Nat)
  | skip (n : Nat)
  | rep (count len : Nat)
  | waitc (cyc : Nat)
  | endTick
  | ldi (d : Fin 32) (hi : Bool) (imm : BitVec 16)
  | gets (d : Fin 32) (sel : Nat)
  | alu (d s t : Fin 32) (fn : AluFn)
  | addi (d s : Fin 32) (imm : BitVec 12)
  | andi (d s : Fin 32) (imm : BitVec 12)
  | ori (d s : Fin 32) (imm : BitVec 12)
  | xori (d s : Fin 32) (imm : BitVec 12)
  | shli (d s : Fin 32) (sh : Fin 32)
  | shri (d s : Fin 32) (sh : Fin 32)
  | srai (d s : Fin 32) (sh : Fin 32)
  | mul (a : Fin 4) (s t : Fin 32) (u : Bool)
  | mac (a : Fin 4) (s t : Fin 32) (u neg : Bool)
  | clra (a : Fin 4)
  | lda (a : Fin 4) (s t : Fin 32)
  | mva (d : Fin 32) (a : Fin 4) (sh : Fin 64) (rnd : Bool)
  | cmp (f : Fin 8) (s t : Fin 32) (c : Cond)
  | cmpi (f : Fin 8) (s : Fin 32) (imm : BitVec 11) (c : Cond)
  | flop (f a b : Fin 8) (fn : FlopFn)
  | tstb (f : Fin 8) (s : Fin 32) (bit : Fin 32)
  | swd (d s t : Fin 32) (fn : SwdFn)
  | ld (d s : Fin 32) (imm : BitVec 12)
  | st (t s : Fin 32) (imm : BitVec 12)
  | ld64 (a : Fin 4) (s : Fin 32) (imm : BitVec 12)
  | st64 (a : Fin 4) (s : Fin 32) (imm : BitVec 12)
  | scnt (d c : Fin 32) (view : View)
  | srd (d c i : Fin 32)
  | strd (d c i : Fin 32)
  | route (c q : Fin 32)
  | enq (q v : Fin 32) (eop : Bool)
  | qdep (d q : Fin 32)
  | schd (d s t : Fin 32) (off : Fin 128)
  | fire (u c i : Fin 32) (mode : FireMode)
  | pins (m v o : Fin 32)
  | spix (k : Fin 32) (m : Fin 2)
  | sig (imm : BitVec 16)
  | hpw (port : Fin 10) (s t : Fin 32) (off : BitVec 8)
  | hpr (d : Fin 32) (port : Fin 10) (s : Fin 32) (off : BitVec 8)
  deriving DecidableEq, Repr

/-- One Kiln instruction word (R81): its predicate and its operation. -/
structure KInstr where
  pred : Pred
  op : KOp
  deriving DecidableEq, Repr

/-- What the ECC of a memory word shows when it is read: nothing, an error of one bit or of two (R66). -/
inductive Ecc where
  | clean | single | double
  deriving DecidableEq, Repr

/-- A word of tick RAM that is read, and what its ECC shows. -/
structure TramWord where
  index : Fin 65536
  ecc : Ecc
  deriving DecidableEq, Repr


/-! ### Operands of the front ends, converters and calibration -/

/-- Why Stoker restarts (R543): watchdog, fault or activation. -/
inductive RestartCause where
  | watchdog | fault | activation
  deriving DecidableEq, Repr

/-- What one slice of a core measures in a core run (R192): the means at zero, mid-scale, plus and minus full scale in
2^-8 LSB, and the largest RMS about its mean in 2^-8 LSB. -/
structure SliceMeas where
  zero : Int
  mid : Int
  plus : Int
  minus : Int
  noise : Nat
  deriving DecidableEq, Repr

/-- What one sense converter reads of the four points in a cycle (R195, R196): the means in nV before its coefficients. -/
structure SenseMeas where
  zero : Int
  mid : Int
  plus : Int
  minus : Int
  deriving DecidableEq, Repr

/-- What a driver and a sense converter show for a tick, measured outside the logic (R144, AFE_EX_STAT, AFE_EX_VOUT): for the
24 drivers the mean output current in µA and the mean force voltage in mV, and for the 96 sense converters the readings of the
sense pair whose instants fall in the tick, in nV before the converter's coefficients. A list that is shorter leaves the rest as
zero, or as no reading. -/
structure TickMeas where
  iout : List Nat
  vout : List Nat
  sense : List (List Int)
  deriving DecidableEq, Repr

/-- What remote regulation of an excitation driver asks for: the voltage across its force pins, in mV, at which the sense pair reads
VSET (R141). -/
structure Comply where
  driver : Fin 24
  force : Int
  deriving DecidableEq, Repr


/-! ### Producers of packets (R380) -/

/-- A producer of packets: sample ingress, a hearth, the edge timer (the source, interval unit or group that makes the
record), a Kindling trigger, a Press engine, Stoker, an uplink receiver. -/
inductive Producer where
  | ingress
  | hearth (h : Nat)
  | edge (u : Nat)
  | kindling (u : Nat)
  | press (e : Nat)
  | stoker
  | uplink
  deriving DecidableEq, Repr


/-! ### Operands of the field lanes (R253 to R260) -/

/-- What arrives where a training frame is due (R253): whether MARKER stands at its place, REQUEST and STATUS. -/
structure TrainFrame where
  marker : Bool
  request : BitVec 16
  status : BitVec 16
  deriving DecidableEq, Repr

/-- The tap requests the hub's receiver wants next, 0 hold, 1 increment, 2 decrement, for PRE, MAIN and POST: the spec leaves
the steering of the far end to the receiver (R256). -/
structure TapWant where
  pre : Fin 3
  main : Fin 3
  post : Fin 3
  deriving DecidableEq, Repr


/-! ### Operands of the partner manager (R279 to R304) -/

/-- A channel descriptor of NODE_INFO (R279): RATE in S/s, θ in ns. -/
structure NodeCh where
  ch : Nat
  rate : Nat
  theta : Int
  deriving DecidableEq, Repr

/-- A channel group of a SAMPLES frame. -/
structure SampleGroup where
  ch : Nat
  seq : Nat
  words : List Word
  deriving DecidableEq, Repr

/-- Where a node's frame arrives: its lane, the position in its header, and whether it passes the checks of R280. -/
structure FrameIn where
  lane : Fin 16
  pos : Nat
  ok : Bool
  deriving DecidableEq, Repr

/-- What a REPORT frame reports (R279, R286): a new epoch, or an event of the node. -/
inductive NodeReport where
  | epochNotice (epoch : Nat)
  | event (n : EvName) (detail : List Int)
  deriving DecidableEq, Repr

/-- A Slate heartbeat (R298). -/
structure Beat where
  steward : Bool
  role : Bool
  synced : Bool
  take : Bool
  rate : Nat
  tick : Nat
  epoch : Nat
  ack : Nat
  serial : Nat
  deriving DecidableEq, Repr


/-! ### Operands of network time (R309 to R333) -/

/-- What R310 checks of a PTP message: transport code, domain, sdoId, VLAN tag and version; `known` says that it is a message
type the hub supports. -/
structure PtpHdr where
  transport : Nat
  domain : Nat
  sdoMaj : Nat
  sdoMin : Nat
  vid : Option Nat
  major : Nat
  minor : Nat
  known : Bool
  deriving DecidableEq, Repr

/-- The data of an Announce message (R315): the grandmaster's data set, stepsRemoved and the sender's identity. -/
structure Announce where
  prio1 : Nat
  cls : Nat
  acc : Nat
  var : Nat
  prio2 : Nat
  gm : Nat
  steps : Nat
  src : Nat
  deriving DecidableEq, Repr


/-! ### Operands of Kindling and the edge timer (R339 to R378) -/

/-- What a fire request comes from: CAUSE 1 to 4 of a FIRE frame. -/
inductive FireCause where
  | kiln | group | condition | mask
  deriving DecidableEq, Repr

/-- What ARM and FIRE frames share: whether the tag is correct under the installation trigger key, and the header's fields. -/
structure KndFrame where
  tagOk : Bool
  version : Nat
  netid : Nat
  sender : Nat
  sseq : Nat
  armTick : Nat
  deriving DecidableEq, Repr

/-- One measurement of an interpolator (R342): the hub clock at the start of core cycle C, in 2^-16 ns, the raw count u, and
the counts u1 and u2 of the calibration that preceded it; and for a comparator how far inside its threshold the filtered signal has come back
since the lockout of its last edge ended, in VRANGE ÷ 1,024 (R155). -/
structure EdgeMeas where
  h : Nat
  u : Int
  u1 : Int
  u2 : Int
  back : Nat
  deriving DecidableEq, Repr

/-- A mirror record from the peer (R302): NODE_CFG names the identity, OP 1 JOIN, 2 LEAVE or 3 SET, the rate, NCFG, the tick J or
Lv, and the sequence base; COEFF the identity, G in 2^-28, B in 2^-8 LSB, the eight words of the record and the tick at which
slewing starts; ARM the words of "Mirrored arm state" with TF as a hub clock value. -/
inductive MirrorIn where
  | nodeCfg (serial ch state rate : Nat) (ncfg : Word) (tick base : Nat)
  | coeff (serial ch : Nat) (g b : Int) (record : List Word) (tick : Nat)
  | epoch (epoch tick : Nat)
  | arm (netid state armTick pre post tf orig : Nat)
  | syncBegin
  | syncEnd (count : Nat)
  deriving DecidableEq, Repr


/-! ### Operands of Cord (R435 to R459) -/

/-- A namespace as Identify shows it: its identifier, and whether its LBA format is 4,096 data bytes without metadata. -/
structure NsInfo where
  nsid : Nat
  format : Bool
  deriving DecidableEq, Repr

/-- What Cord finds when it initialises a controller (R435, R436): dword-aligned SGL support, MDTS in KiB with 0 for none, RDY within
CAP.TO, the I/O queue pairs granted, MQES, the CRC of its serial (R512), its namespaces, and the extents whose labels read back
intact (R451). -/
structure CtrlInfo where
  sgl : Bool
  mdts : Nat
  ready : Bool
  queues : Nat
  mqes : Nat
  sncrc : Word
  namespaces : List NsInfo
  intact : List Nat
  deriving DecidableEq, Repr

/-- An extent as a range directory lists it (R439): its state has the code of CRD_Xx_STAT. -/
structure DirExt where
  ext : Nat
  ctrl : Nat
  nsid : Nat
  lba : Nat
  len : Nat
  state : Nat
  deriving DecidableEq, Repr

/-- An index entry as Cord keeps it (R442): its place, queue, ticks, and the segment. -/
structure IdxEntry where
  ext : Nat
  seg : Nat
  abn : Nat
  queue : Nat
  first : Nat
  last : Nat
  deriving DecidableEq, Repr

/-- A pin (R447). -/
structure PinIn where
  queue : Nat
  first : Nat
  last : Nat
  deriving DecidableEq, Repr

/-- What Stoker reads at recovery (R445): the extents of the range directories, and from the newest checkpoint rolled forward the
segments in allocation order with the blocks written, the entries they hold and the pins. -/
structure RecIn where
  exts : List DirExt
  segs : List (Nat × Nat × Nat)
  entries : List IdxEntry
  pins : List PinIn
  deriving DecidableEq, Repr

/-- What a Read brings (R443, R449, R459): it fails; the words read; an index block whose CRC is correct or not; or what block 0 of an
extent holds: no label, this hub's with its extent number, another hub's. -/
inductive ReadIn where
  | fail
  | words (l : List Word)
  | index (ok : Bool)
  | blank
  | own (ext : Nat)
  | foreign
  deriving DecidableEq, Repr


/-! ### Operands of the uplinks, the Hub Control Protocol and the SPI ports (R460 to R490) -/

/-- The PRP trailer of a received frame (R462): SeqNr, LanId, and whether LSDUsize matches the frame's length. -/
structure Trailer where
  seq : Nat
  lan : Nat
  sizeOk : Bool
  deriving DecidableEq, Repr

/-- What a received frame is addressed to (R472): a PTP message under R311, which PRP leaves alone; a whole Hub Control Protocol datagram,
or a fragment of one with its identification, offset, length and More Fragments; a Kindling frame; ARP, neighbour discovery or
echo, which Stoker answers; any other. -/
inductive RxKind where
  | ptp
  | hcp
  | hcpFrag (id off len : Nat) (more : Bool)
  | kindling
  | stoker
  | other
  deriving DecidableEq, Repr

/-- TYPE of a Hub Control Protocol message that the hub takes: a REQUEST with NOPS operations, or an UMBER message. -/
inductive HcpType where
  | request (nops : Nat)
  | umber
  deriving DecidableEq, Repr


/-! ### Operands of Umber (R492 to R519) and of the resets (R520 to R536) -/

/-- What the ROM and Umber verify of an image (R515): PUBKEY hashes to its release key slot, SIG is correct, BODY_HASH is correct. -/
structure ImgCheck where
  key : Bool
  sig : Bool
  hash : Bool
  deriving DecidableEq, Repr

/-- What recovery finds of the log page that a power collapse left (R499): no page or MAGIC erased, MAGIC or CRC wrong, or CRC correct and
COMMIT not all zero. -/
inductive PageFound where
  | none
  | torn
  | completed
  deriving DecidableEq, Repr

/-- Why the hub is reset (R527). -/
inductive HubResetCause where
  | por | pin | thermal | jtag
  deriving DecidableEq, Repr

/-- A domain that can be reset alone (R529). -/
inductive Domain where
  | stk
  | tile (t : Fin 4)
  | smp
  | lane (l : Fin 16)
  | up (u : Fin 2)
  | slt
  | pcie
  | ddr
  deriving DecidableEq, Repr

/-! ### The commands -/

/-- A command to the hub: one constructor per row of spec/opcode_table.json, in the table's order. -/
inductive Instr where
  /-- TICK_BOUNDARY (R39) -/
  | tickBoundary
  /-- STAGING_CLOSE (R43) -/
  | stagingClose (meas : TickMeas)
  /-- KILN_TICK_START (R57) -/
  | kilnTickStart
  /-- TAIL_GUARD (R42) -/
  | tailGuard
  /-- KILN_PARITY (R80) -/
  | kilnParity (h : Fin 4)
  /-- NOP (R84) -/
  | nop (h : Fin 4) (p : Pred)
  /-- BR (R84) -/
  | br (h : Fin 4) (p : Pred) (off : Nat)
  /-- SKIP (R84) -/
  | skip (h : Fin 4) (p : Pred) (n : Nat)
  /-- REP (R84) -/
  | rep (h : Fin 4) (p : Pred) (count len : Nat)
  /-- WAITC (R86) -/
  | waitc (h : Fin 4) (p : Pred) (cyc : Nat)
  /-- END (R87) -/
  | endTick (h : Fin 4) (p : Pred)
  /-- LDI (R88) -/
  | ldi (h : Fin 4) (p : Pred) (d : Fin 32) (hi : Bool) (imm : BitVec 16)
  /-- GETS (R88) -/
  | gets (h : Fin 4) (p : Pred) (d : Fin 32) (sel : Nat)
  /-- ALU (R89) -/
  | alu (h : Fin 4) (p : Pred) (d s t : Fin 32) (fn : AluFn)
  /-- ADDI (R90) -/
  | addi (h : Fin 4) (p : Pred) (d s : Fin 32) (imm : BitVec 12)
  /-- ANDI (R90) -/
  | andi (h : Fin 4) (p : Pred) (d s : Fin 32) (imm : BitVec 12)
  /-- ORI (R90) -/
  | ori (h : Fin 4) (p : Pred) (d s : Fin 32) (imm : BitVec 12)
  /-- XORI (R90) -/
  | xori (h : Fin 4) (p : Pred) (d s : Fin 32) (imm : BitVec 12)
  /-- SHLI (R90) -/
  | shli (h : Fin 4) (p : Pred) (d s : Fin 32) (sh : Fin 32)
  /-- SHRI (R90) -/
  | shri (h : Fin 4) (p : Pred) (d s : Fin 32) (sh : Fin 32)
  /-- SRAI (R90) -/
  | srai (h : Fin 4) (p : Pred) (d s : Fin 32) (sh : Fin 32)
  /-- MUL (R91) -/
  | mul (h : Fin 4) (p : Pred) (a : Fin 4) (s t : Fin 32) (u : Bool)
  /-- MAC (R91) -/
  | mac (h : Fin 4) (p : Pred) (a : Fin 4) (s t : Fin 32) (u neg : Bool)
  /-- CLRA (R91) -/
  | clra (h : Fin 4) (p : Pred) (a : Fin 4)
  /-- LDA (R91) -/
  | lda (h : Fin 4) (p : Pred) (a : Fin 4) (s t : Fin 32)
  /-- MVA (R91) -/
  | mva (h : Fin 4) (p : Pred) (d : Fin 32) (a : Fin 4) (sh : Fin 64) (rnd : Bool)
  /-- CMP (R92) -/
  | cmp (h : Fin 4) (p : Pred) (f : Fin 8) (s t : Fin 32) (c : Cond)
  /-- CMPI (R92) -/
  | cmpi (h : Fin 4) (p : Pred) (f : Fin 8) (s : Fin 32) (imm : BitVec 11) (c : Cond)
  /-- FLOP (R93) -/
  | flop (h : Fin 4) (p : Pred) (f a b : Fin 8) (fn : FlopFn)
  /-- TSTB (R93) -/
  | tstb (h : Fin 4) (p : Pred) (f : Fin 8) (s : Fin 32) (bit : Fin 32)
  /-- SWD (R94) -/
  | swd (h : Fin 4) (p : Pred) (d s t : Fin 32) (fn : SwdFn)
  /-- LD (R95) -/
  | ld (h : Fin 4) (p : Pred) (d s : Fin 32) (imm : BitVec 12)
  /-- ST (R95) -/
  | st (h : Fin 4) (p : Pred) (t s : Fin 32) (imm : BitVec 12)
  /-- LD64 (R95) -/
  | ld64 (h : Fin 4) (p : Pred) (a : Fin 4) (s : Fin 32) (imm : BitVec 12)
  /-- ST64 (R95) -/
  | st64 (h : Fin 4) (p : Pred) (a : Fin 4) (s : Fin 32) (imm : BitVec 12)
  /-- SCNT (R96) -/
  | scnt (h : Fin 4) (p : Pred) (d c : Fin 32) (view : View)
  /-- SRD (R96) -/
  | srd (h : Fin 4) (p : Pred) (d c i : Fin 32)
  /-- STRD (R96) -/
  | strd (h : Fin 4) (p : Pred) (d c i : Fin 32)
  /-- ROUTE (R97) -/
  | route (h : Fin 4) (p : Pred) (c q : Fin 32)
  /-- ENQ (R99) -/
  | enq (h : Fin 4) (p : Pred) (q v : Fin 32) (eop : Bool)
  /-- QDEP (R101) -/
  | qdep (h : Fin 4) (p : Pred) (d q : Fin 32)
  /-- SCHD (R101) -/
  | schd (h : Fin 4) (p : Pred) (d s t : Fin 32) (off : Fin 128)
  /-- FIRE (R102) -/
  | fire (h : Fin 4) (p : Pred) (u c i : Fin 32) (mode : FireMode)
  /-- PINS (R103) -/
  | pins (h : Fin 4) (p : Pred) (m v o : Fin 32)
  /-- SPIX (R104) -/
  | spix (h : Fin 4) (p : Pred) (k : Fin 32) (m : Fin 2)
  /-- SIG (R105) -/
  | sig (h : Fin 4) (p : Pred) (imm : BitVec 16)
  /-- HPW (R106) -/
  | hpw (h : Fin 4) (p : Pred) (port : Fin 10) (s t : Fin 32) (off : BitVec 8)
  /-- HPR (R106) -/
  | hpr (h : Fin 4) (p : Pred) (d : Fin 32) (port : Fin 10) (s : Fin 32) (off : BitVec 8)
  /-- POSTED_DRAIN (R72) -/
  | postedDrain (h : Fin 4)
  /-- PINS_APPLY (R490) -/
  | pinsApply (cyc : Nat)
  /-- REGISTER_WRITE (R8) -/
  | registerWrite (m : Master) (addr : Nat) (data : Word)
  /-- BUS_ADDR_ACCESS (R538) -/
  | busAddrAccess (m : Master) (addr : Nat) (write : Bool)
  /-- TICK_LO_READ (R541) -/
  | tickLoRead (m : Master) (now : Bool)
  /-- TRAM_BUS_READ (R66) -/
  | tramBusRead (m : Master) (w : TramWord)
  /-- TICK_RATE_SET (R32) -/
  | tickRateSet (m : Master) (rate : Nat) (run : Bool)
  /-- TICK_RUN_START (R33) -/
  | tickRunStart (m : Master)
  /-- TICK_STOP (R34) -/
  | tickStop
  /-- TICK_GENERATOR_START (R33) -/
  | tickGeneratorStart
  /-- SCHED_COMMIT (R49) -/
  | schedCommit (m : Master) (lateOk cancel : Bool)
  /-- SCHED_CANCEL (R50) -/
  | schedCancel (m : Master)
  /-- LOAD_START (R115) -/
  | loadStart (m : Master) (bank : Fin 2) (abort : Bool)
  /-- LOAD_ABORT (R117) -/
  | loadAbort (m : Master)
  /-- LOAD_DATA (R116) -/
  | loadData (m : Master) (data : Word)
  /-- LOAD_TIMEOUT (R117) -/
  | loadTimeout
  /-- LOAD_CHECK_DONE (R118) -/
  | loadCheckDone
  /-- BANK_WRITE (R114) -/
  | bankWrite (m : Master) (bank : Fin 2) (word : Fin 65536)
  /-- SWAP_REQUEST (R126) -/
  | swapRequest (m : Master) (bank : Fin 2)
  /-- TILE_LINK_FRAME (R11) -/
  | tileLinkFrame (t : Fin 4) (n : Nat) (ok : Bool)
  /-- TILE_DOWN (R12) -/
  | tileDown (t : Fin 4)
  /-- TILE_UP (R12) -/
  | tileUp (t : Fin 4)
  /-- STOKER_RESTART (R13) -/
  | stokerRestart (cause : RestartCause)
  /-- EVENT_RECORD (R550) -/
  | eventRecord (n : EvName) (obj : Nat) (detail : List Int)
  /-- STOKER_FORWARD_EVENT (R550) -/
  | stokerForwardEvent
  /-- COMMON_CAUSE_END (R305) -/
  | commonCauseEnd (n : EvName)
  /-- GAP_FORWARD (R455) -/
  | gapForward
  /-- SETTLE_END (R138) -/
  | settleEnd (c : Fin 96)
  /-- CM_CHECK (R146) -/
  | cmCheck (c : Fin 96) (mv : Int)
  /-- EXC_COMPLY (R141) -/
  | excComply (x : Comply)
  /-- EXC_LIMIT (R143) -/
  | excLimit (d : Fin 24)
  /-- EXC_LIMIT_END (R143) -/
  | excLimitEnd (d : Fin 24)
  /-- UT_SELECT (R153) -/
  | utSelect (m : Master) (sel : Bool)
  /-- CODE_PERIOD_END (R240) -/
  | codePeriodEnd (c : Fin 96)
  /-- CONVERSION (R163) -/
  | conversion (c : Fin 96) (j : Nat) (old : Bool) (input : Int) (ovr : Option Nat) (spare : Option Int)
  /-- CORE_START_UP (R167) -/
  | coreStartUp (q : Fin 36)
  /-- ESTIMATOR_BLOCK (R170) -/
  | estimatorBlock (tile : Fin 4) (cluster : Fin 3) (core : Fin 3)
  /-- VISIT_REQUEST (R173) -/
  | visitRequest (m : Master) (n : Fin 12) (duty : Fin 2) (force : Bool)
  /-- SPARE_RUN_REQUEST (R176) -/
  | spareRunRequest (m : Master) (n : Fin 12)
  /-- VISIT_CANCEL (R181) -/
  | visitCancel (m : Master) (n : Fin 12)
  /-- ROTATION_REQUEST (R175) -/
  | rotationRequest (n : Fin 12)
  /-- TEMP_TRIGGER_EVAL (R176) -/
  | tempTriggerEval
  /-- VISIT_BEGIN (R173) -/
  | visitBegin (t : Fin 4)
  /-- MATCH_CHECK (R178) -/
  | matchCheck (n : Fin 12)
  /-- SHADOW_SHORT (R181) -/
  | shadowShort (n : Fin 12)
  /-- VISIT_RETRY (R180) -/
  | visitRetry (n : Fin 12) (duty : Fin 2)
  /-- CORE_CAL_DONE (R193) -/
  | coreCalDone (t : Fin 4) (m0 m1 : SliceMeas) (ovl : Bool)
  /-- CORE_RUN_RETRY (R185) -/
  | coreRunRetry (n : Fin 12)
  /-- SENSE_REF_CYCLE_END (R196) -/
  | senseRefCycleEnd (t : Fin 4) (means : List SenseMeas)
  /-- START_ZERO (R197) -/
  | startZero (m : Master)
  /-- START_FULL (R197) -/
  | startFull (m : Master)
  /-- FINISH (R197) -/
  | finish (m : Master)
  /-- ABORT (R198) -/
  | abort (m : Master)
  /-- CAL_PHASE_END (R197) -/
  | calPhaseEnd
  /-- CAL_SYS_TIMEOUT (R198) -/
  | calSysTimeout
  /-- LOAD (R210) -/
  | load (m : Master) (c : Fin 4192)
  /-- EDIT (R220) -/
  | edit (m : Master) (bank : Fin 2)
  /-- SEAL (R220) -/
  | seal (m : Master) (bank : Fin 2)
  /-- CHR_BANK_SEAL_DONE (R221) -/
  | chrBankSealDone (bank : Fin 2)
  /-- CHR_BANK_WRITE (R220) -/
  | chrBankWrite (m : Master) (bank : Fin 2) (off : Fin 24576) (data : Word)
  /-- CHR_SWAP_REQUEST (R222) -/
  | chrSwapRequest (m : Master) (bank : Fin 2)
  /-- DETECTOR_WINDOW_END (R233) -/
  | detectorWindowEnd (d : Fin 512)
  /-- LANE_DISABLE (R264) -/
  | laneDisable (m : Master) (l : Fin 16)
  /-- RETRAIN (R264) -/
  | retrain (m : Master) (l : Fin 16)
  /-- LANE_LP_REQUEST (R268) -/
  | laneLpRequest (m : Master) (l : Fin 16) (smoulder : Bool)
  /-- LANE_LP_WAKE (R270) -/
  | laneLpWake (m : Master) (l : Fin 16)
  /-- DETECT_WINDOW (R251) -/
  | detectWindow (l : Fin 16) (seen : Bool)
  /-- TRAINING_FRAME (R253) -/
  | trainingFrame (l : Fin 16) (f : TrainFrame) (adapted : Bool) (want : TapWant)
  /-- TRAIN_TIMEOUT (R253) -/
  | trainTimeout (l : Fin 16)
  /-- BITLOCK_MEASURE (R257) -/
  | bitlockMeasure (l : Fin 16) (ppb : Int)
  /-- BITLOCK_TIMEOUT (R251) -/
  | bitlockTimeout (l : Fin 16)
  /-- BLOCK_RECEIVED (R258) -/
  | blockReceived (l : Fin 16) (hdr : Fin 4)
  /-- BLOCK_LOCK_TIMEOUT (R251) -/
  | blockLockTimeout (l : Fin 16)
  /-- CAPS_BLOCK (R260) -/
  | capsBlock (l : Fin 16) (version rates flags : BitVec 8)
  /-- CAPS_TIMEOUT (R251) -/
  | capsTimeout (l : Fin 16)
  /-- LOSS_OF_SIGNAL (R252) -/
  | lossOfSignal (l : Fin 16)
  /-- RELOCK_TIMEOUT (R262) -/
  | relockTimeout (l : Fin 16)
  /-- HOLD_END (R265) -/
  | holdEnd (l : Fin 16)
  /-- FAILS_CLEAR_ACTIVE (R266) -/
  | failsClearActive (l : Fin 16)
  /-- FAR_ABSENT (R266) -/
  | farAbsent (l : Fin 16)
  /-- LP_BLOCK (R269) -/
  | lpBlock (l : Fin 16) (mode : Fin 4) (ack : Bool)
  /-- LP_NOACK (R269) -/
  | lpNoack (l : Fin 16)
  /-- WAKE_FAIL (R270) -/
  | wakeFail (l : Fin 16)
  /-- LANE_WAKE_FAR (R272) -/
  | laneWakeFar (l : Fin 16)
  /-- RELIGHT_DONE (R271) -/
  | relightDone (l : Fin 16)
  /-- DISCOVER_SEND (R281) -/
  | discoverSend (l : Fin 16) (long : Bool)
  /-- NODE_INFO (R281) -/
  | nodeInfo (f : FrameIn) (serial model : Nat) (twoPorts : Bool) (epoch : Nat) (chans : List NodeCh)
  /-- SAMPLES (R295) -/
  | samples (f : FrameIn) (tick epoch : Nat) (groups : List SampleGroup)
  /-- REPORT (R286) -/
  | report (f : FrameIn) (r : NodeReport)
  /-- REPLY (R287) -/
  | reply (f : FrameIn) (epoch cseq : Nat) (result : Fin 5) (value : Nat)
  /-- ROUTE_EXPIRY (R282) -/
  | routeExpiry (p : Fin 512) (l : Fin 16)
  /-- COMMAND_RETRY (R287) -/
  | commandRetry (cseq : Nat)
  /-- JOIN (R289) -/
  | join (sl : Fin 4192)
  /-- LEAVE (R292) -/
  | leave (sl : Fin 4192) (lead : Nat)
  /-- SLOT_SET (R285) -/
  | slotSet (m : Master) (sl : Fin 4192) (ncfg : Bool) (data : Word)
  /-- MIRROR_LAG (R289) -/
  | mirrorLag (mseq : Nat)
  /-- HEARTBEAT (R298) -/
  | heartbeat (b : Beat)
  /-- STEWARD_TAKE_SILENCE (R299) -/
  | stewardTakeSilence
  /-- TAKE (R299) -/
  | take (m : Master)
  /-- MIRROR_RECORD (R303) -/
  | mirrorRecord (mseq : Nat) (r : MirrorIn)
  /-- MIRROR_RESEND (R303) -/
  | mirrorResend
  /-- SLATE_UP (R304) -/
  | slateUp
  /-- PTP_SYNC (R314) -/
  | ptpSync (u : Fin 2) (h : PtpHdr) (src seq : Nat) (twoStep : Bool) (origin corr stamp : Int)
  /-- PTP_FOLLOW_UP (R314) -/
  | ptpFollowUp (u : Fin 2) (h : PtpHdr) (src seq : Nat) (origin corr : Int)
  /-- PTP_ANNOUNCE (R315) -/
  | ptpAnnounce (u : Fin 2) (h : PtpHdr) (a : Announce)
  /-- PTP_DELAY_RESP (R314) -/
  | ptpDelayResp (u : Fin 2) (h : PtpHdr) (src seq : Nat) (receipt corr : Int)
  /-- PTP_PDELAY_REQ (R313) -/
  | ptpPdelayReq (u : Fin 2) (h : PtpHdr) (seq : Nat) (ingress egress : Int)
  /-- PTP_PDELAY_RESP (R314) -/
  | ptpPdelayResp (u : Fin 2) (h : PtpHdr) (seq : Nat) (turn corr stamp : Int)
  /-- PTP_REQ_SEND (R313) -/
  | ptpReqSend (u : Fin 2) (egress : Int)
  /-- FOLLOW_UP_TIMEOUT (R314) -/
  | followUpTimeout (u : Fin 2) (seq : Nat)
  /-- ANNOUNCE_TIMEOUT (R321) -/
  | announceTimeout (u : Fin 2)
  /-- SYNC_TIMEOUT (R321) -/
  | syncTimeout
  /-- SERVO_UPDATE_TIMEOUT (R321) -/
  | servoUpdateTimeout
  /-- PORT_COMPARE (R317) -/
  | portCompare
  /-- TIME_OFFSET (R320) -/
  | timeOffset
  /-- GO (R325) -/
  | go (m : Master) (mode cancel : Bool)
  /-- CANCEL (R325) -/
  | cancel (m : Master)
  /-- RESTEP_APPLY (R326) -/
  | restepApply
  /-- HOLD_RESUME (R38) -/
  | holdResume
  /-- RESTEP_AUTH_EXPIRY (R324) -/
  | restepAuthExpiry
  /-- PROBE_SEND (R332) -/
  | probeSend (l : Fin 16) (depart : Int)
  /-- ECHO (R332) -/
  | echo (l : Fin 16) (seq : Nat) (arrive turn : Int)
  /-- PROBE_TIMEOUT (R333) -/
  | probeTimeout (l : Fin 16) (seq : Nat)
  /-- EDGE_ARRIVAL (R343) -/
  | edgeArrival (sr : Fin 112) (rise : Bool) (e : EdgeMeas)
  /-- EDGE_RELEASE (R347) -/
  | edgeRelease
  /-- INTERVAL_TIMEOUT (R350) -/
  | intervalTimeout (i : Fin 16)
  /-- GROUP_WINDOW_TIMEOUT (R352) -/
  | groupWindowTimeout (g : Fin 32)
  /-- GROUP_HOLDOFF_END (R352) -/
  | groupHoldoffEnd (g : Fin 32)
  /-- ARM (R359) -/
  | arm (m : Master) (u : Fin 64) (lateOk send : Bool)
  /-- DISARM (R360) -/
  | disarm (m : Master) (u : Fin 64) (send : Bool)
  /-- FIRE_REQUEST (R363) -/
  | fireRequest (u : Fin 64) (time : Nat) (cause : FireCause)
  /-- SETTLE_INTERVAL_END (R363) -/
  | settleIntervalEnd (u : Fin 64)
  /-- ARM_FRAME (R367) -/
  | armFrame (f : KndFrame) (pre post : Nat) (disarm : Bool)
  /-- FIRE_FRAME (R367) -/
  | fireFrame (f : KndFrame) (time : Nat) (cause : FireCause)
  /-- CAPTURE_COPY (R369) -/
  | captureCopy (u : Fin 64) (bad : List (Nat × Nat))
  /-- CAPTURE_TRUNCATE (R372) -/
  | captureTruncate (u : Fin 64)
  /-- CAPTURE_END (R369) -/
  | captureEnd (u : Fin 64)
  /-- START (R376) -/
  | start (m : Master)
  /-- APPLY (R378) -/
  | apply (m : Master)
  /-- SKEW_ABORT (R376) -/
  | skewAbort (m : Master)
  /-- SKEW_PULSE (R376) -/
  | skewPulse
  /-- SKEW_RUN_DONE (R377) -/
  | skewRunDone
  /-- QUEUE_FLUSH (R390) -/
  | queueFlush (m : Master) (q : Fin 4096) (force : Bool)
  /-- QUEUE_DISABLE (R384) -/
  | queueDisable (m : Master) (q : Fin 4096)
  /-- HOST_WINDOW_BIND (R388) -/
  | hostWindowBind (m : Master) (n : Fin 16) (q : Fin 4096) (en : Bool)
  /-- HOST_WINDOW_READ (R389) -/
  | hostWindowRead (m : Master) (n : Fin 16)
  /-- ITEM_READY (R381) -/
  | itemReady (q : Fin 4096) (single : Nat) (double : Bool)
  /-- SPILL (R395) -/
  | spill (q : Fin 4096)
  /-- FILL (R396) -/
  | fill (q : Fin 4096)
  /-- BLOCK_TRANSFER_DONE (R396) -/
  | blockTransferDone (q : Fin 4096) (fill : Bool)
  /-- BACKLOG_TRAINED (R398) -/
  | backlogTrained (intact : Bool)
  /-- HIST_SET (R399) -/
  | histSet (m : Master) (mib : BitVec 16)
  /-- STARVATION (R411) -/
  | starvation (r : Fin 16) (b : Fin 16)
  /-- PRESS_TAKE_ITEM (R413) -/
  | pressTakeItem (e : Fin 4)
  /-- BRIQUETTE_AGE_CLOSE (R414) -/
  | briquetteAgeClose (q : Fin 4096)
  /-- VERIFY_DONE (R425) -/
  | verifyDone (i : Fin 2) (code : Fin 9)
  /-- RETRIEVAL_DONE (R428) -/
  | retrievalDone (i : Fin 2)
  /-- CONTROLLER_INIT (R435) -/
  | controllerInit (n : Nat) (c : CtrlInfo)
  /-- CORD_RECOVERY (R445) -/
  | cordRecovery (r : RecIn)
  /-- CORD_TAKE_ITEM (R440) -/
  | cordTakeItem
  /-- UNIT_AGE_CLOSE (R440) -/
  | unitAgeClose (id : Nat)
  /-- WRITE_COMPLETE (R442) -/
  | writeComplete (id status : Nat)
  /-- WRITE_TIMEOUT (R452) -/
  | writeTimeout (id : Nat)
  /-- EPOCH_END (R443) -/
  | epochEnd
  /-- ADD (R449) -/
  | add (m : Master) (format : Bool)
  /-- REMOVE (R450) -/
  | remove (m : Master) (x : Fin 8192)
  /-- CONTROLLER_FAILED (R451) -/
  | controllerFailed (n : Fin 4)
  /-- CONTROLLER_RETRY (R451) -/
  | controllerRetry (n : Fin 4) (c : CtrlInfo)
  /-- RELEASE (R447) -/
  | release (m : Master) (p : Fin 256)
  /-- JOB_SUBMIT (R459) -/
  | jobSubmit (m : Master) (kind : Fin 4) (strict : Bool) (q : Fin 4096)
  /-- READ_COMPLETE (R459) -/
  | readComplete (id : Nat) (r : ReadIn)
  /-- STREAM_SEND (R465) -/
  | streamSend
  /-- COMMIT (R469) -/
  | commit (m : Master) (lateOk cancel : Bool)
  /-- LAUNCH_CANCEL (R469) -/
  | launchCancel (m : Master) (sl : Fin 64)
  /-- LAUNCH_SLOT (R470) -/
  | launchSlot (sl : Fin 64) (e0 e1 : Nat)
  /-- UPLINK_LINK_CHANGE (R460) -/
  | uplinkLinkChange (u : Fin 2) (link fit : Bool)
  /-- UPLINK_STALL (R468) -/
  | uplinkStall (q : Fin 4096)
  /-- PRP_SUPERVISION (R461) -/
  | prpSupervision
  /-- FRAME_RECEIVE (R472) -/
  | frameReceive (u : Fin 2) (src : Nat) (tr : Option Trailer) (kind : RxKind)
  /-- HCP_MESSAGE (R473) -/
  | hcpMessage (session mseq : Nat) (tagOk fits : Bool) (ty : HcpType)
  /-- READ (R476) -/
  | read (addr : Nat) (n : Fin 256) (stop : Bool)
  /-- WRITE (R476) -/
  | write (addr : Nat) (data : List Word) (stop : Bool)
  /-- FIFO_WRITE (R476) -/
  | fifoWrite (addr : Nat) (data : List Word) (stop : Bool)
  /-- FIFO_READ (R476) -/
  | fifoRead (addr : Nat) (n : Fin 256) (stop : Bool)
  /-- SCHED (R476) -/
  | sched (tick addr : Nat) (data mask : Word) (lateOk stop : Bool)
  /-- HCP_REASSEMBLY (R474) -/
  | hcpReassembly (id : Nat)
  /-- NOTICE (R479) -/
  | notice
  /-- SPIS_READ (R481) -/
  | spisRead (a : Fin 128) (n : Nat) (late : List Bool)
  /-- SPIS_WRITE (R485) -/
  | spisWrite (a : Fin 128) (bytes : List (BitVec 8)) (slow : Bool)
  /-- SPIS_FETCH_DONE (R484) -/
  | spisFetchDone
  /-- SPIM_TRANSACTION (R488) -/
  | spimTransaction (m : Fin 2) (cyc : Nat)
  /-- SPIM_TRANSACTION_END (R488) -/
  | spimTransactionEnd (m : Fin 2) (rx : List (BitVec 8))
  /-- SENSOR_SAMPLE (R495) -/
  | sensorSample (k : Fin 38) (v : Int) (ack : Bool)
  /-- THERMAL_TRIP (R496) -/
  | thermalTrip (sel25 compat : Bool)
  /-- THERMAL_RELEASE (R496) -/
  | thermalRelease
  /-- LOG_PAGE_START (R497) -/
  | logPageStart
  /-- LOG_PAGE_COMMIT (R498) -/
  | logPageCommit
  /-- LOG_RECOVERY (R499) -/
  | logRecovery (found : PageFound)
  /-- SUBMIT (R502) -/
  | submit (m : Master) (len : Fin 16384)
  /-- MAILBOX_RLEN_READ (R502) -/
  | mailboxRlenRead (m : Master)
  /-- UMB_MBOX_RELEASED (R502) -/
  | umbMboxReleased
  /-- OPEN (R504) -/
  | openSession (key : Fin 256) (perm : Fin 65536) (life : Nat) (sigOk : Bool)
  /-- CLOSE (R505) -/
  | closeSession
  /-- LOG_READ (R503) -/
  | logRead (seq n : Nat)
  /-- KEY_SET (R503) -/
  | keySet (sl : Fin 256) (mask : Fin 65536) (pub : Nat)
  /-- TRIGKEY_SET (R503) -/
  | trigkeySet (key : Nat)
  /-- UPD_BEGIN (R514) -/
  | updBegin (type : Fin 256) (total : Nat)
  /-- UPD_DATA (R514) -/
  | updData (offset : Nat) (bytes : List (BitVec 8))
  /-- UPD_END (R515) -/
  | updEnd (c : ImgCheck)
  /-- ACTIVATE (R517) -/
  | activate (type : Fin 256) (tick : Nat)
  /-- IMAGE_COMMIT (R518) -/
  | imageCommit (type : Fin 256)
  /-- LC_CHANGE (R508) -/
  | lcChange (dst timeout : Nat)
  /-- FENCE_WRITE (R510) -/
  | fenceWrite (addr : Nat) (value : Word)
  /-- RESTEP_AUTH (R507) -/
  | restepAuth (dir : Fin 256) (most expiry : Nat)
  /-- SESSION_EXPIRY (R505) -/
  | sessionExpiry (id : Nat)
  /-- UPDATE_ABANDONED (R514) -/
  | updateAbandoned
  /-- SERVICE_TIMEOUT (R508) -/
  | serviceTimeout
  /-- STOKER_RELEASE (R517) -/
  | stokerRelease
  /-- HEALTH_REPORT (R518) -/
  | healthReport
  /-- UPDATE_REVERTED (R518) -/
  | updateReverted
  /-- UMBER_TRIAL_TIMEOUT (R519) -/
  | umberTrialTimeout
  /-- XREF_LOST (R522) -/
  | xrefLost
  /-- XREF_OK (R522) -/
  | xrefOk
  /-- REFCLK_LOST (R523) -/
  | refclkLost
  /-- REFCLK_OK (R523) -/
  | refclkOk
  /-- UXTAL_LOST (R524) -/
  | uxtalLost
  /-- UXTAL_OK (R524) -/
  | uxtalOk
  /-- SMP_UNLOCK (R525) -/
  | smpUnlock
  /-- SMP_LOCK (R525) -/
  | smpLock
  /-- POWER_UP (R526) -/
  | powerUp (refOk sel25 compat : Bool)
  /-- HUB_RESET (R527) -/
  | hubReset (cause : HubResetCause) (sel25 compat : Bool)
  /-- UMB_RST (R492) -/
  | umbRst (sel25 compat : Bool)
  /-- DOMAIN_RESET (R532) -/
  | domainReset (d : Domain)
  /-- DOMAIN_RESET_RELEASE (R529) -/
  | domainResetRelease (d : Domain)
  /-- RST_REQ (R529) -/
  | rstReq (m : Master) (slt pcie ddr : Bool) (up : Fin 4)
  /-- STOKER_RUNNING (R13) -/
  | stokerRunning
  /-- BANK_DECISION (R406) -/
  | bankDecision (b : Fin 16) (req : BitVec 16)
  /-- ARCHIVE_DOWN (R457) -/
  | archiveDown
  /-- NODE_BOUND_FRAME (R277) -/
  | nodeBoundFrame (l : Fin 16)
  /-- TRAIN_DONE (R255) -/
  | trainDone (l : Fin 16)
  /-- CAPS_SEND (R260) -/
  | capsSend (l : Fin 16)
  /-- UMBER_RESTART_DONE (R519) -/
  | umberRestartDone
  /-- EXCITATION_RAIL_MOVE (R558) -/
  | excitationRailMove (d : Fin 24) (high : Bool)
  deriving DecidableEq, Repr

end Sys2Proof
end

