-- ==== Sys2Proof/Decode.lean ====
section
/-!
DEFINITION. Two decoders. `decodeTableWord` is the host's: no row of spec/opcode_table.json gives bits, so
no word spells a command and it answers none on every word. `kdecode` reads one Kiln instruction word (R81 to R83)
and `kencode` writes it; the loader checks an image with them.
-/
namespace Sys2Proof

/-- The command that a word spells by the opcode table's bits: the table gives bits to no row. -/
def decodeTableWord (_nbits _w : Nat) : Option Instr := none

/-! ### Fields of a Kiln word (R81, R82) -/

/-- Bits [hi:lo] of a word. -/
def wordBits (w : Nat) (hi lo : Nat) : Nat := w / 2 ^ lo % 2 ^ (hi + 1 - lo)

/-- A number below 32 as a register number. -/
def reg5 (n : Nat) : Fin 32 := ⟨n % 32, Nat.mod_lt _ (by decide)⟩
/-- A number below 4 as an accumulator number. -/
def acc2 (n : Nat) : Fin 4 := ⟨n % 4, Nat.mod_lt _ (by decide)⟩
/-- A number below 8 as a flag number. -/
def flag3 (n : Nat) : Fin 8 := ⟨n % 8, Nat.mod_lt _ (by decide)⟩

/-- `alu` FN (R89). -/
def aluFnOf : Nat → Option AluFn
  | 0 => some .add | 1 => some .sub | 2 => some .and | 3 => some .or | 4 => some .xor | 5 => some .shl | 6 => some .shr
  | 7 => some .sra | 8 => some .min | 9 => some .max | 10 => some .minu | 11 => some .maxu | 12 => some .adds
  | 13 => some .subs | 14 => some .abs | _ => none

/-- FN of an `alu` operation. -/
def aluFnCode : AluFn → Nat
  | .add => 0 | .sub => 1 | .and => 2 | .or => 3 | .xor => 4 | .shl => 5 | .shr => 6 | .sra => 7 | .min => 8 | .max => 9
  | .minu => 10 | .maxu => 11 | .adds => 12 | .subs => 13 | .abs => 14

/-- COND (R92). -/
def condOf : Nat → Cond
  | 0 => .eq | 1 => .ne | 2 => .lt | 3 => .le | 4 => .gt | 5 => .ge | 6 => .ltu | _ => .geu

/-- COND of a condition. -/
def condCode : Cond → Nat
  | .eq => 0 | .ne => 1 | .lt => 2 | .le => 3 | .gt => 4 | .ge => 5 | .ltu => 6 | .geu => 7

/-- `flop` FN (R93). -/
def flopFnOf : Nat → FlopFn
  | 0 => .and | 1 => .or | 2 => .xor | 3 => .andn | 4 => .copy | 5 => .not | 6 => .set | _ => .clear

/-- FN of a `flop` operation. -/
def flopFnCode : FlopFn → Nat
  | .and => 0 | .or => 1 | .xor => 2 | .andn => 3 | .copy => 4 | .not => 5 | .set => 6 | .clear => 7

/-- `swd` FN (R94). -/
def swdFnOf : Nat → Option SwdFn
  | 0 => some .data | 1 => some .stat | 2 => some .pack | _ => none

/-- FN of a `swd` operation. -/
def swdFnCode : SwdFn → Nat
  | .data => 0 | .stat => 1 | .pack => 2

/-- `fire` FN (R102). -/
def fireModeOf : Nat → Option FireMode
  | 0 => some .stagingEntry | 1 => some .outputWord | 2 => some .boundaryPlus | _ => none

/-- FN of a `fire` mode. -/
def fireModeCode : FireMode → Nat
  | .stagingEntry => 0 | .outputWord => 1 | .boundaryPlus => 2

/-- The values of sel that `gets` takes (R88). -/
def selKnown (n : Nat) : Bool := decide (n ≤ 0x00A) || (decide (0x010 ≤ n) && decide (n ≤ 0x013))

/-- Whether a `flop` operation uses its second source, and its first (R93). -/
def flopUsesB : FlopFn → Bool
  | .and | .or | .xor | .andn => true
  | _ => false
def flopUsesA : FlopFn → Bool
  | .set | .clear => false
  | _ => true

/-- Whether an opcode is in the opcode map (R83). -/
def opKnown (op : Nat) : Bool :=
  [0x00, 0x01, 0x02, 0x03, 0x04, 0x05, 0x08, 0x09, 0x0A, 0x0B, 0x0C, 0x10, 0x11, 0x12, 0x13, 0x14, 0x15, 0x16, 0x17, 0x18,
   0x19, 0x1B, 0x20, 0x21, 0x22, 0x23, 0x28, 0x29, 0x2A, 0x2B, 0x30, 0x31, 0x32, 0x35, 0x36, 0x37, 0x38, 0x39, 0x3A, 0x3B,
   0x3C, 0x3D, 0x3E].contains op

/-- `some v` when the condition holds. -/
def guarded {α : Type} (c : Bool) (v : α) : Option α := if c then some v else none

/-- The operation of a word, from its opcode and operand bits: none for an unknown opcode, for a nonzero bit in a field
the instruction does not use, and for an operand out of range (R82, R83). -/
def kdecodeOp (w : Nat) : Option KOp :=
  let d := wordBits w 21 17
  let s := wordBits w 16 12
  let t := wordBits w 11 7
  let fn := wordBits w 6 0
  let imm12 := BitVec.ofNat 12 (wordBits w 11 0)
  match wordBits w 31 26 with
  | 0x00 => guarded (wordBits w 21 0 == 0) .nop
  | 0x01 => guarded (wordBits w 21 16 == 0) (.br (wordBits w 15 0))
  | 0x02 => guarded (wordBits w 21 10 == 0 && decide (1 ≤ wordBits w 9 0)) (.skip (wordBits w 9 0))
  | 0x03 => guarded (decide (1 ≤ wordBits w 21 10) && decide (1 ≤ wordBits w 9 0)) (.rep (wordBits w 21 10) (wordBits w 9 0))
  | 0x04 => guarded (wordBits w 21 20 == 0) (.waitc (wordBits w 19 0))
  | 0x05 => guarded (wordBits w 21 0 == 0) .endTick
  | 0x08 => some (.ldi (reg5 d) (wordBits w 16 16 == 1) (BitVec.ofNat 16 (wordBits w 15 0)))
  | 0x09 => guarded (s == 0 && selKnown (wordBits w 11 0)) (.gets (reg5 d) (wordBits w 11 0))
  | 0x0A => guarded (decide (s < 4) && t == 0)
      (.mva (reg5 d) (acc2 s) ⟨fn % 64, Nat.mod_lt _ (by decide)⟩ (decide (64 ≤ fn)))
  | 0x0B => guarded (decide (d < 4) && s == 0 && t == 0 && fn == 0) (.clra (acc2 d))
  | 0x0C => guarded (decide (d < 4) && fn == 0) (.lda (acc2 d) (reg5 s) (reg5 t))
  | 0x10 => match aluFnOf fn with
      | some .abs => guarded (t == 0) (.alu (reg5 d) (reg5 s) (reg5 t) .abs)
      | some f => some (.alu (reg5 d) (reg5 s) (reg5 t) f)
      | none => none
  | 0x11 => some (.addi (reg5 d) (reg5 s) imm12)
  | 0x12 => some (.andi (reg5 d) (reg5 s) imm12)
  | 0x13 => some (.ori (reg5 d) (reg5 s) imm12)
  | 0x14 => some (.xori (reg5 d) (reg5 s) imm12)
  | 0x15 => guarded (wordBits w 11 5 == 0) (.shli (reg5 d) (reg5 s) (reg5 (wordBits w 4 0)))
  | 0x16 => guarded (wordBits w 11 5 == 0) (.shri (reg5 d) (reg5 s) (reg5 (wordBits w 4 0)))
  | 0x17 => guarded (wordBits w 11 5 == 0) (.srai (reg5 d) (reg5 s) (reg5 (wordBits w 4 0)))
  | 0x18 => guarded (decide (d < 4) && decide (fn < 2)) (.mul (acc2 d) (reg5 s) (reg5 t) (fn == 1))
  | 0x19 => guarded (decide (d < 4) && decide (fn < 4)) (.mac (acc2 d) (reg5 s) (reg5 t) (fn % 2 == 1) (decide (2 ≤ fn)))
  | 0x1B => match swdFnOf fn with
      | some .pack => some (.swd (reg5 d) (reg5 s) (reg5 t) .pack)
      | some f => guarded (t == 0) (.swd (reg5 d) (reg5 s) (reg5 t) f)
      | none => none
  | 0x20 => guarded (decide (d < 8) && decide (fn < 8)) (.cmp (flag3 d) (reg5 s) (reg5 t) (condOf fn))
  | 0x21 => some (.cmpi (flag3 (wordBits w 18 16)) (reg5 (wordBits w 15 11)) (BitVec.ofNat 11 (wordBits w 10 0))
      (condOf (wordBits w 21 19)))
  | 0x22 => guarded (decide (d < 8) && decide (s < 8) && decide (t < 8) && decide (fn < 8)
        && (flopUsesA (flopFnOf fn) || s == 0) && (flopUsesB (flopFnOf fn) || t == 0))
      (.flop (flag3 d) (flag3 s) (flag3 t) (flopFnOf fn))
  | 0x23 => guarded (decide (d < 8) && t == 0 && decide (fn < 32)) (.tstb (flag3 d) (reg5 s) (reg5 fn))
  | 0x28 => some (.ld (reg5 d) (reg5 s) imm12)
  | 0x29 => some (.st (reg5 d) (reg5 s) imm12)
  | 0x2A => guarded (decide (d < 4)) (.ld64 (acc2 d) (reg5 s) imm12)
  | 0x2B => guarded (decide (d < 4)) (.st64 (acc2 d) (reg5 s) imm12)
  | 0x30 => guarded (t == 0 && decide (fn < 2)) (.scnt (reg5 d) (reg5 s) (if fn = 0 then .output else .staging))
  | 0x31 => guarded (fn == 0) (.srd (reg5 d) (reg5 s) (reg5 t))
  | 0x32 => guarded (fn == 0) (.strd (reg5 d) (reg5 s) (reg5 t))
  | 0x35 => guarded (wordBits w 21 16 == 0) (.sig (BitVec.ofNat 16 (wordBits w 15 0)))
  | 0x36 => guarded (fn == 0) (.pins (reg5 d) (reg5 s) (reg5 t))
  | 0x37 => guarded (s == 0 && t == 0 && decide (fn < 2)) (.spix (reg5 d) (if fn = 0 then 0 else 1))
  | 0x38 => if h : wordBits w 21 18 < 10 then
        some (.hpw ⟨wordBits w 21 18, h⟩ (reg5 (wordBits w 17 13)) (reg5 (wordBits w 12 8)) (BitVec.ofNat 8 (wordBits w 7 0)))
      else none
  | 0x39 => if h : wordBits w 16 13 < 10 then
        some (.hpr (reg5 d) ⟨wordBits w 16 13, h⟩ (reg5 (wordBits w 12 8)) (BitVec.ofNat 8 (wordBits w 7 0)))
      else none
  | 0x3A => guarded (d == 0 && fn == 0) (.route (reg5 s) (reg5 t))
  | 0x3B => guarded (d == 0 && decide (fn < 2)) (.enq (reg5 s) (reg5 t) (fn == 1))
  | 0x3C => guarded (t == 0 && fn == 0) (.qdep (reg5 d) (reg5 s))
  | 0x3D => some (.schd (reg5 d) (reg5 s) (reg5 t) ⟨fn % 128, Nat.mod_lt _ (by decide)⟩)
  | 0x3E => match fireModeOf fn with
      | some .boundaryPlus => guarded (s == 0) (.fire (reg5 d) (reg5 s) (reg5 t) .boundaryPlus)
      | some m => some (.fire (reg5 d) (reg5 s) (reg5 t) m)
      | none => none
  | _ => none

/-- A Kiln instruction word read (R81 to R83). -/
def kdecode (w : Word) : Option KInstr :=
  match kdecodeOp w.toNat with
  | some op => some { pred := { sel := flag3 (wordBits w.toNat 25 23), neg := wordBits w.toNat 22 22 == 1 }, op := op }
  | none => none

/-! ### The encoder -/

/-- A bit as a number. -/
def bitNat (b : Bool) : Nat := if b then 1 else 0

/-- Operand bits of format R (R82). -/
def packR (d s t fn : Nat) : Nat := d * 2 ^ 17 + s * 2 ^ 12 + t * 2 ^ 7 + fn
/-- Operand bits of format I (R82). -/
def packI (d s imm : Nat) : Nat := d * 2 ^ 17 + s * 2 ^ 12 + imm

/-- The opcode and the operand bits of an operation (R82, the opcode map of R83). -/
def kencodeOp : KOp → Nat × Nat
  | .nop => (0x00, 0)
  | .br off => (0x01, off)
  | .skip n => (0x02, n)
  | .rep count len => (0x03, count * 2 ^ 10 + len)
  | .waitc cyc => (0x04, cyc)
  | .endTick => (0x05, 0)
  | .ldi d hi imm => (0x08, d * 2 ^ 17 + bitNat hi * 2 ^ 16 + imm.toNat)
  | .gets d sel => (0x09, packI d 0 sel)
  | .mva d a sh rnd => (0x0A, packR d a 0 (bitNat rnd * 64 + sh))
  | .clra a => (0x0B, packR a 0 0 0)
  | .lda a s t => (0x0C, packR a s t 0)
  | .alu d s t fn => (0x10, packR d s t (aluFnCode fn))
  | .addi d s imm => (0x11, packI d s imm.toNat)
  | .andi d s imm => (0x12, packI d s imm.toNat)
  | .ori d s imm => (0x13, packI d s imm.toNat)
  | .xori d s imm => (0x14, packI d s imm.toNat)
  | .shli d s sh => (0x15, packI d s sh)
  | .shri d s sh => (0x16, packI d s sh)
  | .srai d s sh => (0x17, packI d s sh)
  | .mul a s t u => (0x18, packR a s t (bitNat u))
  | .mac a s t u neg => (0x19, packR a s t (bitNat u + 2 * bitNat neg))
  | .swd d s t fn => (0x1B, packR d s t (swdFnCode fn))
  | .cmp f s t c => (0x20, packR f s t (condCode c))
  | .cmpi f s imm c => (0x21, condCode c * 2 ^ 19 + f * 2 ^ 16 + s * 2 ^ 11 + imm.toNat)
  | .flop f a b fn => (0x22, packR f a b (flopFnCode fn))
  | .tstb f s bit => (0x23, packR f s 0 bit)
  | .ld d s imm => (0x28, packI d s imm.toNat)
  | .st t s imm => (0x29, packI t s imm.toNat)
  | .ld64 a s imm => (0x2A, packI a s imm.toNat)
  | .st64 a s imm => (0x2B, packI a s imm.toNat)
  | .scnt d c v => (0x30, packR d c 0 (match v with | .output => 0 | .staging => 1))
  | .srd d c i => (0x31, packR d c i 0)
  | .strd d c i => (0x32, packR d c i 0)
  | .sig imm => (0x35, imm.toNat)
  | .pins m v o => (0x36, packR m v o 0)
  | .spix k m => (0x37, packR k 0 0 m)
  | .hpw port s t off => (0x38, port * 2 ^ 18 + s * 2 ^ 13 + t * 2 ^ 8 + off.toNat)
  | .hpr d port s off => (0x39, d * 2 ^ 17 + port * 2 ^ 13 + s * 2 ^ 8 + off.toNat)
  | .route c q => (0x3A, packR 0 c q 0)
  | .enq q v eop => (0x3B, packR 0 q v (bitNat eop))
  | .qdep d q => (0x3C, packR d q 0 0)
  | .schd d s t off => (0x3D, packR d s t off)
  | .fire u c i mode => (0x3E, packR u c i (fireModeCode mode))

/-- The word of a Kiln instruction (R81). -/
def kencode (i : KInstr) : Word :=
  let r := kencodeOp i.op
  BitVec.ofNat 32 (r.1 * 2 ^ 26 + i.pred.sel * 2 ^ 23 + bitNat i.pred.neg * 2 ^ 22 + r.2)

/-- Whether an operation's operands lie in the ranges its description gives, and its unused fields are zero (R82, R83). -/
def KOp.wf : KOp → Bool
  | .br off => decide (off < 65536)
  | .skip n => decide (1 ≤ n) && decide (n < 1024)
  | .rep count len => decide (1 ≤ count) && decide (count < 4096) && decide (1 ≤ len) && decide (len < 1024)
  | .waitc cyc => decide (cyc < 2 ^ 20)
  | .gets _ sel => selKnown sel
  | .alu _ _ t .abs => t == 0
  | .swd _ _ t fn => fn == .pack || t == 0
  | .flop _ a b fn => (flopUsesA fn || a == 0) && (flopUsesB fn || b == 0)
  | .fire _ c _ .boundaryPlus => c == 0
  | _ => true

/-- The command that an instruction word is, issued by hearth `h`. -/
def KInstr.command (h : Fin 4) (i : KInstr) : Instr :=
  let p := i.pred
  match i.op with
  | .nop => .nop h p
  | .br off => .br h p off
  | .skip n => .skip h p n
  | .rep count len => .rep h p count len
  | .waitc cyc => .waitc h p cyc
  | .endTick => .endTick h p
  | .ldi d hi imm => .ldi h p d hi imm
  | .gets d sel => .gets h p d sel
  | .alu d s t fn => .alu h p d s t fn
  | .addi d s imm => .addi h p d s imm
  | .andi d s imm => .andi h p d s imm
  | .ori d s imm => .ori h p d s imm
  | .xori d s imm => .xori h p d s imm
  | .shli d s sh => .shli h p d s sh
  | .shri d s sh => .shri h p d s sh
  | .srai d s sh => .srai h p d s sh
  | .mul a s t u => .mul h p a s t u
  | .mac a s t u neg => .mac h p a s t u neg
  | .clra a => .clra h p a
  | .lda a s t => .lda h p a s t
  | .mva d a sh rnd => .mva h p d a sh rnd
  | .cmp f s t c => .cmp h p f s t c
  | .cmpi f s imm c => .cmpi h p f s imm c
  | .flop f a b fn => .flop h p f a b fn
  | .tstb f s bit => .tstb h p f s bit
  | .swd d s t fn => .swd h p d s t fn
  | .ld d s imm => .ld h p d s imm
  | .st t s imm => .st h p t s imm
  | .ld64 a s imm => .ld64 h p a s imm
  | .st64 a s imm => .st64 h p a s imm
  | .scnt d c v => .scnt h p d c v
  | .srd d c i => .srd h p d c i
  | .strd d c i => .strd h p d c i
  | .route c q => .route h p c q
  | .enq q v eop => .enq h p q v eop
  | .qdep d q => .qdep h p d q
  | .schd d s t off => .schd h p d s t off
  | .fire u c i mode => .fire h p u c i mode
  | .pins m v o => .pins h p m v o
  | .spix k m => .spix h p k m
  | .sig imm => .sig h p imm
  | .hpw port s t off => .hpw h p port s t off
  | .hpr d port s off => .hpr h p d port s off

/-- Whether an operation names PF0 as its destination (R59). -/
def KOp.destPF0 : KOp → Bool
  | .cmp f .. | .cmpi f .. | .flop f .. | .tstb f .. => f == 0
  | _ => false

end Sys2Proof
end

