-- ==== Sys2Proof/Machine/State.lean ====
section
/-!
DEFINITION. The hub's state: the register space, and beside it every buffer, queue, counter, table and mode that the
spec gives the hub and no register holds; the queue of waiting commands; and the state after reset.
-/
namespace Sys2Proof.Machine

open Sys2Proof

/-! ### Shared records -/

/-- An event record before it is laid out (R545, R548): the event, its origin, its detail values in the order of the
rule that names it, the time and tick it was found at, and its flags. -/
structure Event where
  name : EvName
  /-- block code of the origin (R537) -/
  block : Nat
  /-- origin object (R546): class × 2^13 + number -/
  obj : Nat
  detail : List Int
  sec : Nat
  ns : Nat
  tick : Nat
  noTime : Bool
  direct : Bool
  umber : Bool
  deriving DecidableEq, Repr

/-- The causes of gap records (R454). -/
inductive GapCause where
  | tileLink | tileDown | stagingLate | tickStop | restep | linkBoth | link | frameBad | fieldLate | nodeSkip
  | nodeLost | chrRestart | chrStopped | delayChange | queueOff | poolEmpty | flush | memEcc | pressFail | captureTrunc
  | domainReset | archiveWrite
  deriving DecidableEq, Repr

/-- A gap record (R454). `queue` is 0xFFFF when the loss names none. -/
structure Gap where
  ch : Nat
  cause : GapCause
  queueWide : Bool
  conv : Bool
  merged : Bool
  inexact : Bool
  queue : Nat
  firstTick : Nat
  lastTick : Nat
  firstSec : Nat
  firstIdx : Nat
  lastSec : Nat
  lastIdx : Nat
  seq : Nat
  count : Nat
  deriving DecidableEq, Repr

/-- What the hub sends out of its ports (the model's own field: an output log). -/
inductive SentKind where
  | hcpReply | notice | stream | launchReport | prpSupervision | ptpReq | ptpPdelayResp | laneFrame | laneMode | slate
  | armFrame | fireFrame | spisBytes | spimBytes | umberReply | stokerRestart | probe | nvmeWrite | nvmeRead | pins
  | testPulse | nvmeAdmin | stackReply | groupJoin
  deriving DecidableEq, Repr

/-- One thing sent: its kind, the port or unit it left on, its values, and how it stands on the line. -/
structure Sent where
  kind : SentKind
  port : Nat
  data : List Int
  /-- a frame's bytes in the order in which they leave (R4, R5); none for a burst, a pin and the like -/
  bytes : List Nat
  /-- the 66-bit blocks of a field lane as coded: two bits of sync header, then 64 scrambled bits, the first to leave lowest (R244) -/
  coded : List Nat
  deriving DecidableEq, Repr

/-! ### The tick and its scheduler (R27 to R56, R582) -/

/-- A queued timed write (R46 to R54). `master` is the code of R546. -/
structure SchedItem where
  seq : Nat
  /-- the tick it was scheduled for -/
  tick : Nat
  /-- the boundary at which it is due -/
  due : Nat
  addr : Nat
  data : Word
  mask : Word
  /-- it is on the late path -/
  late : Bool
  master : Nat
  deriving DecidableEq, Repr

/-- A setting that waits for its boundary (R582). -/
structure HeldWrite where
  due : Nat
  addr : Nat
  data : Word
  mask : Word
  master : Nat
  deriving DecidableEq, Repr

/-- The tick generator and the scheduler. -/
structure TickSt where
  /-- current tick number (R30) -/
  num : Nat
  /-- core cycle within the tick, counted from cycle 0 (R42) -/
  cyc : Nat
  /-- the tail guard of the current tick has begun (R42) -/
  inTail : Bool
  /-- the staging of the previous tick has closed (R43) -/
  stagingClosed : Bool
  /-- the servo has made its first lock since reset (R33) -/
  firstLock : Bool
  /-- hub clock in units of 2^-16 ns since the epoch, or since reset before the first lock (R307) -/
  clock : Nat
  /-- the part of the hub clock below 2^-16 ns, in 2^-40 of it (R42, R307) -/
  frac : Nat
  /-- core cycles since the last tick or the last change of r while no tick runs (R308) -/
  rest : Nat
  /-- hub clock at which the generator's start condition came to hold, while it waits for its second (R33) -/
  condAt : Option Nat
  /-- the tick completed before the current one (R43); none while there was none since reset -/
  prev : Option Nat
  /-- hub clock at the end of the last tick before a stop (R34, R38) -/
  stopEnd : Nat
  /-- tick of the last boundary before a stop (R34) -/
  stopTick : Nat
  /-- channels that were active at the stop (R34) -/
  stopped : List Nat
  /-- first tick not passed over by a forward restep that the next boundary takes (R37) -/
  jump : Option Nat
  /-- hub-wide sequence number of scheduled items (R49) -/
  seq : Nat
  items : List SchedItem
  held : List HeldWrite
  /-- in-force words of registers whose latest written value waits for its boundary (R582) -/
  force : Tab (Option Word)
  deriving DecidableEq, Repr

/-! ### Kiln (R57 to R107) -/

/-- An active repeat (R84): its body, the iterations left after this one, and the iteration index. -/
structure RepFrame where
  start : Nat
  len : Nat
  left : Nat
  idx : Nat
  deriving DecidableEq, Repr

/-- A posted entry (R72). -/
inductive Posted where
  | hpw (addr : Nat) (port : Nat) (data : Word)
  | route (c q : Word)
  | enq (q v : Word) (eop : Bool)
  | fire (u c i : Word) (mode : FireMode)
  | pins (m v o : Word)
  | spix (d : Word) (m : Nat)
  | sig (imm : Nat)
  deriving DecidableEq, Repr

/-- A posted entry with the program counter of its instruction (R73). -/
structure PostedEntry where
  pc : Nat
  op : Posted
  deriving DecidableEq, Repr

/-- One hearth (R57 to R61, R72, R78, R79). -/
structure Hearth where
  /-- it has issued its first instruction of the tick and not yet retired `end` or been stopped -/
  running : Bool
  pc : Nat
  /-- the core cycle at which its next instruction issues -/
  cyc : Nat
  k : Tab Word
  a : Tab Acc
  pf : Tab Bool
  /-- the repeat stack, innermost first -/
  reps : List RepFrame
  faultCode : Nat
  faultCount : Nat
  faultPc : Nat
  sat : Bool
  posted : List PostedEntry
  /-- the hearth has signalled in this tick (R105) -/
  signalled : Bool
  /-- cycles used in the tick, for KLN_Hn_USED (R107) -/
  used : Nat
  /-- tick of its last KILN_FAULT event (R79) -/
  lastFault : Option Nat
  /-- faulting ticks suppressed since that event (R79) -/
  suppressed : Nat
  deriving DecidableEq, Repr

/-- A sample word of a view with the instant it stands for, in 2^-16 ns (R68, R69). -/
structure ViewWord where
  word : Word
  inst : Nat
  deriving DecidableEq, Repr

/-- A general-purpose pin change of a tick (R103). -/
structure PinChange where
  mask : Word
  value : Word
  cyc : Nat
  deriving DecidableEq, Repr

/-- A demand record (R108, R111). -/
structure Demand where
  source : Nat
  kind : Nat
  flags : Nat
  inRate : Nat
  outRate : Nat
  taps : Nat
  detect : Nat
  lane : Nat
  deriving DecidableEq, Repr

/-- The contents of a program bank (R108 to R112). Every bank word outside the code section of a loaded image is
0x1400_0000 (R110). -/
structure KBank where
  loaded : Bool
  base : Nat
  code : List Word
  /-- the parity bit stored with each word of the code section (R80, R110) -/
  parity : List Bool
  entry : List Nat
  demands : List Demand
  /-- the demand section as words, for its window -/
  demandWords : List Word
  seed : List (Nat × Word)
  deriving DecidableEq, Repr

/-- A bank swap request (R126, R222): the bank and the boundary that decides it. -/
structure SwapReq where
  bank : Nat
  due : Nat
  deriving DecidableEq, Repr

/-- Kiln, its views, its program banks and its loader. -/
structure KilnSt where
  hearths : Tab Hearth
  /-- route table in force, by channel (R97) -/
  route : Tab Word
  /-- its shadow copy (R97) -/
  shadow : Tab Word
  /-- output view being written in this tick, by channel (R68) -/
  outNow : Tab (List ViewWord)
  /-- output view of the previous tick -/
  outPrev : Tab (List ViewWord)
  /-- staging view of the previous tick (R69) -/
  staging : Tab (List ViewWord)
  /-- the hearths have issued in this tick (R57) -/
  started : Bool
  /-- the time state at the tick's boundary, for `gets` 0x008 (R88) -/
  timeState : Nat
  /-- tick RAM words that hold a double-bit error (R66) -/
  tramDouble : List Nat
  /-- tick RAM words that hold a single-bit error (R66) -/
  tramSingle : List Nat
  /-- pin changes of the next tick (R103) -/
  pinsNext : List PinChange
  /-- pin changes of this tick not yet applied -/
  pinsNow : List PinChange
  banks : Tab KBank
  /-- words of the image being received (R116) -/
  image : List Word
  /-- bank of the load in progress (R115) -/
  loadBank : Nat
  /-- masters for which a word outside a load has been recorded (R116) -/
  strayNoted : List Nat
  /-- requests made by untimed writes, in order of arrival (R126) -/
  swaps : List SwapReq
  /-- requests made at this boundary by timed writes, in order (R127) -/
  swapsNow : List Nat
  deriving DecidableEq, Repr

/-! ### Hub control: events, gaps, processors (R11 to R26, R454 to R456, R538 to R552) -/

/-- A storm window of one event type (R305). -/
structure Storm where
  name : EvName
  block : Nat
  first : Nat
  origins : List Nat
  count : Nat
  lanes : Nat
  last : Nat
  /-- last tick of the window, 64 ticks from its first record -/
  opened : Nat
  /-- the hold-off is open -/
  holding : Bool
  deriving DecidableEq, Repr

/-- One tile link (R11, R12). -/
structure TileSt where
  /-- the link is down: its domain is in reset (R529) -/
  down : Bool
  /-- tick at which it lost lock -/
  lostTick : Nat
  /-- the tile's channels are marked TILE_DOWN, and the hub clock of the declaring boundary -/
  marked : Bool
  fromClock : Nat
  /-- a frame is being requested again (R11) -/
  retrying : Bool
  /-- hub clock from which conversions are lost under DOMAIN_RESET, while a reset lasts (R533) -/
  lossFrom : Option Nat
  /-- hub clock before which its cores do not convert (R533) -/
  resumeAt : Nat
  deriving DecidableEq, Repr

/-- A mirror record (R302). -/
structure MirrorRec where
  mseq : Nat
  rtype : Nat
  data : List Int
  deriving DecidableEq, Repr

/-- A frame that waits for the credit counts of its links (R511): the bytes it counts for, and what leaves. -/
structure TxItem where
  links : List Nat
  bytes : Nat
  outs : List Sent
  deriving DecidableEq, Repr

/-- Hub control. -/
structure HubSt where
  /-- hardware event queue, oldest first (R550) -/
  evq : List Event
  /-- an overflow episode is open (R21) -/
  evOver : Bool
  /-- records copied to the log in the open episode (R21) -/
  evOverCount : Nat
  /-- tick + 1 of each master's last BUS_ADDR record (R538) -/
  busErrTick : Tab Nat
  /-- gap buffer, oldest first (R455) -/
  gaps : List Gap
  /-- first uncounted loss and their number while the gap buffer is full (R456) -/
  gapLost : Option Gap
  gapLostCount : Nat
  /-- channels whose next output word carries GPE (R19) -/
  gpe : Tab Bool
  /-- losses before Charcoal, by channel, whose first following conversion, or partner's word, has not been taken yet: tick, second and
  index of the first lost sample (R19) -/
  gpeIn : Tab (List (Nat × Nat × Nat))
  /-- epoch end or visits deferred by a Stoker restart -/
  stokerDeferred : Bool
  /-- Stoker has run since the hub reset (R491) -/
  stokerRan : Bool
  storms : List Storm
  /-- event records that a queue refused, to be written again: whether for the uplink queue, else the archive's, and the words (R385) -/
  evHeld : List (Bool × List Word)
  /-- whether the oldest gap record is linked in the archive's queue, and in the uplink's (R455, R535) -/
  gapArchived : Bool
  gapUplinked : Bool
  tiles : Tab TileSt
  /-- each master's latch of KLN_TICK_HI and of PTP_NOW (R541) live in the register space; this is the number of
      interrupt summary bits last notified (R479) -/
  notified : Nat
  /-- MSEQ of the last mirror record made, and the records the peer has not acknowledged, oldest first (R302, R303) -/
  mseq : Nat
  mirrorOut : List MirrorRec
  /-- outputs, newest first (the model's own) -/
  sent : List Sent
  /-- frames that wait, by first link; credit counts with the hub clock they stood at; and the hub clock at which a link last held a
      frame (R511) -/
  txq : Tab (List TxItem)
  credit : Tab (Option (Nat × Nat))
  heldAt : Tab (Option Nat)
  /-- the word the last register-bus read returned (the model's own) -/
  rdata : Word
  /-- the model's own counter of free values used -/
  freeCtr : Nat
  deriving DecidableEq, Repr

/-! ### Front ends, converters, calibration and Charcoal (R132 to R242, R583) -/

/-- The settings that govern a conversion: those in effect in its tick (R145, R186). -/
structure ConvSet where
  mode : Nat
  bsub : Nat
  vrange : Nat
  vset : Nat
  /-- G in 2^-28 and B in 2^-8 LSB, as they apply to the channel in the tick (R206, R208) -/
  gain : Int
  ofs : Int
  deriving DecidableEq, Repr

/-- A conversion between its instant and the close of its staging (R163, R43). -/
structure Conv where
  ch : Nat
  /-- physical core 3n + p -/
  core : Nat
  slice : Nat
  /-- network second and conversion index j within it (R163) -/
  sec : Nat
  j : Nat
  /-- instant in 2^-16 ns -/
  inst : Nat
  tick : Nat
  raw : Int
  ovl : Bool
  cmf : Bool
  hld : Bool
  sys : Bool
  slw : Bool
  /-- it carries the invalid value (R137) -/
  invalid : Bool
  /-- its frame failed twice (R11) -/
  lost : Bool
  delivered : Bool
  set : ConvSet
  /-- the spare's conversion of the same instant while it shadows, with its slice and OVL (R177) -/
  spare : Option (Int × Nat × Bool)
  deriving DecidableEq, Repr

/-- What stays of a conversion as a neighbour of the next (R169). -/
structure PrevConv where
  core : Nat
  sec : Nat
  j : Nat
  inst : Nat
  slice : Nat
  raw : Int
  deriving DecidableEq, Repr

/-- What the estimator has gathered of conversions of one core, in order (R170): their number; of each slice the number, the sum and the
sum of squares; and the numbers and sums of the squared differences x1[k] - x0[k] (B) and x0[k+1] - x1[k] (A). -/
structure BlockSums where
  n : Nat
  n0 : Nat
  s0 : Int
  q0 : Nat
  n1 : Nat
  s1 : Int
  q1 : Nat
  na : Nat
  da : Nat
  nb : Nat
  db : Nat
  /-- the last of them: second, frame, slice and value -/
  prev : Option (Nat × Nat × Nat × Int)
  deriving DecidableEq, Repr

/-- A physical converter core (R162, R167). -/
structure CoreSt where
  /-- powered -/
  up : Bool
  next : Nat
  last : Option Nat
  /-- CNV_Pp_RUN_TEMP holds a run (R176) -/
  ran : Bool
  /-- mismatch values an accepted estimator block moves at the next boundary (R170): OFS, GAIN, SKEW -/
  moved : Option (Int × Int × Int)
  /-- OFS and GAIN of the mismatch that its last accepted run set, and whether the estimator has moved the fields since (R172) -/
  run : Option (Int × Int)
  strayed : Bool
  /-- the block that the estimator gathers, and the block it has completed (R170) -/
  block : BlockSums
  full : Option BlockSums
  deriving DecidableEq, Repr

/-- A duty, numbered 2n for A and 2n + 1 for B of cluster n (R161, R165). -/
structure DutySt where
  /-- the setting before the last change, and the hub clock of the boundary of that change -/
  prevScan : Word
  since : Nat
  /-- consecutive failed checks (R180) -/
  fails : Nat
  deriving DecidableEq, Repr

/-- Queued work of a tile's REFCAL pins (R174): class 1 in-place run, 2 trigger or R171, 3 CNV_VISIT, 4 rotation. -/
structure VisitReq where
  cls : Nat
  cluster : Nat
  /-- duty 0 A, 1 B, for a visit; none for an in-place run of the spare -/
  duty : Option Nat
  force : Bool
  deriving DecidableEq, Repr

/-- A visit or in-place run in progress in a cluster (R173 to R185). -/
structure Visit where
  duty : Option Nat
  force : Bool
  /-- the core that is freed, X; the spare for an in-place run -/
  core : Nat
  spare : Nat
  /-- shadow start -/
  ts : Nat
  /-- overlap tick, once it is reached -/
  tm : Option Nat
  /-- whether the check has passed, once it has been made; true for a forced handover -/
  verdict : Option Bool
  forced : Bool
  /-- the spare stops at the next boundary with this RESULT (R181) -/
  stopping : Option Nat
  /-- in this tick the visit's scan changed (RESULT 4) or its tile went down (5), before it is known whether the overlap tick is the tick
  before (R181) -/
  doubt : Option Nat
  /-- the channels that the check covers, once the overlap tick is reached -/
  chans : List Nat
  /-- valid pairs, newest first: channel, tick, spare minus X -/
  pairs : List (Nat × Nat × Int)
  deriving DecidableEq, Repr

/-- A core run on REFCAL (R189, R191): the declared voltages at its start, and whether REF_OK fell. -/
structure CoreRun where
  core : Nat
  vfs : Nat
  vmid : Nat
  refFell : Bool
  deriving DecidableEq, Repr

/-- A slew of a channel's system coefficients (R206). -/
structure Slew where
  g0 : Int
  b0 : Int
  g1 : Int
  b1 : Int
  start : Nat
  len : Nat
  /-- the tick from which it is applied in full, because the generator stopped while it ran (R207) -/
  cut : Option Nat
  deriving DecidableEq, Repr

/-- One phase of a session on one channel (R201): count, sum and sum of squares, and the sum of values in 2^-8 LSB. -/
structure Avg where
  n : Nat
  sum : Int
  sq : Nat
  deriving DecidableEq, Repr

/-- A channel of a session (R197, R202, R203). -/
structure SessCh where
  ch : Nat
  ez : Int
  ef : Int
  win : Nat
  nlim : Nat
  g0 : Int
  b0 : Int
  zero : Avg
  full : Avg
  bad : Bool
  config : Bool
  gap : Bool
  ovl : Bool
  cmf : Bool
  /-- REASON and the new pair, once computed -/
  reason : Option Nat
  g1 : Int
  b1 : Int
  temp : Nat
  deriving DecidableEq, Repr

/-- A system-calibration session (R197 to R204). -/
structure Session where
  span : Bool
  settle : Nat
  avg : Nat
  cert : List Word
  chans : List SessCh
  /-- first tick of the phase that runs, or that a command has set -/
  start : Nat
  /-- the phase has begun, so that SYS is set from the zero phase's boundary on -/
  begun : Bool
  sysOn : Bool
  /-- first ticks of the zero phase, at which SYS begins, and of the full-scale phase, once they have begun -/
  zeroFrom : Option Nat
  fullFrom : Option Nat
  delayed : Bool
  /-- boundary at which the session ends, with the REASON given to every channel, or none for FINISH -/
  ending : Option (Nat × Option Nat)
  deriving DecidableEq, Repr

/-- The coefficients kept under a remote channel's stable identity (R205): serial, node channel, G, B, the record and
TRACE. -/
structure RemoteCal where
  serial : Nat
  nodeCh : Nat
  g : Int
  b : Int
  record : List Word
  trace : Nat
  deriving DecidableEq, Repr

/-- A sample on its way through Charcoal (R212): second and index at the stage's rate, the chain word, and whether it is the
invalid marker. -/
structure ChainW where
  sec : Nat
  idx : Nat
  v : Int
  inv : Bool
  deriving DecidableEq, Repr

/-- A channel's path through Charcoal (R211 to R231). -/
structure Path where
  /-- five integrators and five combs (R217) -/
  integ : List Nat
  comb : List Nat
  /-- inputs still to come before each stage emits (R215) -/
  need1 : Nat
  need2 : Nat
  need3 : Nat
  need4 : Nat
  /-- latest inputs of stages 2 and 3, and the delay lines, newest first -/
  fir : List ChainW
  rs : List ChainW
  line : List ChainW
  hline : List ChainW
  hneed : Nat
  /-- status bits [31:24] of R24 since the last output -/
  or : Nat
  hor : Nat
  /-- marker words still to emit after a longer delay (R229) -/
  mark : Nat
  hmark : Nat
  /-- second and index of the last history word, and whether the next one carries GPE (R229) -/
  hlast : Option (Nat × Nat)
  hgpe : Bool
  /-- the path has produced a word since it last started -/
  produced : Bool
  /-- second and index of its last word -/
  last : Option (Nat × Nat)
  /-- the gap record of a restart waits for the first new word (R215): hub clock value of its first lost slot -/
  gapFrom : Option Nat
  /-- the settings are invalid at the rates in force (R216) -/
  stopped : Bool
  deriving DecidableEq, Repr

/-- A code period of a coded channel (R158, R159, R240): sums over the included chips are formed at its end. -/
structure Chip where
  n : Nat
  sum : Int
  ovl : Bool
  deriving DecidableEq, Repr

/-- The correlator of a local channel. -/
structure Corr where
  /-- CODE_TICKS in effect -/
  period : Nat
  /-- first tick of the period that runs -/
  start : Nat
  chips : Tab Chip
  or : Nat
  /-- a TIA change waits for a code boundary (R160): the new TIA -/
  tia : Option Nat
  deriving DecidableEq, Repr

/-- A word made by Charcoal that waits for its release (R231): the channel, its index within the second, and the word. -/
structure OutWord where
  ch : Nat
  sec : Nat
  idx : Nat
  word : Word
  /-- sequence number of the latest remote word it depends on (R382) -/
  seq : Nat
  deriving DecidableEq, Repr

/-- A window of a detector (R233 to R237): its first tick; count, sum and sum of squares of the included samples, the largest and the smallest, their
status bits, the excluded ones, and the envelope after its last sample. -/
structure DetWin where
  start : Nat
  n : Nat
  sum : Int
  sq : Nat
  max : Int
  min : Int
  or : Nat
  excl : Nat
  env : Int
  deriving DecidableEq, Repr

/-- A detector (R233 to R238). -/
structure Det where
  /-- windows with samples that have not ended, oldest first -/
  wins : List DetWin
  /-- first tick of the next window to end; at first the start of the first window at or after the last change (R238) -/
  since : Nat
  /-- the magnitude that ENVELOPE holds (R237) -/
  env : Int
  /-- spans of ticks that gap records of its channel cover (R234) -/
  gaps : List (Nat × Nat)
  deriving DecidableEq, Repr

/-- Results of a detector window that wait for their release (R231): detector, RES0 to RES3 and EXCL. -/
structure DetRes where
  det : Nat
  a : Word
  b : Word
  n : Nat
  tick : Nat
  excl : Nat
  deriving DecidableEq, Repr

/-- A remote word on its way into Charcoal (R231, R188): channel, tick in which the partner manager passed it on, second and
index at the delivered rate, sequence number and word. -/
structure RemWord where
  ch : Nat
  tick : Nat
  sec : Nat
  idx : Nat
  seq : Nat
  word : Word
  deriving DecidableEq, Repr

/-- What an attached remote channel delivers (R211, R232): its rate, its offset θ in 2^-16 ns and its lane. -/
structure RemoteCh where
  rate : Nat
  theta : Int
  lane : Nat
  deriving DecidableEq, Repr

/-- A word of the history ring (R218, R400): its tick, the instant it stands for in 2^-16 ns, and the word. -/
structure HistWord where
  tick : Nat
  inst : Int
  word : Word
  /-- its full rate, its place sec × rate + idx on the channel's grid, and its sequence number -/
  rate : Nat
  grid : Nat
  seq : Nat
  deriving DecidableEq, Repr

/-- Front ends, converters, calibration and Charcoal. -/
structure FrontSt where
  /-- conversions whose staging has not closed, in the order of their instants -/
  convs : List Conv
  /-- each channel's last conversion whose staging has closed (R169) -/
  prevConv : Tab (Option PrevConv)
  cores : Tab CoreSt
  duties : Tab DutySt
  /-- comparator overload or range overload: instant of the last conversion that met the range condition (R139) -/
  ovr : Tab (Option Nat)
  /-- the same for the conversions of a spare that shadows -/
  ovrS : Tab (Option Nat)
  /-- hub clock up to which a settling time runs (R138) -/
  settleTo : Tab Nat
  /-- consecutive common-mode checks out of window and in window (R146) -/
  cmOut : Tab Nat
  cmIn : Tab Nat
  /-- hub clock of the declaring check (R147) -/
  cmSince : Tab Nat
  /-- a SENSE_LOW episode is open (R145) -/
  senseLow : Tab Bool
  /-- the latest word that sample ingress wrote for a channel, with the tick of its write; and the tick at which a channel's curve took
  effect (R152) -/
  lastOut : Tab (Option (Word × Nat))
  curveAt : Tab Nat
  /-- drivers: output voltage target in mV and where the ramp started, at what clock (R140) -/
  rampFrom : Tab Nat
  rampTo : Tab Nat
  rampAt : Tab Nat
  /-- a remote-compliance episode is open (R141) -/
  comply : Tab Bool
  /-- force voltage in mV that remote regulation has settled at (R141) -/
  force : Tab Int
  /-- hub clock of the begin of a current-limit episode (R143) -/
  limitAt : Tab (Option Nat)
  /-- the driver draws from the high rails (R558) -/
  highRail : Tab Bool
  /-- the driver is stopped because its tile is down (R12) -/
  tileStop : Tab Bool
  reqs : List VisitReq
  visits : Tab (Option Visit)
  runs : Tab (Option CoreRun)
  /-- rotation alternates: duty of the next rotation visit (R175) -/
  rot : Tab Nat
  /-- offset in nV and gain less one in 2^-24 of each sense converter, none before the first fit (R196) -/
  senseCal : Tab (Option (Int × Int))
  /-- the coefficients it moves to at the next boundary (R196) -/
  senseNext : Tab (Option (Int × Int))
  session : Option Session
  /-- the first tick with SYS and the first without it of the last session, with its channels' G and B (R199) -/
  sysPast : Option (Nat × Nat × List (Nat × Int × Int))
  /-- the channels whose settings changed at the boundary of this tick (R203) -/
  cfgNow : List Nat
  slews : Tab (Option Slew)
  /-- the slew that a slew of `slews` took over from, for words of ticks before its start -/
  slewOld : Tab (Option Slew)
  /-- G and B a channel has under its record, apart from R208 -/
  pairs : Tab (Option (Int × Int))
  remCal : List RemoteCal
  paths : Tab (Option Path)
  corrs : Tab (Option Corr)
  dets : Tab (Option Det)
  made : List OutWord
  detMade : List DetRes
  remIn : List RemWord
  remote : Tab (Option RemoteCh)
  /-- history ring, by channel, newest first, and each channel's share in words (R400) -/
  hist : Tab (List HistWord)
  share : Tab Nat
  chrSwaps : List SwapReq
  chrSwapsNow : List Nat
  deriving DecidableEq, Repr

/-! ### Cell pool, queues and arbitration (R379 to R411) -/

/-- What a Briquette holds of one channel group (R431): the input queue, the channel, the ticks of its first and last packet, its
first and last second and index, SEQ and count. -/
structure Range where
  inq : Nat
  ch : Nat
  t0 : Nat
  t1 : Nat
  sec0 : Nat
  idx0 : Nat
  sec1 : Nat
  idx1 : Nat
  seq : Nat
  count : Nat
  deriving DecidableEq, Repr

/-- An item of a queue (R380, R381). -/
structure Item where
  id : Nat
  words : List Word
  /-- what it holds when it is a Briquette of Press (R431) -/
  ranges : List Range
  ready : Bool
  begun : Bool
  /-- its place in the order in which items became ready, and the tick in which it was linked -/
  at' : Nat
  linked : Nat
  /-- the bank of each of its cells in order, 16 for one in the backlog store (R396, R404) -/
  banks : List Nat
  deriving DecidableEq, Repr

/-- An open packet (R380): its words, oldest first; a flush has marked it, or its words are discarded up to its last. -/
structure OpenPkt where
  prod : Producer
  words : List Word
  ranges : List Range
  /-- the bank of each of its cells in order (R404) -/
  banks : List Nat
  marked : Bool
  dropping : Bool
  deriving DecidableEq, Repr

/-- A flush that waits for open packets, with its four counts (R392). -/
structure Flush where
  items : Nat
  packets : Nat
  words : Nat
  cells : Nat
  deriving DecidableEq, Repr

/-- A queue (R379 to R402): its items in link order with their cells, and its open packets. -/
structure Queue where
  items : List Item
  opens : List OpenPkt
  flush : Option Flush
  nextId : Nat
  deriving DecidableEq, Repr

/-- A host window (R388, R389): the words of its current item that are left, and the word it last returned. -/
structure HostWin where
  item : Option Nat
  left : List Word
  last : Word
  eop : Bool
  deriving DecidableEq, Repr

/-- A bank of the arbiter (R406, R411). -/
structure ArbBank where
  owner : Option Nat
  beats : Nat
  ptr : Nat
  waits : Tab Nat
  deriving DecidableEq, Repr

/-- Queue manager and arbiter. -/
structure QmgSt where
  queues : Tab (Option Queue)
  /-- number of items that have become ready -/
  readied : Nat
  wins : Tab (Option HostWin)
  /-- block transfers under way (R396): queue, and whether it is a fill -/
  xfers : List (Nat × Bool)
  /-- the banks of the cells that a queue's fill under way writes -/
  fills : Tab (List Nat)
  /-- cells on the free list of each bank, and how many packets have taken a first cell (R404) -/
  freeIn : List Nat
  firsts : Nat
  /-- an episode without a free spill block is open (R397) -/
  full : Bool
  banks : Tab (Option ArbBank)
  deriving DecidableEq, Repr

/-! ### Field lanes (R243 to R275) -/

/-- Three tap values (R249). -/
structure Taps where
  pre : Nat
  main : Nat
  post : Nat
  deriving DecidableEq, Repr

/-- A field lane beside its registers. -/
structure LaneSt where
  /-- rate and spreading in use: those held since the last entry into DETECT (R247, R250) -/
  rate : Nat
  spread : Nat
  /-- codes the attempt rate is lowered by, and consecutive failures (R267) -/
  drop : Nat
  streak : Nat
  /-- consecutive windows with the far end seen -/
  seen : Nat
  /-- the next bring-up begins from FLK_TX_EQ (R256) -/
  fromEq : Bool
  /-- hub clock at which the backoff hold ends (R265) -/
  holdEnd : Nat
  /-- consecutive markers found and missed; frame lock now, and ever in this TRAIN (R253) -/
  marks : Nat
  misses : Nat
  frameLock : Bool
  everLock : Bool
  taps : Taps
  /-- INIT of the hub's request, and its requests for PRE, MAIN and POST (R254) -/
  reqInit : Bool
  req : List Nat
  /-- status fields the hub answers for PRE, MAIN and POST (R254) -/
  status : List Nat
  /-- RX_READY sent, and consecutive frames that carry the far end's (R255) -/
  ready : Bool
  farReady : Nat
  trained : Bool
  /-- candidate block position and consecutive valid headers; invalid marks of the latest 64 headers, newest first (R258, R259) -/
  cand : Nat
  valid : Nat
  window : List Bool
  /-- hub clock at which block lock was lost in ACTIVE (R262) -/
  lostAt : Nat
  /-- a CAPS block came; one with ACK came; CAPS blocks sent with ACK (R260) -/
  capsGot : Bool
  capsAck : Bool
  capsSent : Nat
  /-- an entry into a low-power state is under way, a wake arrived during it, and an exit from BANKED is under way (R269 to R272) -/
  lpEntry : Option Nat
  lpWake : Bool
  waking : Bool
  /-- the hop delay is measured since the lane entered ACTIVE (R263) -/
  hopDone : Bool
  /-- DISCOVER frames sent since the lane entered ACTIVE (R281) -/
  searches : Nat
  deriving DecidableEq, Repr

/-! ### Partners (R276 to R306) -/

/-- A route of a node (R282): lane, position, tick of the last frame, and whether it is live. -/
structure Route where
  lane : Nat
  pos : Nat
  last : Nat
  live : Bool
  deriving DecidableEq, Repr

/-- A partner number: the node that holds it. -/
structure Partner where
  serial : Nat
  model : Nat
  present : Bool
  /-- tick since which it is absent -/
  absent : Nat
  routes : List Route
  epoch : Nat
  chans : List NodeCh
  /-- channels the node holds unjoined after a REFUSE (R289) -/
  refused : List Nat
  deriving DecidableEq, Repr

/-- A change that the steward has mirrored and not yet commanded (R289), or a COMMAND that waits for its REPLY (R287):
OP 1 JOIN, 2 LEAVE, 3 SET. Of a SET, the words that RATE and NCFG take, none where the register stays. -/
structure Change where
  op : Nat
  partner : Nat
  slot : Nat
  ch : Nat
  arg0 : Nat
  arg1 : Word
  rateReg : Option Word
  ncfgReg : Option Word
  tick : Nat
  mseq : Nat
  cseq : Nat
  repeats : Nat
  deriving DecidableEq, Repr

/-- A SET that takes effect at a tick (R285): its command number, the rate, and the words that RATE and NCFG take. -/
structure SlotSetting where
  cseq : Nat
  tick : Nat
  rate : Nat
  rateReg : Option Word
  ncfgReg : Option Word
  deriving DecidableEq, Repr

/-- A remote slot beside its registers. -/
structure SlotSt where
  rate : Nat
  theta : Int
  lane : Nat
  /-- join tick, sequence base, and whether the join has taken effect (R290) -/
  join : Nat
  base : Nat
  /-- grid index of the word that follows the last one accepted (R232, R295) -/
  next : Nat
  joined : Bool
  /-- leave tick (R292) -/
  leave : Option Nat
  /-- since the last accepted word: words came late, a frame of the node was discarded, a route was not live, none of two
      routes was live (R296) -/
  late : Bool
  frameBad : Bool
  linkOut : Bool
  linkBoth : Bool
  /-- the SETs commanded and not yet in effect, in order (R285) -/
  sets : List SlotSetting
  /-- a JOIN that its node has accepted while the slot still leaves (R294), with its sequence base -/
  rejoin : Option (Change × Nat)
  /-- a new rate counts from the first word of this tick on -/
  rebase : Option (Nat × Nat)
  /-- first sequence number and count of the instants a restep passes over (R327) -/
  skip : Option (Nat × Nat)
  deriving DecidableEq, Repr

/-- A stable identity and the slot it last used (R284). -/
structure Identity where
  serial : Nat
  ch : Nat
  slot : Nat
  deriving DecidableEq, Repr

/-- The partner manager. -/
structure PtnSt where
  partners : Tab (Option Partner)
  slots : Tab (Option SlotSt)
  idents : List Identity
  cseq : Nat
  /-- frames sent on each lane, wrapping (FSEQ, R279) -/
  fseq : Tab Nat
  waiting : List Change
  sentCmds : List Change
  /-- heartbeats of this tick, in order of arrival (R298) -/
  beats : List Beat
  /-- PTN_TAKE was written; EN was cleared on a steward; a partner reported an epoch above the hub's own -/
  take : Bool
  stop : Bool
  outranked : Bool
  /-- what the last heartbeat said: epoch, role, serial, and its tick -/
  peerEpoch : Nat
  peerRole : Option Bool
  peerSerial : Nat
  lastBeat : Nat
  /-- no heartbeat has come since the hub's start: the first count of R299 runs -/
  firstCount : Bool
  /-- PEER_SILENT of this episode, SLATE_ROLE_CLASH of this period and SLATE_RATE_MISMATCH of this tick-generator start are recorded -/
  silentNoted : Bool
  clashNoted : Bool
  rateNoted : Bool
  /-- MSEQ applied in order (R303), and ACK last received with the tick it advanced -/
  applied : Nat
  acked : Nat
  /-- identities of the peer's records being received between SYNC_BEGIN and SYNC_END (R304) -/
  syncing : Option (List (Nat × Nat))
  deriving DecidableEq, Repr

/-! ### Network time (R307 to R338) -/

/-- A foreign master of a port (R315), with the Announce messages it has sent. -/
structure Master1588 where
  ann : Announce
  count : Nat
  deriving DecidableEq, Repr

/-- A two-step Sync that waits for its Follow_Up: sequenceId, ingress stamp and correction, in 2^-16 ns (R314). -/
structure SyncWait where
  src : Nat
  seq : Nat
  t2 : Int
  corr : Int
  deriving DecidableEq, Repr

/-- A PTP port. -/
structure PortSt where
  foreign : List Master1588
  /-- the port's best master -/
  best : Option Announce
  syncs : List SyncWait
  /-- t2 − t1 − correction of the last Sync; egress stamps of requests without a response -/
  ms : Option Int
  reqs : List (Nat × Int)
  nextSeq : Nat
  /-- mean path delay, or link delay, once measured -/
  mpd : Option Int
  /-- consecutive offset measurements, newest first -/
  offs : List Int
  deriving DecidableEq, Repr

/-- One hop's delay measurement (R332, R333): probes on their way with their departure, results of the latest 64 probes, twice
their value in 2^-8 ns, newest first; probes sent since the lane entered ACTIVE, and consecutive dropped ones. -/
structure HopSt where
  out : List (Nat × Int)
  results : List Int
  sent : Nat
  seq : Nat
  dropped : Nat
  published : Bool
  deriving DecidableEq, Repr

/-- The servo, the ports and the hops. -/
structure PtpSt where
  ports : Tab PortSt
  hops : Tab HopSt
  /-- the port and master the servo uses -/
  sel : Option (Nat × Announce)
  /-- frequency estimate and the loop's rate (R319), in 2^-40 -/
  freq : Int
  loop : Int
  /-- estimates with the hub clock they were made at, newest first, since the servo entered LOCKED (R321) -/
  hist : List (Nat × Int)
  /-- consecutive measurements within LOCK_THR, and beyond it -/
  inside : Nat
  beyond : Nat
  /-- sign of the correction of a slew: the offset to reduce is positive -/
  ahead : Bool
  /-- measurements of a new port still to compare, and whether all so far differ (R316) -/
  switchLeft : Nat
  switchFar : Bool
  /-- hub clock at which LOCKED was last entered, for LOCK_S -/
  lockAt : Nat
  /-- r is clamped: the episode is open (R308) -/
  clamped : Bool
  /-- seconds for which the two ports have disagreed (R317) -/
  disagree : Nat
  /-- MODE of the armed restep (R325) -/
  mode : Bool
  /-- the next TIME pair carries STEP (R331) -/
  stepMark : Bool
  deriving DecidableEq, Repr


/-! ### Edge timer and Kindling (R339 to R378) -/

/-- An interpolator (R342, R343): P and z in use, hub clock until which it is busy, and whether its last calibration failed. -/
structure Interp where
  p : Int
  z : Int
  busy : Nat
  stale : Bool
  deriving DecidableEq, Repr

/-- An edge source beside its registers (R342 to R346). Credits are counted in units of 2^-16 ns × events/s. -/
structure EdgeSrc where
  interps : List Interp
  /-- instant of its last accepted edge -/
  last : Option Int
  credit : Nat
  /-- hub clock of the last refill, and since when the count is full -/
  refill : Nat
  fullAt : Option Nat
  /-- the next record carries MISSED, OVERRATE -/
  missed : Bool
  ovr : Bool
  /-- episodes of EDGE_OVERRATE and INTERP_CAL_BAD are open -/
  overEp : Bool
  calEp : Bool
  /-- instant of the last edge that its comparator emitted (R155) -/
  comp : Option Int
  deriving DecidableEq, Repr

/-- A stamp in the FIFO (R342, R345, R347): the stamp in 2^-16 ns, its source, direction and flags. -/
structure Stamp where
  at' : Int
  src : Nat
  rise : Bool
  flags : Nat
  /-- what takes it by the settings in force at its stamp: the edge queue, interval units, groups (R341) -/
  stream : Bool
  queue : Nat
  /-- units with whether the edge may start or stop them, and groups with the members it is -/
  units : List (Nat × Bool × Bool)
  groups : List (Nat × List Nat)
  deriving DecidableEq, Repr

/-- An interval unit: the start edge while it is open (R349), MISSED for its next record, and the results of this tick, the
latest as interval and TIMEOUT (R350). -/
structure Interval where
  start : Option Stamp
  missed : Bool
  count : Nat
  last : Option (Int × Bool)
  /-- the same of the tick before -/
  shown : Nat × Option (Int × Bool)
  deriving DecidableEq, Repr

/-- A reported group (R353): T0, member bits, flags and offsets. -/
structure GroupRes where
  t0 : Int
  seen : Nat
  flags : Nat
  offs : List (Option Nat)
  deriving DecidableEq, Repr

/-- A group engine (R351 to R353): while open, the opener's member and the first arrivals by member; the hold-off's end; and the groups
of this tick. -/
structure GroupSt where
  open' : Option (Nat × List (Option Stamp))
  lost : Bool
  /-- end of the last hold-off, and whether it lasts -/
  holdoff : Option Int
  holding : Bool
  missed : Bool
  count : Nat
  last : Option GroupRes
  /-- the same of the tick before -/
  shown : Nat × Option GroupRes
  deriving DecidableEq, Repr

/-- The edge timer. -/
structure EdgSt where
  srcs : Tab (Option EdgeSrc)
  fifo : List Stamp
  intervals : Tab (Option Interval)
  groups : Tab (Option GroupSt)
  /-- an EDG_QUEUE_FULL episode is open (R348) -/
  full : Bool
  deriving DecidableEq, Repr

/-- An entry of a capture set as taken at the arm (R361). -/
structure SetEntry where
  ch : Nat
  maskOn : Bool
  mask : Nat
  deriving DecidableEq, Repr

/-- A segment being made (R370, R371): channel and its place in the set, exponent, index, rate, SEQ and instant of its first
input, whether it lies in the post window, the words so far, newest first, and the inputs of the open mean, newest first; GPE goes
on the first word when an absence precedes it. -/
structure Seg where
  ch : Nat
  order : Nat
  k : Nat
  first : Nat
  rate : Nat
  seq : Nat
  start : Int
  /-- place of its first input on the channel's grid -/
  grid : Nat
  post : Bool
  words : List Word
  grp : List Word
  gpe : Bool
  deriving DecidableEq, Repr

/-- A channel of a capture: instant up to which it is copied; place, rate and instant of its last word and that word's full-rate
index; the open segment; an absence lies before the segment still to begin; whether all is copied. -/
structure CapCh where
  ent : SetEntry
  order : Nat
  cursor : Int
  prev : Option (Nat × Nat × Int)
  n : Nat
  seg : Option Seg
  after : Bool
  done : Bool
  deriving DecidableEq, Repr

/-- A capture (R368 to R374). -/
structure Capture where
  id : Nat
  tf : Nat
  orig : Nat
  cause : FireCause
  lo : Int
  hi : Int
  k : Nat
  kAt : Option Nat
  chans : List CapCh
  /-- closed segments not yet written -/
  closed : List Seg
  absent : Nat
  words : Nat
  /-- channel, index and mask of the first violation -/
  fail : Option (Nat × Nat × Nat)
  deriving DecidableEq, Repr

/-- A trigger beside its registers (R359 to R363). -/
structure TrigSt where
  armTick : Nat
  set : List SetEntry
  settleEnd : Nat
  /-- earliest fire time, with the serial and cause of its request -/
  best : Option (Nat × Nat × FireCause)
  /-- boundary at which a disarm takes effect -/
  disarm : Option Nat
  /-- end of the previous capture's window since the arm -/
  prevEnd : Option Int
  /-- a disarm came during the capture -/
  stopAfter : Bool
  cap : Option Capture
  deriving DecidableEq, Repr

/-- A condition unit (R365): armed for rising and for falling, and the values of the last SPAN words, newest first. -/
structure CondSt where
  up : Bool
  down : Bool
  last : List Int
  deriving DecidableEq, Repr

/-- A skew run (R376, R377): the first boundary it may begin at, and Ts once it has begun; pulses risen, and whether one is high; the
lateness measured of each channel and source; channels with a bad window; sources that have crossed since the last rise. -/
structure SkewRun where
  earliest : Nat
  ts : Option Nat
  pulses : Nat
  high : Bool
  chans : Tab (List Int)
  bad : List Nat
  srcs : Tab (List Int)
  seen : List Nat
  deriving DecidableEq, Repr

/-- Kindling. -/
structure KndSt where
  trigs : Tab (Option TrigSt)
  conds : Tab (Option CondSt)
  /-- last SSEQ accepted from each sender, and the hub's own count (R366) -/
  sseqIn : Tab (Option Nat)
  sseq : Nat
  capid : Nat
  /-- history words made at the last close of a staging, that condition units see at the next (R231, R365) -/
  histMade : List (Nat × HistWord)
  run : Option SkewRun
  /-- Ts of the last run, the tick in which it ended, and the channels that took part (R376) -/
  ran : Option (Nat × Nat × List Nat)
  /-- boundary at which APPLY takes effect -/
  apply : Option Nat
  /-- skew delay e of each channel, in 2^-8 ns (R378) -/
  skew : Tab Int
  deriving DecidableEq, Repr


/-! ### Press (R412 to R433) -/

/-- An item an engine has taken (R412, R418): its words, its KIND, the tick in which it was linked, and the banks of its cells. -/
structure Held where
  words : List Word
  kind : Nat
  linked : Nat
  cells : List Nat
  deriving DecidableEq, Repr

/-- A context with its open Briquette (R413): the settings it was opened under, its number, the tick its first item was taken, and the
channels whose first word is still to carry GPE (R432). -/
structure Ctx where
  engine : Nat
  queue : Nat
  cfg : Word
  out : Word
  bseq : Nat
  since : Nat
  items : List Held
  marks : List Nat
  deriving DecidableEq, Repr

/-- A closed Briquette (R425 to R427): one that waits to be written, or whose packets are open and that waits for verification or is
in it. `passed`: its verification has passed and it waits for the earlier Briquettes of its queue to be linked (R18). -/
structure Briq where
  id : Nat
  engine : Nat
  queue : Nat
  cfg : Word
  out : Word
  bseq : Nat
  redo : Bool
  passed : Bool
  items : List Held
  deriving DecidableEq, Repr

/-- A retrieval job of Cord (R428): the Briquette's words, the destination queue, STRICT, and Cord's number of the job. -/
structure RetrJob where
  words : List Word
  dest : Nat
  strict : Bool
  tag : Nat
  deriving DecidableEq, Repr

/-- What an inflater works on: the verification of a Briquette, or a retrieval. -/
inductive InfWork where
  | verify (id : Nat)
  | retrieve (j : RetrJob)
  deriving DecidableEq, Repr

/-- Press. -/
structure PrsSt where
  ctxs : List Ctx
  /-- closed Briquettes that wait for a verification place or for an output queue, and those that wait for or are in verification -/
  closed : List Briq
  vers : List Briq
  infs : Tab (Option InfWork)
  jobs : List RetrJob
  /-- Briquette number of each input queue (R422) -/
  bseq : Tab Nat
  /-- input queue and channel whose first word in the next Briquette carries GPE (R432) -/
  marks : List (Nat × Nat)
  /-- queues found with EN1 at 0 and an item ready, recorded once (R417) -/
  noOut : List Nat
  /-- bytes taken and linked by each engine, for its KIB counts -/
  taken : Tab Nat
  linked : Tab Nat
  nextId : Nat
  deriving DecidableEq, Repr


/-! ### Cord (R434 to R459) -/

/-- A controller beside its register (R435, R436, R451). -/
structure Ctrl where
  granted : Nat
  mqes : Nat
  sncrc : Word
  nsids : List Nat
  /-- consecutive commands that failed or timed out -/
  fails : Nat
  deriving DecidableEq, Repr

/-- An extent beside its registers (R438, R449, R450). -/
structure ExtSt where
  nsid : Nat
  /-- segments that hold data or are open -/
  used : List Nat
  /-- a REMOVE, an ADD or a returned controller waits for the epoch end -/
  online : Bool
  /-- checkpoints written when it was retired -/
  retiredAt : Nat
  /-- blocks of its checkpoint ring written -/
  ckpt : Nat
  deriving DecidableEq, Repr

/-- An item in a unit (R440, R442): its queue as the entry names it, type, BSEQ, ticks, words and cells held. -/
structure UnitItem where
  queue : Nat
  type : Nat
  bseq : Nat
  first : Nat
  last : Nat
  words : List Word
  cells : List Nat
  deriving DecidableEq, Repr

/-- What a unit holds: items with ENTRY blocks, gap records, event records, or CONTROL entries (R440 to R442). -/
inductive UnitKind where
  | data | gap | event | control
  deriving DecidableEq, Repr

/-- A CONTROL entry: OP and its arguments. -/
structure CtlEntry where
  op : Nat
  arg0 : Nat
  arg1 : Nat
  arg2 : Nat
  deriving DecidableEq, Repr

/-- A unit, open or closed: its items, the tick of its first item, its index epoch and the count of epochs ended before it was begun, its
number, the hub clock of its first failed Write, and whether 100 ms have passed since (R457). CONTROL units hold their entries. -/
structure CUnit where
  id : Nat
  kind : UnitKind
  items : List UnitItem
  ctl : List CtlEntry
  since : Nat
  epoch : Nat
  turn : Nat
  failed : Option Nat
  late : Bool
  deriving DecidableEq, Repr

/-- An open segment: extent, segment, next block, and its open unit. -/
structure OpenSeg where
  ext : Nat
  seg : Nat
  next : Nat
  unit : Option CUnit
  deriving DecidableEq, Repr

/-- A Write in flight: its unit, controller, first block and place. -/
structure CWrite where
  unit : CUnit
  ctrl : Nat
  ext : Nat
  seg : Nat
  abn : Nat
  deriving DecidableEq, Repr

/-- A unit of the epoch that is ending, to be read back (R443): where it lies and the entries it holds. -/
structure Written where
  id : Nat
  turn : Nat
  abn : Nat
  entries : List UnitItem
  deriving DecidableEq, Repr

/-- An ADD whose block 0 is being read (R449). -/
structure AddReq where
  ctrl : Nat
  nsid : Nat
  lba : Nat
  len : Nat
  format : Bool
  deriving DecidableEq, Repr

/-- A retrieval job (R459). -/
structure Job where
  num : Nat
  kind : Nat
  strict : Bool
  queue : Nat
  loc : Nat
  len : Nat
  tries : Nat
  deriving DecidableEq, Repr

/-- What a Read in flight is for. -/
inductive ReadFor where
  | label
  | back (w : Written)
  | job (j : Job)
  deriving DecidableEq, Repr

/-- Cord. -/
structure CrdSt where
  ctrls : Tab (Option Ctrl)
  exts : Tab (Option ExtSt)
  /-- recovery is done (R445) -/
  recovered : Bool
  opens : List OpenSeg
  /-- segments in allocation order, oldest first, and the extent allocated from last (R446) -/
  order : List (Nat × Nat)
  lastExt : Nat
  /-- units that wait for a segment with room, for a command slot, or to be written again, with the controller and extent their last
      Write failed on (R452, R453) -/
  held : List (CUnit × Option (Nat × Nat))
  writes : List CWrite
  nextId : Nat
  gaps : List UnitItem
  events : List UnitItem
  control : List CtlEntry
  /-- entries written, and the segments whose CONTROL entries name an extent (R446, R450) -/
  entries : List IdxEntry
  named : List (Nat × Nat × Nat)
  /-- the index epoch, the epoch length in force, the count of epochs ended, and the epoch whose end is being worked on (R443) -/
  epoch : Nat
  epochLen : Nat
  turn : Nat
  ending : Option Nat
  /-- units of epochs not yet read back, and reads in flight by number -/
  written : List Written
  reads : List (Nat × ReadFor)
  adding : Option AddReq
  /-- extent commands that wait for Stoker: what ADD names, or the extent of a REMOVE (R434) -/
  waiting : List (Option AddReq × Nat)
  /-- checkpoints written -/
  ckpts : Nat
  lastIndex : Nat
  jobs : List Job
  /-- jobs read and not yet taken by their queue: the packets -/
  ready : List (Job × List (List Word) × Bool)
  jobNum : Nat
  deriving DecidableEq, Repr


/-! ### Uplinks, host ports and the SPI and GPIO block (R460 to R491) -/

/-- A launch slot (R469): its queue, its launch time as a hub clock value, whether it carries LATE_OK and whether it is late, and the
master that committed it. -/
structure LaunchSlot where
  queue : Nat
  time : Nat
  lateOk : Bool
  late : Bool
  master : Nat
  deriving DecidableEq, Repr

/-- A source in the PRP node table (R462): when it was last heard, and the frames accepted from it: SeqNr, port and hub clock. -/
structure PrpNode where
  mac : Nat
  heard : Nat
  seen : List (Nat × Nat × Nat)
  deriving DecidableEq, Repr

/-- A datagram in reassembly (R474): its identification, the ranges received, and its length once the last fragment is in. -/
structure Reasm where
  id : Nat
  parts : List (Nat × Nat)
  total : Option Nat
  deriving DecidableEq, Repr

/-- A message that Stoker runs (R476): its session and MSEQ, its operations and those left, whether a STOP has been met, and the response body so far. -/
structure HcpRun where
  session : Nat
  mseq : Nat
  nops : Nat
  left : Nat
  stopped : Bool
  body : List Word
  deriving DecidableEq, Repr

/-- The uplinks. -/
structure UplSt where
  /-- SeqNr of the last frame sent (R461) -/
  prpSeq : Nat
  /-- SupSequenceNumber of the supervision frames (R461) -/
  prpSup : Nat
  /-- node table, least recently heard first, and an episode of PRP_TABLE_FULL -/
  nodes : List PrpNode
  nodesFull : Bool
  /-- ISEQ of each queue's next item (R465, R466) -/
  iseq : Tab Nat
  slots : Tab (Option LaunchSlot)
  /-- queues with an item ready for 100 ms whose first fragment has not left (R468) -/
  stalled : List Nat
  /-- second of each session's last HCP_AUTH_FAIL (R473) -/
  authFail : Tab (Option Nat)
  /-- datagrams in reassembly, oldest first, and the second of the last HCP_REASSEMBLY -/
  reasm : List Reasm
  reasmAt : Option Nat
  /-- frames accepted, newest first (the model's own) -/
  rx : List RxKind
  /-- accepted requests whose response has not left, the one that runs first (R13, R476, R478) -/
  runs : List HcpRun
  /-- MSEQ of the last NOTICE, and its tick (R479) -/
  noticeSeq : Nat
  noticeTick : Option Nat
  deriving DecidableEq, Repr

/-- A transaction taken by an SPI master (R487): hearth, descriptor word, words 0 to 3, and the tick it starts in: none until the boundary of the
next tick (R104). -/
structure SpimTx where
  hearth : Nat
  kd : Nat
  w0 : Word
  w1 : Word
  w2 : Word
  w3 : Word
  tick : Option Nat
  deriving DecidableEq, Repr

/-- A transaction that runs: its core cycle and tick of start, and whether it is late. -/
structure SpimRun where
  tx : SpimTx
  cyc : Nat
  tick : Nat
  late : Bool
  deriving DecidableEq, Repr

/-- The SPI slave port (R480 to R485) and the SPI masters (R487, R488). -/
structure SpiSt where
  compat : Bool
  winc : Bool
  wptr : Nat
  rdy : Bool
  underrun : Bool
  overrun : Bool
  part : Bool
  upos : Nat
  scratch : Nat
  /-- the word last sent -/
  last : Word
  /-- the address of a late fetch in flight, and the late words that wait for a read at their addresses (R484) -/
  late : Option Nat
  kept : List (Nat × Word)
  /-- the prefetched copy of compatibility mode (R483) -/
  copy : Option (Nat × Word)
  /-- written words that wait for the register bus (R485) -/
  waits : List (Nat × Word)
  /-- each master's transactions taken, and the one that runs -/
  queue : Tab (List SpimTx)
  run : Tab (Option SpimRun)
  /-- the tick, and the core cycle counted from its start, from which the next may start (R488) -/
  rest : Tab (Nat × Nat)
  deriving DecidableEq, Repr


/-! ### Umber (R492 to R519) -/

/-- A page of the log ring (R497, R500): its place among the ring's pages, its SEQ and its records. -/
structure LogPage where
  pos : Nat
  seq : Nat
  recs : List Event
  deriving DecidableEq, Repr

/-- A session (R475, R504, R505): identifier, permissions, operator key slot, whether it is the bench session, the highest MSEQ accepted,
those accepted within the 64 below it, and the responses kept, newest first. -/
structure Sess where
  id : Nat
  perm : Nat
  key : Nat
  bench : Bool
  high : Option Nat
  taken : List Nat
  kept : List (Nat × List Word)
  deriving DecidableEq, Repr

/-- A message that waits for Umber, in order of arrival (R503): the mailbox master it came from, or none for the uplinks. -/
structure UMsg where
  via : Option Nat
  session : Nat
  mseq : Nat
  deriving DecidableEq, Repr

/-- What an image slot's header says. -/
structure ImgHdr where
  keyslot : Nat
  svn : Nat
  flags : Nat
  version : Nat
  deriving DecidableEq, Repr

/-- The update that runs (R514): its owner, type, slot, TOTAL, and the bytes received, as blocks, newest first. -/
structure Upd where
  via : Option Nat
  session : Nat
  type : Nat
  slot : Nat
  total : Nat
  count : Nat
  data : List (List Nat)
  deriving DecidableEq, Repr

/-- Readings in a row of a sensor outside and inside its limits, and whether SENSOR_LIMIT stands (R495). -/
structure SensSt where
  out : Nat
  inn : Nat
  bad : Bool
  deriving DecidableEq, Repr

/-- Umber's own state. -/
structure UmbSt where
  /-- records that wait for a log page (R500), and whether records have been lost since the last LOG_LOST -/
  logBuf : List Event
  lostOpen : Bool
  /-- committed pages, oldest first; the page being written; and the page that a power collapse left -/
  pages : List LogPage
  writing : Option LogPage
  broken : Option LogPage
  nextPos : Nat
  nextSeq : Nat
  sessions : List Sess
  inq : List UMsg
  /-- operator keys: MASK and PUB (R503) -/
  keys : Tab (Option (Nat × Nat))
  trigKey : Option Nat
  devKey : Bool
  /-- release key slots revoked (R515, R516), and generation fuses blown (R494) -/
  revoked : List Nat
  genFuses : Nat
  /-- the configuration record can be read (R501) -/
  recordOk : Bool
  /-- headers of the image slots UA, UB, SA, SB -/
  hdrs : Tab (Option ImgHdr)
  upd : Option Upd
  /-- an accepted ACTIVATE: type and boundary (R517) -/
  act : Option (Nat × Nat)
  /-- the Stoker image in TRIAL has been released, and has reported health (R518) -/
  trialUp : Bool
  healthy : Bool
  /-- the patch is being copied (R517) -/
  copying : Bool
  /-- Umber restarts into another image (R519) -/
  down : Bool
  /-- UMB_ABSENT has been recorded in this reset of Umber (R536) -/
  absentNoted : Bool
  /-- the thermal trip holds the hub in reset (R496), or RETIRED or a reset of Umber does -/
  thermal : Bool
  held : Bool
  sens : Tab (Option SensSt)
  /-- board sensors in an I2C_NACK episode -/
  nack : List Nat
  deriving DecidableEq, Repr

/-! ### The whole state -/

/-- The hub. -/
structure State where
  /-- the register space, tick RAM and the register-bus windows: words by byte address, 32 bits each (R6); the private
      copies of R541 at address + 2^32 × master; an address that is not listed holds its reset value -/
  mem : Tab Word
  tick : TickSt
  kiln : KilnSt
  hub : HubSt
  front : FrontSt
  flk : Tab LaneSt
  ptn : PtnSt
  ptp : PtpSt
  edg : EdgSt
  knd : KndSt
  qmg : QmgSt
  prs : PrsSt
  crd : CrdSt
  upl : UplSt
  spi : SpiSt
  umb : UmbSt
  /-- the commands that wait, first in first out -/
  pending : List Instr
  deriving DecidableEq, Repr

/-- Why the hub stops: no rule of the spec stops it. -/
inductive Fault where
  /-- never raised by any command: the spec names no behaviour that halts the hub -/
  | never
  deriving DecidableEq, Repr

/-- Why a command is refused. -/
inductive Refusal where
  /-- raised by the dispatch for a command whose meaning is not written (safe: nothing is claimed of it) -/
  | notModelled (mnemonic : String)
  deriving DecidableEq, Repr

/-- The hub right after reset. -/
def State.reset : State where
  mem := []
  tick := { num := 0, cyc := 0, inTail := false, stagingClosed := false, firstLock := false, clock := 0, frac := 0, rest := 0, condAt := none, prev := none, stopEnd := 0, stopTick := 0,
            stopped := [], jump := none, seq := 0, items := [], held := [], force := [] }
  kiln := { hearths := [], route := [], shadow := [], outNow := [], outPrev := [], staging := [], started := false, timeState := 0,
            tramDouble := [], tramSingle := [], pinsNext := [], pinsNow := [], banks := [], image := [], loadBank := 0,
            strayNoted := [], swaps := [], swapsNow := [] }
  hub := { evq := [], evOver := false, evOverCount := 0, busErrTick := [], gaps := [], gapLost := none, gapLostCount := 0,
           gpe := [], gpeIn := [], stokerDeferred := false, stokerRan := false, storms := [], evHeld := [], gapArchived := false, gapUplinked := false, tiles := [], notified := 0, mseq := 0, mirrorOut := [],
           sent := [], txq := [], credit := [], heldAt := [], rdata := 0#32, freeCtr := 0 }
  front := { convs := [], prevConv := [], cores := [], duties := [], ovr := [], ovrS := [], settleTo := [], cmOut := [], cmIn := [], cmSince := [], senseLow := [], lastOut := [], curveAt := [],
             rampFrom := [], rampTo := [], rampAt := [], comply := [], force := [], limitAt := [], highRail := [], tileStop := [],
             reqs := (List.range 12).map fun n => { cls := 1, cluster := n, duty := none, force := false }, visits := [], runs := [], rot := [], senseCal := [], senseNext := [], session := none, sysPast := none, cfgNow := [], slews := [], slewOld := [], pairs := [],
             remCal := [], paths := [], corrs := [], dets := [], made := [], detMade := [], remIn := [], remote := [],
             hist := [], share := [], chrSwaps := [], chrSwapsNow := [] }
  flk := []
  ptn := { partners := [], slots := [], idents := [], cseq := 0, fseq := [], waiting := [], sentCmds := [], beats := [], take := false, stop := false,
           outranked := false, peerEpoch := 0, peerRole := none, peerSerial := 0, lastBeat := 0, firstCount := true, silentNoted := false,
           clashNoted := false, rateNoted := false, applied := 0, acked := 0, syncing := none }
  ptp := { ports := [], hops := [], sel := none, freq := 0, loop := 0, hist := [], inside := 0, beyond := 0, ahead := false,
           switchLeft := 0, switchFar := false, lockAt := 0, clamped := false, disagree := 0, mode := false, stepMark := false }
  edg := { srcs := [], fifo := [], intervals := [], groups := [], full := false }
  knd := { trigs := [], conds := [], sseqIn := [], sseq := 0, capid := 0, histMade := [], run := none, ran := none, apply := none, skew := [] }
  qmg := { queues := [], readied := 0, wins := [], xfers := [], fills := [], freeIn := List.replicate 16 16384, firsts := 0, full := false, banks := [] }
  prs := { ctxs := [], closed := [], vers := [], infs := [], jobs := [], bseq := [], marks := [], noOut := [], taken := [], linked := [], nextId := 0 }
  crd := { ctrls := [], exts := [], recovered := false, opens := [], order := [], lastExt := 0, held := [], writes := [], nextId := 0,
           gaps := [], events := [], control := [], entries := [], named := [], epoch := 0, epochLen := 32000, turn := 0, ending := none,
           written := [], reads := [], adding := none, waiting := [], ckpts := 0, lastIndex := 0, jobs := [], ready := [], jobNum := 0 }
  upl := { prpSeq := 0, prpSup := 0, nodes := [], nodesFull := false, iseq := [], slots := [], stalled := [], authFail := [], reasm := [], reasmAt := none,
           rx := [], runs := [], noticeSeq := 0, noticeTick := none }
  spi := { compat := false, winc := true, wptr := 0, rdy := false, underrun := false, overrun := false, part := false, upos := 0, scratch := 0,
           last := 0#32, late := none, kept := [], copy := none, waits := [], queue := [], run := [], rest := [] }
  umb := { logBuf := [], lostOpen := false, pages := [], writing := none, broken := none, nextPos := 0, nextSeq := 0, sessions := [], inq := [],
           keys := [], trigKey := none, devKey := false, revoked := [], genFuses := 0, recordOk := false, hdrs := [], upd := none, act := none,
           trialUp := false, healthy := false, copying := false, down := false, absentNoted := false, thermal := false, held := false,
           sens := [], nack := [] }
  pending := []

end Sys2Proof.Machine
end

