-- ==== Sys2Proof/Machine/Events.lean ====
section
/-!
DEFINITION. What the spec fixes of each event: the block that defines it, and whether the event
concerns samples (R549); and where the spec states them, its type number and severity (R547, R550).
-/
namespace Sys2Proof.Machine

open Sys2Proof

/-- Block code of the block whose rule names the event (R537, R547). -/
def eventBlock : EvName → Nat
  | .BUS_ADDR => 0
  | .EVENT_OVERFLOW => 0
  | .COMMON_CAUSE => 0
  | .COMMON_CAUSE_END => 0
  | .ACCESS_LOCKED => 0
  | .FENCE_WRITE => 0
  | .TICK_RATE_BUSY => 3
  | .TICK_RATE_BAD => 3
  | .TICK_BUDGET => 3
  | .SCHED_DROPPED => 3
  | .SCHED_SKIPPED => 3
  | .SCHED_APPLIED_LATE => 3
  | .SLATE_RATE_MISMATCH => 9
  | .KILN_MISS => 3
  | .KILN_FAULT => 3
  | .KILN_PARITY => 3
  | .KILN_SIGNAL => 3
  | .KLN_TRAM_ECC => 3
  | .BANK_WRITE => 3
  | .LOAD_START_REFUSED => 3
  | .LOAD_RESTARTED => 3
  | .LOAD_CMD_BAD => 3
  | .LOAD_ABANDONED => 3
  | .LOAD_REFUSED => 3
  | .ENVELOPE_EXCEEDED => 3
  | .SWAP_SUPERSEDED => 3
  | .SWAP_REFUSED => 3
  | .TILE_DOWN => 4
  | .TILE_UP => 4
  | .SUPPLY_LOW => 9
  | .STEWARD_TAKEN => 9
  | .STEWARD_YIELDED => 9
  | .PARTNER_UP => 9
  | .PARTNER_LOST => 9
  | .KND_MASK_FAIL => 12
  | .CAL_SESSION_END => 6
  | .GAP_OVERFLOW => 16
  | .AFE_CFG_BAD => 4
  | .EXC_COMPLY => 4
  | .EXC_CLAMP => 4
  | .EXC_LIMIT => 4
  | .EXC_LIMIT_END => 4
  | .SENSE_LOW => 4
  | .CM_FAULT => 4
  | .CM_CLEAR => 4
  | .UT_BAD => 4
  | .UT_ACTIVE => 4
  | .TIA_SWITCH => 4
  | .CNV_SCAN_BAD => 5
  | .MISMATCH_RANGE => 5
  | .VISIT_HANDOVER => 5
  | .VISIT_MISMATCH => 5
  | .VISIT_FORCED => 5
  | .CORE_FAULTY => 5
  | .CORE_CAL_DONE => 6
  | .CORE_CAL_REFUSED => 6
  | .CAL_REF_BAD => 6
  | .REFCAL_LOST => 6
  | .REFCAL_OK => 6
  | .SENSE_CAL_RANGE => 6
  | .CAL_CMD_BAD => 6
  | .CAL_BUSY => 6
  | .CAL_DELAYED => 6
  | .CAL_ACCEPTED => 6
  | .CAL_REJECTED => 6
  | .CAL_NOT_STEWARD => 6
  | .CAL_CFG_BAD => 6
  | .CHR_CFG_BAD => 7
  | .CHR_RATE_BAD => 7
  | .CHR_BANK_WRITE => 7
  | .CHR_SWAP_SUPERSEDED => 7
  | .CHR_SWAP_REFUSED => 7
  | .CHR_GD_CHANGE => 7
  | .CHR_DELAY_FULL => 7
  | .CHR_DET_RATE => 7
  | .QMG_CFG_BUSY => 13
  | .QMG_CFG_BAD => 13
  | .QMG_FLUSH_DONE => 13
  | .BACKLOG_FULL => 13
  | .QMG_HIST_BUSY => 13
  | .QMG_ECC => 13
  | .QUEUE_DEEP => 13
  | .QUEUE_CLEAR => 13
  | .ARB_STARVED => 14
  | .LANE_EQ_BAD => 8
  | .LANE_UP => 8
  | .LANE_DOWN => 8
  | .LANE_RELOCK => 8
  | .LANE_ATTEMPT_FAIL => 8
  | .LANE_FALLBACK => 8
  | .LANE_LP_REFUSED => 8
  | .LANE_WAKE_FAR => 8
  | .PARTNER_RENUMBERED => 9
  | .CHAIN_LONG => 9
  | .PARTNER_CLASH => 9
  | .PTN_NOT_STEWARD => 9
  | .PARTNER_NO_REPLY => 9
  | .MIRROR_LAG => 9
  | .SLATE_ROLE_CLASH => 9
  | .MIRROR_LATE => 9
  | .MIRROR_OVERWRITTEN => 9
  | .STEWARD_UNSYNCED => 9
  | .PEER_SILENT => 9
  | .PTP_RATE_CLAMP => 10
  | .PTP_CFG_BUSY => 10
  | .PTP_PORT_SWITCH => 10
  | .PTP_PORT_DISAGREE => 10
  | .PTP_STEP => 10
  | .PTP_STATE => 10
  | .TIME_OFFSET => 10
  | .RESTEP_CMD_BAD => 10
  | .RESTEP_DONE => 10
  | .RESTEP_REFUSED => 10
  | .HOP_DELAY_STEP => 10
  | .HOP_PROBE_LOST => 10
  | .KND_BUSY => 12
  | .KND_CFG_BAD => 12
  | .KND_SET_SKIP => 12
  | .KND_SET_BUSY => 12
  | .KND_FIRE => 12
  | .KND_FIRE_LATE => 12
  | .KND_FIRE_STALE => 12
  | .KND_CAPTURE_END => 12
  | .KND_TRUNCATED => 12
  | .KND_MASK_BUSY => 12
  | .KND_SKEW_DONE => 12
  | .SKEW_RANGE => 12
  | .INTERP_CAL_BAD => 11
  | .EDGE_OVERRATE => 11
  | .EDG_QUEUE_FULL => 11
  | .EDG_CFG_BAD => 11
  | .EDG_GROUP_CUT => 11
  | .PRS_ITEM_LARGE => 15
  | .PRS_CFG_BAD => 15
  | .PRS_NO_OUT => 15
  | .PRS_VERIFY_FAIL => 15
  | .PRS_ENGINE_FAULT => 15
  | .PRS_INFLATE_FAULT => 15
  | .CRD_CTRL_REFUSED => 16
  | .CRD_NS_FORMAT => 16
  | .FENCE_WRITE_EXTENT => 19
  | .CRD_ITEM_LARGE => 16
  | .CRD_PIN_FULL => 16
  | .CRD_CTRL_FAILED => 16
  | .CRD_WRITE_FAIL => 16
  | .ARCHIVE_DOWN => 16
  | .ARCHIVE_UP => 16
  | .CRD_CFG_BAD => 16
  | .PRP_TABLE_FULL => 17
  | .UPL_CFG_BAD => 17
  | .UPLINK_DOWN => 17
  | .UPLINK_UP => 17
  | .LAUNCH_APPLIED_LATE => 17
  | .LAUNCH_EMPTY => 17
  | .HCP_AUTH_FAIL => 17
  | .HCP_REASSEMBLY => 17
  | .SENSOR_LIMIT => 1
  | .SENSOR_OK => 1
  | .I2C_NACK => 1
  | .THERMAL_TRIP => 1
  | .LOG_RECOVERED => 1
  | .LOG_LOST => 1
  | .UMB_MBOX_BUSY => 1
  | .UMB_MBOX_RELEASED => 1
  | .LC_CHANGED => 1
  | .FENCE_SET => 19
  | .FENCE_TX_CAP => 19
  | .UPDATE_ABANDONED => 1
  | .UPDATE_REVERTED => 1
  | .XREF_LOST => 20
  | .XREF_OK => 20
  | .REFCLK_LOST => 20
  | .REFCLK_OK => 20
  | .UXTAL_LOST => 20
  | .SMP_UNLOCK => 20
  | .HUB_RESET => 20
  | .DOM_RESET => 20
  | .UMB_ABSENT => 1

/-- The events that concern samples, or whose detail names a sample range or a coefficient change (R549). -/
def eventSamples : EvName → Bool
  | .KND_MASK_FAIL => true
  | .CAL_SESSION_END => true
  | .SENSE_LOW => true
  | .TIA_SWITCH => true
  | .VISIT_HANDOVER => true
  | .VISIT_FORCED => true
  | .CORE_CAL_DONE => true
  | .CAL_ACCEPTED => true
  | .CAL_REJECTED => true
  | .CHR_RATE_BAD => true
  | .CHR_GD_CHANGE => true
  | .QMG_ECC => true
  | .TIME_OFFSET => true
  | .KND_SET_SKIP => true
  | .KND_FIRE => true
  | .KND_CAPTURE_END => true
  | .KND_TRUNCATED => true
  | .PRS_ITEM_LARGE => true
  | .CRD_ITEM_LARGE => true
  | _ => false

/-- The place of an event in `EvName`, by which the opaque dictionary of Config names it. -/
def eventIndex (n : EvName) : Nat := n.ctorIdx

end Sys2Proof.Machine
end

