-- ==== Sys2Proof/Config.lean ====
section
/-!
DEFINITION. What one part or one installation fixes and the spec does not give a number for, and the
free values: opaque constants, so that no proof can use a value of them.
-/
namespace Sys2Proof

/-- The value that one-time-programmable memory gives a `factory` register (R540), by register address. -/
opaque Config.factory : Nat → BitVec 32
/-- The type number that the part's event dictionary gives an event (R547), by the event's place in `EvName`;
used for every event whose TYPE the spec does not state. -/
opaque Config.eventType : Nat → Nat
/-- The severity the dictionary gives an event (R547), as above: 0 INFO, 1 WARNING, 2 FAULT. -/
opaque Config.eventSev : Nat → Nat
/-- Whether the dictionary gives an event 16 detail bytes, so that it takes two records (R548). -/
opaque Config.eventLong : Nat → Bool
/-- The widths in bytes that the dictionary gives an event's detail fields (R547). -/
opaque Config.eventWidths : Nat → List Nat
/-- A word of the event dictionary window, by word index (R547). -/
opaque Config.dictionary : Nat → BitVec 32
/-- A free value: the n-th value that the spec leaves open, as a whole number. -/
opaque Config.free : Nat → Int
/-- A free value of 32 bits. -/
opaque Config.freeWord : Nat → BitVec 32
/-- The temperature in 10^-6 °C that the standard of a thermocouple or resistance curve gives a quantity (R150): IEC 60584-1 and IEC 60751
are named and not printed. The quantity is in 2^-23 µV, or in 2^-31 Ω. -/
opaque Config.standard : (curve : Nat) → (quantity : Int) → Int
/-- The thermoelectric voltage in 2^-23 µV of a cold junction at a temperature in 0.001 °C (R152, IEC 60584-1). -/
opaque Config.emf : (curve : Nat) → (temperature : Int) → Int
/-- The difference in 10^-6 °C between the hub's value of a curve and the standard's, which R150 bounds and does not give. -/
opaque Config.curveError : (curve : Nat) → (quantity : Int) → Int
/-- The bank of the first cell of the n-th packet, modulo 16 the first that is tried (R404 says where the others lie). -/
opaque Config.firstBank : Nat → Nat
/-- The servo's second-order loop (R319): its bandwidth code, the filtered offset, the frequency estimate and the loop's rate before a
measurement, and the measurement, give each of the three afterwards; the spec states the bandwidth and no coefficient. -/
opaque Config.loopOffset : (bw : Nat) → (filtered freq rate ofs : Int) → Int
opaque Config.loopFreq : (bw : Nat) → (filtered freq rate ofs : Int) → Int
opaque Config.loopRate : (bw : Nat) → (filtered freq rate ofs : Int) → Int
/-- Which of the two taps that lie equally near to u = 0 at φ = 128 takes the difference of R227: the spec does not say. -/
opaque Config.tieTapFour : Bool
/-- The DEFLATE stream a Press engine makes of a sequence of bytes at a level of 1 to 9 and a table choice (R420): RFC 1951
fixes what it inflates to, not its bytes. -/
opaque Config.deflate : (level : Nat) → (tables : Nat) → (bytes : List Nat) → List Nat
/-- The codes of CRD_JOB_RES (R459), which the spec names and gives no number: 0 JOB_QUEUED, 1 JOB_FULL, 2 JOB_BAD, 3 JOB_OFFLINE,
4 JOB_EXPIRED. -/
opaque Config.jobCode : Nat → Nat
/-- The number that DOM_RESET gives a cause (R529), which the spec does not state: 0 loss of lock or clock, 1 a register write, 2 a fault of the
domain, 3 an activation, 4 a watchdog. -/
opaque Config.resetCause : Nat → Nat
/-- Word `i` of the TAG of a message whose words are given, under the key of a session (R473): HMAC under a key that no rule gives. -/
opaque Config.tag : (session : Nat) → (words : List (BitVec 32)) → (i : Nat) → BitVec 32
/-- Word `i` of the tag of a Kindling frame ("ARM and FIRE frames"): HMAC-SHA-256 under the installation's trigger key, over its bytes. -/
opaque Config.trigTag : (bytes : List Nat) → (i : Nat) → BitVec 32
/-- Frame `n` of Stoker's IP stack (R472), source address apart: its destination, EtherType and data are those of ARP, neighbour discovery, ICMP,
IGMP and MLD, whose bytes no rule gives. -/
opaque Config.stackFrame : (n : Nat) → List Nat
/-- The clockIdentity of the hub (IEEE 1588-2019), which no rule gives. -/
opaque Config.clockIdentity : BitVec 64

end Sys2Proof
end

