-- ==== Sys2Proof/Machine/RegRows.lean ====
section
/-!
DEFINITION. The register tables of the spec as data: one row per register of the chapters' register tables,
with its base address, the count and stride of each of its indexes, its reset value (R3, R540) and, for
each access code of R8 that a write acts through, the mask of the fields that carry it. Bits in no mask are RO, WO or
reserved: a write leaves them (R7, R8).
-/
namespace Sys2Proof.Machine

open Sys2Proof

/-- The register table rows of block HUB. -/
def regRowsHUB : List RegRow := [
  ⟨0x0, [], .val 0x57430096, 0x0, 0x0, 0x0, 0x0, 0x0⟩ /- HUB_ID -/,
  ⟨0x4, [], .factory 0xB1 0xFF00, 0x0, 0x0, 0x0, 0x0, 0x0⟩ /- HUB_STEP -/,
  ⟨0x8, [], .factory 0x0 0xFFFFFFFF, 0x0, 0x0, 0x0, 0x0, 0x0⟩ /- HUB_SERIAL -/,
  ⟨0xC, [], .val 0xC10F060, 0x0, 0x0, 0x0, 0x0, 0x0⟩ /- HUB_CAPS -/,
  ⟨0x10, [], .val 0x0, 0xFFFFFFFF, 0x0, 0x0, 0x0, 0x0⟩ /- HUB_SCRATCH -/,
  ⟨0x20, [], .val 0x80000001, 0x80000003, 0x0, 0x0, 0x0, 0x0⟩ /- HUB_INT_CFG -/,
  ⟨0x30, [], .val 0x0, 0x0, 0x0, 0x0, 0x0, 0x0⟩ /- HUB_BUS_ERR_ADDR -/,
  ⟨0x34, [], .val 0x0, 0x0, 0x0, 0x0, 0x0, 0x0⟩ /- HUB_BUS_ERR_INFO -/,
  ⟨0x40, [], .val 0x0, 0xFFFF0000, 0x0, 0x0, 0x0, 0x0⟩ /- HUB_EVQ_STAT -/,
  ⟨0x44, [], .val 0x0, 0xFFFFFFFF, 0x0, 0x0, 0x0, 0x0⟩ /- HUB_EVQ_OVF -/,
  ⟨0x48, [], .factory 0x0 0xFFFF, 0x0, 0x0, 0x0, 0x0, 0x0⟩ /- HUB_EVDICT_N -/,
  ⟨0x100, [], .val 0x0, 0x0, 0x3E3F03, 0x0, 0x0, 0x0⟩ /- HUB_INT_RAW -/,
  ⟨0x104, [], .val 0x0, 0xFFFFFFFF, 0x0, 0x0, 0x0, 0x0⟩ /- HUB_INT_EN -/,
  ⟨0x108, [], .val 0x0, 0x0, 0x0, 0x0, 0x0, 0x0⟩ /- HUB_INT_SUM -/]

/-- The register table rows of block UMB. -/
def regRowsUMB : List RegRow := [
  ⟨0x10000, [], .val 0x0, 0x0, 0x0, 0x0, 0x0, 0x0⟩ /- UMB_STAT -/,
  ⟨0x10004, [], .val 0x0, 0x0, 0x0, 0x0, 0x0, 0x0⟩ /- UMB_BOOT -/,
  ⟨0x10008, [], .val 0x0, 0x0, 0x0, 0x0, 0x0, 0x0⟩ /- UMB_LOG_SEQ_LO -/,
  ⟨0x1000C, [], .val 0x0, 0x0, 0x0, 0x0, 0x0, 0x0⟩ /- UMB_LOG_SEQ_HI -/,
  ⟨0x10010, [], .val 0x0, 0x0, 0x0, 0x0, 0x0, 0x0⟩ /- UMB_LOG_LOST -/,
  ⟨0x10014, [], .val 0x0, 0x0, 0x0, 0x0, 0x0, 0x0⟩ /- UMB_VER_U -/,
  ⟨0x10018, [], .val 0x0, 0x0, 0x0, 0x0, 0x0, 0x0⟩ /- UMB_VER_S -/,
  ⟨0x1001C, [], .val 0x0, 0x0, 0x0, 0x0, 0x0, 0x0⟩ /- UMB_SVN -/,
  ⟨0x10020, [], .val 0x0, 0x0, 0x0, 0x0, 0x0, 0x0⟩ /- UMB_SLOTS -/,
  ⟨0x10100, [(22, 0x4)], .val 0x0, 0x0, 0x0, 0x0, 0x0, 0x0⟩ /- UMB_SENSs -/,
  ⟨0x10180, [(22, 0x4)], .table [0x690FD80, 0x690FD80, 0x690FD80, 0x690FD80, 0x690FD80, 0x690FD80, 0x690FD80, 0x690FD80, 0x31302C9, 0x31302C9, 0x3B10357, 0x3B10357, 0x20D01DB, 0x44E03E6, 0x76206AE, 0xD890C3F, 0x1482128E, 0x3D8637AA, 0xC856C27A, 0x34802F8, 0xFA00000, 0x3200000], 0xFFFFFFFF, 0x0, 0x0, 0x0, 0x0⟩ /- UMB_SENSs_LIM -/,
  ⟨0x10200, [], .val 0x0, 0x0, 0x0, 0x0, 0x0, 0x0⟩ /- UMB_MBOX_CTRL -/,
  ⟨0x10204, [], .val 0x0, 0x0, 0x0, 0x0, 0x0, 0x0⟩ /- UMB_MBOX_STAT -/,
  ⟨0x10300, [(16, 0x10)], .val 0x0, 0xE07FFFFF, 0x0, 0x0, 0x0, 0x0⟩ /- UMB_I2Ce_CFG -/,
  ⟨0x10304, [(16, 0x10)], .val 0x0, 0x0, 0x0, 0x0, 0x0, 0x0⟩ /- UMB_I2Ce_VAL -/,
  ⟨0x10308, [(16, 0x10)], .val 0x7FFF8000, 0xFFFFFFFF, 0x0, 0x0, 0x0, 0x0⟩ /- UMB_I2Ce_LIM -/,
  ⟨0x10400, [(25, 0x4)], .val 0x0, 0x0, 0x0, 0x0, 0x0, 0x0⟩ /- UMB_DEVPUB -/]

/-- The register table rows of block STK. -/
def regRowsSTK : List RegRow := [
  ⟨0x20000, [], .val 0x0, 0x0, 0x0, 0x0, 0x0, 0x0⟩ /- STK_STAT -/]

/-- The register table rows of block KLN. -/
def regRowsKLN : List RegRow := [
  ⟨0x100000, [], .val 0x80007D00, 0x8001FFFF, 0x0, 0x0, 0x0, 0x0⟩ /- KLN_TICK_CTRL -/,
  ⟨0x100004, [], .val 0x0, 0x0, 0x0, 0x0, 0x0, 0x0⟩ /- KLN_TICK_STATE -/,
  ⟨0x100008, [], .val 0x61A8, 0x0, 0x0, 0x0, 0x0, 0x0⟩ /- KLN_TICK_CYCLES -/,
  ⟨0x10000C, [], .val 0x5FA8, 0x0, 0x0, 0x0, 0x0, 0x0⟩ /- KLN_BUDGET -/,
  ⟨0x100010, [], .val 0x0, 0x0, 0x0, 0x0, 0x0, 0x0⟩ /- KLN_TICK_LO -/,
  ⟨0x100014, [], .val 0x0, 0x0, 0x0, 0x0, 0x0, 0x0⟩ /- KLN_TICK_HI -/,
  ⟨0x100018, [], .val 0x0, 0x0, 0x0, 0x0, 0x0, 0x0⟩ /- KLN_TICK_CYC -/,
  ⟨0x100020, [], .val 0x0, 0xFFFFFFFF, 0x0, 0x0, 0x0, 0x0⟩ /- KLN_SCHED_TICK_LO -/,
  ⟨0x100024, [], .val 0x0, 0xFFFFFFFF, 0x0, 0x0, 0x0, 0x0⟩ /- KLN_SCHED_TICK_HI -/,
  ⟨0x100028, [], .val 0x0, 0xFFFFFFFC, 0x0, 0x0, 0x0, 0x0⟩ /- KLN_SCHED_ADDR -/,
  ⟨0x10002C, [], .val 0x0, 0xFFFFFFFF, 0x0, 0x0, 0x0, 0x0⟩ /- KLN_SCHED_DATA -/,
  ⟨0x100030, [], .val 0xFFFFFFFF, 0xFFFFFFFF, 0x0, 0x0, 0x0, 0x0⟩ /- KLN_SCHED_MASK -/,
  ⟨0x100034, [], .val 0x0, 0x0, 0x0, 0x0, 0x0, 0x0⟩ /- KLN_SCHED_CMD -/,
  ⟨0x100038, [], .val 0x4000000, 0x0, 0x0, 0x0, 0x0, 0x0⟩ /- KLN_SCHED_RESULT -/,
  ⟨0x10003C, [], .val 0x0, 0x0, 0x0, 0x0, 0x0, 0x0⟩ /- KLN_SCHED_SEQ -/,
  ⟨0x100100, [(4, 0x10)], .val 0x0, 0x0, 0x0, 0x0, 0x0, 0x0⟩ /- KLN_Hn_USED -/,
  ⟨0x100104, [(4, 0x10)], .val 0x0, 0xFFFFF, 0x0, 0x0, 0x0, 0x0⟩ /- KLN_Hn_PEAK -/,
  ⟨0x100108, [(4, 0x10)], .val 0x0, 0x0, 0x0, 0x0, 0x0, 0x0⟩ /- KLN_Hn_FAULT -/,
  ⟨0x10010C, [(4, 0x10)], .val 0x0, 0x0, 0xFFFE, 0x0, 0x0, 0x0⟩ /- KLN_Hn_STICKY -/,
  ⟨0x100140, [], .val 0x0, 0xFFFFFFFF, 0x0, 0x0, 0x0, 0x0⟩ /- KLN_TRAM_ERR -/,
  ⟨0x100200, [], .val 0x0, 0x0, 0x0, 0x0, 0x0, 0x0⟩ /- KLN_LOAD_CTRL -/,
  ⟨0x100204, [], .val 0x0, 0x0, 0x0, 0x0, 0x0, 0x0⟩ /- KLN_LOAD_DATA -/,
  ⟨0x100208, [], .val 0x0, 0x0, 0x0, 0x0, 0x0, 0x0⟩ /- KLN_LOAD_STAT -/,
  ⟨0x10020C, [], .val 0x0, 0x0, 0x0, 0x0, 0x0, 0x0⟩ /- KLN_LOAD_DETAIL -/,
  ⟨0x100210, [], .val 0x0, 0x0, 0x0, 0x0, 0x0, 0x0⟩ /- KLN_BANK_STAT -/,
  ⟨0x100214, [], .val 0x0, 0x0, 0x0, 0x0, 0x0, 0x0⟩ /- KLN_SWAP -/,
  ⟨0x100218, [], .val 0x0, 0x0, 0x0, 0x0, 0x0, 0x0⟩ /- KLN_SWAP_STAT -/,
  ⟨0x10021C, [], .val 0x0, 0x0, 0x0, 0x0, 0x0, 0x0⟩ /- KLN_SWAP_TICK_LO -/,
  ⟨0x100220, [], .val 0x0, 0x0, 0x0, 0x0, 0x0, 0x0⟩ /- KLN_SWAP_TICK_HI -/,
  ⟨0x100240, [(2, 0x40)], .val 0x0, 0x0, 0x0, 0x0, 0x0, 0x0⟩ /- KLN_Bb_ID -/,
  ⟨0x100244, [(2, 0x40)], .val 0x0, 0x0, 0x0, 0x0, 0x0, 0x0⟩ /- KLN_Bb_RATE -/,
  ⟨0x100250, [(2, 0x40), (4, 0x4)], .val 0x0, 0x0, 0x0, 0x0, 0x0, 0x0⟩ /- KLN_Bb_DECLn -/,
  ⟨0x100260, [(2, 0x40), (4, 0x4)], .val 0x0, 0x0, 0x0, 0x0, 0x0, 0x0⟩ /- KLN_Bb_COMPn -/]

/-- The register table rows of block AFE. -/
def regRowsAFE : List RegRow := [
  ⟨0x400000, [(4, 0x10000), (24, 0x40)], .val 0x0, 0xEA737, 0x0, 0x0, 0x0, 0x0⟩ /- AFE_CH_CFG -/,
  ⟨0x400004, [(4, 0x10000), (24, 0x40)], .val 0x78884040, 0xFFFFFFFF, 0x0, 0x0, 0x0, 0x0⟩ /- AFE_CH_CM -/,
  ⟨0x400008, [(4, 0x10000), (24, 0x40)], .val 0x0, 0xC07F00FF, 0x0, 0x0, 0x0, 0x0⟩ /- AFE_CH_LIN -/,
  ⟨0x40000C, [(4, 0x10000), (24, 0x40)], .val 0x0, 0xFFFFFFFF, 0x0, 0x0, 0x0, 0x0⟩ /- AFE_CH_RREF -/,
  ⟨0x400010, [(4, 0x10000), (24, 0x40)], .val 0x0, 0xFFFFFF, 0x0, 0x0, 0x0, 0x0⟩ /- AFE_CH_CJC -/,
  ⟨0x400014, [(4, 0x10000), (24, 0x40)], .val 0x1040, 0xFFFFFFFF, 0x0, 0x0, 0x0, 0x0⟩ /- AFE_CH_AE -/,
  ⟨0x400018, [(4, 0x10000), (24, 0x40)], .val 0x140, 0xFFFF, 0x0, 0x0, 0x0, 0x0⟩ /- AFE_CH_CODE -/,
  ⟨0x40001C, [(4, 0x10000), (24, 0x40)], .val 0x0, 0x0, 0x0, 0x0, 0x0, 0x0⟩ /- AFE_CH_SENSE -/,
  ⟨0x400020, [(4, 0x10000), (24, 0x40)], .val 0x0, 0xFF0000, 0x0, 0x0, 0x0, 0x0⟩ /- AFE_CH_STAT -/,
  ⟨0x400800, [(4, 0x10000), (6, 0x10)], .val 0x1F4, 0xF8003FFF, 0x0, 0x0, 0x0, 0x0⟩ /- AFE_EX_CTRL -/,
  ⟨0x400804, [(4, 0x10000), (6, 0x10)], .val 0x0, 0x0, 0x0, 0x0, 0x0, 0x0⟩ /- AFE_EX_STAT -/,
  ⟨0x400808, [(4, 0x10000), (6, 0x10)], .val 0x0, 0x0, 0x0, 0x0, 0x0, 0x0⟩ /- AFE_EX_VOUT -/,
  ⟨0x408000, [], .val 0x0, 0x80000000, 0x0, 0x0, 0x0, 0x0⟩ /- AFE_UT_CTRL -/,
  ⟨0x408004, [], .val 0x0, 0x7FF, 0x0, 0x0, 0x0, 0x0⟩ /- AFE_UT_N0 -/,
  ⟨0x408008, [], .val 0x0, 0x7FF, 0x0, 0x0, 0x0, 0x0⟩ /- AFE_UT_N1 -/,
  ⟨0x409000, [(1024, 0x8)], .val 0x0, 0xFFFFFF, 0x0, 0x0, 0x0, 0x0⟩ /- AFE_UT_X0 -/,
  ⟨0x409004, [(1024, 0x8)], .val 0x0, 0xFFFFFF, 0x0, 0x0, 0x0, 0x0⟩ /- AFE_UT_Y0 -/,
  ⟨0x40B000, [(1024, 0x8)], .val 0x0, 0xFFFFFF, 0x0, 0x0, 0x0, 0x0⟩ /- AFE_UT_X1 -/,
  ⟨0x40B004, [(1024, 0x8)], .val 0x0, 0xFFFFFF, 0x0, 0x0, 0x0, 0x0⟩ /- AFE_UT_Y1 -/]

/-- The register table rows of block CNV. -/
def regRowsCNV : List RegRow := [
  ⟨0x500000, [(12, 0x400)], .val 0x0, 0xF0FFFFFF, 0x0, 0x0, 0x0, 0x0⟩ /- CNV_SCAN_A -/,
  ⟨0x500004, [(12, 0x400)], .val 0x0, 0xF0FFFFFF, 0x0, 0x0, 0x0, 0x0⟩ /- CNV_SCAN_B -/,
  ⟨0x500008, [(12, 0x400)], .val 0x24, 0x0, 0x0, 0x0, 0x0, 0x0⟩ /- CNV_ROLE -/,
  ⟨0x50000C, [(12, 0x400)], .val 0x0, 0x0, 0x0, 0x0, 0x0, 0x0⟩ /- CNV_VISIT -/,
  ⟨0x500010, [(12, 0x400)], .val 0x0, 0x0, 0x0, 0x0, 0x0, 0x0⟩ /- CNV_VISIT_STAT -/,
  ⟨0x500014, [(12, 0x400)], .val 0x0, 0x0, 0x0, 0x0, 0x0, 0x0⟩ /- CNV_MATCH_RES -/,
  ⟨0x500100, [(12, 0x400), (3, 0x40)], .factory 0x0 0xFFFF, 0xFFFF, 0x0, 0x0, 0x0, 0x0⟩ /- CNV_Pp_MIS_OFS -/,
  ⟨0x500104, [(12, 0x400), (3, 0x40)], .factory 0x0 0xFFFF, 0xFFFF, 0x0, 0x0, 0x0, 0x0⟩ /- CNV_Pp_MIS_GAIN -/,
  ⟨0x500108, [(12, 0x400), (3, 0x40)], .val 0x0, 0xFFFF, 0x0, 0x0, 0x0, 0x0⟩ /- CNV_Pp_MIS_SKEW -/,
  ⟨0x50010C, [(12, 0x400), (3, 0x40)], .val 0x80000000, 0x80000000, 0x0, 0x0, 0x0, 0x0⟩ /- CNV_Pp_EST -/,
  ⟨0x500110, [(12, 0x400), (3, 0x40)], .val 0x0, 0x0, 0x0, 0x0, 0x0, 0x0⟩ /- CNV_Pp_RUN_LO -/,
  ⟨0x500114, [(12, 0x400), (3, 0x40)], .val 0x0, 0x0, 0x0, 0x0, 0x0, 0x0⟩ /- CNV_Pp_RUN_HI -/,
  ⟨0x500118, [(12, 0x400), (3, 0x40)], .val 0x0, 0x0, 0x0, 0x0, 0x0, 0x0⟩ /- CNV_Pp_RUN_TEMP -/,
  ⟨0x50011C, [(12, 0x400), (3, 0x40)], .table [0x0, 0x1, 0x2, 0x0, 0x1, 0x2, 0x0, 0x1, 0x2, 0x0, 0x1, 0x2, 0x0, 0x1, 0x2, 0x0, 0x1, 0x2, 0x0, 0x1, 0x2, 0x0, 0x1, 0x2, 0x0, 0x1, 0x2, 0x0, 0x1, 0x2, 0x0, 0x1, 0x2, 0x0, 0x1, 0x2], 0x0, 0x0, 0x0, 0x0, 0x0⟩ /- CNV_Pp_STATE -/,
  ⟨0x503000, [], .val 0x80100384, 0x80FFFFFF, 0x0, 0x0, 0x0, 0x0⟩ /- CNV_ROT_CTRL -/,
  ⟨0x503004, [], .val 0x10018008, 0xFFFFFFFF, 0x0, 0x0, 0x0, 0x0⟩ /- CNV_MATCH_CFG -/,
  ⟨0x503008, [], .val 0x1000, 0xFFFF, 0x0, 0x0, 0x0, 0x0⟩ /- CNV_SHADOW_MAX -/]

/-- The register table rows of block CAL. -/
def regRowsCAL : List RegRow := [
  ⟨0x600000, [(4, 0x20)], .val 0x249F00, 0x3FFFFF, 0x0, 0x0, 0x0, 0x0⟩ /- CAL_REF_VFS -/,
  ⟨0x600004, [(4, 0x20)], .val 0x124F80, 0x3FFFFF, 0x0, 0x0, 0x0, 0x0⟩ /- CAL_REF_VMID -/,
  ⟨0x600008, [(4, 0x20)], .val 0x0, 0xFFFFFFFF, 0x0, 0x0, 0x0, 0x0⟩ /- CAL_REF_TAG -/,
  ⟨0x60000C, [(4, 0x20)], .val 0x0, 0x0, 0x0, 0x0, 0x0, 0x0⟩ /- CAL_REF_STAT -/,
  ⟨0x600100, [], .val 0x8000148, 0xFFFFFFFF, 0x0, 0x0, 0x0, 0x0⟩ /- CAL_CORE_WIN0 -/,
  ⟨0x600104, [], .val 0x8100C00, 0xFFFFFF00, 0x0, 0x0, 0x0, 0x0⟩ /- CAL_CORE_WIN1 -/,
  ⟨0x600200, [], .val 0x0, 0x0, 0x0, 0x0, 0x0, 0x0⟩ /- CAL_SYS_CMD -/,
  ⟨0x600204, [], .val 0x1400C80, 0xFFFFFFFF, 0x0, 0x0, 0x0, 0x0⟩ /- CAL_SYS_CFG -/,
  ⟨0x600208, [], .val 0x0, 0x0, 0x0, 0x0, 0x0, 0x0⟩ /- CAL_SYS_STAT -/,
  ⟨0x60020C, [], .val 0x258, 0xFFFF, 0x0, 0x0, 0x0, 0x0⟩ /- CAL_SYS_TIMEOUT -/,
  ⟨0x600210, [(4, 0x4)], .val 0x0, 0xFFFFFFFF, 0x0, 0x0, 0x0, 0x0⟩ /- CAL_SYS_CERT -/,
  ⟨0x600220, [], .val 0x1000, 0xFFFF, 0x0, 0x0, 0x0, 0x0⟩ /- CAL_SLEW -/,
  ⟨0x601000, [(36, 0x20)], .factory 0x0 0xFFFFFF, 0x0, 0x0, 0x0, 0x0, 0x0⟩ /- CAL_CORE_OFS -/,
  ⟨0x601004, [(36, 0x20)], .factory 0x0 0xFFFFFF, 0x0, 0x0, 0x0, 0x0, 0x0⟩ /- CAL_CORE_GAIN -/,
  ⟨0x601008, [(36, 0x20)], .val 0x0, 0x0, 0x0, 0x0, 0x0, 0x0⟩ /- CAL_CORE_TAG -/,
  ⟨0x60100C, [(36, 0x20)], .val 0x0, 0x0, 0x0, 0x0, 0x0, 0x0⟩ /- CAL_CORE_RES -/,
  ⟨0x610000, [(4192, 0x80)], .val 0x20000000, 0x80000000, 0x0, 0x0, 0x0, 0x0⟩ /- CAL_CH_CTRL -/,
  ⟨0x610004, [(4192, 0x80)], .val 0x0, 0xFFFFFFFF, 0x0, 0x0, 0x0, 0x0⟩ /- CAL_CH_EZ -/,
  ⟨0x610008, [(4192, 0x80)], .val 0x0, 0xFFFFFFFF, 0x0, 0x0, 0x0, 0x0⟩ /- CAL_CH_EF -/,
  ⟨0x61000C, [(4192, 0x80)], .val 0x8000800, 0xFFFFFFFF, 0x0, 0x0, 0x0, 0x0⟩ /- CAL_CH_WIN -/,
  ⟨0x610010, [(4192, 0x80)], .val 0x100, 0xFFFF, 0x0, 0x0, 0x0, 0x0⟩ /- CAL_CH_NLIM -/,
  ⟨0x610014, [(4192, 0x80)], .val 0x10000000, 0x0, 0x0, 0x0, 0x0, 0x0⟩ /- CAL_CH_GAIN -/,
  ⟨0x610018, [(4192, 0x80)], .val 0x0, 0x0, 0x0, 0x0, 0x0, 0x0⟩ /- CAL_CH_OFS -/,
  ⟨0x61001C, [(4192, 0x80)], .val 0x0, 0x0, 0x0, 0x0, 0x0, 0x0⟩ /- CAL_CH_AZ -/,
  ⟨0x610020, [(4192, 0x80)], .val 0x0, 0x0, 0x0, 0x0, 0x0, 0x0⟩ /- CAL_CH_AF -/,
  ⟨0x610024, [(4192, 0x80)], .val 0x0, 0x0, 0x0, 0x0, 0x0, 0x0⟩ /- CAL_CH_NOISE -/,
  ⟨0x610028, [(4192, 0x80)], .val 0x0, 0x0, 0x0, 0x0, 0x0, 0x0⟩ /- CAL_CH_NGAIN -/,
  ⟨0x61002C, [(4192, 0x80)], .val 0x0, 0x0, 0x0, 0x0, 0x0, 0x0⟩ /- CAL_CH_NOFS -/,
  ⟨0x610030, [(4192, 0x80), (4, 0x4)], .val 0x0, 0x0, 0x0, 0x0, 0x0, 0x0⟩ /- CAL_CH_CERT -/,
  ⟨0x610040, [(4192, 0x80)], .val 0x0, 0x0, 0x0, 0x0, 0x0, 0x0⟩ /- CAL_CH_TICK_LO -/,
  ⟨0x610044, [(4192, 0x80)], .val 0x0, 0x0, 0x0, 0x0, 0x0, 0x0⟩ /- CAL_CH_TICK_HI -/,
  ⟨0x610048, [(4192, 0x80)], .val 0x8000, 0x0, 0x0, 0x0, 0x0, 0x0⟩ /- CAL_CH_TEMP -/,
  ⟨0x61004C, [(4192, 0x80)], .val 0x0, 0x0, 0x0, 0x0, 0x0, 0x0⟩ /- CAL_CH_AFE -/,
  ⟨0x610050, [(4192, 0x80)], .val 0x10000000, 0xFFFFFFFF, 0x0, 0x0, 0x0, 0x0⟩ /- CAL_CH_LGAIN -/,
  ⟨0x610054, [(4192, 0x80)], .val 0x0, 0xFFFFFFFF, 0x0, 0x0, 0x0, 0x0⟩ /- CAL_CH_LOFS -/]

/-- The register table rows of block CHR. -/
def regRowsCHR : List RegRow := [
  ⟨0x700000, [], .val 0x0, 0x0, 0x0, 0x0, 0x0, 0x0⟩ /- CHR_BANK_STAT -/,
  ⟨0x700004, [], .val 0x0, 0x0, 0x0, 0x0, 0x0, 0x0⟩ /- CHR_BANK_CTRL -/,
  ⟨0x700008, [], .val 0x0, 0xFFFFFFFF, 0x0, 0x0, 0x0, 0x0⟩ /- CHR_BANK_CRC -/,
  ⟨0x70000C, [], .val 0x0, 0x0, 0x0, 0x0, 0x0, 0x0⟩ /- CHR_BANK_RES -/,
  ⟨0x700010, [], .val 0x0, 0x0, 0x0, 0x0, 0x0, 0x0⟩ /- CHR_SWAP -/,
  ⟨0x700014, [], .val 0x0, 0x0, 0x0, 0x0, 0x0, 0x0⟩ /- CHR_SWAP_STAT -/,
  ⟨0x700018, [], .val 0x0, 0x0, 0x0, 0x0, 0x0, 0x0⟩ /- CHR_LOAD -/,
  ⟨0x70001C, [], .val 0x0, 0x0, 0x0, 0x0, 0x0, 0x0⟩ /- CHR_DELAY_USED -/,
  ⟨0x700020, [], .val 0x0, 0x0, 0x0, 0x0, 0x0, 0x0⟩ /- CHR_DET_RATE_USED -/,
  ⟨0x710000, [(4192, 0x40)], .val 0x0, 0xFFFFFFC0, 0x0, 0x0, 0x0, 0x0⟩ /- CHR_CH_CFG -/,
  ⟨0x710004, [(4192, 0x40)], .val 0x10001, 0xFFFFFFFF, 0x0, 0x0, 0x0, 0x0⟩ /- CHR_CH_RSMP -/,
  ⟨0x710008, [(4192, 0x40)], .val 0x0, 0xFFFF00FF, 0x0, 0x0, 0x0, 0x0⟩ /- CHR_CH_DELAY -/,
  ⟨0x71000C, [(4192, 0x40)], .val 0x0, 0xFF0000, 0x0, 0x0, 0x0, 0x0⟩ /- CHR_CH_STAT -/,
  ⟨0x710010, [(4192, 0x40)], .val 0x0, 0x0, 0x0, 0x0, 0x0, 0x0⟩ /- CHR_CH_OFS_LO -/,
  ⟨0x710014, [(4192, 0x40)], .val 0x0, 0x0, 0x0, 0x0, 0x0, 0x0⟩ /- CHR_CH_OFS_HI -/,
  ⟨0x710018, [(4192, 0x40)], .val 0x0, 0x0, 0x0, 0x0, 0x0, 0x0⟩ /- CHR_CH_GD_LO -/,
  ⟨0x71001C, [(4192, 0x40)], .val 0x0, 0x0, 0x0, 0x0, 0x0, 0x0⟩ /- CHR_CH_GD_HI -/,
  ⟨0x710020, [(4192, 0x40)], .val 0x0, 0x0, 0x0, 0x0, 0x0, 0x0⟩ /- CHR_CH_AMB -/,
  ⟨0x760000, [(512, 0x40)], .val 0x0, 0xFFE01FFF, 0x0, 0x0, 0x0, 0x0⟩ /- CHR_DET_CFG -/,
  ⟨0x760004, [(512, 0x40)], .val 0x7D00, 0xFFFF, 0x0, 0x0, 0x0, 0x0⟩ /- CHR_DET_WIN -/,
  ⟨0x760008, [(512, 0x40)], .val 0xFFFFFFFF, 0xFFFFFFFF, 0x0, 0x0, 0x0, 0x0⟩ /- CHR_DET_ROUTE -/,
  ⟨0x760010, [(512, 0x40)], .val 0x0, 0x0, 0x0, 0x0, 0x0, 0x0⟩ /- CHR_DET_RES0 -/,
  ⟨0x760014, [(512, 0x40)], .val 0x0, 0x0, 0x0, 0x0, 0x0, 0x0⟩ /- CHR_DET_RES1 -/,
  ⟨0x760018, [(512, 0x40)], .val 0x0, 0x0, 0x0, 0x0, 0x0, 0x0⟩ /- CHR_DET_RES2 -/,
  ⟨0x76001C, [(512, 0x40)], .val 0x0, 0x0, 0x0, 0x0, 0x0, 0x0⟩ /- CHR_DET_RES3 -/,
  ⟨0x760020, [(512, 0x40)], .val 0x0, 0x0, 0x0, 0x0, 0x0, 0x0⟩ /- CHR_DET_RES4 -/]

/-- The register table rows of block FLK. -/
def regRowsFLK : List RegRow := [
  ⟨0x800000, [(16, 0x1000)], .val 0x30000, 0xD3330000, 0x0, 0x0, 0x0, 0x0⟩ /- FLK_CTRL -/,
  ⟨0x800004, [(16, 0x1000)], .val 0x0, 0x0, 0x0, 0x0, 0x0, 0x0⟩ /- FLK_STAT -/,
  ⟨0x800008, [(16, 0x1000)], .val 0x0, 0x0, 0x0, 0x0, 0x0, 0x0⟩ /- FLK_HOLD -/,
  ⟨0x80000C, [(16, 0x1000)], .val 0x4000, 0x1F7F3F, 0x0, 0x0, 0x0, 0x0⟩ /- FLK_TX_INIT -/,
  ⟨0x800010, [(16, 0x1000)], .val 0x4000, 0x0, 0x0, 0x0, 0x0, 0x0⟩ /- FLK_TX_EQ -/,
  ⟨0x800014, [(16, 0x1000)], .val 0x0, 0xFFFFFFFF, 0x0, 0x0, 0x0, 0x0⟩ /- FLK_ERR -/,
  ⟨0x800018, [(16, 0x1000)], .val 0x0, 0x0, 0x0, 0x0, 0x0, 0x0⟩ /- FLK_FAR_CAPS -/,
  ⟨0x80001C, [(16, 0x1000)], .val 0x0, 0x0, 0x0, 0x0, 0x0, 0x0⟩ /- FLK_UP_LO -/,
  ⟨0x800020, [(16, 0x1000)], .val 0x0, 0x0, 0x0, 0x0, 0x0, 0x0⟩ /- FLK_UP_HI -/]

/-- The register table rows of block PTN. -/
def regRowsPTN : List RegRow := [
  ⟨0x900000, [], .val 0x40000020, 0xC00000FF, 0x0, 0x0, 0x30000000, 0x0⟩ /- PTN_CTRL -/,
  ⟨0x900004, [], .val 0x0, 0x0, 0x0, 0x0, 0x0, 0x0⟩ /- PTN_STEW -/,
  ⟨0x900008, [], .val 0x0, 0x0, 0x0, 0x0, 0x0, 0x0⟩ /- PTN_EPOCH -/,
  ⟨0x90000C, [], .val 0x0, 0x0, 0x0, 0x0, 0x0, 0x0⟩ /- PTN_TAKE -/,
  ⟨0x900010, [], .val 0x7D00, 0xFFFF, 0x0, 0x0, 0x0, 0x0⟩ /- PTN_STORM -/,
  ⟨0x900014, [], .val 0x0, 0xFFFFFFFF, 0x0, 0x0, 0x0, 0x0⟩ /- PTN_COUNTS -/,
  ⟨0x910000, [(512, 0x20)], .val 0x0, 0x0, 0x0, 0x0, 0x0, 0x0⟩ /- PTN_Pp_SERIAL -/,
  ⟨0x910004, [(512, 0x20)], .val 0x0, 0x0, 0x0, 0x0, 0x0, 0x0⟩ /- PTN_Pp_STAT -/,
  ⟨0x910008, [(512, 0x20)], .val 0x0, 0x0, 0x0, 0x0, 0x0, 0x0⟩ /- PTN_Pp_EPOCH -/,
  ⟨0x91000C, [(512, 0x20)], .val 0x0, 0x0, 0x0, 0x0, 0x0, 0x0⟩ /- PTN_Pp_SEEN_LO -/,
  ⟨0x910010, [(512, 0x20)], .val 0x0, 0x0, 0x0, 0x0, 0x0, 0x0⟩ /- PTN_Pp_SEEN_HI -/,
  ⟨0x940000, [(4096, 0x20)], .val 0x0, 0x0, 0x0, 0x0, 0x0, 0x0⟩ /- PTN_SLs_ID -/,
  ⟨0x940004, [(4096, 0x20)], .val 0x0, 0x0, 0x0, 0x0, 0x0, 0x0⟩ /- PTN_SLs_STAT -/,
  ⟨0x940008, [(4096, 0x20)], .val 0x0, 0xFFFFFFFF, 0x0, 0x0, 0x0, 0x0⟩ /- PTN_SLs_RES -/,
  ⟨0x94000C, [(4096, 0x20)], .val 0x0, 0x800000FF, 0x0, 0x0, 0x0, 0x0⟩ /- PTN_SLs_RESCH -/,
  ⟨0x940010, [(4096, 0x20)], .val 0x0, 0xFFFFFF, 0x0, 0x0, 0x0, 0x0⟩ /- PTN_SLs_RATE -/,
  ⟨0x940014, [(4096, 0x20)], .val 0x0, 0xFFFFFFFF, 0x0, 0x0, 0x0, 0x0⟩ /- PTN_SLs_NCFG -/,
  ⟨0x940018, [(4096, 0x20)], .val 0x0, 0x0, 0x0, 0x0, 0x0, 0x0⟩ /- PTN_SLs_SEQ -/,
  ⟨0x94001C, [(4096, 0x20)], .val 0x0, 0x0, 0x0, 0x0, 0x0, 0x0⟩ /- PTN_SLs_JOIN -/]

/-- The register table rows of block PTP. -/
def regRowsPTP : List RegRow := [
  ⟨0xA00000, [], .val 0x0, 0x80FFFFF1, 0x0, 0x0, 0x0, 0x0⟩ /- PTP_CTRL -/,
  ⟨0xA00004, [], .val 0x0, 0x0, 0x0, 0x0, 0x0, 0x0⟩ /- PTP_SERVO_STAT -/,
  ⟨0xA00008, [], .val 0x0, 0x0, 0x0, 0x0, 0x0, 0x0⟩ /- PTP_OFFSET_LO -/,
  ⟨0xA0000C, [], .val 0x0, 0x0, 0x0, 0x0, 0x0, 0x0⟩ /- PTP_OFFSET_HI -/,
  ⟨0xA00010, [], .val 0x0, 0x0, 0x0, 0x0, 0x0, 0x0⟩ /- PTP_RATE -/,
  ⟨0xA00014, [], .val 0x0, 0x0, 0x0, 0x0, 0x0, 0x0⟩ /- PTP_HOLD_RATE -/,
  ⟨0xA00018, [], .val 0x0, 0x0, 0x0, 0x0, 0x0, 0x0⟩ /- PTP_NOW_SEC_LO -/,
  ⟨0xA0001C, [], .val 0x0, 0x0, 0x0, 0x0, 0x0, 0x0⟩ /- PTP_NOW_SEC_HI -/,
  ⟨0xA00020, [], .val 0x0, 0x0, 0x0, 0x0, 0x0, 0x0⟩ /- PTP_NOW_NS -/,
  ⟨0xA00024, [], .val 0x0, 0x0, 0x0, 0x0, 0x0, 0x0⟩ /- PTP_NOW_FRAC -/,
  ⟨0xA00028, [], .val 0x64641044, 0xFFFFFFFF, 0x0, 0x0, 0x0, 0x0⟩ /- PTP_SERVO_CFG -/,
  ⟨0xA00040, [], .val 0x0, 0xFFFFFFFF, 0x0, 0x0, 0x0, 0x0⟩ /- PTP_RESTEP_VAL_LO -/,
  ⟨0xA00044, [], .val 0x0, 0xFFFFFFFF, 0x0, 0x0, 0x0, 0x0⟩ /- PTP_RESTEP_VAL_HI -/,
  ⟨0xA00048, [], .val 0x0, 0xFFFFFFFF, 0x0, 0x0, 0x0, 0x0⟩ /- PTP_RESTEP_TICK_LO -/,
  ⟨0xA0004C, [], .val 0x0, 0xFFFFFFFF, 0x0, 0x0, 0x0, 0x0⟩ /- PTP_RESTEP_TICK_HI -/,
  ⟨0xA00050, [], .val 0x0, 0x0, 0x0, 0x0, 0x0, 0x0⟩ /- PTP_RESTEP_CMD -/,
  ⟨0xA00054, [], .val 0x0, 0x0, 0x0, 0x0, 0x0, 0x0⟩ /- PTP_RESTEP_AUTH -/,
  ⟨0xA00058, [], .val 0x0, 0x0, 0x0, 0x0, 0x0, 0x0⟩ /- PTP_RESTEP_EXP_LO -/,
  ⟨0xA0005C, [], .val 0x0, 0x0, 0x0, 0x0, 0x0, 0x0⟩ /- PTP_RESTEP_EXP_HI -/,
  ⟨0xA00060, [], .val 0x0, 0x0, 0x0, 0x0, 0x0, 0x0⟩ /- PTP_RESTEP_STAT -/,
  ⟨0xA00064, [], .val 0x0, 0x0, 0x0, 0x0, 0x0, 0x0⟩ /- PTP_RESTEP_DONE_LO -/,
  ⟨0xA00068, [], .val 0x0, 0x0, 0x0, 0x0, 0x0, 0x0⟩ /- PTP_RESTEP_DONE_HI -/,
  ⟨0xA01000, [(2, 0x1000)], .val 0x20000300, 0xFFFF0F00, 0x0, 0x0, 0x0, 0x0⟩ /- PTP_Un_CFG -/,
  ⟨0xA01004, [(2, 0x1000)], .factory 0x0 0xFFFFFFFF, 0xFFFFFFFF, 0x0, 0x0, 0x0, 0x0⟩ /- PTP_Un_ING_LAT -/,
  ⟨0xA01008, [(2, 0x1000)], .factory 0x0 0xFFFFFFFF, 0xFFFFFFFF, 0x0, 0x0, 0x0, 0x0⟩ /- PTP_Un_EGR_LAT -/,
  ⟨0xA0100C, [(2, 0x1000)], .val 0x0, 0xFFFFFFFF, 0x0, 0x0, 0x0, 0x0⟩ /- PTP_Un_ASYM -/,
  ⟨0xA01010, [(2, 0x1000)], .val 0x0, 0x0, 0x0, 0x0, 0x0, 0x0⟩ /- PTP_Un_STAT -/,
  ⟨0xA01014, [(2, 0x1000)], .val 0x0, 0x0, 0x0, 0x0, 0x0, 0x0⟩ /- PTP_Un_MPD -/,
  ⟨0xA01018, [(2, 0x1000)], .val 0x0, 0x0, 0x0, 0x0, 0x0, 0x0⟩ /- PTP_Un_GM_LO -/,
  ⟨0xA0101C, [(2, 0x1000)], .val 0x0, 0x0, 0x0, 0x0, 0x0, 0x0⟩ /- PTP_Un_GM_HI -/,
  ⟨0xA01020, [(2, 0x1000)], .val 0x0, 0xFFFF0000, 0x0, 0x0, 0x0, 0x0⟩ /- PTP_Un_CNT -/,
  ⟨0xA04000, [(16, 0x40)], .val 0x0, 0x0, 0x0, 0x0, 0x0, 0x0⟩ /- PTP_FLl_DELAY -/,
  ⟨0xA04004, [(16, 0x40)], .val 0x0, 0xFFFFFFFF, 0x0, 0x0, 0x0, 0x0⟩ /- PTP_FLl_ASYM -/,
  ⟨0xA04008, [(16, 0x40)], .val 0x0, 0x0, 0x0, 0x0, 0x0, 0x0⟩ /- PTP_FLl_MSTAT -/,
  ⟨0xA0400C, [(16, 0x40)], .val 0x500, 0xFFFF, 0x0, 0x0, 0x0, 0x0⟩ /- PTP_FLl_TOL -/]

/-- The register table rows of block EDG. -/
def regRowsEDG : List RegRow := [
  ⟨0xB00000, [], .val 0x0, 0x80000000, 0x0, 0x0, 0x0, 0x0⟩ /- EDG_CTRL -/,
  ⟨0xB00004, [], .val 0xFFFFFFFF, 0xFFFFFFFF, 0x0, 0x0, 0x0, 0x0⟩ /- EDG_EDGE_Q -/,
  ⟨0xB00008, [], .val 0x0, 0xFFFFFFFF, 0x0, 0x0, 0x0, 0x0⟩ /- EDG_STAT -/,
  ⟨0xB0000C, [], .val 0x0, 0x0, 0x0, 0x0, 0x0, 0x0⟩ /- EDG_RATE -/,
  ⟨0xB01000, [(112, 0x10)], .val 0x0, 0xF0000000, 0x0, 0x0, 0x0, 0x0⟩ /- EDG_Ss_CFG -/,
  ⟨0xB01004, [(112, 0x10)], .val 0x0, 0xFFFFFFFF, 0x0, 0x0, 0x0, 0x0⟩ /- EDG_Ss_OFS -/,
  ⟨0xB01008, [(112, 0x10)], .edgeLat, 0x0, 0x0, 0x0, 0x0, 0x0⟩ /- EDG_Ss_LAT -/,
  ⟨0xB0100C, [(112, 0x10)], .val 0x0, 0xFFFF, 0x0, 0x0, 0x0, 0x0⟩ /- EDG_Ss_CNT -/,
  ⟨0xB02000, [(16, 0x20)], .val 0x0, 0xFC7F007F, 0x0, 0x0, 0x0, 0x0⟩ /- EDG_Ii_CFG -/,
  ⟨0xB02004, [(16, 0x20)], .val 0xF4240, 0x7FFFFFF, 0x0, 0x0, 0x0, 0x0⟩ /- EDG_Ii_TO -/,
  ⟨0xB02008, [(16, 0x20)], .val 0x0, 0x0, 0x0, 0x0, 0x0, 0x0⟩ /- EDG_Ii_RES_LO -/,
  ⟨0xB0200C, [(16, 0x20)], .val 0x0, 0x0, 0x0, 0x0, 0x0, 0x0⟩ /- EDG_Ii_RES_HI -/,
  ⟨0xB02010, [(16, 0x20)], .val 0x0, 0x0, 0x0, 0x0, 0x0, 0x0⟩ /- EDG_Ii_RES_STAT -/,
  ⟨0xB04000, [(32, 0x100)], .val 0x10000, 0xFF0FFFFF, 0x0, 0x0, 0x0, 0x0⟩ /- EDG_Gg_CFG -/,
  ⟨0xB04004, [(32, 0x100)], .val 0xFFFFFFFF, 0xFFFFFFFF, 0x0, 0x0, 0x0, 0x0⟩ /- EDG_Gg_MEM0 -/,
  ⟨0xB04008, [(32, 0x100)], .val 0xFFFFFFFF, 0xFFFFFFFF, 0x0, 0x0, 0x0, 0x0⟩ /- EDG_Gg_MEM1 -/,
  ⟨0xB0400C, [(32, 0x100)], .val 0xF4240, 0x7FFFFFF, 0x0, 0x0, 0x0, 0x0⟩ /- EDG_Gg_WIN -/,
  ⟨0xB04010, [(32, 0x100)], .val 0xFFFFFFFF, 0xFFFFFFFF, 0x0, 0x0, 0x0, 0x0⟩ /- EDG_Gg_Q -/,
  ⟨0xB04014, [(32, 0x100)], .val 0x0, 0x0, 0x0, 0x0, 0x0, 0x0⟩ /- EDG_Gg_T0_SLO -/,
  ⟨0xB04018, [(32, 0x100)], .val 0x0, 0x0, 0x0, 0x0, 0x0, 0x0⟩ /- EDG_Gg_T0_SHI -/,
  ⟨0xB0401C, [(32, 0x100)], .val 0x0, 0x0, 0x0, 0x0, 0x0, 0x0⟩ /- EDG_Gg_T0_NS -/,
  ⟨0xB04020, [(32, 0x100)], .val 0x0, 0x0, 0x0, 0x0, 0x0, 0x0⟩ /- EDG_Gg_T0_FRAC -/,
  ⟨0xB04024, [(32, 0x100)], .val 0x0, 0x0, 0x0, 0x0, 0x0, 0x0⟩ /- EDG_Gg_LAST -/,
  ⟨0xB04040, [(32, 0x100), (8, 0x4)], .val 0x0, 0x0, 0x0, 0x0, 0x0, 0x0⟩ /- EDG_Gg_OFSk -/,
  ⟨0xB04060, [(32, 0x100), (28, 0x4)], .val 0x0, 0x0, 0x0, 0x0, 0x0, 0x0⟩ /- EDG_Gg_PAIRp -/,
  ⟨0xB040E0, [(32, 0x100)], .val 0x0, 0xFFFF, 0x0, 0x0, 0x0, 0x0⟩ /- EDG_Gg_CNT -/]

/-- The register table rows of block KND. -/
def regRowsKND : List RegRow := [
  ⟨0xC00000, [], .val 0x0, 0x80000000, 0x0, 0x0, 0x0, 0x0⟩ /- KND_CTRL -/,
  ⟨0xC00004, [], .val 0x0, 0xFFFF, 0x0, 0x0, 0x0, 0x0⟩ /- KND_STAT -/,
  ⟨0xC01000, [(64, 0x40)], .val 0x200000, 0xEFFFFFFF, 0x0, 0x0, 0x0, 0x0⟩ /- KND_TRu_CFG -/,
  ⟨0xC01004, [(64, 0x40)], .val 0x186A0, 0x1FFFFF, 0x0, 0x0, 0x0, 0x0⟩ /- KND_TRu_PRE -/,
  ⟨0xC01008, [(64, 0x40)], .val 0x61A80, 0x3FFFFFF, 0x0, 0x0, 0x0, 0x0⟩ /- KND_TRu_POST -/,
  ⟨0xC0100C, [(64, 0x40)], .val 0x0, 0xFFFFFFFF, 0x0, 0x0, 0x0, 0x0⟩ /- KND_TRu_ARM_LO -/,
  ⟨0xC01010, [(64, 0x40)], .val 0x0, 0xFFFFFFFF, 0x0, 0x0, 0x0, 0x0⟩ /- KND_TRu_ARM_HI -/,
  ⟨0xC01014, [(64, 0x40)], .val 0x0, 0x0, 0x0, 0x0, 0x0, 0x0⟩ /- KND_TRu_CMD -/,
  ⟨0xC01018, [(64, 0x40)], .val 0x0, 0xFF00, 0x0, 0x0, 0x0, 0x0⟩ /- KND_TRu_STAT -/,
  ⟨0xC0101C, [(64, 0x40)], .val 0xFFFFFFFF, 0xFFFFFFFF, 0x0, 0x0, 0x0, 0x0⟩ /- KND_TRu_Q -/,
  ⟨0xC01020, [(64, 0x40)], .val 0x0, 0x0, 0x0, 0x0, 0x0, 0x0⟩ /- KND_TRu_FT_SLO -/,
  ⟨0xC01024, [(64, 0x40)], .val 0x0, 0x0, 0x0, 0x0, 0x0, 0x0⟩ /- KND_TRu_FT_SHI -/,
  ⟨0xC01028, [(64, 0x40)], .val 0x0, 0x0, 0x0, 0x0, 0x0, 0x0⟩ /- KND_TRu_FT_NS -/,
  ⟨0xC0102C, [(64, 0x40)], .val 0x0, 0x0, 0x0, 0x0, 0x0, 0x0⟩ /- KND_TRu_FT_FRAC -/,
  ⟨0xC01030, [(64, 0x40)], .val 0x0, 0x0, 0x0, 0x0, 0x0, 0x0⟩ /- KND_TRu_ORIG -/,
  ⟨0xC03000, [(32, 0x20)], .val 0x0, 0xF83F1FFF, 0x0, 0x0, 0x0, 0x0⟩ /- KND_CUn_CFG -/,
  ⟨0xC03004, [(32, 0x20)], .val 0x0, 0xFFFFFF, 0x0, 0x0, 0x0, 0x0⟩ /- KND_CUn_THR -/,
  ⟨0xC03008, [(32, 0x20)], .val 0x0, 0xFFFFFF, 0x0, 0x0, 0x0, 0x0⟩ /- KND_CUn_HYST -/,
  ⟨0xC0300C, [(32, 0x20)], .val 0x1, 0xFFFF, 0x0, 0x0, 0x0, 0x0⟩ /- KND_CUn_SPAN -/,
  ⟨0xC04000, [(16, 0x10)], .val 0x0, 0xFF001FFF, 0x0, 0x0, 0x0, 0x0⟩ /- KND_MKm_CFG -/,
  ⟨0xC04004, [(16, 0x10)], .val 0x1, 0xFFFF, 0x0, 0x0, 0x0, 0x0⟩ /- KND_MKm_STEP -/,
  ⟨0xC05000, [], .val 0x0, 0x0, 0x0, 0x0, 0x0, 0x0⟩ /- KND_SK_CMD -/,
  ⟨0xC05004, [], .val 0x0, 0xFFFF0FFF, 0x0, 0x0, 0x0, 0x0⟩ /- KND_SK_SEL -/,
  ⟨0xC05008, [], .val 0x10000000, 0xFF000000, 0x0, 0x0, 0x0, 0x0⟩ /- KND_SK_CFG -/,
  ⟨0xC0500C, [], .val 0x0, 0xFFFFFFFF, 0x0, 0x0, 0x0, 0x0⟩ /- KND_SK_NCFG -/,
  ⟨0xC05010, [], .val 0x0, 0x0, 0x0, 0x0, 0x0, 0x0⟩ /- KND_SK_STAT -/,
  ⟨0xC05014, [], .val 0x0, 0x0, 0x0, 0x0, 0x0, 0x0⟩ /- KND_SK_TICK_LO -/,
  ⟨0xC05018, [], .val 0x0, 0x0, 0x0, 0x0, 0x0, 0x0⟩ /- KND_SK_TICK_HI -/,
  ⟨0xC10000, [(16, 0x400), (256, 0x4)], .val 0x0, 0xC00F1FFF, 0x0, 0x0, 0x0, 0x0⟩ /- KND_SET -/,
  ⟨0xC20000, [(4192, 0x4)], .val 0x80000000, 0x0, 0x0, 0x0, 0x0, 0x0⟩ /- KND_SK_CHc -/,
  ⟨0xC30000, [(112, 0x4)], .val 0x80000000, 0x0, 0x0, 0x0, 0x0, 0x0⟩ /- KND_SK_SRCs -/,
  ⟨0xC80000, [(16, 0x8000), (4096, 0x8)], .val 0x0, 0xFFFFFF, 0x0, 0x0, 0x0, 0x0⟩ /- KND_MKm_LO -/,
  ⟨0xC80004, [(16, 0x8000), (4096, 0x8)], .val 0x0, 0xFFFFFF, 0x0, 0x0, 0x0, 0x0⟩ /- KND_MKm_HI -/]

/-- The register table rows of block QMG. -/
def regRowsQMG : List RegRow := [
  ⟨0xD00000, [], .val 0x40000, 0x0, 0x0, 0x0, 0x0, 0x0⟩ /- QMG_POOL -/,
  ⟨0xD00004, [], .val 0x40000, 0x7FFFF, 0x0, 0x0, 0x0, 0x0⟩ /- QMG_POOL_LOW -/,
  ⟨0xD00008, [], .val 0x4000, 0x7FFFF, 0x0, 0x0, 0x0, 0x0⟩ /- QMG_RESERVE -/,
  ⟨0xD0000C, [], .val 0x80010000, 0x8007FFFF, 0x0, 0x0, 0x0, 0x0⟩ /- QMG_SPILL -/,
  ⟨0xD00010, [], .val 0x0, 0x0, 0x0, 0x0, 0xC000001F, 0x0⟩ /- QMG_BL_CFG -/,
  ⟨0xD00014, [], .val 0x100, 0xFFFF, 0x0, 0x0, 0x0, 0x0⟩ /- QMG_BL_HIST -/,
  ⟨0xD00018, [], .val 0x0, 0x0, 0x0, 0x0, 0x0, 0x0⟩ /- QMG_BL_STAT -/,
  ⟨0xD0001C, [], .val 0x0, 0xFFFFFFFF, 0x0, 0x0, 0x0, 0x0⟩ /- QMG_ECC -/,
  ⟨0xD00020, [], .val 0x0, 0x0, 0x0, 0x0, 0x0, 0x0⟩ /- QMG_FLUSH -/,
  ⟨0xD00024, [], .val 0x0, 0x0, 0x0, 0x0, 0x0, 0x0⟩ /- QMG_FLUSH_STAT -/,
  ⟨0xD00100, [(16, 0x10)], .val 0x0, 0x80000FFF, 0x0, 0x0, 0x0, 0x0⟩ /- QMG_HWn_CFG -/,
  ⟨0xD00104, [(16, 0x10)], .val 0x0, 0x0, 0x0, 0x0, 0x0, 0x0⟩ /- QMG_HWn_DATA -/,
  ⟨0xD00108, [(16, 0x10)], .val 0x80000000, 0x0, 0x40000000, 0x0, 0x0, 0x0⟩ /- QMG_HWn_STAT -/,
  ⟨0xD00400, [(128, 0x4)], .val 0x0, 0x0, 0x0, 0x0, 0x0, 0x0⟩ /- QMG_DEEP_MAP -/,
  ⟨0xD10000, [(4096, 0x20)], .val 0x40000400, 0xCF07FFFF, 0x0, 0x0, 0x0, 0x0⟩ /- QMG_Qq_CFG -/,
  ⟨0xD10004, [(4096, 0x20)], .val 0xFFFFFFF, 0xFFFFFFF, 0x0, 0x0, 0x0, 0x0⟩ /- QMG_Qq_LIMIT -/,
  ⟨0xD10008, [(4096, 0x20)], .val 0xFFFFFFF, 0xFFFFFFF, 0x0, 0x0, 0x0, 0x0⟩ /- QMG_Qq_HI -/,
  ⟨0xD1000C, [(4096, 0x20)], .val 0x0, 0xFFFFFFF, 0x0, 0x0, 0x0, 0x0⟩ /- QMG_Qq_LO -/,
  ⟨0xD10010, [(4096, 0x20)], .val 0x0, 0x0, 0x0, 0x0, 0x0, 0x0⟩ /- QMG_Qq_DEPTH -/,
  ⟨0xD10014, [(4096, 0x20)], .val 0x0, 0x0, 0x0, 0x0, 0x0, 0x0⟩ /- QMG_Qq_POOLD -/,
  ⟨0xD10018, [(4096, 0x20)], .val 0x0, 0xFFFF, 0x0, 0x0, 0x0, 0x0⟩ /- QMG_Qq_STAT -/,
  ⟨0xD1001C, [(4096, 0x20)], .val 0x0, 0x0, 0x0, 0x0, 0x0, 0x0⟩ /- QMG_Qq_ITEMS -/]

/-- The register table rows of block ARB. -/
def regRowsARB : List RegRow := [
  ⟨0xE00000, [], .val 0x0, 0x0, 0xFFFF, 0x0, 0x0, 0x0⟩ /- ARB_STARVE -/,
  ⟨0xE00004, [], .val 0xFFFF, 0xFFFF, 0x0, 0x0, 0x0, 0x0⟩ /- ARB_STARVE_EN -/,
  ⟨0xE00100, [(16, 0x10)], .table [0x80000000, 0x80000000, 0x80000000, 0x40400, 0x40400, 0x40400, 0x40400, 0x40400, 0x50800, 0x50400, 0x50400, 0x30400, 0x60400, 0x70800, 0x20400, 0x10400], 0x7FF00, 0x0, 0x0, 0x0, 0x0⟩ /- ARB_RQr_CFG -/,
  ⟨0xE00104, [(16, 0x10)], .table [0x40, 0x40, 0x40, 0x400, 0x400, 0x400, 0x400, 0x400, 0x400, 0x400, 0x400, 0x400, 0x400, 0x400, 0x1000, 0x1000], 0xFFFF, 0x0, 0x0, 0x0, 0x0⟩ /- ARB_RQr_STARVE -/,
  ⟨0xE00108, [(16, 0x10)], .val 0x0, 0xFFFF, 0x0, 0x0, 0x0, 0x0⟩ /- ARB_RQr_WMAX -/,
  ⟨0xE0010C, [(16, 0x10)], .val 0x0, 0x0, 0x0, 0x0, 0x0, 0x0⟩ /- ARB_RQr_GRANTS -/,
  ⟨0xE00400, [(16, 0x10)], .val 0x0, 0x0, 0x0, 0x0, 0x0, 0x0⟩ /- ARB_BKb_OWNER -/,
  ⟨0xE00404, [(16, 0x10)], .val 0x0, 0x0, 0x0, 0x0, 0x0, 0x0⟩ /- ARB_BKb_STALE -/,
  ⟨0xE00408, [(16, 0x10)], .val 0x0, 0x0, 0x0, 0x0, 0x0, 0x0⟩ /- ARB_BKb_BUSY -/]

/-- The register table rows of block PRS. -/
def regRowsPRS : List RegRow := [
  ⟨0xF00000, [], .val 0x0, 0x80000000, 0x0, 0x0, 0x0, 0x0⟩ /- PRS_CTRL -/,
  ⟨0xF00100, [(4, 0x20)], .val 0x0, 0x0, 0x0, 0x0, 0x0, 0x0⟩ /- PRS_ENGn_STAT -/,
  ⟨0xF00104, [(4, 0x20)], .val 0x0, 0x0, 0x0, 0x0, 0x0, 0x0⟩ /- PRS_ENGn_IN -/,
  ⟨0xF00108, [(4, 0x20)], .val 0x0, 0x0, 0x0, 0x0, 0x0, 0x0⟩ /- PRS_ENGn_OUT -/,
  ⟨0xF0010C, [(4, 0x20)], .val 0x0, 0x0, 0x0, 0x0, 0x0, 0x0⟩ /- PRS_ENGn_BRQ -/,
  ⟨0xF00110, [(4, 0x20)], .val 0x0, 0xFFFF, 0x0, 0x0, 0x0, 0x0⟩ /- PRS_ENGn_FAIL -/,
  ⟨0xF00200, [(2, 0x20)], .val 0x0, 0xFFFF, 0x0, 0x0, 0x0, 0x0⟩ /- PRS_INFn_STAT -/,
  ⟨0xF00204, [(2, 0x20)], .val 0x0, 0x0, 0x0, 0x0, 0x0, 0x0⟩ /- PRS_INFn_DONE -/,
  ⟨0xF10000, [(4096, 0x8)], .val 0x7D004066, 0xFFFFFFFF, 0x0, 0x0, 0x0, 0x0⟩ /- PRS_Qq_CFG -/,
  ⟨0xF10004, [(4096, 0x8)], .val 0x0, 0x8FFF8FFF, 0x0, 0x0, 0x0, 0x0⟩ /- PRS_Qq_OUT -/]

/-- The register table rows of block CRD. -/
def regRowsCRD : List RegRow := [
  ⟨0x1000000, [], .val 0x0, 0x80000000, 0x0, 0x0, 0x0, 0x0⟩ /- CRD_CTRL -/,
  ⟨0x1000004, [], .val 0x0, 0x0, 0x0, 0x0, 0x0, 0x0⟩ /- CRD_STAT -/,
  ⟨0x1000008, [], .val 0x7D00, 0xFFFF, 0x0, 0x0, 0x0, 0x0⟩ /- CRD_EPOCH_CFG -/,
  ⟨0x100000C, [], .val 0x2000020, 0xFFFFFFFF, 0x0, 0x0, 0x0, 0x0⟩ /- CRD_UNIT_CFG -/,
  ⟨0x1000010, [], .val 0x3E8, 0xFFFF, 0x0, 0x0, 0x0, 0x0⟩ /- CRD_CMD_TO -/,
  ⟨0x1000014, [], .val 0x0, 0x0, 0x0, 0x0, 0x0, 0x0⟩ /- CRD_INFLIGHT -/,
  ⟨0x1000018, [], .val 0x0, 0x80000FFF, 0x0, 0x0, 0x0, 0x0⟩ /- CRD_GAPQ -/,
  ⟨0x100001C, [], .val 0x0, 0x80000FFF, 0x0, 0x0, 0x0, 0x0⟩ /- CRD_EVQ -/,
  ⟨0x1000020, [], .val 0x0, 0xFFFFFFFF, 0x0, 0x0, 0x0, 0x0⟩ /- CRD_ERR -/,
  ⟨0x1000030, [(4, 0x4)], .val 0x0, 0x0, 0x0, 0x0, 0x0, 0x0⟩ /- CRD_Cn_STAT -/,
  ⟨0x1000040, [], .val 0x0, 0xFFFFFFFF, 0x0, 0x0, 0x0, 0x0⟩ /- CRD_EXT_NS -/,
  ⟨0x1000044, [], .val 0x0, 0xFFFFFFFF, 0x0, 0x0, 0x0, 0x0⟩ /- CRD_EXT_LBA_LO -/,
  ⟨0x1000048, [], .val 0x0, 0xFFFFFFFF, 0x0, 0x0, 0x0, 0x0⟩ /- CRD_EXT_LBA_HI -/,
  ⟨0x100004C, [], .val 0x0, 0x1FFFFFFF, 0x0, 0x0, 0x0, 0x0⟩ /- CRD_EXT_LEN -/,
  ⟨0x1000050, [], .val 0x0, 0x0, 0x0, 0x0, 0x0, 0x0⟩ /- CRD_EXT_CMD -/,
  ⟨0x1000054, [], .val 0x0, 0x0, 0x0, 0x0, 0x0, 0x0⟩ /- CRD_EXT_RES -/,
  ⟨0x1000060, [], .val 0x0, 0x0, 0x0, 0x0, 0x0, 0x0⟩ /- CRD_PIN_CMD -/,
  ⟨0x1000064, [], .val 0x0, 0x0, 0x0, 0x0, 0x0, 0x0⟩ /- CRD_PIN_USED -/,
  ⟨0x1000080, [], .val 0x0, 0xFFFFFFFF, 0x0, 0x0, 0x0, 0x0⟩ /- CRD_JOB_LOC_LO -/,
  ⟨0x1000084, [], .val 0x0, 0xFFFFFFFF, 0x0, 0x0, 0x0, 0x0⟩ /- CRD_JOB_LOC_HI -/,
  ⟨0x1000088, [], .val 0x0, 0x7FFFF, 0x0, 0x0, 0x0, 0x0⟩ /- CRD_JOB_LEN -/,
  ⟨0x100008C, [], .val 0x0, 0x0, 0x0, 0x0, 0x0, 0x0⟩ /- CRD_JOB_CTRL -/,
  ⟨0x1000090, [], .val 0x0, 0x0, 0x0, 0x0, 0x0, 0x0⟩ /- CRD_JOB_RES -/,
  ⟨0x1010000, [(8192, 0x10)], .val 0x0, 0x0, 0x0, 0x0, 0x0, 0x0⟩ /- CRD_Xx_STAT -/,
  ⟨0x1010004, [(8192, 0x10)], .val 0x0, 0x0, 0x0, 0x0, 0x0, 0x0⟩ /- CRD_Xx_LBA_LO -/,
  ⟨0x1010008, [(8192, 0x10)], .val 0x0, 0x0, 0x0, 0x0, 0x0, 0x0⟩ /- CRD_Xx_LBA_HI -/,
  ⟨0x101000C, [(8192, 0x10)], .val 0x0, 0x0, 0x0, 0x0, 0x0, 0x0⟩ /- CRD_Xx_LEN -/,
  ⟨0x1030000, [(256, 0x20)], .val 0x0, 0x0, 0x0, 0x0, 0x0, 0x0⟩ /- CRD_PINp_Q -/,
  ⟨0x1030004, [(256, 0x20)], .val 0x0, 0x0, 0x0, 0x0, 0x0, 0x0⟩ /- CRD_PINp_FIRST_LO -/,
  ⟨0x1030008, [(256, 0x20)], .val 0x0, 0x0, 0x0, 0x0, 0x0, 0x0⟩ /- CRD_PINp_FIRST_HI -/,
  ⟨0x103000C, [(256, 0x20)], .val 0x0, 0x0, 0x0, 0x0, 0x0, 0x0⟩ /- CRD_PINp_LAST_LO -/,
  ⟨0x1030010, [(256, 0x20)], .val 0x0, 0x0, 0x0, 0x0, 0x0, 0x0⟩ /- CRD_PINp_LAST_HI -/]

/-- The register table rows of block UPL. -/
def regRowsUPL : List RegRow := [
  ⟨0x1100000, [], .val 0x5DC, 0xC0003FFF, 0x0, 0x0, 0x0, 0x0⟩ /- UPL_CTRL -/,
  ⟨0x1100004, [(2, 0x4)], .val 0x40000000, 0xC0000000, 0x0, 0x0, 0x0, 0x0⟩ /- UPL_Un_CFG -/,
  ⟨0x110000C, [(2, 0x4)], .val 0x0, 0x0, 0x0, 0x0, 0x0, 0x0⟩ /- UPL_Un_STAT -/,
  ⟨0x1100014, [], .factory 0x0 0xFFFFFFFF, 0x0, 0x0, 0x0, 0xFFFFFFFF, 0x0⟩ /- UPL_MAC_LO -/,
  ⟨0x1100018, [], .factory 0x0 0xFFFF, 0x0, 0x0, 0x0, 0xFFFF, 0x0⟩ /- UPL_MAC_HI -/,
  ⟨0x110001C, [], .val 0x0, 0xFFFFFFFF, 0x0, 0x0, 0x0, 0x0⟩ /- UPL_IP4 -/,
  ⟨0x1100020, [(4, 0x4)], .val 0x0, 0xFFFFFFFF, 0x0, 0x0, 0x0, 0x0⟩ /- UPL_IP6 -/,
  ⟨0x1100030, [], .val 0x1E82, 0xFFFF, 0x0, 0x0, 0x0, 0x0⟩ /- UPL_HCP_PORT -/,
  ⟨0x1100034, [], .val 0x0, 0xFFFFFFFF, 0x0, 0x0, 0x0, 0x0⟩ /- UPL_KND_IP4 -/,
  ⟨0x1100038, [(4, 0x4)], .val 0x0, 0xFFFFFFFF, 0x0, 0x0, 0x0, 0x0⟩ /- UPL_KND_IP6 -/,
  ⟨0x1100048, [], .val 0x1E83, 0xFFFF, 0x0, 0x0, 0x0, 0x0⟩ /- UPL_KND_PORT -/,
  ⟨0x110004C, [], .val 0x0, 0x80000FFF, 0x0, 0x0, 0x0, 0x0⟩ /- UPL_GAPQ -/,
  ⟨0x1100050, [], .val 0x0, 0x80000FFF, 0x0, 0x0, 0x0, 0x0⟩ /- UPL_EVQ -/,
  ⟨0x1100054, [], .val 0x0, 0x80000FFF, 0x0, 0x0, 0x0, 0x0⟩ /- UPL_LRPTQ -/,
  ⟨0x1100058, [], .val 0x0, 0x0, 0x0, 0x0, 0x0, 0x0⟩ /- UPL_HEALTH -/,
  ⟨0x110005C, [], .val 0x0, 0xFFFFFFFF, 0x0, 0x0, 0x0, 0x0⟩ /- UPL_PRP_CNT -/,
  ⟨0x1100060, [], .val 0x0, 0xFFF, 0x0, 0x0, 0x0, 0x0⟩ /- UPL_LCH_Q -/,
  ⟨0x1100064, [], .val 0x0, 0xFFFFFFFF, 0x0, 0x0, 0x0, 0x0⟩ /- UPL_LCH_SEC_LO -/,
  ⟨0x1100068, [], .val 0x0, 0xFFFF, 0x0, 0x0, 0x0, 0x0⟩ /- UPL_LCH_SEC_HI -/,
  ⟨0x110006C, [], .val 0x0, 0x3FFFFFFF, 0x0, 0x0, 0x0, 0x0⟩ /- UPL_LCH_NS -/,
  ⟨0x1100070, [], .val 0x0, 0x0, 0x0, 0x0, 0x0, 0x0⟩ /- UPL_LCH_CMD -/,
  ⟨0x1100074, [], .val 0x0, 0x0, 0x0, 0x0, 0x0, 0x0⟩ /- UPL_LCH_RESULT -/,
  ⟨0x1100078, [], .val 0x0, 0xFFFFFFFF, 0x0, 0x0, 0x0, 0x0⟩ /- UPL_HCP_CNT -/,
  ⟨0x1101000, [(16, 0x20)], .val 0x0, 0xFFFFFFFF, 0x0, 0x0, 0x0, 0x0⟩ /- UPL_Dd_MAC_LO -/,
  ⟨0x1101004, [(16, 0x20)], .val 0x0, 0xFFFF, 0x0, 0x0, 0x0, 0x0⟩ /- UPL_Dd_MAC_HI -/,
  ⟨0x1101008, [(16, 0x20), (4, 0x4)], .val 0x0, 0xFFFFFFFF, 0x0, 0x0, 0x0, 0x0⟩ /- UPL_Dd_IP -/,
  ⟨0x1101018, [(16, 0x20)], .val 0x0, 0xFFFF, 0x0, 0x0, 0x0, 0x0⟩ /- UPL_Dd_PORT -/,
  ⟨0x1102000, [(256, 0x4)], .val 0x0, 0xFF000FFF, 0x0, 0x0, 0x0, 0x0⟩ /- UPL_STREAM -/]

/-- The register table rows of block GPIO. -/
def regRowsGPIO : List RegRow := [
  ⟨0x1200000, [], .val 0x0, 0x0, 0x0, 0x0, 0x0, 0x0⟩ /- GPIO_IN -/,
  ⟨0x1200004, [], .val 0x0, 0xFFFFFFFF, 0x0, 0x0, 0x0, 0x0⟩ /- GPIO_OUT -/,
  ⟨0x1200008, [], .val 0x0, 0x0, 0x0, 0xFFFFFFFF, 0x0, 0x0⟩ /- GPIO_OUT_SET -/,
  ⟨0x120000C, [], .val 0x0, 0x0, 0xFFFFFFFF, 0x0, 0x0, 0x0⟩ /- GPIO_OUT_CLR -/,
  ⟨0x1200010, [], .val 0xFFFFFFFF, 0x0, 0x0, 0x0, 0x0, 0x0⟩ /- GPIO_SAFE_ACT -/,
  ⟨0x1200100, [(2, 0x20)], .val 0x0, 0x80000000, 0x0, 0x0, 0x0, 0x0⟩ /- SPIM_m_CTRL -/,
  ⟨0x1200104, [(2, 0x20)], .val 0x0, 0xFFFF, 0x0, 0x0, 0x0, 0x0⟩ /- SPIM_m_STAT -/,
  ⟨0x1200200, [(32, 0x4)], .val 0x0, 0x70F00, 0x0, 0x0, 0x0, 0x0⟩ /- GPIO_PINn_CFG -/]

/-- The register table rows of block FNC. -/
def regRowsFNC : List RegRow := [
  ⟨0x1300000, [], .val 0x0, 0x0, 0x7F, 0x0, 0x0, 0x0⟩ /- FNC_HIT -/,
  ⟨0x1300100, [(24, 0x4)], .val 0x2710003C, 0x0, 0x0, 0x0, 0x0, 0x3FFF003F⟩ /- FNC_EXd -/,
  ⟨0x1300200, [(19, 0x4)], .table [0x2849, 0x2849, 0x2849, 0x2849, 0x2849, 0x2849, 0x2849, 0x2849, 0x2849, 0x2849, 0x2849, 0x2849, 0x2849, 0x2849, 0x2849, 0x2849, 0x64B6, 0x64B6, 0x2849], 0x0, 0x0, 0x0, 0x0, 0xFFFFFF⟩ /- FNC_TXCAPi -/,
  ⟨0x1300300, [], .val 0x4E20, 0x0, 0x0, 0x0, 0x0, 0x7FFF⟩ /- FNC_RATE -/,
  ⟨0x1300304, [], .val 0xF4240, 0x0, 0x0, 0x0, 0x0, 0x3FFFFFFF⟩ /- FNC_STEP -/,
  ⟨0x1300400, [], .val 0x0, 0x0, 0x0, 0x0, 0x0, 0xFFFFFFFF⟩ /- FNC_GP_LVL -/,
  ⟨0x1300404, [], .val 0xFFFFFFFF, 0x0, 0x0, 0x0, 0x0, 0xFFFFFFFF⟩ /- FNC_GP_Z -/,
  ⟨0x1301000, [(64, 0x20)], .val 0x0, 0x0, 0x0, 0x0, 0x0, 0x80000000⟩ /- FNC_SRr_CFG -/,
  ⟨0x1301004, [(64, 0x20)], .val 0x0, 0x0, 0x0, 0x0, 0x0, 0xFFFFFFFF⟩ /- FNC_SRr_SN -/,
  ⟨0x1301008, [(64, 0x20)], .val 0x0, 0x0, 0x0, 0x0, 0x0, 0xFFFFFFFF⟩ /- FNC_SRr_NSID -/,
  ⟨0x130100C, [(64, 0x20)], .val 0x0, 0x0, 0x0, 0x0, 0x0, 0xFFFFFFFF⟩ /- FNC_SRr_LBA_LO -/,
  ⟨0x1301010, [(64, 0x20)], .val 0x0, 0x0, 0x0, 0x0, 0x0, 0xFFFFFFFF⟩ /- FNC_SRr_LBA_HI -/,
  ⟨0x1301014, [(64, 0x20)], .val 0x0, 0x0, 0x0, 0x0, 0x0, 0xFFFFFFFF⟩ /- FNC_SRr_LEN_LO -/,
  ⟨0x1301018, [(64, 0x20)], .val 0x0, 0x0, 0x0, 0x0, 0x0, 0xFFFFFFFF⟩ /- FNC_SRr_LEN_HI -/]

/-- The register table rows of block CLK. -/
def regRowsCLK : List RegRow := [
  ⟨0x1400000, [], .val 0x0, 0x0, 0x0, 0x0, 0x0, 0x0⟩ /- CLK_STAT -/,
  ⟨0x1400004, [], .val 0x0, 0x0, 0x0, 0x0, 0x0, 0x0⟩ /- CLK_REF_PPM -/,
  ⟨0x1400008, [], .val 0x1, 0x0, 0xF, 0x0, 0x0, 0x0⟩ /- RST_CAUSE -/,
  ⟨0x140000C, [], .val 0x0, 0x0, 0x0, 0x0, 0x0, 0x0⟩ /- RST_DOM -/,
  ⟨0x1400010, [], .val 0x0, 0x0, 0x0, 0x0, 0x0, 0x0⟩ /- RST_REQ -/,
  ⟨0x1400014, [], .val 0x0, 0xFFFFFFFF, 0x0, 0x0, 0x0, 0x0⟩ /- CLK_XDROP -/]

end Sys2Proof.Machine
end

