-- ==== Sys2Proof/Machine/Regs.lean ====
section
/-!
DEFINITION. The names of the register space: the address of every register of the spec's register
tables, and the place of every field in its register. One line for each row of those tables, taken from
the tables of the chapters named in each heading; array registers take their index.
-/
namespace Sys2Proof.Machine

open Sys2Proof


/-! ### HUB (spec/21_address_map.md) -/

def Reg.HUB_ID : Nat := 0x0
def F.HUB_ID_VENDOR : RegField := ⟨Reg.HUB_ID, 31, 24⟩
def F.HUB_ID_FAMILY : RegField := ⟨Reg.HUB_ID, 23, 16⟩
def F.HUB_ID_MEMBER : RegField := ⟨Reg.HUB_ID, 15, 0⟩
def Reg.HUB_STEP : Nat := 0x4
def F.HUB_STEP_ROMREV : RegField := ⟨Reg.HUB_STEP, 15, 8⟩
def F.HUB_STEP_STEPPING : RegField := ⟨Reg.HUB_STEP, 7, 0⟩
def Reg.HUB_SERIAL : Nat := 0x8
def F.HUB_SERIAL_SERIAL : RegField := ⟨Reg.HUB_SERIAL, 31, 0⟩
def Reg.HUB_CAPS : Nat := 0xC
def F.HUB_CAPS_CLUSTERS : RegField := ⟨Reg.HUB_CAPS, 31, 24⟩
def F.HUB_CAPS_LANES : RegField := ⟨Reg.HUB_CAPS, 23, 16⟩
def F.HUB_CAPS_STORAGE : RegField := ⟨Reg.HUB_CAPS, 15, 15⟩
def F.HUB_CAPS_SLATE : RegField := ⟨Reg.HUB_CAPS, 14, 14⟩
def F.HUB_CAPS_BACKLOG : RegField := ⟨Reg.HUB_CAPS, 13, 13⟩
def F.HUB_CAPS_CHANNELS : RegField := ⟨Reg.HUB_CAPS, 12, 0⟩
def Reg.HUB_SCRATCH : Nat := 0x10
def F.HUB_SCRATCH_SCRATCH : RegField := ⟨Reg.HUB_SCRATCH, 31, 0⟩
def Reg.HUB_INT_CFG : Nat := 0x20
def F.HUB_INT_CFG_OD : RegField := ⟨Reg.HUB_INT_CFG, 31, 31⟩
def F.HUB_INT_CFG_EV_SEV : RegField := ⟨Reg.HUB_INT_CFG, 1, 0⟩
def Reg.HUB_BUS_ERR_ADDR : Nat := 0x30
def F.HUB_BUS_ERR_ADDR_ADDR : RegField := ⟨Reg.HUB_BUS_ERR_ADDR, 31, 0⟩
def Reg.HUB_BUS_ERR_INFO : Nat := 0x34
def F.HUB_BUS_ERR_INFO_WRITE : RegField := ⟨Reg.HUB_BUS_ERR_INFO, 31, 31⟩
def F.HUB_BUS_ERR_INFO_MASTER : RegField := ⟨Reg.HUB_BUS_ERR_INFO, 3, 0⟩
def Reg.HUB_EVQ_STAT : Nat := 0x40
def F.HUB_EVQ_STAT_PEAK : RegField := ⟨Reg.HUB_EVQ_STAT, 31, 16⟩
def F.HUB_EVQ_STAT_DEPTH : RegField := ⟨Reg.HUB_EVQ_STAT, 12, 0⟩
def Reg.HUB_EVQ_OVF : Nat := 0x44
def F.HUB_EVQ_OVF_EPISODES : RegField := ⟨Reg.HUB_EVQ_OVF, 31, 16⟩
def F.HUB_EVQ_OVF_DIRECT : RegField := ⟨Reg.HUB_EVQ_OVF, 15, 0⟩
def Reg.HUB_EVDICT_N : Nat := 0x48
def F.HUB_EVDICT_N_N : RegField := ⟨Reg.HUB_EVDICT_N, 15, 0⟩
def Reg.HUB_INT_RAW : Nat := 0x100
def F.HUB_INT_RAW_CLOCK : RegField := ⟨Reg.HUB_INT_RAW, 23, 23⟩
def F.HUB_INT_RAW_BACKLOG : RegField := ⟨Reg.HUB_INT_RAW, 22, 22⟩
def F.HUB_INT_RAW_EVQ : RegField := ⟨Reg.HUB_INT_RAW, 21, 21⟩
def F.HUB_INT_RAW_STOKER : RegField := ⟨Reg.HUB_INT_RAW, 20, 20⟩
def F.HUB_INT_RAW_CAL : RegField := ⟨Reg.HUB_INT_RAW, 19, 19⟩
def F.HUB_INT_RAW_SWAP : RegField := ⟨Reg.HUB_INT_RAW, 18, 18⟩
def F.HUB_INT_RAW_LOAD : RegField := ⟨Reg.HUB_INT_RAW, 17, 17⟩
def F.HUB_INT_RAW_TILE : RegField := ⟨Reg.HUB_INT_RAW, 16, 16⟩
def F.HUB_INT_RAW_SENSOR : RegField := ⟨Reg.HUB_INT_RAW, 15, 15⟩
def F.HUB_INT_RAW_FENCE : RegField := ⟨Reg.HUB_INT_RAW, 14, 14⟩
def F.HUB_INT_RAW_KILN : RegField := ⟨Reg.HUB_INT_RAW, 13, 13⟩
def F.HUB_INT_RAW_MASK : RegField := ⟨Reg.HUB_INT_RAW, 12, 12⟩
def F.HUB_INT_RAW_FIRE : RegField := ⟨Reg.HUB_INT_RAW, 11, 11⟩
def F.HUB_INT_RAW_PARTNER : RegField := ⟨Reg.HUB_INT_RAW, 10, 10⟩
def F.HUB_INT_RAW_LANE : RegField := ⟨Reg.HUB_INT_RAW, 9, 9⟩
def F.HUB_INT_RAW_STEWARD : RegField := ⟨Reg.HUB_INT_RAW, 8, 8⟩
def F.HUB_INT_RAW_UPLINK : RegField := ⟨Reg.HUB_INT_RAW, 7, 7⟩
def F.HUB_INT_RAW_ARCHIVE : RegField := ⟨Reg.HUB_INT_RAW, 6, 6⟩
def F.HUB_INT_RAW_SLEW : RegField := ⟨Reg.HUB_INT_RAW, 5, 5⟩
def F.HUB_INT_RAW_HOLDOVER : RegField := ⟨Reg.HUB_INT_RAW, 4, 4⟩
def F.HUB_INT_RAW_STARVE : RegField := ⟨Reg.HUB_INT_RAW, 3, 3⟩
def F.HUB_INT_RAW_QDEEP : RegField := ⟨Reg.HUB_INT_RAW, 2, 2⟩
def F.HUB_INT_RAW_GAP : RegField := ⟨Reg.HUB_INT_RAW, 1, 1⟩
def F.HUB_INT_RAW_EVENT : RegField := ⟨Reg.HUB_INT_RAW, 0, 0⟩
def Reg.HUB_INT_EN : Nat := 0x104
def F.HUB_INT_EN_EN : RegField := ⟨Reg.HUB_INT_EN, 31, 0⟩
def Reg.HUB_INT_SUM : Nat := 0x108
def F.HUB_INT_SUM_SUM : RegField := ⟨Reg.HUB_INT_SUM, 31, 0⟩

/-! ### UMB (spec/19_umber.md) -/

def Reg.UMB_STAT : Nat := 0x10000
def F.UMB_STAT_LC : RegField := ⟨Reg.UMB_STAT, 31, 29⟩
def F.UMB_STAT_LOG_READY : RegField := ⟨Reg.UMB_STAT, 28, 28⟩
def F.UMB_STAT_SESSIONS : RegField := ⟨Reg.UMB_STAT, 23, 16⟩
def Reg.UMB_BOOT : Nat := 0x10004
def F.UMB_BOOT_BOOT : RegField := ⟨Reg.UMB_BOOT, 31, 0⟩
def Reg.UMB_LOG_SEQ_LO : Nat := 0x10008
def F.UMB_LOG_SEQ_LO_SEQ : RegField := ⟨Reg.UMB_LOG_SEQ_LO, 31, 0⟩
def Reg.UMB_LOG_SEQ_HI : Nat := 0x1000C
def F.UMB_LOG_SEQ_HI_SEQ : RegField := ⟨Reg.UMB_LOG_SEQ_HI, 31, 0⟩
def Reg.UMB_LOG_LOST : Nat := 0x10010
def F.UMB_LOG_LOST_LOST : RegField := ⟨Reg.UMB_LOG_LOST, 31, 0⟩
def Reg.UMB_VER_U : Nat := 0x10014
def F.UMB_VER_U_VERSION : RegField := ⟨Reg.UMB_VER_U, 31, 0⟩
def Reg.UMB_VER_S : Nat := 0x10018
def F.UMB_VER_S_VERSION : RegField := ⟨Reg.UMB_VER_S, 31, 0⟩
def Reg.UMB_SVN : Nat := 0x1001C
def F.UMB_SVN_U : RegField := ⟨Reg.UMB_SVN, 15, 8⟩
def F.UMB_SVN_S : RegField := ⟨Reg.UMB_SVN, 7, 0⟩
def Reg.UMB_SLOTS : Nat := 0x10020
def F.UMB_SLOTS_UA : RegField := ⟨Reg.UMB_SLOTS, 15, 12⟩
def F.UMB_SLOTS_UB : RegField := ⟨Reg.UMB_SLOTS, 11, 8⟩
def F.UMB_SLOTS_SA : RegField := ⟨Reg.UMB_SLOTS, 7, 4⟩
def F.UMB_SLOTS_SB : RegField := ⟨Reg.UMB_SLOTS, 3, 0⟩
def Reg.UMB_SENSs (s : Nat) : Nat := 0x10100 + 0x4 * s
def F.UMB_SENSs_VALUE (s : Nat) : RegField := ⟨Reg.UMB_SENSs s, 15, 0⟩
def Reg.UMB_SENSs_LIM (s : Nat) : Nat := 0x10180 + 0x4 * s
def F.UMB_SENSs_LIM_HI (s : Nat) : RegField := ⟨Reg.UMB_SENSs_LIM s, 31, 16⟩
def F.UMB_SENSs_LIM_LO (s : Nat) : RegField := ⟨Reg.UMB_SENSs_LIM s, 15, 0⟩
def Reg.UMB_MBOX_CTRL : Nat := 0x10200
def F.UMB_MBOX_CTRL_SUBMIT : RegField := ⟨Reg.UMB_MBOX_CTRL, 31, 31⟩
def F.UMB_MBOX_CTRL_LEN : RegField := ⟨Reg.UMB_MBOX_CTRL, 13, 0⟩
def Reg.UMB_MBOX_STAT : Nat := 0x10204
def F.UMB_MBOX_STAT_BUSY : RegField := ⟨Reg.UMB_MBOX_STAT, 31, 31⟩
def F.UMB_MBOX_STAT_DONE : RegField := ⟨Reg.UMB_MBOX_STAT, 30, 30⟩
def F.UMB_MBOX_STAT_OWNER : RegField := ⟨Reg.UMB_MBOX_STAT, 29, 26⟩
def F.UMB_MBOX_STAT_RLEN : RegField := ⟨Reg.UMB_MBOX_STAT, 13, 0⟩
def Reg.UMB_I2Ce_CFG (e : Nat) : Nat := 0x10300 + 0x10 * e
def F.UMB_I2Ce_CFG_EN (e : Nat) : RegField := ⟨Reg.UMB_I2Ce_CFG e, 31, 31⟩
def F.UMB_I2Ce_CFG_SIGNED (e : Nat) : RegField := ⟨Reg.UMB_I2Ce_CFG e, 30, 30⟩
def F.UMB_I2Ce_CFG_LEN2 (e : Nat) : RegField := ⟨Reg.UMB_I2Ce_CFG e, 29, 29⟩
def F.UMB_I2Ce_CFG_ADDR (e : Nat) : RegField := ⟨Reg.UMB_I2Ce_CFG e, 22, 16⟩
def F.UMB_I2Ce_CFG_REG (e : Nat) : RegField := ⟨Reg.UMB_I2Ce_CFG e, 15, 8⟩
def F.UMB_I2Ce_CFG_PERIOD (e : Nat) : RegField := ⟨Reg.UMB_I2Ce_CFG e, 7, 0⟩
def Reg.UMB_I2Ce_VAL (e : Nat) : Nat := 0x10304 + 0x10 * e
def F.UMB_I2Ce_VAL_VALID (e : Nat) : RegField := ⟨Reg.UMB_I2Ce_VAL e, 31, 31⟩
def F.UMB_I2Ce_VAL_VALUE (e : Nat) : RegField := ⟨Reg.UMB_I2Ce_VAL e, 15, 0⟩
def Reg.UMB_I2Ce_LIM (e : Nat) : Nat := 0x10308 + 0x10 * e
def F.UMB_I2Ce_LIM_HI (e : Nat) : RegField := ⟨Reg.UMB_I2Ce_LIM e, 31, 16⟩
def F.UMB_I2Ce_LIM_LO (e : Nat) : RegField := ⟨Reg.UMB_I2Ce_LIM e, 15, 0⟩
def Reg.UMB_DEVPUB (i : Nat) : Nat := 0x10400 + 0x4 * i
def F.UMB_DEVPUB_PUB (i : Nat) : RegField := ⟨Reg.UMB_DEVPUB i, 31, 0⟩

/-! ### STK (spec/21_address_map.md) -/

def Reg.STK_STAT : Nat := 0x20000
def F.STK_STAT_STATE : RegField := ⟨Reg.STK_STAT, 31, 29⟩
def F.STK_STAT_CAUSE : RegField := ⟨Reg.STK_STAT, 23, 16⟩
def F.STK_STAT_RESTARTS : RegField := ⟨Reg.STK_STAT, 15, 0⟩

/-! ### KLN (spec/02_tick.md) -/

def Reg.KLN_TICK_CTRL : Nat := 0x100000
def F.KLN_TICK_CTRL_RUN : RegField := ⟨Reg.KLN_TICK_CTRL, 31, 31⟩
def F.KLN_TICK_CTRL_RATE : RegField := ⟨Reg.KLN_TICK_CTRL, 16, 0⟩
def Reg.KLN_TICK_STATE : Nat := 0x100004
def F.KLN_TICK_STATE_STATE : RegField := ⟨Reg.KLN_TICK_STATE, 1, 0⟩
def Reg.KLN_TICK_CYCLES : Nat := 0x100008
def F.KLN_TICK_CYCLES_CYCLES : RegField := ⟨Reg.KLN_TICK_CYCLES, 19, 0⟩
def Reg.KLN_BUDGET : Nat := 0x10000C
def F.KLN_BUDGET_BUDGET : RegField := ⟨Reg.KLN_BUDGET, 19, 0⟩
def Reg.KLN_TICK_LO : Nat := 0x100010
def F.KLN_TICK_LO_TICK : RegField := ⟨Reg.KLN_TICK_LO, 31, 0⟩
def Reg.KLN_TICK_HI : Nat := 0x100014
def F.KLN_TICK_HI_TICK : RegField := ⟨Reg.KLN_TICK_HI, 31, 0⟩
def Reg.KLN_TICK_CYC : Nat := 0x100018
def F.KLN_TICK_CYC_CYCLE : RegField := ⟨Reg.KLN_TICK_CYC, 19, 0⟩
def Reg.KLN_SCHED_TICK_LO : Nat := 0x100020
def F.KLN_SCHED_TICK_LO_TICK : RegField := ⟨Reg.KLN_SCHED_TICK_LO, 31, 0⟩
def Reg.KLN_SCHED_TICK_HI : Nat := 0x100024
def F.KLN_SCHED_TICK_HI_TICK : RegField := ⟨Reg.KLN_SCHED_TICK_HI, 31, 0⟩
def Reg.KLN_SCHED_ADDR : Nat := 0x100028
def F.KLN_SCHED_ADDR_ADDR : RegField := ⟨Reg.KLN_SCHED_ADDR, 31, 2⟩
def Reg.KLN_SCHED_DATA : Nat := 0x10002C
def F.KLN_SCHED_DATA_DATA : RegField := ⟨Reg.KLN_SCHED_DATA, 31, 0⟩
def Reg.KLN_SCHED_MASK : Nat := 0x100030
def F.KLN_SCHED_MASK_MASK : RegField := ⟨Reg.KLN_SCHED_MASK, 31, 0⟩
def Reg.KLN_SCHED_CMD : Nat := 0x100034
def F.KLN_SCHED_CMD_COMMIT : RegField := ⟨Reg.KLN_SCHED_CMD, 31, 31⟩
def F.KLN_SCHED_CMD_CANCEL : RegField := ⟨Reg.KLN_SCHED_CMD, 30, 30⟩
def F.KLN_SCHED_CMD_LATE_OK : RegField := ⟨Reg.KLN_SCHED_CMD, 29, 29⟩
def Reg.KLN_SCHED_RESULT : Nat := 0x100038
def F.KLN_SCHED_RESULT_FREE : RegField := ⟨Reg.KLN_SCHED_RESULT, 26, 16⟩
def F.KLN_SCHED_RESULT_CODE : RegField := ⟨Reg.KLN_SCHED_RESULT, 7, 0⟩
def Reg.KLN_SCHED_SEQ : Nat := 0x10003C
def F.KLN_SCHED_SEQ_SEQ : RegField := ⟨Reg.KLN_SCHED_SEQ, 31, 0⟩
def Reg.KLN_Hn_USED (n : Nat) : Nat := 0x100100 + 0x10 * n
def F.KLN_Hn_USED_USED (n : Nat) : RegField := ⟨Reg.KLN_Hn_USED n, 19, 0⟩
def Reg.KLN_Hn_PEAK (n : Nat) : Nat := 0x100104 + 0x10 * n
def F.KLN_Hn_PEAK_PEAK (n : Nat) : RegField := ⟨Reg.KLN_Hn_PEAK n, 19, 0⟩
def Reg.KLN_Hn_FAULT (n : Nat) : Nat := 0x100108 + 0x10 * n
def F.KLN_Hn_FAULT_CODE (n : Nat) : RegField := ⟨Reg.KLN_Hn_FAULT n, 31, 24⟩
def F.KLN_Hn_FAULT_COUNT (n : Nat) : RegField := ⟨Reg.KLN_Hn_FAULT n, 23, 16⟩
def F.KLN_Hn_FAULT_PC (n : Nat) : RegField := ⟨Reg.KLN_Hn_FAULT n, 15, 0⟩
def Reg.KLN_Hn_STICKY (n : Nat) : Nat := 0x10010C + 0x10 * n
def F.KLN_Hn_STICKY_CODES (n : Nat) : RegField := ⟨Reg.KLN_Hn_STICKY n, 15, 1⟩
def Reg.KLN_TRAM_ERR : Nat := 0x100140
def F.KLN_TRAM_ERR_DOUBLE : RegField := ⟨Reg.KLN_TRAM_ERR, 31, 16⟩
def F.KLN_TRAM_ERR_SINGLE : RegField := ⟨Reg.KLN_TRAM_ERR, 15, 0⟩
def Reg.KLN_LOAD_CTRL : Nat := 0x100200
def F.KLN_LOAD_CTRL_START : RegField := ⟨Reg.KLN_LOAD_CTRL, 31, 31⟩
def F.KLN_LOAD_CTRL_ABORT : RegField := ⟨Reg.KLN_LOAD_CTRL, 30, 30⟩
def F.KLN_LOAD_CTRL_BANK : RegField := ⟨Reg.KLN_LOAD_CTRL, 0, 0⟩
def Reg.KLN_LOAD_DATA : Nat := 0x100204
def F.KLN_LOAD_DATA_DATA : RegField := ⟨Reg.KLN_LOAD_DATA, 31, 0⟩
def Reg.KLN_LOAD_STAT : Nat := 0x100208
def F.KLN_LOAD_STAT_OWNER : RegField := ⟨Reg.KLN_LOAD_STAT, 31, 28⟩
def F.KLN_LOAD_STAT_PHASE : RegField := ⟨Reg.KLN_LOAD_STAT, 27, 24⟩
def F.KLN_LOAD_STAT_CODE : RegField := ⟨Reg.KLN_LOAD_STAT, 23, 16⟩
def Reg.KLN_LOAD_DETAIL : Nat := 0x10020C
def F.KLN_LOAD_DETAIL_DETAIL : RegField := ⟨Reg.KLN_LOAD_DETAIL, 31, 0⟩
def Reg.KLN_BANK_STAT : Nat := 0x100210
def F.KLN_BANK_STAT_ACTIVE_VALID : RegField := ⟨Reg.KLN_BANK_STAT, 31, 31⟩
def F.KLN_BANK_STAT_ACTIVE : RegField := ⟨Reg.KLN_BANK_STAT, 24, 24⟩
def F.KLN_BANK_STAT_ENV_FIT : RegField := ⟨Reg.KLN_BANK_STAT, 8, 8⟩
def F.KLN_BANK_STAT_B1_STATE : RegField := ⟨Reg.KLN_BANK_STAT, 7, 4⟩
def F.KLN_BANK_STAT_B0_STATE : RegField := ⟨Reg.KLN_BANK_STAT, 3, 0⟩
def Reg.KLN_SWAP : Nat := 0x100214
def F.KLN_SWAP_REQ : RegField := ⟨Reg.KLN_SWAP, 31, 31⟩
def F.KLN_SWAP_BANK : RegField := ⟨Reg.KLN_SWAP, 0, 0⟩
def Reg.KLN_SWAP_STAT : Nat := 0x100218
def F.KLN_SWAP_STAT_TAKEN : RegField := ⟨Reg.KLN_SWAP_STAT, 31, 16⟩
def F.KLN_SWAP_STAT_REFUSED : RegField := ⟨Reg.KLN_SWAP_STAT, 15, 8⟩
def F.KLN_SWAP_STAT_REASON : RegField := ⟨Reg.KLN_SWAP_STAT, 3, 0⟩
def Reg.KLN_SWAP_TICK_LO : Nat := 0x10021C
def F.KLN_SWAP_TICK_LO_TICK : RegField := ⟨Reg.KLN_SWAP_TICK_LO, 31, 0⟩
def Reg.KLN_SWAP_TICK_HI : Nat := 0x100220
def F.KLN_SWAP_TICK_HI_TICK : RegField := ⟨Reg.KLN_SWAP_TICK_HI, 31, 0⟩
def Reg.KLN_Bb_ID (b : Nat) : Nat := 0x100240 + 0x40 * b
def F.KLN_Bb_ID_BUILD_ID (b : Nat) : RegField := ⟨Reg.KLN_Bb_ID b, 31, 0⟩
def Reg.KLN_Bb_RATE (b : Nat) : Nat := 0x100244 + 0x40 * b
def F.KLN_Bb_RATE_RATE (b : Nat) : RegField := ⟨Reg.KLN_Bb_RATE b, 16, 0⟩
def Reg.KLN_Bb_DECLn (b n : Nat) : Nat := 0x100250 + 0x40 * b + 0x4 * n
def F.KLN_Bb_DECLn_DECL (b n : Nat) : RegField := ⟨Reg.KLN_Bb_DECLn b n, 19, 0⟩
def Reg.KLN_Bb_COMPn (b n : Nat) : Nat := 0x100260 + 0x40 * b + 0x4 * n
def F.KLN_Bb_COMPn_COMP (b n : Nat) : RegField := ⟨Reg.KLN_Bb_COMPn b n, 19, 0⟩

/-! ### AFE (spec/05_front_end.md) -/

def Reg.AFE_CH_CFG (c : Nat) : Nat := 0x400000 + 0x10000 * (c/24) + 0x40 * (c%24)
def F.AFE_CH_CFG_AAF (c : Nat) : RegField := ⟨Reg.AFE_CH_CFG c, 19, 18⟩
def F.AFE_CH_CFG_OPEN_DET (c : Nat) : RegField := ⟨Reg.AFE_CH_CFG c, 17, 17⟩
def F.AFE_CH_CFG_CODED (c : Nat) : RegField := ⟨Reg.AFE_CH_CFG c, 15, 15⟩
def F.AFE_CH_CFG_BSUB (c : Nat) : RegField := ⟨Reg.AFE_CH_CFG c, 13, 13⟩
def F.AFE_CH_CFG_TIA (c : Nat) : RegField := ⟨Reg.AFE_CH_CFG c, 10, 8⟩
def F.AFE_CH_CFG_VRANGE (c : Nat) : RegField := ⟨Reg.AFE_CH_CFG c, 5, 4⟩
def F.AFE_CH_CFG_MODE (c : Nat) : RegField := ⟨Reg.AFE_CH_CFG c, 2, 0⟩
def Reg.AFE_CH_CM (c : Nat) : Nat := 0x400004 + 0x10000 * (c/24) + 0x40 * (c%24)
def F.AFE_CH_CM_CM_HI (c : Nat) : RegField := ⟨Reg.AFE_CH_CM c, 31, 24⟩
def F.AFE_CH_CM_CM_LO (c : Nat) : RegField := ⟨Reg.AFE_CH_CM c, 23, 16⟩
def F.AFE_CH_CM_DEB_ON (c : Nat) : RegField := ⟨Reg.AFE_CH_CM c, 15, 8⟩
def F.AFE_CH_CM_DEB_OFF (c : Nat) : RegField := ⟨Reg.AFE_CH_CM c, 7, 0⟩
def Reg.AFE_CH_LIN (c : Nat) : Nat := 0x400008 + 0x10000 * (c/24) + 0x40 * (c%24)
def F.AFE_CH_LIN_CJM (c : Nat) : RegField := ⟨Reg.AFE_CH_LIN c, 31, 30⟩
def F.AFE_CH_LIN_CJC_CH (c : Nat) : RegField := ⟨Reg.AFE_CH_LIN c, 22, 16⟩
def F.AFE_CH_LIN_CURVE (c : Nat) : RegField := ⟨Reg.AFE_CH_LIN c, 7, 0⟩
def Reg.AFE_CH_RREF (c : Nat) : Nat := 0x40000C + 0x10000 * (c/24) + 0x40 * (c%24)
def F.AFE_CH_RREF_RREF (c : Nat) : RegField := ⟨Reg.AFE_CH_RREF c, 31, 0⟩
def Reg.AFE_CH_CJC (c : Nat) : Nat := 0x400010 + 0x10000 * (c/24) + 0x40 * (c%24)
def F.AFE_CH_CJC_TCJ (c : Nat) : RegField := ⟨Reg.AFE_CH_CJC c, 23, 0⟩
def Reg.AFE_CH_AE (c : Nat) : Nat := 0x400014 + 0x10000 * (c/24) + 0x40 * (c%24)
def F.AFE_CH_AE_CMP_EN (c : Nat) : RegField := ⟨Reg.AFE_CH_AE c, 31, 31⟩
def F.AFE_CH_AE_POL (c : Nat) : RegField := ⟨Reg.AFE_CH_AE c, 30, 29⟩
def F.AFE_CH_AE_HPF (c : Nat) : RegField := ⟨Reg.AFE_CH_AE c, 28, 27⟩
def F.AFE_CH_AE_LOCKOUT (c : Nat) : RegField := ⟨Reg.AFE_CH_AE c, 26, 16⟩
def F.AFE_CH_AE_HYST (c : Nat) : RegField := ⟨Reg.AFE_CH_AE c, 15, 10⟩
def F.AFE_CH_AE_THR (c : Nat) : RegField := ⟨Reg.AFE_CH_AE c, 9, 0⟩
def Reg.AFE_CH_CODE (c : Nat) : Nat := 0x400018 + 0x10000 * (c/24) + 0x40 * (c%24)
def F.AFE_CH_CODE_CODE_TICKS (c : Nat) : RegField := ⟨Reg.AFE_CH_CODE c, 15, 0⟩
def Reg.AFE_CH_SENSE (c : Nat) : Nat := 0x40001C + 0x10000 * (c/24) + 0x40 * (c%24)
def F.AFE_CH_SENSE_SENSE (c : Nat) : RegField := ⟨Reg.AFE_CH_SENSE c, 23, 0⟩
def Reg.AFE_CH_STAT (c : Nat) : Nat := 0x400020 + 0x10000 * (c/24) + 0x40 * (c%24)
def F.AFE_CH_STAT_CMF (c : Nat) : RegField := ⟨Reg.AFE_CH_STAT c, 31, 31⟩
def F.AFE_CH_STAT_CMCLASS (c : Nat) : RegField := ⟨Reg.AFE_CH_STAT c, 30, 29⟩
def F.AFE_CH_STAT_OVL_NOW (c : Nat) : RegField := ⟨Reg.AFE_CH_STAT c, 28, 28⟩
def F.AFE_CH_STAT_SENSE_LOW (c : Nat) : RegField := ⟨Reg.AFE_CH_STAT c, 27, 27⟩
def F.AFE_CH_STAT_SETTLING (c : Nat) : RegField := ⟨Reg.AFE_CH_STAT c, 26, 26⟩
def F.AFE_CH_STAT_CMCOUNT (c : Nat) : RegField := ⟨Reg.AFE_CH_STAT c, 23, 16⟩
def F.AFE_CH_STAT_EXCL (c : Nat) : RegField := ⟨Reg.AFE_CH_STAT c, 7, 0⟩
def Reg.AFE_EX_CTRL (d : Nat) : Nat := 0x400800 + 0x10000 * (d/6) + 0x10 * (d%6)
def F.AFE_EX_CTRL_EN (d : Nat) : RegField := ⟨Reg.AFE_EX_CTRL d, 31, 31⟩
def F.AFE_EX_CTRL_SINGLE (d : Nat) : RegField := ⟨Reg.AFE_EX_CTRL d, 30, 30⟩
def F.AFE_EX_CTRL_REMOTE (d : Nat) : RegField := ⟨Reg.AFE_EX_CTRL d, 29, 29⟩
def F.AFE_EX_CTRL_REG_CH (d : Nat) : RegField := ⟨Reg.AFE_EX_CTRL d, 28, 27⟩
def F.AFE_EX_CTRL_VSET (d : Nat) : RegField := ⟨Reg.AFE_EX_CTRL d, 13, 0⟩
def Reg.AFE_EX_STAT (d : Nat) : Nat := 0x400804 + 0x10000 * (d/6) + 0x10 * (d%6)
def F.AFE_EX_STAT_LIMIT (d : Nat) : RegField := ⟨Reg.AFE_EX_STAT d, 31, 31⟩
def F.AFE_EX_STAT_CLAMP (d : Nat) : RegField := ⟨Reg.AFE_EX_STAT d, 30, 30⟩
def F.AFE_EX_STAT_COMPLY (d : Nat) : RegField := ⟨Reg.AFE_EX_STAT d, 29, 29⟩
def F.AFE_EX_STAT_IOUT (d : Nat) : RegField := ⟨Reg.AFE_EX_STAT d, 15, 0⟩
def Reg.AFE_EX_VOUT (d : Nat) : Nat := 0x400808 + 0x10000 * (d/6) + 0x10 * (d%6)
def F.AFE_EX_VOUT_VOUT (d : Nat) : RegField := ⟨Reg.AFE_EX_VOUT d, 13, 0⟩
def Reg.AFE_UT_CTRL : Nat := 0x408000
def F.AFE_UT_CTRL_SEL : RegField := ⟨Reg.AFE_UT_CTRL, 31, 31⟩
def Reg.AFE_UT_N0 : Nat := 0x408004
def F.AFE_UT_N0_N : RegField := ⟨Reg.AFE_UT_N0, 10, 0⟩
def Reg.AFE_UT_N1 : Nat := 0x408008
def F.AFE_UT_N1_N : RegField := ⟨Reg.AFE_UT_N1, 10, 0⟩
def Reg.AFE_UT_X0 (i : Nat) : Nat := 0x409000 + 0x8 * i
def F.AFE_UT_X0_X (i : Nat) : RegField := ⟨Reg.AFE_UT_X0 i, 23, 0⟩
def Reg.AFE_UT_Y0 (i : Nat) : Nat := 0x409004 + 0x8 * i
def F.AFE_UT_Y0_Y (i : Nat) : RegField := ⟨Reg.AFE_UT_Y0 i, 23, 0⟩
def Reg.AFE_UT_X1 (i : Nat) : Nat := 0x40B000 + 0x8 * i
def F.AFE_UT_X1_X (i : Nat) : RegField := ⟨Reg.AFE_UT_X1 i, 23, 0⟩
def Reg.AFE_UT_Y1 (i : Nat) : Nat := 0x40B004 + 0x8 * i
def F.AFE_UT_Y1_Y (i : Nat) : RegField := ⟨Reg.AFE_UT_Y1 i, 23, 0⟩

/-! ### CNV (spec/06_converters.md) -/

def Reg.CNV_SCAN_A (n : Nat) : Nat := 0x500000 + 0x400 * n
def F.CNV_SCAN_A_MASK (n : Nat) : RegField := ⟨Reg.CNV_SCAN_A n, 31, 28⟩
def F.CNV_SCAN_A_RATE (n : Nat) : RegField := ⟨Reg.CNV_SCAN_A n, 23, 0⟩
def Reg.CNV_SCAN_B (n : Nat) : Nat := 0x500004 + 0x400 * n
def F.CNV_SCAN_B_MASK (n : Nat) : RegField := ⟨Reg.CNV_SCAN_B n, 31, 28⟩
def F.CNV_SCAN_B_RATE (n : Nat) : RegField := ⟨Reg.CNV_SCAN_B n, 23, 0⟩
def Reg.CNV_ROLE (n : Nat) : Nat := 0x500008 + 0x400 * n
def F.CNV_ROLE_VISIT (n : Nat) : RegField := ⟨Reg.CNV_ROLE n, 31, 31⟩
def F.CNV_ROLE_PHASE (n : Nat) : RegField := ⟨Reg.CNV_ROLE n, 30, 28⟩
def F.CNV_ROLE_S_VALID (n : Nat) : RegField := ⟨Reg.CNV_ROLE n, 7, 7⟩
def F.CNV_ROLE_S_CORE (n : Nat) : RegField := ⟨Reg.CNV_ROLE n, 5, 4⟩
def F.CNV_ROLE_B_CORE (n : Nat) : RegField := ⟨Reg.CNV_ROLE n, 3, 2⟩
def F.CNV_ROLE_A_CORE (n : Nat) : RegField := ⟨Reg.CNV_ROLE n, 1, 0⟩
def Reg.CNV_VISIT (n : Nat) : Nat := 0x50000C + 0x400 * n
def F.CNV_VISIT_REQ (n : Nat) : RegField := ⟨Reg.CNV_VISIT n, 31, 31⟩
def F.CNV_VISIT_SPARE (n : Nat) : RegField := ⟨Reg.CNV_VISIT n, 30, 30⟩
def F.CNV_VISIT_FORCE (n : Nat) : RegField := ⟨Reg.CNV_VISIT n, 29, 29⟩
def F.CNV_VISIT_CANCEL (n : Nat) : RegField := ⟨Reg.CNV_VISIT n, 28, 28⟩
def F.CNV_VISIT_DUTY (n : Nat) : RegField := ⟨Reg.CNV_VISIT n, 0, 0⟩
def Reg.CNV_VISIT_STAT (n : Nat) : Nat := 0x500010 + 0x400 * n
def F.CNV_VISIT_STAT_RESULT (n : Nat) : RegField := ⟨Reg.CNV_VISIT_STAT n, 31, 24⟩
def F.CNV_VISIT_STAT_QUEUED (n : Nat) : RegField := ⟨Reg.CNV_VISIT_STAT n, 17, 16⟩
def F.CNV_VISIT_STAT_FAILS (n : Nat) : RegField := ⟨Reg.CNV_VISIT_STAT n, 15, 8⟩
def F.CNV_VISIT_STAT_COUNT (n : Nat) : RegField := ⟨Reg.CNV_VISIT_STAT n, 7, 0⟩
def Reg.CNV_MATCH_RES (n : Nat) : Nat := 0x500014 + 0x400 * n
def F.CNV_MATCH_RES_CH (n : Nat) : RegField := ⟨Reg.CNV_MATCH_RES n, 31, 24⟩
def F.CNV_MATCH_RES_MEAN (n : Nat) : RegField := ⟨Reg.CNV_MATCH_RES n, 23, 12⟩
def F.CNV_MATCH_RES_RMS (n : Nat) : RegField := ⟨Reg.CNV_MATCH_RES n, 11, 0⟩
def Reg.CNV_Pp_MIS_OFS (n p : Nat) : Nat := 0x500100 + 0x400 * n + 0x40 * p
def F.CNV_Pp_MIS_OFS_OFS (n p : Nat) : RegField := ⟨Reg.CNV_Pp_MIS_OFS n p, 15, 0⟩
def Reg.CNV_Pp_MIS_GAIN (n p : Nat) : Nat := 0x500104 + 0x400 * n + 0x40 * p
def F.CNV_Pp_MIS_GAIN_GAIN (n p : Nat) : RegField := ⟨Reg.CNV_Pp_MIS_GAIN n p, 15, 0⟩
def Reg.CNV_Pp_MIS_SKEW (n p : Nat) : Nat := 0x500108 + 0x400 * n + 0x40 * p
def F.CNV_Pp_MIS_SKEW_SKEW (n p : Nat) : RegField := ⟨Reg.CNV_Pp_MIS_SKEW n p, 15, 0⟩
def Reg.CNV_Pp_EST (n p : Nat) : Nat := 0x50010C + 0x400 * n + 0x40 * p
def F.CNV_Pp_EST_EN (n p : Nat) : RegField := ⟨Reg.CNV_Pp_EST n p, 31, 31⟩
def F.CNV_Pp_EST_RUN (n p : Nat) : RegField := ⟨Reg.CNV_Pp_EST n p, 30, 30⟩
def F.CNV_Pp_EST_FROZEN (n p : Nat) : RegField := ⟨Reg.CNV_Pp_EST n p, 29, 29⟩
def F.CNV_Pp_EST_BLOCKS (n p : Nat) : RegField := ⟨Reg.CNV_Pp_EST n p, 15, 0⟩
def Reg.CNV_Pp_RUN_LO (n p : Nat) : Nat := 0x500110 + 0x400 * n + 0x40 * p
def F.CNV_Pp_RUN_LO_TICK (n p : Nat) : RegField := ⟨Reg.CNV_Pp_RUN_LO n p, 31, 0⟩
def Reg.CNV_Pp_RUN_HI (n p : Nat) : Nat := 0x500114 + 0x400 * n + 0x40 * p
def F.CNV_Pp_RUN_HI_TICK (n p : Nat) : RegField := ⟨Reg.CNV_Pp_RUN_HI n p, 31, 0⟩
def Reg.CNV_Pp_RUN_TEMP (n p : Nat) : Nat := 0x500118 + 0x400 * n + 0x40 * p
def F.CNV_Pp_RUN_TEMP_TEMP (n p : Nat) : RegField := ⟨Reg.CNV_Pp_RUN_TEMP n p, 15, 0⟩
def Reg.CNV_Pp_STATE (n p : Nat) : Nat := 0x50011C + 0x400 * n + 0x40 * p
def F.CNV_Pp_STATE_REFUSALS (n p : Nat) : RegField := ⟨Reg.CNV_Pp_STATE n p, 15, 8⟩
def F.CNV_Pp_STATE_STATE (n p : Nat) : RegField := ⟨Reg.CNV_Pp_STATE n p, 2, 0⟩
def Reg.CNV_ROT_CTRL : Nat := 0x503000
def F.CNV_ROT_CTRL_AUTO : RegField := ⟨Reg.CNV_ROT_CTRL, 31, 31⟩
def F.CNV_ROT_CTRL_CAL_DT : RegField := ⟨Reg.CNV_ROT_CTRL, 23, 16⟩
def F.CNV_ROT_CTRL_INTERVAL : RegField := ⟨Reg.CNV_ROT_CTRL, 15, 0⟩
def Reg.CNV_MATCH_CFG : Nat := 0x503004
def F.CNV_MATCH_CFG_PAIRS : RegField := ⟨Reg.CNV_MATCH_CFG, 31, 24⟩
def F.CNV_MATCH_CFG_RMS : RegField := ⟨Reg.CNV_MATCH_CFG, 23, 12⟩
def F.CNV_MATCH_CFG_MEAN : RegField := ⟨Reg.CNV_MATCH_CFG, 11, 0⟩
def Reg.CNV_SHADOW_MAX : Nat := 0x503008
def F.CNV_SHADOW_MAX_TICKS : RegField := ⟨Reg.CNV_SHADOW_MAX, 15, 0⟩

/-! ### CAL (spec/07_calibration.md) -/

def Reg.CAL_REF_VFS (t : Nat) : Nat := 0x600000 + 0x20 * t
def F.CAL_REF_VFS_VFS (t : Nat) : RegField := ⟨Reg.CAL_REF_VFS t, 21, 0⟩
def Reg.CAL_REF_VMID (t : Nat) : Nat := 0x600004 + 0x20 * t
def F.CAL_REF_VMID_VMID (t : Nat) : RegField := ⟨Reg.CAL_REF_VMID t, 21, 0⟩
def Reg.CAL_REF_TAG (t : Nat) : Nat := 0x600008 + 0x20 * t
def F.CAL_REF_TAG_TAG (t : Nat) : RegField := ⟨Reg.CAL_REF_TAG t, 31, 0⟩
def Reg.CAL_REF_STAT (t : Nat) : Nat := 0x60000C + 0x20 * t
def F.CAL_REF_STAT_REF_OK (t : Nat) : RegField := ⟨Reg.CAL_REF_STAT t, 31, 31⟩
def F.CAL_REF_STAT_MEAS_VFS (t : Nat) : RegField := ⟨Reg.CAL_REF_STAT t, 21, 0⟩
def Reg.CAL_CORE_WIN0 : Nat := 0x600100
def F.CAL_CORE_WIN0_OFS_MAX : RegField := ⟨Reg.CAL_CORE_WIN0, 31, 16⟩
def F.CAL_CORE_WIN0_GAIN_MAX : RegField := ⟨Reg.CAL_CORE_WIN0, 15, 0⟩
def Reg.CAL_CORE_WIN1 : Nat := 0x600104
def F.CAL_CORE_WIN1_ZERO_MAX : RegField := ⟨Reg.CAL_CORE_WIN1, 31, 24⟩
def F.CAL_CORE_WIN1_LIN_MAX : RegField := ⟨Reg.CAL_CORE_WIN1, 23, 16⟩
def F.CAL_CORE_WIN1_NOISE_MAX : RegField := ⟨Reg.CAL_CORE_WIN1, 15, 8⟩
def Reg.CAL_SYS_CMD : Nat := 0x600200
def F.CAL_SYS_CMD_START_ZERO : RegField := ⟨Reg.CAL_SYS_CMD, 31, 31⟩
def F.CAL_SYS_CMD_START_FULL : RegField := ⟨Reg.CAL_SYS_CMD, 30, 30⟩
def F.CAL_SYS_CMD_FINISH : RegField := ⟨Reg.CAL_SYS_CMD, 29, 29⟩
def F.CAL_SYS_CMD_ABORT : RegField := ⟨Reg.CAL_SYS_CMD, 28, 28⟩
def Reg.CAL_SYS_CFG : Nat := 0x600204
def F.CAL_SYS_CFG_SPAN : RegField := ⟨Reg.CAL_SYS_CFG, 31, 31⟩
def F.CAL_SYS_CFG_SETTLE : RegField := ⟨Reg.CAL_SYS_CFG, 30, 16⟩
def F.CAL_SYS_CFG_AVG : RegField := ⟨Reg.CAL_SYS_CFG, 15, 0⟩
def Reg.CAL_SYS_STAT : Nat := 0x600208
def F.CAL_SYS_STAT_PHASE : RegField := ⟨Reg.CAL_SYS_STAT, 31, 29⟩
def F.CAL_SYS_STAT_ARMED : RegField := ⟨Reg.CAL_SYS_STAT, 25, 13⟩
def F.CAL_SYS_STAT_PASSED : RegField := ⟨Reg.CAL_SYS_STAT, 12, 0⟩
def Reg.CAL_SYS_TIMEOUT : Nat := 0x60020C
def F.CAL_SYS_TIMEOUT_SEC : RegField := ⟨Reg.CAL_SYS_TIMEOUT, 15, 0⟩
def Reg.CAL_SYS_CERT (i : Nat) : Nat := 0x600210 + 0x4 * i
def F.CAL_SYS_CERT_CERT (i : Nat) : RegField := ⟨Reg.CAL_SYS_CERT i, 31, 0⟩
def Reg.CAL_SLEW : Nat := 0x600220
def F.CAL_SLEW_TICKS : RegField := ⟨Reg.CAL_SLEW, 15, 0⟩
def Reg.CAL_CORE_OFS (q : Nat) : Nat := 0x601000 + 0x20 * q
def F.CAL_CORE_OFS_OFS (q : Nat) : RegField := ⟨Reg.CAL_CORE_OFS q, 23, 0⟩
def Reg.CAL_CORE_GAIN (q : Nat) : Nat := 0x601004 + 0x20 * q
def F.CAL_CORE_GAIN_GAIN (q : Nat) : RegField := ⟨Reg.CAL_CORE_GAIN q, 23, 0⟩
def Reg.CAL_CORE_TAG (q : Nat) : Nat := 0x601008 + 0x20 * q
def F.CAL_CORE_TAG_TAG (q : Nat) : RegField := ⟨Reg.CAL_CORE_TAG q, 31, 0⟩
def Reg.CAL_CORE_RES (q : Nat) : Nat := 0x60100C + 0x20 * q
def F.CAL_CORE_RES_CODE (q : Nat) : RegField := ⟨Reg.CAL_CORE_RES q, 31, 24⟩
def F.CAL_CORE_RES_SRC (q : Nat) : RegField := ⟨Reg.CAL_CORE_RES q, 23, 23⟩
def F.CAL_CORE_RES_LIN (q : Nat) : RegField := ⟨Reg.CAL_CORE_RES q, 15, 0⟩
def Reg.CAL_CH_CTRL (c : Nat) : Nat := 0x610000 + 0x80 * c
def F.CAL_CH_CTRL_ARM (c : Nat) : RegField := ⟨Reg.CAL_CH_CTRL c, 31, 31⟩
def F.CAL_CH_CTRL_LOAD (c : Nat) : RegField := ⟨Reg.CAL_CH_CTRL c, 30, 30⟩
def F.CAL_CH_CTRL_MATCH (c : Nat) : RegField := ⟨Reg.CAL_CH_CTRL c, 29, 29⟩
def F.CAL_CH_CTRL_REASON (c : Nat) : RegField := ⟨Reg.CAL_CH_CTRL c, 23, 16⟩
def F.CAL_CH_CTRL_TRACE (c : Nat) : RegField := ⟨Reg.CAL_CH_CTRL c, 9, 8⟩
def Reg.CAL_CH_EZ (c : Nat) : Nat := 0x610004 + 0x80 * c
def F.CAL_CH_EZ_EZ (c : Nat) : RegField := ⟨Reg.CAL_CH_EZ c, 31, 0⟩
def Reg.CAL_CH_EF (c : Nat) : Nat := 0x610008 + 0x80 * c
def F.CAL_CH_EF_EF (c : Nat) : RegField := ⟨Reg.CAL_CH_EF c, 31, 0⟩
def Reg.CAL_CH_WIN (c : Nat) : Nat := 0x61000C + 0x80 * c
def F.CAL_CH_WIN_FWIN (c : Nat) : RegField := ⟨Reg.CAL_CH_WIN c, 31, 16⟩
def F.CAL_CH_WIN_ZWIN (c : Nat) : RegField := ⟨Reg.CAL_CH_WIN c, 15, 0⟩
def Reg.CAL_CH_NLIM (c : Nat) : Nat := 0x610010 + 0x80 * c
def F.CAL_CH_NLIM_NLIM (c : Nat) : RegField := ⟨Reg.CAL_CH_NLIM c, 15, 0⟩
def Reg.CAL_CH_GAIN (c : Nat) : Nat := 0x610014 + 0x80 * c
def F.CAL_CH_GAIN_G (c : Nat) : RegField := ⟨Reg.CAL_CH_GAIN c, 31, 0⟩
def Reg.CAL_CH_OFS (c : Nat) : Nat := 0x610018 + 0x80 * c
def F.CAL_CH_OFS_B (c : Nat) : RegField := ⟨Reg.CAL_CH_OFS c, 31, 0⟩
def Reg.CAL_CH_AZ (c : Nat) : Nat := 0x61001C + 0x80 * c
def F.CAL_CH_AZ_AZ (c : Nat) : RegField := ⟨Reg.CAL_CH_AZ c, 31, 0⟩
def Reg.CAL_CH_AF (c : Nat) : Nat := 0x610020 + 0x80 * c
def F.CAL_CH_AF_AF (c : Nat) : RegField := ⟨Reg.CAL_CH_AF c, 31, 0⟩
def Reg.CAL_CH_NOISE (c : Nat) : Nat := 0x610024 + 0x80 * c
def F.CAL_CH_NOISE_NZ (c : Nat) : RegField := ⟨Reg.CAL_CH_NOISE c, 31, 16⟩
def F.CAL_CH_NOISE_NF (c : Nat) : RegField := ⟨Reg.CAL_CH_NOISE c, 15, 0⟩
def Reg.CAL_CH_NGAIN (c : Nat) : Nat := 0x610028 + 0x80 * c
def F.CAL_CH_NGAIN_G (c : Nat) : RegField := ⟨Reg.CAL_CH_NGAIN c, 31, 0⟩
def Reg.CAL_CH_NOFS (c : Nat) : Nat := 0x61002C + 0x80 * c
def F.CAL_CH_NOFS_B (c : Nat) : RegField := ⟨Reg.CAL_CH_NOFS c, 31, 0⟩
def Reg.CAL_CH_CERT (c i : Nat) : Nat := 0x610030 + 0x80 * c + 0x4 * i
def F.CAL_CH_CERT_CERT (c i : Nat) : RegField := ⟨Reg.CAL_CH_CERT c i, 31, 0⟩
def Reg.CAL_CH_TICK_LO (c : Nat) : Nat := 0x610040 + 0x80 * c
def F.CAL_CH_TICK_LO_TICK (c : Nat) : RegField := ⟨Reg.CAL_CH_TICK_LO c, 31, 0⟩
def Reg.CAL_CH_TICK_HI (c : Nat) : Nat := 0x610044 + 0x80 * c
def F.CAL_CH_TICK_HI_TICK (c : Nat) : RegField := ⟨Reg.CAL_CH_TICK_HI c, 31, 0⟩
def Reg.CAL_CH_TEMP (c : Nat) : Nat := 0x610048 + 0x80 * c
def F.CAL_CH_TEMP_TEMP (c : Nat) : RegField := ⟨Reg.CAL_CH_TEMP c, 15, 0⟩
def Reg.CAL_CH_AFE (c : Nat) : Nat := 0x61004C + 0x80 * c
def F.CAL_CH_AFE_CFG (c : Nat) : RegField := ⟨Reg.CAL_CH_AFE c, 19, 0⟩
def Reg.CAL_CH_LGAIN (c : Nat) : Nat := 0x610050 + 0x80 * c
def F.CAL_CH_LGAIN_G (c : Nat) : RegField := ⟨Reg.CAL_CH_LGAIN c, 31, 0⟩
def Reg.CAL_CH_LOFS (c : Nat) : Nat := 0x610054 + 0x80 * c
def F.CAL_CH_LOFS_B (c : Nat) : RegField := ⟨Reg.CAL_CH_LOFS c, 31, 0⟩

/-! ### CHR (spec/08_charcoal_filters.md) -/

def Reg.CHR_BANK_STAT : Nat := 0x700000
def F.CHR_BANK_STAT_ACTIVE_VALID : RegField := ⟨Reg.CHR_BANK_STAT, 31, 31⟩
def F.CHR_BANK_STAT_ACTIVE : RegField := ⟨Reg.CHR_BANK_STAT, 8, 8⟩
def F.CHR_BANK_STAT_B1_STATE : RegField := ⟨Reg.CHR_BANK_STAT, 7, 4⟩
def F.CHR_BANK_STAT_B0_STATE : RegField := ⟨Reg.CHR_BANK_STAT, 3, 0⟩
def Reg.CHR_BANK_CTRL : Nat := 0x700004
def F.CHR_BANK_CTRL_EDIT : RegField := ⟨Reg.CHR_BANK_CTRL, 31, 31⟩
def F.CHR_BANK_CTRL_SEAL : RegField := ⟨Reg.CHR_BANK_CTRL, 30, 30⟩
def F.CHR_BANK_CTRL_BANK : RegField := ⟨Reg.CHR_BANK_CTRL, 0, 0⟩
def Reg.CHR_BANK_CRC : Nat := 0x700008
def F.CHR_BANK_CRC_CRC : RegField := ⟨Reg.CHR_BANK_CRC, 31, 0⟩
def Reg.CHR_BANK_RES : Nat := 0x70000C
def F.CHR_BANK_RES_CODE : RegField := ⟨Reg.CHR_BANK_RES, 31, 24⟩
def F.CHR_BANK_RES_DETAIL : RegField := ⟨Reg.CHR_BANK_RES, 23, 0⟩
def Reg.CHR_SWAP : Nat := 0x700010
def F.CHR_SWAP_REQ : RegField := ⟨Reg.CHR_SWAP, 31, 31⟩
def F.CHR_SWAP_BANK : RegField := ⟨Reg.CHR_SWAP, 0, 0⟩
def Reg.CHR_SWAP_STAT : Nat := 0x700014
def F.CHR_SWAP_STAT_TAKEN : RegField := ⟨Reg.CHR_SWAP_STAT, 31, 16⟩
def F.CHR_SWAP_STAT_REFUSED : RegField := ⟨Reg.CHR_SWAP_STAT, 15, 8⟩
def F.CHR_SWAP_STAT_REASON : RegField := ⟨Reg.CHR_SWAP_STAT, 3, 0⟩
def Reg.CHR_LOAD : Nat := 0x700018
def F.CHR_LOAD_LOAD : RegField := ⟨Reg.CHR_LOAD, 31, 0⟩
def Reg.CHR_DELAY_USED : Nat := 0x70001C
def F.CHR_DELAY_USED_USED : RegField := ⟨Reg.CHR_DELAY_USED, 20, 0⟩
def Reg.CHR_DET_RATE_USED : Nat := 0x700020
def F.CHR_DET_RATE_USED_RATE : RegField := ⟨Reg.CHR_DET_RATE_USED, 19, 0⟩
def Reg.CHR_CH_CFG (c : Nat) : Nat := 0x710000 + 0x40 * c
def F.CHR_CH_CFG_EN (c : Nat) : RegField := ⟨Reg.CHR_CH_CFG c, 31, 31⟩
def F.CHR_CH_CFG_OUT (c : Nat) : RegField := ⟨Reg.CHR_CH_CFG c, 30, 30⟩
def F.CHR_CH_CFG_FIR_EN (c : Nat) : RegField := ⟨Reg.CHR_CH_CFG c, 29, 29⟩
def F.CHR_CH_CFG_RSMP_EN (c : Nat) : RegField := ⟨Reg.CHR_CH_CFG c, 28, 28⟩
def F.CHR_CH_CFG_FRAC_EN (c : Nat) : RegField := ⟨Reg.CHR_CH_CFG c, 27, 27⟩
def F.CHR_CH_CFG_D2 (c : Nat) : RegField := ⟨Reg.CHR_CH_CFG c, 26, 20⟩
def F.CHR_CH_CFG_FIR_SET (c : Nat) : RegField := ⟨Reg.CHR_CH_CFG c, 19, 14⟩
def F.CHR_CH_CFG_PROTO (c : Nat) : RegField := ⟨Reg.CHR_CH_CFG c, 13, 12⟩
def F.CHR_CH_CFG_R1 (c : Nat) : RegField := ⟨Reg.CHR_CH_CFG c, 11, 6⟩
def Reg.CHR_CH_RSMP (c : Nat) : Nat := 0x710004 + 0x40 * c
def F.CHR_CH_RSMP_L (c : Nat) : RegField := ⟨Reg.CHR_CH_RSMP c, 31, 16⟩
def F.CHR_CH_RSMP_M (c : Nat) : RegField := ⟨Reg.CHR_CH_RSMP c, 15, 0⟩
def Reg.CHR_CH_DELAY (c : Nat) : Nat := 0x710008 + 0x40 * c
def F.CHR_CH_DELAY_WHOLE (c : Nat) : RegField := ⟨Reg.CHR_CH_DELAY c, 31, 16⟩
def F.CHR_CH_DELAY_FRAC (c : Nat) : RegField := ⟨Reg.CHR_CH_DELAY c, 7, 0⟩
def Reg.CHR_CH_STAT (c : Nat) : Nat := 0x71000C + 0x40 * c
def F.CHR_CH_STAT_RUN (c : Nat) : RegField := ⟨Reg.CHR_CH_STAT c, 31, 31⟩
def F.CHR_CH_STAT_FILLING (c : Nat) : RegField := ⟨Reg.CHR_CH_STAT c, 30, 30⟩
def F.CHR_CH_STAT_XOVCNT (c : Nat) : RegField := ⟨Reg.CHR_CH_STAT c, 23, 16⟩
def Reg.CHR_CH_OFS_LO (c : Nat) : Nat := 0x710010 + 0x40 * c
def F.CHR_CH_OFS_LO_OFS (c : Nat) : RegField := ⟨Reg.CHR_CH_OFS_LO c, 31, 0⟩
def Reg.CHR_CH_OFS_HI (c : Nat) : Nat := 0x710014 + 0x40 * c
def F.CHR_CH_OFS_HI_OFS (c : Nat) : RegField := ⟨Reg.CHR_CH_OFS_HI c, 31, 0⟩
def Reg.CHR_CH_GD_LO (c : Nat) : Nat := 0x710018 + 0x40 * c
def F.CHR_CH_GD_LO_GD (c : Nat) : RegField := ⟨Reg.CHR_CH_GD_LO c, 31, 0⟩
def Reg.CHR_CH_GD_HI (c : Nat) : Nat := 0x71001C + 0x40 * c
def F.CHR_CH_GD_HI_GD (c : Nat) : RegField := ⟨Reg.CHR_CH_GD_HI c, 31, 0⟩
def Reg.CHR_CH_AMB (c : Nat) : Nat := 0x710020 + 0x40 * c
def F.CHR_CH_AMB_AMB (c : Nat) : RegField := ⟨Reg.CHR_CH_AMB c, 31, 0⟩
def Reg.CHR_DET_CFG (d : Nat) : Nat := 0x760000 + 0x40 * d
def F.CHR_DET_CFG_EN (d : Nat) : RegField := ⟨Reg.CHR_DET_CFG d, 31, 31⟩
def F.CHR_DET_CFG_TYPE (d : Nat) : RegField := ⟨Reg.CHR_DET_CFG d, 30, 28⟩
def F.CHR_DET_CFG_TAP (d : Nat) : RegField := ⟨Reg.CHR_DET_CFG d, 27, 27⟩
def F.CHR_DET_CFG_AC (d : Nat) : RegField := ⟨Reg.CHR_DET_CFG d, 26, 26⟩
def F.CHR_DET_CFG_DECAY (d : Nat) : RegField := ⟨Reg.CHR_DET_CFG d, 25, 21⟩
def F.CHR_DET_CFG_CH (d : Nat) : RegField := ⟨Reg.CHR_DET_CFG d, 12, 0⟩
def Reg.CHR_DET_WIN (d : Nat) : Nat := 0x760004 + 0x40 * d
def F.CHR_DET_WIN_WIN (d : Nat) : RegField := ⟨Reg.CHR_DET_WIN d, 15, 0⟩
def Reg.CHR_DET_ROUTE (d : Nat) : Nat := 0x760008 + 0x40 * d
def F.CHR_DET_ROUTE_Q (d : Nat) : RegField := ⟨Reg.CHR_DET_ROUTE d, 31, 0⟩
def Reg.CHR_DET_RES0 (d : Nat) : Nat := 0x760010 + 0x40 * d
def F.CHR_DET_RES0_A (d : Nat) : RegField := ⟨Reg.CHR_DET_RES0 d, 31, 0⟩
def Reg.CHR_DET_RES1 (d : Nat) : Nat := 0x760014 + 0x40 * d
def F.CHR_DET_RES1_B (d : Nat) : RegField := ⟨Reg.CHR_DET_RES1 d, 31, 0⟩
def Reg.CHR_DET_RES2 (d : Nat) : Nat := 0x760018 + 0x40 * d
def F.CHR_DET_RES2_N (d : Nat) : RegField := ⟨Reg.CHR_DET_RES2 d, 31, 0⟩
def Reg.CHR_DET_RES3 (d : Nat) : Nat := 0x76001C + 0x40 * d
def F.CHR_DET_RES3_TICK (d : Nat) : RegField := ⟨Reg.CHR_DET_RES3 d, 31, 0⟩
def Reg.CHR_DET_RES4 (d : Nat) : Nat := 0x760020 + 0x40 * d
def F.CHR_DET_RES4_EXCL (d : Nat) : RegField := ⟨Reg.CHR_DET_RES4 d, 31, 16⟩
def F.CHR_DET_RES4_WINS (d : Nat) : RegField := ⟨Reg.CHR_DET_RES4 d, 15, 0⟩

/-! ### FLK (spec/09_field_lanes.md) -/

def Reg.FLK_CTRL (n : Nat) : Nat := 0x800000 + 0x1000 * n
def F.FLK_CTRL_EN (n : Nat) : RegField := ⟨Reg.FLK_CTRL n, 31, 31⟩
def F.FLK_CTRL_REF_EN (n : Nat) : RegField := ⟨Reg.FLK_CTRL n, 30, 30⟩
def F.FLK_CTRL_RETRAIN (n : Nat) : RegField := ⟨Reg.FLK_CTRL n, 29, 29⟩
def F.FLK_CTRL_FALLBACK (n : Nat) : RegField := ⟨Reg.FLK_CTRL n, 28, 28⟩
def F.FLK_CTRL_LP (n : Nat) : RegField := ⟨Reg.FLK_CTRL n, 25, 24⟩
def F.FLK_CTRL_SPREAD (n : Nat) : RegField := ⟨Reg.FLK_CTRL n, 21, 20⟩
def F.FLK_CTRL_RATE (n : Nat) : RegField := ⟨Reg.FLK_CTRL n, 17, 16⟩
def Reg.FLK_STAT (n : Nat) : Nat := 0x800004 + 0x1000 * n
def F.FLK_STAT_STATE (n : Nat) : RegField := ⟨Reg.FLK_STAT n, 31, 28⟩
def F.FLK_STAT_RATE_NOW (n : Nat) : RegField := ⟨Reg.FLK_STAT n, 27, 26⟩
def F.FLK_STAT_BLOCK_LOCK (n : Nat) : RegField := ⟨Reg.FLK_STAT n, 25, 25⟩
def F.FLK_STAT_RELOCK (n : Nat) : RegField := ⟨Reg.FLK_STAT n, 24, 24⟩
def F.FLK_STAT_FAR_SEEN (n : Nat) : RegField := ⟨Reg.FLK_STAT n, 23, 23⟩
def F.FLK_STAT_HOLDOFF (n : Nat) : RegField := ⟨Reg.FLK_STAT n, 22, 22⟩
def F.FLK_STAT_FAILS (n : Nat) : RegField := ⟨Reg.FLK_STAT n, 15, 8⟩
def F.FLK_STAT_CAUSE (n : Nat) : RegField := ⟨Reg.FLK_STAT n, 7, 0⟩
def Reg.FLK_HOLD (n : Nat) : Nat := 0x800008 + 0x1000 * n
def F.FLK_HOLD_MS (n : Nat) : RegField := ⟨Reg.FLK_HOLD n, 23, 0⟩
def Reg.FLK_TX_INIT (n : Nat) : Nat := 0x80000C + 0x1000 * n
def F.FLK_TX_INIT_PRE (n : Nat) : RegField := ⟨Reg.FLK_TX_INIT n, 20, 16⟩
def F.FLK_TX_INIT_MAIN (n : Nat) : RegField := ⟨Reg.FLK_TX_INIT n, 14, 8⟩
def F.FLK_TX_INIT_POST (n : Nat) : RegField := ⟨Reg.FLK_TX_INIT n, 5, 0⟩
def Reg.FLK_TX_EQ (n : Nat) : Nat := 0x800010 + 0x1000 * n
def F.FLK_TX_EQ_PRE (n : Nat) : RegField := ⟨Reg.FLK_TX_EQ n, 20, 16⟩
def F.FLK_TX_EQ_MAIN (n : Nat) : RegField := ⟨Reg.FLK_TX_EQ n, 14, 8⟩
def F.FLK_TX_EQ_POST (n : Nat) : RegField := ⟨Reg.FLK_TX_EQ n, 5, 0⟩
def Reg.FLK_ERR (n : Nat) : Nat := 0x800014 + 0x1000 * n
def F.FLK_ERR_BAD_HDR (n : Nat) : RegField := ⟨Reg.FLK_ERR n, 31, 16⟩
def F.FLK_ERR_LOCK_LOSS (n : Nat) : RegField := ⟨Reg.FLK_ERR n, 15, 8⟩
def F.FLK_ERR_TRAIN_FAIL (n : Nat) : RegField := ⟨Reg.FLK_ERR n, 7, 0⟩
def Reg.FLK_FAR_CAPS (n : Nat) : Nat := 0x800018 + 0x1000 * n
def F.FLK_FAR_CAPS_VERSION (n : Nat) : RegField := ⟨Reg.FLK_FAR_CAPS n, 31, 24⟩
def F.FLK_FAR_CAPS_RATES (n : Nat) : RegField := ⟨Reg.FLK_FAR_CAPS n, 19, 16⟩
def F.FLK_FAR_CAPS_FLAGS (n : Nat) : RegField := ⟨Reg.FLK_FAR_CAPS n, 11, 8⟩
def Reg.FLK_UP_LO (n : Nat) : Nat := 0x80001C + 0x1000 * n
def F.FLK_UP_LO_TICK (n : Nat) : RegField := ⟨Reg.FLK_UP_LO n, 31, 0⟩
def Reg.FLK_UP_HI (n : Nat) : Nat := 0x800020 + 0x1000 * n
def F.FLK_UP_HI_TICK (n : Nat) : RegField := ⟨Reg.FLK_UP_HI n, 31, 0⟩

/-! ### PTN (spec/10_partners.md) -/

def Reg.PTN_CTRL : Nat := 0x900000
def F.PTN_CTRL_EN : RegField := ⟨Reg.PTN_CTRL, 31, 31⟩
def F.PTN_CTRL_AUTO_JOIN : RegField := ⟨Reg.PTN_CTRL, 30, 30⟩
def F.PTN_CTRL_PAIR : RegField := ⟨Reg.PTN_CTRL, 29, 29⟩
def F.PTN_CTRL_ROLE : RegField := ⟨Reg.PTN_CTRL, 28, 28⟩
def F.PTN_CTRL_JOIN_LEAD : RegField := ⟨Reg.PTN_CTRL, 7, 0⟩
def Reg.PTN_STEW : Nat := 0x900004
def F.PTN_STEW_STEWARD : RegField := ⟨Reg.PTN_STEW, 31, 31⟩
def F.PTN_STEW_SLATE_UP : RegField := ⟨Reg.PTN_STEW, 30, 30⟩
def F.PTN_STEW_SYNCED : RegField := ⟨Reg.PTN_STEW, 29, 29⟩
def F.PTN_STEW_RATE_MISMATCH : RegField := ⟨Reg.PTN_STEW, 28, 28⟩
def F.PTN_STEW_SILENT : RegField := ⟨Reg.PTN_STEW, 7, 0⟩
def Reg.PTN_EPOCH : Nat := 0x900008
def F.PTN_EPOCH_EPOCH : RegField := ⟨Reg.PTN_EPOCH, 31, 0⟩
def Reg.PTN_TAKE : Nat := 0x90000C
def F.PTN_TAKE_TAKE : RegField := ⟨Reg.PTN_TAKE, 31, 31⟩
def Reg.PTN_STORM : Nat := 0x900010
def F.PTN_STORM_HOLDOFF : RegField := ⟨Reg.PTN_STORM, 15, 0⟩
def Reg.PTN_COUNTS : Nat := 0x900014
def F.PTN_COUNTS_DUP : RegField := ⟨Reg.PTN_COUNTS, 31, 16⟩
def F.PTN_COUNTS_FRAME_BAD : RegField := ⟨Reg.PTN_COUNTS, 15, 0⟩
def Reg.PTN_Pp_SERIAL (p : Nat) : Nat := 0x910000 + 0x20 * p
def F.PTN_Pp_SERIAL_SERIAL (p : Nat) : RegField := ⟨Reg.PTN_Pp_SERIAL p, 31, 0⟩
def Reg.PTN_Pp_STAT (p : Nat) : Nat := 0x910004 + 0x20 * p
def F.PTN_Pp_STAT_ROUTES (p : Nat) : RegField := ⟨Reg.PTN_Pp_STAT p, 31, 30⟩
def F.PTN_Pp_STAT_LANE_A (p : Nat) : RegField := ⟨Reg.PTN_Pp_STAT p, 29, 26⟩
def F.PTN_Pp_STAT_POS_A (p : Nat) : RegField := ⟨Reg.PTN_Pp_STAT p, 25, 21⟩
def F.PTN_Pp_STAT_LANE_B (p : Nat) : RegField := ⟨Reg.PTN_Pp_STAT p, 20, 17⟩
def F.PTN_Pp_STAT_POS_B (p : Nat) : RegField := ⟨Reg.PTN_Pp_STAT p, 16, 12⟩
def F.PTN_Pp_STAT_NCH (p : Nat) : RegField := ⟨Reg.PTN_Pp_STAT p, 7, 0⟩
def Reg.PTN_Pp_EPOCH (p : Nat) : Nat := 0x910008 + 0x20 * p
def F.PTN_Pp_EPOCH_EPOCH (p : Nat) : RegField := ⟨Reg.PTN_Pp_EPOCH p, 31, 0⟩
def Reg.PTN_Pp_SEEN_LO (p : Nat) : Nat := 0x91000C + 0x20 * p
def F.PTN_Pp_SEEN_LO_TICK (p : Nat) : RegField := ⟨Reg.PTN_Pp_SEEN_LO p, 31, 0⟩
def Reg.PTN_Pp_SEEN_HI (p : Nat) : Nat := 0x910010 + 0x20 * p
def F.PTN_Pp_SEEN_HI_TICK (p : Nat) : RegField := ⟨Reg.PTN_Pp_SEEN_HI p, 31, 0⟩
def Reg.PTN_SLs_ID (s : Nat) : Nat := 0x940000 + 0x20 * ((s-96))
def F.PTN_SLs_ID_SERIAL (s : Nat) : RegField := ⟨Reg.PTN_SLs_ID s, 31, 0⟩
def Reg.PTN_SLs_STAT (s : Nat) : Nat := 0x940004 + 0x20 * ((s-96))
def F.PTN_SLs_STAT_STATE (s : Nat) : RegField := ⟨Reg.PTN_SLs_STAT s, 31, 30⟩
def F.PTN_SLs_STAT_RESV (s : Nat) : RegField := ⟨Reg.PTN_SLs_STAT s, 29, 29⟩
def F.PTN_SLs_STAT_PARTNER (s : Nat) : RegField := ⟨Reg.PTN_SLs_STAT s, 28, 20⟩
def F.PTN_SLs_STAT_NODE_CH (s : Nat) : RegField := ⟨Reg.PTN_SLs_STAT s, 7, 0⟩
def Reg.PTN_SLs_RES (s : Nat) : Nat := 0x940008 + 0x20 * ((s-96))
def F.PTN_SLs_RES_SERIAL (s : Nat) : RegField := ⟨Reg.PTN_SLs_RES s, 31, 0⟩
def Reg.PTN_SLs_RESCH (s : Nat) : Nat := 0x94000C + 0x20 * ((s-96))
def F.PTN_SLs_RESCH_EN (s : Nat) : RegField := ⟨Reg.PTN_SLs_RESCH s, 31, 31⟩
def F.PTN_SLs_RESCH_NODE_CH (s : Nat) : RegField := ⟨Reg.PTN_SLs_RESCH s, 7, 0⟩
def Reg.PTN_SLs_RATE (s : Nat) : Nat := 0x940010 + 0x20 * ((s-96))
def F.PTN_SLs_RATE_RATE (s : Nat) : RegField := ⟨Reg.PTN_SLs_RATE s, 23, 0⟩
def Reg.PTN_SLs_NCFG (s : Nat) : Nat := 0x940014 + 0x20 * ((s-96))
def F.PTN_SLs_NCFG_NCFG (s : Nat) : RegField := ⟨Reg.PTN_SLs_NCFG s, 31, 0⟩
def Reg.PTN_SLs_SEQ (s : Nat) : Nat := 0x940018 + 0x20 * ((s-96))
def F.PTN_SLs_SEQ_SEQ (s : Nat) : RegField := ⟨Reg.PTN_SLs_SEQ s, 31, 0⟩
def Reg.PTN_SLs_JOIN (s : Nat) : Nat := 0x94001C + 0x20 * ((s-96))
def F.PTN_SLs_JOIN_TICK (s : Nat) : RegField := ⟨Reg.PTN_SLs_JOIN s, 31, 0⟩

/-! ### PTP (spec/11_network_time.md) -/

def Reg.PTP_CTRL : Nat := 0xA00000
def F.PTP_CTRL_EN : RegField := ⟨Reg.PTP_CTRL, 31, 31⟩
def F.PTP_CTRL_DOMAIN : RegField := ⟨Reg.PTP_CTRL, 23, 16⟩
def F.PTP_CTRL_SDO_MAJ : RegField := ⟨Reg.PTP_CTRL, 15, 12⟩
def F.PTP_CTRL_SDO_MIN : RegField := ⟨Reg.PTP_CTRL, 11, 4⟩
def F.PTP_CTRL_PROFILE : RegField := ⟨Reg.PTP_CTRL, 0, 0⟩
def Reg.PTP_SERVO_STAT : Nat := 0xA00004
def F.PTP_SERVO_STAT_STATE : RegField := ⟨Reg.PTP_SERVO_STAT, 31, 29⟩
def F.PTP_SERVO_STAT_PORT : RegField := ⟨Reg.PTP_SERVO_STAT, 28, 28⟩
def F.PTP_SERVO_STAT_GM_VALID : RegField := ⟨Reg.PTP_SERVO_STAT, 27, 27⟩
def F.PTP_SERVO_STAT_STEPPED : RegField := ⟨Reg.PTP_SERVO_STAT, 26, 26⟩
def F.PTP_SERVO_STAT_LOCK_S : RegField := ⟨Reg.PTP_SERVO_STAT, 15, 0⟩
def Reg.PTP_OFFSET_LO : Nat := 0xA00008
def F.PTP_OFFSET_LO_OFS : RegField := ⟨Reg.PTP_OFFSET_LO, 31, 0⟩
def Reg.PTP_OFFSET_HI : Nat := 0xA0000C
def F.PTP_OFFSET_HI_OFS : RegField := ⟨Reg.PTP_OFFSET_HI, 31, 0⟩
def Reg.PTP_RATE : Nat := 0xA00010
def F.PTP_RATE_RATE : RegField := ⟨Reg.PTP_RATE, 31, 0⟩
def Reg.PTP_HOLD_RATE : Nat := 0xA00014
def F.PTP_HOLD_RATE_RATE : RegField := ⟨Reg.PTP_HOLD_RATE, 31, 0⟩
def Reg.PTP_NOW_SEC_LO : Nat := 0xA00018
def F.PTP_NOW_SEC_LO_SEC : RegField := ⟨Reg.PTP_NOW_SEC_LO, 31, 0⟩
def Reg.PTP_NOW_SEC_HI : Nat := 0xA0001C
def F.PTP_NOW_SEC_HI_SEC : RegField := ⟨Reg.PTP_NOW_SEC_HI, 15, 0⟩
def Reg.PTP_NOW_NS : Nat := 0xA00020
def F.PTP_NOW_NS_NS : RegField := ⟨Reg.PTP_NOW_NS, 29, 0⟩
def Reg.PTP_NOW_FRAC : Nat := 0xA00024
def F.PTP_NOW_FRAC_FRAC : RegField := ⟨Reg.PTP_NOW_FRAC, 15, 0⟩
def Reg.PTP_SERVO_CFG : Nat := 0xA00028
def F.PTP_SERVO_CFG_LOCK_THR : RegField := ⟨Reg.PTP_SERVO_CFG, 31, 24⟩
def F.PTP_SERVO_CFG_SLEW_PPM : RegField := ⟨Reg.PTP_SERVO_CFG, 23, 16⟩
def F.PTP_SERVO_CFG_QUAL : RegField := ⟨Reg.PTP_SERVO_CFG, 15, 8⟩
def F.PTP_SERVO_CFG_BW : RegField := ⟨Reg.PTP_SERVO_CFG, 7, 4⟩
def F.PTP_SERVO_CFG_HOLD_AVG : RegField := ⟨Reg.PTP_SERVO_CFG, 3, 0⟩
def Reg.PTP_RESTEP_VAL_LO : Nat := 0xA00040
def F.PTP_RESTEP_VAL_LO_STEP : RegField := ⟨Reg.PTP_RESTEP_VAL_LO, 31, 0⟩
def Reg.PTP_RESTEP_VAL_HI : Nat := 0xA00044
def F.PTP_RESTEP_VAL_HI_STEP : RegField := ⟨Reg.PTP_RESTEP_VAL_HI, 31, 0⟩
def Reg.PTP_RESTEP_TICK_LO : Nat := 0xA00048
def F.PTP_RESTEP_TICK_LO_TICK : RegField := ⟨Reg.PTP_RESTEP_TICK_LO, 31, 0⟩
def Reg.PTP_RESTEP_TICK_HI : Nat := 0xA0004C
def F.PTP_RESTEP_TICK_HI_TICK : RegField := ⟨Reg.PTP_RESTEP_TICK_HI, 31, 0⟩
def Reg.PTP_RESTEP_CMD : Nat := 0xA00050
def F.PTP_RESTEP_CMD_GO : RegField := ⟨Reg.PTP_RESTEP_CMD, 31, 31⟩
def F.PTP_RESTEP_CMD_MODE : RegField := ⟨Reg.PTP_RESTEP_CMD, 30, 30⟩
def F.PTP_RESTEP_CMD_CANCEL : RegField := ⟨Reg.PTP_RESTEP_CMD, 29, 29⟩
def Reg.PTP_RESTEP_AUTH : Nat := 0xA00054
def F.PTP_RESTEP_AUTH_VALID : RegField := ⟨Reg.PTP_RESTEP_AUTH, 31, 31⟩
def F.PTP_RESTEP_AUTH_DIR : RegField := ⟨Reg.PTP_RESTEP_AUTH, 30, 30⟩
def F.PTP_RESTEP_AUTH_MAX : RegField := ⟨Reg.PTP_RESTEP_AUTH, 29, 0⟩
def Reg.PTP_RESTEP_EXP_LO : Nat := 0xA00058
def F.PTP_RESTEP_EXP_LO_TICK : RegField := ⟨Reg.PTP_RESTEP_EXP_LO, 31, 0⟩
def Reg.PTP_RESTEP_EXP_HI : Nat := 0xA0005C
def F.PTP_RESTEP_EXP_HI_TICK : RegField := ⟨Reg.PTP_RESTEP_EXP_HI, 31, 0⟩
def Reg.PTP_RESTEP_STAT : Nat := 0xA00060
def F.PTP_RESTEP_STAT_RESULT : RegField := ⟨Reg.PTP_RESTEP_STAT, 31, 24⟩
def Reg.PTP_RESTEP_DONE_LO : Nat := 0xA00064
def F.PTP_RESTEP_DONE_LO_TICK : RegField := ⟨Reg.PTP_RESTEP_DONE_LO, 31, 0⟩
def Reg.PTP_RESTEP_DONE_HI : Nat := 0xA00068
def F.PTP_RESTEP_DONE_HI_TICK : RegField := ⟨Reg.PTP_RESTEP_DONE_HI, 31, 0⟩
def Reg.PTP_Un_CFG (n : Nat) : Nat := 0xA01000 + 0x1000 * n
def F.PTP_Un_CFG_EN (n : Nat) : RegField := ⟨Reg.PTP_Un_CFG n, 31, 31⟩
def F.PTP_Un_CFG_TRANSPORT (n : Nat) : RegField := ⟨Reg.PTP_Un_CFG n, 30, 29⟩
def F.PTP_Un_CFG_VLAN_EN (n : Nat) : RegField := ⟨Reg.PTP_Un_CFG n, 28, 28⟩
def F.PTP_Un_CFG_VID (n : Nat) : RegField := ⟨Reg.PTP_Un_CFG n, 27, 16⟩
def F.PTP_Un_CFG_ANN_TO (n : Nat) : RegField := ⟨Reg.PTP_Un_CFG n, 11, 8⟩
def Reg.PTP_Un_ING_LAT (n : Nat) : Nat := 0xA01004 + 0x1000 * n
def F.PTP_Un_ING_LAT_LAT (n : Nat) : RegField := ⟨Reg.PTP_Un_ING_LAT n, 31, 0⟩
def Reg.PTP_Un_EGR_LAT (n : Nat) : Nat := 0xA01008 + 0x1000 * n
def F.PTP_Un_EGR_LAT_LAT (n : Nat) : RegField := ⟨Reg.PTP_Un_EGR_LAT n, 31, 0⟩
def Reg.PTP_Un_ASYM (n : Nat) : Nat := 0xA0100C + 0x1000 * n
def F.PTP_Un_ASYM_ASYM (n : Nat) : RegField := ⟨Reg.PTP_Un_ASYM n, 31, 0⟩
def Reg.PTP_Un_STAT (n : Nat) : Nat := 0xA01010 + 0x1000 * n
def F.PTP_Un_STAT_PSTATE (n : Nat) : RegField := ⟨Reg.PTP_Un_STAT n, 31, 28⟩
def Reg.PTP_Un_MPD (n : Nat) : Nat := 0xA01014 + 0x1000 * n
def F.PTP_Un_MPD_MPD (n : Nat) : RegField := ⟨Reg.PTP_Un_MPD n, 31, 0⟩
def Reg.PTP_Un_GM_LO (n : Nat) : Nat := 0xA01018 + 0x1000 * n
def F.PTP_Un_GM_LO_GMID (n : Nat) : RegField := ⟨Reg.PTP_Un_GM_LO n, 31, 0⟩
def Reg.PTP_Un_GM_HI (n : Nat) : Nat := 0xA0101C + 0x1000 * n
def F.PTP_Un_GM_HI_GMID (n : Nat) : RegField := ⟨Reg.PTP_Un_GM_HI n, 31, 0⟩
def Reg.PTP_Un_CNT (n : Nat) : Nat := 0xA01020 + 0x1000 * n
def F.PTP_Un_CNT_RX_BAD (n : Nat) : RegField := ⟨Reg.PTP_Un_CNT n, 31, 16⟩
def F.PTP_Un_CNT_SYNC (n : Nat) : RegField := ⟨Reg.PTP_Un_CNT n, 15, 0⟩
def Reg.PTP_FLl_DELAY (l : Nat) : Nat := 0xA04000 + 0x40 * l
def F.PTP_FLl_DELAY_DLY (l : Nat) : RegField := ⟨Reg.PTP_FLl_DELAY l, 31, 0⟩
def Reg.PTP_FLl_ASYM (l : Nat) : Nat := 0xA04004 + 0x40 * l
def F.PTP_FLl_ASYM_ASYM (l : Nat) : RegField := ⟨Reg.PTP_FLl_ASYM l, 31, 0⟩
def Reg.PTP_FLl_MSTAT (l : Nat) : Nat := 0xA04008 + 0x40 * l
def F.PTP_FLl_MSTAT_VALID (l : Nat) : RegField := ⟨Reg.PTP_FLl_MSTAT l, 31, 31⟩
def F.PTP_FLl_MSTAT_RUNNING (l : Nat) : RegField := ⟨Reg.PTP_FLl_MSTAT l, 30, 30⟩
def F.PTP_FLl_MSTAT_SPREAD (l : Nat) : RegField := ⟨Reg.PTP_FLl_MSTAT l, 15, 0⟩
def Reg.PTP_FLl_TOL (l : Nat) : Nat := 0xA0400C + 0x40 * l
def F.PTP_FLl_TOL_TOL (l : Nat) : RegField := ⟨Reg.PTP_FLl_TOL l, 15, 0⟩

/-! ### EDG (spec/12_edge_timer.md) -/

def Reg.EDG_CTRL : Nat := 0xB00000
def F.EDG_CTRL_EN : RegField := ⟨Reg.EDG_CTRL, 31, 31⟩
def Reg.EDG_EDGE_Q : Nat := 0xB00004
def F.EDG_EDGE_Q_Q : RegField := ⟨Reg.EDG_EDGE_Q, 31, 0⟩
def Reg.EDG_STAT : Nat := 0xB00008
def F.EDG_STAT_FIFO_PEAK : RegField := ⟨Reg.EDG_STAT, 31, 16⟩
def F.EDG_STAT_QDROP : RegField := ⟨Reg.EDG_STAT, 15, 0⟩
def Reg.EDG_RATE : Nat := 0xB0000C
def F.EDG_RATE_RATE : RegField := ⟨Reg.EDG_RATE, 21, 0⟩
def Reg.EDG_Ss_CFG (s : Nat) : Nat := 0xB01000 + 0x10 * s
def F.EDG_Ss_CFG_EN (s : Nat) : RegField := ⟨Reg.EDG_Ss_CFG s, 31, 31⟩
def F.EDG_Ss_CFG_POL (s : Nat) : RegField := ⟨Reg.EDG_Ss_CFG s, 30, 29⟩
def F.EDG_Ss_CFG_STREAM (s : Nat) : RegField := ⟨Reg.EDG_Ss_CFG s, 28, 28⟩
def Reg.EDG_Ss_OFS (s : Nat) : Nat := 0xB01004 + 0x10 * s
def F.EDG_Ss_OFS_OFS (s : Nat) : RegField := ⟨Reg.EDG_Ss_OFS s, 31, 0⟩
def Reg.EDG_Ss_LAT (s : Nat) : Nat := 0xB01008 + 0x10 * s
def F.EDG_Ss_LAT_LAT (s : Nat) : RegField := ⟨Reg.EDG_Ss_LAT s, 31, 0⟩
def Reg.EDG_Ss_CNT (s : Nat) : Nat := 0xB0100C + 0x10 * s
def F.EDG_Ss_CNT_ACC (s : Nat) : RegField := ⟨Reg.EDG_Ss_CNT s, 31, 16⟩
def F.EDG_Ss_CNT_DEAD (s : Nat) : RegField := ⟨Reg.EDG_Ss_CNT s, 15, 8⟩
def F.EDG_Ss_CNT_OVER (s : Nat) : RegField := ⟨Reg.EDG_Ss_CNT s, 7, 0⟩
def Reg.EDG_Ii_CFG (i : Nat) : Nat := 0xB02000 + 0x20 * i
def F.EDG_Ii_CFG_EN (i : Nat) : RegField := ⟨Reg.EDG_Ii_CFG i, 31, 31⟩
def F.EDG_Ii_CFG_CONT (i : Nat) : RegField := ⟨Reg.EDG_Ii_CFG i, 30, 30⟩
def F.EDG_Ii_CFG_SPOL (i : Nat) : RegField := ⟨Reg.EDG_Ii_CFG i, 29, 28⟩
def F.EDG_Ii_CFG_PPOL (i : Nat) : RegField := ⟨Reg.EDG_Ii_CFG i, 27, 26⟩
def F.EDG_Ii_CFG_STOP (i : Nat) : RegField := ⟨Reg.EDG_Ii_CFG i, 22, 16⟩
def F.EDG_Ii_CFG_START (i : Nat) : RegField := ⟨Reg.EDG_Ii_CFG i, 6, 0⟩
def Reg.EDG_Ii_TO (i : Nat) : Nat := 0xB02004 + 0x20 * i
def F.EDG_Ii_TO_TO (i : Nat) : RegField := ⟨Reg.EDG_Ii_TO i, 26, 0⟩
def Reg.EDG_Ii_RES_LO (i : Nat) : Nat := 0xB02008 + 0x20 * i
def F.EDG_Ii_RES_LO_INT (i : Nat) : RegField := ⟨Reg.EDG_Ii_RES_LO i, 31, 0⟩
def Reg.EDG_Ii_RES_HI (i : Nat) : Nat := 0xB0200C + 0x20 * i
def F.EDG_Ii_RES_HI_INT (i : Nat) : RegField := ⟨Reg.EDG_Ii_RES_HI i, 31, 0⟩
def Reg.EDG_Ii_RES_STAT (i : Nat) : Nat := 0xB02010 + 0x20 * i
def F.EDG_Ii_RES_STAT_VALID (i : Nat) : RegField := ⟨Reg.EDG_Ii_RES_STAT i, 31, 31⟩
def F.EDG_Ii_RES_STAT_TIMEOUT (i : Nat) : RegField := ⟨Reg.EDG_Ii_RES_STAT i, 30, 30⟩
def F.EDG_Ii_RES_STAT_COUNT (i : Nat) : RegField := ⟨Reg.EDG_Ii_RES_STAT i, 15, 0⟩
def Reg.EDG_Gg_CFG (g : Nat) : Nat := 0xB04000 + 0x100 * g
def F.EDG_Gg_CFG_EN (g : Nat) : RegField := ⟨Reg.EDG_Gg_CFG g, 31, 31⟩
def F.EDG_Gg_CFG_TRIG_EN (g : Nat) : RegField := ⟨Reg.EDG_Gg_CFG g, 30, 30⟩
def F.EDG_Gg_CFG_TRIG (g : Nat) : RegField := ⟨Reg.EDG_Gg_CFG g, 29, 24⟩
def F.EDG_Gg_CFG_MINHIT (g : Nat) : RegField := ⟨Reg.EDG_Gg_CFG g, 19, 16⟩
def F.EDG_Gg_CFG_HOLDOFF (g : Nat) : RegField := ⟨Reg.EDG_Gg_CFG g, 15, 0⟩
def Reg.EDG_Gg_MEM0 (g : Nat) : Nat := 0xB04004 + 0x100 * g
def F.EDG_Gg_MEM0_MEM (g : Nat) : RegField := ⟨Reg.EDG_Gg_MEM0 g, 31, 0⟩
def Reg.EDG_Gg_MEM1 (g : Nat) : Nat := 0xB04008 + 0x100 * g
def F.EDG_Gg_MEM1_MEM (g : Nat) : RegField := ⟨Reg.EDG_Gg_MEM1 g, 31, 0⟩
def Reg.EDG_Gg_WIN (g : Nat) : Nat := 0xB0400C + 0x100 * g
def F.EDG_Gg_WIN_WIN (g : Nat) : RegField := ⟨Reg.EDG_Gg_WIN g, 26, 0⟩
def Reg.EDG_Gg_Q (g : Nat) : Nat := 0xB04010 + 0x100 * g
def F.EDG_Gg_Q_Q (g : Nat) : RegField := ⟨Reg.EDG_Gg_Q g, 31, 0⟩
def Reg.EDG_Gg_T0_SLO (g : Nat) : Nat := 0xB04014 + 0x100 * g
def F.EDG_Gg_T0_SLO_SEC (g : Nat) : RegField := ⟨Reg.EDG_Gg_T0_SLO g, 31, 0⟩
def Reg.EDG_Gg_T0_SHI (g : Nat) : Nat := 0xB04018 + 0x100 * g
def F.EDG_Gg_T0_SHI_SEC (g : Nat) : RegField := ⟨Reg.EDG_Gg_T0_SHI g, 15, 0⟩
def Reg.EDG_Gg_T0_NS (g : Nat) : Nat := 0xB0401C + 0x100 * g
def F.EDG_Gg_T0_NS_NS (g : Nat) : RegField := ⟨Reg.EDG_Gg_T0_NS g, 29, 0⟩
def Reg.EDG_Gg_T0_FRAC (g : Nat) : Nat := 0xB04020 + 0x100 * g
def F.EDG_Gg_T0_FRAC_FRAC (g : Nat) : RegField := ⟨Reg.EDG_Gg_T0_FRAC g, 15, 0⟩
def Reg.EDG_Gg_LAST (g : Nat) : Nat := 0xB04024 + 0x100 * g
def F.EDG_Gg_LAST_SEEN (g : Nat) : RegField := ⟨Reg.EDG_Gg_LAST g, 31, 24⟩
def F.EDG_Gg_LAST_FLAGS (g : Nat) : RegField := ⟨Reg.EDG_Gg_LAST g, 23, 16⟩
def F.EDG_Gg_LAST_COUNT (g : Nat) : RegField := ⟨Reg.EDG_Gg_LAST g, 15, 0⟩
def Reg.EDG_Gg_OFSk (g k : Nat) : Nat := 0xB04040 + 0x100 * g + 0x4 * k
def F.EDG_Gg_OFSk_A (g k : Nat) : RegField := ⟨Reg.EDG_Gg_OFSk g k, 31, 0⟩
def Reg.EDG_Gg_PAIRp (g p : Nat) : Nat := 0xB04060 + 0x100 * g + 0x4 * p
def F.EDG_Gg_PAIRp_D (g p : Nat) : RegField := ⟨Reg.EDG_Gg_PAIRp g p, 31, 0⟩
def Reg.EDG_Gg_CNT (g : Nat) : Nat := 0xB040E0 + 0x100 * g
def F.EDG_Gg_CNT_GROUPS (g : Nat) : RegField := ⟨Reg.EDG_Gg_CNT g, 31, 16⟩
def F.EDG_Gg_CNT_SHORT (g : Nat) : RegField := ⟨Reg.EDG_Gg_CNT g, 15, 8⟩
def F.EDG_Gg_CNT_CUT (g : Nat) : RegField := ⟨Reg.EDG_Gg_CNT g, 7, 0⟩

/-! ### KND (spec/13_kindling.md) -/

def Reg.KND_CTRL : Nat := 0xC00000
def F.KND_CTRL_EN : RegField := ⟨Reg.KND_CTRL, 31, 31⟩
def Reg.KND_STAT : Nat := 0xC00004
def F.KND_STAT_RX_OK : RegField := ⟨Reg.KND_STAT, 31, 16⟩
def F.KND_STAT_RX_BAD : RegField := ⟨Reg.KND_STAT, 15, 0⟩
def Reg.KND_TRu_CFG (u : Nat) : Nat := 0xC01000 + 0x40 * u
def F.KND_TRu_CFG_EN (u : Nat) : RegField := ⟨Reg.KND_TRu_CFG u, 31, 31⟩
def F.KND_TRu_CFG_NET (u : Nat) : RegField := ⟨Reg.KND_TRu_CFG u, 30, 30⟩
def F.KND_TRu_CFG_REARM (u : Nat) : RegField := ⟨Reg.KND_TRu_CFG u, 29, 29⟩
def F.KND_TRu_CFG_SET (u : Nat) : RegField := ⟨Reg.KND_TRu_CFG u, 27, 24⟩
def F.KND_TRu_CFG_SETTLE (u : Nat) : RegField := ⟨Reg.KND_TRu_CFG u, 23, 16⟩
def F.KND_TRu_CFG_NETID (u : Nat) : RegField := ⟨Reg.KND_TRu_CFG u, 15, 0⟩
def Reg.KND_TRu_PRE (u : Nat) : Nat := 0xC01004 + 0x40 * u
def F.KND_TRu_PRE_PRE (u : Nat) : RegField := ⟨Reg.KND_TRu_PRE u, 20, 0⟩
def Reg.KND_TRu_POST (u : Nat) : Nat := 0xC01008 + 0x40 * u
def F.KND_TRu_POST_POST (u : Nat) : RegField := ⟨Reg.KND_TRu_POST u, 25, 0⟩
def Reg.KND_TRu_ARM_LO (u : Nat) : Nat := 0xC0100C + 0x40 * u
def F.KND_TRu_ARM_LO_TICK (u : Nat) : RegField := ⟨Reg.KND_TRu_ARM_LO u, 31, 0⟩
def Reg.KND_TRu_ARM_HI (u : Nat) : Nat := 0xC01010 + 0x40 * u
def F.KND_TRu_ARM_HI_TICK (u : Nat) : RegField := ⟨Reg.KND_TRu_ARM_HI u, 31, 0⟩
def Reg.KND_TRu_CMD (u : Nat) : Nat := 0xC01014 + 0x40 * u
def F.KND_TRu_CMD_ARM (u : Nat) : RegField := ⟨Reg.KND_TRu_CMD u, 31, 31⟩
def F.KND_TRu_CMD_DISARM (u : Nat) : RegField := ⟨Reg.KND_TRu_CMD u, 30, 30⟩
def F.KND_TRu_CMD_LATE_OK (u : Nat) : RegField := ⟨Reg.KND_TRu_CMD u, 29, 29⟩
def F.KND_TRu_CMD_SEND (u : Nat) : RegField := ⟨Reg.KND_TRu_CMD u, 28, 28⟩
def Reg.KND_TRu_STAT (u : Nat) : Nat := 0xC01018 + 0x40 * u
def F.KND_TRu_STAT_STATE (u : Nat) : RegField := ⟨Reg.KND_TRu_STAT u, 31, 29⟩
def F.KND_TRu_STAT_RDIV (u : Nat) : RegField := ⟨Reg.KND_TRu_STAT u, 28, 26⟩
def F.KND_TRu_STAT_RES (u : Nat) : RegField := ⟨Reg.KND_TRu_STAT u, 23, 16⟩
def F.KND_TRu_STAT_IGN (u : Nat) : RegField := ⟨Reg.KND_TRu_STAT u, 15, 8⟩
def F.KND_TRu_STAT_CAPS (u : Nat) : RegField := ⟨Reg.KND_TRu_STAT u, 7, 0⟩
def Reg.KND_TRu_Q (u : Nat) : Nat := 0xC0101C + 0x40 * u
def F.KND_TRu_Q_Q (u : Nat) : RegField := ⟨Reg.KND_TRu_Q u, 31, 0⟩
def Reg.KND_TRu_FT_SLO (u : Nat) : Nat := 0xC01020 + 0x40 * u
def F.KND_TRu_FT_SLO_SEC (u : Nat) : RegField := ⟨Reg.KND_TRu_FT_SLO u, 31, 0⟩
def Reg.KND_TRu_FT_SHI (u : Nat) : Nat := 0xC01024 + 0x40 * u
def F.KND_TRu_FT_SHI_SEC (u : Nat) : RegField := ⟨Reg.KND_TRu_FT_SHI u, 15, 0⟩
def Reg.KND_TRu_FT_NS (u : Nat) : Nat := 0xC01028 + 0x40 * u
def F.KND_TRu_FT_NS_NS (u : Nat) : RegField := ⟨Reg.KND_TRu_FT_NS u, 29, 0⟩
def Reg.KND_TRu_FT_FRAC (u : Nat) : Nat := 0xC0102C + 0x40 * u
def F.KND_TRu_FT_FRAC_FRAC (u : Nat) : RegField := ⟨Reg.KND_TRu_FT_FRAC u, 15, 0⟩
def Reg.KND_TRu_ORIG (u : Nat) : Nat := 0xC01030 + 0x40 * u
def F.KND_TRu_ORIG_SERIAL (u : Nat) : RegField := ⟨Reg.KND_TRu_ORIG u, 31, 0⟩
def Reg.KND_CUn_CFG (n : Nat) : Nat := 0xC03000 + 0x20 * n
def F.KND_CUn_CFG_EN (n : Nat) : RegField := ⟨Reg.KND_CUn_CFG n, 31, 31⟩
def F.KND_CUn_CFG_TYPE (n : Nat) : RegField := ⟨Reg.KND_CUn_CFG n, 30, 30⟩
def F.KND_CUn_CFG_DIR (n : Nat) : RegField := ⟨Reg.KND_CUn_CFG n, 29, 28⟩
def F.KND_CUn_CFG_TAP (n : Nat) : RegField := ⟨Reg.KND_CUn_CFG n, 27, 27⟩
def F.KND_CUn_CFG_TRIG (n : Nat) : RegField := ⟨Reg.KND_CUn_CFG n, 21, 16⟩
def F.KND_CUn_CFG_CH (n : Nat) : RegField := ⟨Reg.KND_CUn_CFG n, 12, 0⟩
def Reg.KND_CUn_THR (n : Nat) : Nat := 0xC03004 + 0x20 * n
def F.KND_CUn_THR_THR (n : Nat) : RegField := ⟨Reg.KND_CUn_THR n, 23, 0⟩
def Reg.KND_CUn_HYST (n : Nat) : Nat := 0xC03008 + 0x20 * n
def F.KND_CUn_HYST_HYST (n : Nat) : RegField := ⟨Reg.KND_CUn_HYST n, 23, 0⟩
def Reg.KND_CUn_SPAN (n : Nat) : Nat := 0xC0300C + 0x20 * n
def F.KND_CUn_SPAN_SPAN (n : Nat) : RegField := ⟨Reg.KND_CUn_SPAN n, 15, 0⟩
def Reg.KND_MKm_CFG (m : Nat) : Nat := 0xC04000 + 0x10 * m
def F.KND_MKm_CFG_OVLFAIL (m : Nat) : RegField := ⟨Reg.KND_MKm_CFG m, 31, 31⟩
def F.KND_MKm_CFG_MTRIG_EN (m : Nat) : RegField := ⟨Reg.KND_MKm_CFG m, 30, 30⟩
def F.KND_MKm_CFG_MTRIG (m : Nat) : RegField := ⟨Reg.KND_MKm_CFG m, 29, 24⟩
def F.KND_MKm_CFG_NPTS (m : Nat) : RegField := ⟨Reg.KND_MKm_CFG m, 12, 0⟩
def Reg.KND_MKm_STEP (m : Nat) : Nat := 0xC04004 + 0x10 * m
def F.KND_MKm_STEP_STEP (m : Nat) : RegField := ⟨Reg.KND_MKm_STEP m, 15, 0⟩
def Reg.KND_SK_CMD : Nat := 0xC05000
def F.KND_SK_CMD_START : RegField := ⟨Reg.KND_SK_CMD, 31, 31⟩
def F.KND_SK_CMD_APPLY : RegField := ⟨Reg.KND_SK_CMD, 30, 30⟩
def F.KND_SK_CMD_ABORT : RegField := ⟨Reg.KND_SK_CMD, 29, 29⟩
def Reg.KND_SK_SEL : Nat := 0xC05004
def F.KND_SK_SEL_LANES : RegField := ⟨Reg.KND_SK_SEL, 31, 16⟩
def F.KND_SK_SEL_CLUSTERS : RegField := ⟨Reg.KND_SK_SEL, 11, 0⟩
def Reg.KND_SK_CFG : Nat := 0xC05008
def F.KND_SK_CFG_NP : RegField := ⟨Reg.KND_SK_CFG, 31, 24⟩
def Reg.KND_SK_NCFG : Nat := 0xC0500C
def F.KND_SK_NCFG_NCFG : RegField := ⟨Reg.KND_SK_NCFG, 31, 0⟩
def Reg.KND_SK_STAT : Nat := 0xC05010
def F.KND_SK_STAT_PHASE : RegField := ⟨Reg.KND_SK_STAT, 31, 29⟩
def F.KND_SK_STAT_RES : RegField := ⟨Reg.KND_SK_STAT, 23, 16⟩
def F.KND_SK_STAT_COUNT : RegField := ⟨Reg.KND_SK_STAT, 15, 0⟩
def Reg.KND_SK_TICK_LO : Nat := 0xC05014
def F.KND_SK_TICK_LO_TICK : RegField := ⟨Reg.KND_SK_TICK_LO, 31, 0⟩
def Reg.KND_SK_TICK_HI : Nat := 0xC05018
def F.KND_SK_TICK_HI_TICK : RegField := ⟨Reg.KND_SK_TICK_HI, 31, 0⟩
def Reg.KND_SET (k e : Nat) : Nat := 0xC10000 + 0x400 * k + 0x4 * e
def F.KND_SET_V (k e : Nat) : RegField := ⟨Reg.KND_SET k e, 31, 31⟩
def F.KND_SET_MASK_EN (k e : Nat) : RegField := ⟨Reg.KND_SET k e, 30, 30⟩
def F.KND_SET_MASK (k e : Nat) : RegField := ⟨Reg.KND_SET k e, 19, 16⟩
def F.KND_SET_CH (k e : Nat) : RegField := ⟨Reg.KND_SET k e, 12, 0⟩
def Reg.KND_SK_CHc (c : Nat) : Nat := 0xC20000 + 0x4 * c
def F.KND_SK_CHc_S (c : Nat) : RegField := ⟨Reg.KND_SK_CHc c, 31, 0⟩
def Reg.KND_SK_SRCs (s : Nat) : Nat := 0xC30000 + 0x4 * s
def F.KND_SK_SRCs_S (s : Nat) : RegField := ⟨Reg.KND_SK_SRCs s, 31, 0⟩
def Reg.KND_MKm_LO (m i : Nat) : Nat := 0xC80000 + 0x8000 * m + 0x8 * i
def F.KND_MKm_LO_LOWER (m i : Nat) : RegField := ⟨Reg.KND_MKm_LO m i, 23, 0⟩
def Reg.KND_MKm_HI (m i : Nat) : Nat := 0xC80004 + 0x8000 * m + 0x8 * i
def F.KND_MKm_HI_UPPER (m i : Nat) : RegField := ⟨Reg.KND_MKm_HI m i, 23, 0⟩

/-! ### QMG (spec/14_cell_pool.md) -/

def Reg.QMG_POOL : Nat := 0xD00000
def F.QMG_POOL_FREE : RegField := ⟨Reg.QMG_POOL, 18, 0⟩
def Reg.QMG_POOL_LOW : Nat := 0xD00004
def F.QMG_POOL_LOW_LOW : RegField := ⟨Reg.QMG_POOL_LOW, 18, 0⟩
def Reg.QMG_RESERVE : Nat := 0xD00008
def F.QMG_RESERVE_RESV : RegField := ⟨Reg.QMG_RESERVE, 18, 0⟩
def Reg.QMG_SPILL : Nat := 0xD0000C
def F.QMG_SPILL_EN : RegField := ⟨Reg.QMG_SPILL, 31, 31⟩
def F.QMG_SPILL_FREE_LO : RegField := ⟨Reg.QMG_SPILL, 18, 0⟩
def Reg.QMG_BL_CFG : Nat := 0xD00010
def F.QMG_BL_CFG_EN : RegField := ⟨Reg.QMG_BL_CFG, 31, 31⟩
def F.QMG_BL_CFG_WIPE : RegField := ⟨Reg.QMG_BL_CFG, 30, 30⟩
def F.QMG_BL_CFG_SIZE : RegField := ⟨Reg.QMG_BL_CFG, 4, 0⟩
def Reg.QMG_BL_HIST : Nat := 0xD00014
def F.QMG_BL_HIST_HIST : RegField := ⟨Reg.QMG_BL_HIST, 15, 0⟩
def Reg.QMG_BL_STAT : Nat := 0xD00018
def F.QMG_BL_STAT_READY : RegField := ⟨Reg.QMG_BL_STAT, 31, 31⟩
def F.QMG_BL_STAT_FULL : RegField := ⟨Reg.QMG_BL_STAT, 30, 30⟩
def F.QMG_BL_STAT_FREE_BLK : RegField := ⟨Reg.QMG_BL_STAT, 22, 0⟩
def Reg.QMG_ECC : Nat := 0xD0001C
def F.QMG_ECC_DOUBLE : RegField := ⟨Reg.QMG_ECC, 31, 16⟩
def F.QMG_ECC_SINGLE : RegField := ⟨Reg.QMG_ECC, 15, 0⟩
def Reg.QMG_FLUSH : Nat := 0xD00020
def F.QMG_FLUSH_REQ : RegField := ⟨Reg.QMG_FLUSH, 31, 31⟩
def F.QMG_FLUSH_FORCE : RegField := ⟨Reg.QMG_FLUSH, 30, 30⟩
def F.QMG_FLUSH_Q : RegField := ⟨Reg.QMG_FLUSH, 11, 0⟩
def Reg.QMG_FLUSH_STAT : Nat := 0xD00024
def F.QMG_FLUSH_STAT_PENDING : RegField := ⟨Reg.QMG_FLUSH_STAT, 31, 31⟩
def F.QMG_FLUSH_STAT_Q : RegField := ⟨Reg.QMG_FLUSH_STAT, 11, 0⟩
def Reg.QMG_HWn_CFG (n : Nat) : Nat := 0xD00100 + 0x10 * n
def F.QMG_HWn_CFG_EN (n : Nat) : RegField := ⟨Reg.QMG_HWn_CFG n, 31, 31⟩
def F.QMG_HWn_CFG_Q (n : Nat) : RegField := ⟨Reg.QMG_HWn_CFG n, 11, 0⟩
def Reg.QMG_HWn_DATA (n : Nat) : Nat := 0xD00104 + 0x10 * n
def F.QMG_HWn_DATA_DATA (n : Nat) : RegField := ⟨Reg.QMG_HWn_DATA n, 31, 0⟩
def Reg.QMG_HWn_STAT (n : Nat) : Nat := 0xD00108 + 0x10 * n
def F.QMG_HWn_STAT_EMPTY (n : Nat) : RegField := ⟨Reg.QMG_HWn_STAT n, 31, 31⟩
def F.QMG_HWn_STAT_UNDERRUN (n : Nat) : RegField := ⟨Reg.QMG_HWn_STAT n, 30, 30⟩
def F.QMG_HWn_STAT_EOP (n : Nat) : RegField := ⟨Reg.QMG_HWn_STAT n, 29, 29⟩
def F.QMG_HWn_STAT_LEFT (n : Nat) : RegField := ⟨Reg.QMG_HWn_STAT n, 15, 0⟩
def Reg.QMG_DEEP_MAP (i : Nat) : Nat := 0xD00400 + 0x4 * i
def F.QMG_DEEP_MAP_DEEP (i : Nat) : RegField := ⟨Reg.QMG_DEEP_MAP i, 31, 0⟩
def Reg.QMG_Qq_CFG (q : Nat) : Nat := 0xD10000 + 0x20 * q
def F.QMG_Qq_CFG_EN (q : Nat) : RegField := ⟨Reg.QMG_Qq_CFG q, 31, 31⟩
def F.QMG_Qq_CFG_SPILL (q : Nat) : RegField := ⟨Reg.QMG_Qq_CFG q, 30, 30⟩
def F.QMG_Qq_CFG_CONS (q : Nat) : RegField := ⟨Reg.QMG_Qq_CFG q, 27, 24⟩
def F.QMG_Qq_CFG_POOLMAX (q : Nat) : RegField := ⟨Reg.QMG_Qq_CFG q, 18, 0⟩
def Reg.QMG_Qq_LIMIT (q : Nat) : Nat := 0xD10004 + 0x20 * q
def F.QMG_Qq_LIMIT_LIMIT (q : Nat) : RegField := ⟨Reg.QMG_Qq_LIMIT q, 27, 0⟩
def Reg.QMG_Qq_HI (q : Nat) : Nat := 0xD10008 + 0x20 * q
def F.QMG_Qq_HI_HI (q : Nat) : RegField := ⟨Reg.QMG_Qq_HI q, 27, 0⟩
def Reg.QMG_Qq_LO (q : Nat) : Nat := 0xD1000C + 0x20 * q
def F.QMG_Qq_LO_LO (q : Nat) : RegField := ⟨Reg.QMG_Qq_LO q, 27, 0⟩
def Reg.QMG_Qq_DEPTH (q : Nat) : Nat := 0xD10010 + 0x20 * q
def F.QMG_Qq_DEPTH_DEPTH (q : Nat) : RegField := ⟨Reg.QMG_Qq_DEPTH q, 27, 0⟩
def Reg.QMG_Qq_POOLD (q : Nat) : Nat := 0xD10014 + 0x20 * q
def F.QMG_Qq_POOLD_POOLD (q : Nat) : RegField := ⟨Reg.QMG_Qq_POOLD q, 18, 0⟩
def Reg.QMG_Qq_STAT (q : Nat) : Nat := 0xD10018 + 0x20 * q
def F.QMG_Qq_STAT_DEEP (q : Nat) : RegField := ⟨Reg.QMG_Qq_STAT q, 31, 31⟩
def F.QMG_Qq_STAT_WAIT (q : Nat) : RegField := ⟨Reg.QMG_Qq_STAT q, 30, 30⟩
def F.QMG_Qq_STAT_FLUSHING (q : Nat) : RegField := ⟨Reg.QMG_Qq_STAT q, 29, 29⟩
def F.QMG_Qq_STAT_BEGUN (q : Nat) : RegField := ⟨Reg.QMG_Qq_STAT q, 28, 28⟩
def F.QMG_Qq_STAT_REFUSED (q : Nat) : RegField := ⟨Reg.QMG_Qq_STAT q, 15, 0⟩
def Reg.QMG_Qq_ITEMS (q : Nat) : Nat := 0xD1001C + 0x20 * q
def F.QMG_Qq_ITEMS_ITEMS (q : Nat) : RegField := ⟨Reg.QMG_Qq_ITEMS q, 31, 0⟩

/-! ### ARB (spec/15_arbitration.md) -/

def Reg.ARB_STARVE : Nat := 0xE00000
def F.ARB_STARVE_FLAG : RegField := ⟨Reg.ARB_STARVE, 15, 0⟩
def Reg.ARB_STARVE_EN : Nat := 0xE00004
def F.ARB_STARVE_EN_EN : RegField := ⟨Reg.ARB_STARVE_EN, 15, 0⟩
def Reg.ARB_RQr_CFG (r : Nat) : Nat := 0xE00100 + 0x10 * r
def F.ARB_RQr_CFG_PRIV (r : Nat) : RegField := ⟨Reg.ARB_RQr_CFG r, 31, 31⟩
def F.ARB_RQr_CFG_LEVEL (r : Nat) : RegField := ⟨Reg.ARB_RQr_CFG r, 18, 16⟩
def F.ARB_RQr_CFG_BURST (r : Nat) : RegField := ⟨Reg.ARB_RQr_CFG r, 15, 8⟩
def Reg.ARB_RQr_STARVE (r : Nat) : Nat := 0xE00104 + 0x10 * r
def F.ARB_RQr_STARVE_LIMIT (r : Nat) : RegField := ⟨Reg.ARB_RQr_STARVE r, 15, 0⟩
def Reg.ARB_RQr_WMAX (r : Nat) : Nat := 0xE00108 + 0x10 * r
def F.ARB_RQr_WMAX_BANK (r : Nat) : RegField := ⟨Reg.ARB_RQr_WMAX r, 31, 28⟩
def F.ARB_RQr_WMAX_WAIT (r : Nat) : RegField := ⟨Reg.ARB_RQr_WMAX r, 15, 0⟩
def Reg.ARB_RQr_GRANTS (r : Nat) : Nat := 0xE0010C + 0x10 * r
def F.ARB_RQr_GRANTS_BEATS (r : Nat) : RegField := ⟨Reg.ARB_RQr_GRANTS r, 31, 0⟩
def Reg.ARB_BKb_OWNER (b : Nat) : Nat := 0xE00400 + 0x10 * b
def F.ARB_BKb_OWNER_VALID (b : Nat) : RegField := ⟨Reg.ARB_BKb_OWNER b, 31, 31⟩
def F.ARB_BKb_OWNER_OWNER (b : Nat) : RegField := ⟨Reg.ARB_BKb_OWNER b, 3, 0⟩
def Reg.ARB_BKb_STALE (b : Nat) : Nat := 0xE00404 + 0x10 * b
def F.ARB_BKb_STALE_IDLE (b : Nat) : RegField := ⟨Reg.ARB_BKb_STALE b, 31, 0⟩
def Reg.ARB_BKb_BUSY (b : Nat) : Nat := 0xE00408 + 0x10 * b
def F.ARB_BKb_BUSY_BEATS (b : Nat) : RegField := ⟨Reg.ARB_BKb_BUSY b, 31, 0⟩

/-! ### PRS (spec/16_press.md) -/

def Reg.PRS_CTRL : Nat := 0xF00000
def F.PRS_CTRL_EN : RegField := ⟨Reg.PRS_CTRL, 31, 31⟩
def Reg.PRS_ENGn_STAT (n : Nat) : Nat := 0xF00100 + 0x20 * n
def F.PRS_ENGn_STAT_STATE (n : Nat) : RegField := ⟨Reg.PRS_ENGn_STAT n, 31, 29⟩
def F.PRS_ENGn_STAT_OPEN (n : Nat) : RegField := ⟨Reg.PRS_ENGn_STAT n, 20, 16⟩
def F.PRS_ENGn_STAT_LASTQ (n : Nat) : RegField := ⟨Reg.PRS_ENGn_STAT n, 11, 0⟩
def Reg.PRS_ENGn_IN (n : Nat) : Nat := 0xF00104 + 0x20 * n
def F.PRS_ENGn_IN_KIB (n : Nat) : RegField := ⟨Reg.PRS_ENGn_IN n, 31, 0⟩
def Reg.PRS_ENGn_OUT (n : Nat) : Nat := 0xF00108 + 0x20 * n
def F.PRS_ENGn_OUT_KIB (n : Nat) : RegField := ⟨Reg.PRS_ENGn_OUT n, 31, 0⟩
def Reg.PRS_ENGn_BRQ (n : Nat) : Nat := 0xF0010C + 0x20 * n
def F.PRS_ENGn_BRQ_COUNT (n : Nat) : RegField := ⟨Reg.PRS_ENGn_BRQ n, 31, 0⟩
def Reg.PRS_ENGn_FAIL (n : Nat) : Nat := 0xF00110 + 0x20 * n
def F.PRS_ENGn_FAIL_CODE (n : Nat) : RegField := ⟨Reg.PRS_ENGn_FAIL n, 31, 24⟩
def F.PRS_ENGn_FAIL_COUNT (n : Nat) : RegField := ⟨Reg.PRS_ENGn_FAIL n, 15, 0⟩
def Reg.PRS_INFn_STAT (n : Nat) : Nat := 0xF00200 + 0x20 * n
def F.PRS_INFn_STAT_BUSY (n : Nat) : RegField := ⟨Reg.PRS_INFn_STAT n, 31, 31⟩
def F.PRS_INFn_STAT_VERIFY (n : Nat) : RegField := ⟨Reg.PRS_INFn_STAT n, 30, 30⟩
def F.PRS_INFn_STAT_CODE (n : Nat) : RegField := ⟨Reg.PRS_INFn_STAT n, 23, 16⟩
def F.PRS_INFn_STAT_FAULTS (n : Nat) : RegField := ⟨Reg.PRS_INFn_STAT n, 15, 0⟩
def Reg.PRS_INFn_DONE (n : Nat) : Nat := 0xF00204 + 0x20 * n
def F.PRS_INFn_DONE_RETR (n : Nat) : RegField := ⟨Reg.PRS_INFn_DONE n, 31, 16⟩
def F.PRS_INFn_DONE_VER (n : Nat) : RegField := ⟨Reg.PRS_INFn_DONE n, 15, 0⟩
def Reg.PRS_Qq_CFG (q : Nat) : Nat := 0xF10000 + 0x8 * q
def F.PRS_Qq_CFG_MAXAGE (q : Nat) : RegField := ⟨Reg.PRS_Qq_CFG q, 31, 16⟩
def F.PRS_Qq_CFG_TARGET (q : Nat) : RegField := ⟨Reg.PRS_Qq_CFG q, 15, 8⟩
def F.PRS_Qq_CFG_PRE (q : Nat) : RegField := ⟨Reg.PRS_Qq_CFG q, 7, 6⟩
def F.PRS_Qq_CFG_TABLES (q : Nat) : RegField := ⟨Reg.PRS_Qq_CFG q, 5, 4⟩
def F.PRS_Qq_CFG_LEVEL (q : Nat) : RegField := ⟨Reg.PRS_Qq_CFG q, 3, 0⟩
def Reg.PRS_Qq_OUT (q : Nat) : Nat := 0xF10004 + 0x8 * q
def F.PRS_Qq_OUT_EN2 (q : Nat) : RegField := ⟨Reg.PRS_Qq_OUT q, 31, 31⟩
def F.PRS_Qq_OUT_OUT2 (q : Nat) : RegField := ⟨Reg.PRS_Qq_OUT q, 27, 16⟩
def F.PRS_Qq_OUT_EN1 (q : Nat) : RegField := ⟨Reg.PRS_Qq_OUT q, 15, 15⟩
def F.PRS_Qq_OUT_OUT1 (q : Nat) : RegField := ⟨Reg.PRS_Qq_OUT q, 11, 0⟩

/-! ### CRD (spec/17_cord_archive.md) -/

def Reg.CRD_CTRL : Nat := 0x1000000
def F.CRD_CTRL_EN : RegField := ⟨Reg.CRD_CTRL, 31, 31⟩
def Reg.CRD_STAT : Nat := 0x1000004
def F.CRD_STAT_HEALTHY : RegField := ⟨Reg.CRD_STAT, 31, 31⟩
def F.CRD_STAT_FULL : RegField := ⟨Reg.CRD_STAT, 30, 30⟩
def F.CRD_STAT_RECOVERING : RegField := ⟨Reg.CRD_STAT, 29, 29⟩
def F.CRD_STAT_LIVE : RegField := ⟨Reg.CRD_STAT, 19, 16⟩
def F.CRD_STAT_ONLINE : RegField := ⟨Reg.CRD_STAT, 13, 0⟩
def Reg.CRD_EPOCH_CFG : Nat := 0x1000008
def F.CRD_EPOCH_CFG_EPOCH : RegField := ⟨Reg.CRD_EPOCH_CFG, 15, 0⟩
def Reg.CRD_UNIT_CFG : Nat := 0x100000C
def F.CRD_UNIT_CFG_RD_MAX : RegField := ⟨Reg.CRD_UNIT_CFG, 31, 16⟩
def F.CRD_UNIT_CFG_UNIT_AGE : RegField := ⟨Reg.CRD_UNIT_CFG, 15, 0⟩
def Reg.CRD_CMD_TO : Nat := 0x1000010
def F.CRD_CMD_TO_MS : RegField := ⟨Reg.CRD_CMD_TO, 15, 0⟩
def Reg.CRD_INFLIGHT : Nat := 0x1000014
def F.CRD_INFLIGHT_RD : RegField := ⟨Reg.CRD_INFLIGHT, 27, 16⟩
def F.CRD_INFLIGHT_ALL : RegField := ⟨Reg.CRD_INFLIGHT, 12, 0⟩
def Reg.CRD_GAPQ : Nat := 0x1000018
def F.CRD_GAPQ_EN : RegField := ⟨Reg.CRD_GAPQ, 31, 31⟩
def F.CRD_GAPQ_Q : RegField := ⟨Reg.CRD_GAPQ, 11, 0⟩
def Reg.CRD_EVQ : Nat := 0x100001C
def F.CRD_EVQ_EN : RegField := ⟨Reg.CRD_EVQ, 31, 31⟩
def F.CRD_EVQ_Q : RegField := ⟨Reg.CRD_EVQ, 11, 0⟩
def Reg.CRD_ERR : Nat := 0x1000020
def F.CRD_ERR_WFAIL : RegField := ⟨Reg.CRD_ERR, 31, 16⟩
def F.CRD_ERR_RFAIL : RegField := ⟨Reg.CRD_ERR, 15, 0⟩
def Reg.CRD_Cn_STAT (n : Nat) : Nat := 0x1000030 + 0x4 * n
def F.CRD_Cn_STAT_STATE (n : Nat) : RegField := ⟨Reg.CRD_Cn_STAT n, 31, 29⟩
def F.CRD_Cn_STAT_REASON (n : Nat) : RegField := ⟨Reg.CRD_Cn_STAT n, 28, 24⟩
def F.CRD_Cn_STAT_SQ (n : Nat) : RegField := ⟨Reg.CRD_Cn_STAT n, 21, 16⟩
def F.CRD_Cn_STAT_NS (n : Nat) : RegField := ⟨Reg.CRD_Cn_STAT n, 7, 0⟩
def Reg.CRD_EXT_NS : Nat := 0x1000040
def F.CRD_EXT_NS_CTRL : RegField := ⟨Reg.CRD_EXT_NS, 31, 30⟩
def F.CRD_EXT_NS_NSID : RegField := ⟨Reg.CRD_EXT_NS, 29, 0⟩
def Reg.CRD_EXT_LBA_LO : Nat := 0x1000044
def F.CRD_EXT_LBA_LO_LBA : RegField := ⟨Reg.CRD_EXT_LBA_LO, 31, 0⟩
def Reg.CRD_EXT_LBA_HI : Nat := 0x1000048
def F.CRD_EXT_LBA_HI_LBA : RegField := ⟨Reg.CRD_EXT_LBA_HI, 31, 0⟩
def Reg.CRD_EXT_LEN : Nat := 0x100004C
def F.CRD_EXT_LEN_LEN : RegField := ⟨Reg.CRD_EXT_LEN, 28, 0⟩
def Reg.CRD_EXT_CMD : Nat := 0x1000050
def F.CRD_EXT_CMD_ADD : RegField := ⟨Reg.CRD_EXT_CMD, 31, 31⟩
def F.CRD_EXT_CMD_REMOVE : RegField := ⟨Reg.CRD_EXT_CMD, 30, 30⟩
def F.CRD_EXT_CMD_FORMAT : RegField := ⟨Reg.CRD_EXT_CMD, 29, 29⟩
def F.CRD_EXT_CMD_X : RegField := ⟨Reg.CRD_EXT_CMD, 12, 0⟩
def Reg.CRD_EXT_RES : Nat := 0x1000054
def F.CRD_EXT_RES_CODE : RegField := ⟨Reg.CRD_EXT_RES, 31, 24⟩
def F.CRD_EXT_RES_X : RegField := ⟨Reg.CRD_EXT_RES, 12, 0⟩
def Reg.CRD_PIN_CMD : Nat := 0x1000060
def F.CRD_PIN_CMD_RELEASE : RegField := ⟨Reg.CRD_PIN_CMD, 31, 31⟩
def F.CRD_PIN_CMD_ENTRY : RegField := ⟨Reg.CRD_PIN_CMD, 7, 0⟩
def Reg.CRD_PIN_USED : Nat := 0x1000064
def F.CRD_PIN_USED_USED : RegField := ⟨Reg.CRD_PIN_USED, 8, 0⟩
def Reg.CRD_JOB_LOC_LO : Nat := 0x1000080
def F.CRD_JOB_LOC_LO_LOC : RegField := ⟨Reg.CRD_JOB_LOC_LO, 31, 0⟩
def Reg.CRD_JOB_LOC_HI : Nat := 0x1000084
def F.CRD_JOB_LOC_HI_LOC : RegField := ⟨Reg.CRD_JOB_LOC_HI, 31, 0⟩
def Reg.CRD_JOB_LEN : Nat := 0x1000088
def F.CRD_JOB_LEN_LEN : RegField := ⟨Reg.CRD_JOB_LEN, 18, 0⟩
def Reg.CRD_JOB_CTRL : Nat := 0x100008C
def F.CRD_JOB_CTRL_GO : RegField := ⟨Reg.CRD_JOB_CTRL, 31, 31⟩
def F.CRD_JOB_CTRL_KIND : RegField := ⟨Reg.CRD_JOB_CTRL, 30, 29⟩
def F.CRD_JOB_CTRL_STRICT : RegField := ⟨Reg.CRD_JOB_CTRL, 28, 28⟩
def F.CRD_JOB_CTRL_Q : RegField := ⟨Reg.CRD_JOB_CTRL, 11, 0⟩
def Reg.CRD_JOB_RES : Nat := 0x1000090
def F.CRD_JOB_RES_CODE : RegField := ⟨Reg.CRD_JOB_RES, 31, 24⟩
def F.CRD_JOB_RES_JOB : RegField := ⟨Reg.CRD_JOB_RES, 23, 0⟩
def Reg.CRD_Xx_STAT (x : Nat) : Nat := 0x1010000 + 0x10 * x
def F.CRD_Xx_STAT_STATE (x : Nat) : RegField := ⟨Reg.CRD_Xx_STAT x, 31, 29⟩
def F.CRD_Xx_STAT_CTRL (x : Nat) : RegField := ⟨Reg.CRD_Xx_STAT x, 28, 27⟩
def F.CRD_Xx_STAT_NS (x : Nat) : RegField := ⟨Reg.CRD_Xx_STAT x, 25, 19⟩
def F.CRD_Xx_STAT_FREESEG (x : Nat) : RegField := ⟨Reg.CRD_Xx_STAT x, 14, 0⟩
def Reg.CRD_Xx_LBA_LO (x : Nat) : Nat := 0x1010004 + 0x10 * x
def F.CRD_Xx_LBA_LO_LBA (x : Nat) : RegField := ⟨Reg.CRD_Xx_LBA_LO x, 31, 0⟩
def Reg.CRD_Xx_LBA_HI (x : Nat) : Nat := 0x1010008 + 0x10 * x
def F.CRD_Xx_LBA_HI_LBA (x : Nat) : RegField := ⟨Reg.CRD_Xx_LBA_HI x, 31, 0⟩
def Reg.CRD_Xx_LEN (x : Nat) : Nat := 0x101000C + 0x10 * x
def F.CRD_Xx_LEN_LEN (x : Nat) : RegField := ⟨Reg.CRD_Xx_LEN x, 28, 0⟩
def Reg.CRD_PINp_Q (p : Nat) : Nat := 0x1030000 + 0x20 * p
def F.CRD_PINp_Q_V (p : Nat) : RegField := ⟨Reg.CRD_PINp_Q p, 31, 31⟩
def F.CRD_PINp_Q_Q (p : Nat) : RegField := ⟨Reg.CRD_PINp_Q p, 11, 0⟩
def Reg.CRD_PINp_FIRST_LO (p : Nat) : Nat := 0x1030004 + 0x20 * p
def F.CRD_PINp_FIRST_LO_TICK (p : Nat) : RegField := ⟨Reg.CRD_PINp_FIRST_LO p, 31, 0⟩
def Reg.CRD_PINp_FIRST_HI (p : Nat) : Nat := 0x1030008 + 0x20 * p
def F.CRD_PINp_FIRST_HI_TICK (p : Nat) : RegField := ⟨Reg.CRD_PINp_FIRST_HI p, 31, 0⟩
def Reg.CRD_PINp_LAST_LO (p : Nat) : Nat := 0x103000C + 0x20 * p
def F.CRD_PINp_LAST_LO_TICK (p : Nat) : RegField := ⟨Reg.CRD_PINp_LAST_LO p, 31, 0⟩
def Reg.CRD_PINp_LAST_HI (p : Nat) : Nat := 0x1030010 + 0x20 * p
def F.CRD_PINp_LAST_HI_TICK (p : Nat) : RegField := ⟨Reg.CRD_PINp_LAST_HI p, 31, 0⟩

/-! ### UPL (spec/18_uplinks_and_host_ports.md) -/

def Reg.UPL_CTRL : Nat := 0x1100000
def F.UPL_CTRL_EN : RegField := ⟨Reg.UPL_CTRL, 31, 31⟩
def F.UPL_CTRL_IPV6 : RegField := ⟨Reg.UPL_CTRL, 30, 30⟩
def F.UPL_CTRL_MTU : RegField := ⟨Reg.UPL_CTRL, 13, 0⟩
def Reg.UPL_Un_CFG (n : Nat) : Nat := 0x1100004 + 0x4 * n
def F.UPL_Un_CFG_EN (n : Nat) : RegField := ⟨Reg.UPL_Un_CFG n, 31, 31⟩
def F.UPL_Un_CFG_SPEED (n : Nat) : RegField := ⟨Reg.UPL_Un_CFG n, 30, 30⟩
def Reg.UPL_Un_STAT (n : Nat) : Nat := 0x110000C + 0x4 * n
def F.UPL_Un_STAT_LINK (n : Nat) : RegField := ⟨Reg.UPL_Un_STAT n, 31, 31⟩
def F.UPL_Un_STAT_MOD (n : Nat) : RegField := ⟨Reg.UPL_Un_STAT n, 30, 30⟩
def F.UPL_Un_STAT_CAPPED (n : Nat) : RegField := ⟨Reg.UPL_Un_STAT n, 29, 29⟩
def Reg.UPL_MAC_LO : Nat := 0x1100014
def F.UPL_MAC_LO_MAC : RegField := ⟨Reg.UPL_MAC_LO, 31, 0⟩
def Reg.UPL_MAC_HI : Nat := 0x1100018
def F.UPL_MAC_HI_MAC : RegField := ⟨Reg.UPL_MAC_HI, 15, 0⟩
def Reg.UPL_IP4 : Nat := 0x110001C
def F.UPL_IP4_IP : RegField := ⟨Reg.UPL_IP4, 31, 0⟩
def Reg.UPL_IP6 (i : Nat) : Nat := 0x1100020 + 0x4 * i
def F.UPL_IP6_IP (i : Nat) : RegField := ⟨Reg.UPL_IP6 i, 31, 0⟩
def Reg.UPL_HCP_PORT : Nat := 0x1100030
def F.UPL_HCP_PORT_PORT : RegField := ⟨Reg.UPL_HCP_PORT, 15, 0⟩
def Reg.UPL_KND_IP4 : Nat := 0x1100034
def F.UPL_KND_IP4_GRP : RegField := ⟨Reg.UPL_KND_IP4, 31, 0⟩
def Reg.UPL_KND_IP6 (i : Nat) : Nat := 0x1100038 + 0x4 * i
def F.UPL_KND_IP6_GRP (i : Nat) : RegField := ⟨Reg.UPL_KND_IP6 i, 31, 0⟩
def Reg.UPL_KND_PORT : Nat := 0x1100048
def F.UPL_KND_PORT_PORT : RegField := ⟨Reg.UPL_KND_PORT, 15, 0⟩
def Reg.UPL_GAPQ : Nat := 0x110004C
def F.UPL_GAPQ_EN : RegField := ⟨Reg.UPL_GAPQ, 31, 31⟩
def F.UPL_GAPQ_Q : RegField := ⟨Reg.UPL_GAPQ, 11, 0⟩
def Reg.UPL_EVQ : Nat := 0x1100050
def F.UPL_EVQ_EN : RegField := ⟨Reg.UPL_EVQ, 31, 31⟩
def F.UPL_EVQ_Q : RegField := ⟨Reg.UPL_EVQ, 11, 0⟩
def Reg.UPL_LRPTQ : Nat := 0x1100054
def F.UPL_LRPTQ_EN : RegField := ⟨Reg.UPL_LRPTQ, 31, 31⟩
def F.UPL_LRPTQ_Q : RegField := ⟨Reg.UPL_LRPTQ, 11, 0⟩
def Reg.UPL_HEALTH : Nat := 0x1100058
def F.UPL_HEALTH_HEALTHY : RegField := ⟨Reg.UPL_HEALTH, 31, 31⟩
def Reg.UPL_PRP_CNT : Nat := 0x110005C
def F.UPL_PRP_CNT_DUP : RegField := ⟨Reg.UPL_PRP_CNT, 31, 16⟩
def F.UPL_PRP_CNT_WRONG_LAN : RegField := ⟨Reg.UPL_PRP_CNT, 15, 0⟩
def Reg.UPL_LCH_Q : Nat := 0x1100060
def F.UPL_LCH_Q_Q : RegField := ⟨Reg.UPL_LCH_Q, 11, 0⟩
def Reg.UPL_LCH_SEC_LO : Nat := 0x1100064
def F.UPL_LCH_SEC_LO_SEC : RegField := ⟨Reg.UPL_LCH_SEC_LO, 31, 0⟩
def Reg.UPL_LCH_SEC_HI : Nat := 0x1100068
def F.UPL_LCH_SEC_HI_SEC : RegField := ⟨Reg.UPL_LCH_SEC_HI, 15, 0⟩
def Reg.UPL_LCH_NS : Nat := 0x110006C
def F.UPL_LCH_NS_NS : RegField := ⟨Reg.UPL_LCH_NS, 29, 0⟩
def Reg.UPL_LCH_CMD : Nat := 0x1100070
def F.UPL_LCH_CMD_COMMIT : RegField := ⟨Reg.UPL_LCH_CMD, 31, 31⟩
def F.UPL_LCH_CMD_LATE_OK : RegField := ⟨Reg.UPL_LCH_CMD, 30, 30⟩
def F.UPL_LCH_CMD_CANCEL : RegField := ⟨Reg.UPL_LCH_CMD, 29, 29⟩
def F.UPL_LCH_CMD_SLOT : RegField := ⟨Reg.UPL_LCH_CMD, 5, 0⟩
def Reg.UPL_LCH_RESULT : Nat := 0x1100074
def F.UPL_LCH_RESULT_CODE : RegField := ⟨Reg.UPL_LCH_RESULT, 31, 24⟩
def F.UPL_LCH_RESULT_SLOT : RegField := ⟨Reg.UPL_LCH_RESULT, 5, 0⟩
def Reg.UPL_HCP_CNT : Nat := 0x1100078
def F.UPL_HCP_CNT_BAD_TAG : RegField := ⟨Reg.UPL_HCP_CNT, 31, 16⟩
def F.UPL_HCP_CNT_REPLAY : RegField := ⟨Reg.UPL_HCP_CNT, 15, 0⟩
def Reg.UPL_Dd_MAC_LO (d : Nat) : Nat := 0x1101000 + 0x20 * d
def F.UPL_Dd_MAC_LO_MAC (d : Nat) : RegField := ⟨Reg.UPL_Dd_MAC_LO d, 31, 0⟩
def Reg.UPL_Dd_MAC_HI (d : Nat) : Nat := 0x1101004 + 0x20 * d
def F.UPL_Dd_MAC_HI_MAC (d : Nat) : RegField := ⟨Reg.UPL_Dd_MAC_HI d, 15, 0⟩
def Reg.UPL_Dd_IP (d i : Nat) : Nat := 0x1101008 + 0x20 * d + 0x4 * i
def F.UPL_Dd_IP_IP (d i : Nat) : RegField := ⟨Reg.UPL_Dd_IP d i, 31, 0⟩
def Reg.UPL_Dd_PORT (d : Nat) : Nat := 0x1101018 + 0x20 * d
def F.UPL_Dd_PORT_PORT (d : Nat) : RegField := ⟨Reg.UPL_Dd_PORT d, 15, 0⟩
def Reg.UPL_STREAM (m : Nat) : Nat := 0x1102000 + 0x4 * m
def F.UPL_STREAM_EN (m : Nat) : RegField := ⟨Reg.UPL_STREAM m, 31, 31⟩
def F.UPL_STREAM_LAUNCH (m : Nat) : RegField := ⟨Reg.UPL_STREAM m, 30, 30⟩
def F.UPL_STREAM_PRIO (m : Nat) : RegField := ⟨Reg.UPL_STREAM m, 29, 28⟩
def F.UPL_STREAM_DEST (m : Nat) : RegField := ⟨Reg.UPL_STREAM m, 27, 24⟩
def F.UPL_STREAM_Q (m : Nat) : RegField := ⟨Reg.UPL_STREAM m, 11, 0⟩

/-! ### GPIO (spec/18_uplinks_and_host_ports.md) -/

def Reg.GPIO_IN : Nat := 0x1200000
def F.GPIO_IN_IN : RegField := ⟨Reg.GPIO_IN, 31, 0⟩
def Reg.GPIO_OUT : Nat := 0x1200004
def F.GPIO_OUT_OUT : RegField := ⟨Reg.GPIO_OUT, 31, 0⟩
def Reg.GPIO_OUT_SET : Nat := 0x1200008
def F.GPIO_OUT_SET_OUT : RegField := ⟨Reg.GPIO_OUT_SET, 31, 0⟩
def Reg.GPIO_OUT_CLR : Nat := 0x120000C
def F.GPIO_OUT_CLR_OUT : RegField := ⟨Reg.GPIO_OUT_CLR, 31, 0⟩
def Reg.GPIO_SAFE_ACT : Nat := 0x1200010
def F.GPIO_SAFE_ACT_SAFE : RegField := ⟨Reg.GPIO_SAFE_ACT, 31, 0⟩
def Reg.SPIM_m_CTRL (m : Nat) : Nat := 0x1200100 + 0x20 * m
def F.SPIM_m_CTRL_EN (m : Nat) : RegField := ⟨Reg.SPIM_m_CTRL m, 31, 31⟩
def Reg.SPIM_m_STAT (m : Nat) : Nat := 0x1200104 + 0x20 * m
def F.SPIM_m_STAT_DONE (m : Nat) : RegField := ⟨Reg.SPIM_m_STAT m, 31, 16⟩
def F.SPIM_m_STAT_LATE (m : Nat) : RegField := ⟨Reg.SPIM_m_STAT m, 15, 8⟩
def F.SPIM_m_STAT_REFUSED (m : Nat) : RegField := ⟨Reg.SPIM_m_STAT m, 7, 0⟩
def Reg.GPIO_PINn_CFG (n : Nat) : Nat := 0x1200200 + 0x4 * n
def F.GPIO_PINn_CFG_OWNER (n : Nat) : RegField := ⟨Reg.GPIO_PINn_CFG n, 18, 16⟩
def F.GPIO_PINn_CFG_PULL (n : Nat) : RegField := ⟨Reg.GPIO_PINn_CFG n, 11, 10⟩
def F.GPIO_PINn_CFG_OD (n : Nat) : RegField := ⟨Reg.GPIO_PINn_CFG n, 9, 9⟩
def F.GPIO_PINn_CFG_DIR (n : Nat) : RegField := ⟨Reg.GPIO_PINn_CFG n, 8, 8⟩

/-! ### FNC (spec/19_umber.md) -/

def Reg.FNC_HIT : Nat := 0x1300000
def F.FNC_HIT_HIT : RegField := ⟨Reg.FNC_HIT, 6, 0⟩
def Reg.FNC_EXd (d : Nat) : Nat := 0x1300100 + 0x4 * d
def F.FNC_EXd_VMAX (d : Nat) : RegField := ⟨Reg.FNC_EXd d, 29, 16⟩
def F.FNC_EXd_IMAX (d : Nat) : RegField := ⟨Reg.FNC_EXd d, 5, 0⟩
def Reg.FNC_TXCAPi (i : Nat) : Nat := 0x1300200 + 0x4 * i
def F.FNC_TXCAPi_CAP (i : Nat) : RegField := ⟨Reg.FNC_TXCAPi i, 23, 0⟩
def Reg.FNC_RATE : Nat := 0x1300300
def F.FNC_RATE_PPM : RegField := ⟨Reg.FNC_RATE, 14, 0⟩
def Reg.FNC_STEP : Nat := 0x1300304
def F.FNC_STEP_MAX : RegField := ⟨Reg.FNC_STEP, 29, 0⟩
def Reg.FNC_GP_LVL : Nat := 0x1300400
def F.FNC_GP_LVL_LVL : RegField := ⟨Reg.FNC_GP_LVL, 31, 0⟩
def Reg.FNC_GP_Z : Nat := 0x1300404
def F.FNC_GP_Z_Z : RegField := ⟨Reg.FNC_GP_Z, 31, 0⟩
def Reg.FNC_SRr_CFG (r : Nat) : Nat := 0x1301000 + 0x20 * r
def F.FNC_SRr_CFG_V (r : Nat) : RegField := ⟨Reg.FNC_SRr_CFG r, 31, 31⟩
def Reg.FNC_SRr_SN (r : Nat) : Nat := 0x1301004 + 0x20 * r
def F.FNC_SRr_SN_SNCRC (r : Nat) : RegField := ⟨Reg.FNC_SRr_SN r, 31, 0⟩
def Reg.FNC_SRr_NSID (r : Nat) : Nat := 0x1301008 + 0x20 * r
def F.FNC_SRr_NSID_NSID (r : Nat) : RegField := ⟨Reg.FNC_SRr_NSID r, 31, 0⟩
def Reg.FNC_SRr_LBA_LO (r : Nat) : Nat := 0x130100C + 0x20 * r
def F.FNC_SRr_LBA_LO_LBA (r : Nat) : RegField := ⟨Reg.FNC_SRr_LBA_LO r, 31, 0⟩
def Reg.FNC_SRr_LBA_HI (r : Nat) : Nat := 0x1301010 + 0x20 * r
def F.FNC_SRr_LBA_HI_LBA (r : Nat) : RegField := ⟨Reg.FNC_SRr_LBA_HI r, 31, 0⟩
def Reg.FNC_SRr_LEN_LO (r : Nat) : Nat := 0x1301014 + 0x20 * r
def F.FNC_SRr_LEN_LO_LEN (r : Nat) : RegField := ⟨Reg.FNC_SRr_LEN_LO r, 31, 0⟩
def Reg.FNC_SRr_LEN_HI (r : Nat) : Nat := 0x1301018 + 0x20 * r
def F.FNC_SRr_LEN_HI_LEN (r : Nat) : RegField := ⟨Reg.FNC_SRr_LEN_HI r, 31, 0⟩

/-! ### CLK (spec/20_clocks_resets.md) -/

def Reg.CLK_STAT : Nat := 0x1400000
def F.CLK_STAT_XREF_OK : RegField := ⟨Reg.CLK_STAT, 31, 31⟩
def F.CLK_STAT_REF_OK : RegField := ⟨Reg.CLK_STAT, 30, 30⟩
def F.CLK_STAT_UXTAL_OK : RegField := ⟨Reg.CLK_STAT, 29, 29⟩
def F.CLK_STAT_CORE_LOCK : RegField := ⟨Reg.CLK_STAT, 28, 28⟩
def F.CLK_STAT_SMP_LOCK : RegField := ⟨Reg.CLK_STAT, 27, 27⟩
def F.CLK_STAT_ETH_LOCK : RegField := ⟨Reg.CLK_STAT, 26, 26⟩
def F.CLK_STAT_PCIE_LOCK : RegField := ⟨Reg.CLK_STAT, 25, 25⟩
def F.CLK_STAT_DDR_LOCK : RegField := ⟨Reg.CLK_STAT, 24, 24⟩
def F.CLK_STAT_CORE_HOLD : RegField := ⟨Reg.CLK_STAT, 23, 23⟩
def F.CLK_STAT_UMB_RC : RegField := ⟨Reg.CLK_STAT, 22, 22⟩
def F.CLK_STAT_XREF_25 : RegField := ⟨Reg.CLK_STAT, 0, 0⟩
def Reg.CLK_REF_PPM : Nat := 0x1400004
def F.CLK_REF_PPM_PPM : RegField := ⟨Reg.CLK_REF_PPM, 15, 0⟩
def Reg.RST_CAUSE : Nat := 0x1400008
def F.RST_CAUSE_JTAG : RegField := ⟨Reg.RST_CAUSE, 3, 3⟩
def F.RST_CAUSE_THERMAL : RegField := ⟨Reg.RST_CAUSE, 2, 2⟩
def F.RST_CAUSE_PIN : RegField := ⟨Reg.RST_CAUSE, 1, 1⟩
def F.RST_CAUSE_POR : RegField := ⟨Reg.RST_CAUSE, 0, 0⟩
def Reg.RST_DOM : Nat := 0x140000C
def F.RST_DOM_LANE : RegField := ⟨Reg.RST_DOM, 31, 16⟩
def F.RST_DOM_SLT : RegField := ⟨Reg.RST_DOM, 10, 10⟩
def F.RST_DOM_UP : RegField := ⟨Reg.RST_DOM, 9, 8⟩
def F.RST_DOM_PCIE : RegField := ⟨Reg.RST_DOM, 7, 7⟩
def F.RST_DOM_DDR : RegField := ⟨Reg.RST_DOM, 6, 6⟩
def F.RST_DOM_TL : RegField := ⟨Reg.RST_DOM, 5, 2⟩
def F.RST_DOM_SMP : RegField := ⟨Reg.RST_DOM, 1, 1⟩
def F.RST_DOM_STK : RegField := ⟨Reg.RST_DOM, 0, 0⟩
def Reg.RST_REQ : Nat := 0x1400010
def F.RST_REQ_SLT : RegField := ⟨Reg.RST_REQ, 10, 10⟩
def F.RST_REQ_UP : RegField := ⟨Reg.RST_REQ, 9, 8⟩
def F.RST_REQ_PCIE : RegField := ⟨Reg.RST_REQ, 7, 7⟩
def F.RST_REQ_DDR : RegField := ⟨Reg.RST_REQ, 6, 6⟩
def Reg.CLK_XDROP : Nat := 0x1400014
def F.CLK_XDROP_DROP : RegField := ⟨Reg.CLK_XDROP, 31, 0⟩

end Sys2Proof.Machine
end

