-- ==== Sys2Proof/Machine/Tab.lean ====
section
/-!
DEFINITION. Sparse tables: reading, writing and their canonical form (keys strictly rising, no entry equal
to what an unlisted key reads as). `d` is what an unlisted key reads as.
-/
namespace Sys2Proof.Machine

open Sys2Proof

/-- The value of key `a`. -/
def tabGet {α : Type} (d : Nat → α) : Tab α → Nat → α
  | [], a => d a
  | (k, v) :: r, a => if a = k then v else tabGet d r a

/-- Remove every entry of key `a`. -/
def tabErase {α : Type} : Tab α → Nat → Tab α
  | [], _ => []
  | (k, v) :: r, a => if k = a then tabErase r a else (k, v) :: tabErase r a

/-- Put an entry in front of the first larger key. -/
def tabInsert {α : Type} : Tab α → Nat → α → Tab α
  | [], a, v => [(a, v)]
  | (k, w) :: r, a, v => if a < k then (a, v) :: (k, w) :: r else (k, w) :: tabInsert r a v

/-- Give key `a` the value `v`: writing what an unlisted key reads as removes the entry. -/
def tabSet {α : Type} [DecidableEq α] (d : Nat → α) (t : Tab α) (a : Nat) (v : α) : Tab α :=
  if v = d a then tabErase t a else tabInsert (tabErase t a) a v

/-- Change the value of key `a`. -/
def tabMod {α : Type} [DecidableEq α] (d : Nat → α) (t : Tab α) (a : Nat) (f : α → α) : Tab α :=
  tabSet d t a (f (tabGet d t a))

/-- Keys strictly rise. -/
def tabSorted {α : Type} : Tab α → Bool
  | [] => true
  | (_, _) :: [] => true
  | (k, _) :: (l, w) :: r => decide (k < l) && tabSorted ((l, w) :: r)

/-- No entry equals what its key reads as unlisted. -/
def tabSparse {α : Type} [DecidableEq α] (d : Nat → α) : Tab α → Bool
  | [] => true
  | (k, v) :: r => decide (v ≠ d k) && tabSparse d r

/-- The canonical form. -/
def tabWf {α : Type} [DecidableEq α] (d : Nat → α) (t : Tab α) : Bool := tabSorted t && tabSparse d t

end Sys2Proof.Machine
end

