-- ==== Sys2Proof/Machine/Mem.lean ====
section
/-!
DEFINITION. The register space: the row of the register tables that names an address, the reset value of
every address (R3, R540), and reading and writing registers and fields as the hub itself does (without access
codes).
-/
namespace Sys2Proof.Machine

open Sys2Proof

/-- The instance of a row that byte offset `d` names, counted through its indexes. -/
def rowInst : List (Nat × Nat) → Nat → Nat → Option Nat
  | [], d, i => if d = 0 then some i else none
  | (c, st) :: r, d, i => if d / st < c then rowInst r (d % st) (i * c + d / st) else none

/-- The first row of a list that names address `a`, with the instance. -/
def findRow : List RegRow → Nat → Option (RegRow × Nat)
  | [], _ => none
  | r :: rs, a =>
    if r.base ≤ a then
      match rowInst r.dims (a - r.base) 0 with
      | some i => some (r, i)
      | none => findRow rs a
    else findRow rs a

/-- The register table rows of the block that owns address `a` (R537). -/
def blockRows (a : Nat) : List RegRow :=
  if a < 0x100000 then
    if a < 0x10000 then regRowsHUB else if a < 0x20000 then regRowsUMB else if a < 0x30000 then regRowsSTK else []
  else match a / 0x100000 with
    | 1 => regRowsKLN
    | 4 => regRowsAFE
    | 5 => regRowsCNV
    | 6 => regRowsCAL
    | 7 => regRowsCHR
    | 8 => regRowsFLK
    | 9 => regRowsPTN
    | 10 => regRowsPTP
    | 11 => regRowsEDG
    | 12 => regRowsKND
    | 13 => regRowsQMG
    | 14 => regRowsARB
    | 15 => regRowsPRS
    | 16 => regRowsCRD
    | 17 => regRowsUPL
    | 18 => regRowsGPIO
    | 19 => regRowsFNC
    | 20 => regRowsCLK
    | _ => []

/-- The row and instance of a register address; the private copies of R541 share the row of their register. -/
def rowOf (a : Nat) : Option (RegRow × Nat) := findRow (blockRows (a % 0x100000000)) (a % 0x100000000)

/-- What a row's instance holds after reset (R3, R540). -/
def rstWord (r : Rst) (inst addr : Nat) : Word :=
  match r with
  | .val w => BitVec.ofNat 32 w
  | .factory w m => (Config.factory addr &&& BitVec.ofNat 32 m) ||| BitVec.ofNat 32 w
  | .table ws => BitVec.ofNat 32 (ws.getD inst 0)
  | .edgeLat => if inst < 16 then Config.factory addr else 0x000C0000#32

/-- What an address of the register space holds after reset; an address without a row (a window) holds zero. -/
def resetWord (a : Nat) : Word :=
  match rowOf a with
  | some (r, i) => rstWord r.rst i (a % 0x100000000)
  | none => 0#32

/-- The canonical form of the register space: addresses strictly rise, and no entry equals what its address reads as unlisted. -/
def Memory.wf (t : Tab Word) : Bool := tabWf resetWord t

/-- The word stored at an address. -/
def State.rd (s : State) (a : Nat) : Word := tabGet resetWord s.mem a

/-- Store a word at an address. -/
def State.wr (s : State) (a : Nat) (w : Word) : State := { s with mem := tabSet resetWord s.mem a w }

/-- The bits of a field in a word. -/
def fieldOf (w : Word) (hi lo : Nat) : Nat := (w.toNat >>> lo) % 2 ^ (hi + 1 - lo)

/-- A word with a field replaced. -/
def setField (w : Word) (hi lo v : Nat) : Word :=
  BitVec.ofNat 32 (w.toNat - (fieldOf w hi lo) * 2 ^ lo + (v % 2 ^ (hi + 1 - lo)) * 2 ^ lo)

/-- The value of a field, unsigned. -/
def State.f (s : State) (x : RegField) : Nat := fieldOf (s.rd x.addr) x.hi x.lo

/-- A number of `n` bits read as two's complement. -/
def signedOf (n : Nat) (v : Nat) : Int :=
  if v % 2 ^ n < 2 ^ (n - 1) then ((v % 2 ^ n : Nat) : Int) else ((v % 2 ^ n : Nat) : Int) - ((2 ^ n : Nat) : Int)

/-- A whole number as `n` bits of two's complement. -/
def bitsOf (n : Nat) (v : Int) : Nat := (v % ((2 ^ n : Nat) : Int)).toNat

/-- The value of a field, signed. -/
def State.fs (s : State) (x : RegField) : Int := signedOf (x.hi + 1 - x.lo) (s.f x)

/-- A one-bit field. -/
def State.flag (s : State) (x : RegField) : Bool := s.f x == 1

/-- Give a field a value. -/
def State.wf (s : State) (x : RegField) (v : Nat) : State := s.wr x.addr (setField (s.rd x.addr) x.hi x.lo v)

/-- Give a one-bit field a value. -/
def State.wb (s : State) (x : RegField) (b : Bool) : State := s.wf x (if b then 1 else 0)

/-- Give a field a signed value. -/
def State.wfs (s : State) (x : RegField) (v : Int) : State := s.wf x (bitsOf (x.hi + 1 - x.lo) v)

/-- The largest value of a field. -/
def fieldMax (x : RegField) : Nat := 2 ^ (x.hi + 1 - x.lo) - 1

/-- Add to a counting field that saturates. -/
def State.bump (s : State) (x : RegField) (n : Nat) : State := s.wf x (min (s.f x + n) (fieldMax x))

/-- Add to a counting field that wraps. -/
def State.bumpWrap (s : State) (x : RegField) (n : Nat) : State := s.wf x (s.f x + n)

/-- Raise a high-water field to at least `n`. -/
def State.peak (s : State) (x : RegField) (n : Nat) : State := s.wf x (max (s.f x) (min n (fieldMax x)))

/-- A pair of LO and HI words as one number. -/
def State.f64 (s : State) (lo hi : RegField) : Nat := s.f lo + s.f hi * 2 ^ 32

/-- Write a number to a pair of LO and HI words in one cycle (R542). -/
def State.wf64 (s : State) (lo hi : RegField) (v : Nat) : State := (s.wf lo v).wf hi (v / 2 ^ 32)

/-- The address of a register in the private copy of master code `m` (R541). -/
def priv (m a : Nat) : Nat := a + 0x100000000 * m

/-- A field in the private copy of master code `m`. -/
def privF (m : Nat) (x : RegField) : RegField := { x with addr := priv m x.addr }

/-- The code of a master (R546): 1 Hub Control Protocol, 2 SPI slave, 3 Stoker, 4 Umber. -/
def masterCode : Master → Nat
  | .hcp => 1
  | .spis => 2
  | .stoker => 3
  | .umber => 4

end Sys2Proof.Machine
end

