-- ==== Sys2Proof/Machine/Ops.lean ====
section
/-!
DEFINITION. The operations every block shares: the tick and the hub clock read from the state, origin
objects of events, presenting an event record (R545 to R550, R21), and the output log.
-/
namespace Sys2Proof.Machine

open Sys2Proof

/-! ### Time -/

/-- One second in units of 2^-16 ns. -/
def secUnits : Nat := 65536000000000

/-- The tick rate N (R27). -/
def State.rate (s : State) : Nat := s.f F.KLN_TICK_CTRL_RATE

/-- Core cycles per tick. -/
def State.cycles (s : State) : Nat := s.f F.KLN_TICK_CYCLES_CYCLES

/-- KLN_TICK_STATE.STATE: 0 WAIT_TIME, 1 RUNNING, 2 HOLD, 3 STOPPED. -/
def State.genState (s : State) : Nat := s.f F.KLN_TICK_STATE_STATE

/-- R27: an integer from 1,000 to 100,000 that divides 800,000,000. -/
def validRate (n : Nat) : Bool := decide (1000 ≤ n) && decide (n ≤ 100000) && decide (800000000 % n = 0)

/-- The hub clock at the start of tick `t` (R30). -/
def boundaryClock (n t : Nat) : Nat := (t / n) * secUnits + (t % n) * secUnits / n

/-- The tick that holds hub clock value `c`. -/
def tickOfClock (n c : Nat) : Nat := (c / secUnits) * n + (c % secUnits) * n / secUnits

/-- The first tick that starts at or after hub clock value `c` (R37). -/
def tickAtOrAfter (n c : Nat) : Nat := (c / secUnits) * n + ((c % secUnits) * n + secUnits - 1) / secUnits

/-- The tick generator has issued a tick number that stands: RUNNING or HOLD. -/
def State.ticking (s : State) : Bool := s.genState == 1 || s.genState == 2

/-- Stoker is running: STK_STAT.STATE is RUNNING or TRIAL (R543). -/
def State.stokerUp (s : State) : Bool := decide (2 ≤ s.f F.STK_STAT_STATE)

/-- The first boundary that a setting written now reaches, when its write is not a timed one (R582). -/
def State.nextDue (s : State) : Nat := if s.tick.inTail then s.tick.num + 2 else s.tick.num + 1

/-- The rate correction r of the hub clock in 2^-40 (R307): PTP_RATE. -/
def State.rateCorr (s : State) : Int := s.fs F.PTP_RATE_RATE

/-- What the hub clock gains in `n` core cycles, in 2^-40 of its unit: 1.25 ns × (1 + r) each (R42, R307). -/
def State.clockGain (s : State) (n : Nat) : Nat := n * 81920 * (1099511627776 + s.rateCorr).toNat

/-- The hub clock goes on by `n` core cycles; what lies below its unit is kept. -/
def State.clockPass (s : State) (n : Nat) : State :=
  let a := s.tick.frac + s.clockGain n
  { s with tick.clock := s.tick.clock + a / 1099511627776, tick.frac := a % 1099511627776 }

/-- One core cycle passes (DESIGN CHOICE, log entry 1): the hub clock advances by 1.25 ns × (1 + r) and the cycle count of a
running tick by one; without a tick the cycles are counted all the same. -/
def State.idle (s : State) : State :=
  let run := s.genState == 1
  { s.clockPass 1 with tick.cyc := if run then s.tick.cyc + 1 else s.tick.cyc, tick.rest := if run then 0 else s.tick.rest + 1 }

/-- A row that stands at core cycle `c` of the tick comes: the cycles before it have passed. -/
def State.atCycle (s : State) (c : Nat) : State :=
  if s.genState == 1 && decide (s.tick.cyc < c) then { s.clockPass (c - s.tick.cyc) with tick.cyc := c } else s

/-- The generator waits, RUN is 1, the servo has made its first lock and the sample synthesiser is locked (R33). -/
def State.startReady (s : State) : Bool :=
  s.genState == 0 && s.f F.KLN_TICK_CTRL_RUN == 1 && s.tick.firstLock && s.f F.CLK_STAT_SMP_LOCK == 1

/-- The instant at which the generator's start condition came to hold is kept (R33). -/
def State.condNote (s : State) : State :=
  { s with tick.condAt := if s.startReady then some (s.tick.condAt.getD s.tick.clock) else none }

/-! ### Origins (R546) -/

def objChannel (c : Nat) : Nat := 0x2000 * 1 + c
def objPartner (p : Nat) : Nat := 0x2000 * 2 + p
def objLink (l : Nat) : Nat := 0x2000 * 3 + l
def objQueue (q : Nat) : Nat := 0x2000 * 4 + q
def objUnit (u : Nat) : Nat := 0x2000 * 5 + u
def objMaster (m : Nat) : Nat := 0x2000 * 6 + m

/-- Block code of the block that owns an address (R537). -/
def blockOf (a : Nat) : Nat :=
  if a < 0x10000 then 0x00 else if a < 0x20000 then 0x01 else if a < 0x30000 then 0x02
  else if a < 0x400000 then 0x03 else if a / 0x100000 < 0x15 then a / 0x100000 else 0

/-! ### Events -/

/-- TYPE of an event (R547, R550): stated for the HUB block's events and SUPPLY_LOW, the dictionary's for the rest. -/
def eventTypeOf : EvName → Nat
  | .BUS_ADDR => 0x0001
  | .EVENT_OVERFLOW => 0x0002
  | .COMMON_CAUSE => 0x0003
  | .COMMON_CAUSE_END => 0x0004
  | .ACCESS_LOCKED => 0x0005
  | .FENCE_WRITE => 0x0006
  | .SUPPLY_LOW => 0x0931
  | n => Config.eventType (eventIndex n)

/-- SEV of an event (R547, R550). -/
def eventSevOf : EvName → Nat
  | .BUS_ADDR => 1
  | .EVENT_OVERFLOW => 2
  | .COMMON_CAUSE => 1
  | .COMMON_CAUSE_END => 0
  | .ACCESS_LOCKED => 1
  | .FENCE_WRITE => 1
  | n => Config.eventSev (eventIndex n)

/-- Entries of the event queue an event takes (R548): the HUB block's details fit one record. -/
def eventEntries : EvName → Nat
  | .BUS_ADDR | .EVENT_OVERFLOW | .COMMON_CAUSE | .COMMON_CAUSE_END | .ACCESS_LOCKED | .FENCE_WRITE => 1
  | n => if Config.eventLong (eventIndex n) then 2 else 1

/-- Bit of HUB_INT_RAW that recording an event sets (R551). -/
def eventLatch : EvName → Option RegField
  | .STEWARD_TAKEN | .STEWARD_YIELDED => some F.HUB_INT_RAW_STEWARD
  | .PARTNER_UP | .PARTNER_LOST => some F.HUB_INT_RAW_PARTNER
  | .KND_MASK_FAIL => some F.HUB_INT_RAW_MASK
  | .KILN_FAULT | .KILN_MISS | .KILN_PARITY => some F.HUB_INT_RAW_KILN
  | .CAL_SESSION_END => some F.HUB_INT_RAW_CAL
  | .SWAP_REFUSED => some F.HUB_INT_RAW_SWAP
  | _ => none

/-- The event record a block makes now (R549). -/
def State.mkEvent (s : State) (n : EvName) (block obj : Nat) (detail : List Int) : Event :=
  { name := n, block := block, obj := obj, detail := detail,
    sec := s.tick.clock / secUnits, ns := s.tick.clock % secUnits / 65536,
    tick := if s.ticking then s.tick.num else 0, noTime := !s.ticking, direct := false, umber := false }

/-- The entries in the hardware event queue. -/
def evqDepth (q : List Event) : Nat := (q.map fun e => eventEntries e.name).sum

/-- Set the interrupt latch of an event (R551). -/
def State.latchFor (s : State) (n : EvName) : State :=
  match eventLatch n with
  | some x => s.wf x 1
  | none => s

/-- Records that Umber's RAM buffer holds: 16,384, and 4,096 in retained memory while Umber restarts (R500, R519). -/
def State.logRoom (s : State) : Nat := if s.umb.down then 4096 else 16384

/-- Umber appends a record to its RAM buffer (R497, R500); one that finds it full is lost and counted. The first that finds space again
is preceded by LOG_LOST with the count. -/
def State.logRecord (s : State) (e : Event) : State :=
  if evqDepth s.umb.logBuf + eventEntries e.name ≤ s.logRoom then
    if s.umb.lostOpen then
      let lost := { s.mkEvent .LOG_LOST 1 0 [(s.f F.UMB_LOG_LOST_LOST : Nat)] with umber := true }
      { s with umb.logBuf := s.umb.logBuf ++ [lost, e], umb.lostOpen := false }
    else { s with umb.logBuf := s.umb.logBuf ++ [e] }
  else { s.bump F.UMB_LOG_LOST_LOST 1 with umb.lostOpen := true }

/-- A record enters the hardware event queue, or Umber copies it to its log when the queue would overflow (R21, R550). -/
def State.present (s : State) (e : Event) : State :=
  let s := s.latchFor e.name
  if evqDepth s.hub.evq + eventEntries e.name ≤ 4096 then
    let s := { s with hub.evq := s.hub.evq ++ [e], hub.evOver := false, hub.evOverCount := 0 }
    let d := evqDepth s.hub.evq
    (s.wf F.HUB_EVQ_STAT_DEPTH d).peak F.HUB_EVQ_STAT_PEAK d
  else
    let first := !s.hub.evOver
    let s := { s with hub.evOver := true, hub.evOverCount := s.hub.evOverCount + 1 }
    let s := (s.logRecord { e with direct := true }).bump F.HUB_EVQ_OVF_DIRECT 1
    if first then
      let s := (s.bump F.HUB_EVQ_OVF_EPISODES 1).wf F.HUB_INT_RAW_EVQ 1
      s.logRecord { s.mkEvent .EVENT_OVERFLOW 0 0 [(s.hub.evOverCount : Nat)] with direct := true }
    else s

/-- A block records an event about object `obj` (R548, R549). -/
def State.emit (s : State) (n : EvName) (obj : Nat) (detail : List Int) : State :=
  s.present (s.mkEvent n (eventBlock n) obj detail)

/-- A block records an event whose origin block is not the block that defines it. -/
def State.emitFrom (s : State) (n : EvName) (block obj : Nat) (detail : List Int) : State :=
  s.present (s.mkEvent n block obj detail)

/-- Umber writes a record of its own to its log (R497). -/
def State.umberEvent (s : State) (n : EvName) (obj : Nat) (detail : List Int) : State :=
  let s := s.latchFor n
  s.logRecord { s.mkEvent n (eventBlock n) obj detail with umber := true }

/-! ### Domain resets (R529) -/

/-- A domain enters reset: its bit of RST_DOM, and DOM_RESET with the domain, as that bit, and the cause. -/
def State.domReset (s : State) (bit cause : Nat) : State :=
  (s.wr Reg.RST_DOM (s.rd Reg.RST_DOM ||| BitVec.ofNat 32 (2 ^ bit))).emit .DOM_RESET 0 [(bit : Nat), (Config.resetCause cause : Nat)]

/-- A domain's reset is released. -/
def State.domRelease (s : State) (bit : Nat) : State :=
  s.wr Reg.RST_DOM (s.rd Reg.RST_DOM &&& ~~~(BitVec.ofNat 32 (2 ^ bit)))

/-- A domain is in reset. -/
def State.inReset (s : State) (bit : Nat) : Bool := (s.rd Reg.RST_DOM).getLsbD bit

/-! ### Settings that wait for a boundary (R582) -/

/-- The word in force of a register: its latest written value, or the value that stands until the boundary of a write that
waits (R582). -/
def State.eff (s : State) (a : Nat) : Word :=
  match tabGet (fun _ => none) s.tick.force a with
  | some w => w
  | none => s.rd a

/-- A field as it is in force. -/
def State.ef (s : State) (x : RegField) : Nat := fieldOf (s.eff x.addr) x.hi x.lo

/-- A one-bit field as it is in force. -/
def State.eflag (s : State) (x : RegField) : Bool := s.ef x == 1

/-- A signed field as it is in force. -/
def State.efs (s : State) (x : RegField) : Int := signedOf (x.hi + 1 - x.lo) (s.ef x)

/-- The bits of `w` under a mask, the others from `old`. -/
def merge (old w mask : Word) : Word := (old &&& ~~~mask) ||| (w &&& mask)

/-- A write that takes effect at a later boundary: the register shows it at once (R8), the word in force stays (R582). -/
def State.hold (s : State) (due addr : Nat) (data mask : Word) (master : Nat) : State :=
  let old := s.eff addr
  let s := s.wr addr (merge (s.rd addr) data mask)
  { s with tick.force := tabSet (fun _ => none) s.tick.force addr (some old),
           tick.held := s.tick.held ++ [{ due := due, addr := addr, data := data, mask := mask, master := master }] }

/-- A held write takes effect: the word in force takes its bits; when no other write of the register waits, the register
holds the word in force. The write is no longer in `held`. -/
def State.unhold (s : State) (h : HeldWrite) : State :=
  let w := merge (s.eff h.addr) h.data h.mask
  if s.tick.held.any fun x => x.addr == h.addr then
    { s with tick.force := tabSet (fun _ => none) s.tick.force h.addr (some w) }
  else { s with tick.force := tabSet (fun _ => none) s.tick.force h.addr none }.wr h.addr w

/-- A write that takes effect now: both the register and the word in force take its bits. -/
def State.setNow (s : State) (addr : Nat) (data mask : Word) : State :=
  let w := merge (s.eff addr) data mask
  let s := match tabGet (fun _ => none) s.tick.force addr with
    | some _ => { s with tick.force := tabSet (fun _ => none) s.tick.force addr (some w) }
    | none => s
  s.wr addr (merge (s.rd addr) data mask)

/-! ### Whole-number arithmetic -/

/-- `n / d` to nearest, ties away from zero (R145, R212); `d` positive. -/
def rdiv (n d : Int) : Int := if 0 ≤ n then (2 * n + d) / (2 * d) else -((2 * (-n) + d) / (2 * d))

/-- A fraction to nearest, ties away from zero, for a divisor of either sign. -/
def rdivs (n d : Int) : Int := if d < 0 then rdiv (-n) (-d) else rdiv n d

/-- A whole number held within ± `m`. -/
def clampTo (m v : Int) : Int := if v > m then m else if v < -m then -m else v

/-- The 24-bit sample value of a word. -/
def dataOf (w : Word) : Int := signedOf 24 w.toNat

/-- A bit as a number. -/
def b2n (b : Bool) : Nat := if b then 1 else 0

/-- Apply `f` for every number below `n`, in rising order. -/
def forNat {α : Type} (n : Nat) (f : α → Nat → α) (a : α) : α := (List.range n).foldl f a

/-! ### Outputs and free values -/

/-- This hub's serial. -/
def State.serial (s : State) : Nat := (s.rd Reg.HUB_SERIAL).toNat

/-- Something leaves the hub. -/
def State.send (s : State) (k : SentKind) (port : Nat) (data : List Int) : State :=
  { s with hub.sent := { kind := k, port := port, data := data, bytes := [], coded := [] } :: s.hub.sent }

/-- Take the next free value: a value the spec leaves open. -/
def State.free (s : State) : Int × State := (Config.free s.hub.freeCtr, { s with hub.freeCtr := s.hub.freeCtr + 1 })

/-! ### Transmit caps (R511) -/

/-- A fence has acted (FNC_HIT). -/
def State.fenceHit (s : State) (bit : Nat) : State :=
  s.wf F.FNC_HIT_HIT (s.f F.FNC_HIT_HIT ||| 2 ^ bit)

/-- Link `l` of FNC_TXCAPi as an origin (R546): 18 is the Slate link. -/
def capLink (l : Nat) : Nat := objLink l

/-- One byte of a credit count: the counts are kept in bits × 65,536,000, since 1 Mb/s gives one unit in 2^-16 ns. -/
def creditByte : Nat := 8 * 65536000

/-- The credit count of link `l` now: up to 65,536 bytes, refilled at CAP Mb/s. -/
def State.credit (s : State) (l : Nat) : Nat :=
  match tabGet (fun _ => none) s.hub.credit l with
  | none => 65536 * creditByte
  | some (v, t) => min (65536 * creditByte) (v + s.f (F.FNC_TXCAPi_CAP l) * (s.tick.clock - t))

/-- Port U`u` sends: EN and LINK (R463). -/
def State.uplinkOn (s : State) (u : Nat) : Bool := s.flag (F.UPL_Un_CFG_EN u) && s.flag (F.UPL_Un_STAT_LINK u)

/-- A frame leaves: its links' counts pay for it, and an uplink that is down drops its copy (R463). -/
def State.txLeave (s : State) (i : TxItem) : State :=
  let s := i.links.foldl (fun s l =>
    { s with hub.credit := tabSet (fun _ => none) s.hub.credit l (some (s.credit l - i.bytes * creditByte, s.tick.clock)) }) s
  i.outs.foldl (fun s o => if i.links.contains 16 && !s.uplinkOn o.port then s else { s with hub.sent := o :: s.hub.sent }) s

/-- A fence holds a frame of link `l`: FENCE_TX_CAP once per episode, which ends when nothing has been held for 1 ms. -/
def State.txHold (s : State) (l : Nat) : State :=
  let fresh := match tabGet (fun _ => none) s.hub.heldAt l with
    | some t => decide (t + 65536000000 ≤ s.tick.clock)
    | none => true
  let s := { s with hub.heldAt := tabSet (fun _ => none) s.hub.heldAt l (some s.tick.clock) }
  let s := if l = 16 ∨ l = 17 then s.wf (F.UPL_Un_STAT_CAPPED (l - 16)) 1 else s
  if fresh then (s.fenceHit 2).umberEvent .FENCE_TX_CAP (capLink l) [] else s

/-- The frames of a link that wait, as far as the counts cover them. -/
def State.txDrain (s : State) : List TxItem → State × List TxItem
  | [] => (s, [])
  | i :: r =>
    if i.links.all fun l => decide (i.bytes * creditByte ≤ s.credit l) then (s.txLeave i).txDrain r
    else (i.links.foldl State.txHold s, i :: r)

/-- The frames that wait on link `l` leave while the counts cover them. -/
def State.txPump (s : State) (l : Nat) : State :=
  let r := s.txDrain (tabGet (fun _ => []) s.hub.txq l)
  let s := { r.1 with hub.txq := tabSet (fun _ => []) r.1.hub.txq l r.2 }
  if l = 16 && r.2.isEmpty then (s.wf (F.UPL_Un_STAT_CAPPED 0) 0).wf (F.UPL_Un_STAT_CAPPED 1) 0 else s

/-- Frames are to leave on link `l`, behind those that wait, or in front of them. -/
def State.txSend (s : State) (l : Nat) (front : Bool) (l' : List TxItem) : State :=
  let q := tabGet (fun _ => []) s.hub.txq l
  { s with hub.txq := tabSet (fun _ => []) s.hub.txq l (if front then l' ++ q else q ++ l') }.txPump l

/-! ### Lists -/

/-- A list with element `i` replaced. -/
def listSet {α : Type} : List α → Nat → α → List α
  | [], _, _ => []
  | _ :: r, 0, v => v :: r
  | x :: r, i + 1, v => x :: listSet r i v

/-- The bytes of a word, lowest first (R4). -/
def wordBytes (w : Word) : List Nat := [w.toNat % 256, w.toNat / 256 % 256, w.toNat / 65536 % 256, w.toNat / 16777216]

/-- `n` bytes of a number, lowest first (R4). -/
def leBytes : Nat → Nat → List Nat
  | 0, _ => []
  | n + 1, v => v % 256 :: leBytes n (v / 256)

/-- Bytes, lowest first, as one number. -/
def leNat : List Nat → Nat
  | [] => 0
  | b :: r => b % 256 + 256 * leNat r

/-- Bytes as words, lowest byte first; the last word is filled with zeros. -/
def bytesWords : List Nat → List Word
  | [] => []
  | [a] => [BitVec.ofNat 32 a]
  | [a, b] => [BitVec.ofNat 32 (leNat [a, b])]
  | [a, b, c] => [BitVec.ofNat 32 (leNat [a, b, c])]
  | a :: b :: c :: d :: r => BitVec.ofNat 32 (leNat [a, b, c, d]) :: bytesWords r

/-- One step of the reflected CRC with polynomial `p`. -/
def crcBit (p c : Nat) : Nat := if c % 2 = 1 then (c / 2) ^^^ p else c / 2

/-- CRC-32C of a list of bytes, from remainder `c`. -/
def crc32cFrom : Nat → List Nat → Nat
  | c, [] => c
  | c, b :: r =>
    let p := 0x82F63B78
    crc32cFrom (crcBit p (crcBit p (crcBit p (crcBit p (crcBit p (crcBit p (crcBit p (crcBit p (c ^^^ (b % 256)))))))))) r

/-- CRC-32C. -/
def crc32c (bs : List Nat) : Nat := crc32cFrom 0xFFFFFFFF bs ^^^ 0xFFFFFFFF

end Sys2Proof.Machine
end

