-- ==== Sys2Proof/Machine/Pins.lean ====
section
/-!
DEFINITION. Cord's pins (R447): Kindling pins a frozen capture.
-/
namespace Sys2Proof.Machine

open Sys2Proof

/-- A CONTROL entry waits for its block (R442). -/
def State.control (s : State) (op arg0 arg1 arg2 : Nat) : State :=
  { s with crd.control := s.crd.control ++ [{ op := op, arg0 := arg0, arg1 := arg1, arg2 := arg2 }] }

/-- CRD_PIN_USED. -/
def State.showPins (s : State) : State :=
  s.wf F.CRD_PIN_USED_USED ((List.range 256).filter fun p => s.flag (F.CRD_PINp_Q_V p)).length

/-- Pin `p` takes a queue and its ticks. -/
def State.setPin (s : State) (p q first last : Nat) : State :=
  let s := (s.wf (F.CRD_PINp_Q_V p) 1).wf (F.CRD_PINp_Q_Q p) q
  let s := s.wf64 (F.CRD_PINp_FIRST_LO_TICK p) (F.CRD_PINp_FIRST_HI_TICK p) first
  (s.wf64 (F.CRD_PINp_LAST_LO_TICK p) (F.CRD_PINp_LAST_HI_TICK p) last).showPins

/-- A pin is added, with its CONTROL entry; with all in use the capture is not pinned (R447). -/
def State.addPin (s : State) (q first last : Nat) : State :=
  match (List.range 256).find? fun p => !s.flag (F.CRD_PINp_Q_V p) with
  | some p => (s.setPin p q first last).control 6 q first last
  | none => s.emit .CRD_PIN_FULL (objQueue q) [(first : Int), (last : Int)]

end Sys2Proof.Machine
end

