-- ==== Sys2Proof/Machine/Inflate.lean ====
section
/-!
DEFINITION. What an inflater does with a DEFLATE stream (RFC 1951, R428, R429): the decoded bytes, or the fault code of
"Decompressor faults" and where it was found.
-/
namespace Sys2Proof.Machine

open Sys2Proof

/-- A bit reader: bits read so far, and the bits that follow. -/
structure Rd where
  pos : Nat
  bits : List Bool
  deriving DecidableEq, Repr

/-- A fault: its code, and the byte of the payload it was found at. -/
structure InfFault where
  code : Nat
  off : Nat
  deriving DecidableEq, Repr

/-- The bits of a byte, lowest first (R5). -/
def byteBits (b : Nat) : List Bool := (List.range 8).map fun i => b / 2 ^ i % 2 == 1

def Rd.fault (r : Rd) (code : Nat) : InfFault := { code := code, off := r.pos / 8 }

/-- `n` bits, the lowest first; a payload that ends is LEN_UNDERRUN. -/
def Rd.take : Nat → Rd → Except InfFault (Nat × Rd)
  | 0, r => .ok (0, r)
  | n + 1, r => match r.bits with
    | [] => .error (r.fault 0x05)
    | b :: t => match Rd.take n { pos := r.pos + 1, bits := t } with
      | .ok (v, r') => .ok (b2n b + 2 * v, r')
      | .error e => .error e

/-- Drop the bits up to the next byte. -/
def Rd.align (r : Rd) : Rd :=
  let k := (8 - r.pos % 8) % 8
  { pos := r.pos + k, bits := r.bits.drop k }

/-- Symbols of code length `l`, and the lengths used, as sums of 2^(15 − l). -/
def symsOf (lens : List Nat) (l : Nat) : List Nat := (List.range lens.length).filter fun i => lens.getD i 0 == l
def kraft (lens : List Nat) : Nat := (lens.map fun l => if l = 0 then 0 else 2 ^ (15 - l)).sum

/-- A code is complete; a distance code may also hold one code of one bit, or none. -/
def codeOk (lens : List Nat) (dist : Bool) : Bool :=
  kraft lens == 32768 || (dist && (lens.filter (· != 0)).length ≤ 1 && lens.all (· ≤ 1))

/-- Decode one symbol of a canonical code. -/
def decodeSym (lens : List Nat) : Nat → Nat → Nat → Nat → Rd → Except InfFault (Nat × Rd)
  | 0, _, _, _, r => .error (r.fault 0x02)
  | n + 1, l, code, first, r => match r.take 1 with
    | .error e => .error e
    | .ok (b, r') =>
      let code := 2 * code + b
      let syms := symsOf lens (l + 1)
      if first ≤ code ∧ code < first + syms.length then .ok (syms.getD (code - first) 0, r')
      else decodeSym lens n (l + 1) code (2 * (first + syms.length)) r'

def nextSym (lens : List Nat) (r : Rd) : Except InfFault (Nat × Rd) := decodeSym lens 15 0 0 0 r

/-- Base and extra bits of the length codes 257 to 285 and of the distance codes 0 to 29. -/
def lenBase : List (Nat × Nat) :=
  [(3, 0), (4, 0), (5, 0), (6, 0), (7, 0), (8, 0), (9, 0), (10, 0), (11, 1), (13, 1), (15, 1), (17, 1), (19, 2), (23, 2), (27, 2),
   (31, 2), (35, 3), (43, 3), (51, 3), (59, 3), (67, 4), (83, 4), (99, 4), (115, 4), (131, 5), (163, 5), (195, 5), (227, 5), (258, 0)]
def distBase : List (Nat × Nat) :=
  [(1, 0), (2, 0), (3, 0), (4, 0), (5, 1), (7, 1), (9, 2), (13, 2), (17, 3), (25, 3), (33, 4), (49, 4), (65, 5), (97, 5), (129, 6),
   (193, 6), (257, 7), (385, 7), (513, 8), (769, 8), (1025, 9), (1537, 9), (2049, 10), (3073, 10), (4097, 11), (6145, 11),
   (8193, 12), (12289, 12), (16385, 13), (24577, 13)]

/-- The output so far, newest byte first, with `n` more than `lim` refused (LEN_OVERRUN). -/
def overrun (lim : Option Nat) (have' n : Nat) : Bool := match lim with | some m => decide (m < have' + n) | none => false

/-- Copy `n` bytes from distance `d`. -/
def copyBack : Nat → Nat → List Nat → List Nat
  | 0, _, out => out
  | n + 1, d, out => copyBack n d (out.getD (d - 1) 0 :: out)

/-- The symbols of a compressed block up to its end; `out` is newest first and `len` its length. -/
def inflateCodes (lit dist : List Nat) (lim : Option Nat) : Nat → Rd → List Nat → Nat → Except InfFault (Rd × List Nat × Nat)
  | 0, r, _, _ => .error (r.fault 0x05)
  | f + 1, r, out, len => match nextSym lit r with
    | .error e => .error e
    | .ok (sym, r1) =>
      if sym < 256 then
        if overrun lim len 1 then .error (r1.fault 0x04) else inflateCodes lit dist lim f r1 (sym :: out) (len + 1)
      else if sym = 256 then .ok (r1, out, len)
      else match lenBase[sym - 257]? with
        | none => .error (r1.fault 0x02)
        | some (b, x) => match r1.take x with
          | .error e => .error e
          | .ok (v, r2) => match nextSym dist r2 with
            | .error e => .error e
            | .ok (ds, r3) => match distBase[ds]? with
              | none => .error (r3.fault 0x02)
              | some (db, dx) => match r3.take dx with
                | .error e => .error e
                | .ok (dv, r4) =>
                  let n := b + v
                  let d := db + dv
                  if len < d then .error (r4.fault 0x03)
                  else if overrun lim len n then .error (r4.fault 0x04)
                  else inflateCodes lit dist lim f r4 (copyBack n d out) (len + n)

/-- The code lengths of a dynamic table, newest first. -/
def readLens (cl : List Nat) (want : Nat) : Nat → Rd → List Nat → Except InfFault (Rd × List Nat)
  | 0, r, _ => .error (r.fault 0x02)
  | f + 1, r, l =>
    if l.length = want then .ok (r, l)
    else match nextSym cl r with
      | .error e => .error e
      | .ok (sym, r1) =>
        if sym < 16 then readLens cl want f r1 (sym :: l)
        else
          let p : Nat × Nat × Option Nat := if sym = 16 then (2, 3, l.head?) else if sym = 17 then (3, 3, some 0) else (7, 11, some 0)
          match p.2.2 with
          | none => .error (r1.fault 0x02)
          | some v => match r1.take p.1 with
            | .error e => .error e
            | .ok (k, r2) =>
              if want < l.length + p.2.1 + k then .error (r2.fault 0x02)
              else readLens cl want f r2 (List.replicate (p.2.1 + k) v ++ l)

/-- The order in which the code lengths of the code-length code stand. -/
def clOrder : List Nat := [16, 17, 18, 0, 8, 7, 9, 6, 10, 5, 11, 4, 12, 3, 13, 2, 14, 1, 15]

/-- `n` code lengths of 3 bits. -/
def readCl : Nat → List Nat → Rd → Except InfFault (Rd × Tab Nat)
  | 0, _, r => .ok (r, [])
  | n + 1, o, r => match r.take 3 with
    | .error e => .error e
    | .ok (v, r1) => match readCl n o.tail r1 with
      | .error e => .error e
      | .ok (r2, t) => .ok (r2, (o.headD 0, v) :: t)

/-- The tables of a dynamic block. -/
def dynTables (r : Rd) : Except InfFault (Rd × List Nat × List Nat) :=
  match r.take 14 with
  | .error e => .error e
  | .ok (h, r1) =>
    let hlit := h % 32 + 257
    let hdist := h / 32 % 32 + 1
    let hclen := h / 1024 + 4
    match readCl hclen clOrder r1 with
    | .error e => .error e
    | .ok (r2, t) =>
      let cl := (List.range 19).map fun i => match t.find? (·.1 == i) with | some e => e.2 | none => 0
      if !codeOk cl false || decide (286 < hlit) then .error (r2.fault 0x02)
      else match readLens cl (hlit + hdist) (hlit + hdist + 1) r2 [] with
        | .error e => .error e
        | .ok (r3, l) =>
          let l := l.reverse
          let lit := l.take hlit
          let dist := l.drop hlit
          if codeOk lit false && codeOk dist true && lit.getD 256 0 != 0 then .ok (r3, lit, dist) else .error (r3.fault 0x02)

/-- The fixed tables. -/
def fixedLit : List Nat := List.replicate 144 8 ++ List.replicate 112 9 ++ List.replicate 24 7 ++ List.replicate 8 8
def fixedDist : List Nat := List.replicate 32 5

/-- `n` bytes of a stored block. -/
def storedBytes (lim : Option Nat) : Nat → Rd → List Nat → Nat → Except InfFault (Rd × List Nat × Nat)
  | 0, r, out, len => .ok (r, out, len)
  | n + 1, r, out, len => match r.take 8 with
    | .error e => .error e
    | .ok (b, r1) => if overrun lim len 1 then .error (r1.fault 0x04) else storedBytes lim n r1 (b :: out) (len + 1)

/-- One block: whether it is the last, and what follows. -/
def inflateBlock (lim : Option Nat) (r : Rd) (out : List Nat) (len : Nat) : Except InfFault (Bool × Rd × List Nat × Nat) :=
  match r.take 3 with
  | .error e => .error e
  | .ok (h, r1) =>
    let last := h % 2 == 1
    let put (x : Except InfFault (Rd × List Nat × Nat)) : Except InfFault (Bool × Rd × List Nat × Nat) :=
      match x with | .ok y => .ok (last, y) | .error e => .error e
    match h / 2 with
    | 0 => match r1.align.take 32 with
      | .error e => .error e
      | .ok (v, r2) =>
        if v % 65536 + v / 65536 = 65535 then put (storedBytes lim (v % 65536) r2 out len) else .error (r2.fault 0x02)
    | 1 => put (inflateCodes fixedLit fixedDist lim (r1.bits.length + 1) r1 out len)
    | 2 => match dynTables r1 with
      | .error e => .error e
      | .ok (r2, lit, dist) => put (inflateCodes lit dist lim (r2.bits.length + 1) r2 out len)
    | _ => .error (r1.fault 0x02)

/-- All blocks. -/
def inflateBlocks (lim : Option Nat) : Nat → Rd → List Nat → Nat → Except InfFault (Rd × List Nat × Nat)
  | 0, r, _, _ => .error (r.fault 0x05)
  | f + 1, r, out, len => match inflateBlock lim r out len with
    | .error e => .error e
    | .ok (true, y) => .ok y
    | .ok (false, r1, out1, len1) => inflateBlocks lim f r1 out1 len1

/-- Inflate a payload: its bytes, or the first fault in stream order (R429). With a limit the output has exactly that length. -/
def inflate (payload : List Nat) (lim : Option Nat) : Except InfFault (List Nat) :=
  let r : Rd := { pos := 0, bits := payload.flatMap byteBits }
  match inflateBlocks lim (r.bits.length + 1) r [] 0 with
  | .error e => .error e
  | .ok (r1, out, len) =>
    let short := match lim with | some m => decide (len < m) | none => false
    if short then .error (r1.fault 0x05)
    else if 8 ≤ r1.bits.length then .error (r1.fault 0x06)
    else .ok out.reverse

/-- Stored blocks of 16,384 bytes (R420, level 0). -/
def storedStream : Nat → List Nat → List Nat
  | 0, _ => []
  | f + 1, bs =>
    let n := min 16384 bs.length
    let last := decide (bs.length ≤ 16384)
    [b2n last] ++ leBytes 2 n ++ leBytes 2 (65535 - n) ++ bs.take n ++ (if last then [] else storedStream f (bs.drop n))

/-- The stream that an engine makes of a body (R420). -/
def deflateBody (level tables : Nat) (body : List Nat) : List Nat :=
  if level = 0 then storedStream (body.length + 1) body else Config.deflate level tables body

end Sys2Proof.Machine
end

