-- ==== Sys2Proof/Machine/Flags.lean ====
section
/-!
DEFINITION. What the Kiln instructions compute: the `alu` operations with their saturation, the
comparisons, the flag operations, the sample word operations and the accumulator arithmetic (R89 to R94).
-/
namespace Sys2Proof.Machine

open Sys2Proof

/-- A whole number clamped to the signed 32-bit range, and whether it was clamped. -/
def clamp32 (v : Int) : Word × Bool :=
  if v < -2147483648 then (0x80000000#32, true)
  else if v > 2147483647 then (0x7FFFFFFF#32, true)
  else (BitVec.ofInt 32 v, false)

/-- The `alu` operations (R89): the result, and whether SAT is set. -/
def aluOp (fn : AluFn) (a b : Word) : Word × Bool :=
  let n := b.toNat % 32
  match fn with
  | .add => (a + b, false)
  | .sub => (a - b, false)
  | .and => (a &&& b, false)
  | .or => (a ||| b, false)
  | .xor => (a ^^^ b, false)
  | .shl => (a <<< n, false)
  | .shr => (a >>> n, false)
  | .sra => (a.sshiftRight n, false)
  | .min => (if a.toInt ≤ b.toInt then a else b, false)
  | .max => (if a.toInt ≤ b.toInt then b else a, false)
  | .minu => (if a.toNat ≤ b.toNat then a else b, false)
  | .maxu => (if a.toNat ≤ b.toNat then b else a, false)
  | .adds => clamp32 (a.toInt + b.toInt)
  | .subs => clamp32 (a.toInt - b.toInt)
  | .abs => clamp32 (if a.toInt < 0 then -a.toInt else a.toInt)

/-- The comparison conditions (R92). -/
def condHolds (c : Cond) (a b : Word) : Bool :=
  match c with
  | .eq => a == b
  | .ne => a != b
  | .lt => decide (a.toInt < b.toInt)
  | .le => decide (a.toInt ≤ b.toInt)
  | .gt => decide (a.toInt > b.toInt)
  | .ge => decide (a.toInt ≥ b.toInt)
  | .ltu => decide (a.toNat < b.toNat)
  | .geu => decide (a.toNat ≥ b.toNat)

/-- The `flop` operations (R93). -/
def flopOp (fn : FlopFn) (a b : Bool) : Bool :=
  match fn with
  | .and => a && b
  | .or => a || b
  | .xor => a != b
  | .andn => a && !b
  | .copy => a
  | .not => !a
  | .set => true
  | .clear => false

/-- The `swd` operations (R94): the result, and whether SAT is set. -/
def swdOp (fn : SwdFn) (a b : Word) : Word × Bool :=
  match fn with
  | .data => (BitVec.signExtend 32 (BitVec.setWidth 24 a), false)
  | .stat => (a >>> 24, false)
  | .pack =>
    let top : Word := (b &&& 0xFF#32) <<< 24
    if a.toInt < -8388607 then (top ||| 0x40800001#32, true)
    else if a.toInt > 8388607 then (top ||| 0x407FFFFF#32, true)
    else (top ||| (a &&& 0x00FFFFFF#32), false)

/-- The product of two registers, exact (R91). -/
def product (u : Bool) (a b : Word) : Int := if u then (a.toNat : Int) * b.toNat else a.toInt * b.toInt

/-- `mva` (R91): round at `sh`, shift right with sign, clamp. -/
def mvaOp (a : Acc) (sh : Nat) (rnd : Bool) : Word × Bool :=
  let v := if rnd && decide (1 ≤ sh) then a.toInt + 2 ^ (sh - 1) else a.toInt
  clamp32 (v / 2 ^ sh)

end Sys2Proof.Machine
end

