-- ==== Sys2Proof/Machine/Operands.lean ====
section
/-!
DEFINITION. The operands of a Kiln instruction and its course through a hearth: K registers, accumulators
and predicate flags (R57 to R61), the predicate (R77, R81), the repeat stack (R84, R85), faults (R78), and
reading tick RAM and the views (R62 to R70).
-/
namespace Sys2Proof.Machine

open Sys2Proof

/-- A hearth after reset and after the tail guard's clearing (R60). -/
def hearth0 : Hearth :=
  { running := false, pc := 0, cyc := 256, k := [], a := [], pf := [], reps := [], faultCode := 0, faultCount := 0,
    faultPc := 0, sat := false, posted := [], signalled := false, used := 0, lastFault := none, suppressed := 0 }

/-- Hearth `h`. -/
def State.hearth (s : State) (h : Nat) : Hearth := tabGet (fun _ => hearth0) s.kiln.hearths h

/-- Replace hearth `h`. -/
def State.setHearth (s : State) (h : Nat) (x : Hearth) : State :=
  { s with kiln.hearths := tabSet (fun _ => hearth0) s.kiln.hearths h x }

/-- K register `n`: K0 reads as zero (R59). -/
def Hearth.kr (x : Hearth) (n : Nat) : Word := if n = 0 then 0#32 else tabGet (fun _ => 0#32) x.k n

/-- Write K register `n`: a write to K0 is discarded (R59). -/
def Hearth.kw (x : Hearth) (n : Nat) (v : Word) : Hearth :=
  if n = 0 then x else { x with k := tabSet (fun _ => 0#32) x.k n v }

/-- Accumulator `n`. -/
def Hearth.ar (x : Hearth) (n : Nat) : Acc := tabGet (fun _ => 0#64) x.a n

/-- Write accumulator `n`. -/
def Hearth.aw (x : Hearth) (n : Nat) (v : Acc) : Hearth := { x with a := tabSet (fun _ => 0#64) x.a n v }

/-- Predicate flag `n`: PF0 reads as 1 (R59). -/
def Hearth.fr (x : Hearth) (n : Nat) : Bool := if n = 0 then true else tabGet (fun _ => false) x.pf n

/-- Write predicate flag `n`; the loader admits no program that names PF0 (R59). -/
def Hearth.fw (x : Hearth) (n : Nat) (b : Bool) : Hearth :=
  if n = 0 then x else { x with pf := tabSet (fun _ => false) x.pf n b }

/-- Set SAT when `b`. -/
def Hearth.satIf (x : Hearth) (b : Bool) : Hearth := { x with sat := x.sat || b }

/-- Whether the predicate holds (R81). -/
def Hearth.holds (x : Hearth) (p : Pred) : Bool := x.fr p.sel != p.neg

/-- Where the hearth goes on when control reaches word `t`: at the word after the innermost body the iteration ends, the
next one runs or the body is left (R84, R85). -/
def landAt : List RepFrame → Nat → List RepFrame × Nat
  | [], t => ([], t)
  | r :: rs, t =>
    if t = r.start + r.len then
      if 0 < r.left then ({ r with left := r.left - 1, idx := r.idx + 1 } :: rs, r.start)
      else landAt rs t
    else (r :: rs, t)

/-- Continue at word `t` after `cost` cycles. -/
def Hearth.go (x : Hearth) (t cost : Nat) : Hearth :=
  let r := landAt x.reps t
  { x with reps := r.1, pc := r.2, cyc := x.cyc + cost }

/-- Continue with the next word. -/
def Hearth.next (x : Hearth) (cost : Nat) : Hearth := x.go (x.pc + 1) cost

/-- Run one instruction on hearth `h`: nothing happens while the hearth is not running; with a false predicate it takes one
cycle and has no effect (R77). `f` gets the state and the hearth, and gives both; `cost` is its cycles. -/
def State.issue (s : State) (h : Nat) (p : Pred) (cost : Nat) (f : State → Hearth → State × Hearth) : State :=
  let x := s.hearth h
  if !x.running then s
  else if x.holds p then
    let r := f s x
    r.1.setHearth h (r.2.next cost)
  else s.setHearth h (x.next 1)

/-- As `issue`, for an instruction that changes only its hearth. -/
def State.issueH (s : State) (h : Nat) (p : Pred) (cost : Nat) (f : Hearth → Hearth) : State :=
  s.issue h p cost fun s x => (s, f x)

/-- An instruction faults (R78): the fault word of the hearth. -/
def Hearth.fault (x : Hearth) (code pc : Nat) : Hearth :=
  { x with faultCode := if x.faultCount = 0 then code else x.faultCode,
           faultPc := if x.faultCount = 0 then pc else x.faultPc,
           faultCount := min 255 (x.faultCount + 1) }

/-- The sticky bit of a fault code (R78). -/
def State.sticky (s : State) (h code : Nat) : State :=
  s.wr (Reg.KLN_Hn_STICKY h) (s.rd (Reg.KLN_Hn_STICKY h) ||| BitVec.ofNat 32 (2 ^ code))

/-- A fault of hearth `h` whose hearth record is kept in the state (R78). -/
def State.faultAt (s : State) (h code pc : Nat) : State :=
  (s.setHearth h ((s.hearth h).fault code pc)).sticky h code

/-! ### Tick RAM (R62 to R67) -/

/-- Address of tick RAM word `i` in the register space. -/
def tramAddr (i : Nat) : Nat := 0x00140000 + 4 * i

/-- Whether hearth `h` reaches tick RAM word `i` (R62). -/
def tramReach (h i : Nat) : Bool := decide (i < 0x10000) && (decide (0x8000 ≤ i) || i / 0x2000 == h)

/-- The index of a tick RAM instruction: Ks + IMM, wrapping at 32 bits (R62, R95). -/
def tramIndex (x : Hearth) (s : Nat) (imm : BitVec 12) : Nat := (x.kr s + BitVec.setWidth 32 imm).toNat

/-- A hearth's read of tick RAM word `i` (R66): the word, and whether a double-bit error was found. -/
def State.tramRead (s : State) (i : Nat) : Word × Bool :=
  if s.kiln.tramDouble.contains i then (0#32, true) else (s.rd (tramAddr i), false)

/-- Count the ECC errors that a read of word `i` finds (R66). -/
def State.tramCount (s : State) (i : Nat) : State :=
  if s.kiln.tramDouble.contains i then s.bump F.KLN_TRAM_ERR_DOUBLE 1
  else if s.kiln.tramSingle.contains i then s.bump F.KLN_TRAM_ERR_SINGLE 1
  else s

/-- A write of tick RAM word `i`: it also ends an ECC error of the word (R66). -/
def State.tramWrite (s : State) (i : Nat) (v : Word) : State :=
  { s with kiln.tramDouble := s.kiln.tramDouble.filter (· != i),
           kiln.tramSingle := s.kiln.tramSingle.filter (· != i) }.wr (tramAddr i) v

/-! ### Views (R68 to R70) -/

/-- The invalid marker of R25 and R70. -/
def invalidWord : Word := 0x01800000#32

/-- What the remote channel attached to slot `c` delivers. -/
def State.remoteCh (s : State) (c : Nat) : Option RemoteCh := tabGet (fun _ => none) s.front.remote c

/-- The entries of channel `c` in a view of the previous tick; a remote slot with no channel attached has none (R70). -/
def State.viewOf (s : State) (v : View) (c : Nat) : List ViewWord :=
  match v with
  | .output => if 96 ≤ c && (s.remoteCh c).isNone then [] else tabGet (fun _ => []) s.kiln.outPrev c
  | .staging => if c < 96 then tabGet (fun _ => []) s.kiln.staging c else []

/-- A view entry; beyond the count, the invalid marker (R70). -/
def State.viewWord (s : State) (v : View) (c i : Nat) : Word :=
  match (s.viewOf v c)[i]? with
  | some w => w.word
  | none => invalidWord

/-- Whether the active bank exists (KLN_BANK_STAT.ACTIVE_VALID). -/
def State.bankValid (s : State) : Bool := s.flag F.KLN_BANK_STAT_ACTIVE_VALID

/-- The active program bank. -/
def State.activeBank (s : State) : Nat := s.f F.KLN_BANK_STAT_ACTIVE

/-- A bank that holds nothing. -/
def bank0 : KBank := { loaded := false, base := 0, code := [], parity := [], entry := [], demands := [], demandWords := [], seed := [] }

/-- Program bank `b`. -/
def State.bank (s : State) (b : Nat) : KBank := tabGet (fun _ => bank0) s.kiln.banks b

/-- Replace program bank `b`. -/
def State.setBank (s : State) (b : Nat) (x : KBank) : State :=
  { s with kiln.banks := tabSet (fun _ => bank0) s.kiln.banks b x }

/-- Word `i` of program bank `b` (R110). -/
def State.bankWord (s : State) (b i : Nat) : Word :=
  let x := s.bank b
  if !x.loaded then 0#32
  else if i < x.base then 0x14000000#32
  else x.code.getD (i - x.base) 0x14000000#32

/-- The parity of a word: 1 when an odd number of its bits is set (DESIGN CHOICE, log entry 118). -/
def wordParity (w : Word) : Bool := (List.range 32).foldl (fun p i => p != w.getLsbD i) false

/-- The parity bit stored with word `i` of program bank `b` (R80, R110). -/
def State.bankParity (s : State) (b i : Nat) : Bool :=
  let x := s.bank b
  if !x.loaded then false
  else if i < x.base then wordParity 0x14000000#32
  else x.parity.getD (i - x.base) (wordParity 0x14000000#32)

end Sys2Proof.Machine
end

