-- ==== Sys2Proof/Machine/Wire.lean ====
section
/-!
DEFINITION. What leaves on a line, byte by byte (R4, R5): the blocks of a field lane and their coding (R244, R279), Slate link frames (R302),
and Ethernet frames with their IP, UDP and PRP parts (R461, R465).
-/
namespace Sys2Proof.Machine

open Sys2Proof

/-! ### Byte orders -/

/-- `n` bytes of a number, highest first, as the standards of R5 order them. -/
def beBytes (n v : Nat) : List Nat := (leBytes n v).reverse

/-- `n` bytes of a whole number in two's complement, lowest first. -/
def leInt (n : Nat) (v : Int) : List Nat := leBytes n (v % (2 ^ (8 * n) : Nat)).toNat

/-- `n` bytes of a whole number in two's complement, highest first. -/
def beInt (n : Nat) (v : Int) : List Nat := (leInt n v).reverse

/-- The bytes of words, lowest first. -/
def wordsBytes (l : List Word) : List Nat := l.flatMap wordBytes

/-- The 12 bytes of an instant in 2^-16 ns: seconds (6), nanoseconds (4), 2^-16 ns (2). -/
def timeBytes (t : Nat) : List Nat := leBytes 6 (t / secUnits) ++ leBytes 4 (t % secUnits / 65536) ++ leBytes 2 (t % 65536)

/-! ### Free values -/

/-- `n` words that the spec leaves open. -/
def State.freeWords (s : State) : Nat → List Word × State
  | 0 => ([], s)
  | n + 1 =>
    let r := s.free
    let t := r.2.freeWords n
    (BitVec.ofInt 32 r.1 :: t.1, t.2)

/-! ### The blocks of a field lane (R244, R279) -/

/-- A block: its sync header as two bits, 0b10 before a control block and 0b01 before a data block, and its 8 bytes. -/
structure LaneBlock where
  hdr : Nat
  bytes : List Nat
  deriving DecidableEq, Repr

def ctrlBlock (bytes : List Nat) : LaneBlock := { hdr := 2, bytes := bytes }

/-- Bytes by eight, the last ones followed by zeros, as data blocks. -/
def payloadBlocks : Nat → List Nat → List LaneBlock
  | 0, _ => []
  | n + 1, l => if l.isEmpty then [] else { hdr := 1, bytes := l.take 8 ++ List.replicate (8 - l.length) 0 } :: payloadBlocks n (l.drop 8)

/-- A frame: its header in the start block, then the payload and the CRC-32C over both (R279). -/
def frameBlocks (head payload : List Nat) : List LaneBlock :=
  ctrlBlock head :: payloadBlocks (payload.length + 4) (payload ++ leBytes 4 (crc32c (head ++ payload)))

/-- One bit through the self-synchronising scrambler x^58 + x^39 + 1: `st` holds the latest 58 bits sent, the latest lowest. -/
def scrambleBit (st : Nat) (b : Bool) : Bool × Nat :=
  let o := b ^^ st.testBit 38 ^^ st.testBit 57
  (o, (2 * st + b2n o) % 2 ^ 58)

/-- Bits through the scrambler, as a number whose lowest bit leaves first, and its state afterwards. -/
def scramble (st : Nat) : List Bool → Nat × Nat
  | [] => (0, st)
  | b :: r =>
    let x := scrambleBit st b
    let y := scramble x.2 r
    (b2n x.1 + 2 * y.1, y.2)

/-- The bits of bytes, the lowest of each first. -/
def bytesBits (l : List Nat) : List Bool := l.flatMap fun b => (List.range 8).map fun i => b.testBit i

/-- The blocks as coded: the sync header is not scrambled. -/
def codeBlocks (st : Nat) : List LaneBlock → List Nat
  | [] => []
  | b :: r =>
    let x := scramble st (bytesBits b.bytes)
    (b.hdr + 4 * x.1) :: codeBlocks x.2 r

/-- What leaves when a lane sends blocks. The idle blocks before them, whose number nothing gives, leave the scrambler in a state of its own:
a free value (log entry 128). -/
def State.laneOut (s : State) (k : SentKind) (l : Nat) (data : List Int) (bs : List LaneBlock) : Sent × State :=
  let f := s.free
  ({ kind := k, port := l, data := data, bytes := bs.flatMap (·.bytes), coded := codeBlocks (f.1 % (2 ^ 58 : Nat)).toNat bs }, f.2)

/-- Blocks of a lane leave at once: control blocks and markers. -/
def State.blocksOut (s : State) (k : SentKind) (l : Nat) (data : List Int) (bs : List LaneBlock) : State :=
  let o := s.laneOut k l data bs
  { o.2 with hub.sent := o.1 :: o.2.hub.sent }

/-- A frame of field lane `l` leaves, each block counted as 8 bytes (R279, R511). -/
def State.frameSend (s : State) (l : Nat) (data : List Int) (head payload : List Nat) : State :=
  let bs := frameBlocks head payload
  let o := s.laneOut .laneFrame l data bs
  o.2.txSend l false [{ links := [l], bytes := 8 * bs.length, outs := [o.1] }]

/-! ### The Slate link (R302) -/

/-- A frame of the Slate link with this payload leaves; it is counted in blocks as a lane frame is (log entry 37). -/
def State.slateSend (s : State) (data : List Int) (payload : List Nat) : State :=
  s.txSend 18 false [{ links := [18], bytes := 8 + (payload.length + 11) / 8 * 8,
                       outs := [{ kind := .slate, port := 0, data := data, bytes := payload, coded := [] }] }]

/-! ### Ethernet, IP and UDP (R5, R465) -/

/-- CRC-32 of IEEE 802.3 over bytes. -/
def crc32 (l : List Nat) : Nat :=
  (l.foldl (fun c b => (List.range 8).foldl (fun c _ => crcBit 0xEDB88320 c) (c ^^^ (b % 256))) 0xFFFFFFFF) ^^^ 0xFFFFFFFF

/-- Bytes as 16-bit numbers, highest byte first. -/
def pairs16 : List Nat → List Nat
  | [] => []
  | [a] => [256 * a]
  | a :: b :: r => (256 * a + b) :: pairs16 r

/-- The Internet checksum of bytes: the ones' complement of their ones' complement sum. -/
def inetSum (l : List Nat) : Nat :=
  let n := (pairs16 l).sum
  if n = 0 then 65535 else 65535 - ((n - 1) % 65535 + 1)

/-- Where a frame goes: MAC address, IP address as its bytes, and UDP port. -/
structure Dest where
  mac : List Nat
  ip : List Nat
  port : Nat
  deriving DecidableEq, Repr

/-- The hub's MAC address and its IP address, first octet first. -/
def State.macOwn (s : State) : List Nat := leBytes 4 (s.f F.UPL_MAC_LO_MAC) ++ leBytes 2 (s.f F.UPL_MAC_HI_MAC)
def State.ipOwn (s : State) (v6 : Bool) : List Nat :=
  if v6 then [0, 1, 2, 3].flatMap fun i => leBytes 4 (s.f (F.UPL_IP6_IP i)) else leBytes 4 (s.f F.UPL_IP4_IP)

/-- The Ethernet address of an IP multicast group. -/
def groupMac (ip : List Nat) : List Nat :=
  if ip.length = 4 then [0x01, 0x00, 0x5E, ip.getD 1 0 % 128, ip.getD 2 0, ip.getD 3 0] else [0x33, 0x33] ++ ip.drop 12

/-- A UDP datagram in an IP packet (R465): no options and DF, or no extension header; 64 hops; the checksum computed. What R465 leaves open, the
traffic class with the flow label or the identification, comes from the word `o`. -/
def ipPacket (v6 : Bool) (o : Word) (src dst : List Nat) (sport dport : Nat) (data : List Nat) : List Nat :=
  let n := 8 + data.length
  let pseudo := src ++ dst ++ (if v6 then beBytes 4 n ++ [0, 0, 0, 17] else [0, 17] ++ beBytes 2 n)
  let udp (c : Nat) := beBytes 2 sport ++ beBytes 2 dport ++ beBytes 2 n ++ beBytes 2 c ++ data
  let c := inetSum (pseudo ++ udp 0)
  let body := udp (if c = 0 then 65535 else c)
  if v6 then beBytes 4 (6 * 2 ^ 28 + o.toNat % 2 ^ 28) ++ beBytes 2 n ++ [17, 64] ++ src ++ dst ++ body
  else
    let h (c : Nat) := [0x45, o.toNat / 65536 % 256] ++ beBytes 2 (20 + n) ++ beBytes 2 (o.toNat % 65536) ++ [0x40, 0, 64, 17] ++ beBytes 2 c ++ src ++ dst
    h (inetSum (h 0)) ++ body

/-- An Ethernet frame without its check sequence: addresses, an optional VLAN tag, and the type. -/
def etherHead (dst src : List Nat) (tag : Option Nat) (type : Nat) : List Nat :=
  dst ++ src ++ (match tag with | some v => beBytes 2 0x8100 ++ beBytes 2 v | none => []) ++ beBytes 2 type

/-- The frame check sequence is appended. -/
def withFcs (l : List Nat) : List Nat := l ++ leBytes 4 (crc32 l)

/-- The PRP trailer (R461): SeqNr, LanId with LSDUsize, and the suffix. -/
def prpTrailer (seq lan size : Nat) : List Nat := beBytes 2 seq ++ beBytes 2 (lan * 4096 + size % 4096) ++ beBytes 2 0x88FB

/-- A frame as a doubly attached node sends it (R461): `head` and `data` in front of the trailer; LSDUsize counts the data and the trailer.
SeqNr, LanId and LSDUsize stand in front of its values. -/
def State.prpFrame (s : State) (k : SentKind) (vals : List Int) (head data : List Nat) : TxItem × State :=
  let seq := (s.upl.prpSeq + 1) % 65536
  let size := data.length + 6
  let out (u : Nat) : Sent :=
    { kind := k, port := u, data := [(seq : Int), ((10 + u : Nat) : Int), (size : Int)] ++ vals,
      bytes := withFcs (head ++ data ++ prpTrailer seq (10 + u) size), coded := [] }
  ({ links := [16, 17], bytes := head.length + size + 4, outs := [out 0, out 1] }, { s with upl.prpSeq := seq })

/-- The frame of a UDP datagram to a destination (R465). -/
def State.udpFrame (s : State) (k : SentKind) (vals : List Int) (d : Dest) (data : List Nat) : TxItem × State :=
  let v6 := s.flag F.UPL_CTRL_IPV6
  let o := s.freeWords 1
  o.2.prpFrame k vals (etherHead d.mac s.macOwn none (if v6 then 0x86DD else 0x0800))
    (ipPacket v6 (o.1.headD 0#32) (s.ipOwn v6) d.ip (s.f F.UPL_HCP_PORT_PORT) d.port data)

/-- A UDP datagram leaves on both uplinks. -/
def State.uplinkSend (s : State) (k : SentKind) (vals : List Int) (d : Dest) (data : List Nat) : State :=
  if s.flag F.UPL_CTRL_EN then
    let r := s.udpFrame k vals d data
    r.2.txSend 16 false [r.1]
  else s

/-! ### IEEE 1588 messages (R311, R313) -/

/-- The header of a message: type, length, domain, sdoId, correctionField, the port's identity, sequenceId and controlField; version 2.1, no
flag set, and no interval. -/
def State.ptpHead (s : State) (u type len : Nat) (corr : Int) (seq ctl : Nat) : List Nat :=
  [s.f F.PTP_CTRL_SDO_MAJ * 16 + type, 0x12] ++ beBytes 2 len ++ [s.f F.PTP_CTRL_DOMAIN, s.f F.PTP_CTRL_SDO_MIN, 0, 0] ++ beInt 8 corr
    ++ [0, 0, 0, 0] ++ beBytes 8 Config.clockIdentity.toNat ++ beBytes 2 (u + 1) ++ beBytes 2 seq ++ [ctl, 0x7F]

/-- The multicast addresses of Annexes C to F: of the peer delay messages, and of the others. -/
def ptpGroup (peer : Bool) (transport : Nat) : List Nat :=
  match transport with
  | 0 => if peer then [0x01, 0x80, 0xC2, 0, 0, 0x0E] else [0x01, 0x1B, 0x19, 0, 0, 0]
  | 2 => if peer then [0xFF, 0x02] ++ List.replicate 13 0 ++ [0x6B] else [0xFF, 0x0E] ++ List.replicate 12 0 ++ [0x01, 0x81]
  | _ => if peer then [224, 0, 0, 107] else [224, 0, 1, 129]

/-- An event message leaves on port `u` alone, without a PRP trailer (R311), over the port's transport with its VLAN tag. -/
def State.ptpOut (s : State) (k : SentKind) (u : Nat) (vals : List Int) (type : Nat) (corr : Int) (seq ctl : Nat) (body : List Nat) : State :=
  let msg := s.ptpHead u type (34 + body.length) corr seq ctl ++ body
  let f := s.freeWords 2
  let o := f.1.headD 0#32
  let x := (f.1.getD 1 0#32).toNat
  let tr := s.f (F.PTP_Un_CFG_TRANSPORT u)
  let g := ptpGroup (decide (2 ≤ type)) tr
  let tag := if s.flag (F.PTP_Un_CFG_VLAN_EN u) then some (x / 65536 % 16 * 4096 + s.f (F.PTP_Un_CFG_VID u)) else none
  let port := s.f F.UPL_HCP_PORT_PORT
  let l := match tr with
    | 0 => etherHead g s.macOwn tag 0x88F7 ++ msg
    | 2 => etherHead (groupMac g) s.macOwn tag 0x86DD ++ ipPacket true o (s.ipOwn true) g port 319 (msg ++ beBytes 2 (x % 65536))
    | _ => etherHead (groupMac g) s.macOwn tag 0x0800 ++ ipPacket false o (s.ipOwn false) g port 319 msg
  { f.2 with hub.sent := { kind := k, port := u, data := vals, bytes := withFcs (l ++ List.replicate (60 - l.length) 0), coded := [] } :: s.hub.sent }

/-! ### Messages to hosts -/

/-- A message leaves for a host whose addresses came with a frame that no row describes: they are free values (log entry 129). -/
def State.hostSend (s : State) (k : SentKind) (words : List Word) : State :=
  let f := s.freeWords 7
  let b := wordsBytes f.1
  f.2.uplinkSend k (words.map fun (w : Word) => (w.toNat : Int))
    { mac := b.take 6, ip := (b.drop 8).take (if s.flag F.UPL_CTRL_IPV6 then 16 else 4), port := (f.1.getD 6 0#32).toNat % 65536 } (wordsBytes words)

end Sys2Proof.Machine
end

