-- ==== Sys2Proof/Machine/Gap.lean ====
section
/-!
DEFINITION. Rates and grids of a channel (R163, R213, R232), the envelope (R111, R124, R242), and gap
records (R19, R454 to R456).
-/
namespace Sys2Proof.Machine

open Sys2Proof

/-! ### Settings of a channel -/

/-- A field as latest written, or as it is in force. -/
def State.gf (s : State) (inForce : Bool) (x : RegField) : Nat := if inForce then s.ef x else s.f x

/-- The duty of local channel `c`: 2n for Cn.A, 2n + 1 for Cn.B (R161). -/
def dutyOf (c : Nat) : Nat := c / 4

/-- Cluster of a duty. -/
def dutyCluster (d : Nat) : Nat := d / 2

/-- Scan register of a duty. -/
def scanReg (d : Nat) : Nat := if d % 2 = 0 then Reg.CNV_SCAN_A (d / 2) else Reg.CNV_SCAN_B (d / 2)

/-- MASK and RATE of a scan word. -/
def scanMask (w : Word) : Nat := fieldOf w 31 28
def scanRate (w : Word) : Nat := fieldOf w 23 0

/-- Bit `i` of a number. -/
def bitOf (n i : Nat) : Bool := n / 2 ^ i % 2 == 1

/-- Number of bits set among the lowest `k`. -/
def popCount (k n : Nat) : Nat := ((List.range k).filter (bitOf n ·)).length

/-- Rank of enabled channel `i` of a duty among the enabled ones (R163). -/
def scanRank (mask i : Nat) : Nat := popCount i mask

/-- A scan setting is valid (R164). -/
def scanValid (w : Word) : Bool :=
  let f := scanRate w
  let n := popCount 4 (scanMask w)
  decide (f * n ≤ 10000000) && (f == 0 || decide (80 * n ≤ 800000000 / f))

/-- Channel `c` of a scan word is converted. -/
def scanOn (w : Word) (c : Nat) : Bool := bitOf (scanMask w) (c % 4) && scanRate w != 0

/-- The frame rate F of local channel `c`'s duty (R163, R211). -/
def State.frameRate (s : State) (inForce : Bool) (c : Nat) : Nat :=
  scanRate (if inForce then s.eff (scanReg (dutyOf c)) else s.rd (scanReg (dutyOf c)))

/-- Start of frame `j` at rate `f`, in sample-clock cycles of the second (R163). -/
def frameStart (f j : Nat) : Nat := (j * 800000000 + f - 1) / f

/-- Charcoal settings of a channel. -/
structure ChrSet where
  en : Bool
  out : Bool
  fir : Bool
  rsmp : Bool
  frac : Bool
  d2 : Nat
  set : Nat
  proto : Nat
  r1 : Nat
  l : Nat
  m : Nat
  w : Nat
  phi : Nat
  deriving DecidableEq, Repr

/-- The settings that CHR_CH_CFG, CHR_CH_RSMP and CHR_CH_DELAY words give; stage 1 does not act on a remote slot. -/
def chrSetOf (c : Nat) (cfg rs dl : Word) : ChrSet :=
  { en := cfg.getLsbD 31, out := cfg.getLsbD 30, fir := cfg.getLsbD 29, rsmp := cfg.getLsbD 28, frac := cfg.getLsbD 27,
    d2 := fieldOf cfg 26 20 + 1, set := fieldOf cfg 19 14, proto := fieldOf cfg 13 12,
    r1 := if c < 96 then fieldOf cfg 11 6 + 1 else 1, l := fieldOf rs 31 16, m := fieldOf rs 15 0,
    w := fieldOf dl 31 16, phi := fieldOf dl 7 0 }

/-- The Charcoal settings of channel `c`. -/
def State.chrSet (s : State) (inForce : Bool) (c : Nat) : ChrSet :=
  if inForce then
    chrSetOf c (s.eff (Reg.CHR_CH_CFG c)) (s.eff (Reg.CHR_CH_RSMP c)) (s.eff (Reg.CHR_CH_DELAY c))
  else chrSetOf c (s.rd (Reg.CHR_CH_CFG c)) (s.rd (Reg.CHR_CH_RSMP c)) (s.rd (Reg.CHR_CH_DELAY c))


/-- The input rate of a channel: F for a local one, the delivered rate for a remote one (R211, R242). -/
def State.inRate (s : State) (inForce : Bool) (c : Nat) : Nat :=
  if c < 96 then s.frameRate inForce c else match s.remoteCh c with | some r => r.rate | none => 0

/-- CODED is set on local channel `c`. -/
def State.coded (s : State) (inForce : Bool) (c : Nat) : Bool :=
  decide (c < 96) && s.gf inForce (F.AFE_CH_CFG_CODED c) == 1

/-- CODE_TICKS of a channel in effect (R158). -/
def State.codeTicks (s : State) (c : Nat) : Nat := s.ef (F.AFE_CH_CODE_CODE_TICKS c)

/-- The rates after stages 1 to 3, for settings that are valid (R213). -/
def rates (x : ChrSet) (f : Nat) : Nat × Nat × Nat :=
  let r1 := f / x.r1
  let r2 := r1 / x.d2
  (r1, r2, if x.rsmp then r2 * x.l / x.m else r2)

/-- The continuous output rate of a channel (R211, R232). -/
def State.outRate (s : State) (inForce : Bool) (c : Nat) : Nat :=
  if s.coded inForce c then
    s.rate / max 1 (s.gf inForce (F.AFE_CH_CODE_CODE_TICKS c))
  else (rates (s.chrSet inForce c) (s.inRate inForce c)).2.2

/-- Channel `c` takes part in skew runs (R376): its cluster or lane is selected, and a local one's MODE is not OFF. -/
def State.skewChan (s : State) (c : Nat) : Bool :=
  if c < 96 then bitOf (s.f F.KND_SK_SEL_CLUSTERS) (c / 8) && s.ef (F.AFE_CH_CFG_MODE c) != 0
  else match s.remoteCh c with | some r => bitOf (s.f F.KND_SK_SEL_LANES) r.lane | none => false

/-- A skew run has begun in which channel `c` takes part (R376). -/
def State.skewSys (s : State) (c : Nat) : Bool :=
  match s.knd.run with | some r => r.ts.isSome && s.skewChan c | none => false

/-- Tick `t` lies in a skew run in which channel `c` takes part: the run in progress or the last one (R376). -/
def State.skewSysAt (s : State) (c t : Nat) : Bool :=
  (match s.knd.run with
    | some r => (match r.ts with | some a => decide (a ≤ t) | none => false) && s.skewChan c
    | none => false)
    || (match s.knd.ran with | some (a, b, l) => decide (a ≤ t) && decide (t < b) && l.contains c | none => false)

/-- The settings with the phase delay that stage 4, or the history path's delay, works with: the written delay plus the
channel's skew delay e (R378), counted at rate `r`. -/
def State.skewed (s : State) (c r : Nat) (x : ChrSet) : ChrSet :=
  let e := tabGet (fun _ => 0) s.knd.skew c
  if e = 0 then x
  else if x.frac then
    let tau := (256 * (x.w : Int) + (x.phi : Int) + rdiv (e * r) 1000000000).toNat
    { x with w := tau / 256, phi := tau % 256 }
  else { x with w := ((x.w : Int) + rdiv (e * r) 256000000000).toNat }

/-! ### Coefficient banks (R219, R221) -/

/-- Address of word offset `o` bytes of coefficient bank `b`. -/
def chrBankAddr (b o : Nat) : Nat := 0x780000 + 0x20000 * b + o

/-- NT of set `k` of bank `b`. -/
def State.chrNT (s : State) (b k : Nat) : Nat := (s.rd (chrBankAddr b (0x8000 + 4 * k))).toNat % 512

/-- Coefficient `h[t]` of set `k` with `nt` taps. -/
def State.chrTap (s : State) (b k nt t : Nat) : Int :=
  signedOf 24 (s.rd (chrBankAddr b (0x200 * k + 4 * min t (nt - 1 - t)))).toNat

/-- Coefficient `h[i]` of prototype `q`. -/
def State.chrProto (s : State) (b q i : Nat) : Int :=
  signedOf 24 (s.rd (chrBankAddr b (0x10000 + 0x2000 * q + 4 * min i (4095 - i)))).toNat

/-- Prototype `q` of bank `b` has a word that is not zero. -/
def State.protoSet (s : State) (b q : Nat) : Bool :=
  let lo := chrBankAddr b (0x10000 + 0x2000 * q)
  s.mem.any fun e => decide (lo ≤ e.1) && decide (e.1 < lo + 0x2000) && e.2 != 0#32

/-- The active coefficient bank. -/
def State.chrBank (s : State) : Option Nat :=
  if s.flag F.CHR_BANK_STAT_ACTIVE_VALID then some (s.f F.CHR_BANK_STAT_ACTIVE) else none

/-- Charcoal settings are valid at input rate `f` (R213). -/
def State.chrValid (s : State) (x : ChrSet) (f : Nat) (coded : Bool) (period : Nat) : Bool :=
  x.l != 0 && x.m != 0 && f % x.r1 == 0 && (f / x.r1) % x.d2 == 0 && (x.fir || x.d2 == 1) &&
  (!x.fir || (match s.chrBank with | some b => s.chrNT b x.set != 0 | none => false)) &&
  (!x.rsmp || ((f / x.r1 / x.d2 * x.l) % x.m == 0 && decide (x.l ≤ 4 * x.m) &&
    (match s.chrBank with | some b => s.protoSet b x.proto | none => false))) &&
  (!coded || s.rate % max 1 period == 0)

/-! ### The envelope -/

/-- The record of a bank for channel `c` (R111). -/
def State.recordOf (s : State) (bank c : Nat) : Option Demand :=
  (s.bank bank).demands.find? fun d => d.kind != 3 && d.source == c

/-- The record of a bank for edge source `e`. -/
def State.edgeRecord (s : State) (bank e : Nat) : Option Demand :=
  (s.bank bank).demands.find? fun d => d.kind == 3 && d.source == e

/-- Full rate of a record (R111). -/
def fullRate (d : Demand) : Nat := if d.kind = 1 then d.inRate else if d.kind = 3 then 0 else d.inRate / (d.lane + 1)

/-- The types of the detectors attached to channel `c`, as DETECT bits, and bit 3 while it is coded (R242). -/
def State.detTypes (s : State) (inForce : Bool) (c : Nat) : Nat :=
  (List.range 512).foldl (fun a d =>
    let w := if inForce then s.eff (Reg.CHR_DET_CFG d) else s.rd (Reg.CHR_DET_CFG d)
    let t := fieldOf w 30 28
    if w.getLsbD 31 && fieldOf w 12 0 == c && decide (1 ≤ t) && decide (t ≤ 3) then a ||| 2 ^ (t - 1) else a)
    (if s.coded inForce c then 8 else 0)

/-- The running converter demand of local channel `c` fits a record (R124). -/
def State.cnvFits (s : State) (inForce : Bool) (bank c : Nat) : Bool :=
  let w := if inForce then s.eff (scanReg (dutyOf c)) else s.rd (scanReg (dutyOf c))
  !scanOn w c || (match s.recordOf bank c with
    | some d => d.kind != 1 && decide (scanRate w ≤ d.inRate)
    | none => false)

/-- The running Charcoal demand of channel `c` fits its record (R242). -/
def State.chrFits (s : State) (inForce : Bool) (bank c : Nat) : Bool :=
  let x := s.chrSet inForce c
  !(x.en || s.coded inForce c) || (match s.recordOf bank c with
    | none => false
    | some d =>
      let f := s.inRate inForce c
      let nt := if x.fir then (match s.chrBank with | some b => s.chrNT b x.set | none => 0) else 0
      let types := s.detTypes inForce c
      let out := if x.out then s.outRate inForce c else 0
      decide (f ≤ d.inRate) && decide (out ≤ d.outRate) && decide (nt ≤ d.taps)
        && (types &&& d.detect) == types && (!x.rsmp || bitOf d.flags 1)
        && (!(x.en && bitOf d.flags 0) || decide (f / x.r1 ≤ fullRate d)))

/-- The running demand of the remote channel attached to slot `c` fits its record (R284). -/
def State.ptnFits (s : State) (bank c : Nat) : Bool :=
  match s.remoteCh c with
  | none => true
  | some r => (match s.recordOf bank c with
    | some d => d.kind == 1 && decide (r.rate ≤ d.inRate) && d.lane == r.lane
    | none => false)

/-- Whether every running demand fits the envelope of a bank (ENV_FIT, R129). -/
def State.envFits (s : State) (bank : Nat) : Bool :=
  ((List.range 96).all fun c => s.cnvFits true bank c) &&
  ((List.range 4192).all fun c => s.chrFits true bank c && (decide (c < 96) || s.ptnFits bank c))

/-- Record ENVELOPE_EXCEEDED for channel `c` and a register (R124). -/
def State.envExceeded (s : State) (c addr master : Nat) : State :=
  s.emit .ENVELOPE_EXCEEDED (objChannel c) [addr, master]

/-! ### Gap records -/

/-- The indices of a channel's grid at rate `r` and offset `ofs` (2^-16 ns) whose instants lie in tick `t` fall in
[first, last): first index of the tick's second whose instant is at or after a clock value within the second. -/
def idxAt (r : Nat) (units : Nat) : Nat := (units * r + secUnits - 1) / secUnits

/-- Number of grid points at rate `r` with instants before tick `t` of its second at tick rate `n`, for a grid that starts on
the second (R163). -/
def gridBefore (r n t : Nat) : Nat := ((t % n) * r + n - 1) / n

/-- A gap record of channel `c` over the ticks `t0` to `t1`, with indices counted at rate `r`. -/
def State.gapTicks (s : State) (c : Nat) (cause : GapCause) (conv : Bool) (t0 t1 r : Nat) : Gap :=
  let n := max 1 s.rate
  let i0 := gridBefore r n t0
  let i1 := (((t1 % n) + 1) * r + n - 1) / n
  let before := t0 / n * r + i0
  let after := t1 / n * r + i1
  { ch := c, cause := cause, queueWide := false, conv := conv, merged := false, inexact := false, queue := 0xFFFF,
    firstTick := t0, lastTick := t1, firstSec := t0 / n, firstIdx := i0,
    lastSec := (after - 1) / max 1 r, lastIdx := (after - 1) % max 1 r, seq := 0, count := after - before }

/-- A gap record of one sample. -/
def gapOne (c : Nat) (cause : GapCause) (conv : Bool) (tick sec idx : Nat) : Gap :=
  { ch := c, cause := cause, queueWide := false, conv := conv, merged := false, inexact := false, queue := 0xFFFF,
    firstTick := tick, lastTick := tick, firstSec := sec, firstIdx := idx, lastSec := sec, lastIdx := idx, seq := 0,
    count := 1 }

/-- The rate a gap record's indices run at. -/
def State.gapRate (s : State) (g : Gap) : Nat := if g.conv then s.frameRate true g.ch else s.outRate true g.ch

/-- `g` directly follows held record `p` of the same kind (R456). -/
def State.gapFollows (s : State) (p g : Gap) : Bool :=
  let same := p.ch == g.ch && p.cause == g.cause && p.queue == g.queue && p.conv == g.conv && p.queueWide == g.queueWide
  let next := if p.lastIdx + 1 < s.gapRate g then (p.lastSec, p.lastIdx + 1) else (p.lastSec + 1, 0)
  same && (if g.queueWide then g.firstTick == p.lastTick + 1
           else (g.firstSec, g.firstIdx) == next && (decide (g.ch < 96) || g.seq == p.seq + p.count))

/-- The largest COUNT of a record. -/
def gapMax : Nat := 0xFFFFFFFF

/-- Extend the newest held record of the channel (or queue), when the record directly follows it. -/
def State.gapExtend (s : State) (g : Gap) : List Gap → Option (List Gap)
  | [] => none
  | p :: r =>
    let mine := if g.queueWide then p.queueWide && p.queue == g.queue else !p.queueWide && p.ch == g.ch
    if mine then
      if s.gapFollows p g then
        some ({ p with lastTick := g.lastTick, lastSec := g.lastSec, lastIdx := g.lastIdx, merged := true,
                       count := min gapMax (p.count + g.count) } :: r)
      else none
    else (s.gapExtend g r).map (p :: ·)

/-- The first sample that follows a loss on channel `c` carries GPE (R19). -/
def State.setGpe (s : State) (c : Nat) : State :=
  { s with hub.gpe := tabSet (fun _ => false) s.hub.gpe c true }

/-- GPE for the next sample of channel `c`, and the state with the mark taken (R19). -/
def State.takeGpe (s : State) (c : Nat) : Bool × State :=
  (tabGet (fun _ => false) s.hub.gpe c, { s with hub.gpe := tabSet (fun _ => false) s.hub.gpe c false })

/-- The loss lies before Charcoal: of conversions, or of a partner's words. -/
def Gap.upstream (g : Gap) : Bool :=
  g.conv || (decide (96 ≤ g.ch) && [GapCause.linkBoth, .link, .frameBad, .fieldLate, .nodeSkip, .nodeLost, .tickStop, .restep].contains g.cause)

/-- A loss before Charcoal: the channel's first conversion, or partner's word, after it is to carry GPE on (R19). -/
def State.gpeAwait (s : State) (c : Nat) (p : Nat × Nat × Nat) : State :=
  { s with hub.gpeIn := tabMod (fun _ => []) s.hub.gpeIn c (· ++ [p]) }

/-- `p` comes before `q` by tick, then second, then index. -/
def posBefore (p q : Nat × Nat × Nat) : Bool :=
  decide (p.1 < q.1) || (p.1 == q.1 && (decide (p.2.1 < q.2.1) || (p.2.1 == q.2.1 && decide (p.2.2 < q.2.2))))

/-- The conversion of channel `c` at `p` is taken: GPE of the losses before it passes to the channel's next output word (R19). -/
def State.gpeReach (s : State) (c : Nat) (p : Nat × Nat × Nat) : State :=
  let l := tabGet (fun _ => []) s.hub.gpeIn c
  if l.any (posBefore · p) then
    { s with hub.gpeIn := tabSet (fun _ => []) s.hub.gpeIn c (l.filter fun q => !posBefore q p) }.setGpe c
  else s

/-- The mark of a gap record: on the sample that follows the loss (R19). -/
def State.gapGpe (s : State) (g : Gap) : State :=
  if g.queueWide then s
  else if g.upstream then s.gpeAwait g.ch (g.firstTick, g.firstSec, g.firstIdx)
  else s.setGpe g.ch

/-- Window length of detector `d` in ticks (R233). -/
def State.detWin (s : State) (d : Nat) : Nat := max 1 (s.ef (F.CHR_DET_WIN_WIN d))

/-- Detector `d` after a gap record of its channel: the windows of which it covers a tick are marked (R234). -/
def State.gapDet (s : State) (g : Gap) (d : Nat) (x : Det) : Det :=
  if s.ef (F.CHR_DET_CFG_CH d) == g.ch && !g.queueWide && decide (x.since ≤ g.lastTick) then
    { x with gaps := (g.firstTick, g.lastTick) :: x.gaps }
  else x

/-- A gap record covers a tick of the phase of a session that starts at tick `a`. -/
def Session.covers (x : Session) (g : Gap) (a : Option Nat) : Bool :=
  match a with
  | some a => decide (a ≤ g.lastTick) && decide (g.firstTick < a + x.settle + x.avg)
  | none => false

/-- A session channel after a gap record (R203): it covers a tick of either phase. -/
def gapSess (g : Gap) (x : Session) (y : SessCh) : SessCh :=
  { y with gap := y.gap || (y.ch == g.ch && !g.queueWide && (x.covers g x.zeroFrom || x.covers g x.fullFrom)) }

/-- The windows and the session that a gap record touches are marked (R203, R234). -/
def State.gapMarks (s : State) (g : Gap) : State :=
  { s with
    front.dets := s.front.dets.map fun (e : Nat × Option Det) => (e.1, e.2.map (s.gapDet g e.1)),
    front.session := s.front.session.map fun (x : Session) => { x with chans := x.chans.map (gapSess g x) } }

/-- Place a gap record in the hub's gap buffer (R455, R456), and mark the windows and the session it touches. -/
def State.gapHeld (s : State) (g : Gap) : State :=
  let s := s.gapMarks g
  if s.hub.gaps.length < 16384 then
    match s.hub.gapLost with
    | some f =>
      let g := { g with firstTick := f.firstTick, firstSec := f.firstSec, firstIdx := f.firstIdx, inexact := true }
      { s with hub.gaps := s.hub.gaps ++ [g], hub.gapLost := none, hub.gapLostCount := 0 }
    | none => { s with hub.gaps := s.hub.gaps ++ [g] }
  else
    match s.gapExtend g s.hub.gaps.reverse with
    | some l => { s with hub.gaps := l.reverse }
    | none =>
      let first := s.hub.gapLostCount == 0
      let s := { s with hub.gapLost := (match s.hub.gapLost with | some f => some f | none => some g),
                        hub.gapLostCount := s.hub.gapLostCount + 1 }
      if first then s.emit .GAP_OVERFLOW 0 [] else s

/-- A gap record (R455), with the channel's next continuous sample marked (R19). -/
def State.gap (s : State) (g : Gap) : State := (s.gapGpe g).gapHeld g

/-- The channels that are active: local ones whose duty converts them, and remote ones attached. -/
def State.active (s : State) (c : Nat) : Bool :=
  if c < 96 then scanOn (s.eff (scanReg (dutyOf c))) c else (s.remoteCh c).isSome

/-- Local channels converted and remote slots attached, in channel order. -/
def State.activeList (s : State) : List Nat :=
  (List.range 96).filter (s.active ·) ++ (s.front.remote.map (·.1))

/-! ### Mirroring (R302) -/

/-- This hub is steward (R297). -/
def State.steward (s : State) : Bool := s.flag F.PTN_STEW_STEWARD

/-- DATA of a mirror record (R302): that of ARM as Kindling lays it out; of the others, whose widths the spec does not give, 4 bytes a value
(DESIGN CHOICE, log entry 37). -/
def mirrorData (rtype : Nat) (data : List Int) : List Nat :=
  let n (i : Nat) := (data.getD i 0).toNat
  if rtype = 4 then leBytes 2 (n 0) ++ [n 1, 0] ++ leBytes 8 (n 2) ++ leBytes 4 (n 3) ++ leBytes 4 (n 4) ++ timeBytes (n 5) ++ leBytes 4 (n 6)
  else data.flatMap (leInt 4)

/-- A MIRROR frame leaves on the Slate link (R302): KIND, RTYPE, LEN, MSEQ, DATA. -/
def State.mirrorSend (s : State) (rtype m : Nat) (data : List Int) : State :=
  let d := mirrorData rtype data
  s.slateSend ([0x02, (rtype : Int), (d.length : Int), (m : Int)] ++ data) ([0x02, rtype] ++ leBytes 2 d.length ++ leBytes 4 m ++ d)

/-- The steward of a pair makes a mirror record and sends it (R302). -/
def State.mirror (s : State) (rtype : Nat) (data : List Int) : State :=
  if s.steward && s.flag F.PTN_CTRL_PAIR then
    let m := (s.hub.mseq + 1) % 2 ^ 32
    let s := { s with hub.mseq := m, hub.mirrorOut := s.hub.mirrorOut ++ [MirrorRec.mk m rtype data] }
    s.mirrorSend rtype m data
  else s

end Sys2Proof.Machine
end

