-- ==== Sys2Proof/Machine/Front.lean ====
section
/-!
DEFINITION. The sensor front ends (R132 to R160, R583): the checks of a register write, what a setting does
when it takes effect, the common-mode window, the excitation drivers, the user table and linearisation.
-/
namespace Sys2Proof.Machine

open Sys2Proof

/-- The field of `new` takes its value from `old`. -/
def keepField (new old : Word) (x : RegField) : Word := setField new x.hi x.lo (fieldOf old x.hi x.lo)

/-- The value of a field in a word. -/
def fw (w : Word) (x : RegField) : Nat := fieldOf w x.hi x.lo

/-- Keep field `x` when `bad`, and note it. -/
def keepIf (bad : Bool) (old : Word) (x : RegField) (r : Word × Bool) : Word × Bool :=
  if bad then (keepField r.1 old x, true) else r

/-! ### Checks of a write (R132, R136, R151, R158) -/

/-- A curve's requirement on MODE, VRANGE and BSUB (R150, R151). -/
def curveOk (curve mode vrange bsub : Nat) : Bool :=
  if 1 ≤ curve ∧ curve ≤ 8 then mode == 1 && decide (2 ≤ vrange)
  else if curve = 16 ∨ curve = 17 ∨ (24 ≤ curve ∧ curve ≤ 27) then mode == 2 && bsub == 1
  else true

/-- Curve numbers of R150. -/
def curveKnown (k : Nat) : Bool :=
  decide (k ≤ 8) || k == 16 || k == 17 || (decide (24 ≤ k) && decide (k ≤ 27)) || k == 40

/-- AFE_CH_CFG of channel `c`: what a write leaves, and whether any of it is discarded (R132, R136, R151). -/
def State.checkCfg (s : State) (c : Nat) (old new : Word) : Word × Bool :=
  let mode := F.AFE_CH_CFG_MODE c
  let vr := F.AFE_CH_CFG_VRANGE c
  let r := keepIf (decide (5 ≤ fw new mode)) old mode (new, false)
  let r := keepIf (decide (5 ≤ fw r.1 (F.AFE_CH_CFG_TIA c))) old (F.AFE_CH_CFG_TIA c) r
  let r :=
    if fw r.1 mode == 4 && fw r.1 vr == 3 then
      if fw r.1 vr != fw old vr then keepIf true old vr r else keepIf true old mode r
    else r
  let bs := F.AFE_CH_CFG_BSUB c
  let moved := fw r.1 mode != fw old mode || fw r.1 vr != fw old vr || fw r.1 bs != fw old bs
  let r := if moved && !curveOk (s.f (F.AFE_CH_LIN_CURVE c)) (fw r.1 mode) (fw r.1 vr) (fw r.1 bs) then
      (keepField (keepField (keepField r.1 old mode) old vr) old bs, true)
    else r
  if fw r.1 mode != 3 && (r.1.getLsbD 15 || old.getLsbD 15) then (old, true) else r

/-- AFE_CH_LIN of channel `c` (R132, R151). -/
def State.checkLin (s : State) (c : Nat) (old new : Word) : Word × Bool :=
  let r := keepIf (fw new (F.AFE_CH_LIN_CJM c) == 3) old (F.AFE_CH_LIN_CJM c) (new, false)
  let r := keepIf (decide (96 ≤ fw r.1 (F.AFE_CH_LIN_CJC_CH c))) old (F.AFE_CH_LIN_CJC_CH c) r
  let k := fw r.1 (F.AFE_CH_LIN_CURVE c)
  let ok := curveKnown k &&
    curveOk k (s.f (F.AFE_CH_CFG_MODE c)) (s.f (F.AFE_CH_CFG_VRANGE c)) (s.f (F.AFE_CH_CFG_BSUB c))
  keepIf (!ok) old (F.AFE_CH_LIN_CURVE c) r

/-- AFE_CH_AE of channel `c` (R132). -/
def checkAe (c : Nat) (old new : Word) : Word × Bool :=
  let r := keepIf (fw new (F.AFE_CH_AE_POL c) == 3) old (F.AFE_CH_AE_POL c) (new, false)
  let r := keepIf (fw r.1 (F.AFE_CH_AE_HPF c) == 3) old (F.AFE_CH_AE_HPF c) r
  keepIf (fw r.1 (F.AFE_CH_AE_THR c) == 0) old (F.AFE_CH_AE_THR c) r

/-- AFE_CH_CODE of channel `c` (R132, R158). -/
def State.checkCode (s : State) (c : Nat) (old new : Word) : Word × Bool :=
  let p := fw new (F.AFE_CH_CODE_CODE_TICKS c)
  keepIf (p == 0 || (s.f (F.AFE_CH_CFG_CODED c) == 1 && s.rate % p != 0)) old (F.AFE_CH_CODE_CODE_TICKS c) (new, false)

/-- AFE_EX_CTRL of driver `d` (R132). -/
def checkEx (d : Nat) (old new : Word) : Word × Bool :=
  let v := fw new (F.AFE_EX_CTRL_VSET d)
  keepIf (decide (v < 500) || decide (10000 < v)) old (F.AFE_EX_CTRL_VSET d) (new, false)

/-! ### The user table (R153, R154) -/

/-- Points of copy `k`. -/
def State.utN (s : State) (k : Nat) : Nat := if k = 0 then s.f F.AFE_UT_N0_N else s.f F.AFE_UT_N1_N
/-- Input and output of point `i` of copy `k`. -/
def State.utX (s : State) (k i : Nat) : Int := if k = 0 then s.fs (F.AFE_UT_X0_X i) else s.fs (F.AFE_UT_X1_X i)
def State.utY (s : State) (k i : Nat) : Int := if k = 0 then s.fs (F.AFE_UT_Y0_Y i) else s.fs (F.AFE_UT_Y1_Y i)

/-- Copy `k` may become active: at least 2 points, inputs strictly increasing (R153). -/
def State.utValid (s : State) (k : Nat) : Bool :=
  let n := s.utN k
  decide (2 ≤ n) && decide (n ≤ 1024) && (List.range (n - 1)).all fun i => decide (s.utX k i < s.utX k (i + 1))

/-- A write of AFE_UT_CTRL (R153): the change waits for its boundary, or is discarded with UT_BAD. -/
def State.utSelect (s : State) (m : Nat) (due : Nat) (sel : Bool) : State :=
  if s.flag F.AFE_UT_CTRL_SEL == sel then s
  else if s.utValid (b2n sel) then
    s.hold due Reg.AFE_UT_CTRL (if sel then 0x80000000#32 else 0#32) 0x80000000#32 m
  else s.emit .UT_BAD 0 [(b2n sel : Nat)]

/-! ### Words with status -/

/-- Status bits of a sample word (R23). -/
def bGPE : Nat := 0x80000000
def bXOV : Nat := 0x40000000
def bHLD : Nat := 0x20000000
def bRRD : Nat := 0x10000000
def bSYS : Nat := 0x08000000
def bSLW : Nat := 0x04000000
def bCMF : Nat := 0x02000000
def bOVL : Nat := 0x01000000

/-- A sample word of status bits and a value (R23). -/
def sampleWord (st : Nat) (v : Int) : Word := BitVec.ofNat 32 (st &&& 0xFF000000) ||| BitVec.ofNat 32 (bitsOf 24 v)

/-- The word is the invalid marker (R25). -/
def isInvalid (w : Word) : Bool := fieldOf w 23 0 == 0x800000 && w.getLsbD 24

/-- The invalid marker with the status bits of a word. -/
def markerOf (w : Word) : Word := BitVec.ofNat 32 ((w.toNat &&& 0xFF000000) ||| bOVL ||| 0x800000)

/-! ### Linearisation (R150 to R154) -/

/-- The user table at input `x`: none outside the table, else the output and whether it is clamped (R154). -/
def State.utEval (s : State) (k : Nat) (x : Int) : Option (Int × Bool) :=
  let n := s.utN k
  match (List.range (n - 1)).find? fun i => decide (s.utX k i ≤ x) && decide (x ≤ s.utX k (i + 1)) with
  | none => none
  | some i =>
    let x0 := s.utX k i
    let x1 := s.utX k (i + 1)
    let y := rdiv (s.utY k i * (x1 - x0) + (s.utY k (i + 1) - s.utY k i) * (x - x0)) (x1 - x0)
    some (clampTo 8388607 y, decide (clampTo 8388607 y ≠ y))

/-- Range of a curve of R150 in 0.001 °C. -/
def curveRange : Nat → Int × Int
  | 1 => (250000, 1820000)
  | 2 => (-200000, 1000000)
  | 3 => (-210000, 1200000)
  | 4 => (-200000, 1372000)
  | 5 => (-200000, 1300000)
  | 6 => (-50000, 1768000)
  | 7 => (-200000, 400000)
  | 8 => (-50000, 1768000)
  | 16 | 17 => (-200000, 850000)
  | _ => (-40000, 125000)

/-- VRANGE in µV. -/
def vrangeUv : Nat → Int
  | 0 => 10000000
  | 1 => 1000000
  | 2 => 100000
  | _ => 10000

/-- The bound of R150 on the difference between the hub's value of a curve and the standard's, in 10^-6 °C. -/
def curveBound (k : Nat) : Nat :=
  if k = 1 ∨ k = 6 ∨ k = 8 then 20000 else if k ≤ 8 then 10000 else if k ≤ 17 then 2000 else 5000

/-- R25 in Ω and β in K of an NTC curve (R150). -/
def ntcOf : Nat → Nat × Nat
  | 24 => (10000, 3435)
  | 25 => (10000, 3950)
  | 26 => (5000, 3380)
  | _ => (2252, 3891)

/-- 48 binary digits of log2 of `y` ÷ 2^64, for 2^64 ≤ `y` < 2^65, by repeated squaring. -/
def log2Digits : Nat → Nat → Nat → Nat
  | 0, _, a => a
  | n + 1, y, a =>
    let z := y * y / 2 ^ 64
    if 2 ^ 65 ≤ z then log2Digits n (z / 2) (2 * a + 1) else log2Digits n z (2 * a)

/-- ln (`a` ÷ `b`) in 2^-48, for positive numbers. -/
def lnRatio (a b : Nat) : Int :=
  let y := a * 2 ^ 160 / max 1 b
  let e := Nat.log2 y
  let m := if 64 ≤ e then y / 2 ^ (e - 64) else y * 2 ^ (64 - e)
  let l2 := ((e : Int) - 160) * (2 ^ 48 : Nat) + (log2Digits 48 m 0 : Nat)
  rdiv (l2 * 195103586505167) ((2 ^ 48 : Nat) : Int)

/-- The temperature in 10^-6 °C at which the beta equation of R150 gives a resistance of `q` in 2^-31 Ω:
T = 1 ÷ (1 ÷ 298.15 K + ln (R ÷ R25) ÷ β). -/
def ntcTemp (k : Nat) (q : Int) : Int :=
  let (r25, beta) := ntcOf k
  if q ≤ 0 then 1000000000
  else
    let l := lnRatio q.toNat (r25 * 2 ^ 31)
    let one : Int := ((2 ^ 48 : Nat) : Int)
    let den := (beta : Int) * one * 100 + 29815 * l
    if den ≤ 0 then 1000000000 else rdiv (beta * 29815 * one * 1000000) den - 273150000

/-- The temperature that curve `k` gives a quantity under its standard or equation, in 10^-6 °C (R150). -/
def curveTrue (k : Nat) (q : Int) : Int := if 24 ≤ k then ntcTemp k q else Config.standard k q

/-- A quantity through curve `k`: none outside the curve's range, else the result in 0.001 °C, which differs from the standard's by at most
the bound of R150 and is rounded to nearest, with ties away from zero (R152). -/
def curveValue (k : Nat) (q : Int) : Option Int :=
  let t := curveTrue k q
  if t < (curveRange k).1 * 1000 ∨ (curveRange k).2 * 1000 < t then none
  else some (rdiv (t + clampTo ((curveBound k : Int) - 500) (Config.curveError k q)) 1000)

/-- The cold-junction temperature of channel `c` in 0.001 °C, none when it has no valid one, and the status bits its supplier adds (R152). -/
def State.coldJunction (s : State) (c : Nat) : Option Int × Nat :=
  match s.ef (F.AFE_CH_LIN_CJM c) with
  | 0 => (some 0, 0)
  | 2 => (some (s.efs (F.AFE_CH_CJC_TCJ c)), 0)
  | _ => match tabGet (fun _ => none) s.front.lastOut (s.ef (F.AFE_CH_LIN_CJC_CH c)) with
    | none => (none, 0)
    | some (w, t) =>
      (if isInvalid w || decide (t < tabGet (fun _ => 0) s.front.curveAt c) then none else some (dataOf w),
       w.toNat &&& (bOVL ||| bCMF ||| bHLD))

/-- Linearise a word of local channel `c` (R152, R154). -/
def State.linearise (s : State) (c : Nat) (w : Word) : Word :=
  let k := s.ef (F.AFE_CH_LIN_CURVE c)
  let put (w : Word) (v : Option Int) : Word := match v with
    | some t => if isInvalid w then markerOf w else sampleWord w.toNat t
    | none => markerOf w
  if 96 ≤ c ∨ k = 0 then w
  else if k = 40 then
    if isInvalid w then w
    else match s.utEval (b2n (s.eflag F.AFE_UT_CTRL_SEL)) (dataOf w) with
    | none => markerOf w
    | some (y, sat) => sampleWord (w.toNat ||| (if sat then bXOV else 0)) y
  else if k ≤ 8 then
    let j := s.coldJunction c
    put (w ||| BitVec.ofNat 32 j.2) (j.1.bind fun tcj =>
      curveValue k (dataOf w * vrangeUv (s.ef (F.AFE_CH_CFG_VRANGE c)) + Config.emf k tcj))
  else put w (curveValue k (dataOf w * (s.ef (F.AFE_CH_RREF_RREF c) : Nat)))

/-- Sample ingress has written word `w` of local channel `x`, which may supply a cold junction (R152). -/
def State.supply (s : State) (x : Nat) (w : Word) : State :=
  if 96 ≤ x then s else { s with front.lastOut := tabSet (fun _ => none) s.front.lastOut x (some (w, s.tick.num)) }

/-! ### System coefficients in force (R206 to R208) -/

/-- The slew stands at its new pair in tick `t`: its length is over, or the generator stopped while it ran (R206, R207). -/
def Slew.over (x : Slew) (t : Nat) : Bool :=
  decide (x.start + x.len ≤ t) || (match x.cut with | some k => decide (k ≤ t) | none => false)

/-- The pair a slew gives in tick `t`, the present one before its start (R206). -/
def slewAt (x : Slew) (t : Nat) : Int × Int :=
  let j := t - x.start
  if x.over t then (x.g1, x.b1)
  else if t < x.start then (x.g0, x.b0)
  else (x.g0 + rdiv ((x.g1 - x.g0) * (j + 1 : Nat)) x.len, x.b0 + rdiv ((x.b1 - x.b0) * (j + 1 : Nat)) x.len)

/-- The slew that gives the pair of channel `c` in tick `t`: the latest, or before its start the one it took over from. -/
def State.slewOf (s : State) (c t : Nat) : Option Slew :=
  match tabGet (fun _ => none) s.front.slews c with
  | none => none
  | some x => if t < x.start then some ((tabGet (fun _ => none) s.front.slewOld c).getD x) else some x

/-- The pair of channel `c` under its record in tick `t`: G in 2^-28 and B in 2^-8 LSB. -/
def State.pairAt (s : State) (c t : Nat) : Int × Int :=
  match s.slewOf c t with
  | some x => slewAt x t
  | none => (tabGet (fun _ => none) s.front.pairs c).getD (268435456, 0)

/-- The pair of a channel in the tick that runs. -/
def State.pairOf (s : State) (c : Nat) : Int × Int := s.pairAt c s.tick.num

/-- The settings of local channel `c` are those of its record (R208). -/
def State.calMatch (s : State) (c : Nat) : Bool :=
  if 96 ≤ c ∨ s.f (F.CAL_CH_CTRL_TRACE c) = 0 then true
  else
    let a := BitVec.ofNat 32 (s.f (F.CAL_CH_AFE_CFG c))
    let b := s.eff (Reg.AFE_CH_CFG c)
    fw a (F.AFE_CH_CFG_MODE c) == fw b (F.AFE_CH_CFG_MODE c) && fw a (F.AFE_CH_CFG_VRANGE c) == fw b (F.AFE_CH_CFG_VRANGE c)
      && fw a (F.AFE_CH_CFG_TIA c) == fw b (F.AFE_CH_CFG_TIA c) && fw a (F.AFE_CH_CFG_AAF c) == fw b (F.AFE_CH_CFG_AAF c)
      && fw a (F.AFE_CH_CFG_BSUB c) == fw b (F.AFE_CH_CFG_BSUB c)

/-- The pair in force on channel `c` in tick `t` is shown in CAL_CH_GAIN, CAL_CH_OFS and MATCH. A slew that has run its length ends when no word of
its ticks can come any more, three ticks on (R206, R208, R231). -/
def State.calRefresh (s : State) (c t : Nat) : State :=
  let none' : Nat → Option Slew := fun _ => none
  let s : State := match tabGet none' s.front.slews c with
    | none => s
    | some x =>
      if x.over (t - 4) && decide (x.start + 4 ≤ t) then
        { s with front.pairs := tabSet (fun _ => none) s.front.pairs c (some (x.g1, x.b1)),
                 front.slews := tabSet none' s.front.slews c none, front.slewOld := tabSet none' s.front.slewOld c none }
      else s
  let ok := s.calMatch c
  let p := if ok then s.pairAt c t else (268435456, 0)
  ((s.wfs (F.CAL_CH_GAIN_G c) p.1).wfs (F.CAL_CH_OFS_B c) p.2).wb (F.CAL_CH_CTRL_MATCH c) ok

/-- A slewed pair is applied on channel `c` in tick `t` (R206, R208). -/
def State.slewing (s : State) (c t : Nat) : Bool :=
  (match s.slewOf c t with | some x => decide (x.start ≤ t) && !x.over t | none => false) && s.calMatch c

/-- Changes that CONFIG_CHANGED names took effect on the channels of `l` (R203). -/
def State.sessConfig (s : State) (l : List Nat) : State :=
  let on := s.f F.CAL_SYS_STAT_PHASE != 4 && s.f F.CAL_SYS_STAT_PHASE != 5
  { s with
    front.cfgNow := s.front.cfgNow ++ l,
    front.session := s.front.session.map fun (x : Session) =>
      if x.sysOn && on then { x with chans := x.chans.map fun (y : SessCh) => if l.contains y.ch then { y with config := true } else y }
      else x }

/-! ### Settings take effect (R133, R138, R140, R142, R148, R160) -/

/-- A declared common-mode fault ends (R146, R148). -/
def State.cmClear (s : State) (c : Nat) : State :=
  if s.flag (F.AFE_CH_STAT_CMF c) then
    let dur := (s.tick.clock - tabGet (fun _ => 0) s.front.cmSince c) / 65536
    (s.wf (F.AFE_CH_STAT_CMF c) 0).emit .CM_CLEAR (objChannel c) [dur]
  else s

/-- The debounce counts of channel `c` are reset (R148). -/
def State.cmReset (s : State) (c : Nat) : State :=
  { s with front.cmOut := tabSet (fun _ => 0) s.front.cmOut c 0, front.cmIn := tabSet (fun _ => 0) s.front.cmIn c 0 }

/-- Settling and recovery time of a transimpedance setting, in ns (R583). -/
def tiaTime : Nat → Nat
  | 0 => 2000
  | 1 => 5000
  | 2 => 20000
  | 3 => 200000
  | _ => 2000000

/-- Settling time of the anti-alias filter of a setting, in ns; in mode AE that of the AE filters. -/
def filterTime (mode aaf : Nat) : Nat :=
  if mode = 4 then 1000
  else match aaf with
    | 0 => 2000000
    | 1 => 200000
    | 2 => 20000
    | _ => 2000

/-- The settling time in ns of a change of AFE_CH_CFG: the largest that applies (R138). -/
def settleTime (c : Nat) (old new : Word) : Nat :=
  let d (x : RegField) := fw old x != fw new x
  let mode := d (F.AFE_CH_CFG_MODE c)
  let a := if mode then 1000000 else 0
  let b := if d (F.AFE_CH_CFG_VRANGE c) || d (F.AFE_CH_CFG_BSUB c) || d (F.AFE_CH_CFG_OPEN_DET c) then 50000 else 0
  let t := if d (F.AFE_CH_CFG_TIA c) then tiaTime (fw new (F.AFE_CH_CFG_TIA c)) else 0
  let f := if mode || d (F.AFE_CH_CFG_AAF c) then filterTime (fw new (F.AFE_CH_CFG_MODE c)) (fw new (F.AFE_CH_CFG_AAF c)) else 0
  max (max a b) (max t f)

/-- A settling time of `ns` begins on channel `c`; one that runs longer goes on (R138, R148). -/
def State.settle (s : State) (c ns : Nat) : State :=
  let s := { s with front.settleTo := tabMod (fun _ => 0) s.front.settleTo c (max · (s.tick.clock + ns * 65536)) }
  ((s.wf (F.AFE_CH_STAT_SETTLING c) 1).cmReset c).cmClear c

/-- The correlator of channel `c` starts with the first code period that begins at or after this boundary (R158, log entry 126). -/
def State.corrStart (s : State) (c : Nat) : State :=
  let p := max 1 (s.ef (F.AFE_CH_CODE_CODE_TICKS c))
  { s with front.corrs := tabSet (fun _ => none) s.front.corrs c
             (some { period := p, start := (s.tick.num + p - 1) / p * p, chips := [], or := 0, tia := none }) }

/-- A change of AFE_CH_CFG of channel `c` has taken effect. -/
def State.cfgTaken (s : State) (c : Nat) (old new : Word) : State :=
  let d (x : RegField) := fw old x != fw new x
  let s := if old != new then s.sessConfig [c] else s
  let s := if settleTime c old new = 0 then s else s.settle c (settleTime c old new)
  let s := if d (F.AFE_CH_CFG_CODED c) then
      if new.getLsbD 15 then s.corrStart c
      else ({ s with front.corrs := tabSet (fun _ => none) s.front.corrs c none }.wf (F.AFE_CH_STAT_EXCL c) 0).wr (Reg.CHR_CH_AMB c) 0#32
    else s
  let s := if d (F.AFE_CH_CFG_MODE c) && fw new (F.AFE_CH_CFG_MODE c) != 2 then
      { s with front.senseLow := tabSet (fun _ => false) s.front.senseLow c false }.wf (F.AFE_CH_STAT_SENSE_LOW c) 0 else s
  s.calRefresh c s.tick.num

/-- A TIA change of a coded channel reaches its boundary (R160): the new feedback, its settling time, and TIA_SWITCH. -/
def State.tiaSwitch (s : State) (c tia : Nat) : State :=
  let old := s.eff (Reg.AFE_CH_CFG c)
  let mask := 0x700#32
  let s := s.setNow (Reg.AFE_CH_CFG c) (BitVec.ofNat 32 (tia * 256)) mask
  (s.cfgTaken c old (s.eff (Reg.AFE_CH_CFG c))).emit .TIA_SWITCH (objChannel c) [tia, s.tick.num]

/-- The driver output voltage now, in mV, on its ramp of 1 V/ms (R140). -/
def State.driverOut (s : State) (d : Nat) : Nat :=
  let a := tabGet (fun _ => 0) s.front.rampFrom d
  let b := tabGet (fun _ => 0) s.front.rampTo d
  let moved := (s.tick.clock - tabGet (fun _ => 0) s.front.rampAt d) / (65536 * 1000)
  if a ≤ b then min b (a + moved) else max b (a - moved)

/-- The output of driver `d` moves to a new target (R140). -/
def State.rampTo (s : State) (d target : Nat) : State :=
  if tabGet (fun _ => 0) s.front.rampTo d = target then s
  else { s with front.rampFrom := tabSet (fun _ => 0) s.front.rampFrom d (s.driverOut d),
                front.rampTo := tabSet (fun _ => 0) s.front.rampTo d target,
                front.rampAt := tabSet (fun _ => 0) s.front.rampAt d s.tick.clock }

/-- The driver takes its set-point: the ceiling when VSET exceeds it (R142), 0 V while it is off or its tile is down (R12). -/
def State.driverSet (s : State) (d : Nat) : State :=
  let on := s.eflag (F.AFE_EX_CTRL_EN d) && !tabGet (fun _ => false) s.front.tileStop d
  let v := s.ef (F.AFE_EX_CTRL_VSET d)
  let top := s.f (F.FNC_EXd_VMAX d)
  let s := s.wb (F.AFE_EX_STAT_CLAMP d) (decide (top < v))
  s.rampTo d (if on then min v top else 0)

/-- A write of AFE_EX_CTRL has taken effect (R140 to R142). -/
def State.exTaken (s : State) (d : Nat) (old new : Word) : State :=
  let s := if old != new then
      (s.sessConfig ((List.range 4).map (4 * d + ·))).wf (F.AFE_EX_STAT_COMPLY d) 0 else s
  let s := { s with front.comply := tabSet (fun _ => false) s.front.comply d false, front.force := tabSet (fun _ => 0) s.front.force d 0 }
  let s := s.driverSet d
  if s.f (F.FNC_EXd_VMAX d) < fw new (F.AFE_EX_CTRL_VSET d) then
    (s.fenceHit 0).emit .EXC_CLAMP (objUnit d) [fw new (F.AFE_EX_CTRL_VSET d), s.f (F.FNC_EXd_VMAX d)]
  else s

/-- A change of AFE_CH_LIN of channel `c` has taken effect: from when a new curve stands (R152). -/
def State.linTaken (s : State) (c : Nat) (old new : Word) : State :=
  if fw old (F.AFE_CH_LIN_CURVE c) != fw new (F.AFE_CH_LIN_CURVE c) then
    { s with front.curveAt := tabSet (fun _ => 0) s.front.curveAt c s.tick.num } else s

/-- Driver `d` presents high impedance on its force pins: it is off and its ramp to 0 V is over (R140). -/
def State.driverHiZ (s : State) (d : Nat) : Bool := !s.eflag (F.AFE_EX_CTRL_EN d) && s.driverOut d == 0

/-- The voltage across the force pins of driver `d` in mV (R140, R141): none at high impedance; with REMOTE what regulation needs once it is
known, else the ramp's. -/
def State.driverForce (s : State) (d : Nat) : Option Int :=
  if s.driverHiZ d then none
  else
    let f := tabGet (fun _ => 0) s.front.force d
    some (if s.eflag (F.AFE_EX_CTRL_REMOTE d) && decide (0 < f) && s.eflag (F.AFE_EX_CTRL_EN d) then f else (s.driverOut d : Nat))

/-! ### Rows -/

/-- The settling time of channel `c` is over (R138). -/
def execSettleEnd (c : Fin 96) (s : State) : Host.Outcome State Fault Refusal :=
  .next (if s.tick.clock < tabGet (fun _ => 0) s.front.settleTo c then s else s.wf (F.AFE_CH_STAT_SETTLING c) 0)

/-- A common-mode check of channel `c` at `mv` mV (R146, R147). -/
def State.cmCheck (s : State) (c : Nat) (mv : Int) : State :=
  if s.ef (F.AFE_CH_CFG_MODE c) = 0 ∨ s.flag (F.AFE_CH_STAT_SETTLING c) then s
  else
    let hi := decide (s.efs (F.AFE_CH_CM_CM_HI c) * 100 < mv)
    let lo := decide (mv < s.efs (F.AFE_CH_CM_CM_LO c) * 100)
    if hi || lo then
      let n := tabGet (fun _ => 0) s.front.cmOut c + 1
      let s := { s with front.cmOut := tabSet (fun _ => 0) s.front.cmOut c n,
                        front.cmIn := tabSet (fun _ => 0) s.front.cmIn c 0 }
      if !s.flag (F.AFE_CH_STAT_CMF c) && decide (max 1 (s.ef (F.AFE_CH_CM_DEB_ON c)) ≤ n) then
        let cls := if hi then 1 else 2
        let s := { s with front.cmSince := tabSet (fun _ => 0) s.front.cmSince c s.tick.clock }
        (((s.wf (F.AFE_CH_STAT_CMF c) 1).wf (F.AFE_CH_STAT_CMCLASS c) cls).bump (F.AFE_CH_STAT_CMCOUNT c) 1).emit
          .CM_FAULT (objChannel c) [(cls : Nat)]
      else s
    else
      let n := tabGet (fun _ => 0) s.front.cmIn c + 1
      let s := { s with front.cmIn := tabSet (fun _ => 0) s.front.cmIn c n,
                        front.cmOut := tabSet (fun _ => 0) s.front.cmOut c 0 }
      if max 1 (s.ef (F.AFE_CH_CM_DEB_OFF c)) * 64 ≤ n then s.cmClear c else s

def execCmCheck (c : Fin 96) (mv : Int) (s : State) : Host.Outcome State Fault Refusal := .next (s.cmCheck c mv)

/-- The largest force voltage of driver `d` in mV, across its pins: ±12 V from ground on each, with one pin at ground when SINGLE is set (R141). -/
def State.forceMax (s : State) (d : Nat) : Int := if s.eflag (F.AFE_EX_CTRL_SINGLE d) then 12000 else 24000

/-- Remote regulation of driver `d` needs `force` mV across the force pins for its sense pair to read VSET (R141): the driver drives that, or
holds the limit, and an episode of COMPLY begins or ends. -/
def State.excComply (s : State) (d : Nat) (force : Int) : State :=
  if !(s.eflag (F.AFE_EX_CTRL_EN d) && s.eflag (F.AFE_EX_CTRL_REMOTE d)) then s
  else
    let at' := decide (s.forceMax d ≤ force)
    let was := tabGet (fun _ => false) s.front.comply d
    let s := { s with front.force := tabSet (fun _ => 0) s.front.force d (min force (s.forceMax d)),
                      front.comply := tabSet (fun _ => false) s.front.comply d at' }
    let s := s.wb (F.AFE_EX_STAT_COMPLY d) at'
    if at' && !was then s.emit .EXC_COMPLY (objUnit d) [] else s

def execExcComply (x : Comply) (s : State) : Host.Outcome State Fault Refusal := .next (s.excComply x.driver x.force)

def execExcLimit (d : Fin 24) (s : State) : Host.Outcome State Fault Refusal :=
  .next (if decide (0 < s.driverOut d) && !s.flag (F.AFE_EX_STAT_LIMIT d) then
    ({ s with front.limitAt := tabSet (fun _ => none) s.front.limitAt d (some s.tick.clock) }.wf
      (F.AFE_EX_STAT_LIMIT d) 1 |>.fenceHit 1).emit .EXC_LIMIT (objUnit d) [] else s)

def execExcLimitEnd (d : Fin 24) (s : State) : Host.Outcome State Fault Refusal :=
  .next (if s.flag (F.AFE_EX_STAT_LIMIT d) then
    let t := (tabGet (fun _ => none) s.front.limitAt d).getD s.tick.clock
    ({ s with front.limitAt := tabSet (fun _ => none) s.front.limitAt d none }.wf (F.AFE_EX_STAT_LIMIT d) 0).emit
      .EXC_LIMIT_END (objUnit d) [(((s.tick.clock - t) / 65536 : Nat) : Int)] else s)

def execUtSelect (m : Master) (sel : Bool) (s : State) : Host.Outcome State Fault Refusal :=
  .next (s.utSelect (masterCode m) s.nextDue sel)

/-- A driver's output stage changes its rails (R558). -/
def execExcitationRailMove (d : Fin 24) (high : Bool) (s : State) : Host.Outcome State Fault Refusal :=
  .next { s with front.highRail := tabSet (fun _ => false) s.front.highRail d high }

end Sys2Proof.Machine
end

