-- ==== Sys2Proof/Machine/Conv.lean ====
section
/-!
DEFINITION. Converter cores and scanning (R161 to R185): conversions, the slice-mismatch estimator, and the
visits of the spare core.
-/
namespace Sys2Proof.Machine

open Sys2Proof

/-! ### Cores and duties -/

def block0 : BlockSums :=
  { n := 0, n0 := 0, s0 := 0, q0 := 0, n1 := 0, s1 := 0, q1 := 0, na := 0, da := 0, nb := 0, db := 0, prev := none }
def core0 : CoreSt :=
  { up := false, next := 0, last := none, ran := false, moved := none, run := none, strayed := false, block := block0, full := none }
def duty0 : DutySt := { prevScan := 0#32, since := 0, fails := 0 }

/-- Core `q` = 3n + p. -/
def State.core (s : State) (q : Nat) : CoreSt := tabGet (fun _ => core0) s.front.cores q
def State.setCore (s : State) (q : Nat) (x : CoreSt) : State :=
  { s with front.cores := tabSet (fun _ => core0) s.front.cores q x }
/-- Duty `d`. -/
def State.duty (s : State) (d : Nat) : DutySt := tabGet (fun _ => duty0) s.front.duties d
def State.setDuty (s : State) (d : Nat) (x : DutySt) : State :=
  { s with front.duties := tabSet (fun _ => duty0) s.front.duties d x }
/-- The visit of cluster `n`. -/
def State.visit (s : State) (n : Nat) : Option Visit := tabGet (fun _ => none) s.front.visits n
def State.setVisit (s : State) (n : Nat) (x : Option Visit) : State :=
  { s with front.visits := tabSet (fun _ => none) s.front.visits n x }
/-- The core run of tile `t`. -/
def State.coreRun (s : State) (t : Nat) : Option CoreRun := tabGet (fun _ => none) s.front.runs t
def State.setRun (s : State) (t : Nat) (x : Option CoreRun) : State :=
  { s with front.runs := tabSet (fun _ => none) s.front.runs t x }

/-- The physical core that holds duty `k` (0 A, 1 B) of cluster `n` (R161). -/
def State.holder (s : State) (n k : Nat) : Nat := if k = 0 then s.f (F.CNV_ROLE_A_CORE n) else s.f (F.CNV_ROLE_B_CORE n)
/-- The physical core that is the spare. -/
def State.spareOf (s : State) (n : Nat) : Nat := s.f (F.CNV_ROLE_S_CORE n)

/-- Tile of a cluster. -/
def tileOfCluster (n : Nat) : Nat := n / 3

/-- A tile link that is up. -/
def tile0 : TileSt :=
  { down := false, lostTick := 0, marked := false, fromClock := 0, retrying := false, lossFrom := none, resumeAt := 0 }
def State.tile (s : State) (t : Nat) : TileSt := tabGet (fun _ => tile0) s.hub.tiles t
def State.setTile (s : State) (t : Nat) (x : TileSt) : State := { s with hub.tiles := tabSet (fun _ => tile0) s.hub.tiles t x }

/-- Tile `t` is marked TILE_DOWN (R12). -/
def State.tileDownNow (s : State) (t : Nat) : Bool := (s.tile t).marked

/-- The cores of tile `t` convert at hub clock `i`: no reset of its link or of the sample clock holds them, and they have resumed (R533). -/
def State.tileConverts (s : State) (t i : Nat) : Bool :=
  !(s.tile t).marked && !(s.tile t).down && !s.inReset 1 && decide ((s.tile t).resumeAt ≤ i)

/-- The hub clock is in holdover (R20, R321). -/
def State.holdover (s : State) : Bool := s.f F.PTP_SERVO_STAT_STATE == 4

/-! ### Conversions (R137, R139, R162, R163, R167) -/

/-- Conversions of rank `i` at frame rate `f` with instants before hub clock `x`. -/
def instsBefore (f i x : Nat) : Nat :=
  let o := x % secUnits
  let k := (o + 81919) / 81920 - 80 * i
  x / secUnits * f + (if k = 0 then 0 else min f ((k - 1) * f / 800000000 + 1))

/-- The instant of conversion `k`, counted from second 0. -/
def instOf (f i k : Nat) : Nat := k / f * secUnits + (frameStart f (k % f) + 80 * i) * 81920

/-- The slice that the next conversion of a core takes at instant `i` (R162, R167): slice 0 after a power-up. -/
def sliceAt (x : CoreSt) (i : Nat) : Nat :=
  match x.last with
  | none => 0
  | some l => if !x.up || decide (l + 160 * 81920 + 1600 * 81920 < i) then 0 else x.next

/-- A core after a conversion on `slice` at instant `i`, when its scan engine's next instant is `next`: it powers down at the end of the busy
interval when the gap exceeds 2 µs (R167). -/
def afterConv (x : CoreSt) (slice i : Nat) (next : Option Nat) : CoreSt :=
  { x with up := match next with | some n => decide (n ≤ i + 160 * 81920 + 1600 * 81920) | none => false,
           next := 1 - slice, last := some i }

/-- A core takes an instant at least 100 ns after its last one, and so a slice one at least 200 ns after (R162). -/
def coreFree (x : CoreSt) (i : Nat) : Bool := match x.last with | some l => decide (l + 80 * 81920 ≤ i) | none => true

/-- The instant after that of channel `c` in frame `j` of second `sec` in the schedule of duty `d`, under scan word `w`; `old` says that the frame
started before the last change (R163, R165). -/
def State.nextInst (s : State) (d c : Nat) (w : Word) (old : Bool) (sec j inst : Nat) : Option Nat :=
  let x := s.duty d
  let new := s.eff (scanReg d)
  let frame := instOf (scanRate w) 0 (sec * scanRate w + j + 1)
  if scanRank (scanMask w) (c % 4) + 1 < popCount 4 (scanMask w) then some (inst + 80 * 81920)
  else if !old || decide (frame < x.since) then some frame
  else if scanMask new = 0 ∨ scanRate new = 0 then none
  else some (instOf (scanRate new) 0 (instsBefore (scanRate new) 0 x.since))

/-- Recovery time after an overload, in 2^-16 ns (R139): by TIA in mode CURRENT, else 5 µs. -/
def recovery (mode tia : Nat) : Nat := (if mode = 3 then tiaTime tia else 5000) * 65536

/-- Bring a result inside ±(2^19 − 1) (R137). -/
def clamp20 (v : Int) : Int := clampTo 524287 v

/-- An input as a 20-bit conversion (R135, R137, R583): in 10^-12 V against ±VRANGE, in mode CURRENT in 10^-15 A against ±2.5 V ÷ feedback, rounded
to nearest and limited to ±(2^19 − 1). The input is what the slice samples: behind the filters, its own errors referred to the input
(log entry 120). -/
def codeOf (mode vrange tia : Nat) (x : Int) : Int :=
  clamp20 (rdiv (x * 524288) ((10 ^ (13 - (if mode = 3 then tia else vrange)) : Nat) : Int))

/-- Magnitude of 98 % of full scale (R139). -/
def overRange (raw : Int) : Bool := decide (513803 ≤ raw.natAbs)

/-- The session channel record of `c`, when SYS is set on it (R199). -/
def State.sysOf (s : State) (c : Nat) : Option SessCh :=
  match s.front.session with
  | some x => if x.sysOn then x.chans.find? (·.ch == c) else none
  | none => none

/-- An overload of earlier conversions still counts at instant `inst` (R139): the last that was out of range fell at `e`. -/
def ovrHolds (e : Option Nat) (inst rec' : Nat) : Bool :=
  match e with
  | some e => decide (inst < e + rec') || decide (inst ≤ e)
  | none => false

/-- The overload record of a channel after a conversion of value `y` at `inst`. -/
def ovrNote (t : Tab (Option Nat)) (c inst : Nat) (y : Int) : Tab (Option Nat) :=
  if overRange y then tabSet (fun _ => none) t c (some inst) else t

/-- The spare core `p` of a visit converts the same instant in the shadow (R177): its raw value, slice and overload, which holds for the recovery
time of its own conversions too (R139). -/
def State.shadowConv (s : State) (p : Option Nat) (c inst : Nat) (next : Option Nat) (y : Int) (rec' : Nat) (ovl : Bool) :
    Option (Int × Nat × Bool) × State :=
  match p with
  | some p =>
    let k := s.core p
    let sl := sliceAt k inst
    let o := ovrNote s.front.ovrS c inst y
    let s : State := { s with front.ovrS := o }
    (some (y, sl, ovl || ovrHolds (tabGet (fun _ => none) o c) inst rec'), s.setCore p (afterConv k sl inst next))
  | none => (none, s)

/-- The conversion of channel `c` at instant `inst`, frame `j` of second `sec` (R12, R44, R133, R135 to R139, R163 to R165, R177, R198). -/
def State.convertAt (s : State) (c d sec j inst : Nat) (next : Option Nat) (input : Int) (ovr : Option Nat) (spare : Option Int) : State :=
  let n := d / 2
  let t := s.tick.num
  let q := 3 * n + s.holder n (d % 2)
  let k := s.core q
  let slice := sliceAt k inst
  let s := s.setCore q (afterConv k slice inst next)
  let mode := s.ef (F.AFE_CH_CFG_MODE c)
  let tia := s.ef (F.AFE_CH_CFG_TIA c)
  let code := codeOf mode (s.ef (F.AFE_CH_CFG_VRANGE c)) tia
  let rec' := recovery mode tia
  let raw := code input
  let s := if mode = 0 then s else { s with front.ovr := ovrNote s.front.ovr c inst raw }
  let held := ovrHolds (tabGet (fun _ => none) s.front.ovr c) inst rec'
  let comp := match ovr with
    | some a => a == 0 || decide (a * 65536 < rec')
    | none => false
  let ovl := decide (inst < tabGet (fun _ => 0) s.front.settleTo c) || comp || mode == 0 || held
  let set := { mode := mode, bsub := s.ef (F.AFE_CH_CFG_BSUB c), vrange := s.ef (F.AFE_CH_CFG_VRANGE c),
               vset := s.ef (F.AFE_EX_CTRL_VSET d),
               gain := match s.sysOf c with | some y => y.g0 | none => (s.f (F.CAL_CH_GAIN_G c) : Nat),
               ofs := match s.sysOf c with | some y => y.b0 | none => s.fs (F.CAL_CH_OFS_B c) }
  let shadow := match s.visit n with
    | some v => if v.duty == some (d % 2) && decide (v.ts ≤ t) && s.holder n (d % 2) == v.core then some (3 * n + v.spare) else none
    | none => none
  let r := s.shadowConv shadow c inst next (code (spare.getD input)) rec' ovl
  let s := r.2.wb (F.AFE_CH_STAT_OVL_NOW c) ovl
  { s with front.convs := s.front.convs ++
      [{ ch := c, core := q, slice := slice, sec := sec, j := j, inst := inst, tick := t,
         raw := if mode = 0 then -524288 else raw, ovl := ovl, cmf := s.flag (F.AFE_CH_STAT_CMF c), hld := s.holdover,
         sys := (s.sysOf c).isSome || s.skewSys c, slw := (s.sysOf c).isNone && s.slewing c t, invalid := mode == 0, lost := false,
         delivered := false, set := set, spare := r.1 }] }

/-- The conversion of channel `c` in frame `j` of the network second of the current tick (R163): `old` says that the frame
started under the setting before the last change (R165); `input` is what the core samples at the instant (R135), `ovr` how long ago, in ns, the
last comparator overload of R139 ended, 0 while one lasts, and `spare` what a shadowing spare samples, when that differs. Nothing happens when
the schedule has no such conversion in this tick, or when its core is not free (R162, log entry 121): a channel converts once in a frame. -/
def State.convert (s : State) (c j : Nat) (old : Bool) (input : Int) (ovr : Option Nat) (spare : Option Int) : State :=
  let d := dutyOf c
  let x := s.duty d
  let w := if old then x.prevScan else s.eff (scanReg d)
  let f := scanRate w
  let t := s.tick.num
  let lo := boundaryClock s.rate t
  let hi := boundaryClock s.rate (t + 1)
  let off := (frameStart f j + 80 * scanRank (scanMask w) (c % 4)) * 81920
  let sec := t / s.rate
  let sec := if hi ≤ sec * secUnits + off then sec - 1 else sec
  let start := sec * secUnits + frameStart f j * 81920
  let inst := sec * secUnits + off
  if s.genState == 1 && scanOn w c && decide (j < f) && decide (lo ≤ inst) && decide (inst < hi)
      && (if old then decide (start < x.since) else decide (x.since ≤ start)) && s.tileConverts (c / 24) inst
      && coreFree (s.core (3 * (d / 2) + s.holder (d / 2) (d % 2))) inst then
    s.convertAt c d sec j inst (s.nextInst d c w old sec j inst) input ovr spare
  else s

def execConversion (c : Fin 96) (j : Nat) (old : Bool) (input : Int) (ovr : Option Nat) (spare : Option Int) (s : State) :
    Host.Outcome State Fault Refusal := .next (s.convert c j old input ovr spare)

/-- A powered-down core begins its start-up: its next conversion goes to slice 0 (R167). -/
def execCoreStartUp (q : Fin 36) (s : State) : Host.Outcome State Fault Refusal :=
  .next (if (s.core q).up then s else s.setCore q { s.core q with up := true, next := 0 })

/-! ### Requests of visits (R173 to R176, R180) -/

/-- Three consecutive checks of the duty of `r` have failed, and the request does not come through CNV_VISIT (R180). -/
def State.reqBarred (s : State) (r : VisitReq) : Bool :=
  match r.duty with
  | some k => r.cls != 3 && decide (3 ≤ (s.duty (2 * r.cluster + k)).fails)
  | none => false

/-- Queue work; a repeated request merges into the queued one (R173). -/
def State.request (s : State) (r : VisitReq) : State :=
  if s.reqBarred r then s
  else
  let same (q : VisitReq) := q.cluster == r.cluster && q.duty == r.duty
  let s := if s.front.reqs.any same then
      { s with front.reqs := s.front.reqs.map fun q => if same q then { q with force := q.force || r.force } else q }
    else { s with front.reqs := s.front.reqs ++ [r] }
  match r.duty with
  | some k => s.wf (F.CNV_VISIT_STAT_QUEUED r.cluster) (s.f (F.CNV_VISIT_STAT_QUEUED r.cluster) ||| 2 ^ k)
  | none => s

/-- The queued requests of a cluster that `p` picks leave the queue. -/
def State.unrequest (s : State) (n : Nat) (p : VisitReq → Bool) : State :=
  let s := { s with front.reqs := s.front.reqs.filter fun q => !(q.cluster == n && p q) }
  let bit (k : Nat) := if s.front.reqs.any fun q => q.cluster == n && q.duty == some k then 2 ^ k else 0
  s.wf (F.CNV_VISIT_STAT_QUEUED n) (bit 0 + bit 1)

/-- RESULT of cluster `n`. -/
def State.visitResult (s : State) (n r : Nat) : State := s.wf (F.CNV_VISIT_STAT_RESULT n) r

/-- STATE of core `p` of cluster `n`. -/
def State.coreState (s : State) (n p v : Nat) : State := s.wf (F.CNV_Pp_STATE_STATE n p) v

/-- The visit of cluster `n` ends before its handover with RESULT `r`: the spare stops, X keeps the duty (R181). -/
def State.endVisit (s : State) (n r : Nat) : State :=
  (((s.setVisit n none).wf (F.CNV_ROLE_VISIT n) 0).wf (F.CNV_ROLE_PHASE n) 0 |>.visitResult n r).coreState n (s.spareOf n) 2

def execVisitRequest (_ : Master) (n : Fin 12) (duty : Fin 2) (force : Bool) (s : State) : Host.Outcome State Fault Refusal :=
  .next (s.request { cls := 3, cluster := n, duty := some duty.val, force := force })

def execSpareRunRequest (_ : Master) (n : Fin 12) (s : State) : Host.Outcome State Fault Refusal :=
  .next (s.request { cls := 1, cluster := n, duty := none, force := false })

/-- CANCEL (R181): before its check completes, the visit in progress stops at the next boundary; a queued visit leaves the
queue. -/
def State.visitCancel (s : State) (n : Nat) : State :=
  match s.visit n with
  | some v =>
    if v.duty.isSome && v.verdict.isNone then s.setVisit n (some { v with stopping := some 0x08 }) else s
  | none =>
    if s.front.reqs.any fun q => q.cluster == n && q.duty.isSome then
      (s.unrequest n (·.duty.isSome)).visitResult n 0x08
    else s

def execVisitCancel (_ : Master) (n : Fin 12) (s : State) : Host.Outcome State Fault Refusal := .next (s.visitCancel n)

/-- A write of CNV_VISIT. -/
def State.visitWrite (s : State) (n : Nat) (w : Word) : State :=
  let s := if w.getLsbD 31 then
      s.request { cls := 3, cluster := n, duty := some (w.toNat % 2), force := w.getLsbD 29 } else s
  let s := if w.getLsbD 30 then s.request { cls := 1, cluster := n, duty := none, force := false } else s
  if w.getLsbD 28 then s.visitCancel n else s

/-- A rotation visit falls due in cluster `n` (R175). -/
def execRotationRequest (n : Fin 12) (s : State) : Host.Outcome State Fault Refusal :=
  .next (if s.flag F.CNV_ROT_CTRL_AUTO then
    let k := tabGet (fun _ => 0) s.front.rot n
    let s := { s with front.rot := tabSet (fun _ => 0) s.front.rot n (1 - k) }
    if s.front.reqs.any fun q => q.cluster == n.val && q.duty.isSome then s
    else s.request { cls := 4, cluster := n, duty := some k, force := false }
  else s)

/-- The temperature trigger at k = 0 of a second (R176). -/
def State.tempTrigger (s : State) : State :=
  let dt := s.f F.CNV_ROT_CTRL_CAL_DT
  (List.range 36).foldl (fun s q =>
    let n := q / 3
    let p := q % 3
    let far := dt != 0 && (s.core q).ran &&
      decide (2 * dt < (s.fs (F.UMB_SENSs_VALUE (tileOfCluster n)) - s.fs (F.CNV_Pp_RUN_TEMP_TEMP n p)).natAbs)
    if s.f (F.CNV_Pp_STATE_STATE n p) = 5 then s
    else if p = s.spareOf n then
      if far then s.request { cls := 1, cluster := n, duty := none, force := false } else s
    else if far then
      s.request { cls := 2, cluster := n, duty := some (if p = s.holder n 0 then 0 else 1), force := false }
    else s) s

def execTempTriggerEval (s : State) : Host.Outcome State Fault Refusal := .next s.tempTrigger

/-- INTERVAL seconds after a failed check the duty is queued again, up to its third consecutive failure (R180). -/
def execVisitRetry (n : Fin 12) (duty : Fin 2) (s : State) : Host.Outcome State Fault Refusal :=
  let k := (s.duty (2 * n + duty)).fails
  .next (if 1 ≤ k ∧ k < 3 then s.request { cls := 4, cluster := n, duty := some duty.val, force := false } else s)

/-- INTERVAL seconds after a refused run the run is repeated, unless the core is FAULTY (R185). -/
def execCoreRunRetry (n : Fin 12) (s : State) : Host.Outcome State Fault Refusal :=
  let p := s.spareOf n
  .next (if s.f (F.CNV_Pp_STATE_REFUSALS n p) ≠ 0 ∧ s.f (F.CNV_Pp_STATE_STATE n p) ≠ 5 ∧ (s.visit n).isNone then
    s.request { cls := 1, cluster := n, duty := none, force := false } else s)

/-! ### The course of a visit (R173, R177 to R185, R190) -/

/-- No channel of the duty carries SYS (R173). -/
def State.dutySys (s : State) (d : Nat) : Bool := (List.range 4).any fun i => (s.sysOf (4 * d + i)).isSome

/-- Queued work `r` may begin (R173, R190). -/
def State.mayBegin (s : State) (r : VisitReq) : Bool :=
  let t := tileOfCluster r.cluster
  (s.visit r.cluster).isNone && !s.tileDownNow t && (s.coreRun t).isNone && s.flag (F.CAL_REF_STAT_REF_OK t)
    && s.f (F.CNV_Pp_STATE_STATE r.cluster (s.spareOf r.cluster)) != 5
    && (match r.duty with
        | some k => s.flag (F.CNV_ROLE_S_VALID r.cluster) && !s.dutySys (2 * r.cluster + k)
            && !((List.range 4).any fun i => s.skewSys (4 * (2 * r.cluster + k) + i))
        | none => true)

/-- A run of core `p` of cluster `n` starts on REFCAL (R184, R189). -/
def State.startRun (s : State) (n p : Nat) : State :=
  let t := tileOfCluster n
  (s.setRun t (some { core := 3 * n + p, vfs := s.f (F.CAL_REF_VFS_VFS t), vmid := s.f (F.CAL_REF_VMID_VMID t),
                      refFell := false })).coreState n p 4

/-- The run of core `p` of cluster `n` starts when the tile's REFCAL pins are free and its link is up (R174, R182); else it waits. -/
def State.tryRun (s : State) (n p : Nat) : State :=
  if (s.coreRun (tileOfCluster n)).isNone && !s.tileDownNow (tileOfCluster n) then s.startRun n p else s

/-- Queued work of tile `t` in the order of R174 that may begin, if there is any. -/
def State.nextReq (s : State) (t : Nat) : Option VisitReq :=
  let mine := s.front.reqs.filter fun r => tileOfCluster r.cluster == t && s.mayBegin r
  [1, 2, 3, 4].findSome? fun c => mine.find? (·.cls == c)

/-- The next queued work of tile `t` begins (R173, R174); none begins while Stoker is not running. -/
def State.visitBegin (s : State) (t : Nat) : State :=
  if !s.stokerUp then s
  else match s.nextReq t with
    | none => s
    | some r =>
      let n := r.cluster
      let p := s.spareOf n
      let s := s.unrequest n (· == r)
      let x := match r.duty with | some k => s.holder n k | none => p
      let s := s.setVisit n (some { duty := r.duty, force := r.force, core := x, spare := p, ts := s.tick.num + 2, tm := none,
                                    verdict := none, forced := false, stopping := none, doubt := none, chans := [], pairs := [] })
      let s := s.wf (F.CNV_ROLE_VISIT n) 1
      match r.duty with
      | some _ => (s.wf (F.CNV_ROLE_PHASE n) 1).coreState n p 3
      | none => (s.wf (F.CNV_ROLE_PHASE n) 4).startRun n p

def execVisitBegin (t : Fin 4) (s : State) : Host.Outcome State Fault Refusal := .next (s.visitBegin t)

/-- The scan setting of duty `d` under which a frame that starts at hub clock `i` converts (R165). -/
def State.scanAt (s : State) (d i : Nat) : Word := if i < (s.duty d).since then (s.duty d).prevScan else s.eff (scanReg d)

/-- The channels of duty `d` that were enabled at hub clock `i`. -/
def State.dutyChans (s : State) (d i : Nat) : List Nat := ((List.range 4).map (4 * d + ·)).filter fun c => scanOn (s.scanAt d i) c

/-- The differences that the check uses for channel `c` (R178): those of the overlap tick, and the latest earlier ones
while they are fewer than `want`. -/
def checkDiffs (pairs : List (Nat × Nat × Int)) (c tm want : Nat) : List Int :=
  let mine := pairs.filter fun x => x.1 == c
  let now := mine.filter fun x => x.2.1 == tm
  let earlier := mine.filter fun x => decide (x.2.1 < tm)
  (now ++ earlier.take (want - now.length)).map (·.2.2)

/-- The mean rounded to LSB, and the RMS about the mean rounded to LSB. -/
def meanRms (l : List Int) : Int × Nat :=
  let n : Int := l.length
  if l.length = 0 then (0, 0)
  else
    let sum := l.sum
    let sq := (l.map fun x => x * x).sum
    let v := n * sq - sum * sum
    (rdiv sum n, (Nat.sqrt (4 * v.toNat / (l.length * l.length)) + 1) / 2)

/-- The check of channel `c` passes: |mean| and RMS within the limits, compared exactly (R178). -/
def withinLimits (l : List Int) (mean rms : Nat) : Bool :=
  let n : Int := l.length
  let sum := l.sum
  let sq := (l.map fun x => x * x).sum
  decide (sum.natAbs ≤ mean * l.length) && decide (n * sq - sum * sum ≤ ((rms * l.length) ^ 2 : Nat))

/-- PAIRS; 0 acts as 1. -/
def State.matchPairs (s : State) : Nat := max 1 (s.f F.CNV_MATCH_CFG_PAIRS)

/-- The channel with the larger |mean| of two lists of differences, compared exactly; the first of equal ones (R178, R180). -/
def worseMean (a x : Nat × List Int) : Nat × List Int :=
  if a.2.sum.natAbs * x.2.length < x.2.sum.natAbs * a.2.length then x else a

/-- The match check of cluster `n` completes (R178 to R180). -/
def State.matchCheck (s : State) (n : Nat) : State :=
  match s.visit n with
  | none => s
  | some v =>
    match v.tm, v.verdict with
    | some tm, none =>
      let l := v.chans.map fun c => (c, checkDiffs v.pairs c tm s.matchPairs)
      let ok := l.all fun x => withinLimits x.2 (s.f F.CNV_MATCH_CFG_MEAN) (s.f F.CNV_MATCH_CFG_RMS)
      let worst := l.foldl worseMean (l.headD (0, []))
      let rms := (l.map fun x => (meanRms x.2).2).foldl max 0
      let s := ((s.wf (F.CNV_MATCH_RES_CH n) worst.1).wfs (F.CNV_MATCH_RES_MEAN n) (clampTo 2047 (meanRms worst.2).1)).wf
        (F.CNV_MATCH_RES_RMS n) (min 4095 rms)
      let s := if ok || v.force then s.wf (F.CNV_ROLE_PHASE n) 2 else s
      s.setVisit n (some { v with verdict := some (ok || v.force), forced := !ok && v.force })
    | _, _ => s

def execMatchCheck (n : Fin 12) (s : State) : Host.Outcome State Fault Refusal := .next (s.matchCheck n)

/-- Shadowing has lasted CNV_SHADOW_MAX ticks without the overlap tick, the staging of the last of them having closed: the spare stops at the next
boundary (R181). -/
def execShadowShort (n : Fin 12) (s : State) : Host.Outcome State Fault Refusal :=
  let last := fun (v : Visit) => v.ts + s.f F.CNV_SHADOW_MAX_TICKS
  .next (match s.visit n with
    | some v => if v.duty.isSome && v.tm.isNone && (decide (last v < s.tick.num) || (last v == s.tick.num && s.tick.stagingClosed)) then
        s.setVisit n (some { v with stopping := some 0x03 }) else s
    | none => s)

/-- Duty `k` of cluster `n` passes from X to the spare, and X goes to calibration (R179, R184): CNV_ROLE takes its new
values. -/
def State.handOver (s : State) (n k : Nat) (v : Visit) : State :=
  let s := if k = 0 then s.wf (F.CNV_ROLE_A_CORE n) v.spare else s.wf (F.CNV_ROLE_B_CORE n) v.spare
  let s := ((s.wf (F.CNV_ROLE_S_CORE n) v.core).wf (F.CNV_ROLE_S_VALID n) 0).wf (F.CNV_ROLE_PHASE n) 3
  let s := (s.coreState n v.spare k).coreState n v.core 4
  let d := 2 * n + k
  let s := s.setDuty d { s.duty d with fails := 0 }
  let s := (List.range 4).foldl (fun (s : State) i =>
    let c := 4 * d + i
    let later (a b : Option Nat) : Option Nat := match a, b with | some x, some y => some (max x y) | some x, none => some x | none, y => y
    { s with front.ovr := tabSet (fun _ => none) s.front.ovr c
               (later (tabGet (fun _ => none) s.front.ovr c) (tabGet (fun _ => none) s.front.ovrS c)),
             front.ovrS := tabSet (fun _ => none) s.front.ovrS c none }) s
  (s.wf (F.CNV_VISIT_STAT_FAILS n) 0).setVisit n (some { v with verdict := some true })

/-- The conversions of the ticks after `tm` on duty `d` are delivered from the spare (R179). -/
def takeSpare (d tm q : Nat) (c : Conv) : Conv :=
  if dutyOf c.ch = d ∧ tm < c.tick then
    match c.spare with
    | some (y, sl, ov) => { c with raw := if c.invalid then c.raw else y, slice := sl, ovl := ov, core := q, spare := none }
    | none => c
  else c

/-- A visit whose check has passed hands its duty over (R179, R180, R184). -/
def State.visitPass (s : State) (n k tm : Nat) (v : Visit) : State :=
  let s := { s with front.convs := s.front.convs.map (takeSpare (2 * n + k) tm (3 * n + v.spare)) }
  let s := (s.handOver n k v).emit .VISIT_HANDOVER (objUnit n) [k, (tm + 1 : Nat)]
  let s := if v.forced then (s.visitResult n 0x06).emit .VISIT_FORCED (objUnit n) [k] else s
  s.tryRun n v.core

/-- A visit whose check has failed ends (R180). -/
def State.visitFail (s : State) (n k : Nat) : State :=
  let d := 2 * n + k
  let s := s.endVisit n 0x02
  let fails := (s.duty d).fails + 1
  let s := (s.setDuty d { s.duty d with fails := fails }).wf (F.CNV_VISIT_STAT_FAILS n) (min 255 fails)
  s.emit .VISIT_MISMATCH (objUnit n) [s.f (F.CNV_MATCH_RES_CH n), s.fs (F.CNV_MATCH_RES_MEAN n), s.f (F.CNV_MATCH_RES_RMS n)]

/-- The course of cluster `n`'s visit at the boundary of tick `t` (R179 to R184, R190). -/
def State.visitBoundary (s : State) (n t : Nat) : State :=
  match s.visit n with
  | none => s
  | some v =>
    match v.duty with
    | none => if s.flag (F.CAL_REF_STAT_REF_OK (tileOfCluster n)) then s.tryRun n v.core else s
    | some k =>
      let w := s.eff (scanReg (2 * n + k))
      if s.f (F.CNV_ROLE_PHASE n) = 3 then s.tryRun n v.core
      else match v.stopping, v.tm, v.verdict with
        | some r, _, _ => s.endVisit n r
        | none, none, _ => if v.ts ≤ t ∧ (scanMask w = 0 ∨ scanRate w = 0) then (s.handOver n k v).tryRun n v.core else s
        | none, some tm, some true => if tm + 2 ≤ t then s.visitPass n k tm v else s
        | none, some tm, some false => if tm + 2 ≤ t then s.visitFail n k else s
        | none, some _, none => s

/-- A visit before its handover meets a case that ends it unless the tick before is the overlap tick, which the close of that tick's staging
shows: RESULT `r` waits for it, or stands at once (R181). -/
def State.visitDoubt (s : State) (n r : Nat) (v : Visit) : State :=
  if v.tm.isSome then s
  else if s.tick.stagingClosed || s.genState != 1 then s.endVisit n r
  else if v.doubt.isSome then s
  else s.setVisit n (some { v with doubt := some r })

/-- A change of a duty's scan setting has taken effect (R165, R181, R203). A frame in progress goes on under the setting that stood before this
boundary. -/
def State.scanTaken (s : State) (d : Nat) (old new : Word) : State :=
  if old = new then s
  else
    let b := boundaryClock s.rate s.tick.num
    let x := s.duty d
    let s := s.setDuty d { x with prevScan := if x.since = b ∧ b ≠ 0 then x.prevScan else old, since := b }
    let s := s.sessConfig ((List.range 4).map (4 * d + ·))
    let n := d / 2
    match s.visit n with
    | some v =>
      if v.duty == some (d % 2) && decide (v.ts + 1 ≤ s.tick.num) && s.f (F.CNV_ROLE_PHASE n) != 3 then s.visitDoubt n 0x04 v else s
    | none => s

/-- The visits of a tile that goes down (R181, R182). -/
def State.visitsDown (s : State) (t : Nat) : State :=
  [3 * t, 3 * t + 1, 3 * t + 2].foldl (fun s n =>
    match s.visit n with
    | some v => if v.duty.isSome && s.f (F.CNV_ROLE_PHASE n) != 3 then s.visitDoubt n 0x05 v else s
    | none => s) (s.setRun t none)

/-! ### Core runs (R191 to R194) -/

/-- Sum and difference of the full-scale means. -/
def sumPN (m : SliceMeas) : Int := m.plus + m.minus
def difPN (m : SliceMeas) : Int := m.plus - m.minus

/-- Mid-scale residual l_s × VFS in 2^-9 LSB (R192). -/
def linOf (r : CoreRun) (m : SliceMeas) : Int :=
  (2 * m.mid - sumPN m) * (r.vfs : Nat) - difPN m * (r.vmid : Nat)

/-- The denominator of g_s (R192): g_s = 2,500,000 × (m_p − m_n) ÷ this. -/
def gainDen (r : CoreRun) : Int := 2 * 256 * (r.vfs : Nat) * 524288

/-- The mismatch values of a run (R192). -/
def misOfs (m0 m1 : SliceMeas) : Int := rdivs ((sumPN m1 * difPN m0 - sumPN m0 * difPN m1) * 16) (512 * difPN m0)
def misGain (m0 m1 : SliceMeas) : Int := rdivs ((difPN m1 - difPN m0) * 1048576) (difPN m0)

/-- The code of a run (R193): the first check that fails, 0x20 when none does. -/
def State.coreCode (s : State) (r : CoreRun) (m0 m1 : SliceMeas) (ovl : Bool) : Nat :=
  let any (p : SliceMeas → Bool) := p m0 || p m1
  if r.refFell then 0x21
  else if ovl then 0x22
  else if any fun m => decide (s.f F.CAL_CORE_WIN1_NOISE_MAX * 256 < m.noise) then 0x23
  else if any fun m => decide (s.f F.CAL_CORE_WIN0_OFS_MAX * 512 < (sumPN m).natAbs) then 0x24
  else if any fun m => decide ((s.f F.CAL_CORE_WIN0_GAIN_MAX : Int) * gainDen r <
      ((difPN m * 2500000 - gainDen r) * 65536).natAbs) then 0x25
  else if any fun m => decide (s.f F.CAL_CORE_WIN1_ZERO_MAX * 512 < (2 * m.zero - sumPN m).natAbs) then 0x26
  else if any fun m => decide (s.f F.CAL_CORE_WIN1_LIN_MAX * 512 * r.vfs < (linOf r m).natAbs) then 0x27
  else if decide (1024 < (misOfs m0 m1).natAbs) || decide (4194 < (misGain m0 m1).natAbs) then 0x28
  else 0x20

/-- The mismatch registers of core `q` take new values, in force at once. -/
def State.putMis (s : State) (q : Nat) (ofs gain skew : Int) : State :=
  let put (s : State) (r : Nat) (v : Int) : State := s.setNow r (BitVec.ofNat 32 (bitsOf 16 v)) 0xFFFF#32
  let s := put s (Reg.CNV_Pp_MIS_OFS (q / 3) (q % 3)) ofs
  put (put s (Reg.CNV_Pp_MIS_GAIN (q / 3) (q % 3)) gain) (Reg.CNV_Pp_MIS_SKEW (q / 3) (q % 3)) skew

/-- The core run of tile `t` ends (R184, R185, R192, R193). -/
def State.coreCalDone (s : State) (t : Nat) (m0 m1 : SliceMeas) (ovl : Bool) : State :=
  match s.coreRun t with
  | none => s
  | some r =>
    let q := r.core
    let n := q / 3
    let p := q % 3
    let code := s.coreCode r m0 m1 ovl
    let lin := (max (linOf r m0).natAbs (linOf r m1).natAbs + r.vfs) / (2 * max 1 r.vfs)
    let inPlace := match s.visit n with | some v => v.duty.isNone | none => true
    let forced := match s.visit n with | some v => v.forced | none => false
    let s := (s.setRun t none).setVisit n none
    let s := ((s.wf (F.CAL_CORE_RES_CODE q) code).wf (F.CAL_CORE_RES_LIN q) (min 65535 lin)).wf (F.CNV_ROLE_VISIT n) 0
      |>.wf (F.CNV_ROLE_PHASE n) 0
    let s := if inPlace then s else s.bumpWrap (F.CNV_VISIT_STAT_COUNT n) 1
    let tag : Int := (s.rd (Reg.CAL_REF_TAG t)).toNat
    if code = 0x20 then
      let s := (s.wfs (F.CAL_CORE_OFS_OFS q) (rdiv (sumPN m0 * 16) 512)).wfs (F.CAL_CORE_GAIN_GAIN q)
        (rdivs ((difPN m0 * 2500000 - gainDen r) * 16777216) (gainDen r))
      let s := (s.wr (Reg.CAL_CORE_TAG q) (s.rd (Reg.CAL_REF_TAG t))).wf (F.CAL_CORE_RES_SRC q) 1
      let s := (s.putMis (3 * n + p) (misOfs m0 m1) (misGain m0 m1) 0).wf (F.CNV_Pp_EST_FROZEN n p) 0
      let s := (s.wf64 (F.CNV_Pp_RUN_LO_TICK n p) (F.CNV_Pp_RUN_HI_TICK n p) s.tick.num).wf (F.CNV_Pp_RUN_TEMP_TEMP n p)
        (s.f (F.UMB_SENSs_VALUE t))
      let s := s.setCore q { s.core q with ran := true, moved := none, run := some (misOfs m0 m1, misGain m0 m1), strayed := false, block := block0,
                                           full := none }
      let s := ((s.wf (F.CNV_Pp_STATE_REFUSALS n p) 0).coreState n p 2).wf (F.CNV_ROLE_S_VALID n) 1
      (s.visitResult n (if inPlace then 0x09 else if forced then 0x06 else 0x01)).emit .CORE_CAL_DONE (objUnit q) [code, tag]
    else
      let k := s.f (F.CNV_Pp_STATE_REFUSALS n p) + 1
      let s := ((s.bump (F.CNV_Pp_STATE_REFUSALS n p) 1).wf (F.CNV_ROLE_S_VALID n) 0).visitResult n 0x07
      let s := (s.coreState n p (if 3 ≤ k then 5 else 4)).emit .CORE_CAL_REFUSED (objUnit q) [code, tag]
      if 3 ≤ k then s.emit .CORE_FAULTY (objUnit q) [] else s

def execCoreCalDone (t : Fin 4) (m0 m1 : SliceMeas) (ovl : Bool) (s : State) : Host.Outcome State Fault Refusal :=
  .next (s.coreCalDone t m0 m1 ovl)

/-! ### The slice-mismatch estimator (R170 to R172) -/

/-- The duty that physical core `q` holds, if it holds one. -/
def State.dutyHeld (s : State) (q : Nat) : Option Nat :=
  let n := q / 3
  if s.holder n 0 = q % 3 then some (2 * n) else if s.holder n 1 = q % 3 then some (2 * n + 1) else none

/-- The estimator runs on core `q` (R170). -/
def State.estRuns (s : State) (q : Nat) : Bool :=
  match s.dutyHeld q with
  | none => false
  | some d =>
    let w := s.eff (scanReg d)
    popCount 4 (scanMask w) == 1 && decide (1000000 ≤ scanRate w) && s.flag (F.CNV_Pp_EST_EN (q / 3) (q % 3))
      && !s.flag (F.CNV_Pp_EST_FROZEN (q / 3) (q % 3))

/-- One more conversion of a block: its second, frame, slice and raw value (R170). -/
def BlockSums.take (b : BlockSums) (sec j slice : Nat) (x : Int) : BlockSums :=
  let sq (v : Int) : Nat := (v * v).toNat
  let b := match b.prev with
    | some (_, _, p, y) =>
      if p = 0 ∧ slice = 1 then { b with nb := b.nb + 1, db := b.db + sq (x - y) }
      else if p = 1 ∧ slice = 0 then { b with na := b.na + 1, da := b.da + sq (x - y) } else b
    | none => b
  let b := { b with n := b.n + 1, prev := some (sec, j, slice, x) }
  if slice = 0 then { b with n0 := b.n0 + 1, s0 := b.s0 + x, q0 := b.q0 + sq x } else { b with n1 := b.n1 + 1, s1 := b.s1 + x, q1 := b.q1 + sq x }

/-- Frame (`sec`, `j`) of a scan of `f` frames a second is followed by the other. -/
def frameFollows (f : Nat) (a b : Nat × Nat) : Bool := (if a.2 + 1 < f then (a.1, a.2 + 1) else (a.1 + 1, 0)) == b

/-- Conversions of a block (R170). -/
def blockLen : Nat := 1048576

/-- The block that the estimator of core `q` gathers is discarded. -/
def State.estDrop (s : State) (q : Nat) : State :=
  if (s.core q).block.n = 0 then s else s.setCore q { s.core q with block := block0 }

/-- Conversion `x` joins the block of its core (R170): one that carries OVL or CMF (`bad`) or does not follow the last discards the block. -/
def State.estFeed (s : State) (x : Conv) (bad : Bool) : State :=
  let k := s.core x.core
  if !s.estRuns x.core || bad then s.estDrop x.core
  else
    let f := scanRate (s.scanAt (dutyOf x.ch) x.inst)
    let follows := match k.block.prev with
      | some (sec, j, _, _) => frameFollows f (sec, j) (x.sec, x.j)
      | none => false
    let b := (if follows then k.block else block0).take x.sec x.j x.slice x.raw
    s.setCore x.core (if b.n = blockLen then { k with block := block0, full := some b } else { k with block := b })

/-- A block ends on core `q` (R170, R171): the fields it will hold from the next boundary, or MISMATCH_RANGE. -/
def State.estimate (s : State) (q : Nat) (b : BlockSums) : State :=
  let n := q / 3
  let p := q % 3
  let n0 : Int := b.n0
  let n1 : Int := b.n1
  let v0 := (n0 * (b.q0 : Nat) - b.s0 * b.s0).toNat
  let v1 := (n1 * (b.q1 : Nat) - b.s1 * b.s1).toNat
  let all := ((b.n : Int) * ((b.q0 + b.q1 : Nat) : Int) - (b.s0 + b.s1) * (b.s0 + b.s1))
  if all < ((4096 * b.n) ^ 2 : Nat) then s
  else
    let s := s.bumpWrap (F.CNV_Pp_EST_BLOCKS n p) 1
    let ofs := s.efs (F.CNV_Pp_MIS_OFS_OFS n p)
    let gain := s.efs (F.CNV_Pp_MIS_GAIN_GAIN n p)
    let skew := s.efs (F.CNV_Pp_MIS_SKEW_SKEW n p)
    let ofs' := ofs + rdiv (16 * (b.s1 * n0 - b.s0 * n1) - ofs * (n0 * n1)) (16 * (n0 * n1))
    let ratio : Int := Nat.sqrt (v1 * b.n0 ^ 2 * 2 ^ 80 / max 1 (v0 * b.n1 ^ 2))
    let gain' := gain + rdiv (ratio - 2 ^ 40 - gain * 2 ^ 20) (16 * 2 ^ 20)
    let x : Int := ((b.db * b.na : Nat) : Int)
    let y : Int := ((b.da * b.nb : Nat) : Int)
    let skew' := if x + y = 0 then skew else skew + rdiv (50000000 * (x - y) - skew * (x + y)) (16 * (x + y))
    let bad := if 1024 < ofs'.natAbs then some 0 else if 4194 < gain'.natAbs then some 1
      else if 20000 < skew'.natAbs then some 2 else none
    match bad with
    | some f =>
      let s := (s.wf (F.CNV_Pp_EST_FROZEN n p) 1).emit .MISMATCH_RANGE (objUnit q) [(f : Nat)]
      (match s.dutyHeld q with
       | some d => s.request { cls := 2, cluster := n, duty := some (d % 2), force := false }
       | none => s)
    | none => s.setCore q { s.core q with moved := some (ofs', gain', skew') }

/-- The block that core `q` has completed is taken up; with the estimator no longer running it is discarded (R170). -/
def State.estBlock (s : State) (q : Nat) : State :=
  match (s.core q).full with
  | none => s
  | some b =>
    let s := s.setCore q { s.core q with full := none }
    if s.estRuns q then s.estimate q b else s

def execEstimatorBlock (tile : Fin 4) (cluster core : Fin 3) (s : State) : Host.Outcome State Fault Refusal :=
  .next (s.estBlock (9 * tile + 3 * cluster + core))

/-- OFS and GAIN of the last calibration run of core `q`, or of the production test (R172, R194). -/
def State.lastRun (s : State) (q : Nat) : Int × Int :=
  let otp (a : Nat) : Int := signedOf 16 ((Config.factory a).toNat % 65536)
  (s.core q).run.getD (otp (Reg.CNV_Pp_MIS_OFS (q / 3) (q % 3)), otp (Reg.CNV_Pp_MIS_GAIN (q / 3) (q % 3)))

/-- The mismatch fields of core `q` at a boundary (R170, R172): an accepted block moves them; where the estimator does not run any more they return to
those of the last calibration run. -/
def State.estBoundary (s : State) (q : Nat) : State :=
  let x := s.core q
  let s := match x.moved with
    | none => s
    | some (a, b, c) => (s.setCore q { x with moved := none, strayed := true }).putMis q a b c
  if (s.core q).strayed && !s.estRuns q then
    (s.setCore q { s.core q with strayed := false, block := block0 }).putMis q (s.lastRun q).1 (s.lastRun q).2 0
  else s

/-! ### Conversion instants of a channel (R163, R165) -/

/-- Conversions of channel `c` under scan word `w` from hub clock `lo` to before `hi`, whose frames start before `old`'s end or from it on:
the frame rate, the rank, and the first and the last conversion. -/
def spanUnder (w : Word) (c lo hi since : Nat) (old : Bool) : Option (Nat × Nat × Nat × Nat) :=
  let f := scanRate w
  let i := scanRank (scanMask w) (c % 4)
  if !scanOn w c then none
  else
    let edge := instsBefore f 0 since
    let a := if old then instsBefore f i lo else max (instsBefore f i lo) edge
    let b := if old then min (instsBefore f i hi) edge else instsBefore f i hi
    if a < b then some (f, i, a, b - 1) else none

/-- The gap record of the conversions of local channel `c` with instants from `lo` to before `hi`, when there are any. -/
def State.convGap (s : State) (c : Nat) (cause : GapCause) (lo hi : Nat) : Option Gap :=
  let d := s.duty (dutyOf c)
  let old := spanUnder d.prevScan c lo hi d.since true
  let new := spanUnder (s.eff (scanReg (dutyOf c))) c lo hi d.since false
  let mk (x y : Nat × Nat × Nat × Nat) (n : Nat) : Gap :=
    { ch := c, cause := cause, queueWide := false, conv := true, merged := false, inexact := false, queue := 0xFFFF,
      firstTick := tickOfClock (max 1 s.rate) (instOf x.1 x.2.1 x.2.2.1), lastTick := tickOfClock (max 1 s.rate) (instOf y.1 y.2.1 y.2.2.2),
      firstSec := x.2.2.1 / x.1, firstIdx := x.2.2.1 % x.1, lastSec := y.2.2.2 / y.1, lastIdx := y.2.2.2 % y.1, seq := 0, count := n }
  let num (x : Nat × Nat × Nat × Nat) : Nat := x.2.2.2 + 1 - x.2.2.1
  match old, new with
  | none, none => none
  | some x, none => some (mk x x (num x))
  | none, some y => some (mk y y (num y))
  | some x, some y => some (mk x y (num x + num y))

end Sys2Proof.Machine
end

