-- ==== Sys2Proof/Machine/Cal.lean ====
section
/-!
DEFINITION. Calibration (R186 to R210): the corrections of a conversion, the tile reference and the sense
converters, the session of a system calibration, and the calibration record.
-/
namespace Sys2Proof.Machine

open Sys2Proof

/-! ### Reference and sense converters (R189, R190, R195, R196) -/

/-- A write that leaves CAL_REF_VFS or CAL_REF_VMID of a tile at these values is in range (R189). -/
def refValid (vfs vmid : Nat) : Bool :=
  decide (2000000 ≤ vfs) && decide (vfs ≤ 2400000) && decide (40 * vfs ≤ 100 * vmid) && decide (100 * vmid ≤ 60 * vfs)

/-- A number put into a rising list. -/
def insertInt (a : Int) : List Int → List Int
  | [] => [a]
  | b :: r => if a ≤ b then a :: b :: r else b :: insertInt a r

/-- Twice the median of a list: of an even number, the sum of the two middle values. -/
def medianTwice (l : List Int) : Int :=
  let m := l.foldr insertInt []
  let n := m.length
  if n = 0 then 0 else if n % 2 = 1 then 2 * m.getD (n / 2) 0 else m.getD (n / 2 - 1) 0 + m.getD (n / 2) 0

/-- The median over `d`, rounded to nearest once. -/
def medianDiv (l : List Int) (d : Int) : Int := rdiv (medianTwice l) (2 * d)

/-- Median of a list. -/
def median (l : List Int) : Int := medianDiv l 1

/-- The means are those of a present reference (R190): each median within 2 % of the declared voltage, zero within 5 mV;
voltages in nV. -/
def refAgrees (vfs vmid : Int) (l : List SenseMeas) : Bool :=
  let near (v d : Int) : Bool := decide (50 * (v - 2 * d).natAbs ≤ (2 * d).natAbs)
  near (medianTwice (l.map (·.plus))) vfs && near (medianTwice (l.map (·.minus))) (-vfs)
    && near (medianTwice (l.map (·.mid))) vmid && decide ((medianTwice (l.map (·.zero))).natAbs ≤ 10000000)

/-- The fitted offset in nV and gain less one in 2^-24 of a sense converter (R192, R196). -/
def senseFit (vfs : Int) (m : SenseMeas) : Int × Int :=
  (rdiv (m.plus + m.minus) 2, rdivs ((m.plus - m.minus - 2 * vfs) * 16777216) (2 * vfs))

/-- A sense-reference cycle of tile `t` ends (R190, R196). -/
def State.senseCycle (s : State) (t : Nat) (l : List SenseMeas) : State :=
  let vfs : Int := (s.f (F.CAL_REF_VFS_VFS t) * 1000 : Nat)
  let vmid : Int := (s.f (F.CAL_REF_VMID_VMID t) * 1000 : Nat)
  let l := l.take 24
  let ok := l.length == 24 && refAgrees vfs vmid l
  let was := s.flag (F.CAL_REF_STAT_REF_OK t)
  let s := (s.wb (F.CAL_REF_STAT_REF_OK t) ok).wf (F.CAL_REF_STAT_MEAS_VFS t)
    (min 4194303 (medianDiv (l.map (·.plus)) 1000).toNat)
  let s := if was && !ok then
      (s.setRun t ((s.coreRun t).map fun r => { r with refFell := true })).emit .REFCAL_LOST (objUnit t) []
    else if !was && ok then s.emit .REFCAL_OK (objUnit t) [] else s
  if !ok then s
  else ((List.range 24).zip l).foldl (fun s x =>
    let c := 24 * t + x.1
    let fit := senseFit vfs x.2
    if decide (20000000 < fit.1.natAbs) || decide (167772 < fit.2.natAbs) then
      s.emit .SENSE_CAL_RANGE (objChannel c) []
    else
      let new := match tabGet (fun _ => none) s.front.senseCal c with
        | none => fit
        | some o => (o.1 + rdiv (fit.1 - o.1) 16, o.2 + rdiv (fit.2 - o.2) 16)
      { s with front.senseNext := tabSet (fun _ => none) s.front.senseNext c (some new) }) s

def execSenseRefCycleEnd (t : Fin 4) (means : List SenseMeas) (s : State) : Host.Outcome State Fault Refusal :=
  .next (s.senseCycle t means)

/-- The sense coefficients move at a boundary (R196). -/
def State.senseBoundary (s : State) : State :=
  { s with front.senseCal := s.front.senseNext.foldl (fun l x => tabSet (fun _ => none) l x.1 x.2) s.front.senseCal,
           front.senseNext := [] }

/-- A sense reading in nV through the converter's coefficients (R196). -/
def State.senseValue (s : State) (c : Nat) (raw : Int) : Int :=
  match tabGet (fun _ => none) s.front.senseCal c with
  | none => raw
  | some (o, g) => rdivs ((raw - o) * 16777216) (16777216 + g)

/-! ### The corrections of a conversion (R145, R169, R186, R188) -/

/-- A corrected 20-bit conversion: its value, whether it is the invalid value, OVL, and u in 2^-8 LSB of the 24-bit scale. -/
structure Corrected where
  x : Int
  inv : Bool
  ovl : Bool
  u : Int
  deriving DecidableEq, Repr

/-- The slice-mismatch correction of a raw conversion of core `q` (R169); `nb` holds its two neighbours when the skew term
applies. -/
def State.mismatch (s : State) (q slice : Nat) (x : Int) (nb : Option (Int × Int)) : Int × Bool :=
  if slice = 0 then (x, false)
  else
    let ofs := signedOf 16 (s.eff (Reg.CNV_Pp_MIS_OFS (q / 3) (q % 3))).toNat
    let gain := signedOf 16 (s.eff (Reg.CNV_Pp_MIS_GAIN (q / 3) (q % 3))).toNat
    let skew := signedOf 16 (s.eff (Reg.CNV_Pp_MIS_SKEW (q / 3) (q % 3))).toNat
    let num := (16 * x - ofs) * 1048576
    let den := 16 * (1048576 + gain)
    let k : Int := 200000000
    let y := match nb with
      | some (a, b) => rdivs (num * k - skew * (b - a) * den) (den * k)
      | none => rdivs num den
    (clamp20 y, decide (clamp20 y ≠ y))

/-- The ratiometric step (R145): S in nV. The 20-bit result, whether it is clamped, and the factor k as a fraction; none
when S is below smin. -/
def ratiometric (z : ConvSet) (y sense : Int) : Option (Int × Bool × Int × Int) :=
  let vset : Int := (z.vset : Int) * 1000000
  let vr : Int := vrangeUv z.vrange * 1000
  let smin := if z.bsub = 0 then vset / 10 else vset / 100
  if sense < smin ∨ sense ≤ 0 then none
  else
    let k : Int × Int := if z.bsub = 0 then (vset, sense) else (vr, sense)
    let d := rdiv (y * k.1) k.2
    some (clampTo 524287 d, decide (clampTo 524287 d ≠ d), k.1, k.2)

/-- The corrections of R186 on a conversion of physical core `q`, from its mismatch-corrected value `y`. -/
def State.correct (s : State) (q : Nat) (z : ConvSet) (invalid ovl : Bool) (y sense : Int) : Corrected :=
  let marker : Corrected := { x := -524288, inv := true, ovl := true, u := -2147483648 }
  if invalid then marker
  else
    let r := if z.mode = 2 then ratiometric z y sense else some (y, false, 1, 1)
    match r with
    | none => marker
    | some (d, sat, kn, kd) =>
      let o := s.fs (F.CAL_CORE_OFS_OFS q)
      let g := s.fs (F.CAL_CORE_GAIN_GAIN q)
      let cn := (16 * d * kd - kn * o) * 16777216
      let cd := 16 * kd * (16777216 + g)
      let u := rdivs (cn * 16 * 256) cd
      let v := z.gain * cn * 16 * 256 + z.ofs * cd * 268435456
      let x := rdivs v (16 * 256 * 268435456 * cd)
      { x := clamp20 x, inv := false, ovl := ovl || sat || decide (clamp20 x ≠ x), u := u }

/-- The pair that channel `c` has in tick `t` of a system calibration that sets SYS on it (R199): of the session, or of the last one. -/
def State.sysAt (s : State) (c t : Nat) : Option (Int × Int) :=
  let now := match s.front.session with
    | some x => match x.zeroFrom with
      | some a => if x.sysOn ∧ a ≤ t then (x.chans.find? (·.ch == c)).map fun y => (y.g0, y.b0) else none
      | none => none
    | none => none
  match now, s.front.sysPast with
  | some p, _ => some p
  | none, some (a, b, l) => if a ≤ t ∧ t < b then (l.find? fun (z : Nat × Int × Int) => z.1 == c).map fun (z : Nat × Int × Int) => z.2 else none
  | none, none => none

/-- The pair and the status bits of a remote word of channel `c` whose instant falls in tick `t` (R188, R199, R206). -/
def State.remotePair (s : State) (c t : Nat) : Int × Int × Nat :=
  match s.sysAt c t with
  | some y => (y.1, y.2, bSYS)
  | none =>
    let p := s.pairAt c t
    (p.1, p.2, if s.slewing c t then bSLW else 0)

/-- The system correction of a remote word (R188); the invalid marker keeps its value. -/
def remoteCorrect (p : Int × Int × Nat) (w : Word) : Word :=
  if isInvalid w then w ||| BitVec.ofNat 32 p.2.2
  else
    let v := rdiv (p.1 * dataOf w * 256 + p.2.1 * 268435456) (268435456 * 256)
    let x := clampTo 8388607 v
    sampleWord (w.toNat ||| p.2.2 ||| (if x ≠ v then bOVL else 0)) x

/-! ### The session (R197 to R205) -/

/-- PHASE. -/
def State.calPhase (s : State) : Nat := s.f F.CAL_SYS_STAT_PHASE

/-- A channel can be measured (R203, CHANNEL_BAD): its mode is not OFF and its tile is up; a remote one is attached. -/
def State.measurable (s : State) (c : Nat) : Bool :=
  if c < 96 then s.ef (F.AFE_CH_CFG_MODE c) != 0 && !s.tileDownNow (c / 24) else (s.remoteCh c).isSome

/-- The armed channels, in channel order: ARM is 0 at reset, so an armed channel is listed in the register space. -/
def State.armedList (s : State) : List Nat :=
  s.mem.filterMap fun e =>
    let o := e.1 - Reg.CAL_CH_CTRL 0
    if decide (Reg.CAL_CH_CTRL 0 ≤ e.1) && decide (o < 4192 * 0x80) && o % 0x80 == 0 && e.2.getLsbD 31 then some (o / 0x80)
    else none

/-- An armed channel as the session latches it (R197). -/
def State.latchCh (s : State) (c : Nat) : SessCh :=
  let p := s.pairOf c
  let z := { n := 0, sum := 0, sq := 0 }
  { ch := c, ez := s.fs (F.CAL_CH_EZ_EZ c), ef := s.fs (F.CAL_CH_EF_EF c), win := (s.rd (Reg.CAL_CH_WIN c)).toNat,
    nlim := s.f (F.CAL_CH_NLIM_NLIM c), g0 := if s.calMatch c then p.1 else 268435456, b0 := if s.calMatch c then p.2 else 0,
    zero := z, full := z, bad := !s.measurable c,
    config := false, gap := false, ovl := false, cmf := false, reason := none, g1 := 268435456, b1 := 0, temp := 0x8000 }

/-- START_ZERO (R197, R205). `first` is the boundary at which the zero phase starts. -/
def State.startZero (s : State) (first : Nat) : State :=
  if s.calPhase ≠ 0 then s.emit .CAL_BUSY 0 [0]
  else
    let out := s.armedList.filter fun c => decide (96 ≤ c) && !s.steward
    let chans := s.armedList.filter fun c => decide (c < 96) || s.steward
    let s := out.foldl (fun s c =>
      (s.wf (F.CAL_CH_CTRL_REASON c) 0x03).emit .CAL_NOT_STEWARD (objChannel c) []) s
    let x : Session :=
      { span := s.flag F.CAL_SYS_CFG_SPAN, settle := s.f F.CAL_SYS_CFG_SETTLE, avg := max 1 (s.f F.CAL_SYS_CFG_AVG),
        cert := (List.range 4).map fun i => s.rd (Reg.CAL_SYS_CERT i), chans := chans.map (s.latchCh ·), start := first,
        begun := false, sysOn := false, zeroFrom := none, fullFrom := none, delayed := false, ending := none }
    (({ s with front.session := some x }.wf F.CAL_SYS_STAT_PHASE 1).wf F.CAL_SYS_STAT_ARMED chans.length).wf F.CAL_SYS_STAT_PASSED 0

/-- START_FULL (R197). -/
def State.startFull (s : State) (first : Nat) : State :=
  match s.front.session with
  | some x =>
    if s.calPhase = 2 then { s with front.session := some { x with start := first, begun := false } }.wf F.CAL_SYS_STAT_PHASE 3
    else s.emit .CAL_BUSY 0 [1]
  | none => s.emit .CAL_BUSY 0 [1]

/-- The session is set to end three ticks on (R197, R198): with the REASON given to every channel, or none to apply. -/
def State.calEnding (s : State) (reason : Option Nat) : State :=
  { s with front.session := s.front.session.map fun (x : Session) => { x with ending := some (s.tick.num + 3, reason) } }.wf
    F.CAL_SYS_STAT_PHASE 5

/-- ABORT (R198). -/
def State.calAbort (s : State) : State :=
  if s.calPhase = 0 then s else if s.calPhase = 5 then s.emit .CAL_BUSY 0 [3] else s.calEnding (some 0x01)

/-- FINISH (R197, R198). -/
def State.calFinish (s : State) : State :=
  if s.calPhase = 4 then s.calEnding none
  else if s.calPhase = 5 then s.emit .CAL_BUSY 0 [2]
  else s.calAbort

/-- A write of CAL_SYS_CMD (R198); a timed one starts its phase at its own boundary. -/
def State.calCmd (s : State) (timed : Bool) (w : Word) : State :=
  let n := popCount 4 (fieldOf w 31 28)
  let first := if timed then s.tick.num else s.tick.num + 3
  if 1 < n then s.emit .CAL_CMD_BAD 0 [(fieldOf w 31 28 : Nat)]
  else if w.getLsbD 31 then s.startZero first
  else if w.getLsbD 30 then s.startFull first
  else if w.getLsbD 29 then s.calFinish
  else if w.getLsbD 28 then s.calAbort
  else s

def execStartZero (_ : Master) (s : State) : Host.Outcome State Fault Refusal := .next (s.startZero (s.tick.num + 3))
def execStartFull (_ : Master) (s : State) : Host.Outcome State Fault Refusal := .next (s.startFull (s.tick.num + 3))
def execFinish (_ : Master) (s : State) : Host.Outcome State Fault Refusal := .next s.calFinish
def execAbort (_ : Master) (s : State) : Host.Outcome State Fault Refusal := .next s.calAbort

/-- SEC seconds in a wait phase have passed (R198). -/
def execCalSysTimeout (s : State) : Host.Outcome State Fault Refusal :=
  .next (if s.calPhase = 2 ∨ s.calPhase = 4 then s.calEnding (some 0x02) else s)

/-- Tick `t` is averaged in the phase that runs (R197). -/
def Session.averages (x : Session) (t : Nat) : Bool :=
  x.begun && decide (x.start + x.settle ≤ t) && decide (t < x.start + x.settle + x.avg)

/-- One value of an averaged tick joins the sums (R201). -/
def Avg.take (a : Avg) (v : Int) : Avg := { n := a.n + 1, sum := a.sum + v, sq := a.sq + (v * v).toNat }

/-- A value of channel `c` of tick `t`, in 2^-8 LSB, with its OVL and CMF, reaches the session (R201). -/
def State.sessValue (s : State) (c t : Nat) (v : Int) (ovl cmf : Bool) : State :=
  match s.front.session with
  | none => s
  | some x =>
    if !x.averages t then s
    else
      let zero := s.calPhase == 1
      let add (y : SessCh) : SessCh :=
        if y.ch != c then y
        else
          let y := { y with ovl := y.ovl || ovl, cmf := y.cmf || cmf }
          if ovl || cmf then y else if zero then { y with zero := y.zero.take v } else { y with full := y.full.take v }
      { s with front.session := some { x with chans := x.chans.map add } }

/-- The mean of a phase in 2^-8 LSB (R201). -/
def Avg.mean (a : Avg) : Int := if a.n = 0 then 0 else rdiv a.sum a.n

/-- n² × the square of the noise (R201), in (2^-8 LSB)². -/
def Avg.var (a : Avg) : Nat := ((a.n : Int) * (a.sq : Int) - a.sum * a.sum).toNat

/-- The noise in LSB RMS, saturating at 16 bits. -/
def Avg.noise (a : Avg) : Nat := if a.n = 0 then 0 else min 65535 ((2 * Nat.sqrt (a.var / (a.n * a.n)) + 256) / 512)

/-- The noise exceeds `lim` LSB RMS. -/
def Avg.noisy (a : Avg) (lim : Nat) : Bool := decide ((lim * 256 * a.n) ^ 2 < a.var)

/-- The new pair (R202); `free` stands for G when AF = AZ, where the spec gives no value. -/
def newPair (span : Bool) (y : SessCh) (free : Int) : Int × Int :=
  let az := y.zero.mean
  let da := y.full.mean - az
  let de := y.ef - y.ez
  if da = 0 then (free, rdiv ((if span then y.g0 * az + y.b0 * 268435456 else y.ez * 268435456) - free * az) 268435456)
  else
    let g := rdivs (de * 268435456) da
    if span then (g, rdivs ((y.g0 * az + y.b0 * 268435456) * da - de * az * 268435456) (da * 268435456))
    else (g, rdivs (y.ez * da - de * az) da)

/-- The checks of R203 that concern the zero phase and the session as a whole, in table order. -/
def reasonZero (span full : Bool) (y : SessCh) : Nat :=
  if y.bad then 0x03
  else if y.config then 0x04
  else if y.gap then 0x05
  else if y.ovl then 0x06
  else if y.cmf then 0x07
  else if y.zero.n < 16 || (full && decide (y.full.n < 16)) then 0x08
  else if y.zero.noisy y.nlim then 0x09
  else if full && y.full.noisy y.nlim then 0x0A
  else if !span && decide (16 * (y.win % 65536) * 256 < (y.zero.mean - y.ez).natAbs) then 0x0B
  else 0

/-- The first check that fails, 0 when none does (R203). -/
def reasonOf (span : Bool) (y : SessCh) (g b : Int) : Nat :=
  let r := reasonZero span true y
  let fw := 16 * (y.win / 65536) * 256
  let miss := if span then (y.full.mean - y.zero.mean) - (y.ef - y.ez) else y.full.mean - y.ef
  if r ≠ 0 then r
  else if fw < miss.natAbs then 0x0C
  else if (y.ef - y.ez).natAbs < 4096 * 256 then 0x0D
  else if g < 134217728 ∨ 536870912 < g then 0x0E
  else if 2147483648 ≤ b.natAbs then 0x0F
  else 0

/-- The results of one channel after the full-scale phase (R202, R203). -/
def State.calCompute (s : State) (span : Bool) (y : SessCh) : SessCh × State :=
  let r := if y.full.mean = y.zero.mean then s.free else (0, s)
  let s := r.2
  let p := newPair span y r.1
  let reason := reasonOf span y p.1 p.2
  let s := ((s.wfs (F.CAL_CH_AZ_AZ y.ch) y.zero.mean).wfs (F.CAL_CH_AF_AF y.ch) y.full.mean).wf (F.CAL_CH_NOISE_NZ y.ch) y.zero.noise
    |>.wf (F.CAL_CH_NOISE_NF y.ch) y.full.noise
  let s := (s.wfs (F.CAL_CH_NGAIN_G y.ch) p.1).wfs (F.CAL_CH_NOFS_B y.ch) p.2
  let temp := if y.ch < 96 then s.f (F.UMB_SENSs_VALUE (y.ch / 24)) else 0x8000
  ({ y with reason := some reason, g1 := p.1, b1 := p.2, temp := temp }, s)

/-- The results of every channel. -/
def State.calComputeAll (s : State) (span : Bool) : List SessCh → List SessCh × State
  | [] => ([], s)
  | y :: r =>
    let a := s.calCompute span y
    let b := a.2.calComputeAll span r
    (a.1 :: b.1, b.2)

/-- The staging of the last averaged tick of the phase has closed; the words of remote channels are staged two ticks later (R197, R231). -/
def State.phaseOver (s : State) (x : Session) : Bool :=
  let last := x.start + x.settle + x.avg + (if x.chans.any fun y => decide (96 ≤ y.ch) then 2 else 0)
  decide (last < s.tick.num) || (last == s.tick.num && s.tick.stagingClosed)

/-- A phase has averaged its AVG ticks (R197). -/
def State.calPhaseEnd (s : State) : State :=
  match s.front.session with
  | none => s
  | some x =>
    if !x.begun || !s.phaseOver x then s
    else if s.calPhase = 1 then
      let pass := (x.chans.filter fun y => reasonZero x.span false y == 0).length
      ({ s with front.session := some { x with begun := false } }.wf F.CAL_SYS_STAT_PHASE 2).wf F.CAL_SYS_STAT_PASSED pass
    else if s.calPhase = 3 then
      let r := s.calComputeAll x.span x.chans
      let pass := (r.1.filter fun y => y.reason == some 0).length
      ({ r.2 with front.session := some { x with begun := false, chans := r.1 } }.wf F.CAL_SYS_STAT_PHASE 4).wf
        F.CAL_SYS_STAT_PASSED pass
    else s

def execCalPhaseEnd (s : State) : Host.Outcome State Fault Refusal := .next s.calPhaseEnd

/-! ### Applying coefficients (R205 to R210) -/

/-- Slew length L; 0 acts as 1. -/
def State.slewLen (s : State) : Nat := max 1 (s.f F.CAL_SLEW_TICKS)

/-- A new pair is applied to channel `c` from tick `t`: by a slew from the pair in force in the tick before, or at once while the generator is
STOPPED or in WAIT_TIME (R206, R207). -/
def State.applyPair (s : State) (c t : Nat) (g b : Int) : State :=
  let none' : Nat → Option Slew := fun _ => none
  if s.ticking then
    let p := s.pairAt c (t - 1)
    { s with front.slewOld := tabSet none' s.front.slewOld c (tabGet none' s.front.slews c),
             front.slews := tabSet none' s.front.slews c (some { g0 := p.1, b0 := p.2, g1 := g, b1 := b, start := t, len := s.slewLen, cut := none }) }
  else
    { s with front.slews := tabSet none' s.front.slews c none, front.slewOld := tabSet none' s.front.slewOld c none,
             front.pairs := tabSet (fun _ => none) s.front.pairs c (some (g, b)) }.calRefresh c t

/-- Slews in progress stand at their new pairs from tick `t`, with which the generator starts again (R207). -/
def State.slewsCut (s : State) (t : Nat) : State :=
  { s with front.slews := s.front.slews.map fun (e : Nat × Option Slew) =>
      (e.1, e.2.map fun x => if x.cut.isNone then { x with cut := some t } else x) }

/-- The record of channel `c` (R209, R210). -/
def State.calRecord (s : State) (c t : Nat) (cert : List Word) (temp trace : Nat) : State :=
  let s := (List.range 4).foldl (fun s i => s.wr (Reg.CAL_CH_CERT c i) (cert.getD i 0#32)) s
  let s := (s.wf64 (F.CAL_CH_TICK_LO_TICK c) (F.CAL_CH_TICK_HI_TICK c) t).wf (F.CAL_CH_TEMP_TEMP c) temp
  let cfg := if c < 96 then fieldOf (s.eff (Reg.AFE_CH_CFG c)) 19 0 else 0
  (s.wf (F.CAL_CH_AFE_CFG c) cfg).wf (F.CAL_CH_CTRL_TRACE c) trace

/-- TRACE of a channel's record. -/
def State.traceOf (s : State) (c : Nat) : Nat := s.f (F.CAL_CH_CTRL_TRACE c)

/-- The words of a channel's record, as CAL_ACCEPTED and a COEFF mirror record carry them (R205, R209). -/
def State.recordWords (s : State) (c : Nat) : List Word :=
  (List.range 4).map (fun i => s.rd (Reg.CAL_CH_CERT c i)) ++
    [s.rd (Reg.CAL_CH_TICK_LO c), s.rd (Reg.CAL_CH_TICK_HI c), s.rd (Reg.CAL_CH_TEMP c), s.rd (Reg.CAL_CH_AFE c)]

/-- The coefficients of a remote channel are kept under its stable identity, for up to 4,096 identities, and mirrored to the
peer (R205). -/
def State.keepRemote (s : State) (c t : Nat) (g b : Int) : State :=
  if c < 96 then s
  else
    let serial := (s.rd (Reg.PTN_SLs_ID c)).toNat
    let nc := s.f (F.PTN_SLs_STAT_NODE_CH c)
    let rest := s.front.remCal.filter fun x => !(x.serial == serial && x.nodeCh == nc)
    let entry : RemoteCal := { serial := serial, nodeCh := nc, g := g, b := b, record := s.recordWords c, trace := s.traceOf c }
    let s := { s with front.remCal := (entry :: rest).take 4096 }
    s.mirror 0x02 ([(serial : Int), (nc : Int), g, b, (t : Int)] ++ (s.recordWords c).map fun w => (w.toNat : Int))

/-- The session ends at the boundary of tick `t` (R204, R206, R209). -/
def State.sessionEnd (s : State) (t : Nat) (x : Session) (forced : Option Nat) : State :=
  let s := { s with front.session := none,
                    front.sysPast := match x.zeroFrom with
                      | some a => some (a, t, x.chans.map fun y => (y.ch, y.g0, y.b0))
                      | none => s.front.sysPast }
  let r := x.chans.foldl (fun (a : State × Nat) y =>
    let s := a.1
    let code := match forced with
      | some r => r
      | none => if y.bad then 0x03 else y.reason.getD 0x01
    let s := s.wf (F.CAL_CH_CTRL_REASON y.ch) code
    if code = 0 then
      let s := (s.applyPair y.ch t y.g1 y.b1).calRecord y.ch t x.cert y.temp 1
      let s := s.keepRemote y.ch t y.g1 y.b1
      (s.emit .CAL_ACCEPTED (objChannel y.ch) ([0] ++ ((s.recordWords y.ch).map fun w => (w.toNat : Int)) ++ [(s.traceOf y.ch : Int)]), a.2 + 1)
    else (s.emit .CAL_REJECTED (objChannel y.ch) [(code : Int)], a.2)) (s, 0)
  ((r.1.wf F.CAL_SYS_STAT_PHASE 0).wf F.CAL_SYS_STAT_ARMED 0).emit .CAL_SESSION_END 0
    [(r.2 : Int), (x.chans.length : Int) - (r.2 : Int)]

/-- The zero phase of an armed local channel waits while its duty is in a visit with PHASE SHADOW or HANDED (R200). -/
def State.zeroWaits (s : State) (x : Session) : Bool :=
  x.chans.any fun y => decide (y.ch < 96) &&
    (match s.visit (y.ch / 8) with
     | some v => v.duty == some (dutyOf y.ch % 2) &&
        (s.f (F.CNV_ROLE_PHASE (y.ch / 8)) == 1 || s.f (F.CNV_ROLE_PHASE (y.ch / 8)) == 2)
     | none => false)

/-- The session at the boundary of tick `t`: it ends, or a phase that is due begins (R197, R199, R200). -/
def State.calBoundary (s : State) (t : Nat) : State :=
  match s.front.session with
  | none => s
  | some x =>
    let x := { x with chans := x.chans.map fun (y : SessCh) => { y with bad := y.bad || !s.measurable y.ch } }
    match x.ending with
    | some (b, r) => if b ≤ t then s.sessionEnd t x r else { s with front.session := some x }
    | none =>
      let due := !x.begun && decide (x.start ≤ t)
      if due && s.calPhase == 1 then
        if s.zeroWaits x then
          let s' := { s with front.session := some { x with delayed := true } }
          if x.delayed then s' else s'.emit .CAL_DELAYED 0 [(t : Int)]
        else
          let mark (y : SessCh) : SessCh := { y with config := y.config || s.front.cfgNow.contains y.ch }
          { s with front.session := some { x with begun := true, sysOn := true, start := t, zeroFrom := some t, chans := x.chans.map mark } }
      else if due && s.calPhase == 3 then { s with front.session := some { x with begun := true, fullFrom := some x.start } }
      else { s with front.session := some x }

/-- LOAD of channel `c` (R210): from tick `t`. -/
def State.calLoad (s : State) (c t : Nat) : State :=
  let g : Int := (s.f (F.CAL_CH_LGAIN_G c) : Nat)
  let b := s.fs (F.CAL_CH_LOFS_B c)
  let armed := match s.front.session with | some x => x.chans.any (·.ch == c) | none => false
  if 96 ≤ c ∧ (s.remoteCh c).isNone then s
  else if armed then s.emit .CAL_BUSY (objChannel c) []
  else if g < 134217728 ∨ 536870912 < g ∨ 2147483648 ≤ b.natAbs then s.emit .CAL_CFG_BAD (objChannel c) []
  else
    let s := s.calRecord c t ((List.range 4).map fun i => s.rd (Reg.CAL_SYS_CERT i)) 0x8000 2
    (s.applyPair c t g b).keepRemote c t g b

/-- The tick from which a pair loaded now applies: the next boundary the write reaches (R206, R582). -/
def State.loadTick (s : State) : Nat := if s.ticking then s.nextDue else s.tick.num

def execLoad (_ : Master) (c : Fin 4192) (s : State) : Host.Outcome State Fault Refusal := .next (s.calLoad c s.loadTick)

end Sys2Proof.Machine
end

