-- ==== Sys2Proof/Machine/Charcoal.lean ====
section
/-!
DEFINITION. Charcoal (R211 to R242): the five stages of a channel's path, represented instants, coefficient
banks, detectors, the code correlator and the capacity figures.
-/
namespace Sys2Proof.Machine

open Sys2Proof

/-! ### The table g_φ (R227) -/

/-- One in the fixed-point form of this section: 2^64. -/
def fxOne : Int := 18446744073709551616
/-- π in that form. -/
def fxPi : Int := 57952155664616982739

/-- The series of cosine (`o` = 1) or sine (`o` = 2) from term `k`. -/
def fxSeries (x2 : Int) (o : Nat) : Nat → Nat → Int → Int
  | 0, _, _ => 0
  | fuel + 1, k, t => t + fxSeries x2 o fuel (k + 1) (-(t * x2 / fxOne) / (((2 * k + o) * (2 * k + o + 1) : Nat) : Int))

def fxCos (x : Int) : Int := fxSeries (x * x / fxOne) 1 30 0 fxOne
def fxSin (x : Int) : Int := fxSeries (x * x / fxOne) 2 30 0 x

/-- round(2^16 × sinc(u) × window) with u = t − 3 − φ/256. -/
def gRaw (phi t : Nat) : Int :=
  let un : Int := 256 * ((t : Int) - 3) - phi
  if un = 0 then 65536
  else
    let sign : Int := if t % 2 = 0 then 1 else -1
    let w := 42 * fxOne + 50 * fxCos (fxPi * un.natAbs / 1024) + 8 * fxCos (fxPi * un.natAbs / 512)
    rdivs (65536 * sign * fxSin (fxPi * phi / 256) * 256 * w) (fxPi * un * 100 * fxOne)

/-- The tap nearest u = 0. -/
def gNear (phi : Nat) : Nat := if phi < 128 then 3 else if phi > 128 then 4 else if Config.tieTapFour then 4 else 3

/-- g_φ[t]: the difference of the sum to 2^16 is added to the tap nearest u = 0 (R227). -/
def gTap (phi t : Nat) : Int :=
  let sum := ((List.range 8).map (gRaw phi ·)).sum
  gRaw phi t + (if t = gNear phi then 65536 - sum else 0)

/-! ### Stages (R217 to R230) -/

/-- A path at its start. -/
def path0 : Path :=
  { integ := [0, 0, 0, 0, 0], comb := [0, 0, 0, 0, 0], need1 := 0, need2 := 0, need3 := 0, need4 := 0, fir := [], rs := [],
    line := [], hline := [], hneed := 0, or := 0, hor := 0, mark := 0, hmark := 0, hlast := none, hgpe := false, produced := false, last := none,
    gapFrom := none, stopped := false }

/-- The path of channel `c`. -/
def State.path (s : State) (c : Nat) : Path := (tabGet (fun _ => none) s.front.paths c).getD path0
def State.setPath (s : State) (c : Nat) (p : Path) : State :=
  { s with front.paths := tabSet (fun _ => none) s.front.paths c (some p) }

/-- NT of the set a channel uses; 0 while FIR_EN is 0. -/
def State.firNT (s : State) (x : ChrSet) : Nat :=
  if x.fir then (match s.chrBank with | some b => s.chrNT b x.set | none => 0) else 0

/-- Restart stage `k` and every stage after it (R215); `hw` is the W of the history path. -/
def restart (x : ChrSet) (hw nt k : Nat) (p : Path) : Path :=
  let p := if k ≤ 1 then
      { p with integ := path0.integ, comb := path0.comb, need1 := 5 * (x.r1 - 1) + 1, hline := [], hneed := hw + 8, hmark := 0,
               hor := 0 } else p
  let p := if k ≤ 2 then { p with fir := [], need2 := if x.fir then nt else 0, or := 0 } else p
  let p := if k ≤ 3 then { p with rs := [], need3 := if x.rsmp then 16 else 0 } else p
  { p with line := [], need4 := x.w + 8, mark := 0 }

/-- As `restart`, with the delays that channel `c`'s skew delay adds to (R378); a remote channel has no stage 1. -/
def State.restartPath (s : State) (c : Nat) (x : ChrSet) (nt k : Nat) (p : Path) : Path :=
  let p := restart (s.skewed c (s.outRate true c) x) (s.skewed c (rates x (s.inRate true c)).1 x).w nt k p
  if c < 96 then p else { p with need1 := 0 }

/-- The envelopes of the detectors of channel `c` start at zero again (R237). -/
def State.envZero (s : State) (c : Nat) : State :=
  { s with front.dets := s.front.dets.map fun (e : Nat × Option Det) =>
      (e.1, e.2.map fun y => if s.ef (F.CHR_DET_CFG_CH e.1) == c then { y with env := 0 } else y) }

/-- Sums of the five integrators, wrapping at 64 bits (R217). -/
def integrate : List Nat → Nat → List Nat
  | [], _ => []
  | a :: r, v => let b := (a + v) % 2 ^ 64; b :: integrate r b

/-- The five combs: their new registers and the output (R217). -/
def combs : List Nat → Nat → List Nat × Nat
  | [], c => ([], c)
  | d :: r, c => let o := combs r ((c + 2 ^ 64 - d) % 2 ^ 64); (c :: o.1, o.2)

/-- One input of stage 1 (R217): 20-bit value `v` of index `j`. -/
def feedCic (x : ChrSet) (p : Path) (sec j : Nat) (v : Int) (inv : Bool) : Path × Option ChainW :=
  let need := p.need1 - 1
  if x.r1 = 1 then
    ({ p with need1 := need }, if need = 0 then some { sec := sec, idx := j, v := v * 4096, inv := inv } else none)
  else
    let i := integrate p.integ (bitsOf 64 v)
    let p := { p with integ := i, need1 := need }
    if j % x.r1 = x.r1 - 1 then
      let o := combs p.comb (i.getD 4 0)
      let y := rdiv (signedOf 64 o.2 * 4096) (((x.r1 ^ 5 : Nat)) : Int)
      ({ p with comb := o.1 }, if need = 0 then some { sec := sec, idx := j / x.r1, v := y, inv := false } else none)
    else (p, none)

/-- A dot product. -/
def dot : List Int → List Int → Int
  | a :: r, b :: t => a * b + dot r t
  | _, _ => 0

/-- One input of stage 2 (R219). -/
def State.feedFir (s : State) (x : ChrSet) (p : Path) (w : ChainW) : Path × Option ChainW :=
  let need := p.need2 - 1
  let p := { p with fir := (w :: p.fir).take 256, need2 := need }
  if need ≠ 0 ∨ (w.idx + 1) % x.d2 ≠ 0 then (p, none)
  else if !x.fir then (p, some w)
  else match s.chrBank with
    | none => (p, none)
    | some b =>
      let nt := s.chrNT b x.set
      let a := dot ((List.range nt).map (s.chrTap b x.set nt ·)) (p.fir.map (·.v))
      (p, some { sec := w.sec, idx := w.idx / x.d2, v := rdiv a 1048576, inv := false })

/-- The position of resampler output `j` (R225): the input it is taken at and the phase. -/
def rsPos (l m j : Nat) : Nat × Nat :=
  let n0 := j * m / l
  let acc := 2 ^ 32 * (j * m % l) / l
  let p := (acc + 2 ^ 23) / 2 ^ 24
  if p = 256 then (n0 + 1, 0) else (n0, p)

/-- The outputs that input `n` of the second takes (R226), at most L ÷ M + 2 of them, below `r3`. -/
def rsOutputs (l m r3 n : Nat) : List (Nat × Nat) :=
  let lo := (n - 1) * l / m
  ((List.range (2 * l / m + 4)).map (lo + ·)).filterMap fun j =>
    let q := rsPos l m j
    if q.1 = n ∧ j < r3 then some (j, q.2) else none

/-- One input of stage 3 (R225, R226): its outputs, and whether each is clamped. -/
def State.feedRs (s : State) (x : ChrSet) (r3 : Nat) (p : Path) (w : ChainW) : Path × List (ChainW × Bool) :=
  let need := p.need3 - 1
  let p := { p with rs := (w :: p.rs).take 16, need3 := need }
  if !x.rsmp then (p, [(w, false)])
  else match s.chrBank with
    | none => (p, [])
    | some b =>
      if need ≠ 0 then (p, [])
      else (p, (rsOutputs x.l x.m r3 w.idx).map fun o =>
        let h := (List.range 16).map fun m => s.chrProto b x.proto (256 * m + o.2)
        let y := rdiv (dot h (p.rs.map (·.v))) 1048576
        let y' := clampTo 549755813887 y
        ({ sec := w.sec, idx := o.1, v := y', inv := false }, decide (y' ≠ y)))

/-- One input of a delay line (R227, R229): the line's new contents, its refill count and markers, and the output. -/
def feedDelay (x : ChrSet) (line : List ChainW) (need mark : Nat) (w : ChainW) :
    List ChainW × Nat × Nat × Option ChainW :=
  let line := (w :: line).take (x.w + 8)
  let need := need - 1
  if need ≠ 0 then (line, need, mark, none)
  else if mark ≠ 0 then (line, need, mark - 1, some { sec := w.sec, idx := w.idx, v := -2147483648, inv := true })
  else if x.frac then
    let y := rdiv (dot ((List.range 8).map (gTap x.phi ·)) ((line.drop x.w).map (·.v))) 65536
    (line, need, mark, some { sec := w.sec, idx := w.idx, v := y, inv := false })
  else match (line)[x.w]? with
    | some o => (line, need, mark, some { sec := w.sec, idx := w.idx, v := o.v, inv := o.inv })
    | none => (line, need, mark, none)

/-- Stage 5 (R230): the value and the XOV bit. -/
def round24 (y : ChainW) : Int × Nat :=
  if y.inv then (-8388608, bOVL)
  else
    let d := rdiv y.v 256
    (clampTo 8388607 d, if clampTo 8388607 d ≠ d then bXOV else 0)

/-! ### Represented instants (R232) -/

/-- Sum of two fractions. -/
def addFrac (a b : Int × Int) : Int × Int := (a.1 * b.2 + b.1 * a.2, a.2 * b.2)

/-- The offset of a channel's input grid, in 2^-16 ns (R232). -/
def State.theta (s : State) (c : Nat) : Int :=
  if c < 96 then ((scanRank (scanMask (s.eff (scanReg (dutyOf c)))) (c % 4) * 80 * 81920 : Nat) : Int)
  else match s.remoteCh c with | some r => r.theta | none => 0

/-- ρ and the group delay of channel `c`, in 2^-16 ns (R232): of the continuous path, or of the history path when OUT is 0. -/
def State.represented (s : State) (c : Nat) : Int × Nat :=
  let x := s.chrSet true c
  let f := s.inRate true c
  let u : Int := (secUnits : Nat)
  let r := rates x f
  if s.coded true c then
    let h := rdiv ((s.codeTicks c : Int) * u) ((2 * max 1 s.rate : Nat) : Int)
    (h, h.toNat)
  else if f = 0 then (0, 0)
  else
    let nt := s.firNT x
    let g1 : Int × Int := (5 * ((x.r1 : Int) - 1) * u, 2 * (f : Int))
    let o1 : Int × Int := addFrac (s.theta c, 1) (-(3 * ((x.r1 : Int) - 1)) * u, 2 * (f : Int))
    let on2 := x.out && x.fir
    let o2 := if on2 then addFrac o1 ((2 * ((x.d2 : Int) - 1) - ((nt : Int) - 1)) * u, 2 * (max 1 r.1 : Nat)) else o1
    let g2 := if on2 then addFrac g1 (((nt : Int) - 1) * u, 2 * (max 1 r.1 : Nat)) else g1
    let on3 := x.out && x.rsmp
    let d3 : Int × Int := (4095 * u, 512 * (max 1 r.2.1 : Nat))
    let o3 := if on3 then addFrac o2 (-d3.1, d3.2) else o2
    let g3 := if on3 then addFrac g2 d3 else g2
    let tau : Int := 256 * (x.w : Int) + (if x.frac then 768 + (x.phi : Int) else 0)
    let r4 := if x.out then r.2.2 else r.1
    let d4 : Int × Int := (tau * u, 256 * (max 1 r4 : Nat))
    let o4 := addFrac o3 (-d4.1, d4.2)
    let g4 := addFrac g3 d4
    (rdiv o4.1 o4.2, (rdiv g4.1 g4.2).toNat)

/-- ρ₁ of channel `c`, for the history words of a channel with OUT at 1 (R218). -/
def State.rho1 (s : State) (c : Nat) : Int :=
  let x := s.chrSet true c
  s.theta c - rdiv (3 * ((x.r1 : Int) - 1) * (secUnits : Nat)) (2 * (max 1 (s.inRate true c) : Nat))

/-- The offset of the history words of channel `c` (R218): ρ₁, less the history path's delay when OUT is 0. -/
def State.rhoHist (s : State) (c : Nat) : Int :=
  let x := s.chrSet true c
  let f := s.inRate true c
  if x.out then s.rho1 c
  else
    let u : Int := (secUnits : Nat)
    let tau : Int := 256 * (x.w : Int) + (if x.frac then 768 + (x.phi : Int) else 0)
    let o := addFrac (addFrac (s.theta c, 1) (-(3 * ((x.r1 : Int) - 1)) * u, 2 * (max 1 f : Nat)))
      (-(tau * u), 256 * (max 1 (rates x f).1 : Nat))
    rdiv o.1 o.2

/-- CHR_CH_OFS and CHR_CH_GD are brought up to date (R232). -/
def State.showRho (s : State) (c : Nat) : State :=
  let r := s.represented c
  let s := s.wf64 (F.CHR_CH_OFS_LO_OFS c) (F.CHR_CH_OFS_HI_OFS c) (bitsOf 64 r.1)
  s.wf64 (F.CHR_CH_GD_LO_GD c) (F.CHR_CH_GD_HI_GD c) r.2

/-- ρ is updated and CHR_GD_CHANGE recorded (R158, R224, R229). -/
def State.gdChange (s : State) (c : Nat) : State :=
  let s := s.showRho c
  s.emit .CHR_GD_CHANGE (objChannel c) [(s.represented c).1]

/-! ### Detectors (R233 to R237) -/

def det0 : Det := { wins := [], since := 0, env := 0, gaps := [] }
def detWin0 (start : Nat) : DetWin :=
  { start := start, n := 0, sum := 0, sq := 0, max := -8388608, min := 8388607, or := 0, excl := 0, env := 0 }

def State.det (s : State) (d : Nat) : Det := (tabGet (fun _ => none) s.front.dets d).getD det0
def State.setDet (s : State) (d : Nat) (x : Det) : State :=
  { s with front.dets := tabSet (fun _ => none) s.front.dets d (some x) }

/-- The envelope after a sample of value `v` with decay `k` (R237). -/
def envAfter (e : Int) (k : Nat) (v : Int) : Int := max (v.natAbs : Int) (e - e / (2 ^ k : Nat))

/-- One sample of value `v` and status `st` in a window; `e` is the envelope after it (R234 to R237). -/
def DetWin.take (x : DetWin) (v : Int) (st : Nat) (e : Int) : DetWin :=
  if st &&& bOVL ≠ 0 then { x with excl := x.excl + 1, env := e }
  else { x with n := x.n + 1, sum := x.sum + v, sq := x.sq + (v * v).toNat, max := if x.max < v then v else x.max,
                min := if v < x.min then v else x.min, or := x.or ||| (st &&& 0x6F000000), env := e }

/-- One sample of source tick `t` joins the window of `w` ticks that holds that tick (R233). -/
def Det.take (x : Det) (w k t : Nat) (v : Int) (st : Nat) : Det :=
  let e := if st &&& bOVL ≠ 0 then x.env else envAfter x.env k v
  let a := t / w * w
  let put (y : DetWin) : DetWin := if y.start = a then y.take v st e else y
  { x with env := e, wins := if x.wins.any fun y => y.start == a then x.wins.map put else x.wins ++ [(detWin0 a).take v st e] }

/-- A sample of channel `c` with source tick `t` reaches the detectors of its tap (R233). -/
def State.feedDets (s : State) (c : Nat) (tap : Bool) (t : Nat) (v : Int) (st : Nat) : State :=
  s.front.dets.foldl (fun s e =>
    let d := e.1
    if s.eflag (F.CHR_DET_CFG_EN d) && s.ef (F.CHR_DET_CFG_CH d) == c && s.eflag (F.CHR_DET_CFG_TAP d) == tap
        && decide ((s.det d).since ≤ t) then
      s.setDet d ((s.det d).take (s.detWin d) (s.ef (F.CHR_DET_CFG_DECAY d)) t v st)
    else s) s

/-- The square root of a fraction, rounded to nearest. -/
def rootRound (n d : Nat) : Nat := (Nat.sqrt (4 * n / d) + 1) / 2

/-- RES0 and RES1 of a window, with `gap` when a gap record covers a tick of it (R234 to R237). -/
def detResult (type : Nat) (ac gap : Bool) (x : DetWin) : Word × Word :=
  let st := x.or ||| (if gap then bGPE else 0)
  if x.n = 0 then
    let w := BitVec.ofNat 32 (st ||| bOVL ||| 0x800000)
    (w, if type = 1 then w else 0#32)
  else match type with
    | 1 => (sampleWord st x.max, sampleWord st x.min)
    | 2 =>
      let v := if ac then rootRound ((x.n : Int) * (x.sq : Int) - x.sum * x.sum).toNat (x.n * x.n) else rootRound x.sq x.n
      (sampleWord st (min 8388607 v : Nat), 0#32)
    | 3 => (sampleWord st (clampTo 8388607 x.env), 0#32)
    | _ => (0#32, 0#32)

/-- The staging of every tick before this one has closed. -/
def State.closedTo (s : State) : Nat := if s.tick.stagingClosed then s.tick.num else s.tick.num - 1

/-- The next window of detector `d` ends, once the staging of its last tick has closed (R233): its result waits for its release. -/
def State.detEnd (s : State) (d : Nat) : State :=
  match tabGet (fun _ => none) s.front.dets d with
  | none => s
  | some x =>
    let stop := x.since + s.detWin d
    if !s.eflag (F.CHR_DET_CFG_EN d) || decide (s.closedTo < stop) then s
    else
      let y := (x.wins.find? fun y => y.start == x.since).getD (detWin0 x.since)
      let gap := x.gaps.any fun g => decide (x.since ≤ g.2) && decide (g.1 < stop)
      let r := detResult (s.ef (F.CHR_DET_CFG_TYPE d)) (s.eflag (F.CHR_DET_CFG_AC d)) gap y
      let res : DetRes := { det := d, a := r.1, b := r.2, n := y.n, tick := stop - 1, excl := min 65535 y.excl }
      { s with front.detMade := s.front.detMade ++ [res] }.setDet d
        { x with since := stop, wins := x.wins.filter fun y => decide (stop ≤ y.start), gaps := x.gaps.filter fun g => decide (stop ≤ g.2) }

def execDetectorWindowEnd (d : Fin 512) (s : State) : Host.Outcome State Fault Refusal := .next (s.detEnd d)

/-- A change of CHR_DET_CFG or CHR_DET_WIN has taken effect (R237, R238). -/
def State.detTaken (s : State) (d : Nat) : State :=
  if s.eflag (F.CHR_DET_CFG_EN d) then
    let w := s.detWin d
    s.setDet d { det0 with since := (s.tick.num + w - 1) / w * w }
  else { s with front.dets := tabSet (fun _ => none) s.front.dets d none }

/-- The total of the routed detectors in words/s, rounded up (R239). An enabled detector is listed in the register space, since EN is 0 at reset. -/
def State.detRate (s : State) : Nat :=
  let f := (List.range 512).foldl (fun (a : Nat × Nat) d =>
    let w := s.rd (Reg.CHR_DET_CFG d)
    if w.getLsbD 31 && s.rd (Reg.CHR_DET_ROUTE d) != 0xFFFFFFFF#32 then
      let win := max 1 (s.f (F.CHR_DET_WIN_WIN d))
      (a.1 * win + (if fieldOf w 30 28 = 1 then 2 else 1) * s.rate * a.2, a.2 * win)
    else a) (0, 1)
  (f.1 + f.2 - 1) / f.2

/-! ### A channel's words (R211, R215, R218, R231) -/

/-- The hub-clock value of slot `idx` of second `sec` at rate `r`. -/
def slotClock (r sec idx : Nat) : Nat := sec * secUnits + idx * secUnits / max 1 r

/-- The gap record of a restart, up to the first new word (R215). -/
def State.restartGap (s : State) (c : Nat) (p : Path) (sec idx r : Nat) : State :=
  match p.gapFrom with
  | none => s
  | some a =>
    let n := max 1 s.rate
    let s0 := a / secUnits
    let i0 := idxAt r (a % secUnits)
    let before := s0 * r + i0
    let after := sec * r + idx
    if after ≤ before then s
    else
      let e := slotClock r ((after - 1) / max 1 r) ((after - 1) % max 1 r)
      s.gap { ch := c, cause := .chrRestart, queueWide := false, conv := false, merged := false, inexact := false, queue := 0xFFFF,
              firstTick := tickOfClock n a, lastTick := tickOfClock n e, firstSec := before / max 1 r,
              firstIdx := before % max 1 r, lastSec := (after - 1) / max 1 r, lastIdx := (after - 1) % max 1 r, seq := 0,
              count := after - before }

/-- A continuous word of channel `c` leaves stage 5 and waits for its release (R230, R231); source tick `t`. -/
def State.emitWord (s : State) (c t : Nat) (y : ChainW) (extra seq : Nat) : State :=
  let p := s.path c
  let r := s.outRate true c
  let s := s.restartGap c p y.sec y.idx r
  let v := round24 y
  let g := s.takeGpe c
  let s := g.2
  let st := p.or ||| extra ||| v.2 ||| (if g.1 then bGPE else 0)
  let w := sampleWord st v.1
  let s := if st &&& bXOV ≠ 0 then s.bump (F.CHR_CH_STAT_XOVCNT c) 1 else s
  let s := s.setPath c { p with or := 0, produced := true, last := some (y.sec, y.idx), gapFrom := none }
  let s := s.feedDets c true t v.1 (st &&& 0x7FFFFFFF)
  { s with front.made := s.front.made ++ [{ ch := c, sec := y.sec, idx := y.idx, word := w, seq := seq }] }

/-- A history word of channel `c` (R218, R400): rounded as in stage 5 and kept within the channel's share of the ring. -/
def State.histWord (s : State) (c t : Nat) (inst : Int) (w : Word) (rate grid seq : Nat) : State :=
  let n := tabGet (fun _ => 0) s.front.share c
  let x : HistWord := { tick := t, inst := inst, word := w, rate := rate, grid := grid, seq := seq }
  let s := { s with knd.histMade := s.knd.histMade ++ [(c, x)] }
  if n = 0 then s
  else
    let l := tabGet (fun _ => []) s.front.hist c
    { s with front.hist := tabSet (fun _ => []) s.front.hist c ((x :: l).take n) }

/-- Stages 3 to 5 on the words stage 2 makes. -/
def State.feedLate (s : State) (c t : Nat) (x : ChrSet) (r3 seq : Nat) (w : ChainW) : State :=
  let r := s.feedRs x r3 (s.path c) w
  r.2.foldl (fun s o =>
    let p := s.path c
    let d := feedDelay (s.skewed c (s.outRate true c) x) p.line p.need4 p.mark o.1
    let s := s.setPath c { p with line := d.1, need4 := d.2.1, mark := d.2.2.1 }
    match d.2.2.2 with
    | some y => s.emitWord c t y (if o.2 then bXOV else 0) seq
    | none => s) (s.setPath c r.1)

/-- Stage 2 onward on one input (R211). -/
def State.feedFrom2 (s : State) (c t : Nat) (x : ChrSet) (r3 seq : Nat) (w : ChainW) : State :=
  let r := s.feedFir x (s.path c) w
  let s := s.setPath c r.1
  match r.2 with
  | some y => s.feedLate c t x r3 seq y
  | none => s

/-- The history path of a local channel takes a stage-1 output (R218): undelayed with OUT at 1. -/
def State.feedHist (s : State) (c t : Nat) (x : ChrSet) (r1 : Nat) (y : ChainW) : State :=
  let p := s.path c
  let d := if x.out then (p.hline, p.hneed, p.hmark, some y) else feedDelay (s.skewed c r1 x) p.hline p.hneed p.hmark y
  let s := s.setPath c { p with hline := d.1, hneed := d.2.1, hmark := d.2.2.1 }
  match d.2.2.2 with
  | none => s
  | some h =>
    let v := round24 h
    let st := p.hor ||| v.2 ||| (if p.hgpe then bGPE else 0)
    let s := s.setPath c { s.path c with hor := 0, hgpe := false, hlast := some (h.sec, h.idx) }
    s.histWord c t ((slotClock r1 h.sec h.idx : Nat) + s.rhoHist c) (sampleWord st v.1) r1 (h.sec * r1 + h.idx) 0

/-- A channel's path runs with valid settings (R213, R216). -/
def State.pathRuns (s : State) (c : Nat) : Bool :=
  let x := s.chrSet true c
  x.en && s.chrValid x (s.inRate true c) (s.coded true c) (s.codeTicks c) && (decide (c < 96) || (s.remoteCh c).isSome)

/-- Charcoal takes a corrected conversion of local channel `c` (R211, R217, R218): status bits `st`. -/
def State.feedLocal (s : State) (c t sec j : Nat) (v : Int) (inv : Bool) (st : Nat) : State :=
  let x := s.chrSet true c
  if !s.pathRuns c then s
  else
    let p := s.path c
    let p := { p with or := p.or ||| st, hor := p.hor ||| st }
    let r := feedCic x p sec j v inv
    let s := s.setPath c r.1
    match r.2 with
    | none => s
    | some y =>
      let rt := rates x (s.inRate true c)
      let hv := round24 y
      let s := s.feedDets c false t hv.1 ((s.path c).hor ||| hv.2)
      let s := s.feedHist c t x rt.1 y
      if x.out && !s.coded true c then s.feedFrom2 c t x rt.2.2 0 y else s

/-- Charcoal takes a remote word (R188, R199, R201, R206, R211, R231): source tick `t`, two ticks after that of its instant. A word that carries GPE passes it to the channel's next output word (R19,
R296). -/
def State.feedRemote (s : State) (t : Nat) (r : RemWord) : State :=
  let c := r.ch
  let s := if r.word.getLsbD 31 then s.setGpe c else s
  let x := s.chrSet true c
  let at' := t - 2
  let s := s.sessValue c at' (dataOf r.word * 256) (r.word.getLsbD 24) (r.word.getLsbD 25)
  if !s.pathRuns c then s
  else
    let f := s.inRate true c
    let p := s.remotePair c at'
    let r := if s.skewSysAt c at' || (p.2.2 &&& bSYS) != 0 then { r with word := r.word ||| 0x08000000#32 } else r
    let w := remoteCorrect p r.word
    let st := w.toNat &&& 0x6F000000
    let s := s.histWord c t ((slotClock f r.sec r.idx : Nat) + s.theta c) r.word f (r.sec * f + r.idx) r.seq
    let s := s.feedDets c false t (dataOf r.word) r.word.toNat
    let p := s.path c
    let s := s.setPath c { p with or := p.or ||| st }
    if x.out then
      s.feedFrom2 c t x (rates x f).2.2 r.seq { sec := r.sec, idx := r.idx, v := dataOf w * 256, inv := isInvalid w }
    else s

/-! ### Settings take effect (R215, R216, R229) -/

/-- The gap record of `k` words lost after word `idx` of second `sec` at rate `r` to a shorter delay (R229). -/
def State.delayLoss (s : State) (c k r sec idx : Nat) : Gap :=
  let a := sec * r + idx + 1
  let b := a + k - 1
  let n := max 1 s.rate
  { ch := c, cause := .delayChange, queueWide := false, conv := false, merged := false, inexact := false, queue := 0xFFFF,
    firstTick := tickOfClock n (slotClock r (a / r) (a % r)), lastTick := tickOfClock n (slotClock r (b / r) (b % r)),
    firstSec := a / r, firstIdx := a % r, lastSec := b / r, lastIdx := b % r, seq := 0, count := k }

/-- A loss on a path that skips inputs of its delay line: on the continuous path, or the history path with OUT at 0 (R229). -/
def State.delayGap (s : State) (c k : Nat) (out : Bool) : State :=
  let p := s.path c
  if out then
    match p.last with
    | some (sec, idx) => s.gap (s.delayLoss c k (max 1 (s.outRate true c)) sec idx)
    | none => s
  else
    match p.hlast with
    | some (sec, idx) =>
      let r1 := max 1 (rates (s.chrSet true c) (s.inRate true c)).1
      (s.setPath c { p with hgpe := true }).gapHeld (s.delayLoss c k r1 sec idx)
    | none => s

/-- The words of a delay line after a change of W + 3 × FRAC_EN by `d` (R229): markers still to emit, and inputs lost. -/
def markAfter (mark : Nat) (d : Int) : Nat × Nat :=
  if 0 ≤ d then (mark + d.toNat, 0) else if d.natAbs ≤ mark then (mark - d.natAbs, 0) else (0, d.natAbs - mark)

/-- The total delay of channel `c` changes by `d` whole samples (R229): more words carry the marker, or inputs are lost. -/
def State.delayStep (s : State) (c : Nat) (out : Bool) (d : Int) : State :=
  let p := s.path c
  let m := markAfter (if out then p.mark else p.hmark) d
  let s := s.setPath c (if out then { p with mark := m.1 } else { p with hmark := m.1 })
  if m.2 ≠ 0 ∧ (p.produced || !out) then s.delayGap c m.2 out else s

/-- The stage from which a change of settings restarts a path, more than 3 for none (R215). -/
def restartStage (o x : ChrSet) : Nat :=
  if o.en != x.en || o.r1 != x.r1 then 1 else if o.out != x.out || o.d2 != x.d2 then 2
  else if o.l != x.l || o.m != x.m || o.proto != x.proto then 3 else 9

/-- Where the gap record of a restart begins, when the channel was producing words and goes on doing so (R215). -/
def restartFrom (o x : ChrSet) (oldRate : Nat) (p : Path) : Option Nat :=
  if x.en && x.out then
    match p.gapFrom, p.last with
    | some a, _ => some a
    | none, some (sec, idx) => if o.en && o.out && p.produced then some (slotClock oldRate sec (idx + 1)) else none
    | none, none => none
  else none

/-- A change of CHR_CH_CFG, CHR_CH_RSMP or CHR_CH_DELAY of channel `c` has taken effect: `o` is what was in force. -/
def State.chrTaken (s : State) (c : Nat) (o : ChrSet) (oldRate : Nat) : State :=
  let x := s.chrSet true c
  let k := restartStage o x
  let p := s.path c
  let d : Int := ((x.w : Int) + (if x.frac then 3 else 0)) - ((o.w : Int) + (if o.frac then 3 else 0))
  let s :=
    if k ≤ 3 then
      let q := s.restartPath c x (s.firNT x) k p
      let q := if o.out == x.out then q
        else { q with hline := [], hneed := (s.skewed c (rates x (s.inRate true c)).1 x).w + 8, hmark := 0 }
      (s.setPath c { q with gapFrom := restartFrom o x oldRate p, produced := false }).envZero c
    else if d ≠ 0 ∧ x.en then s.delayStep c x.out d
    else s
  let s := if x.en then s else { s with front.hist := tabSet (fun _ => []) s.front.hist c [] }
  let s := s.wb (F.CHR_CH_STAT_RUN c) (s.pathRuns c)
  if d ≠ 0 ∨ o.phi ≠ x.phi then s.gdChange c else s.showRho c

/-- The paths are judged at a boundary (R216): one whose settings the rates in force make invalid stops with CHR_RATE_BAD,
and one that becomes valid again restarts. -/
def State.chrJudge (s : State) (c : Nat) : State :=
  let x := s.chrSet true c
  if !x.en then s
  else
    let ok := s.pathRuns c
    let p := s.path c
    let s := s.wb (F.CHR_CH_STAT_RUN c) ok
    if !ok && !p.stopped && (decide (c < 96) || (s.remoteCh c).isSome) then
      (s.setPath c { p with stopped := true, produced := false }).emit .CHR_RATE_BAD (objChannel c) []
    else if ok && p.stopped then
      ((s.setPath c { s.restartPath c x (s.firNT x) 1 p with stopped := false }).envZero c).showRho c
    else s

/-- The channels with EN set: EN is 0 at reset, so each is listed in the register space. -/
def State.chrOn (s : State) : List Nat :=
  s.mem.filterMap fun e =>
    let o := e.1 - Reg.CHR_CH_CFG 0
    if decide (Reg.CHR_CH_CFG 0 ≤ e.1) && decide (o < 4192 * 0x40) && o % 0x40 == 0 && e.2.getLsbD 31 then some (o / 0x40)
    else none

/-- FILLING of channel `c` (R215). -/
def State.showFilling (s : State) (c : Nat) : State :=
  let x := s.chrSet true c
  let p := s.path c
  let out := x.out && !s.coded true c
  s.wb (F.CHR_CH_STAT_FILLING c) (s.pathRuns c && (p.need1 != 0 || (out && (p.need2 != 0 || p.need3 != 0 || p.need4 != 0))))

/-! ### The code correlator (R158 to R160, R240) -/

/-- Chip `c` of the sequence of R157. -/
def chipOn : Nat → Nat → Bool
  | s, 0 => bitOf s 6
  | s, c + 1 => chipOn (((s * 2) % 128) ||| (b2n (bitOf s 6) ^^^ b2n (bitOf s 5))) c

/-- A corrected conversion of a coded channel joins its chip (R158, R159). -/
def State.feedCode (s : State) (c inst : Nat) (x : Int) (ovl : Bool) (st : Nat) : State :=
  match tabGet (fun _ => none) s.front.corrs c with
  | none => s
  | some k =>
    let t0 := boundaryClock s.rate k.start
    let len := k.period * secUnits
    let chip := 127 * (inst - t0) * s.rate / max 1 len
    if inst < t0 ∨ 127 ≤ chip then s
    else
      let z := tabGet (fun _ => { n := 0, sum := 0, ovl := false }) k.chips chip
      let z := { n := z.n + 1, sum := z.sum + x, ovl := z.ovl || ovl }
      let k := { k with chips := tabSet (fun _ => { n := 0, sum := 0, ovl := false }) k.chips chip z,
                        or := k.or ||| (st &&& (bCMF ||| bSLW ||| bSYS ||| bHLD)) }
      { s with front.corrs := tabSet (fun _ => none) s.front.corrs c (some k) }

/-- Count and sum over the included chips whose code bit is `on`. -/
def chipSet (l : Tab Chip) (on : Bool) : Nat × Int :=
  l.foldl (fun a e => if !e.2.ovl && chipOn 127 e.1 == on then (a.1 + e.2.n, a.2 + e.2.sum) else a) (0, 0)

/-- Amplitude and ambient level of a code period, none when too many chips are excluded (R159, R240). -/
def Corr.result (k : Corr) (excl : Nat) : Option (Int × Int) :=
  let on := chipSet k.chips true
  let off := chipSet k.chips false
  if 32 ≤ excl ∨ on.1 = 0 ∨ off.1 = 0 then none
  else some (rdiv (16 * (on.2 * off.1 - off.2 * on.1)) ((on.1 * off.1 : Nat) : Int), rdiv (16 * off.2) (off.1 : Nat))

/-- A code period of channel `c` ends, once the staging of its last tick has closed (R158, R159, R240): the next has the CODE_TICKS in effect. With
EN or OUT at 0 the channel produces no word (R211). -/
def State.codeEnd (s : State) (c : Nat) : State :=
  match tabGet (fun _ => none) s.front.corrs c with
  | none => s
  | some k =>
    if s.closedTo < k.start + k.period then s
    else
      let excl := 127 - (k.chips.filter fun e => !e.2.ovl).length
      let s := s.wf (F.AFE_CH_STAT_EXCL c) excl
      let n := max 1 s.rate
      let fresh : Corr := { k with period := max 1 (s.codeTicks c), start := k.start + k.period, chips := [], or := 0 }
      let s := { s with front.corrs := tabSet (fun _ => none) s.front.corrs c (some fresh) }
      let r := k.result excl
      let amb := match r with
        | some x => sampleWord k.or x.2
        | none => sampleWord (k.or ||| bOVL) (-8388608)
      let s := s.wr (Reg.CHR_CH_AMB c) amb
      if !s.pathRuns c || !(s.chrSet true c).out then s
      else
        let w : ChainW := { sec := k.start / n, idx := k.start % n / max 1 k.period,
                            v := match r with | some x => x.1 * 256 | none => -2147483648, inv := r.isNone }
        (s.setPath c { s.path c with or := k.or }).emitWord c (k.start + k.period - 1) w 0 0

def execCodePeriodEnd (c : Fin 96) (s : State) : Host.Outcome State Fault Refusal := .next (s.codeEnd c)

/-- A correlator whose period the ticks have jumped over starts with the period of tick `t` (log entry 126). -/
def State.codeRealign (s : State) (t c : Nat) (k : Corr) : State :=
  let p := max 1 (s.codeTicks c)
  if k.start + k.period < t then
    { s with front.corrs := tabSet (fun _ => none) s.front.corrs c (some { k with period := p, start := t / p * p, chips := [], or := 0 }) }
  else s

/-- The coded channels at the boundary of tick `t`: a TIA change that waits takes effect where a code period starts (R160). -/
def State.codeBoundary (s : State) (t : Nat) : State :=
  s.front.corrs.foldl (fun s e =>
    match e.2 with
    | some k =>
      let s := s.codeRealign t e.1 k
      match k.tia with
      | some v => if t % max 1 (s.codeTicks e.1) = 0 then
          ({ s with front.corrs := tabMod (fun _ => none) s.front.corrs e.1 (·.map fun (y : Corr) => { y with tia := none }) }).tiaSwitch e.1 v
        else s
      | none => s
    | none => s) s

/-- Detectors at the boundary of tick `t`: windows that the ticks have jumped over are passed (log entry 127). -/
def State.detBoundary (s : State) (t : Nat) : State :=
  s.front.dets.foldl (fun s e =>
    let w := s.detWin e.1
    match e.2 with
    | some x => if x.since + w < t then s.setDet e.1 { x with since := t / w * w, wins := x.wins.filter fun y => decide (t / w * w ≤ y.start) } else s
    | none => s) s

/-! ### Coefficient banks (R220 to R224) -/

/-- State field of bank `b`: 0 EMPTY, 1 EDITING, 2 SEALING, 3 READY, 4 ACTIVE, 5 REFUSED. -/
def chrStateF (b : Nat) : RegField := if b = 0 then F.CHR_BANK_STAT_B0_STATE else F.CHR_BANK_STAT_B1_STATE

/-- The result of EDIT or SEAL. -/
def State.chrRes (s : State) (code detail : Nat) : State :=
  (s.wf F.CHR_BANK_RES_CODE code).wf F.CHR_BANK_RES_DETAIL detail

/-- EDIT (R220, R221). -/
def State.chrEdit (s : State) (b : Nat) : State :=
  let st := s.f (chrStateF b)
  if st = 4 then s.chrRes 0x05 0
  else if st = 0 ∨ st = 3 ∨ st = 5 then (s.wf (chrStateF b) 1).chrRes 0 0
  else s

/-- SEAL (R220, R221). -/
def State.chrSeal (s : State) (b : Nat) : State :=
  let st := s.f (chrStateF b)
  if st = 4 then s.chrRes 0x05 0 else if st = 1 then s.wf (chrStateF b) 2 else s.chrRes 0x06 0

def execEdit (_ : Master) (bank : Fin 2) (s : State) : Host.Outcome State Fault Refusal := .next (s.chrEdit bank)
def execSeal (_ : Master) (bank : Fin 2) (s : State) : Host.Outcome State Fault Refusal := .next (s.chrSeal bank)

/-- A write of CHR_BANK_CTRL. -/
def State.chrCtrl (s : State) (w : Word) : State :=
  let b := w.toNat % 2
  let s := if w.getLsbD 31 then s.chrEdit b else s
  if w.getLsbD 30 then s.chrSeal b else s

/-- The CRC-32C over a bank's offsets 0x0_0000 to 0x1_7FFF in address order. -/
def State.chrCrc (s : State) (b : Nat) : Nat :=
  ((List.range 24576).foldl (fun c i => crc32cFrom c (wordBytes (s.rd (chrBankAddr b (4 * i))))) 0xFFFFFFFF) ^^^ 0xFFFFFFFF

/-- The seal check of bank `b` (R221): the first code that applies, with its detail. -/
def State.sealCode (s : State) (b : Nat) : Nat × Nat :=
  let word (o : Nat) := (s.rd (chrBankAddr b o)).toNat
  let ntBad := (List.range 64).find? fun k => decide (256 < word (0x8000 + 4 * k))
  let coefBad := (s.mem.find? fun e =>
    let o := e.1 - chrBankAddr b 0
    decide (chrBankAddr b 0 ≤ e.1) && (decide (o < 0x8000) || (decide (0x10000 ≤ o) && decide (o < 0x18000)))
      && decide (0x1000000 ≤ e.2.toNat)).map fun e => e.1 - chrBankAddr b 0
  let gain := (List.range 64).find? fun k =>
    let nt := s.chrNT b k
    decide (64 * 1048576 < ((List.range nt).map fun t => (s.chrTap b k nt t).natAbs).sum)
  let proto := (List.range 4).find? fun q => s.protoSet b q && (List.range 256).any fun p =>
    decide (64 * 1048576 < ((List.range 16).map fun m => (s.chrProto b q (256 * m + p)).natAbs).sum)
  if s.chrCrc b ≠ (s.rd Reg.CHR_BANK_CRC).toNat then (0x01, 0)
  else match ntBad, coefBad, gain, proto with
    | some k, _, _, _ => (0x02, k)
    | none, some o, _, _ => (0x02, o)
    | none, none, some k, _ => (0x03, k)
    | none, none, none, some q => (0x04, q)
    | none, none, none, none => (0x00, 0)

/-- The seal check completes (R220, R221). -/
def State.sealDone (s : State) (b : Nat) : State :=
  if s.f (chrStateF b) ≠ 2 then s
  else
    let r := s.sealCode b
    (s.wf (chrStateF b) (if r.1 = 0 then 3 else 5)).chrRes r.1 r.2

def execChrBankSealDone (bank : Fin 2) (s : State) : Host.Outcome State Fault Refusal := .next (s.sealDone bank)

/-- A write to word `i` of bank `b`'s window (R220). -/
def State.chrBankWrite (s : State) (b i : Nat) (w : Word) (master : Nat) : State :=
  if s.f (chrStateF b) = 1 then s.wr (chrBankAddr b (4 * i)) w
  else s.emit .CHR_BANK_WRITE 0 [(b : Int), ((4 * i : Nat) : Int), (master : Int)]

def execChrBankWrite (m : Master) (bank : Fin 2) (off : Fin 24576) (data : Word) (s : State) :
    Host.Outcome State Fault Refusal := .next (s.chrBankWrite bank off data (masterCode m))

/-- The refusal of a swap to bank `b` (R223): reason and channel; 0 none. -/
def State.chrSwapCode (s : State) (b : Nat) : Nat × Nat :=
  let st := s.f (chrStateF b)
  if st = 4 then (2, 0)
  else if st ≠ 3 then (1, 0)
  else
    let empty := s.chrOn.find? fun c =>
      let x := s.chrSet true c
      (x.fir && s.chrNT b x.set == 0) || (x.rsmp && !s.protoSet b x.proto)
    let ovr := s.chrOn.find? fun c =>
      let x := s.chrSet true c
      x.fir && (match (if s.bankValid then s.recordOf s.activeBank c else none) with
        | some d => decide (d.taps < s.chrNT b x.set)
        | none => true)
    match empty, ovr with
    | some c, _ => (3, c)
    | none, some c => (4, c)
    | none, none => (0, 0)

/-- The decision of a coefficient-bank swap (R223, R224). -/
def State.chrSwapDecide (s : State) (b : Nat) : State :=
  let r := s.chrSwapCode b
  if r.1 ≠ 0 then
    ((s.bump F.CHR_SWAP_STAT_REFUSED 1).wf F.CHR_SWAP_STAT_REASON r.1).emit .CHR_SWAP_REFUSED 0
      [(r.1 : Int), (b : Int), (r.2 : Int)]
  else
    let was := s.chrBank
    let nts := s.chrOn.map fun c => (c, s.firNT (s.chrSet true c))
    let s := (s.wf (chrStateF b) 4).wf (chrStateF (1 - b)) (match was with | some _ => 3 | none => s.f (chrStateF (1 - b)))
    let s := ((s.wf F.CHR_BANK_STAT_ACTIVE_VALID 1).wf F.CHR_BANK_STAT_ACTIVE b).bumpWrap F.CHR_SWAP_STAT_TAKEN 1
    nts.foldl (fun s x => if s.firNT (s.chrSet true x.1) ≠ x.2 then s.gdChange x.1 else s) s

/-- A request of a coefficient-bank swap by a write that is not timed (R222). -/
def State.chrSwapRequest (s : State) (b : Nat) : State :=
  if s.ticking then { s with front.chrSwaps := s.front.chrSwaps ++ [SwapReq.mk b (s.tick.num + 2)] }
  else (s.wf F.HUB_INT_RAW_SWAP 1).chrSwapDecide b

def execChrSwapRequest (_ : Master) (bank : Fin 2) (s : State) : Host.Outcome State Fault Refusal :=
  .next (s.chrSwapRequest bank)

/-- The coefficient-bank swaps at the boundary of tick `t`, at cycle 137 (R222). -/
def State.chrSwapBoundary (s : State) (t : Nat) : State :=
  let due := s.front.chrSwapsNow ++ (s.front.chrSwaps.filter fun r => decide (r.due ≤ t)).map (·.bank)
  let s := { s with front.chrSwapsNow := [], front.chrSwaps := s.front.chrSwaps.filter fun r => decide (t < r.due) }
  match due.reverse with
  | [] => s
  | b :: rest =>
    let s := rest.reverse.foldl (fun s x => s.emit .CHR_SWAP_SUPERSEDED 0 [(x : Int)]) s
    (s.wf F.HUB_INT_RAW_SWAP 1).chrSwapDecide b

/-! ### Capacity figures (R228, R239, R241) -/

/-- Words of the delay memory a channel uses (R228). -/
def delayWords (x : ChrSet) : Nat := if !x.en then 0 else if x.frac then x.w + 8 else x.w + 1

/-- CHR_DELAY_USED (R228), as written. -/
def State.delayUsed (s : State) : Nat := (s.chrOn.map fun c => delayWords (s.chrSet false c)).sum

/-- The charge of a demand in MAC/s (R241). -/
def chrCharge (inR outR taps detect : Nat) (rsmp : Bool) : Nat :=
  (if taps = 0 then 0 else ((taps + 1) / 2 + 2) * (if rsmp then inR else outR))
    + (if rsmp then 18 * outR else 0) + 10 * outR
    + inR * (b2n (bitOf detect 0) + 2 * b2n (bitOf detect 1) + 2 * b2n (bitOf detect 2) + b2n (bitOf detect 3))

/-- CHR_LOAD: the running demand in units of 10,000 MAC/s (R241). -/
def State.chrLoad (s : State) : Nat :=
  (s.chrOn.map fun c =>
    let x := s.chrSet true c
    chrCharge (s.inRate true c) (if x.out then s.outRate true c else 0) (s.firNT x) (s.detTypes true c) x.rsmp).sum / 10000

end Sys2Proof.Machine
end

