-- ==== Sys2Proof/Machine/Queues.lean ====
section
/-!
DEFINITION. The cell pool and its queues (R379 to R402): admitting words, linking, items and their consumers,
host windows, flushes, spill and fill, the backlog store; and the arbiter of the pool's banks (R403 to R411).
-/
namespace Sys2Proof.Machine

open Sys2Proof

/-! ### Queues -/

def queue0 : Queue := { items := [], opens := [], flush := none, nextId := 0 }

def State.queue (s : State) (q : Nat) : Queue := (tabGet (fun _ => none) s.qmg.queues q).getD queue0
def State.setQueue (s : State) (q : Nat) (x : Queue) : State :=
  { s with qmg.queues := tabSet (fun _ => none) s.qmg.queues q (some x) }

/-- Cells of `n` words (R379). -/
def cellsOf (n : Nat) : Nat := (n + 31) / 32

/-- The bank a cell in the backlog store has. -/
def stored : Nat := 16

/-- The linked cells of a queue in order, by their banks. -/
def Queue.cells (x : Queue) : List Nat := x.items.flatMap (·.banks)

/-- Cells of the middle, and its blocks of 32 (R396). -/
def Queue.middle (x : Queue) : Nat := (x.cells.filter (· == stored)).length
def Queue.blocks (x : Queue) : Nat := (x.middle + 31) / 32

/-- Linked cells in the pool; the head before the middle, or with an empty middle the first 64; and the tail (R395, R396). -/
def Queue.pool (x : Queue) : Nat := x.cells.length - x.middle
def Queue.head (x : Queue) : Nat := if x.middle = 0 then min 64 x.cells.length else (x.cells.takeWhile (· != stored)).length
def Queue.tail (x : Queue) : Nat := x.pool - x.head

/-- DEPTH: the middle counts at 32 cells per block (R396). -/
def Queue.depth (x : Queue) : Nat := x.pool + 32 * x.blocks

/-- The items of a queue with their cells dealt anew from a list. -/
def deal : List Item → List Nat → List Item
  | [], _ => []
  | i :: r, l => { i with banks := l.take i.banks.length } :: deal r (l.drop i.banks.length)

/-- The `n` cells from place `p` on lie where `l` says. -/
def Queue.place (x : Queue) (p : Nat) (l : List Nat) : Queue :=
  { x with items := deal x.items (x.cells.take p ++ l ++ x.cells.drop (p + l.length)) }

/-- Cells of the open packets of a queue. -/
def Queue.openCells (x : Queue) : Nat := (x.opens.map fun p => cellsOf p.words.length).sum

/-- Cells on the free list. -/
def State.freeCells (s : State) : Nat := s.f F.QMG_POOL_FREE

/-- The first bank from `b` on, modulo 16, whose free list is not empty (R404). -/
def bankFrom (free : List Nat) (b : Nat) : Nat :=
  (((List.range 16).map fun i => (b + i) % 16).find? fun k => free.getD k 0 != 0).getD (b % 16)

/-- `n` successive cells of a packet, from bank `b` on (R404): their banks, and the free lists afterwards. -/
def allot : Nat → List Nat → Nat → List Nat × List Nat
  | 0, free, _ => ([], free)
  | n + 1, free, b =>
    let k := bankFrom free b
    let r := allot n (listSet free k (free.getD k 0 - 1)) (k + 1)
    (k :: r.1, r.2)

/-- Take `n` cells of the free list for a packet whose cells so far are `have'`: each lies in the first bank after that of the one before it
whose free list is not empty; that of a packet's first cell is open (R404). -/
def State.takeCells (s : State) (have' : List Nat) (n : Nat) : List Nat × State :=
  let r := allot n s.qmg.freeIn (match have'.getLast? with | some b => b + 1 | none => Config.firstBank s.qmg.firsts)
  let s := s.wf F.QMG_POOL_FREE (s.freeCells - n)
  let s : State := { s with qmg.freeIn := r.2, qmg.firsts := s.qmg.firsts + (if have'.isEmpty && n != 0 then 1 else 0) }
  (r.1, s.wf F.QMG_POOL_LOW_LOW (min (s.f F.QMG_POOL_LOW_LOW) s.freeCells))

/-- Cells return to the free lists of their banks. -/
def State.giveCells (s : State) (l : List Nat) : State :=
  let s : State := { s with qmg.freeIn := l.foldl (fun a b => listSet a b (a.getD b 0 + 1)) s.qmg.freeIn }
  s.wf F.QMG_POOL_FREE (min 0x40000 (s.freeCells + l.length))

/-- Those of some cells that lie in the pool. -/
def inPool (l : List Nat) : List Nat := l.filter (· != stored)

/-- DEPTH, POOLD and BEGUN of queue `q` are brought up to date. -/
def State.showDepth (s : State) (q : Nat) : State :=
  let x := s.queue q
  ((s.wf (F.QMG_Qq_DEPTH_DEPTH q) x.depth).wf (F.QMG_Qq_POOLD_POOLD q) x.pool).wb (F.QMG_Qq_STAT_BEGUN q)
    (match x.items with | i :: _ => i.begun | [] => false)

/-- So is DEEP (R402): `rise` on a link, else on a delivery or discard. -/
def State.showQueue (s : State) (q : Nat) (rise : Bool) : State :=
  let d := (s.queue q).depth
  let s := s.showDepth q
  let deep := s.flag (F.QMG_Qq_STAT_DEEP q)
  let bit := 2 ^ (q % 32)
  let map := (s.rd (Reg.QMG_DEEP_MAP (q / 32))).toNat
  if rise && !deep && decide (s.f (F.QMG_Qq_HI_HI q) ≤ d) then
    ((s.wf (F.QMG_Qq_STAT_DEEP q) 1).wr (Reg.QMG_DEEP_MAP (q / 32)) (BitVec.ofNat 32 (map ||| bit))).emit .QUEUE_DEEP
      (objQueue q) [(d : Int)]
  else if !rise && deep && decide (d ≤ s.f (F.QMG_Qq_LO_LO q)) then
    ((s.wf (F.QMG_Qq_STAT_DEEP q) 0).wr (Reg.QMG_DEEP_MAP (q / 32)) (BitVec.ofNat 32 (map - (map &&& bit)))).emit .QUEUE_CLEAR
      (objQueue q) [(d : Int)]
  else s

/-- A packet closes: all of its cells are linked to the tail of the queue (R380). -/
def State.link (s : State) (q : Nat) (words : List Word) (ranges : List Range) (banks : List Nat) : State :=
  let x := s.queue q
  let item : Item := { id := x.nextId, words := words, ranges := ranges, ready := false, begun := false, at' := 0, linked := s.tick.num,
                       banks := banks }
  let x := { x with items := x.items ++ [item], nextId := x.nextId + 1 }
  ((s.setQueue q x).bumpWrap (F.QMG_Qq_ITEMS_ITEMS q) 1).showQueue q true

/-! ### Sample packets (R382) -/

/-- The groups of a sample packet: channel or 0x8000 + d, second, index, sequence, rate and words. -/
structure Group where
  ch : Nat
  sec : Nat
  idx : Nat
  seq : Nat
  rate : Nat
  words : List Word
  deriving DecidableEq, Repr

/-- The words of a sample packet. -/
def packetWords (tick : Nat) (gs : List Group) : List Word :=
  [BitVec.ofNat 32 (0x10 + 0x100 + gs.length * 65536), 0#32, BitVec.ofNat 32 tick, BitVec.ofNat 32 (tick / 2 ^ 32)] ++
    gs.flatMap fun g => [BitVec.ofNat 32 (g.ch + g.words.length * 65536), BitVec.ofNat 32 g.sec, BitVec.ofNat 32 g.idx,
      BitVec.ofNat 32 g.seq, BitVec.ofNat 32 g.rate] ++ g.words

/-- The groups that follow in a packet's words. -/
def parseGroups : Nat → List Word → List Group
  | 0, _ => []
  | n + 1, h :: a :: b :: c :: d :: r =>
    let k := h.toNat / 65536
    { ch := h.toNat % 65536, sec := a.toNat, idx := b.toNat, seq := c.toNat, rate := d.toNat, words := r.take k } ::
      parseGroups n (r.drop k)
  | _ + 1, _ => []

/-- The tick and groups of an item that is a sample packet. -/
def samplePacket (ws : List Word) : Option (Nat × List Group) :=
  match ws with
  | h :: _ :: lo :: hi :: r =>
    if h.toNat % 65536 = 0x110 then some (lo.toNat + hi.toNat * 2 ^ 32, parseGroups (h.toNat / 65536) r) else none
  | _ => none

/-- The gap record of a group that is lost (R386, R393, R401). -/
def State.groupGap (s : State) (q : Nat) (cause : GapCause) (tick : Nat) (g : Group) : State :=
  if 4192 ≤ g.ch ∨ g.words.length = 0 then s
  else
    let last := g.sec * g.rate + g.idx + g.words.length - 1
    s.gap { ch := g.ch, cause := cause, queueWide := false, conv := false, merged := false, inexact := false, queue := q,
            firstTick := tick, lastTick := tick, firstSec := g.sec, firstIdx := g.idx, lastSec := last / max 1 g.rate,
            lastIdx := last % max 1 g.rate, seq := g.seq, count := g.words.length }

/-- Set GPE on the first word of channel `c` in a sample packet's words, if it holds one. -/
def gpeGroups (c : Nat) : List Group → Option (List Group)
  | [] => none
  | g :: r =>
    if g.ch = c ∧ g.words.length ≠ 0 then
      some ({ g with words := match g.words with | w :: t => (w ||| 0x80000000#32) :: t | [] => [] } :: r)
    else (gpeGroups c r).map (g :: ·)

/-- Set GPE on the first word of channel `c` in a sample packet. -/
def gpePacket (c : Nat) (ws : List Word) : Option (List Word) :=
  match samplePacket ws with
  | some (_, gs) => (gpeGroups c gs).map fun l => ws.take 4 ++ (packetWords 0 l).drop 4
  | none => none

/-- Set GPE on the first word of channel `c` in a list of items not yet begun and linked from number `n` on. -/
def gpeItems (c n : Nat) : List Item → Option (List Item)
  | [] => none
  | i :: r =>
    match if i.begun || decide (i.id < n) then none else gpePacket c i.words with
    | some w => some ({ i with words := w } :: r)
    | none => (gpeItems c n r).map (i :: ·)

/-- A loss on channel `c` that is found in queue `q`, before item `n`: the first word that follows it and is not sealed carries GPE, in the
queue if one stands there, else the next that enters it (R19); `old` is the channel's mark before the loss. -/
def State.gpeInQueue (s : State) (q c n : Nat) (old : Bool) : State :=
  match gpeItems c n (s.queue q).items with
  | some l => { s.setQueue q { s.queue q with items := l } with hub.gpe := tabSet (fun _ => false) s.hub.gpe c old }
  | none => s

/-- The gap record of one range of a lost Briquette (R431), and GPE on the channel's first word in the next Briquette of its input
queue (R432). -/
def State.rangeGap (s : State) (q : Nat) (cause : GapCause) (r : Range) : State :=
  let old := tabGet (fun _ => false) s.hub.gpe r.ch
  let s := s.gap { ch := r.ch, cause := cause, queueWide := false, conv := false, merged := false, inexact := false, queue := q,
                   firstTick := r.t0, lastTick := r.t1, firstSec := r.sec0, firstIdx := r.idx0, lastSec := r.sec1,
                   lastIdx := r.idx1, seq := r.seq, count := r.count }
  { s with hub.gpe := tabSet (fun _ => false) s.hub.gpe r.ch old,
           prs.marks := (s.prs.marks.filter (· != (r.inq, r.ch))) ++ [(r.inq, r.ch)] }

/-- The gap records of an item that is lost: one for each channel group of a sample packet, and for each range of a Briquette. -/
def State.itemGaps (s : State) (q : Nat) (cause : GapCause) (i : Item) : State :=
  let s := i.ranges.foldl (fun s r => s.rangeGap q cause r) s
  match samplePacket i.words with
  | some (t, gs) => gs.foldl (fun s g =>
      let old := tabGet (fun _ => false) s.hub.gpe g.ch
      (s.groupGap q cause t g).gpeInQueue q g.ch (i.id + 1) old) s
  | none => s

/-! ### Admitting words (R385, R386) -/

/-- A word, or a whole packet of an ordinary producer that adds `n` words to a packet of `have'` words, is refused (R385). -/
def State.refuses (s : State) (q have' n : Nat) : Bool :=
  let x := s.queue q
  let k := cellsOf (have' + n) - cellsOf have'
  !s.flag (F.QMG_Qq_CFG_EN q) || decide (65536 < have' + n) ||
    (k != 0 && (decide (s.f (F.QMG_Qq_LIMIT_LIMIT q) ≤ x.depth + x.openCells + (k - 1))
      || decide (s.freeCells ≤ s.f F.QMG_RESERVE_RESV + (k - 1))))

/-- The last marked packet has closed: the flush completes (R392). -/
def State.flushDone (s : State) (q : Nat) : State :=
  let x := s.queue q
  match x.flush with
  | some f =>
    if x.opens.any fun p => p.marked then s
    else
      let s := s.setQueue q { x with flush := none }
      let s := s.wf (F.QMG_Qq_STAT_FLUSHING q) 0
      let s := if s.f F.QMG_FLUSH_STAT_Q = q then s.wf F.QMG_FLUSH_STAT_PENDING 0 else s
      s.emit .QMG_FLUSH_DONE (objQueue q) [(f.items : Int), (f.packets : Int), (f.words : Int), (f.cells : Int)]
  | none => s

/-- The open packet of a producer. -/
def Queue.pkt (x : Queue) (p : Producer) : Option OpenPkt := x.opens.find? fun o => o.prod == p

/-- Replace or remove the open packet of a producer. -/
def Queue.setPkt (x : Queue) (p : Producer) (o : Option OpenPkt) : Queue :=
  let rest := x.opens.filter fun o => o.prod != p
  { x with opens := match o with | some o => rest ++ [o] | none => rest }

/-- A marked packet closes and is discarded (R390). -/
def State.dropMarked (s : State) (q : Nat) (p : Producer) (words : Nat) (banks : List Nat) : State :=
  let x := s.queue q
  let x := { x with flush := x.flush.map fun (f : Flush) =>
    { f with packets := f.packets + 1, words := f.words + words, cells := f.cells + banks.length } }
  ((s.setQueue q (x.setPkt p none)).giveCells banks).flushDone q

/-- A producer appends a word to its packet of queue `q`; `eop` closes it (R99, R385, R390, R391). False: refused. -/
def State.putWord (s : State) (p : Producer) (q : Nat) (w : Word) (eop : Bool) : Bool × State :=
  let x := s.queue q
  match x.pkt p with
  | some o =>
    if o.dropping then (true, if eop then s.setQueue q (x.setPkt p none) else s)
    else if s.refuses q o.words.length 1 then
      let s := (s.giveCells o.banks).bump (F.QMG_Qq_STAT_REFUSED q) 1
      let rest := if eop then none else some { prod := p, words := [], ranges := [], banks := [], marked := false, dropping := true }
      (false, (s.setQueue q (x.setPkt p rest)).flushDone q)
    else
      let r := s.takeCells o.banks (cellsOf (o.words.length + 1) - cellsOf o.words.length)
      let s := r.2
      let o := { o with words := o.words ++ [w], banks := o.banks ++ r.1 }
      if !eop then (true, s.setQueue q (x.setPkt p (some o)))
      else if o.marked then (true, s.dropMarked q p o.words.length o.banks)
      else (true, (s.setQueue q (x.setPkt p none)).link q o.words o.ranges o.banks)
  | none =>
    if s.refuses q 0 1 then
      let s := s.bump (F.QMG_Qq_STAT_REFUSED q) 1
      (false, if eop then s else s.setQueue q (x.setPkt p (some { prod := p, words := [], ranges := [], banks := [], marked := false, dropping := true })))
    else
      let r := s.takeCells [] 1
      let s := r.2
      if eop then (true, s.link q [w] [] r.1)
      else (true, s.setQueue q (x.setPkt p (some { prod := p, words := [w], ranges := [], banks := r.1, marked := false, dropping := false })))

/-- A whole packet takes its cells and is linked. -/
def State.linkWhole (s : State) (q : Nat) (ws : List Word) : State :=
  let r := s.takeCells [] (cellsOf ws.length)
  r.2.link q ws [] r.1

/-- An ordinary producer writes a whole packet (R385). False: refused, and nothing of it is linked. -/
def State.putPacket (s : State) (q : Nat) (ws : List Word) : Bool × State :=
  if s.refuses q 0 ws.length then (false, s.bump (F.QMG_Qq_STAT_REFUSED q) 1)
  else (true, s.linkWhole q ws)

/-- Sample ingress writes the sample packet of a tick to queue `q` (R382, R386). -/
def State.ingress (s : State) (q tick : Nat) (gs : List Group) : State :=
  let ws := packetWords tick gs
  let lose (c : GapCause) := gs.foldl (fun s g => s.groupGap q c tick g) s
  if !s.flag (F.QMG_Qq_CFG_EN q) then lose .queueOff
  else if s.freeCells < cellsOf ws.length then lose .poolEmpty
  else s.linkWhole q ws

/-! ### Items and consumers (R381, R387) -/

/-- The consumer of queue `q`. -/
def State.consumer (s : State) (q : Nat) : Nat := s.f (F.QMG_Qq_CFG_CONS q)

/-- The first item of a queue, when it is ready. -/
def State.readyItem (s : State) (q : Nat) : Option Item :=
  match (s.queue q).items with
  | i :: _ => if i.ready then some i else none
  | [] => none

/-- The consumer begins the first item. -/
def State.beginItem (s : State) (q : Nat) : State :=
  let x := s.queue q
  match x.items with
  | i :: r => ((s.setQueue q { x with items := { i with begun := true } :: r }).wf (F.QMG_Qq_STAT_BEGUN q) 1).wf
      (F.QMG_Qq_STAT_WAIT q) 0
  | [] => s

/-- The backlog store is in use (R398). -/
def State.backlogUp (s : State) : Bool := s.flag F.QMG_BL_CFG_EN && s.flag F.QMG_BL_STAT_READY

/-- Spill blocks of the store at ring size `hist` MiB (R398). -/
def State.totalBlocks (s : State) (hist : Nat) : Nat := (s.f F.QMG_BL_CFG_SIZE * 1024 - hist) * 256

/-- FULL after a change of the free blocks (R397). -/
def State.showFull (s : State) : State :=
  let n := s.f F.QMG_BL_STAT_FREE_BLK
  if n = 0 ∧ s.backlogUp ∧ !s.flag F.QMG_BL_STAT_FULL then (s.wf F.QMG_BL_STAT_FULL 1).emit .BACKLOG_FULL 0 []
  else if s.flag F.QMG_BL_STAT_FULL && decide (s.totalBlocks (s.f F.QMG_BL_HIST_HIST) ≤ 100 * n) then s.wf F.QMG_BL_STAT_FULL 0
  else s

/-- The item `id` leaves the queue and its cells return to the free list and its spill blocks to the backlog store. -/
def State.freeItem (s : State) (q id : Nat) : State :=
  let x := s.queue q
  match x.items.find? (·.id == id) with
  | none => s
  | some i =>
    let y := { x with items := x.items.filter (·.id != id) }
    let s := s.setQueue q y
    let s := (s.giveCells (inPool i.banks)).wf F.QMG_BL_STAT_FREE_BLK (s.f F.QMG_BL_STAT_FREE_BLK + (x.blocks - y.blocks))
    s.showFull.showQueue q false

/-- The consumer has taken the last word of its begun item. -/
def State.finishItem (s : State) (q : Nat) : State :=
  match (s.queue q).items with
  | i :: _ => if i.begun then s.freeItem q i.id else s
  | [] => s

/-- The first item of queue `q` that is not ready has been checked (R381, R401): `single` corrected errors, and whether a
double-bit error was found. An item with a cell in the backlog store waits. -/
def State.itemReady (s : State) (q single : Nat) (double : Bool) : State :=
  let x := s.queue q
  match x.items.find? fun i => !i.ready with
  | none => s
  | some i =>
    if i.banks.contains stored then s
    else
      let s := s.bump F.QMG_ECC_SINGLE single
      if double then
        let s := (s.bump F.QMG_ECC_DOUBLE 1).freeItem q i.id
        (s.emit .QMG_ECC (objQueue q) [(cellsOf i.words.length : Int)]).itemGaps q .memEcc i
      else
        let n := s.qmg.readied + 1
        let s := s.setQueue q { x with items := x.items.map fun (y : Item) =>
          if y.id == i.id then { y with ready := true, at' := n } else y }
        { s with qmg.readied := n }

def execItemReady (q : Fin 4096) (single : Nat) (double : Bool) (s : State) : Host.Outcome State Fault Refusal :=
  .next (s.itemReady q single double)

/-! ### Host windows (R388, R389) -/

def win0 : HostWin := { item := none, left := [], last := 0#32, eop := false }
def State.win (s : State) (n : Nat) : HostWin := (tabGet (fun _ => none) s.qmg.wins n).getD win0
def State.setWin (s : State) (n : Nat) (x : HostWin) : State :=
  { s with qmg.wins := tabSet (fun _ => none) s.qmg.wins n (some x) }

/-- Window `n` is bound. -/
def State.winOn (s : State) (n : Nat) : Bool := s.flag (F.QMG_HWn_CFG_EN n)
def State.winQueue (s : State) (n : Nat) : Nat := s.f (F.QMG_HWn_CFG_Q n)

/-- The words window `n` can read: those left of its current item, else those of a ready item. -/
def State.winWords (s : State) (n : Nat) : List Word :=
  if !s.winOn n then []
  else match (s.win n).item with
    | some _ => (s.win n).left
    | none => match s.readyItem (s.winQueue n) with
      | some i => i.words
      | none => []

/-- A write of QMG_HWn_CFG (R388). -/
def State.winBind (s : State) (n q : Nat) (en : Bool) : State :=
  if en then
    let other := (List.range 16).any fun k => k != n && s.winOn k && s.winQueue k == q
    if s.consumer q ≠ 9 ∨ other then s.emit .QMG_CFG_BAD (objQueue q) [(n : Int)]
    else if s.winOn n && s.winQueue n == q then s
    else
      let s := match (s.win n).item with
        | some id => if s.winOn n then s.freeItem (s.winQueue n) id else s
        | none => s
      ((s.wf (F.QMG_HWn_CFG_EN n) 1).wf (F.QMG_HWn_CFG_Q n) q).setWin n win0
  else
    let w := s.win n
    let s := match w.item with
      | some id => if s.winOn n then s.freeItem (s.winQueue n) id else s
      | none => s
    ((s.wf (F.QMG_HWn_CFG_EN n) 0).wf (F.QMG_HWn_CFG_Q n) q).setWin n { w with item := none, left := [] }

def execHostWindowBind (_ : Master) (n : Fin 16) (q : Fin 4096) (en : Bool) (s : State) :
    Host.Outcome State Fault Refusal := .next (s.winBind n q en)

/-- A read of QMG_HWn_DATA (R389): the word and the state after it. -/
def State.winRead (s : State) (n : Nat) : Word × State :=
  match s.winWords n with
  | [] => ((s.win n).last, s.wf (F.QMG_HWn_STAT_UNDERRUN n) 1)
  | w :: r =>
    let q := s.winQueue n
    let x := s.win n
    let s := match x.item with | some _ => s | none => s.beginItem q
    let id := match x.item, (s.queue q).items with
      | some k, _ => some k
      | none, i :: _ => some i.id
      | none, [] => none
    if r.isEmpty then
      let s := match id with | some k => s.freeItem q k | none => s
      (w, s.setWin n { item := none, left := [], last := w, eop := true })
    else (w, s.setWin n { item := id, left := r, last := w, eop := false })

/-- QMG_HWn_STAT (R389): EMPTY, UNDERRUN, EOP and LEFT as they stand. -/
def State.winStat (s : State) (n : Nat) : Word :=
  let l := (s.winWords n).length
  BitVec.ofNat 32 (b2n (l == 0) * 2 ^ 31 + b2n (s.flag (F.QMG_HWn_STAT_UNDERRUN n)) * 2 ^ 30 + b2n (s.win n).eop * 2 ^ 29
    + min 65535 l)

def execHostWindowRead (_ : Master) (n : Fin 16) (s : State) : Host.Outcome State Fault Refusal :=
  let r := s.winRead n
  .next { r.2 with hub.rdata := r.1 }

/-! ### Flush (R384, R390 to R394) -/

/-- A block transfer of queue `q` completes (R396). -/
def State.xferDone (s : State) (q : Nat) (fill : Bool) : State :=
  if !(s.qmg.xfers.contains (q, fill)) then s
  else
    let s := { s with qmg.xfers := s.qmg.xfers.erase (q, fill) }
    let x := s.queue q
    if fill then
      let c := tabGet (fun _ => []) s.qmg.fills q
      let s : State := { s with qmg.fills := tabSet (fun _ => []) s.qmg.fills q [] }
      let n := min 32 x.middle
      if n = 0 then s.giveCells c
      else
        let s := (s.setQueue q (x.place x.head (c.take n))).giveCells (c.drop n)
        let s := s.wf F.QMG_BL_STAT_FREE_BLK (s.f F.QMG_BL_STAT_FREE_BLK + 1)
        s.showFull.showDepth q
    else
      if x.tail < 32 then (s.wf F.QMG_BL_STAT_FREE_BLK (s.f F.QMG_BL_STAT_FREE_BLK + 1)).showFull
      else
        let p := x.head + x.middle
        ((s.setQueue q (x.place p (List.replicate 32 stored))).giveCells ((x.cells.drop p).take 32)).showDepth q

/-- A flush of queue `q` (R390 to R394). -/
def State.flushQueue (s : State) (q : Nat) (force : Bool) : State :=
  let s := (s.xferDone q true).xferDone q false
  let gone := (s.queue q).items.filter fun i => !i.begun
  let s := gone.foldl (fun s i => (s.freeItem q i.id).itemGaps q .flush i) s
  let x := s.queue q
  let f := x.flush.getD { items := 0, packets := 0, words := 0, cells := 0 }
  let f := { f with items := f.items + gone.length, words := f.words + (gone.map (·.words.length)).sum,
                    cells := f.cells + (gone.map fun i => cellsOf i.words.length).sum }
  let live := x.opens.filter fun p => !p.dropping
  let s :=
    if force then
      let l := live.flatMap (·.banks)
      let f := { f with packets := f.packets + live.length, words := f.words + (live.map (·.words.length)).sum, cells := f.cells + l.length }
      let opens := x.opens.map fun (p : OpenPkt) => { p with words := [], banks := [], marked := false, dropping := true }
      (s.giveCells l).setQueue q { x with flush := some f, opens := opens }
    else
      let opens := x.opens.map fun (p : OpenPkt) => if p.dropping then p else { p with marked := true }
      s.setQueue q { x with flush := some f, opens := opens }
  let s := ((s.wf (F.QMG_Qq_STAT_FLUSHING q) 1).wf F.QMG_FLUSH_STAT_PENDING 1).wf F.QMG_FLUSH_STAT_Q q
  s.flushDone q

def execQueueFlush (_ : Master) (q : Fin 4096) (force : Bool) (s : State) : Host.Outcome State Fault Refusal :=
  .next (s.flushQueue q force)

/-- EN of queue `q` is written 0 (R384). -/
def State.disableQueue (s : State) (q : Nat) : State :=
  if s.flag (F.QMG_Qq_CFG_EN q) then (s.flushQueue q true).wf (F.QMG_Qq_CFG_EN q) 0 else s

def execQueueDisable (_ : Master) (q : Fin 4096) (s : State) : Host.Outcome State Fault Refusal := .next (s.disableQueue q)

/-! ### Spill, fill and the backlog store (R395 to R400) -/

/-- Queue `q` needs a fill (R396). -/
def State.wantsFill (s : State) (q : Nat) : Bool :=
  let x := s.queue q
  decide (x.head < 64) && x.blocks != 0

/-- Queue `q` is to spill (R395). -/
def State.wantsSpill (s : State) (q : Nat) : Bool :=
  let x := s.queue q
  let begun := (x.items.filter (·.begun)).map fun i => cellsOf i.words.length
  let most := s.qmg.queues.all fun e =>
    !s.flag (F.QMG_Qq_CFG_SPILL e.1) || decide ((s.queue e.1).pool ≤ x.pool)
  s.flag F.QMG_SPILL_EN && s.flag (F.QMG_Qq_CFG_SPILL q) && s.backlogUp && !s.flag F.QMG_BL_STAT_FULL
    && (decide (s.f (F.QMG_Qq_CFG_POOLMAX q) < x.pool) || (decide (s.freeCells < s.f F.QMG_SPILL_FREE_LO) && most))
    && decide (32 ≤ x.tail) && decide (64 ≤ x.head) && decide (begun.sum ≤ x.head)

/-- A spill of queue `q` starts: fills take precedence, and up to 8 transfers run (R395, R396). -/
def execSpill (q : Fin 4096) (s : State) : Host.Outcome State Fault Refusal :=
  .next (if s.wantsSpill q && decide (s.qmg.xfers.length < 8) && !s.qmg.xfers.contains (q.val, false)
      && decide (0 < s.f F.QMG_BL_STAT_FREE_BLK)
      && !(s.qmg.queues.any fun e => s.wantsFill e.1 && !s.qmg.xfers.contains (e.1, true)) then
    (({ s with qmg.xfers := s.qmg.xfers ++ [(q.val, false)] }).wf F.QMG_BL_STAT_FREE_BLK
      (s.f F.QMG_BL_STAT_FREE_BLK - 1)).showFull
  else s)

/-- A fill of queue `q` starts: it takes 32 cells of the pool (R396), in bank order after the last cell of the head (log entry 131). -/
def execFill (q : Fin 4096) (s : State) : Host.Outcome State Fault Refusal :=
  .next (if s.wantsFill q && s.flag F.QMG_SPILL_EN && decide (s.qmg.xfers.length < 8) && !s.qmg.xfers.contains (q.val, true)
      && decide (32 ≤ s.freeCells) then
    let r := ({ s with qmg.xfers := s.qmg.xfers ++ [(q.val, true)] } : State).takeCells ((s.queue q).cells.take (s.queue q).head) 32
    { r.2 with qmg.fills := tabSet (fun _ => []) r.2.qmg.fills q.val r.1 }
  else s)

def execBlockTransferDone (q : Fin 4096) (fill : Bool) (s : State) : Host.Outcome State Fault Refusal :=
  .next (s.xferDone q fill)

/-- What stays of a queue whose middle is lost, and the items that are lost: those with a cell in the middle (R534). -/
def middleLost (l : List Item) : List Item × List Item := l.partition fun i => !i.banks.contains stored

/-- The middle of queue `q` is discarded, with the gap records of what it held (R534). -/
def State.loseMiddle (s : State) (q : Nat) : State :=
  let x := s.queue q
  if x.blocks = 0 then s
  else
    let r := middleLost x.items
    let s := ((s.setQueue q { x with items := r.1 }).giveCells (r.2.flatMap fun (i : Item) => inPool i.banks)).showQueue q false
    r.2.foldl (fun s i => s.itemGaps q .domainReset i) s

/-- The backlog store is trained (R398): after a reset of its controller that it did not come through intact, every spilled block and
the history ring are lost (R534). -/
def execBacklogTrained (intact : Bool) (s : State) : Host.Outcome State Fault Refusal :=
  .next (if !s.flag F.QMG_BL_CFG_EN then s
  else if intact then s.wf F.QMG_BL_STAT_READY 1
  else
    let s := s.qmg.queues.foldl (fun s e => s.loseMiddle e.1) s
    let s := (s.wf F.QMG_BL_STAT_READY 1).wf F.QMG_BL_STAT_FREE_BLK (s.totalBlocks (s.f F.QMG_BL_HIST_HIST))
    { s with front.hist := [] }.showFull)

/-- Bytes of history that a set of records needs (R123). -/
def historyNeed (l : List Demand) : Nat := (l.map fun d => if bitOf d.flags 0 then 8 * fullRate d else 0).sum

/-- Size of the history ring in bytes at `hist` MiB: 0 while no backlog store is ready (R123, R398). -/
def State.ringBytes (s : State) (hist : Nat) : Nat := if s.backlogUp then hist * 1048576 else 0

/-- State field of program bank `b`: 0 EMPTY, 1 LOADING, 2 CHECKING, 3 READY, 4 ACTIVE, 5 REFUSED. -/
def bankStateF (b : Nat) : RegField := if b = 0 then F.KLN_BANK_STAT_B0_STATE else F.KLN_BANK_STAT_B1_STATE

/-- A write of QMG_BL_HIST (R398, R399). -/
def State.histSet (s : State) (mib : Nat) : State :=
  if s.f F.QMG_BL_CFG_SIZE * 1024 ≤ mib then s.emit .QMG_CFG_BAD 0 [(mib : Int)]
  else
    let fits (b : Nat) : Bool := decide (historyNeed (s.bank b).demands ≤ s.ringBytes mib)
    if s.ticking || (s.bankValid && !fits s.activeBank) then s.emit .QMG_HIST_BUSY 0 [(mib : Int)]
    else
      let used := s.totalBlocks (s.f F.QMG_BL_HIST_HIST) - s.f F.QMG_BL_STAT_FREE_BLK
      let s := (s.wf F.QMG_BL_HIST_HIST mib).wf F.QMG_BL_STAT_FREE_BLK (if s.backlogUp then s.totalBlocks mib - used else 0)
      [0, 1].foldl (fun s b =>
        if s.f (bankStateF b) = 3 ∧ !fits b then (s.wf (bankStateF b) 5).wf F.KLN_LOAD_STAT_CODE 0x16 else s) s

def execHistSet (_ : Master) (mib : BitVec 16) (s : State) : Host.Outcome State Fault Refusal := .next (s.histSet mib.toNat)

/-- The history ring is divided among the HIST records of the new envelope (R400): `old` is the envelope before. -/
def State.divideRing (s : State) (old new : List Demand) : State :=
  let hist (l : List Demand) := l.filter fun d => bitOf d.flags 0 && d.kind != 3
  let total := ((hist new).map fullRate).sum
  let words := s.ringBytes (s.f F.QMG_BL_HIST_HIST) / 4
  let share := (hist new).foldl (fun l d => tabSet (fun _ => 0) l d.source (words * fullRate d / max 1 total)) []
  let keep (c : Nat) := (hist new).any fun d => d.source == c && (hist old).contains d
  let hs := s.front.hist.foldl (fun l e =>
    if keep e.1 then tabSet (fun _ => []) l e.1 (e.2.take (tabGet (fun _ => 0) share e.1)) else l) []
  { s with front.share := share, front.hist := hs }

/-! ### Arbitration (R403 to R411) -/

def arb0 : ArbBank := { owner := none, beats := 0, ptr := 0, waits := [] }
def State.arb (s : State) (b : Nat) : ArbBank := (tabGet (fun _ => none) s.qmg.banks b).getD arb0

/-- Requester `r` is privileged (R403). -/
def arbPriv (r : Nat) : Bool := decide (r < 3)

/-- Rank of requester `r`: privileged above level 7 (R406). -/
def State.arbRank (s : State) (r : Nat) : Nat := if arbPriv r then 8 else s.f (F.ARB_RQr_CFG_LEVEL r)

/-- BURST of requester `r`; 0 acts as 1. -/
def State.arbBurst (s : State) (r : Nat) : Nat := max 1 (s.f (F.ARB_RQr_CFG_BURST r))

/-- The choice among candidates (R406): the highest rank, in the order from ptr; an owner whose burst has expired wins only
when no other requester of its rank waits. -/
def State.arbChoose (s : State) (x : ArbBank) (req : BitVec 16) : Option Nat :=
  let cand := (List.range 16).filter fun r => req.getLsbD r
  let top := (cand.map (s.arbRank ·)).foldl max 0
  let order := (List.range 16).map fun i => (x.ptr + i) % 16
  let best := order.filter fun r => req.getLsbD r && s.arbRank r == top
  match best.filter fun r => x.owner != some r with
  | r :: _ => some r
  | [] => best.head?

/-- The decision of bank `b` in a core cycle, with the request lines at its start (R405 to R407, R411): the cycle's own
beat is counted as moved or idle, waiting requesters count on, and the grant of the next cycle is fixed. -/
def State.bankDecision (s : State) (b : Nat) (req : BitVec 16) : State :=
  let x := s.arb b
  let s := match x.owner with
    | some o => if req.getLsbD o then s.bumpWrap (F.ARB_BKb_BUSY_BEATS b) 1 else s.bumpWrap (F.ARB_BKb_STALE_IDLE b) 1
    | none => s
  let wait (r : Nat) : Nat := if req.getLsbD r && x.owner != some r then tabGet (fun _ => 0) x.waits r + 1 else 0
  let waits := (List.range 16).foldl (fun l r => tabSet (fun _ => 0) l r (wait r)) x.waits
  let s := (List.range 16).foldl (fun s r =>
    if s.f (F.ARB_RQr_WMAX_WAIT r) < min 65535 (wait r) then
      (s.wf (F.ARB_RQr_WMAX_WAIT r) (min 65535 (wait r))).wf (F.ARB_RQr_WMAX_BANK r) b else s) s
  let goesOn := match x.owner with
    | some o => req.getLsbD o && (arbPriv o || decide (x.beats < s.arbBurst o))
    | none => false
  let y : ArbBank :=
    if goesOn then { x with beats := x.beats + 1, waits := waits }
    else match s.arbChoose x req with
      | none => { x with owner := none, beats := 0, waits := waits }
      | some r =>
        let ptr := match x.owner with | some o => if o = r then x.ptr else (o + 1) % 16 | none => x.ptr
        { owner := some r, beats := 1, ptr := ptr, waits := tabSet (fun _ => 0) waits r 0 }
  let s := { s with qmg.banks := tabSet (fun _ => none) s.qmg.banks b (some y) }
  match y.owner with
  | some r => ((s.wf (F.ARB_BKb_OWNER_VALID b) 1).wf (F.ARB_BKb_OWNER_OWNER b) r).bumpWrap (F.ARB_RQr_GRANTS_BEATS r) 1
  | none => s.wf (F.ARB_BKb_OWNER_VALID b) 0

def execBankDecision (b : Fin 16) (req : BitVec 16) (s : State) : Host.Outcome State Fault Refusal :=
  .next (s.bankDecision b req)

/-- A requester's wait count on a bank exceeds its limit (R411). -/
def State.starve (s : State) (r b : Nat) : State :=
  let lim := s.f (F.ARB_RQr_STARVE_LIMIT r)
  let n := tabGet (fun _ => 0) (s.arb b).waits r
  let flags := s.f F.ARB_STARVE_FLAG
  if lim = 0 ∨ n ≤ lim ∨ bitOf flags r then s
  else (s.wf F.ARB_STARVE_FLAG (flags ||| 2 ^ r)).emit .ARB_STARVED (objUnit r)
    [(b : Int), (s.f (F.ARB_BKb_OWNER_OWNER b) : Int), (n : Int)]

def execStarvation (r b : Fin 16) (s : State) : Host.Outcome State Fault Refusal := .next (s.starve r b)

end Sys2Proof.Machine
end

