-- ==== Sys2Proof/Machine/Press.lean ====
section
/-!
DEFINITION. Press (R412 to R433): the engines and their contexts, the pre-transform, the Briquette, verification, and what an
inflater makes of a Briquette.
-/
namespace Sys2Proof.Machine

open Sys2Proof

/-! ### Items and the pre-transform (R418, R419) -/

/-- A sample packet whose groups fill it exactly (R418, KIND 1). -/
def isKind1 (ws : List Word) : Bool :=
  match samplePacket ws, ws with
  | some (_, gs), h :: _ => gs.length == h.toNat / 65536 && 4 + (gs.map fun g => 5 + g.words.length).sum == ws.length &&
      (packetWords 0 gs).length == ws.length
  | _, _ => false

/-- A capture segment (R418, KIND 2). -/
def isKind2 (ws : List Word) : Bool :=
  match ws with
  | h :: n :: _ => h.toNat % 256 == 2 && 8 + n.toNat % 65536 == ws.length
  | _ => false

/-- The KIND of an item under a PRE setting. -/
def kindOf (pre : Nat) (ws : List Word) : Nat := if pre = 0 then 0 else if isKind1 ws then 1 else if isKind2 ws then 2 else 0

/-- The last value and difference of each CH (R419). -/
abbrev PreState := Tab (Nat × Nat)

/-- 24-bit arithmetic. -/
def m24 : Nat := 16777216
def zig (e : Nat) : Nat := (e * 2 % m24) ^^^ (if 8388608 ≤ e then 16777215 else 0)
def unzig (z : Nat) : Nat := if z % 2 = 1 then m24 - 1 - z / 2 else z / 2

/-- z of the words of a group, and the state after them. -/
def zOf (pre : Nat) : Nat × Nat → List Word → List Nat × (Nat × Nat)
  | p, [] => ([], p)
  | p, w :: r =>
    let v := w.toNat % m24
    let d := (v + m24 - p.1) % m24
    let e := if pre = 2 then (d + m24 - p.2) % m24 else d
    let x := zOf pre (v, if pre = 2 then d else p.2) r
    (zig e :: x.1, x.2)

/-- The four planes of a group (R419). -/
def planes (zs : List Nat) (ws : List Word) : List Nat :=
  zs.map (· % 256) ++ zs.map (· / 256 % 256) ++ zs.map (· / 65536 % 256) ++ ws.map fun w => w.toNat / 16777216

/-- The planes of a group of channel `ch`. -/
def groupPlanes (pre ch : Nat) (st : PreState) (ws : List Word) : List Nat × PreState :=
  let r := zOf pre (tabGet (fun _ => (0, 0)) st ch) ws
  (planes r.1 ws, tabSet (fun _ => (0, 0)) st ch r.2)

/-- The groups of a sample packet transformed. -/
def preGroups (pre : Nat) : PreState → List Group → List Nat × PreState
  | st, [] => ([], st)
  | st, g :: r =>
    let p := groupPlanes pre g.ch st g.words
    let head := [g.ch + g.words.length * 65536, g.sec, g.idx, g.seq, g.rate].flatMap (leBytes 4)
    let x := preGroups pre p.2 r
    (head ++ p.1 ++ x.1, x.2)

/-- The bytes of an item in the body (R419). -/
def preItem (pre : Nat) (st : PreState) (kind : Nat) (ws : List Word) : List Nat × PreState :=
  if kind = 1 then
    match samplePacket ws with
    | some (_, gs) =>
      let x := preGroups pre st gs
      ((ws.take 4).flatMap wordBytes ++ x.1, x.2)
    | none => (ws.flatMap wordBytes, st)
  else if kind = 2 then
    match ws with
    | h :: _ =>
      let p := groupPlanes pre (h.toNat / 65536) st (ws.drop 8)
      ((ws.take 8).flatMap wordBytes ++ p.1, p.2)
    | [] => ([], st)
  else (ws.flatMap wordBytes, st)

def preItems (pre : Nat) : PreState → List (Nat × List Word) → List Nat
  | _, [] => []
  | st, i :: r =>
    let x := preItem pre st i.1 i.2
    x.1 ++ preItems pre x.2 r

/-- The item table (R423). -/
def itemTable (l : List (Nat × List Word)) : List Nat :=
  l.flatMap (fun i => leBytes 4 (4 * i.2.length + i.1 * 1048576)) ++ leBytes 4 l.length

/-! ### The Briquette (R422, R424) -/

/-- One byte of CRC-16, polynomial 0x1021, not reflected. -/
def crc16Byte (c b : Nat) : Nat :=
  (List.range 8).foldl (fun c _ => if 32768 ≤ c then ((c * 2) % 65536) ^^^ 0x1021 else c * 2) (c ^^^ (b * 256))

/-- CRC-16 (R424). -/
def crc16 (bs : List Nat) : Nat := bs.foldl crc16Byte 0xFFFF

/-- Fields as bytes, from pairs of value and size. -/
def fieldBytes (l : List (Nat × Nat)) : List Nat := l.flatMap fun e => leBytes e.2 e.1

/-- TICK of an item for the header, under a PRE setting: of its packet when KIND 1, else the tick in which it was linked. -/
def Held.tick (h : Held) (pre : Nat) : Nat :=
  if pre ≠ 0 ∧ h.kind = 1 then (match samplePacket h.words with | some (t, _) => t | none => h.linked) else h.linked

/-- LEVEL, TABLES and PRE of a queue's settings. -/
def pLevel (w : Word) : Nat := fieldOf w 3 0
def pTables (w : Word) : Nat := fieldOf w 5 4
def pPre (w : Word) : Nat := fieldOf w 7 6
def pTarget (w : Word) : Nat := 1024 * fieldOf w 15 8

/-- The packet of a Briquette (R422). -/
def briqWords (serial boot : Nat) (b : Briq) : List Word :=
  let items := b.items.map fun h => (if pPre b.cfg = 0 then 0 else h.kind, h.words)
  let table := itemTable items
  let orig := items.flatMap (fun i => i.2.flatMap wordBytes) ++ table
  let body := preItems (pPre b.cfg) [] items ++ table
  let z := deflateBody (pLevel b.cfg) (pTables b.cfg) body
  let first := match b.items with | h :: _ => h.tick (pPre b.cfg) | [] => 0
  let last := match b.items.getLast? with | some h => h.tick (pPre b.cfg) | none => 0
  let head := fieldBytes [(0x5142524B, 4), (1, 1), (pLevel b.cfg, 1),
    (pPre b.cfg + 4 * pTables b.cfg + 16 * b.engine + 64 * b2n b.redo, 1), (0, 1), (serial, 4), (b.queue, 2), (b.items.length, 2),
    (boot, 4), (b.bseq, 4), (first, 8), (last, 8), (orig.length, 4), (z.length, 4), (crc32c orig, 4), (0, 10)]
  bytesWords (head ++ leBytes 2 (crc16 head) ++ z)

/-- The ranges of a Briquette (R431): one for each channel. -/
def addRange (inq t : Nat) (l : List Range) (g : Group) : List Range :=
  if 4192 ≤ g.ch ∨ g.words.length = 0 then l
  else
    let r := max 1 g.rate
    let last := g.sec * r + g.idx + g.words.length - 1
    if l.any (·.ch == g.ch) then
      l.map fun (x : Range) => if x.ch == g.ch then
        { x with t1 := t, sec1 := last / r, idx1 := last % r, count := x.count + g.words.length } else x
    else l ++ [{ inq := inq, ch := g.ch, t0 := t, t1 := t, sec0 := g.sec, idx0 := g.idx, sec1 := last / r, idx1 := last % r, seq := g.seq,
                 count := g.words.length }]

def briqRanges (b : Briq) : List Range :=
  b.items.foldl (fun l h => match samplePacket h.words with
    | some (t, gs) => gs.foldl (fun l g => addRange b.queue t l g) l
    | none => l) []

/-! ### Engines (R412 to R417, R425) -/

/-- STATE of engine `e`: 0 IDLE, 1 BUSY, 2 VERIFY, 3 WAIT_OUT, 4 FAULTY. -/
def State.engFaulty (s : State) (e : Nat) : Bool := s.f (F.PRS_ENGn_STAT_STATE e) == 4

/-- The engine that serves input queue `q` (R412, R427). -/
def State.engOf (s : State) (q : Nat) : Option Nat :=
  let c := s.consumer q
  if 1 ≤ c ∧ c ≤ 4 then [0, 1, 2, 3].findSome? fun i => let e := (c - 1 + i) % 4; if s.engFaulty e then none else some e else none

def State.engClosed (s : State) (e : Nat) : List Briq := s.prs.closed.filter (·.engine == e)
def State.engVers (s : State) (e : Nat) : List Briq := s.prs.vers.filter (·.engine == e)

/-- STATE and OPEN of the engines, and BUSY and VERIFY of the inflaters, are brought up to date. -/
def State.showPress (s : State) : State :=
  let s := (List.range 4).foldl (fun s e =>
    let n := (s.prs.ctxs.filter (·.engine == e)).length
    let s := s.wf (F.PRS_ENGn_STAT_OPEN e) n
    if s.engFaulty e then s
    else s.wf (F.PRS_ENGn_STAT_STATE e)
      (if 2 ≤ (s.engVers e).length then 2 else if (s.engClosed e).isEmpty then (if n = 0 && (s.engVers e).isEmpty then 0 else 1) else 3)) s
  (List.range 2).foldl (fun s i => match tabGet (fun _ => none) s.prs.infs i with
    | some (.verify _) => (s.wf (F.PRS_INFn_STAT_BUSY i) 1).wf (F.PRS_INFn_STAT_VERIFY i) 1
    | some (.retrieve _) => (s.wf (F.PRS_INFn_STAT_BUSY i) 1).wf (F.PRS_INFn_STAT_VERIFY i) 0
    | none => (s.wf (F.PRS_INFn_STAT_BUSY i) 0).wf (F.PRS_INFn_STAT_VERIFY i) 0) s

/-- The copies of a Briquette: output queue and producer of its open packet. -/
def Briq.copies (b : Briq) : List (Nat × Producer) :=
  (if b.out.getLsbD 15 then [(fieldOf b.out 11 0, Producer.press (2 * b.id))] else []) ++
  (if b.out.getLsbD 31 then [(fieldOf b.out 27 16, Producer.press (2 * b.id + 1))] else [])

/-- The engine writes a Briquette as an open packet to its output queues, when they take every word of it (R417, R425). -/
def State.writeBriq (s : State) (b : Briq) : Option State :=
  let ws := briqWords (s.rd Reg.HUB_SERIAL).toNat (s.rd Reg.UMB_BOOT).toNat b
  b.copies.foldl (fun a c => match a with
    | none => none
    | some s =>
      if s.refuses c.1 0 ws.length then none
      else
        let r := s.takeCells [] (cellsOf ws.length)
        let s := r.2
        some (s.setQueue c.1 ((s.queue c.1).setPkt c.2
          (some { prod := c.2, words := ws, ranges := briqRanges b, banks := r.1, marked := false, dropping := false })))) (some s)

/-- Each engine hands its closed Briquettes on while it has a verification place and its output queues take them (R425). -/
def State.pumpOut (s : State) : State :=
  s.prs.closed.foldl (fun s b =>
    let first := match s.engClosed b.engine with | x :: _ => x.id == b.id | [] => false
    if !first || decide (2 ≤ (s.engVers b.engine).length) then s
    else match s.writeBriq b with
      | some s => { s with prs.closed := s.prs.closed.filter (·.id != b.id), prs.vers := s.prs.vers ++ [b] }
      | none => s) s

/-- Work an inflater has in hand. -/
def State.inHand (s : State) (id : Nat) : Bool := s.prs.infs.any fun e => e.2 == some (.verify id)

/-- Idle inflaters take work: verification before retrieval (R425). -/
def State.pumpInf (s : State) : State :=
  [0, 1].foldl (fun s i => match tabGet (fun _ => none) s.prs.infs i with
    | some _ => s
    | none => match s.prs.vers.find? fun b => !b.passed && !s.inHand b.id with
      | some b => { s with prs.infs := tabSet (fun _ => none) s.prs.infs i (some (.verify b.id)) }
      | none => match s.prs.jobs with
        | j :: r => if s.flag F.PRS_CTRL_EN then
            { s with prs.jobs := r, prs.infs := tabSet (fun _ => none) s.prs.infs i (some (.retrieve j)) } else s
        | [] => s) s

/-- Press goes on with what waits. -/
def State.pressPump (s : State) : State := s.pumpOut.pumpInf.showPress

/-- The engine closes an open Briquette (R414, R425). -/
def State.closeCtx (s : State) (x : Ctx) : State :=
  let b : Briq := { id := s.prs.nextId, engine := x.engine, queue := x.queue, cfg := x.cfg, out := x.out, bseq := x.bseq, redo := false,
                    passed := false, items := x.items }
  { s with prs.nextId := s.prs.nextId + 1, prs.ctxs := s.prs.ctxs.filter (·.queue != x.queue), prs.closed := s.prs.closed ++ [b] }

/-- The open Briquette of queue `q` is closed, if there is one. -/
def State.closeQueueCtx (s : State) (q : Nat) : State :=
  match s.prs.ctxs.find? (·.queue == q) with
  | some x => (s.closeCtx x).pressPump
  | none => s

/-- Every open Briquette is closed when the tick generator stops (R414). -/
def State.pressStop (s : State) : State :=
  if s.prs.ctxs.isEmpty then s else (s.prs.ctxs.foldl State.closeCtx s).pressPump

/-- The queues an engine serves that have a ready item, in the order in which the items became ready (R412). -/
def State.readyQueues (s : State) (e : Nat) : List (Nat × Item) :=
  let l := s.qmg.queues.filterMap fun q =>
    if s.engOf q.1 == some e then (s.readyItem q.1).map fun i => (q.1, i) else none
  l.mergeSort fun a b => decide (a.2.at' ≤ b.2.at')

/-- An item leaves its queue and its cells stay with the engine (R425). -/
def State.consumeItem (s : State) (q : Nat) (i : Item) : List Nat × State :=
  let x := s.queue q
  (i.banks, (s.setQueue q { x with items := x.items.filter (·.id != i.id) }).showQueue q false)

/-- Marked channels get GPE on their first word (R432): the item's words, and the marks that are left. -/
def markItem (ws : List Word) (marks : List Nat) : List Word × List Nat :=
  marks.foldl (fun a c => match gpePacket c a.1 with
    | some w => (w, a.2.filter (· != c))
    | none => a) (ws, marks)

/-- A count of KiB of bytes. -/
def State.countKib (s : State) (reg : Nat) (old bytes : Nat) : State := s.wr reg (BitVec.ofNat 32 ((old + bytes) / 1024))

/-- The words of an item join the open Briquette of queue `q`, or begin one on engine `e` (R413). -/
def State.holdItem (s : State) (e q : Nat) (cfg : Word) (cells : List Nat) (i : Item) : State :=
  match s.prs.ctxs.find? (·.queue == q) with
  | some x =>
    let m := markItem i.words x.marks
    let h : Held := { words := m.1, kind := kindOf (pPre x.cfg) i.words, linked := i.linked, cells := cells }
    { s with prs.ctxs := s.prs.ctxs.map fun (y : Ctx) => if y.queue == q then { y with items := y.items ++ [h], marks := m.2 } else y }
  | none =>
    let n := tabGet (fun _ => 0) s.prs.bseq q
    let marks := (s.prs.marks.filter (·.1 == q)).map (·.2)
    let m := markItem i.words marks
    let h : Held := { words := m.1, kind := kindOf (pPre cfg) i.words, linked := i.linked, cells := cells }
    let x : Ctx := { engine := e, queue := q, cfg := cfg, out := s.rd (Reg.PRS_Qq_OUT q), bseq := n, since := s.tick.num, items := [h],
                     marks := m.2 }
    { s with prs.ctxs := s.prs.ctxs ++ [x], prs.bseq := tabSet (fun _ => 0) s.prs.bseq q ((n + 1) % 2 ^ 32),
             prs.marks := s.prs.marks.filter (·.1 != q) }

/-- Engine `e` takes item `i` of queue `q` (R413, R414): into the queue's open Briquette, or a new one. -/
def State.takeInto (s : State) (e q : Nat) (i : Item) : State :=
  let cfg := s.rd (Reg.PRS_Qq_CFG q)
  let r := s.consumeItem q i
  let s := (r.2.wf (F.PRS_ENGn_STAT_LASTQ e) q)
  let bytes := 4 * i.words.length
  let old := tabGet (fun _ => 0) s.prs.taken e
  let s := { s.countKib (Reg.PRS_ENGn_IN e) old bytes with prs.taken := tabSet (fun _ => 0) s.prs.taken e (old + bytes) }
  s.holdItem e q cfg r.1 i

/-- Engine `e` takes the next ready item of its queues (R412 to R417). -/
def State.pressTake (s : State) (e : Nat) : State :=
  if !s.flag F.PRS_CTRL_EN || s.engFaulty e || !(s.engClosed e).isEmpty then s.pressPump
  else
    let l := s.readyQueues e
    let off := (l.filter fun p => !s.flag (F.PRS_Qq_OUT_EN1 p.1) && !s.prs.noOut.contains p.1).map (·.1)
    let s := off.foldl (fun s q => { s with prs.noOut := q :: s.prs.noOut }.emit .PRS_NO_OUT (objQueue q) []) s
    match l.find? fun p => s.flag (F.PRS_Qq_OUT_EN1 p.1) with
    | none => s.pressPump
    | some (q, i) =>
      let s := { s with prs.noOut := s.prs.noOut.filter (· != q) }
      if 57344 < i.words.length then
        (s.freeItem q i.id).emit .PRS_ITEM_LARGE (objQueue q) [((4 * i.words.length : Nat) : Int)]
      else
        let s := match s.prs.ctxs.find? fun (y : Ctx) => y.queue == q with
          | some (x : Ctx) =>
            let have' := (x.items.map fun (h : Held) => 4 * h.words.length).sum
            if pTarget x.cfg < have' + 4 * i.words.length then s.closeCtx x else s
          | none =>
            let mine := s.prs.ctxs.filter fun (y : Ctx) => y.engine == e
            match mine with
            | x :: _ => if 16 ≤ mine.length then s.closeCtx x else s
            | [] => s
        let s := s.pumpOut
        if (s.engClosed e).isEmpty then (s.takeInto e q i).pressPump else s.pressPump

def execPressTakeItem (e : Fin 4) (s : State) : Host.Outcome State Fault Refusal := .next (s.pressTake e)

/-- The first item of queue `q`'s open Briquette was taken MAXAGE ticks ago (R414); MAXAGE 0 acts as 1. -/
def State.ageClose (s : State) (q : Nat) : State :=
  match s.prs.ctxs.find? (·.queue == q) with
  | some x => if x.since + max 1 (fieldOf x.cfg 31 16) ≤ s.tick.num then (s.closeCtx x).pressPump else s
  | none => s

def execBriquetteAgeClose (q : Fin 4096) (s : State) : Host.Outcome State Fault Refusal := .next (s.ageClose q)

/-- A write of PRS_Qq_CFG or PRS_Qq_OUT that is accepted closes the open Briquette under the old settings (R416). -/
def State.pressCfg (s : State) (q : Nat) (out : Bool) (w : Word) : State :=
  let t := fieldOf w 15 8
  let bad := if out then w.getLsbD 31 && !w.getLsbD 15
    else decide (9 < pLevel w) || pTables w == 3 || pPre w == 3 || decide (t < 4) || decide (224 < t)
  if bad then s.emit .PRS_CFG_BAD (objQueue q) [((if out then Reg.PRS_Qq_OUT q else Reg.PRS_Qq_CFG q) : Int)]
  else
    let s := s.closeQueueCtx q
    let s := if out && w.getLsbD 15 then { s with prs.noOut := s.prs.noOut.filter (· != q) } else s
    s.wr (if out then Reg.PRS_Qq_OUT q else Reg.PRS_Qq_CFG q) (if out then w &&& 0x8FFF8FFF#32 else w)

/-! ### Verification (R425 to R427) -/

/-- The cells of the held items return to the free list. -/
def State.freeHeld (s : State) (l : List Held) : State := s.giveCells (l.flatMap (·.cells))

/-- One copy of a verified Briquette is linked; a copy that a flush has marked is discarded, with the gap records of its
ranges (R426, R431, R433). -/
def State.linkCopy (s : State) (b : Briq) (c : Nat × Producer) : State :=
  let lost (s : State) : State := (briqRanges b).foldl (fun s r => s.rangeGap c.1 .flush r) s
  match (s.queue c.1).pkt c.2 with
  | none => lost s
  | some o =>
    if o.dropping then lost (s.setQueue c.1 ((s.queue c.1).setPkt c.2 none))
    else if o.marked then lost (s.dropMarked c.1 c.2 o.words.length o.banks)
    else (s.setQueue c.1 ((s.queue c.1).setPkt c.2 none)).link c.1 o.words o.ranges o.banks

/-- One copy of a failed Briquette is discarded. -/
def State.dropCopy (s : State) (c : Nat × Producer) : State :=
  match (s.queue c.1).pkt c.2 with
  | none => s
  | some o =>
    if o.dropping then s.setQueue c.1 ((s.queue c.1).setPkt c.2 none)
    else if o.marked then s.dropMarked c.1 c.2 o.words.length o.banks
    else (s.setQueue c.1 ((s.queue c.1).setPkt c.2 none)).giveCells o.banks

/-- Verification passes (R426). -/
def State.verifyPass (s : State) (b : Briq) : State :=
  let e := b.engine
  let n := 4 * (briqWords (s.rd Reg.HUB_SERIAL).toNat (s.rd Reg.UMB_BOOT).toNat b).length
  let s := b.copies.foldl (fun s c => s.linkCopy b c) s
  let old := tabGet (fun _ => 0) s.prs.linked e
  let s := { s.countKib (Reg.PRS_ENGn_OUT e) old n with prs.linked := tabSet (fun _ => 0) s.prs.linked e (old + n) }
  (s.freeHeld b.items).bumpWrap (F.PRS_ENGn_BRQ_COUNT e) 1

/-- The items of a Briquette that failed twice are lost, and its engine is FAULTY (R427). -/
def State.engineFault (s : State) (b : Briq) : State :=
  let s := s.freeHeld b.items
  let s := b.items.foldl (fun s h => if isKind1 h.words then
      (match samplePacket h.words with
       | some (t, gs) => (gs.foldl (fun l g => addRange b.queue t l g) []).foldl (fun s r => s.rangeGap b.queue .pressFail r) s
       | none => s) else s) s
  let s := (s.wf (F.PRS_ENGn_STAT_STATE b.engine) 4).emit .PRS_ENGINE_FAULT (objUnit b.engine) []
  { s with prs.ctxs := s.prs.ctxs.map fun (x : Ctx) =>
      if x.engine == b.engine then { x with engine := (s.engOf x.queue).getD b.engine } else x }

/-- Verification finds a fault (R427). -/
def State.verifyFail (s : State) (i : Nat) (b : Briq) (code : Nat) : State :=
  let e := b.engine
  let s := b.copies.foldl State.dropCopy s
  let s := (s.wf (F.PRS_ENGn_FAIL_CODE e) code).bump (F.PRS_ENGn_FAIL_COUNT e) 1
  let s := (s.wf (F.PRS_INFn_STAT_CODE i) code).bump (F.PRS_INFn_STAT_FAULTS i) 1
  let s := s.emit .PRS_INFLATE_FAULT (objUnit (4 + i)) [(code : Int), ((s.rd Reg.HUB_SERIAL).toNat : Int), (b.bseq : Int)]
  let s := s.emit .PRS_VERIFY_FAIL (objUnit e) [(b.queue : Int), (b.bseq : Int), (code : Int)]
  if b.redo then s.engineFault b
  else { s with prs.closed := { b with redo := true, cfg := b.cfg &&& 0xFFFFFF30#32 } :: s.prs.closed }

/-- No earlier Briquette of `b`'s input queue waits for its output or its verification: `b` may be linked without overtaking one (R18). -/
def State.inTurn (s : State) (b : Briq) : Bool :=
  (s.prs.vers ++ s.prs.closed).all fun (x : Briq) => x.queue != b.queue || decide (b.id ≤ x.id)

/-- The Briquettes whose verification has passed are linked, each after the earlier ones of its input queue (R18, R426; the wait is
the model's choice, log entry 132). -/
def State.linkPassed (s : State) : State :=
  ((s.prs.vers.filter (·.passed)).mergeSort fun a b => decide (a.id ≤ b.id)).foldl (fun s b =>
    if s.inTurn b then { s with prs.vers := s.prs.vers.filter (·.id != b.id) }.verifyPass b else s) s

/-- Inflater `i` ends a verification with a code (R425 to R427): 0 OK, else a fault code. -/
def State.verifyDone (s : State) (i code : Nat) : State :=
  match tabGet (fun _ => none) s.prs.infs i with
  | some (.verify id) =>
    let s := { s with prs.infs := tabSet (fun _ => none) s.prs.infs i none }.bumpWrap (F.PRS_INFn_DONE_VER i) 1
    match s.prs.vers.find? (·.id == id) with
    | none => s.pressPump
    | some b =>
      let s := if code = 0 then { s with prs.vers := s.prs.vers.map fun (x : Briq) => if x.id == id then { x with passed := true } else x }
        else { s with prs.vers := s.prs.vers.filter (·.id != id) }.verifyFail i b code
      s.linkPassed.pressPump
  | _ => s

def execVerifyDone (i : Fin 2) (code : Fin 9) (s : State) : Host.Outcome State Fault Refusal := .next (s.verifyDone i code)

/-! ### Retrieval (R428 to R430) -/

/-- The words of a group restored from its planes (R419). -/
def unplane (pre n : Nat) (p : List Nat) : Nat → Nat × Nat → List Word × (Nat × Nat)
  | 0, st => ([], st)
  | k + 1, st =>
    let i := n - (k + 1)
    let z := p.getD i 0 + 256 * p.getD (n + i) 0 + 65536 * p.getD (2 * n + i) 0
    let e := unzig z
    let d := if pre = 2 then (e + st.2) % m24 else e
    let v := (d + st.1) % m24
    let x := unplane pre n p k (v, if pre = 2 then d else st.2)
    (BitVec.ofNat 32 (v + 16777216 * p.getD (3 * n + i) 0) :: x.1, x.2)

/-- The groups of a transformed sample packet; none when they do not fill it exactly. -/
def unGroups (pre : Nat) : Nat → PreState → List Nat → Option (List Word × PreState)
  | 0, st, b => if b.isEmpty then some ([], st) else none
  | k + 1, st, b =>
    let ch := leNat (b.take 2)
    let n := leNat ((b.drop 2).take 2)
    if b.length < 20 + 4 * n then none
    else
      let x := unplane pre n (b.drop 20) n (tabGet (fun _ => (0, 0)) st ch)
      match unGroups pre k (tabSet (fun _ => (0, 0)) st ch x.2) (b.drop (20 + 4 * n)) with
      | some r => some (bytesWords (b.take 20) ++ x.1 ++ r.1, r.2)
      | none => none

/-- An item restored from its bytes in the body; none when it does not parse. -/
def unItem (pre : Nat) (st : PreState) (kind : Nat) (b : List Nat) : Option (List Word × PreState) :=
  if kind = 1 then
    if b.length < 16 ∨ b.getD 0 0 ≠ 0x10 ∨ b.getD 1 0 ≠ 0x01 then none
    else (unGroups pre (leNat ((b.drop 2).take 2)) st (b.drop 16)).map fun r => (bytesWords (b.take 16) ++ r.1, r.2)
  else if kind = 2 then
    let n := leNat ((b.drop 4).take 2)
    if b.length ≠ 32 + 4 * n ∨ b.getD 0 0 ≠ 2 then none
    else
      let ch := leNat ((b.drop 2).take 2)
      let x := unplane pre n (b.drop 32) n (tabGet (fun _ => (0, 0)) st ch)
      some (bytesWords (b.take 32) ++ x.1, tabSet (fun _ => (0, 0)) st ch x.2)
  else if kind = 0 then some (bytesWords b, st) else none

/-- The items of a body, given the table's entries. -/
def unItems (pre : Nat) : PreState → List Nat → List Nat → Option (List (Nat × List Word))
  | _, [], b => if b.isEmpty then some [] else none
  | st, t :: r, b =>
    let n := t % 1048576
    if t / 4194304 ≠ 0 ∨ n % 4 ≠ 0 ∨ b.length < n then none
    else match unItem pre st (t / 1048576 % 4) (b.take n) with
      | none => none
      | some x => (unItems pre x.2 r (b.drop n)).map ((t / 1048576 % 4, x.1) :: ·)

/-- The entries of an item table. -/
def entries : Nat → List Nat → List Nat
  | 0, _ => []
  | n + 1, b => leNat (b.take 4) :: entries n (b.drop 4)

/-- The items of a restored body (R423). -/
def bodyItems (pre : Nat) (body : List Nat) : Option (List (Nat × List Word)) :=
  let n := leNat (body.drop (body.length - 4))
  if body.length < 4 * (n + 1) then none
  else
    let k := body.length - 4 * (n + 1)
    unItems pre [] (entries n (body.drop k)) (body.take k)

/-- What an inflater finds in a Briquette: the code, the inflation fault with HDR_BAD, the payload offset, the items, and HUB and
BSEQ as read (R428 to R430). -/
structure Inflated where
  code : Nat
  sub : Nat
  off : Nat
  items : List (List Word)
  hub : Nat
  bseq : Nat
  deriving DecidableEq, Repr

/-- The payload lengths tried when the header's check fails: the packet less up to three trailing zero bytes. -/
def payloads (p : List Nat) : List (List Nat) :=
  (List.range 4).filterMap fun k => if (p.drop (p.length - k)).all (· == 0) && decide (k ≤ p.length) then some (p.take (p.length - k)) else none

/-- An inflater's check of a Briquette (R429). -/
def checkBriq (ws : List Word) : Inflated :=
  let bs := ws.flatMap wordBytes
  let at' (o n : Nat) : Nat := leNat ((bs.drop o).take n)
  let r (code sub off : Nat) (items : List (List Word)) : Inflated :=
    { code := code, sub := sub, off := off, items := items, hub := at' 8 4, bseq := at' 20 4 }
  let mode := at' 6 1
  let pre := mode % 4
  if bs.length < 64 then r 0x01 0 0 []
  else if crc16 (bs.take 62) = at' 62 2 then
    let comp := at' 44 4
    let pad := (4 - comp % 4) % 4
    if at' 0 4 ≠ 0x5142524B ∨ at' 4 1 ≠ 1 ∨ 9 < at' 5 1 ∨ pre = 3 ∨ mode / 4 % 4 = 3 ∨ 128 ≤ mode ∨ 64 + comp + pad ≠ bs.length then r 0x01 0 0 []
    else match inflate ((bs.drop 64).take comp) (some (at' 40 4)) with
      | .error e => r e.code 0 (min 0xFFFFFF e.off) []
      | .ok body =>
        if (bs.drop (64 + comp)).any (· != 0) then r 0x06 0 (min 0xFFFFFF comp) []
        else match bodyItems pre body with
          | none => r 0x07 0 0 []
          | some l => r (if crc32c (l.flatMap (fun i => i.2.flatMap wordBytes) ++ itemTable l) = at' 48 4 then 0x00 else 0x07) 0 0
              (l.map (·.2))
  else
    let tries := (payloads (bs.drop 64)).map fun p => inflate p none
    match tries.findSome? fun t => match t with | .ok b => some b | .error _ => none with
    | some body => match bodyItems pre body with
      | some l => r 0x08 0 0 (l.map (·.2))
      | none => r 0x01 0x07 0 []
    | none => match tries with
      | .error e :: _ => r 0x01 e.code (min 0xFFFFFF e.off) []
      | _ => r 0x01 0 0 []

/-- Packets go to a queue one after the other; none when one is refused. -/
def State.putAll (s : State) (q : Nat) : List (List Word) → Option State
  | [] => some s
  | p :: r =>
    if s.refuses q 0 p.length then none
    else (s.linkWhole q p).putAll q r

/-- The result record (R428). -/
def resultRecord (x : Inflated) (n : Nat) : List Word :=
  bytesWords (fieldBytes [(0x20, 1), (x.code, 1), (n, 2), (x.hub, 4), (x.bseq, 4), (x.off + 16777216 * x.sub, 4)])

/-- Inflater `i` ends a retrieval (R428, R430): Cord's number of the job, and the state after it; the inflater waits while the
destination queue does not take the packets. -/
def State.retrievalDone (s : State) (i : Nat) : Option (Nat × Nat) × State :=
  match tabGet (fun _ => none) s.prs.infs i with
  | some (.retrieve j) =>
    let x := checkBriq j.words
    let items := if x.code = 0 ∨ (7 ≤ x.code ∧ !j.strict) then x.items else []
    match s.putAll j.dest (items ++ [resultRecord x items.length]) with
    | none => (none, s)
    | some s =>
      let s := { s with prs.infs := tabSet (fun _ => none) s.prs.infs i none }.bumpWrap (F.PRS_INFn_DONE_RETR i) 1
      let s := if x.code = 0 then s
        else ((s.wf (F.PRS_INFn_STAT_CODE i) x.code).bump (F.PRS_INFn_STAT_FAULTS i) 1).emit .PRS_INFLATE_FAULT (objUnit (4 + i))
          [(x.code : Int), (x.hub : Int), (x.bseq : Int)]
      (some (j.tag, x.code), s.pressPump)
  | _ => (none, s)

end Sys2Proof.Machine
end

