-- ==== Sys2Proof/Machine/Cord.lean ====
section
/-!
DEFINITION. The Cord archive (R434 to R453, R457, R459): controllers, extents and segments, units and their Writes, index epochs and
checkpoints, recovery, pins and retrieval.
-/
namespace Sys2Proof.Machine

open Sys2Proof

/-! ### Controllers and extents -/

def ctrl0 : Ctrl := { granted := 0, mqes := 0, sncrc := 0#32, nsids := [], fails := 0 }
def State.ctrl (s : State) (n : Nat) : Ctrl := (tabGet (fun _ => none) s.crd.ctrls n).getD ctrl0
def State.setCtrl (s : State) (n : Nat) (x : Ctrl) : State :=
  { s with crd.ctrls := tabSet (fun _ => none) s.crd.ctrls n (some x) }

/-- Controllers that are LIVE. -/
def State.liveCtrls (s : State) : List Nat := (List.range 4).filter fun n => s.f (F.CRD_Cn_STAT_STATE n) == 2

def ext0 : ExtSt := { nsid := 0, used := [], online := false, retiredAt := 0, ckpt := 0 }
def State.ext (s : State) (x : Nat) : ExtSt := (tabGet (fun _ => none) s.crd.exts x).getD ext0
def State.setExt (s : State) (x : Nat) (v : ExtSt) : State :=
  { s with crd.exts := tabSet (fun _ => none) s.crd.exts x (some v) }

/-- STATE of extent `x`: 0 FREE, 1 PENDING, 2 ONLINE, 3 DRAINING, 4 RETIRED, 5 LOST. -/
def State.extState (s : State) (x : Nat) : Nat := s.f (F.CRD_Xx_STAT_STATE x)

/-- The extents in the table, in number order. -/
def State.extList (s : State) : List Nat := (s.crd.exts.map (·.1)).filter fun x => s.extState x != 0
def State.onlineExts (s : State) : List Nat := s.extList.filter fun x => s.extState x == 2

def State.extLba (s : State) (x : Nat) : Nat := s.f64 (F.CRD_Xx_LBA_LO_LBA x) (F.CRD_Xx_LBA_HI_LBA x)
def State.extLen (s : State) (x : Nat) : Nat := s.f (F.CRD_Xx_LEN_LEN x)

/-- Number of segments of an extent (R438); they are numbered from 1. -/
def State.segCount (s : State) (x : Nat) : Nat := s.extLen x / 16384 - 1

/-- ABN of block `b` of segment `g` of extent `x`. -/
def abnOf (x g b : Nat) : Nat := x * 2 ^ 28 + g * 16384 + b

/-- FREESEG of extent `x`. -/
def State.showExt (s : State) (x : Nat) : State := s.wf (F.CRD_Xx_STAT_FREESEG x) (s.segCount x - (s.ext x).used.length)

/-- Segment `g` of extent `x` is open. -/
def State.segOpen (s : State) (x g : Nat) : Bool := s.crd.opens.any fun o => o.ext == x && o.seg == g

/-- An entry's queue and ticks meet a pin (R447). -/
def State.pinned (s : State) (e : IdxEntry) : Bool :=
  (List.range 256).any fun p => s.flag (F.CRD_PINp_Q_V p) && s.f (F.CRD_PINp_Q_Q p) == e.queue
    && decide (s.f64 (F.CRD_PINp_FIRST_LO_TICK p) (F.CRD_PINp_FIRST_HI_TICK p) ≤ e.last)
    && decide (e.first ≤ s.f64 (F.CRD_PINp_LAST_LO_TICK p) (F.CRD_PINp_LAST_HI_TICK p))

/-- Segment `g` of extent `x` holds a pinned entry. -/
def State.segPinned (s : State) (x g : Nat) : Bool := s.crd.entries.any fun e => e.ext == x && e.seg == g && s.pinned e

/-- Every segment of every ONLINE extent is pinned or open (R448). -/
def State.cordFull (s : State) : Bool :=
  !s.onlineExts.isEmpty && s.onlineExts.all fun x =>
    decide (s.segCount x ≤ (s.ext x).used.length) && (s.ext x).used.all fun g => s.segOpen x g || s.segPinned x g

/-- The units that wait or are on their way. -/
def State.unitsOut (s : State) : List CUnit := (s.crd.writes.map (·.unit)) ++ s.crd.held.map (·.1)

/-- The archive is healthy (R457). -/
def State.archiveOk (s : State) : Bool :=
  s.flag F.CRD_CTRL_EN && !s.flag F.CRD_STAT_RECOVERING && !s.flag F.CRD_STAT_FULL && !s.liveCtrls.isEmpty
    && !(s.unitsOut.any fun u => u.late)

/-- The status registers, and the archive's health with its events (R457). -/
def State.showCord (s : State) : State :=
  let s := (s.wf F.CRD_STAT_LIVE s.liveCtrls.length).wf F.CRD_STAT_ONLINE s.onlineExts.length
  let s := s.wb F.CRD_STAT_FULL s.cordFull
  let s := (s.wf F.CRD_INFLIGHT_RD s.crd.reads.length).wf F.CRD_INFLIGHT_ALL (s.crd.reads.length + s.crd.writes.length)
  let was := s.flag F.CRD_STAT_HEALTHY
  let now := s.archiveOk
  let s := s.wb F.CRD_STAT_HEALTHY now
  if was && !now then s.emit .ARCHIVE_DOWN 0 [] else if !was && now then s.emit .ARCHIVE_UP 0 [] else s

/-- The 32 I/O queue pairs are divided among the LIVE controllers (R436). -/
def State.shareQueues (s : State) : State :=
  let l := s.liveCtrls
  let k := max 1 l.length
  (List.range 4).foldl (fun s n =>
    let want := match l.findIdx? (· == n) with
      | some i => 32 / k + (if i < 32 % k then 1 else 0)
      | none => 0
    s.wf (F.CRD_Cn_STAT_SQ n) (min want (s.ctrl n).granted)) s

/-- Why a controller is refused (R435): 0 when it is used. -/
def refuseReason (c : CtrlInfo) : Nat :=
  if !c.sgl then 1 else if c.mdts ≠ 0 ∧ c.mdts < 512 then 2 else if !c.ready then 3 else if c.queues = 0 then 4 else 0

/-- Cord initialises controller `n` (R435, R436). -/
def State.initCtrl (s : State) (n : Nat) (c : CtrlInfo) : State :=
  if 4 ≤ n then s.emit .CRD_CTRL_REFUSED 0 [5]
  else
    let r := refuseReason c
    if r ≠ 0 then
      ((s.wf (F.CRD_Cn_STAT_STATE n) 3).wf (F.CRD_Cn_STAT_REASON n) r).emit .CRD_CTRL_REFUSED (objLink (19 + n)) [(r : Int)]
    else
      let used := ((List.range 4).map fun k => if k = n then 0 else (s.ctrl k).nsids.length).sum
      let s := (c.namespaces.filter fun x => !x.format).foldl
        (fun s _ => s.emit .CRD_NS_FORMAT (objLink (19 + n)) []) s
      let good := ((c.namespaces.filter (·.format)).map (·.nsid)).take (128 - used)
      let s := s.setCtrl n { granted := c.queues, mqes := c.mqes, sncrc := c.sncrc, nsids := good, fails := 0 }
      ((s.wf (F.CRD_Cn_STAT_STATE n) 2).wf (F.CRD_Cn_STAT_REASON n) 0).wf (F.CRD_Cn_STAT_NS n) good.length |>.shareQueues

def execControllerInit (n : Nat) (c : CtrlInfo) (s : State) : Host.Outcome State Fault Refusal :=
  let s := if s.crd.recovered then s else s.wf F.CRD_STAT_RECOVERING 1
  .next (s.initCtrl n c).showCord

/-- Namespace index of a namespace (CRD_Xx_STAT.NS). -/
def State.nsIndex (s : State) (ctrl nsid : Nat) : Nat :=
  ((List.range ctrl).map fun k => (s.ctrl k).nsids.length).sum + ((s.ctrl ctrl).nsids.findIdx? (· == nsid)).getD 0

/-- The storage fence admits blocks `lba` to `lba + n − 1` (R437, R512). -/
def State.storageOk (s : State) (ctrl nsid lba n : Nat) : Bool :=
  (List.range 64).any fun r => s.flag (F.FNC_SRr_CFG_V r) && s.rd (Reg.FNC_SRr_SN r) == (s.ctrl ctrl).sncrc
    && (s.rd (Reg.FNC_SRr_NSID r)).toNat == nsid
    && decide (s.f64 (F.FNC_SRr_LBA_LO_LBA r) (F.FNC_SRr_LBA_HI_LBA r) ≤ lba)
    && decide (lba + n ≤ s.f64 (F.FNC_SRr_LBA_LO_LBA r) (F.FNC_SRr_LBA_HI_LBA r) + s.f64 (F.FNC_SRr_LEN_LO_LEN r) (F.FNC_SRr_LEN_HI_LEN r))

/-- The reads of a controller's commands: the controller a Read in flight went to. -/
def State.readCtrl (s : State) : ReadFor → Nat
  | .label => match s.crd.adding with | some a => a.ctrl | none => 0
  | .back w => s.f (F.CRD_Xx_STAT_CTRL (w.abn / 2 ^ 28 % 8192))
  | .job j => s.f (F.CRD_Xx_STAT_CTRL (j.loc % 2 ^ 41 / 2 ^ 28))

/-- Controller `n` has room for a command: it holds min(128, MQES + 1) in each of its queue pairs (R436). -/
def State.ctrlSpace (s : State) (n : Nat) : Bool :=
  decide ((s.crd.writes.filter (·.ctrl == n)).length + (s.crd.reads.filter fun r => s.readCtrl r.2 == n).length
    < s.f (F.CRD_Cn_STAT_SQ n) * min 128 ((s.ctrl n).mqes + 1))

/-- The start of a provisioned range of the controller and namespace lies within 16 blocks before, or among, some blocks: its range
directory overlaps them (R438, R439). -/
def State.onDirectory (s : State) (ctrl nsid lba n : Nat) : Bool :=
  (List.range 64).any fun r => s.flag (F.FNC_SRr_CFG_V r) && s.rd (Reg.FNC_SRr_SN r) == (s.ctrl ctrl).sncrc
    && (s.rd (Reg.FNC_SRr_NSID r)).toNat == nsid
    && decide (lba < s.f64 (F.FNC_SRr_LBA_LO_LBA r) (F.FNC_SRr_LBA_HI_LBA r) + 16)
    && decide (s.f64 (F.FNC_SRr_LBA_LO_LBA r) (F.FNC_SRr_LBA_HI_LBA r) < lba + n)

/-! ### Segments (R446) -/

/-- Segment `g` of extent `x` is opened for writing. -/
def State.openSeg (s : State) (x g : Nat) : State :=
  let s := s.setExt x { s.ext x with used := g :: (s.ext x).used.filter (· != g) }
  let s : State := { s with crd.opens := s.crd.opens ++ [{ ext := x, seg := g, next := 0, unit := none }], crd.lastExt := x,
                            crd.order := (s.crd.order.filter (· != (x, g))) ++ [(x, g)] }
  s.showExt x

/-- The lowest free segment of extent `x`. -/
def State.freeSeg (s : State) (x : Nat) : Option Nat :=
  ((List.range (s.segCount x)).map (· + 1)).find? fun g => !(s.ext x).used.contains g

/-- The oldest segment that may be reclaimed (R446). -/
def State.oldestSeg (s : State) : Option (Nat × Nat) :=
  s.crd.order.find? fun p => s.extState p.1 == 2 && !s.segOpen p.1 p.2 && !s.segPinned p.1 p.2
    && !(s.crd.writes.any fun w => w.ext == p.1 && w.seg == p.2)

/-- Segment `g` of extent `x` expires. -/
def State.expire (s : State) (x g : Nat) : State :=
  let s := s.control 4 (abnOf x g 0) 0 0
  { s with crd.entries := s.crd.entries.filter fun e => !(e.ext == x && e.seg == g),
           crd.named := s.crd.named.filter fun n => !(n.2.1 == x && n.2.2 == g) }

/-- The ONLINE extents that follow the last allocation, in turn, that `ok` picks. -/
def State.extOrder (s : State) (ok : Nat → Bool) : List Nat :=
  let l := s.onlineExts.filter ok
  (l.filter fun x => decide (s.crd.lastExt < x)) ++ l.filter fun x => decide (x ≤ s.crd.lastExt)

/-- The next segment in ring order is opened among the extents that `ok` picks; with none free, the oldest is reclaimed (R446). -/
def State.allocate (s : State) (ok : Nat → Bool) (reclaim : Bool) : Option State :=
  match (s.extOrder ok).findSome? fun x => (s.freeSeg x).map fun g => (x, g) with
  | some p => some (s.openSeg p.1 p.2)
  | none =>
    if !reclaim then none
    else match s.oldestSeg with
      | some p => if ok p.1 then some ((s.expire p.1 p.2).openSeg p.1 p.2) else none
      | none => none

/-! ### Units and their Writes (R440 to R442) -/

/-- Data blocks, and all blocks, of a unit. -/
def dataBlocks (l : List UnitItem) : Nat := ((l.map fun i => i.words.length).sum + 1023) / 1024
def unitBlocks (u : CUnit) : Nat :=
  match u.kind with
  | .data => dataBlocks u.items + (if u.items.length ≤ 126 then 1 else 2)
  | _ => 1

/-- An index block (R442). -/
def indexBlock (kind nent serial boot epoch abn : Nat) (entries : List Nat) : List Nat :=
  let head := fieldBytes [(0x58445243, 4), (1, 1), (kind, 1), (nent, 2), (serial, 4), (boot, 4), (epoch, 8), (abn, 8), (0, 28)]
  let body := entries ++ List.replicate (4032 - entries.length) 0
  head ++ leBytes 4 (crc32c (head ++ [0, 0, 0, 0] ++ body)) ++ body

/-- The ENTRY entries of a unit's items (R442), from word offset `off`. -/
def entryBytes (abn : Nat) : Nat → List UnitItem → List (List Nat)
  | _, [] => []
  | off, i :: r =>
    fieldBytes [(abn + off * 2 ^ 41, 8), (4 * i.words.length + i.type * 2 ^ 19, 4), (i.queue, 2), (0, 2), (i.bseq, 4),
      (min 0xFFFFFFFF (i.last - i.first), 4), (i.first, 8)] :: entryBytes abn (off + i.words.length) r

/-- The bytes of a unit at an ABN. -/
def unitBytes (serial boot abn : Nat) (u : CUnit) : List Nat :=
  match u.kind with
  | .data =>
    let data := u.items.flatMap fun i => i.words.flatMap wordBytes
    let es := entryBytes abn 0 u.items
    let blk (l : List (List Nat)) : List Nat := indexBlock 1 l.length serial boot u.epoch abn l.flatten
    data ++ List.replicate (4096 * dataBlocks u.items - data.length) 0 ++ blk (es.take 126) ++ (if es.length ≤ 126 then [] else blk (es.drop 126))
  | .gap => indexBlock 2 u.items.length serial boot u.epoch abn (u.items.flatMap fun i => i.words.flatMap wordBytes)
  | .event => indexBlock 4 u.items.length serial boot u.epoch abn (u.items.flatMap fun i => i.words.flatMap wordBytes)
  | .control => indexBlock 3 u.ctl.length serial boot u.epoch abn
      (u.ctl.flatMap fun c => fieldBytes [(c.op, 1), (0, 7), (c.arg0, 8), (c.arg1, 8), (c.arg2, 8)])

/-- The cells of a unit's items return to the free list (R442). -/
def State.freeUnit (s : State) (u : CUnit) : State := s.giveCells (u.items.flatMap (·.cells))

/-- A Write leaves the root port: to a controller and namespace, at an LBA. -/
def State.sendWrite (s : State) (ctrl nsid lba : Nat) (bytes : List Nat) : State :=
  s.send .nvmeWrite ctrl ([(nsid : Int), (lba : Int)] ++ bytes.map fun (b : Nat) => (b : Int))

/-- A unit whose Write failed at clock `c`: it is written again under a number of its own, so that a late completion names nothing (R452). -/
def CUnit.again (u : CUnit) (id c : Nat) : CUnit := { u with id := id, failed := some (u.failed.getD c) }

/-- A controller becomes FAILED (R451): its extents are LOST, and its commands in flight are failed writes. -/
def State.ctrlFail (s : State) (n : Nat) : State :=
  let lost := s.extList.filter fun x => s.f (F.CRD_Xx_STAT_CTRL x) == n && (s.extState x == 2 || s.extState x == 3)
  let s := (s.wf (F.CRD_Cn_STAT_STATE n) 4).emit .CRD_CTRL_FAILED (objLink (19 + n)) []
  let s := lost.foldl (fun s x => (s.wf (F.CRD_Xx_STAT_STATE x) 5).control 3 x 0 0) s
  let mine := s.crd.writes.filter (·.ctrl == n)
  let s := s.wf F.CRD_ERR_WFAIL (min 65535 (s.f F.CRD_ERR_WFAIL + mine.length))
  let s := mine.foldl (fun s w => s.emit .CRD_WRITE_FAIL (objLink (19 + n)) [(w.abn : Int), -1]) s
  let stuck := s.crd.opens.filter fun o => lost.contains o.ext
  let back := (List.range mine.length).zipWith (fun i w => (w.unit.again (s.crd.nextId + i) s.tick.clock, some (n, w.ext))) mine
  let unwritten := stuck.filterMap fun o => o.unit.map fun u => (u, some (n, o.ext))
  { s with crd.writes := s.crd.writes.filter (·.ctrl != n), crd.opens := s.crd.opens.filter fun o => !lost.contains o.ext,
           crd.held := s.crd.held ++ back ++ unwritten, crd.nextId := s.crd.nextId + mine.length }.shareQueues

/-- A command to controller `n` has failed or timed out: the sixteenth in a row fails the controller (R451). -/
def State.cmdFail (s : State) (n : Nat) : State :=
  let k := (s.ctrl n).fails + 1
  let s := s.setCtrl n { s.ctrl n with fails := k }
  if 16 ≤ k ∧ s.f (F.CRD_Cn_STAT_STATE n) = 2 then s.ctrlFail n else s

/-- A Write fails (R452): the segment receives no further writes, and the unit is written again elsewhere. -/
def State.writeFail (s : State) (w : CWrite) (status : Int) : State :=
  let s := (s.bump F.CRD_ERR_WFAIL 1).emit .CRD_WRITE_FAIL (objLink (19 + w.ctrl)) [(w.abn : Int), status]
  let left := s.crd.opens.filter fun o => o.ext == w.ext && o.seg == w.seg
  let units := left.filterMap fun o => o.unit.map fun u => (u, some (w.ctrl, w.ext))
  let s : State := { s with crd.writes := s.crd.writes.filter fun (x : CWrite) => x.unit.id != w.unit.id,
                            crd.opens := s.crd.opens.filter fun (o : OpenSeg) => !(o.ext == w.ext && o.seg == w.seg),
                            crd.held := s.crd.held ++ (w.unit.again s.crd.nextId s.tick.clock, some (w.ctrl, w.ext)) :: units,
                            crd.nextId := s.crd.nextId + 1 }
  s.cmdFail w.ctrl

/-- A closed unit is written at the next blocks of an open segment (R437, R440): outside the fence it fails at once. -/
def State.issueWrite (s : State) (u : CUnit) (o : OpenSeg) : State :=
  let n := unitBlocks u
  let abn := abnOf o.ext o.seg o.next
  let ctrl := s.f (F.CRD_Xx_STAT_CTRL o.ext)
  let nsid := (s.ext o.ext).nsid
  let lba := s.extLba o.ext + o.seg * 16384 + o.next
  let w : CWrite := { unit := u, ctrl := ctrl, ext := o.ext, seg := o.seg, abn := abn }
  let s := { s with crd.opens := s.crd.opens.map fun (x : OpenSeg) =>
      if x.ext == o.ext && x.seg == o.seg then { x with next := x.next + n } else x }
  if s.storageOk ctrl nsid lba n then
    { s with crd.writes := s.crd.writes ++ [w] }.sendWrite ctrl nsid lba
      (unitBytes (s.rd Reg.HUB_SERIAL).toNat (s.rd Reg.UMB_BOOT).toNat abn u)
  else ((s.fenceHit 5).emit .FENCE_WRITE_EXTENT (objLink (19 + ctrl)) [(nsid : Int), (lba : Int), (n : Int)]).writeFail w (-2)

/-- An open segment among `ok` extents with room for `n` blocks: the one with the fewest commands in flight. -/
def State.roomySeg (s : State) (ok : Nat → Bool) (n : Nat) : Option OpenSeg :=
  let flight (o : OpenSeg) : Nat := (s.crd.writes.filter fun w => w.ext == o.ext && w.seg == o.seg).length
  let l := s.crd.opens.filter fun o => s.extState o.ext == 2 && ok o.ext && decide (o.next + n ≤ 16384)
  l.foldl (fun a o => match a with
    | none => some o
    | some b => if flight o < flight b then some o else some b) none

/-- A closed unit finds its place (R452): on another controller than it failed on, else on another extent, else anywhere. -/
def State.placeUnit (s : State) (u : CUnit) (avoid : Option (Nat × Nat)) : Option State :=
  let n := unitBlocks u
  let space (e : Nat) : Bool := s.ctrlSpace (s.f (F.CRD_Xx_STAT_CTRL e))
  let tests : List (Nat → Bool) := match avoid with
    | some (c, x) => [fun e => s.f (F.CRD_Xx_STAT_CTRL e) != c && space e, fun e => e != x && space e, space]
    | none => [space]
  let try1 (ok : Nat → Bool) : Option State :=
    match s.roomySeg ok n with
    | some o => some (s.issueWrite u o)
    | none => match s.allocate ok false with
      | some s => (s.roomySeg ok n).map fun o => s.issueWrite u o
      | none => none
  match tests.findSome? try1 with
  | some s => some s
  | none => match s.allocate space true with
    | some s => (s.roomySeg space n).map fun o => s.issueWrite u o
    | none => none

/-- Units that wait are written as far as segments and the controllers' queues allow (R436, R453). -/
def State.pumpWrites (s : State) : State :=
  let l := s.crd.held
  l.foldl (fun s h => match s.placeUnit h.1 h.2 with
    | some s => s
    | none => { s with crd.held := s.crd.held ++ [h] }) { s with crd.held := [] }

/-- A new unit. -/
def State.newUnit (s : State) (kind : UnitKind) (items : List UnitItem) (ctl : List CtlEntry) : CUnit × State :=
  ({ id := s.crd.nextId, kind := kind, items := items, ctl := ctl, since := s.tick.num, epoch := s.crd.epoch, turn := s.crd.turn,
     failed := none, late := false },
   { s with crd.nextId := s.crd.nextId + 1 })

/-- A unit is closed and waits for its Write. -/
def State.holdUnit (s : State) (u : CUnit) : State := { s with crd.held := s.crd.held ++ [(u, none)] }

/-- The open unit of a segment closes and is written there (R440). -/
def State.closeUnit (s : State) (o : OpenSeg) : State :=
  match o.unit with
  | none => s
  | some u =>
    let s := { s with crd.opens := s.crd.opens.map fun (x : OpenSeg) =>
        if x.ext == o.ext && x.seg == o.seg then { x with unit := none } else x }
    if s.ctrlSpace (s.f (F.CRD_Xx_STAT_CTRL o.ext)) then s.issueWrite u { o with unit := none } else s.holdUnit u

/-- GAP, EVENT or CONTROL blocks that are full, or all of them, become one-block units (R441, R443). -/
def State.closeBlocks (s : State) (all : Bool) : State :=
  let s := if s.crd.gaps.length ≥ 84 ∨ (all ∧ !s.crd.gaps.isEmpty) then
      let r := s.newUnit .gap (s.crd.gaps.take 84) []
      { r.2 with crd.gaps := s.crd.gaps.drop 84 }.holdUnit r.1 else s
  let s := if s.crd.events.length ≥ 126 ∨ (all ∧ !s.crd.events.isEmpty) then
      let r := s.newUnit .event (s.crd.events.take 126) []
      { r.2 with crd.events := s.crd.events.drop 126 }.holdUnit r.1 else s
  if s.crd.control.length ≥ 126 ∨ (all ∧ !s.crd.control.isEmpty) then
    let r := s.newUnit .control [] (s.crd.control.take 126)
    { r.2 with crd.control := s.crd.control.drop 126 }.holdUnit r.1 else s

/-- Cord goes on with what waits. -/
def State.cordPump (s : State) : State := (s.closeBlocks false).pumpWrites.showCord

/-! ### Taking items (R440 to R442) -/

/-- An item as an entry names it (R441, R442). -/
def unitItem (q : Nat) (cells : List Nat) (i : Item) : UnitItem :=
  let bs := (i.words.take 16).flatMap wordBytes
  let at' (o n : Nat) : Nat := leNat ((bs.drop o).take n)
  if bs.length = 64 ∧ at' 0 4 = 0x5142524B ∧ crc16 (bs.take 62) = at' 62 2 then
    { queue := at' 12 2, type := 1, bseq := at' 20 4, first := at' 24 8, last := at' 32 8, words := i.words, cells := cells }
  else { queue := q, type := 2, bseq := 0, first := i.linked, last := i.linked, words := i.words, cells := cells }

/-- An item fits into an open unit (R440). -/
def unitFits (u : CUnit) (n : Nat) : Bool :=
  decide (4 * ((u.items.map fun i => i.words.length).sum + n) ≤ 491520) && decide (u.items.length < 252)

/-- Blocks of a segment's open unit once an item of `n` words joins it. -/
def blocksWith (o : OpenSeg) (n : Nat) : Nat :=
  match o.unit with
  | some u => ((u.items.map fun i => i.words.length).sum + n + 1023) / 1024 + (if u.items.length < 126 then 1 else 2)
  | none => (n + 1023) / 1024 + 1

/-- The segment an item goes to, opened if need be, with its open unit closed when the item does not fit (R440); none without room. -/
def State.segFor (s : State) (n : Nat) : Nat → Option (OpenSeg × State)
  | 0 => none
  | k + 1 =>
    let spare := s.onlineExts.any fun x => !(s.crd.opens.any fun o => o.ext == x) && (s.freeSeg x).isSome
    match s.roomySeg (fun _ => true) 0 with
    | none => match s.allocate (fun _ => true) true with
      | some s => s.segFor n k
      | none => none
    | some o =>
      let busy := s.crd.writes.any fun w => w.ext == o.ext && w.seg == o.seg
      if busy && spare then
        match s.allocate (fun x => !(s.crd.opens.any fun o => o.ext == x)) false with
        | some s => s.segFor n k
        | none => some (o, s)
      else if (match o.unit with | some u => !unitFits u n | none => false) then (s.closeUnit o).segFor n k
      else if 16384 < o.next + blocksWith o n then
        let s := s.closeUnit o
        { s with crd.opens := s.crd.opens.filter fun x => !(x.ext == o.ext && x.seg == o.seg) }.segFor n k
      else some (o, s)

/-- The next ready item of Cord's queues, in the order in which they became ready (R440). -/
def State.cordNext (s : State) : Option (Nat × Item) :=
  let l := s.qmg.queues.filterMap fun q => if s.consumer q.1 == 5 then (s.readyItem q.1).map fun i => (q.1, i) else none
  l.foldl (fun a p => match a with
    | none => some p
    | some b => if p.2.at' < b.2.at' then some p else some b) none

/-- Cord takes the next ready item (R440 to R442, R448, R453). -/
def State.cordTake (s : State) : State :=
  let s := s.cordPump
  if !s.flag F.CRD_CTRL_EN || !s.crd.recovered || s.cordFull || s.crd.held.any (fun h => h.1.failed.isSome) then s
  else match s.cordNext with
    | none => s
    | some (q, i) =>
      if s.flag F.CRD_GAPQ_EN && s.f F.CRD_GAPQ_Q == q then
        let r := s.consumeItem q i
        { r.2 with crd.gaps := r.2.crd.gaps ++ [{ unitItem q r.1 i with type := 0 }] }.cordPump
      else if s.flag F.CRD_EVQ_EN && s.f F.CRD_EVQ_Q == q then
        let r := s.consumeItem q i
        { r.2 with crd.events := r.2.crd.events ++ [{ unitItem q r.1 i with type := 0 }] }.cordPump
      else if 122880 < i.words.length then
        (s.freeItem q i.id).emit .CRD_ITEM_LARGE (objQueue q) [((4 * i.words.length : Nat) : Int)]
      else match s.segFor i.words.length 6 with
        | none => s.cordPump
        | some (o, s) =>
          let r := s.consumeItem q i
          let x := unitItem q r.1 i
          let s := r.2
          let u := match o.unit with
            | some u => ({ u with items := u.items ++ [x] }, s)
            | none => s.newUnit .data [x] []
          { u.2 with crd.opens := u.2.crd.opens.map fun (y : OpenSeg) =>
              if y.ext == o.ext && y.seg == o.seg then { y with unit := some u.1 } else y }.cordPump

def execCordTakeItem (s : State) : Host.Outcome State Fault Refusal := .next s.cordTake

/-- An open unit closes when UNIT_AGE ticks have passed since its first item (R440); UNIT_AGE 0 acts as 1. -/
def State.unitAged (s : State) (u : CUnit) : Bool := decide (u.since + max 1 (s.f F.CRD_UNIT_CFG_UNIT_AGE) ≤ s.tick.num)

def execUnitAgeClose (id : Nat) (s : State) : Host.Outcome State Fault Refusal :=
  .next (match s.crd.opens.find? fun o => match o.unit with | some u => u.id == id && s.unitAged u | none => false with
    | some o => (s.closeUnit o).cordPump
    | none => s)

/-! ### Epochs and checkpoints (R443, R444) -/

/-- The next `n` segments in allocation order (R443). -/
def State.nextSegs (s : State) : Nat → List (Nat × Nat)
  | 0 => []
  | n + 1 =>
    match (s.extOrder fun _ => true).findSome? fun x => (s.freeSeg x).map fun g => (x, g) with
    | some p =>
      p :: ({ s.setExt p.1 { s.ext p.1 with used := p.2 :: (s.ext p.1).used } with crd.lastExt := p.1 }).nextSegs n
    | none => match s.oldestSeg with
      | some p => p :: ({ s with crd.order := s.crd.order.filter (· != p) }).nextSegs n
      | none => []

/-- Stoker's Write of one block of an extent, a label or a checkpoint, leaves; outside the fence it fails (R437). -/
def State.bookWrite (s : State) (ctrl nsid lba abn : Nat) (vals : List Int) : State :=
  if s.storageOk ctrl nsid lba 1 then s.send .nvmeWrite ctrl ([(nsid : Int), (lba : Int)] ++ vals)
  else (((s.fenceHit 5).emit .FENCE_WRITE_EXTENT (objLink (19 + ctrl)) [(nsid : Int), (lba : Int), 1]).bump F.CRD_ERR_WFAIL 1).emit
    .CRD_WRITE_FAIL (objLink (19 + ctrl)) [(abn : Int), -2]

/-- A checkpoint goes into the rings of the two lowest-numbered ONLINE extents (R443). -/
def State.checkpoint (s : State) (iepoch : Nat) : State :=
  let body : List Int :=
    [(iepoch : Int), (s.crd.lastIndex : Int)] ++
    ((s.extList.filter fun x => s.extState x != 4).flatMap fun (x : Nat) => [(x : Int), (s.extState x : Int), (s.extLba x : Int), (s.extLen x : Int)]) ++
    ((s.nextSegs 16).map fun (p : Nat × Nat) => (abnOf p.1 p.2 0 : Int)) ++
    ((List.range 256).filter fun p => s.flag (F.CRD_PINp_Q_V p)).flatMap fun (p : Nat) =>
      [(s.f (F.CRD_PINp_Q_Q p) : Int), (s.f64 (F.CRD_PINp_FIRST_LO_TICK p) (F.CRD_PINp_FIRST_HI_TICK p) : Int),
       (s.f64 (F.CRD_PINp_LAST_LO_TICK p) (F.CRD_PINp_LAST_HI_TICK p) : Int)]
  let s := (s.onlineExts.take 2).foldl (fun s x =>
    let e := s.ext x
    let blk := 1 + e.ckpt % 16383
    (s.setExt x { e with ckpt := e.ckpt + 1 }).bookWrite (s.f (F.CRD_Xx_STAT_CTRL x)) e.nsid (s.extLba x + blk) (abnOf x 0 blk) body) s
  { s with crd.ckpts := s.crd.ckpts + 1 }

/-- Where an extent lies: controller, namespace and first block. -/
def State.extPlace (s : State) (x : Nat) : Nat × Nat × Nat := (s.f (F.CRD_Xx_STAT_CTRL x), (s.ext x).nsid, s.extLba x)

/-- Storage range `r` holds a block. -/
def State.rangeHas (s : State) (r : Nat) (p : Nat × Nat × Nat) : Bool :=
  let lba := s.f64 (F.FNC_SRr_LBA_LO_LBA r) (F.FNC_SRr_LBA_HI_LBA r)
  s.flag (F.FNC_SRr_CFG_V r) && s.rd (Reg.FNC_SRr_SN r) == (s.ctrl p.1).sncrc && (s.rd (Reg.FNC_SRr_NSID r)).toNat == p.2.1
    && decide (lba ≤ p.2.2) && decide (p.2.2 < lba + s.f64 (F.FNC_SRr_LEN_LO_LEN r) (F.FNC_SRr_LEN_HI_LEN r))

/-- Stoker rewrites the directory of each range in which an extent has changed (R439), at the start of the range: the hub's serial and,
for each extent in the range, its number, first block, length and state. -/
def State.directory (s : State) (changed : List (Nat × Nat × Nat)) : State :=
  (List.range 64).foldl (fun s r => match changed.find? (s.rangeHas r) with
    | some p => s.send .nvmeWrite p.1 ([(p.2.1 : Int), (s.f64 (F.FNC_SRr_LBA_LO_LBA r) (F.FNC_SRr_LBA_HI_LBA r) : Int), (s.serial : Int)] ++
        (s.extList.filter fun x => s.rangeHas r (s.extPlace x)).flatMap fun (x : Nat) =>
          [(x : Int), (s.extLba x : Int), (s.extLen x : Int), (s.extState x : Int)])
    | none => s) s

/-- Nothing is on its way to extent `x`. -/
def State.extQuiet (s : State) (x : Nat) : Bool :=
  !(s.crd.writes.any fun w => w.ext == x) && !(s.crd.opens.any fun o => o.ext == x) && !(s.crd.reads.any fun r => match r.2 with
    | .label => false
    | .back w => w.abn / 2 ^ 28 % 8192 == x
    | .job j => j.loc % 2 ^ 41 / 2 ^ 28 == x)

/-- Steps 4 and 5 of an epoch's end (R443, R449 to R451). -/
def State.epochFinish (s : State) (e : Nat) : State :=
  let old := s.extList.map fun x => (x, s.extState x, s.extPlace x)
  let s := (old.map (·.1)).foldl (fun s x =>
    let st := s.extState x
    if st = 1 then ((s.wf (F.CRD_Xx_STAT_STATE x) 2).control 1 x 0 0).showExt x
    else if st = 3 ∧ s.extQuiet x then
      ((s.wf (F.CRD_Xx_STAT_STATE x) 4).setExt x { s.ext x with retiredAt := s.crd.ckpts }).control 2 x 0 0
    else if st = 5 ∧ (s.ext x).online then
      ((s.wf (F.CRD_Xx_STAT_STATE x) 2).setExt x { s.ext x with online := false }).showExt x
    else if st = 4 ∧ (s.ext x).retiredAt + 16383 ≤ s.crd.ckpts ∧ !(s.crd.named.any fun n => n.1 == x)
        ∧ !(s.crd.control.any fun c => c.op ≤ 3 && c.arg0 == x) then
      { (s.wr (Reg.CRD_Xx_STAT x) 0#32) with crd.exts := tabSet (fun _ => none) s.crd.exts x none }
    else s) s
  let s := s.directory ((old.filter fun e => s.extState e.1 != e.2.1).map (·.2.2))
  let s := { s with crd.ending := none }
  (s.checkpoint e).cordPump

/-- Reads the memory of the archive: a Read leaves. -/
def State.sendRead (s : State) (what : ReadFor) (ctrl nsid lba n : Nat) : State :=
  let id := s.crd.nextId
  { s with crd.nextId := id + 1, crd.reads := s.crd.reads ++ [(id, what)] }.send .nvmeRead ctrl [(id : Int), (nsid : Int), (lba : Int), (n : Int)]

/-- RD_MAX, at least 1. -/
def State.rdMax (s : State) : Nat := max 1 (s.f F.CRD_UNIT_CFG_RD_MAX)

/-- Controller, namespace and LBA of an ABN. -/
def State.abnPlace (s : State) (abn : Nat) : Nat × Nat × Nat :=
  let x := abn / 2 ^ 28 % 8192
  (s.f (F.CRD_Xx_STAT_CTRL x), (s.ext x).nsid, s.extLba x + abn % 2 ^ 28)

/-- A unit of the epoch is being read back. -/
def State.beingRead (s : State) (id : Nat) : Bool :=
  s.crd.reads.any fun r => match r.2 with | .back w => w.id == id | _ => false

/-- An epoch's end goes on: once every Write of the epoch has completed its ENTRY blocks are read back, and once all are checked the
epoch ends (R443). -/
def State.epochGo (s : State) : State :=
  match s.crd.ending with
  | none => s
  | some e =>
    if s.unitsOut.any fun u => decide (u.turn < s.crd.turn) then s
    else
      let l := s.crd.written.filter fun w => decide (w.turn < s.crd.turn)
      if l.isEmpty then s.epochFinish e
      else (l.filter fun w => !s.beingRead w.id).foldl (fun s w =>
        if s.rdMax ≤ s.crd.reads.length ∨ !s.ctrlSpace (s.readCtrl (.back w)) then s
        else
          let p := s.abnPlace (w.abn + dataBlocks w.entries)
          s.sendRead (.back w) p.1 p.2.1 p.2.2 (if w.entries.length ≤ 126 then 1 else 2)) s

/-- The boundary at which the index epoch ends has come. -/
def State.epochDue (s : State) : Bool := decide ((s.crd.epoch + 1) * s.crd.epochLen ≤ s.tick.num)

/-- The next epoch begins, with the EPOCH now written; 0 acts as 1. -/
def State.epochTurn (s : State) : State :=
  let n := max 1 (s.f F.CRD_EPOCH_CFG_EPOCH)
  { s with crd.epoch := s.tick.num / n, crd.epochLen := n }

/-- The end of an index epoch (R443); while Stoker is not running it waits (R434). -/
def State.epochEnd (s : State) : State :=
  if !s.epochDue || s.crd.ending.isSome then s
  else if !s.flag F.CRD_CTRL_EN || !s.crd.recovered then s.epochTurn
  else if !s.stokerUp then { s with hub.stokerDeferred := true }
  else
    let s := s.crd.opens.foldl (fun s o => s.closeUnit o) s
    let s := forNat (s.crd.control.length / 126 + 1) (fun s _ => s.closeBlocks true) s
    ({ s with crd.ending := some s.crd.epoch, crd.turn := s.crd.turn + 1 } : State).epochTurn.cordPump.epochGo.showCord

def execEpochEnd (s : State) : Host.Outcome State Fault Refusal := .next s.epochEnd

/-! ### Writes complete (R442, R452) -/

/-- A Write is durable: its items' cells are freed and its entries count. -/
def State.writeOk (s : State) (w : CWrite) : State :=
  let s := { s with crd.writes := s.crd.writes.filter fun (x : CWrite) => x.unit.id != w.unit.id }
  let s := s.setCtrl w.ctrl { s.ctrl w.ctrl with fails := 0 }
  let s := s.freeUnit w.unit
  match w.unit.kind with
  | .data =>
    let es := w.unit.items.map fun i => IdxEntry.mk w.ext w.seg w.abn i.queue i.first i.last
    { s with crd.entries := s.crd.entries ++ es,
             crd.written := s.crd.written ++ [{ id := w.unit.id, turn := w.unit.turn, abn := w.abn, entries := w.unit.items }],
             crd.lastIndex := w.abn + dataBlocks w.unit.items }
  | .control =>
    let names := (w.unit.ctl.filter fun c => decide (c.op ≤ 3)).map fun c => (c.arg0, w.ext, w.seg)
    { s with crd.named := s.crd.named ++ names, crd.lastIndex := w.abn }
  | _ => { s with crd.lastIndex := w.abn }

/-- The Write of unit `id` completes with a status; one that has been aborted is ignored (R442, R452). -/
def State.writeComplete (s : State) (id : Nat) (status : Int) : State :=
  match s.crd.writes.find? fun w => w.unit.id == id with
  | none => s
  | some w => (if status = 0 then s.writeOk w else s.writeFail w status).cordPump.epochGo.showCord

def execWriteComplete (id status : Nat) (s : State) : Host.Outcome State Fault Refusal := .next (s.writeComplete id status)

/-- No completion within CMD_TO: Abort is sent, and the Write has failed (R452). -/
def execWriteTimeout (id : Nat) (s : State) : Host.Outcome State Fault Refusal :=
  .next (match s.crd.writes.find? fun w => w.unit.id == id with
    | none => s
    | some w => (s.send .nvmeAdmin w.ctrl [(id : Int)]).writeComplete id (-1))

/-- 100 ms on the hub clock. -/
def ms100 : Nat := 100000000 * 65536

/-- The units that have waited 100 ms since their first failed Write (R457). -/
def State.archiveLate (s : State) : State :=
  let mark (u : CUnit) : CUnit := { u with late := u.late || match u.failed with | some c => decide (c + ms100 ≤ s.tick.clock) | none => false }
  { s with crd.writes := s.crd.writes.map fun (w : CWrite) => { w with unit := mark w.unit },
           crd.held := s.crd.held.map fun (h : CUnit × Option (Nat × Nat)) => (mark h.1, h.2) }.showCord

def execArchiveDown (s : State) : Host.Outcome State Fault Refusal := .next s.archiveLate

/-! ### Capacity (R449 to R451) -/

/-- The result of an extent command. -/
def State.extRes (s : State) (code x : Nat) : State := (s.wf F.CRD_EXT_RES_CODE code).wf F.CRD_EXT_RES_X x

/-- A command waits for its epoch end. -/
def State.extBusy (s : State) : Bool := s.crd.adding.isSome || s.extList.any fun x => s.extState x == 1 || s.extState x == 3

/-- Two runs of blocks overlap. -/
def overlap (a n b m : Nat) : Bool := decide (a < b + m) && decide (b < a + n)

/-- The shape of an extent breaks R438. -/
def State.badShape (s : State) (ctrl nsid lba len : Nat) : Bool :=
  lba % 16384 != 0 || len % 16384 != 0 || decide (len < 32768) || decide (2 ^ 28 < len) || s.onDirectory ctrl nsid lba len
    || s.extList.any fun x => s.extState x != 4 && s.extState x != 5 && s.f (F.CRD_Xx_STAT_CTRL x) == ctrl && (s.ext x).nsid == nsid
      && overlap lba len (s.extLba x) (s.extLen x)

/-- The lowest extent number that is FREE. -/
def State.freeExt (s : State) : Option Nat := (List.range 8192).find? fun x => s.extState x == 0

/-- What the extent registers name. -/
def State.addReq (s : State) (format : Bool) : AddReq :=
  { ctrl := s.f F.CRD_EXT_NS_CTRL, nsid := s.f F.CRD_EXT_NS_NSID, lba := s.f64 F.CRD_EXT_LBA_LO_LBA F.CRD_EXT_LBA_HI_LBA,
    len := s.f F.CRD_EXT_LEN_LEN, format := format }

/-- ADD (R449): the checks, and a Read of block 0. -/
def State.extAdd (s : State) (a : AddReq) : State :=
  if s.extBusy then s.extRes 0x07 0
  else if !(s.liveCtrls.contains a.ctrl && (s.ctrl a.ctrl).nsids.contains a.nsid) then s.extRes 0x03 0
  else if s.badShape a.ctrl a.nsid a.lba a.len then s.extRes 0x02 0
  else if !s.storageOk a.ctrl a.nsid a.lba a.len then s.extRes 0x01 0
  else { s with crd.adding := some a }.sendRead .label a.ctrl a.nsid a.lba 1

/-- Extent `x` takes its place and is PENDING. -/
def State.extPend (s : State) (x : Nat) (a : AddReq) (keep : Bool) : State :=
  let e := if keep then s.ext x else ext0
  let s := s.setExt x { e with nsid := a.nsid, online := false }
  let s := ((s.wf (F.CRD_Xx_STAT_STATE x) 1).wf (F.CRD_Xx_STAT_CTRL x) a.ctrl).wf (F.CRD_Xx_STAT_NS x) (s.nsIndex a.ctrl a.nsid)
  let s := (s.wf64 (F.CRD_Xx_LBA_LO_LBA x) (F.CRD_Xx_LBA_HI_LBA x) a.lba).wf (F.CRD_Xx_LEN_LEN x) a.len
  (s.showExt x).extRes 0x00 x

/-- What block 0 holds decides an ADD (R449). -/
def State.addLabel (s : State) (r : ReadIn) : State :=
  match s.crd.adding with
  | none => s
  | some a =>
    let s := { s with crd.adding := none }
    let fresh (s : State) : State :=
      match s.freeExt with
      | none => s.extRes 0x04 0
      | some x => (s.bookWrite a.ctrl a.nsid a.lba (abnOf x 0 0) [(s.serial : Int), (x : Int)]).extPend x a false
    match r with
    | .own x => if s.extState x = 4 ∨ s.extState x = 5 then s.extPend x a true else fresh s
    | .foreign => if a.format then fresh s else s.extRes 0x06 0
    | .fail => s.extRes 0x03 0
    | _ => fresh s

/-- REMOVE (R450). -/
def State.extRemove (s : State) (x : Nat) : State :=
  if s.extBusy && s.extState x != 1 then s.extRes 0x07 x
  else if s.extState x ≠ 1 ∧ s.extState x ≠ 2 then s.extRes 0x05 x
  else
    let s := (s.crd.opens.filter fun o => o.ext == x).foldl (fun s o => s.closeUnit o) s
    let s := { s with crd.opens := s.crd.opens.filter fun o => o.ext != x }
    ((s.wf (F.CRD_Xx_STAT_STATE x) 3).extRes 0x00 x).cordPump

/-- An extent command is carried out: what an ADD names, or the extent of a REMOVE. -/
def State.extDo (s : State) (c : Option AddReq × Nat) : State :=
  match c.1 with
  | some a => (s.extAdd a).showCord
  | none => s.extRemove c.2

/-- An extent command waits while Stoker does not run (R434). -/
def State.extTake (s : State) (c : Option AddReq × Nat) : State :=
  if s.stokerUp then s.extDo c else { s with crd.waiting := s.crd.waiting ++ [c] }

/-- The extent commands that waited are carried out in order once Stoker runs (R434). -/
def State.extResume (s : State) : State :=
  if s.stokerUp then s.crd.waiting.foldl State.extDo { s with crd.waiting := [] } else s

def execAdd (_ : Master) (format : Bool) (s : State) : Host.Outcome State Fault Refusal := .next (s.extTake (some (s.addReq format), 0))

def execRemove (_ : Master) (x : Fin 8192) (s : State) : Host.Outcome State Fault Refusal := .next (s.extTake (none, x))

/-- A write of CRD_EXT_CMD. -/
def State.extCmd (s : State) (w : Word) : State :=
  if w.getLsbD 31 then s.extTake (some (s.addReq (w.getLsbD 29)), 0)
  else if w.getLsbD 30 then s.extTake (none, w.toNat % 8192) else s

/-- A controller reports CSTS.CFS or disappears (R451). -/
def execControllerFailed (n : Fin 4) (s : State) : Host.Outcome State Fault Refusal :=
  .next (if s.f (F.CRD_Cn_STAT_STATE n) = 2 then (s.ctrlFail n).cordPump else s)

/-- Stoker resets a FAILED controller (R451): the extents whose labels read back intact return at the next epoch end. -/
def State.ctrlRetry (s : State) (n : Nat) (c : CtrlInfo) : State :=
  if s.f (F.CRD_Cn_STAT_STATE n) ≠ 4 ∨ !s.stokerUp then s
  else if refuseReason c ≠ 0 then s
  else
    let s := s.initCtrl n c
    let back := s.extList.filter fun x => s.extState x == 5 && s.f (F.CRD_Xx_STAT_CTRL x) == n && c.intact.contains x
    (back.foldl (fun s x => s.setExt x { s.ext x with online := true }) s).cordPump

def execControllerRetry (n : Fin 4) (c : CtrlInfo) (s : State) : Host.Outcome State Fault Refusal := .next (s.ctrlRetry n c)

/-- RELEASE (R447): the pin is removed and UNPIN written. -/
def State.releasePin (s : State) (p : Nat) : State :=
  if !s.flag (F.CRD_PINp_Q_V p) then s
  else
    let s := s.control 7 (s.f (F.CRD_PINp_Q_Q p)) (s.f64 (F.CRD_PINp_FIRST_LO_TICK p) (F.CRD_PINp_FIRST_HI_TICK p))
      (s.f64 (F.CRD_PINp_LAST_LO_TICK p) (F.CRD_PINp_LAST_HI_TICK p))
    (s.wf (F.CRD_PINp_Q_V p) 0).showPins.cordPump

def execRelease (_ : Master) (p : Fin 256) (s : State) : Host.Outcome State Fault Refusal := .next (s.releasePin p)

/-! ### Recovery (R445) -/

/-- One extent of the range directories. -/
def State.recoverExt (s : State) (e : DirExt) : State :=
  let live := s.liveCtrls.contains e.ctrl
  let st := if e.state = 4 then 4 else if !live then 5 else if e.state = 3 then 2 else e.state
  let s := s.setExt e.ext { ext0 with nsid := e.nsid }
  let s := ((s.wf (F.CRD_Xx_STAT_STATE e.ext) st).wf (F.CRD_Xx_STAT_CTRL e.ext) e.ctrl).wf (F.CRD_Xx_STAT_NS e.ext) (s.nsIndex e.ctrl e.nsid)
  (s.wf64 (F.CRD_Xx_LBA_LO_LBA e.ext) (F.CRD_Xx_LBA_HI_LBA e.ext) e.lba).wf (F.CRD_Xx_LEN_LEN e.ext) e.len

/-- Stoker recovers the archive's books (R445). -/
def State.recover (s : State) (r : RecIn) : State :=
  if s.crd.recovered || !s.stokerUp then s
  else
    let s := r.exts.foldl State.recoverExt s
    let s := r.segs.foldl (fun s g => (s.setExt g.1 { s.ext g.1 with used := g.2.1 :: (s.ext g.1).used }).showExt g.1) s
    let s := { s with crd.order := r.segs.map fun (g : Nat × Nat × Nat) => (g.1, g.2.1), crd.entries := r.entries,
                      crd.lastExt := match r.segs.getLast? with | some g => g.1 | none => 0 }
    let s := ((List.range 256).zip r.pins).foldl (fun s p => s.setPin p.1 p.2.queue p.2.first p.2.last) s
    let n := max 1 (s.f F.CRD_EPOCH_CFG_EPOCH)
    ({ s with crd.recovered := true, crd.epochLen := n, crd.epoch := s.tick.num / n }.wf F.CRD_STAT_RECOVERING 0).cordPump

def execCordRecovery (r : RecIn) (s : State) : Host.Outcome State Fault Refusal := .next (s.recover r)

/-! ### Retrieval (R459) -/

/-- Jobs that wait or are being carried out. -/
def State.jobCount (s : State) : Nat :=
  s.crd.jobs.length + s.crd.ready.length + (s.crd.reads.filter fun r => match r.2 with | .job _ => true | _ => false).length

/-- The outcome of GO (R459): 0 JOB_QUEUED, 1 JOB_FULL, 2 JOB_BAD, 3 JOB_OFFLINE, 4 JOB_EXPIRED, whose codes the spec leaves open. -/
def State.jobCheck (s : State) (kind loc len q : Nat) : Nat :=
  let abn := loc % 2 ^ 41
  let x := abn / 2 ^ 28
  let b := abn % 2 ^ 28
  let st := s.extState x
  if 64 ≤ s.jobCount then 1
  else if st = 0 ∨ s.extLen x ≤ b ∨ !s.flag (F.QMG_Qq_CFG_EN q) ∨ kind = 3 ∨ (kind = 0 ∧ (len = 0 ∨ 128 < len)) then 2
  else if st = 4 ∨ st = 5 then 3
  else if kind ≠ 0 ∧ !(s.crd.entries.any fun e => e.ext == x && e.abn == abn) then 4
  else 0

/-- Jobs are read in order, within RD_MAX (R459). -/
def State.pumpJobs (s : State) : State :=
  s.crd.jobs.foldl (fun s j =>
    let first := match s.crd.jobs with | k :: _ => k.num == j.num | [] => false
    if !first || decide (s.rdMax ≤ s.crd.reads.length) || !s.ctrlSpace (s.readCtrl (.job j)) then s
    else
      let p := s.abnPlace (j.loc % 2 ^ 41)
      let n := if j.kind = 0 then j.len else (4 * (j.loc / 2 ^ 41 % 2 ^ 19) + j.len + 4095) / 4096
      { s with crd.jobs := s.crd.jobs.filter fun k => k.num != j.num }.sendRead (.job j) p.1 p.2.1 p.2.2 n) s

/-- GO by master `m` (R459): the result in its own copy. -/
def State.jobGo (s : State) (m kind : Nat) (strict : Bool) (q : Nat) : State :=
  let loc := s.f64 (privF m F.CRD_JOB_LOC_LO_LOC) (privF m F.CRD_JOB_LOC_HI_LOC)
  let len := s.f (privF m F.CRD_JOB_LEN_LEN)
  let r := s.jobCheck kind loc len q
  let s := s.wf (privF m F.CRD_JOB_RES_CODE) (Config.jobCode r % 256)
  if r ≠ 0 then s
  else
    let n := s.crd.jobNum
    let j : Job := { num := n, kind := kind, strict := strict, queue := q, loc := loc, len := len, tries := 0 }
    let s := s.wf (privF m F.CRD_JOB_RES_JOB) n
    { s with crd.jobNum := (n + 1) % 16777216, crd.jobs := s.crd.jobs ++ [j] }.pumpJobs.showCord

def execJobSubmit (m : Master) (kind : Fin 4) (strict : Bool) (q : Fin 4096) (s : State) : Host.Outcome State Fault Refusal :=
  .next (s.jobGo (masterCode m) kind strict q)

/-- The result record of a BLOCKS or ITEM job, or of one that failed. -/
def jobRecord (j : Job) (code n : Nat) : List Word := bytesWords (fieldBytes [(0x21, 1), (code, 1), (n, 2), (j.num, 4), (j.loc, 8)])

/-- Words cut into blocks. -/
def blocksOf : Nat → List Word → List (List Word)
  | 0, _ => []
  | n + 1, l => l.take 1024 :: blocksOf n (l.drop 1024)

/-- Jobs that were read go on: packets to their queue, as soon as it takes them. -/
def State.pumpReady (s : State) : State :=
  s.crd.ready.foldl (fun s r => match s.putAll r.1.queue r.2.1 with
    | some s => s
    | none => { s with crd.ready := s.crd.ready ++ [r] }) { s with crd.ready := [] }

/-- A job's Read has brought its words (R459). -/
def State.jobRead (s : State) (j : Job) (l : List Word) : State :=
  if j.kind = 2 then
    let s : State := { s with prs.jobs := s.prs.jobs ++ [{ words := l, dest := j.queue, strict := j.strict, tag := j.num }] }
    s.pressPump
  else
    let items := if j.kind = 0 then blocksOf j.len l else [l]
    { s with crd.ready := s.crd.ready ++ [(j, items ++ [jobRecord j 0 items.length], true)] }.pumpReady

/-- A job's Read fails: it is tried three times (R459). -/
def State.jobFail (s : State) (j : Job) : State :=
  if j.tries < 2 then { s with crd.jobs := { j with tries := j.tries + 1 } :: s.crd.jobs }
  else
    let s := s.bump F.CRD_ERR_RFAIL 1
    { s with crd.ready := s.crd.ready ++ [(j, [jobRecord j 1 0], false)] }.pumpReady

/-- A unit's read-back fails (R444): UNIT_VOID, and a gap record for each entry. -/
def State.unitVoid (s : State) (w : Written) : State :=
  let s := s.control 5 w.abn 0 0
  let s := w.entries.foldl (fun s i => s.gap
    { ch := 0xFFFF, cause := .archiveWrite, queueWide := true, conv := false, merged := false, inexact := false, queue := i.queue,
      firstTick := i.first, lastTick := i.last, firstSec := 0, firstIdx := 0, lastSec := 0, lastIdx := 0, seq := 0, count := 0 }) s
  { s with crd.entries := s.crd.entries.filter fun e => e.abn != w.abn }

/-- Read `id` completes (R443, R444, R449, R459). -/
def State.readComplete (s : State) (id : Nat) (r : ReadIn) : State :=
  match s.crd.reads.find? fun x => x.1 == id with
  | none => s
  | some x =>
    let n := s.readCtrl x.2
    let s := { s with crd.reads := s.crd.reads.filter fun y => y.1 != id }
    let s := if r = .fail then s.cmdFail n else s.setCtrl n { s.ctrl n with fails := 0 }
    let s := match x.2 with
      | .label => s.addLabel r
      | .back w =>
        let s := if r = ReadIn.index true then s else s.unitVoid w
        { s with crd.written := s.crd.written.filter fun y => y.id != w.id }.epochGo
      | .job j => match r with
        | .words l => s.jobRead j l
        | _ => s.jobFail j
    s.pumpJobs.cordPump

def execReadComplete (id : Nat) (r : ReadIn) (s : State) : Host.Outcome State Fault Refusal := .next (s.readComplete id r)

/-- Inflater `i` ends a retrieval (R428, R430). -/
def execRetrievalDone (i : Fin 2) (s : State) : Host.Outcome State Fault Refusal := .next (s.retrievalDone i).2

end Sys2Proof.Machine
end

