-- ==== Sys2Proof/Machine/Partner.lean ====
section
/-!
DEFINITION. The partner manager (R276 to R304): partners and their routes, remote slots, commands, joins and
leaves, sequence numbers and gaps, stewardship and the Slate link.
-/
namespace Sys2Proof.Machine

open Sys2Proof

/-! ### Access -/

def preset : Taps := { pre := 0, main := 64, post := 0 }

/-- A lane after reset. -/
def lane0 : LaneSt :=
  { rate := 3, spread := 0, drop := 0, streak := 0, seen := 0, fromEq := false, holdEnd := 0, marks := 0, misses := 0,
    frameLock := false, everLock := false, taps := preset, reqInit := false, req := [0, 0, 0], status := [0, 0, 0], ready := false,
    farReady := 0, trained := false, cand := 0, valid := 0, window := [], lostAt := 0, capsGot := false, capsAck := false,
    capsSent := 0, lpEntry := none, lpWake := false, waking := false, hopDone := false, searches := 0 }

def State.lane (s : State) (l : Nat) : LaneSt := tabGet (fun _ => lane0) s.flk l
def State.setLane (s : State) (l : Nat) (x : LaneSt) : State := { s with flk := tabSet (fun _ => lane0) s.flk l x }

/-- FLK_STAT.STATE: 0 DISABLED, 1 DETECT, 2 TRAIN, 3 BITLOCK, 4 BLOCKLOCK, 5 CAPS, 6 ACTIVE, 7 BANKED, 8 SMOULDER, 9 RELIGHT. -/
def State.laneState (s : State) (l : Nat) : Nat := s.f (F.FLK_STAT_STATE l)

/-- The lane is ACTIVE without RELOCK (R282). -/
def State.laneLive (s : State) (l : Nat) : Bool := s.laneState l == 6 && !s.flag (F.FLK_STAT_RELOCK l)

/-- A route is live (R282): frames of its node arrive, and its lane is ACTIVE without RELOCK. -/
def State.routeLive (s : State) (r : Route) : Bool := r.live && s.laneLive r.lane

/-- The lanes that are ACTIVE. -/
def State.activeLanes (s : State) : List Nat := (List.range 16).filter fun l => s.laneState l == 6

def State.partner (s : State) (p : Nat) : Option Partner := tabGet (fun _ => none) s.ptn.partners p

/-- Replace partner `p`; its registers show it (R283). -/
def State.setPartner (s : State) (p : Nat) (x : Partner) : State :=
  let s := { s with ptn.partners := tabSet (fun _ => none) s.ptn.partners p (some x) }
  let a := x.routes.getD 0 { lane := 0, pos := 0, last := 0, live := false }
  let b := x.routes.getD 1 { lane := 0, pos := 0, last := 0, live := false }
  let s := s.wf (F.PTN_Pp_SERIAL_SERIAL p) x.serial
  let s := (s.wf (F.PTN_Pp_STAT_ROUTES p) (x.routes.filter s.routeLive).length).wf (F.PTN_Pp_STAT_LANE_A p) a.lane
  let s := ((s.wf (F.PTN_Pp_STAT_POS_A p) a.pos).wf (F.PTN_Pp_STAT_LANE_B p) b.lane).wf (F.PTN_Pp_STAT_POS_B p) b.pos
  (s.wf (F.PTN_Pp_STAT_NCH p) x.chans.length).wf (F.PTN_Pp_EPOCH_EPOCH p) x.epoch

def slot0 : SlotSt :=
  { rate := 0, theta := 0, lane := 0, join := 0, base := 0, next := 0, joined := false, leave := none, late := false, frameBad := false,
    linkOut := false, linkBoth := false, sets := [], rejoin := none, rebase := none, skip := none }

def State.slot (s : State) (c : Nat) : SlotSt := (tabGet (fun _ => none) s.ptn.slots c).getD slot0
def State.setSlot (s : State) (c : Nat) (x : Option SlotSt) : State :=
  { s with ptn.slots := tabSet (fun _ => none) s.ptn.slots c x }

/-- PTN_SLs_STAT.STATE: 0 FREE, 1 JOINING, 2 ATTACHED, 3 LEAVING. -/
def State.slotState (s : State) (c : Nat) : Nat := s.f (F.PTN_SLs_STAT_STATE c)

/-- The slots that are not FREE. -/
def State.usedSlots (s : State) : List Nat := s.ptn.slots.map (·.1)

/-- The slot of an identity. -/
def State.slotOf (s : State) (serial ch : Nat) : Option Nat :=
  s.usedSlots.find? fun c => (s.rd (Reg.PTN_SLs_ID c)).toNat == serial && s.f (F.PTN_SLs_STAT_NODE_CH c) == ch

/-- The slots of a partner. -/
def State.slotsOfPartner (s : State) (serial : Nat) : List Nat :=
  s.usedSlots.filter fun c => (s.rd (Reg.PTN_SLs_ID c)).toNat == serial

/-- JOIN_LEAD: lower values act as 16. -/
def State.joinLead (s : State) : Nat := max 16 (s.f F.PTN_CTRL_JOIN_LEAD)

/-- `a` is above `b`, modulo 2^32 over a window of 2^31 (R295). -/
def seqAbove (a b : Nat) : Bool :=
  let d := (a + 2 ^ 32 - b % 2 ^ 32) % 2 ^ 32
  decide (0 < d) && decide (d < 2 ^ 31)

/-! ### Choosing a slot (R284) -/

/-- A route table word that names no queue (R97). -/
def noRoute : Word := 0xFFFFFFFF#32

/-- Slot `c` may take an identity: it is FREE and no waiting change has chosen it, or the identity itself is leaving it. -/
def State.slotUsable (s : State) (c serial ch : Nat) : Bool :=
  if s.slotState c = 0 then !(s.ptn.waiting.any fun x => x.slot == c)
  else s.slotState c == 3 && (s.rd (Reg.PTN_SLs_ID c)).toNat == serial && s.f (F.PTN_SLs_STAT_NODE_CH c) == ch

/-- The slot is reserved for the identity. -/
def State.reservedFor (s : State) (c serial ch : Nat) : Bool :=
  s.flag (F.PTN_SLs_RESCH_EN c) && (s.rd (Reg.PTN_SLs_RES c)).toNat == serial && s.f (F.PTN_SLs_RESCH_NODE_CH c) == ch

/-- The slot an identity takes (R284). -/
def State.chooseSlot (s : State) (serial ch : Nat) : Option Nat :=
  let all := (List.range 4096).map (· + 96)
  match all.find? fun c => s.reservedFor c serial ch && s.slotUsable c serial ch with
  | some c => some c
  | none =>
    let last := (s.ptn.idents.find? fun x => x.serial == serial && x.ch == ch).map (·.slot)
    match last.filter fun c => s.slotUsable c serial ch && (!s.flag (F.PTN_SLs_RESCH_EN c) || s.reservedFor c serial ch) with
    | some c => some c
    | none => all.find? fun c => s.slotState c == 0 && s.slotUsable c serial ch && !s.flag (F.PTN_SLs_RESCH_EN c)

/-- The channel fits the slot's record in the active envelope (R242, R284). -/
def State.slotFits (s : State) (c rate lane : Nat) : Bool :=
  let s' := { s with front.remote := tabSet (fun _ => none) s.front.remote c
                       (some { rate := rate, theta := 0, lane := lane }) }
  s.bankValid && s'.ptnFits s.activeBank c && s'.chrFits false s.activeBank c

/-! ### Frames to the nodes (R279, R286 to R288) -/

/-- Lane and position of the first route of a node: the lane on which the hub first found it (R277, R284). -/
def Partner.home (x : Partner) : Nat × Nat := match x.routes with | r :: _ => (r.lane, r.pos) | [] => (0, 0)

/-- Lane and position on which frames go to a node (R277): its first route while that is live, else the other one that is. -/
def State.toward (s : State) (x : Partner) : Nat × Nat :=
  match x.routes.find? s.routeLive with
  | some r => (r.lane, r.pos)
  | none => x.home

/-- A frame of the hub leaves on a lane to the node at a position, 0xFF for all (R279): FLAGS says away from the hub, and FSEQ counts the
lane's frames. `vals` stand in the log behind TYPE and POS. -/
def State.nodeFrame (s : State) (lane type pos : Nat) (vals : List Int) (payload : List Nat) : State :=
  let n := tabGet (fun _ => 0) s.ptn.fseq lane
  { s with ptn.fseq := tabSet (fun _ => 0) s.ptn.fseq lane ((n + 1) % 65536) }.frameSend lane ([(type : Int), (pos : Int)] ++ vals)
    ([type, pos, 1, 0] ++ leBytes 2 payload.length ++ leBytes 2 n) payload

/-- A COMMAND frame leaves (R286): OP 1 JOIN, 2 LEAVE, 3 SET, 4 REFUSE, 5 EPOCH. -/
def State.sendCommand (s : State) (lane pos cseq op ch tick arg0 arg1 : Nat) : State :=
  let e := s.f F.PTN_EPOCH_EPOCH
  s.nodeFrame lane 0xE2 pos [(e : Int), (cseq : Int), (op : Int), (ch : Int), (tick : Int), (arg0 : Int), (arg1 : Int)]
    (leBytes 4 e ++ leBytes 4 cseq ++ [op, ch, 0, 0] ++ leBytes 8 tick ++ leBytes 4 arg0 ++ leBytes 4 arg1)

/-- A new command number. -/
def State.nextCseq (s : State) : Nat × State :=
  let n := (s.ptn.cseq + 1) % 2 ^ 32
  (n, { s with ptn.cseq := n })

/-- REFUSE of channel `ch` (R283, R284): only the steward sends it (R288); the node holds the channel unjoined. -/
def State.refuse (s : State) (p ch reason : Nat) : State :=
  match s.partner p with
  | none => s
  | some x =>
    let s := s.setPartner p { x with refused := ch :: x.refused.filter (· != ch) }
    if s.steward then
      let n := s.nextCseq
      n.2.sendCommand (s.toward x).1 (s.toward x).2 n.1 4 ch 0 reason 0
    else s

/-- A change leaves as a COMMAND that names tick `t`, and waits for its REPLY (R287, R289). -/
def State.command (s : State) (x : Change) (t : Nat) : State :=
  match s.partner x.partner with
  | none => s
  | some p =>
    let n := s.nextCseq
    let y := { x with cseq := n.1, tick := t, repeats := 0 }
    let s := { n.2 with ptn.sentCmds := n.2.ptn.sentCmds ++ [y] }
    let s := s.sendCommand (s.toward p).1 (s.toward p).2 n.1 x.op x.ch t x.arg0 x.arg1.toNat
    match x.op with
    | 1 =>
      if s.slotState x.slot = 3 then s
      else
        let s := (s.wf (F.PTN_SLs_STAT_STATE x.slot) 1).wr (Reg.PTN_SLs_ID x.slot) (BitVec.ofNat 32 p.serial)
        let s := (s.wf (F.PTN_SLs_STAT_PARTNER x.slot) x.partner).wf (F.PTN_SLs_STAT_NODE_CH x.slot) x.ch
        s.setSlot x.slot (some { slot0 with rate := x.arg0, lane := p.home.1, join := t })
    | 2 => (s.wf (F.PTN_SLs_STAT_STATE x.slot) 3).setSlot x.slot (some { s.slot x.slot with leave := some t })
    | _ =>
      let z := s.slot x.slot
      let w : SlotSetting := { cseq := n.1, tick := t, rate := x.arg0, rateReg := x.rateReg, ncfgReg := x.ncfgReg }
      if x.rateReg.isNone && x.ncfgReg.isNone then s else s.setSlot x.slot (some { z with sets := z.sets ++ [w] })

/-- The tick a change names: the current tick plus JOIN_LEAD (R289), for a JOIN of an identity that is leaving not before its leave tick (R294),
for a LEAVE not before the tick asked for (R292). -/
def State.changeTick (s : State) (x : Change) : Nat :=
  let t := s.tick.num + s.joinLead
  match x.op, (s.slot x.slot).leave with
  | 1, some lv => max t lv
  | 2, _ => max t x.tick
  | _, _ => t

/-- The change leaves as a COMMAND (R289). -/
def State.sendChange (s : State) (x : Change) : State := s.command x (s.changeTick x)

/-- The NODE_CFG record of a slot (R302): identity, state, rate, NCFG, J or Lv, sequence base. -/
def State.nodeCfg (s : State) (x : Change) (serial state tick base : Nat) : State :=
  s.mirror 0x01 [(serial : Nat), (x.ch : Nat), (state : Nat), (x.arg0 : Nat), (x.arg1.toNat : Nat), (tick : Nat), (base : Nat)]

/-- The state that a change gives its slot, as PTN_SLs_STAT.STATE has it: a JOIN is JOINING until its REPLY. -/
def Change.state (x : Change) : Nat := match x.op with | 1 => 1 | 2 => 3 | _ => 2

/-- The steward begins a JOIN, LEAVE or SET (R289): a pair mirrors it first and waits for the acknowledgement; without the
Slate link it proceeds at once and records MIRROR_LAG; a hub that is no pair proceeds at once. A JOIN waits for its own step. -/
def State.change (s : State) (x : Change) (serial : Nat) : State :=
  let pair := s.flag F.PTN_CTRL_PAIR
  let up := s.flag F.PTN_STEW_SLATE_UP
  let s := if pair then s.nodeCfg x serial x.state (s.changeTick x) 0 else s
  let x := { x with mseq := if pair then s.hub.mseq else 0, tick := max x.tick s.tick.num }
  if x.op = 1 ∨ (pair ∧ up) then { s with ptn.waiting := s.ptn.waiting ++ [x] }
  else (if pair then s.emit .MIRROR_LAG (objPartner x.partner) [(x.slot : Nat)] else s).sendChange x

/-- The mirror record of a waiting change is acknowledged, or there is no peer to wait for. -/
def State.mirrored (s : State) (x : Change) : Bool :=
  !s.flag F.PTN_CTRL_PAIR || !(s.hub.mirrorOut.any fun m => m.mseq == x.mseq)

/-! ### Offering channels (R289) -/

/-- The steward offers one channel of a present partner a slot. -/
def State.offer (s : State) (p : Nat) (d : NodeCh) : State :=
  match s.partner p with
  | none => s
  | some x =>
    let lane := x.home.1
    let mine := s.slotOf x.serial d.ch
    let busy := (match mine with | some c => s.slotState c != 3 | none => false) ||
      (s.ptn.waiting ++ s.ptn.sentCmds).any fun w => w.op == 1 && w.partner == p && w.ch == d.ch
    if !s.flag F.PTN_CTRL_EN || !s.flag F.PTN_CTRL_AUTO_JOIN || !s.steward || !x.present || !(s.lane lane).hopDone
        || x.refused.contains d.ch || busy then s
    else match s.chooseSlot x.serial d.ch with
      | none => s.refuse p d.ch 2
      | some c =>
        let want := (s.rd (Reg.PTN_SLs_RATE c)).toNat
        let rate := if want = 0 then d.rate else want
        if s.slotFits c rate lane then
          s.change { op := 1, partner := p, slot := c, ch := d.ch, arg0 := rate, arg1 := s.rd (Reg.PTN_SLs_NCFG c),
                     rateReg := none, ncfgReg := none, tick := 0, mseq := 0, cseq := 0, repeats := 0 } x.serial
        else (s.envExceeded c (Reg.PTN_SLs_STAT c) 0).refuse p d.ch 1

/-- Every channel that the present partners offer (R289). -/
def State.offerAll (s : State) : State :=
  s.ptn.partners.foldl (fun s e => match e.2 with
    | some x => x.chans.foldl (fun s d => s.offer e.1 d) s
    | none => s) s

/-- No channel counts as refused any longer. -/
def State.unrefuse (s : State) : State :=
  { s with ptn.partners := s.ptn.partners.map fun (e : Nat × Option Partner) =>
      (e.1, e.2.map fun (x : Partner) => { x with refused := [] }) }

/-- After a bank swap that is taken, and after a slot becomes free, refused channels are tried again (R289). -/
def State.retryJoins (s : State) : State := s.unrefuse.offerAll

/-! ### Joins and leaves take effect (R290, R292, R98) -/

/-- The first index of a grid at rate `r` and offset `th` (2^-16 ns) whose instant is at or after hub clock `c`. -/
def firstIndex (r : Nat) (th : Int) (c : Nat) : Nat :=
  (((c : Int) - th) * r + (secUnits : Nat) - 1).toNat / secUnits

/-- The coefficients and the record of a remote channel are those of an entry, or with none the unit pair and no record (R205). -/
def State.calShow (s : State) (c : Nat) (e : Option RemoteCal) : State :=
  let p := match e with | some x => some (x.g, x.b) | none => none
  let s := { s with front.pairs := tabSet (fun _ => none) s.front.pairs c p,
                    front.slews := tabSet (fun _ => none) s.front.slews c none, front.slewOld := tabSet (fun _ => none) s.front.slewOld c none }
  let s := s.wf (F.CAL_CH_CTRL_TRACE c) (match e with | some x => x.trace | none => 0)
  let w := match e with | some x => x.record | none => []
  let s := (List.range 4).foldl (fun s i => s.wr (Reg.CAL_CH_CERT c i) (w.getD i 0#32)) s
  let s := (s.wr (Reg.CAL_CH_TICK_LO c) (w.getD 4 0#32)).wr (Reg.CAL_CH_TICK_HI c) (w.getD 5 0#32)
  ((s.wr (Reg.CAL_CH_TEMP c) (w.getD 6 0#32)).wr (Reg.CAL_CH_AFE c) (w.getD 7 0#32)).calRefresh c s.tick.num

/-- The channel of slot `c` joins: its route and settings apply (R290). -/
def State.joinNow (s : State) (c : Nat) : State :=
  let x := s.slot c
  let serial := (s.rd (Reg.PTN_SLs_ID c)).toNat
  let ch := s.f (F.PTN_SLs_STAT_NODE_CH c)
  let s := s.setSlot c (some { x with joined := true })
  let s := { s with front.remote := tabSet (fun _ => none) s.front.remote c
                      (some { rate := x.rate, theta := x.theta * 65536, lane := x.lane }) }
  let s := s.calShow c (s.front.remCal.find? fun x => x.serial == serial && x.nodeCh == ch)
  let k := s.chrSet true c
  ((((s.setPath c (s.restartPath c k (s.firNT k) 1 path0)).envZero c).wb (F.CHR_CH_STAT_RUN c) (s.pathRuns c)).showRho c).chrJudge c

/-- Slot `c` names no channel any longer: a JOIN that failed leaves it FREE, with its route entry as it stands (R98, R287). -/
def State.slotDrop (s : State) (c : Nat) : State :=
  let s := (s.wf (F.PTN_SLs_STAT_STATE c) 0).wr (Reg.PTN_SLs_ID c) 0#32
  ((s.wf (F.PTN_SLs_STAT_PARTNER c) 0).wf (F.PTN_SLs_STAT_NODE_CH c) 0).setSlot c none

/-- The channel of slot `c` leaves: its route is no route and its path stops (R216, R292, R98). -/
def State.slotFree (s : State) (c : Nat) : State :=
  let s := s.slotDrop c
  let s := { s with front.remote := tabSet (fun _ => none) s.front.remote c none,
                    front.paths := tabSet (fun _ => none) s.front.paths c none,
                    kiln.route := tabSet (fun _ => noRoute) s.kiln.route c noRoute,
                    kiln.shadow := tabSet (fun _ => noRoute) s.kiln.shadow c noRoute,
                    kiln.outPrev := tabSet (fun _ => []) s.kiln.outPrev c [], kiln.outNow := tabSet (fun _ => []) s.kiln.outNow c [] }
  let s := s.calShow c none
  (s.wf (F.CHR_CH_STAT_RUN c) 0).wf (F.CHR_CH_STAT_FILLING c) 0

/-- Of the node of slot `c`: a route is not live now; it has two and none is (R296). A loss that begins here lies across it. -/
def State.routesDown (s : State) (c : Nat) : Bool × Bool :=
  match s.partner (s.f (F.PTN_SLs_STAT_PARTNER c)) with
  | some p => (p.routes.any fun r => !s.routeLive r, decide (2 ≤ p.routes.length) && p.routes.all fun r => !s.routeLive r)
  | none => (false, false)

/-- A slot is ATTACHED for a JOIN that its node has accepted (R284, R289, R290). -/
def State.attachNow (s : State) (x : Change) (p : Partner) (base : Nat) : State :=
  let c := x.slot
  let d := (p.chans.find? fun d => d.ch == x.ch).getD { ch := x.ch, rate := x.arg0, theta := 0 }
  let s := (s.wf (F.PTN_SLs_STAT_STATE c) 2).wr (Reg.PTN_SLs_ID c) (BitVec.ofNat 32 p.serial)
  let s := (s.wf (F.PTN_SLs_STAT_PARTNER c) x.partner).wf (F.PTN_SLs_STAT_NODE_CH c) x.ch
  let s := (s.wr (Reg.PTN_SLs_SEQ c) (BitVec.ofNat 32 (base + 2 ^ 32 - 1))).wr (Reg.PTN_SLs_JOIN c) (BitVec.ofNat 32 x.tick)
  let first := firstIndex (max 1 x.arg0) (d.theta * 65536) (boundaryClock (max 1 s.rate) x.tick)
  let down := s.routesDown c
  let s := s.setSlot c (some { slot0 with rate := x.arg0, theta := d.theta, lane := p.home.1, join := x.tick, base := base, next := first,
                                          linkOut := down.1, linkBoth := down.2 })
  let s := { s with ptn.idents :=
    (Identity.mk p.serial x.ch c :: s.ptn.idents.filter fun i => !(i.serial == p.serial && i.ch == x.ch)).take 4096 }
  if x.tick ≤ s.tick.num then s.joinNow c else s

/-- A channel is attached on the REPLY to its JOIN; one whose slot still leaves, once the leave tick is there (R292, R294). -/
def State.attach (s : State) (x : Change) (p : Partner) (base : Nat) : State :=
  if s.slotState x.slot = 3 then s.setSlot x.slot (some { s.slot x.slot with rejoin := some (x, base) }) else s.attachNow x p base

/-- The channel of slot `c` has left; the same identity may join again there, and refused channels are tried again (R289, R292, R294). -/
def State.leaveNow (s : State) (c : Nat) : State :=
  let y := (s.slot c).rejoin
  let s := s.slotFree c
  let s := match y with
    | some (x, base) => match s.partner x.partner with
      | some p => s.attachNow x p base
      | none => s
    | none => s
  s.retryJoins

/-- A SET takes effect on slot `c` (R285). -/
def State.setTakes (s : State) (c t : Nat) (w : SlotSetting) : State :=
  let x := s.slot c
  let s := match w.rateReg with | some v => s.wr (Reg.PTN_SLs_RATE c) v | none => s
  let s := match w.ncfgReg with | some v => s.wr (Reg.PTN_SLs_NCFG c) v | none => s
  let s := s.sessConfig [c]
  let s := s.setSlot c (some { x with sets := x.sets.erase w, rebase := if w.rate = x.rate then x.rebase else some (t, w.rate) })
  if w.rate = x.rate then s
  else
    ({ s with front.remote := tabSet (fun _ => none) s.front.remote c
               (some { rate := w.rate, theta := x.theta * 65536, lane := x.lane }) }.chrJudge c).showRho c

/-- Joins and leaves announced for the boundary of tick `t` (R39, R290, R292). -/
def State.joinBoundary (s : State) (t : Nat) : State :=
  s.usedSlots.foldl (fun s c =>
    let x := s.slot c
    let s := x.sets.foldl (fun s w => if w.tick ≤ t then s.setTakes c t w else s) s
    match x.leave with
    | some lv => if lv ≤ t then s.leaveNow c else s
    | none => if s.slotState c = 2 ∧ !x.joined ∧ x.join ≤ t then s.joinNow c else s) s

/-! ### Losses (R293, R296) -/

/-- Index of the word with sequence number `seq` on the grid of slot `c`: counted from the word that follows the last accepted one. -/
def State.seqIndex (s : State) (c seq : Nat) : Nat :=
  (s.slot c).next + (seq + 2 ^ 32 - ((s.rd (Reg.PTN_SLs_SEQ c)).toNat + 1) % 2 ^ 32) % 2 ^ 32

/-- Sequence number of the word with index `k` on the grid of slot `c`. -/
def State.seqAt (s : State) (c k : Nat) : Nat :=
  ((((s.rd (Reg.PTN_SLs_SEQ c)).toNat : Int) + 1 + k - (s.slot c).next) % (2 ^ 32 : Nat)).toNat

/-- The gap record of words that slot `c` has lost: `n` of them from sequence number `seq` on. -/
def State.remoteGapOf (s : State) (c : Nat) (cause : GapCause) (seq n : Nat) : Gap :=
  let x := s.slot c
  let th := x.theta * 65536
  let r := max 1 x.rate
  let a := s.seqIndex c seq
  let b := a + n - 1
  let ro := let o := s.outRate true c; if o = 0 then r else o
  let tk (k : Nat) := tickOfClock (max 1 s.rate) (((k * secUnits / r : Nat) : Int) + th).toNat
  let i := a * ro / r
  let j := b * ro / r
  { ch := c, cause := cause, queueWide := false, conv := false, merged := false, inexact := false, queue := 0xFFFF,
    firstTick := tk a, lastTick := tk b, firstSec := i / ro, firstIdx := i % ro, lastSec := j / ro, lastIdx := j % ro,
    seq := seq % 2 ^ 32, count := n }

/-- That record is written. -/
def State.remoteGap (s : State) (c : Nat) (cause : GapCause) (seq n : Nat) : State := s.gap (s.remoteGapOf c cause seq n)

/-- The cause of a loss on slot `c` (R296). -/
def SlotSt.cause (x : SlotSt) : GapCause :=
  if x.linkBoth then .linkBoth else if x.linkOut then .link else if x.frameBad then .frameBad
  else if x.late then .fieldLate else .nodeSkip

/-- Routes of the slots of a partner were not live (R296). -/
def State.markLink (s : State) (x : Partner) : State :=
  let both := decide (2 ≤ x.routes.length) && x.routes.all fun r => !s.routeLive r
  (s.slotsOfPartner x.serial).foldl (fun s c =>
    let y := s.slot c
    s.setSlot c (some { y with linkOut := true, linkBoth := y.linkBoth || both })) s

/-- A partner is lost (R282, R293): its channels leave at the second boundary, or where one already leaves sooner, with their gap records. -/
def State.partnerLost (s : State) (p : Nat) (x : Partner) : State :=
  let s := (s.setPartner p { x with present := false, absent := s.tick.num }).emit .PARTNER_LOST (objPartner p) [(x.serial : Nat)]
  let s := { s with ptn.waiting := s.ptn.waiting.filter fun w => w.partner != p,
                    ptn.sentCmds := s.ptn.sentCmds.filter fun w => w.partner != p }
  let lv := s.tick.num + 2
  (s.slotsOfPartner x.serial).foldl (fun s c =>
    let y := s.slot c
    if s.slotState c = 1 then (s.slotDrop c).retryJoins
    else
      let lv := match y.leave with | some l => min l lv | none => lv
      let r := max 1 y.rate
      let n1 := firstIndex r (y.theta * 65536) (boundaryClock (max 1 s.rate) (lv - 4))
      let s := if y.next < n1 then s.remoteGap c .nodeLost ((s.rd (Reg.PTN_SLs_SEQ c)).toNat + 1) (n1 - y.next) else s
      (s.wf (F.PTN_SLs_STAT_STATE c) 3).setSlot c (some { y with leave := some lv, rejoin := none })) s

/-- Lane `l` sleeps: the partners on it stay enumerated (R268). -/
def State.laneAsleep (s : State) (l : Nat) : Bool := s.laneState l == 7 || s.laneState l == 8

/-- A route of partner `p` ends (R282); a partner on a sleeping lane is not lost by that. -/
def State.routeEnd (s : State) (p l : Nat) : State :=
  match s.partner p with
  | none => s
  | some x =>
    if !(x.routes.any fun r => r.lane == l && (r.live || (x.present && !(x.routes.any (·.live))))) then s
    else
      let y := { x with routes := x.routes.map fun (r : Route) => if r.lane = l then { r with live := false } else r }
      let s := (s.setPartner p y).markLink y
      if y.present && !(y.routes.any (·.live)) && !s.laneAsleep l then s.partnerLost p y else s

/-- A lane leaves ACTIVE: the routes on it end at once, and its hop delay must be measured again (R263, R282). -/
def State.laneGone (s : State) (l : Nat) : State :=
  let s := s.setLane l { s.lane l with hopDone := false, searches := 0 }
  s.ptn.partners.foldl (fun s e => s.routeEnd e.1 l) s

/-- The partners on a lane show their routes anew: RELOCK has come or gone (R282). -/
def State.showRoutes (s : State) (l : Nat) : State :=
  s.ptn.partners.foldl (fun s e => match e.2 with
    | some x => if x.routes.any fun r => r.lane == l then s.setPartner e.1 x else s
    | none => s) s

/-- A lane sets RELOCK: its routes are not live while it lasts (R263, R282). -/
def State.laneRelock (s : State) (l : Nat) : State :=
  s.ptn.partners.foldl (fun s e => match e.2 with
    | some x => if x.routes.any fun r => r.lane == l then (s.setPartner e.1 x).markLink x else s
    | none => s) s

def execRouteExpiry (p : Fin 512) (l : Fin 16) (s : State) : Host.Outcome State Fault Refusal := .next (s.routeEnd p l)

/-! ### Stewardship (R297 to R301) -/

/-- The effective role (R300). -/
def State.effRole (s : State) : Bool :=
  let own := s.flag F.PTN_CTRL_ROLE
  if s.ptn.peerRole = some own then decide (s.ptn.peerSerial < (s.rd Reg.HUB_SERIAL).toNat) else own

/-- The hub becomes steward (R297). -/
def State.becomeSteward (s : State) : State :=
  let best := s.ptn.partners.foldl (fun a e => match e.2 with
    | some x => if x.present then max a x.epoch else a
    | none => a) (max (s.f F.PTN_EPOCH_EPOCH) s.ptn.peerEpoch)
  let unsynced := s.flag F.PTN_CTRL_PAIR && !s.flag F.PTN_STEW_SYNCED
  let s := (s.wf F.PTN_EPOCH_EPOCH (best + 1)).wf F.PTN_STEW_STEWARD 1
  let s := { s with ptn.outranked := false, ptn.take := false }
  let s := s.activeLanes.foldl (fun s l =>
    let n := s.nextCseq
    n.2.sendCommand l 0xFF n.1 5 0xFF 0 0 0) s
  let s := s.emit .STEWARD_TAKEN 0 [((best + 1 : Nat) : Int)]
  let s := if unsynced then s.emit .STEWARD_UNSYNCED 0 [] else s
  (s.mirror 0x03 [((best + 1 : Nat) : Int), (s.tick.num : Nat)]).offerAll

/-- The hub yields (R300). -/
def State.yieldSteward (s : State) : State :=
  let s := { s with ptn.waiting := [], ptn.sentCmds := [], ptn.outranked := false, ptn.stop := false }
  (s.wf F.PTN_STEW_STEWARD 0).emit .STEWARD_YIELDED 0 [(s.f F.PTN_EPOCH_EPOCH : Nat)]

/-- The first search of the lanes is complete: every ACTIVE lane has sent its second DISCOVER. A hub that is no pair becomes
steward then (R297). -/
def State.searchedAll (s : State) : State :=
  if s.flag F.PTN_CTRL_EN && !s.flag F.PTN_CTRL_PAIR && !s.steward
      && s.activeLanes.all fun l => decide (2 ≤ (s.lane l).searches) then s.becomeSteward
  else s

/-- Silent ticks a non-steward waits before it takes (R299). -/
def State.silenceNeeded (s : State) : Nat := if s.ptn.firstCount && s.effRole then 128 else 64

/-- PEER_SILENT, once per silent episode (R578). -/
def State.peerSilent (s : State) : State :=
  if s.ptn.silentNoted then s
  else { s with ptn.silentNoted := true }.emit .PEER_SILENT 0 [(s.ptn.lastBeat : Nat)]

def State.takeSilence (s : State) : State :=
  if s.flag F.PTN_CTRL_EN && s.flag F.PTN_CTRL_PAIR && !s.steward && decide (s.silenceNeeded ≤ s.f F.PTN_STEW_SILENT) then
    s.peerSilent.becomeSteward
  else s

def execStewardTakeSilence (s : State) : Host.Outcome State Fault Refusal := .next s.takeSilence

/-- A write of PTN_TAKE.TAKE: it acts at the next boundary (R299). -/
def State.ptnTake (s : State) : State := { s with ptn.take := true }

def execTake (_ : Master) (s : State) : Host.Outcome State Fault Refusal := .next s.ptnTake

/-- A heartbeat is held for the next boundary (R298). -/
def execHeartbeat (b : Beat) (s : State) : Host.Outcome State Fault Refusal :=
  .next { s with ptn.beats := s.ptn.beats ++ [b] }

/-- The hub notes one heartbeat of the previous tick (R29, R298, R300, R303). -/
def State.noteBeat (s : State) (b : Beat) : State :=
  let bad := b.rate != s.rate
  let s := ((s.wb F.PTN_STEW_RATE_MISMATCH bad).wf F.PTN_STEW_SLATE_UP 1).wf F.PTN_STEW_SILENT 0
  let s := if bad && !s.ptn.rateNoted then
      { s with ptn.rateNoted := true }.emit .SLATE_RATE_MISMATCH 0 [(b.rate : Nat)] else s
  let s := { s with ptn.silentNoted := false, ptn.firstCount := false, ptn.peerEpoch := b.epoch, ptn.peerRole := some b.role,
                    ptn.peerSerial := b.serial, ptn.lastBeat := b.tick,
                    hub.mirrorOut := s.hub.mirrorOut.filter fun (m : MirrorRec) => seqAbove m.mseq b.ack, ptn.acked := b.ack }
  if b.role = s.flag F.PTN_CTRL_ROLE ∧ !s.ptn.clashNoted then
    { s with ptn.clashNoted := true }.emit .SLATE_ROLE_CLASH 0 [(b.serial : Nat)]
  else s

/-- A heartbeat makes a steward yield (R29, R300). -/
def State.beatYields (s : State) (b : Beat) : Bool :=
  let own := s.f F.PTN_EPOCH_EPOCH
  b.rate == s.rate && ((b.steward && (decide (own < b.epoch) || (b.epoch == own && s.effRole))) || b.take)

/-- The heartbeat of the head guard (R298). -/
def State.sendBeat (s : State) (take : Bool) : State :=
  let flags := b2n s.steward + 2 * b2n (s.flag F.PTN_CTRL_ROLE) + 4 * b2n (s.flag F.PTN_STEW_SYNCED) + 8 * b2n take
  let epoch := s.f F.PTN_EPOCH_EPOCH
  let serial := (s.rd Reg.HUB_SERIAL).toNat
  s.slateSend [0x01, (flags : Int), (s.rate : Int), (s.tick.num : Int), (epoch : Int), (s.ptn.applied : Int), (serial : Int)]
    ([0x01, flags, 0, 0] ++ leBytes 4 s.rate ++ leBytes 8 s.tick.num ++ leBytes 4 epoch ++ leBytes 4 s.ptn.applied ++ leBytes 4 serial)

/-- The heartbeats that came in the tick before, or their absence (R298 to R300): 64 silent boundaries make the peer silent. -/
def State.slateBeats (s : State) (pair : Bool) (beats : List Beat) : State :=
  if !pair then s
  else if beats.isEmpty then
    let s := (s.wf F.PTN_STEW_SLATE_UP 0).bump F.PTN_STEW_SILENT 1
    if s.f F.PTN_STEW_SILENT = 64 then s.peerSilent else s
  else beats.foldl State.noteBeat s

/-- Changes of slots that the peer has mirrored are sent to their partners (R289, R303). -/
def State.slateChanges (s : State) : State :=
  let s := { s with ptn.take := false }
  let due := s.ptn.waiting.filter fun w => w.op != 1 && s.mirrored w
  let s := { s with ptn.waiting := s.ptn.waiting.filter fun (w : Change) => w.op == 1 || !s.mirrored w }
  due.foldl State.sendChange s

/-- The boundary's part of stewardship, in the order of the rules: what was received (R298), TAKE (R299), then what makes a steward yield (R300). -/
def State.slateBoundary (s : State) : State :=
  let pair := s.flag F.PTN_CTRL_PAIR
  let en := s.flag F.PTN_CTRL_EN
  let beats := s.ptn.beats
  let s := { s with ptn.beats := [] }.slateBeats pair beats
  let bad := !beats.isEmpty && s.flag F.PTN_STEW_RATE_MISMATCH
  let take := s.ptn.take && pair && en && !bad && !s.steward
  let s := if take then s.becomeSteward else s
  let yields := s.ptn.stop || (s.ptn.outranked && !bad) || (pair && beats.any s.beatYields)
  let s := (if s.steward && yields then s.yieldSteward else { s with ptn.stop := false }).slateChanges
  if pair then s.sendBeat take else s

/-- A partner reports an epoch (R300). -/
def State.sawEpoch (s : State) (p epoch : Nat) : State :=
  match s.partner p with
  | none => s
  | some x =>
    let s := s.setPartner p { x with epoch := epoch }
    if s.steward && decide (s.f F.PTN_EPOCH_EPOCH < epoch) then { s with ptn.outranked := true } else s

/-! ### Frames from the nodes (R280 to R287) -/

/-- The partner whose frames arrive on lane `l` from position `pos`. -/
def State.partnerAt (s : State) (l pos : Nat) : Option Nat :=
  (s.ptn.partners.find? fun e => match e.2 with
    | some x => x.present && x.routes.any fun r => r.lane == l && r.pos == pos
    | none => false).map (·.1)

/-- A node's frame arrives (R280, R282): the partner it is from when it is accepted. Blocks that arrive while the lane is not
ACTIVE or RELOCK is set are discarded (R262). -/
def State.frameIn (s : State) (f : FrameIn) : Option Nat × State :=
  let p := s.partnerAt f.lane f.pos
  if !s.flag F.PTN_CTRL_EN || !s.laneLive f.lane then (none, s)
  else if !f.ok then
    let s := s.bump F.PTN_COUNTS_FRAME_BAD 1
    (none, match p.bind s.partner with
      | some x => (s.slotsOfPartner x.serial).foldl (fun s c => s.setSlot c (some { s.slot c with frameBad := true })) s
      | none => s)
  else match p, p.bind s.partner with
    | some p, some x =>
      let y := { x with routes := x.routes.map fun (r : Route) =>
        if r.lane = f.lane.val then { r with last := s.tick.num, live := true } else r }
      (some p, (s.setPartner p y).wf64 (F.PTN_Pp_SEEN_LO_TICK p) (F.PTN_Pp_SEEN_HI_TICK p) s.tick.num)
    | _, _ => (none, s)

/-- A node-bound frame reaches the hub (R277, R280). -/
def execNodeBoundFrame (l : Fin 16) (s : State) : Host.Outcome State Fault Refusal :=
  .next (if s.flag F.PTN_CTRL_EN && s.laneLive l then s.bump F.PTN_COUNTS_FRAME_BAD 1 else s)

/-- DISCOVER leaves on a lane that is searched (R281), with NEXT_POS 0 and to the node at position 0 (log entry 130): `long` says that the last search met a node beyond position 31. -/
def State.discover (s : State) (l : Nat) (long : Bool) : State :=
  let x := s.lane l
  if !s.flag F.PTN_CTRL_EN || s.laneState l != 6 || !x.hopDone then s
  else
    let s := if long then s.emit .CHAIN_LONG (objLink l) [] else s
    ((s.setLane l { x with searches := x.searches + 1 }).nodeFrame l 0xE0 0 [(l : Int), 0] [l, 0, 0, 0, 0, 0, 0, 0]).searchedAll

def execDiscoverSend (l : Fin 16) (long : Bool) (s : State) : Host.Outcome State Fault Refusal := .next (s.discover l long)

/-- The number a serial takes (R278): its own, the lowest free one, or that of the partner longest absent, with
PARTNER_RENUMBERED; none when all 512 are present. -/
def State.partnerNumber (s : State) (serial : Nat) : Option Nat × State :=
  match s.ptn.partners.find? fun e => match e.2 with | some x => x.serial == serial | none => false with
  | some e => (some e.1, s)
  | none =>
    match (List.range 512).find? fun p => (s.partner p).isNone with
    | some p => (some p, s)
    | none =>
      let old := s.ptn.partners.foldl (fun (a : Option (Nat × Partner)) e => match e.2, a with
        | some x, some b => if !x.present && decide (x.absent < b.2.absent) then some (e.1, x) else a
        | some x, none => if !x.present then some (e.1, x) else a
        | none, _ => a) none
      match old with
      | some (p, x) => (some p, s.emit .PARTNER_RENUMBERED (objPartner p) [(x.serial : Nat), (serial : Nat)])
      | none => (none, s)

/-- The routes of a node after NODE_INFO on lane `l` from position `pos`; none when a second node reports the serial (R283). -/
def newRoutes (rs : List Route) (l pos t : Nat) (two : Bool) : Option (List Route) :=
  let r : Route := { lane := l, pos := pos, last := t, live := true }
  match rs.find? fun x => x.lane == l with
  | some x =>
    if x.pos = pos ∨ !x.live then some (rs.map fun y => if y.lane = l then r else y) else none
  | none =>
    match rs.filter (·.live) with
    | [] => some [r]
    | [a] => if two then some [a, r] else none
    | _ => none

/-- NODE_INFO (R278, R281 to R284). -/
def State.nodeInfo (s : State) (f : FrameIn) (serial model : Nat) (two : Bool) (epoch : Nat) (chans : List NodeCh) : State :=
  if !s.flag F.PTN_CTRL_EN || !s.laneLive f.lane then s
  else if !f.ok then (s.frameIn f).2
  else
    let n := s.partnerNumber serial
    match n.1 with
    | none => n.2
    | some p =>
      let s := n.2
      let t := s.tick.num
      let old := (s.partner p).filter fun x => x.serial == serial
      let there := match old with | some x => x.present | none => false
      let rs := match old with | some x => if x.present then x.routes else [] | none => []
      match newRoutes rs f.lane f.pos t two with
      | none =>
        let s := chans.foldl (fun s d =>
          if s.steward then
            let c := s.nextCseq
            c.2.sendCommand f.lane f.pos c.1 4 d.ch 0 3 0
          else s) s
        s.emit .PARTNER_CLASH (objPartner p) [(serial : Nat), (f.lane.val : Nat), (f.pos : Nat)]
      | some rs =>
        let x : Partner := { serial := serial, model := model, present := true, absent := 0, routes := rs, epoch := epoch,
                             chans := chans, refused := match old with | some x => x.refused | none => [] }
        let s := (s.setPartner p x).wf64 (F.PTN_Pp_SEEN_LO_TICK p) (F.PTN_Pp_SEEN_HI_TICK p) t
        let s := if there then s else s.emit .PARTNER_UP (objPartner p) [(serial : Nat), (f.lane.val : Nat), (f.pos : Nat)]
        let s := s.sawEpoch p epoch
        chans.foldl (fun s d => s.offer p d) s

def execNodeInfo (f : FrameIn) (serial model : Nat) (twoPorts : Bool) (epoch : Nat) (chans : List NodeCh) (s : State) :
    Host.Outcome State Fault Refusal := .next (s.nodeInfo f serial model twoPorts epoch chans)

/-- REPORT (R286, R300, R305): an epoch notice, or an event of the node. -/
def State.nodeReport (s : State) (f : FrameIn) (r : NodeReport) : State :=
  let a := s.frameIn f
  match a.1, r with
  | some p, .epochNotice e => a.2.sawEpoch p e
  | some p, .event n d => a.2.emitFrom n 9 (objPartner p) d
  | none, _ => a.2

def execReport (f : FrameIn) (r : NodeReport) (s : State) : Host.Outcome State Fault Refusal := .next (s.nodeReport f r)

/-- REPLY (R286, R287): RESULT 0 OK, 1 EPOCH_STALE, 2 TICK_PAST, 3 CH_BAD, 4 UNSUPPORTED. -/
def State.replyIn (s : State) (f : FrameIn) (epoch cseq result value : Nat) : State :=
  let a := s.frameIn f
  match a.1 with
  | none => a.2
  | some p =>
    let s := a.2.sawEpoch p epoch
    match s.ptn.sentCmds.find? fun x => x.cseq == cseq && x.partner == p, s.partner p with
    | some x, some y =>
      let s := { s with ptn.sentCmds := s.ptn.sentCmds.filter fun w => w.cseq != cseq }
      if result = 0 then
        if x.op = 1 then (s.attach x y value).nodeCfg x y.serial 2 x.tick value else s
      else if x.op ≠ 1 then
        let z := s.slot x.slot
        s.setSlot x.slot (some { z with sets := z.sets.filter fun w => w.cseq != cseq })
      else if result = 2 then s.sendChange x
      else
        let s := if s.slotState x.slot = 1 then (s.slotDrop x.slot).unrefuse else s
        let s := match s.partner p with
          | some z => s.setPartner p { z with refused := x.ch :: z.refused }
          | none => s
        s.offerAll
    | _, _ => s

def execReply (f : FrameIn) (epoch cseq : Nat) (result : Fin 5) (value : Nat) (s : State) : Host.Outcome State Fault Refusal :=
  .next (s.replyIn f epoch cseq result value)

/-- No REPLY within 64 ticks (R287): the command is sent again, up to three times. -/
def State.retryCommand (s : State) (cseq : Nat) : State :=
  match s.ptn.sentCmds.find? fun x => x.cseq == cseq with
  | none => s
  | some x =>
    match s.partner x.partner with
    | none => s
    | some p =>
      if x.repeats < 3 then
        let again (w : Change) : Change := if w.cseq = cseq then { w with repeats := w.repeats + 1 } else w
        let s := { s with ptn.sentCmds := s.ptn.sentCmds.map again }
        s.sendCommand (s.toward p).1 (s.toward p).2 cseq x.op x.ch x.tick x.arg0 x.arg1.toNat
      else
        let s := { s with ptn.sentCmds := s.ptn.sentCmds.filter fun w => w.cseq != cseq }
        let s := s.emit .PARTNER_NO_REPLY (objPartner x.partner) [(x.op : Nat), (x.slot : Nat)]
        if x.op = 1 ∧ s.slotState x.slot = 1 then (s.slotDrop x.slot).retryJoins else s

def execCommandRetry (cseq : Nat) (s : State) : Host.Outcome State Fault Refusal := .next (s.retryCommand cseq)

/-- JOIN (R289): the waiting join of a slot is commanded once its mirror record is acknowledged, or at once, with MIRROR_LAG, while
the Slate link is down. -/
def State.sendJoin (s : State) (c : Nat) : State :=
  match s.ptn.waiting.find? fun x => x.op == 1 && x.slot == c with
  | none => s
  | some x =>
    let ok := s.mirrored x
    if !s.steward || !(ok || !s.flag F.PTN_STEW_SLATE_UP) then s
    else
      let s := { s with ptn.waiting := s.ptn.waiting.filter fun w => !(w.op == 1 && w.slot == c) }
      (if ok then s else s.emit .MIRROR_LAG (objPartner x.partner) [(c : Nat)]).sendChange x

def execJoin (sl : Fin 4192) (s : State) : Host.Outcome State Fault Refusal := .next (s.sendJoin sl)

/-- LEAVE (R289, R292): the steward commands an attached channel to leave `lead` ticks ahead, and not less than JOIN_LEAD. -/
def State.sendLeave (s : State) (c lead : Nat) : State :=
  if !s.steward || s.slotState c != 2 || (s.ptn.waiting.any fun x => x.slot == c) then s
  else s.change { op := 2, partner := s.f (F.PTN_SLs_STAT_PARTNER c), slot := c, ch := s.f (F.PTN_SLs_STAT_NODE_CH c), arg0 := 0,
                  arg1 := 0#32, rateReg := none, ncfgReg := none, tick := s.tick.num + max lead s.joinLead, mseq := 0, cseq := 0, repeats := 0 }
         (s.rd (Reg.PTN_SLs_ID c)).toNat

def execLeave (sl : Fin 4192) (lead : Nat) (s : State) : Host.Outcome State Fault Refusal := .next (s.sendLeave sl lead)

/-- The rate and NCFG last asked for of slot `c`: of a SET that waits, of one that is not yet in effect, or those it has. -/
def State.slotAsked (s : State) (c : Nat) : Nat × Word :=
  let has := ((s.slot c).rate, s.rd (Reg.PTN_SLs_NCFG c))
  let sent := (s.slot c).sets.foldl (fun (a : Nat × Word) w => (w.rate, w.ncfgReg.getD a.2)) has
  (s.ptn.waiting.filter fun x => x.op == 3 && x.slot == c).foldl (fun (_ : Nat × Word) x => (x.arg0, x.arg1)) sent

/-- The rate that the node offers for the channel of slot `c` (R285). -/
def State.offered (s : State) (c : Nat) : Nat :=
  match s.partner (s.f (F.PTN_SLs_STAT_PARTNER c)) with
  | some p => match p.chans.find? fun d => d.ch == s.f (F.PTN_SLs_STAT_NODE_CH c) with
    | some d => d.rate
    | none => (s.slot c).rate
  | none => (s.slot c).rate

/-- A write to RATE or NCFG of slot `c` by master code `m` (R285): RATE 0 asks for the rate the node offers; a rate that the slot's record has no
room for is discarded (R124). -/
def State.slotSet (s : State) (m c : Nat) (ncfg : Bool) (w : Word) : State :=
  let st := s.slotState c
  let reg := if ncfg then Reg.PTN_SLs_NCFG c else Reg.PTN_SLs_RATE c
  let w := if ncfg then w else w &&& 0xFFFFFF#32
  if c < 96 then s
  else if st = 0 ∨ st = 1 then s.wr reg w
  else if !s.steward then s.emit .PTN_NOT_STEWARD (objChannel c) [(m : Nat)]
  else if st = 3 then s.wr reg w
  else
    let a := s.slotAsked c
    let rate := if ncfg then a.1 else if w = 0#32 then s.offered c else w.toNat
    if !ncfg && !s.slotFits c rate (s.slot c).lane then s.envExceeded c reg m
    else
      s.change { op := 3, partner := s.f (F.PTN_SLs_STAT_PARTNER c), slot := c, ch := s.f (F.PTN_SLs_STAT_NODE_CH c), arg0 := rate,
                 arg1 := if ncfg then w else a.2, rateReg := if ncfg then none else some w, ncfgReg := if ncfg then some w else none,
                 tick := 0, mseq := 0, cseq := 0, repeats := 0 }
        (s.rd (Reg.PTN_SLs_ID c)).toNat

def execSlotSet (m : Master) (sl : Fin 4192) (ncfg : Bool) (data : Word) (s : State) : Host.Outcome State Fault Refusal :=
  .next (s.slotSet (masterCode m) sl ncfg data)

/-- A mirror acknowledgement has not come in 32 ticks: the steward proceeds (R289). -/
def State.mirrorLag (s : State) (mseq : Nat) : State :=
  match s.ptn.waiting.find? fun x => x.mseq == mseq && !s.mirrored x with
  | none => s
  | some x =>
    if !s.steward then s
    else
      let s := { s with ptn.waiting := s.ptn.waiting.filter fun w => w.mseq != mseq }
      (s.emit .MIRROR_LAG (objPartner x.partner) [(x.slot : Nat)]).sendChange x

def execMirrorLag (mseq : Nat) (s : State) : Host.Outcome State Fault Refusal := .next (s.mirrorLag mseq)

/-- ACK has not advanced for 8 ticks: every record not acknowledged is sent again (R303). -/
def execMirrorResend (s : State) : Host.Outcome State Fault Refusal :=
  .next (if s.steward then
    s.hub.mirrorOut.foldl (fun s m => s.mirrorSend m.rtype m.mseq m.data) s
  else s)

/-! ### Samples (R290, R291, R295, R296) -/

/-- GPE for the word of slot `c` that is accepted now, and the state with the losses before it marked (R19, R296). -/
def State.gpeWord (s : State) (c : Nat) : Bool × State :=
  (!(tabGet (fun _ => []) s.hub.gpeIn c).isEmpty, { s with hub.gpeIn := tabSet (fun _ => []) s.hub.gpeIn c [] })

/-- One word of an attached channel arrives: `t` is the tick its instant lies in. While the generator is stopped, none is taken (R34). -/
def State.wordIn (s : State) (c t seq : Nat) (w : Word) : State :=
  if !s.ticking then s
  else
  let last := (s.rd (Reg.PTN_SLs_SEQ c)).toNat
  let x := s.slot c
  if !seqAbove seq last then s.bump F.PTN_COUNTS_DUP 1
  else if t + 2 < s.tick.num then s.setSlot c (some { x with late := true })
  else
    let miss := (seq + 2 ^ 32 - last - 1) % 2 ^ 32
    let skipped : Bool := match x.skip with
      | some (a, n) => !seqAbove a (last + 1) && !seqAbove (last + miss) (a + n - 1)
      | none => false
    let s := if miss == 0 || skipped then s else s.remoteGap c x.cause (last + 1) miss
    let x := match x.rebase with
      | some (b, r) =>
        if b ≤ t then
          let first := firstIndex (max 1 r) (x.theta * 65536) (boundaryClock (max 1 s.rate) b)
          { x with rebase := none, rate := r, join := b, base := seq, next := first - miss }
        else x
      | none => x
    let left := if miss = 0 then x.skip else none
    let k := x.next + miss
    let down := s.routesDown c
    let s := s.setSlot c (some { x with late := false, frameBad := false, linkOut := down.1, linkBoth := down.2, skip := left, next := k + 1 })
    let s := s.wr (Reg.PTN_SLs_SEQ c) (BitVec.ofNat 32 seq)
    let g := s.gpeWord c
    let s := g.2
    let w := (w &&& 0x6FFFFFFF#32) ||| (if g.1 then 0x80000000#32 else 0#32)
    let r := max 1 x.rate
    { s with front.remIn := s.front.remIn ++
        [RemWord.mk c (t + 2) (k / r) (k % r) seq w] }

/-- SAMPLES (R291, R295). -/
def State.samplesIn (s : State) (f : FrameIn) (t epoch : Nat) (gs : List SampleGroup) : State :=
  let a := s.frameIn f
  match a.1 with
  | none => a.2
  | some p =>
    let s := a.2.sawEpoch p epoch
    match s.partner p with
    | none => s
    | some x =>
      gs.foldl (fun s g =>
        match s.slotOf x.serial g.ch with
        | none => s
        | some c =>
          if s.slotState c < 2 then s
          else (g.words.foldl (fun (a : Nat × State) w => (a.1 + 1, a.2.wordIn c t ((g.seq + a.1) % 2 ^ 32) w)) (0, s)).2) s

def execSamples (f : FrameIn) (tick epoch : Nat) (groups : List SampleGroup) (s : State) : Host.Outcome State Fault Refusal :=
  .next (s.samplesIn f tick epoch groups)

/-! ### PTN_CTRL -/

/-- PTN_CTRL has been written: clearing EN on a steward ends its stewardship at the next boundary (R297); a hub that is no pair
and whose lanes are searched becomes steward. -/
def State.ptnCtrl (s : State) : State :=
  if s.flag F.PTN_CTRL_EN then { s with ptn.stop := false }.searchedAll
  else { s with ptn.stop := s.steward }

end Sys2Proof.Machine
end

