-- ==== Sys2Proof/Machine/Sched.lean ====
section
/-!
DEFINITION. The scheduler of timed register writes (R46 to R56): the decision of a commit and of a
cancellation, and the staging registers of the four masters (R541).
-/
namespace Sys2Proof.Machine

open Sys2Proof

/-- Whether an item for tick `t` meets the lead rule at current tick `c` (R46). -/
def leadOk (c t : Nat) : Bool := decide (c + 3 ≤ t)

/-- The boundary of a late item that carries LATE_OK (R53). -/
def State.lateDue (s : State) (t : Nat) : Nat := max t s.nextDue

/-- Ordinary items in the queue. -/
def State.ordinary (s : State) : List SchedItem := s.tick.items.filter fun i => !i.late

/-- Late-path items due at boundary `b`. -/
def State.lateAt (s : State) (b : Nat) : List SchedItem := s.tick.items.filter fun i => i.late && i.due == b

/-- An address that no timed write may name: UMB, FNC, CLK/RST or the scheduler registers (R49, SCHED_TARGET). -/
def schedTargetBad (a : Nat) : Bool :=
  (decide (0x10000 ≤ a) && decide (a < 0x20000)) || a / 0x100000 == 0x13 || a / 0x100000 == 0x14
    || (decide (Reg.KLN_SCHED_TICK_LO ≤ a) && decide (a ≤ Reg.KLN_SCHED_SEQ))

/-- The result code of a commit (R49), the first condition that applies: 0x05 SCHED_NO_TIME, 0x03 SCHED_TARGET,
0x04 SCHED_FAR, 0x01 SCHED_LATE, 0x02 SCHED_FULL, 0x00 ACCEPTED. -/
def State.schedCode (s : State) (t addr : Nat) (lateOk : Bool) : Nat :=
  let c := s.tick.num
  if !s.ticking then 0x05
  else if schedTargetBad addr then 0x03
  else if c + 2 ^ 32 < t then 0x04
  else if leadOk c t then
    if 1024 ≤ s.ordinary.length || decide (128 ≤ (s.ordinary.filter fun i => i.tick == t).length) then 0x02 else 0x00
  else if !lateOk then 0x01
  else if 8 ≤ (s.lateAt (s.lateDue t)).length then 0x02
  else 0x00

/-- Commit an item (R46, R49, R53): its result code and, when it is accepted, its queueing under the next sequence
number. -/
def State.schedule (s : State) (m t addr : Nat) (data mask : Word) (lateOk : Bool) : Nat × State :=
  let code := s.schedCode t addr lateOk
  if code = 0 then
    let seq := (s.tick.seq + 1) % 2 ^ 32
    let late := !leadOk s.tick.num t
    let item : SchedItem := { seq := seq, tick := t, due := if late then s.lateDue t else t, addr := addr, data := data,
                              mask := mask, late := late, master := m }
    (0, { s with tick.seq := seq, tick.items := s.tick.items ++ [item] })
  else (code, s)

/-- Write the result registers of a master's own copy (R49, R541). -/
def State.schedResult (s : State) (m code : Nat) : State :=
  let s := s.wf (privF m F.KLN_SCHED_RESULT_CODE) code
  if code = 0 then s.wf (privF m F.KLN_SCHED_SEQ_SEQ) s.tick.seq else s

/-- COMMIT of the item staged in master `m`'s copy (R48, R49). -/
def State.schedCommit (s : State) (m : Nat) (lateOk both : Bool) : State :=
  if both then s.schedResult m 0x08
  else
    let t := s.f64 (privF m F.KLN_SCHED_TICK_LO_TICK) (privF m F.KLN_SCHED_TICK_HI_TICK)
    let addr := s.f (privF m F.KLN_SCHED_ADDR_ADDR) * 4
    let r := s.schedule m t addr (s.rd (priv m Reg.KLN_SCHED_DATA)) (s.rd (priv m Reg.KLN_SCHED_MASK)) lateOk
    r.2.schedResult m r.1

/-- The result code of a cancellation (R49, R50): 0x07 CANCEL_UNKNOWN, 0x01 SCHED_LATE, 0x06 CANCELLED. -/
def State.cancelCode (s : State) (seq : Nat) : Nat :=
  match s.tick.items.find? fun i => i.seq == seq with
  | none => 0x07
  | some i => if leadOk s.tick.num i.tick then 0x06 else 0x01

/-- CANCEL of the item whose sequence number stands in DATA of master `m`'s copy (R48 to R50). -/
def State.schedCancel (s : State) (m : Nat) (both : Bool) : State :=
  if both then s.schedResult m 0x08
  else
    let seq := (s.rd (priv m Reg.KLN_SCHED_DATA)).toNat
    let code := s.cancelCode seq
    let s := if code = 0x06 then { s with tick.items := s.tick.items.filter fun i => i.seq != seq } else s
    s.schedResult m code

/-- A write of KLN_SCHED_CMD: COMMIT [31], CANCEL [30], LATE_OK [29]. -/
def State.schedCmd (s : State) (m : Nat) (w : Word) : State :=
  let commit := w.getLsbD 31
  let cancel := w.getLsbD 30
  if commit then s.schedCommit m (w.getLsbD 29) cancel
  else if cancel then s.schedCancel m false
  else s

end Sys2Proof.Machine
end

