-- ==== Sys2Proof/Machine/Kindling.lean ====
section
/-!
DEFINITION. Kindling (R358 to R378): arming and disarming triggers, fire requests and the settle interval, ARM and FIRE frames,
condition units, captures from the history ring with rate reduction and mask tests, and skew runs.
-/
namespace Sys2Proof.Machine

open Sys2Proof

/-! ### Triggers -/

def trig0 : TrigSt :=
  { armTick := 0, set := [], settleEnd := 0, best := none, disarm := none, prevEnd := none, stopAfter := false, cap := none }

def State.trig (s : State) (u : Nat) : TrigSt := (tabGet (fun _ => none) s.knd.trigs u).getD trig0
def State.setTrig (s : State) (u : Nat) (x : TrigSt) : State :=
  { s with knd.trigs := tabSet (fun _ => none) s.knd.trigs u (some x) }

/-- STATE of trigger `u`: 0 IDLE, 1 WAIT_ARM, 2 ARMED, 3 SETTLING, 4 CAPTURING, 5 STOPPED. -/
def State.trigState (s : State) (u : Nat) : Nat := s.f (F.KND_TRu_STAT_STATE u)


/-- NET of trigger `u`. -/
def State.trigNet (s : State) (u : Nat) : Bool := s.flag (F.KND_TRu_CFG_NET u)
def State.trigNetid (s : State) (u : Nat) : Nat := s.f (F.KND_TRu_CFG_NETID u)

/-- CAUSE of a FIRE frame. -/
def causeCode : FireCause → Nat
  | .kiln => 1
  | .group => 2
  | .condition => 3
  | .mask => 4

/-- A networked trigger's state is mirrored to the peer (R302, R375). -/
def State.mirrorTrig (s : State) (u st : Nat) : State :=
  let x := s.trig u
  let fire := match x.best with | some b => if 3 ≤ st then b else (0, 0, .kiln) | none => (0, 0, .kiln)
  if s.trigNet u then
    s.mirror 0x04 [(s.trigNetid u : Int), (st : Int), (x.armTick : Int), (s.f (F.KND_TRu_PRE_PRE u) : Int),
      (s.f (F.KND_TRu_POST_POST u) : Int), (fire.1 : Int), (fire.2.1 : Int)]
  else s

/-- A trigger changes state; the steward of a pair mirrors that of a trigger with NET ("Mirrored arm state"). -/
def State.toTrig (s : State) (u st : Nat) : State :=
  let s := s.wf (F.KND_TRu_STAT_STATE u) st
  (if st = 4 then s.wf F.HUB_INT_RAW_FIRE 1 else s).mirrorTrig u st

/-- RES of trigger `u`. -/
def State.trigRes (s : State) (u code : Nat) : State := s.wf (F.KND_TRu_STAT_RES u) code

/-- A fire request that is only counted (R362). -/
def State.ignore (s : State) (u : Nat) : State := s.bump (F.KND_TRu_STAT_IGN u) 1

/-- The hub's own count of ARM and FIRE frames. -/
def State.nextSseq (s : State) : Nat × State :=
  let n := (s.knd.sseq + 1) % 2 ^ 32
  (n, { s with knd.sseq := n })

/-- A Kindling frame leaves for the group on both uplinks, with its tag at the end ("ARM and FIRE frames"). -/
def State.trigSend (s : State) (k : SentKind) (vals : List Int) (body : List Nat) : State :=
  let ip := if s.flag F.UPL_CTRL_IPV6 then [0, 1, 2, 3].flatMap fun i => leBytes 4 (s.f (F.UPL_KND_IP6_GRP i))
    else leBytes 4 (s.f F.UPL_KND_IP4_GRP)
  s.uplinkSend k vals { mac := groupMac ip, ip := ip, port := s.f F.UPL_KND_PORT_PORT }
    (body ++ wordsBytes ((List.range 4).map (Config.trigTag body)))

/-- The hub sends an ARM frame of trigger `u`: OP 1 ARM, 2 DISARM. -/
def State.sendArm (s : State) (u tick op : Nat) : State :=
  let n := s.nextSseq
  let pre := s.f (F.KND_TRu_PRE_PRE u)
  let post := s.f (F.KND_TRu_POST_POST u)
  n.2.trigSend .armFrame [(s.trigNetid u : Int), (s.serial : Int), (n.1 : Int), (tick : Int), (pre : Int), (post : Int), (op : Int)]
    ([0x01, 0x01] ++ leBytes 2 (s.trigNetid u) ++ leBytes 4 s.serial ++ leBytes 4 n.1 ++ leBytes 8 tick ++ leBytes 4 pre ++ leBytes 4 post
      ++ [op, 0, 0, 0])

/-- The hub sends a FIRE frame of trigger `u` (R364). -/
def State.sendFire (s : State) (u time : Nat) (cause : FireCause) : State :=
  let n := s.nextSseq
  n.2.trigSend .fireFrame [(s.trigNetid u : Int), (s.serial : Int), (n.1 : Int), ((s.trig u).armTick : Int), (time : Int),
    (causeCode cause : Int)]
    ([0x02, 0x01] ++ leBytes 2 (s.trigNetid u) ++ leBytes 4 s.serial ++ leBytes 4 n.1 ++ leBytes 8 (s.trig u).armTick ++ timeBytes time
      ++ [causeCode cause, 0, 0, 0])

/-! ### Arming (R359 to R361) -/

/-- The address under which the scheduler holds the arm of trigger `u`: no register's address. -/
def armAddr (u : Nat) : Nat := 2 ^ 40 + u

/-- The arm tick a write of ARM names. -/
def State.armTick (s : State) (u : Nat) : Nat := s.f64 (F.KND_TRu_ARM_LO_TICK u) (F.KND_TRu_ARM_HI_TICK u)

/-- A write of ARM by master `m` (R359). -/
def State.armCmd (s : State) (m u : Nat) (lateOk send : Bool) : State :=
  if s.trigState u ≠ 0 ∨ !s.flag (F.KND_TRu_CFG_EN u) then
    (s.trigRes u 0x03).emit .KND_BUSY (objUnit u) [(Reg.KND_TRu_CMD u : Int)]
  else
    let tick := s.armTick u
    let r := s.schedule m tick (armAddr u) 0#32 0xFFFFFFFF#32 lateOk
    if r.1 = 0 then
      let s := r.2.setTrig u { trig0 with armTick := tick }
      let s := (s.trigRes u 0x01).toTrig u 1
      if send && s.trigNet u then s.sendArm u tick 1 else s
    else s.trigRes u 0x02

/-- A write of DISARM (R360): it takes effect at the next boundary it reaches. -/
def State.disarmCmd (s : State) (u : Nat) (send : Bool) : State :=
  let x := s.trig u
  let s := s.setTrig u { x with disarm := some s.nextDue }
  if send && s.trigNet u then s.sendArm u x.armTick 2 else s

/-- A write of KND_TRu_CMD. -/
def State.trigCmd (s : State) (m u : Nat) (w : Word) : State :=
  if w.getLsbD 30 then s.disarmCmd u (w.getLsbD 28)
  else if w.getLsbD 31 then s.armCmd m u (w.getLsbD 29) (w.getLsbD 28)
  else s

def execArm (m : Master) (u : Fin 64) (lateOk send : Bool) (s : State) : Host.Outcome State Fault Refusal :=
  .next (s.armCmd (masterCode m) u lateOk send)

def execDisarm (_ : Master) (u : Fin 64) (send : Bool) (s : State) : Host.Outcome State Fault Refusal :=
  .next (s.disarmCmd u send)

/-- Channel `c` has a record with HIST in the active envelope. -/
def State.hasHist (s : State) (c : Nat) : Bool :=
  s.bankValid && (match s.recordOf s.activeBank c with | some d => bitOf d.flags 0 | none => false)

/-- The arm of trigger `u` takes effect at a boundary (R359, R361). -/
def State.armNow (s : State) (u : Nat) : State :=
  if s.trigState u ≠ 1 then s
  else
    let k := s.f (F.KND_TRu_CFG_SET u)
    let used := (List.range 256).filter fun e => s.flag (F.KND_SET_V k e)
    let bad := used.filter fun e => !s.hasHist (s.f (F.KND_SET_CH k e))
    let good := used.filter fun e => s.hasHist (s.f (F.KND_SET_CH k e))
    let set := good.map fun e => SetEntry.mk (s.f (F.KND_SET_CH k e)) (s.flag (F.KND_SET_MASK_EN k e)) (s.f (F.KND_SET_MASK k e))
    let s := bad.foldl (fun s e => s.emit .KND_SET_SKIP (objUnit u) [(s.f (F.KND_SET_CH k e) : Int)]) s
    (s.setTrig u { s.trig u with set := set }).toTrig u 2

/-- A disarm takes effect (R360). -/
def State.disarmNow (s : State) (u : Nat) : State :=
  let x := s.trig u
  let s := s.trigRes u 0x05
  if s.trigState u = 4 then s.setTrig u { x with disarm := none, stopAfter := true }
  else
    let s := { s with tick.items := s.tick.items.filter fun i => i.addr != armAddr u }
    let s := s.setTrig u { x with disarm := none, best := none }
    if s.trigState u = 0 then s else s.toTrig u 0

/-- The disarms that are due at the boundary of tick `t`. -/
def State.disarmBoundary (s : State) (t : Nat) : State :=
  (List.range 64).foldl (fun s u => match (s.trig u).disarm with
    | some b => if b ≤ t then s.disarmNow u else s
    | none => s) s

/-- Triggers in a state other than IDLE that use capture set `k` (R361). -/
def State.setBusy (s : State) (k : Nat) : Bool :=
  (List.range 64).any fun u => s.trigState u != 0 && s.f (F.KND_TRu_CFG_SET u) == k

/-- An entry with MASK_EN of a set in use names mask `m` ("Mask tests"). -/
def State.maskBusy (s : State) (m : Nat) : Bool :=
  (List.range 16).any fun k => s.setBusy k && (List.range 256).any fun e =>
    s.flag (F.KND_SET_V k e) && s.flag (F.KND_SET_MASK_EN k e) && s.f (F.KND_SET_MASK k e) == m

/-! ### Fire requests (R362 to R364) -/

/-- A fire request reaches trigger `u` (R362, R363): `net` holds the serial of the hub a FIRE frame names, none for a local
request. -/
def State.fire (s : State) (u time : Nat) (cause : FireCause) (net : Option Nat) : State :=
  let x := s.trig u
  let st := s.trigState u
  let early := decide (time < boundaryClock s.rate x.armTick) ||
    (match x.prevEnd with | some e => decide ((time : Int) < e) | none => false)
  if !s.flag F.KND_CTRL_EN || (st != 2 && st != 3) || early then s.ignore u
  else
    let first := st == 2
    let better := first || (match x.best with | some b => decide (time < b.1) | none => true)
    let x := if better then { x with best := some (time, net.getD s.serial, cause) } else x
    let x := if first then { x with settleEnd := s.tick.num + max 1 (s.f (F.KND_TRu_CFG_SETTLE u)) } else x
    let s := s.setTrig u x
    let s := if first then s.toTrig u 3 else s
    if better && net.isNone && s.trigNet u then s.sendFire u time cause else s

def execFireRequest (u : Fin 64) (time : Nat) (cause : FireCause) (s : State) : Host.Outcome State Fault Refusal :=
  .next (s.fire u time cause none)

/-! ### ARM and FIRE frames (R366, R367) -/

/-- The checks of R366: some state after an accepted frame, none after one that is discarded, with its count. -/
def State.kndFrame (s : State) (f : KndFrame) : Bool × State :=
  if f.sender = s.serial then (false, s)
  else
    let last := tabGet (fun _ => none) s.knd.sseqIn f.sender
    let newer := match last with
      | some n => (f.sseq + 2 ^ 32 - n) % 2 ^ 32 != 0 && decide ((f.sseq + 2 ^ 32 - n) % 2 ^ 32 < 2 ^ 31)
      | none => true
    if f.tagOk && f.version == 1 && newer then
      (true, { s with knd.sseqIn := tabSet (fun _ => none) s.knd.sseqIn f.sender (some f.sseq) }.bumpWrap F.KND_STAT_RX_OK 1)
    else (false, s.bump F.KND_STAT_RX_BAD 1)

/-- The triggers that a frame acts on. -/
def State.netTrigs (s : State) (netid : Nat) : List Nat :=
  (List.range 64).filter fun u => s.trigNet u && s.trigNetid u == netid

/-- An ARM with its tick from another hub reaches trigger `u` (R367). -/
def State.armFrom (s : State) (u tick pre post : Nat) : State :=
  if s.trigState u ≠ 0 ∨ !s.flag (F.KND_TRu_CFG_EN u) then s.trigRes u 0x03
  else
    let r := s.schedule 0 tick (armAddr u) 0#32 0xFFFFFFFF#32 false
    if r.1 = 0 then
      let s := (r.2.wf (F.KND_TRu_PRE_PRE u) pre).wf (F.KND_TRu_POST_POST u) post
      ((s.setTrig u { trig0 with armTick := tick }).trigRes u 0x01).toTrig u 1
    else s.trigRes u 0x04

def State.armFrame (s : State) (f : KndFrame) (pre post : Nat) (disarm : Bool) : State :=
  let r := s.kndFrame f
  if r.1 && s.flag F.KND_CTRL_EN then
    (s.netTrigs f.netid).foldl (fun s u => if disarm then s.disarmCmd u false else s.armFrom u f.armTick pre post) r.2
  else r.2

def execArmFrame (f : KndFrame) (pre post : Nat) (disarm : Bool) (s : State) : Host.Outcome State Fault Refusal :=
  .next (s.armFrame f pre post disarm)

/-- A FIRE frame for the present arm comes after the settle interval it belongs to: the capture is being made or has stopped the
trigger, or the fire time lies before the end of a capture already made. -/
def State.settled (s : State) (u time : Nat) : Bool :=
  s.trigState u == 4 || s.trigState u == 5 ||
    match (s.trig u).prevEnd with | some e => s.trigState u == 0 || decide ((time : Int) < e) | none => false

/-- A FIRE frame reaches trigger `u` (R364, R367). -/
def State.fireFrom (s : State) (u armTick time sender : Nat) (cause : FireCause) : State :=
  if (s.trig u).armTick ≠ armTick then s.ignore u
  else
    let s := if s.settled u time then s.emit .KND_FIRE_LATE (objUnit u) [(time : Int), (sender : Int)] else s
    s.fire u time cause (some sender)

def State.fireFrame (s : State) (f : KndFrame) (time : Nat) (cause : FireCause) : State :=
  let r := s.kndFrame f
  if r.1 then (s.netTrigs f.netid).foldl (fun s u => s.fireFrom u f.armTick time f.sender cause) r.2 else r.2

def execFireFrame (f : KndFrame) (time : Nat) (cause : FireCause) (s : State) : Host.Outcome State Fault Refusal :=
  .next (s.fireFrame f time cause)

/-- An ARM mirror record is applied by the peer (R375). -/
def State.armMirror (s : State) (netid st armTick pre post tf orig : Nat) : State :=
  (s.netTrigs netid).foldl (fun s u =>
    if st = 0 then s.disarmCmd u false
    else if st ≤ 2 then
      if (s.trig u).armTick = armTick then s else s.armFrom u armTick pre post
    else s.fire u tf .kiln (some orig)) s

/-! ### Condition units (R365) -/

def cond0 : CondSt := { up := false, down := false, last := [] }
def State.cond (s : State) (n : Nat) : CondSt := (tabGet (fun _ => none) s.knd.conds n).getD cond0
def State.setCond (s : State) (n : Nat) (x : CondSt) : State :=
  { s with knd.conds := tabSet (fun _ => none) s.knd.conds n (some x) }

/-- A change of a condition unit's registers has taken effect: its state is cleared. -/
def State.condTaken (s : State) (n : Nat) : State := s.setCond n cond0

/-- One word of a unit's tap with its stated instant. -/
def State.condWord (s : State) (n : Nat) (w : Word) (inst : Int) : State :=
  if w.getLsbD 24 then s
  else
    let x := s.cond n
    let d := dataOf w
    let slope := s.eflag (F.KND_CUn_CFG_TYPE n)
    let span := max 1 (s.ef (F.KND_CUn_SPAN_SPAN n))
    let thr := s.efs (F.KND_CUn_THR_THR n)
    let hyst : Int := (s.ef (F.KND_CUn_HYST_HYST n) : Nat)
    let dir := s.ef (F.KND_CUn_CFG_DIR n)
    let q : Option Int := if slope then (x.last[span - 1]?).map (d - ·) else some d
    let x := if slope then { x with last := (d :: x.last).take span } else x
    match q with
    | none => s.setCond n x
    | some q =>
      let fall := if slope then -thr else thr
      let up := (dir == 0 || dir == 2) && x.up && decide (q > thr)
      let down := (dir == 1 || dir == 2) && x.down && decide (q < fall)
      let x := { x with up := if q ≤ thr - hyst then true else if up then false else x.up,
                        down := if fall + hyst ≤ q then true else if down then false else x.down }
      let s := s.setCond n x
      if up || down then s.fire (s.ef (F.KND_CUn_CFG_TRIG n)) inst.toNat .condition none else s

/-- The words released at the close of a staging reach the condition units (R231, R365): history words and stage-5 words. -/
def State.condRelease (s : State) (hist : List (Nat × HistWord)) (made : List OutWord) : State :=
  if !s.flag F.KND_CTRL_EN then s
  else
    (List.range 32).foldl (fun s n =>
      if !s.eflag (F.KND_CUn_CFG_EN n) then s
      else
        let c := s.ef (F.KND_CUn_CFG_CH n)
        if s.eflag (F.KND_CUn_CFG_TAP n) then
          (made.filter (·.ch == c)).foldl (fun s w =>
            s.condWord n w.word ((slotClock (s.outRate true c) w.sec w.idx : Nat) + (s.represented c).1)) s
        else (hist.filter (·.1 == c)).foldl (fun s w => s.condWord n w.2.word w.2.inst) s) s

/-! ### Captures (R368 to R374) -/

/-- Words of a number of bytes, little-endian, given as pairs of value and size. -/
def packBytes (l : List (Nat × Nat)) : List Word := bytesWords (l.flatMap fun e => leBytes e.2 e.1)

/-- 5 ms, 10 ms, 400 ms and 1.9 s on the hub clock. -/
def ms5 : Nat := 5000000 * 65536
def ms10 : Nat := 10000000 * 65536
def ms400 : Nat := 400000000 * 65536
def s1900 : Nat := 1900000000 * 65536

/-- A packet of trigger `u` goes to its queue; with none named it goes nowhere. False: refused. -/
def State.putCapture (s : State) (u : Nat) (ws : List Word) : Bool × State :=
  let q := (s.rd (Reg.KND_TRu_Q u)).toNat
  if q < 4096 then s.putPacket q ws else (true, s)

/-- The head of a capture: SEC, NS and FRAC of a hub clock value. -/
def clockBytes (c : Nat) : List (Nat × Nat) := [(c / secUnits, 6), (c % secUnits / 65536, 4), (c % 65536, 2)]

/-- A SEGMENT packet. -/
def segPacket (tf : Nat) (g : Seg) : List Word :=
  packBytes [(2, 1), (g.k, 1), (g.ch, 2), (g.words.length, 2), (0, 2), (g.first, 4), (g.rate, 4), (g.seq, 4),
    (bitsOf 64 (g.start - tf), 8), (0, 4)] ++ g.words.reverse

/-- One output word of a segment (R371): the mean of its inputs `ws`, newest first. -/
def reduce (k : Nat) (gpe : Bool) (ws : List Word) : Word :=
  match ws with
  | [] => 0#32
  | w :: _ =>
    let top := if gpe then bGPE else 0
    if k = 0 then w ||| BitVec.ofNat 32 top
    else
      let st := ws.foldl (fun a w => a ||| (w.toNat &&& 0x6F000000)) (bRRD + top)
      if ws.any isInvalid then sampleWord (st ||| bOVL) (-8388608)
      else sampleWord st (rdiv (ws.map dataOf).sum (ws.length : Nat))

/-- A word joins the open mean of a segment; with 2^k inputs the mean is the segment's next word (R371). -/
def Seg.take (g : Seg) (w : Word) : Seg :=
  let ws := w :: g.grp
  if ws.length = 2 ^ g.k then { g with words := reduce g.k g.gpe ws :: g.words, grp := [], gpe := false } else { g with grp := ws }

/-- A channel's open segment closes: inputs short of a whole mean give no word. -/
def Capture.close (x : Capture) (c : CapCh) : Capture × CapCh :=
  match c.seg with
  | some g => (if g.words.isEmpty then x else { x with closed := x.closed ++ [g] }, { c with seg := none })
  | none => (x, c)

/-- A limit of a mask point. -/
def State.maskLimits (s : State) (m i : Nat) : Int × Int := (s.fs (F.KND_MKm_LO_LOWER m i), s.fs (F.KND_MKm_HI_UPPER m i))

/-- Word `n` of the window violates mask `m` (R373). -/
def State.violates (s : State) (m n : Nat) (w : Word) : Bool :=
  let step := max 1 (s.f (F.KND_MKm_STEP_STEP m))
  let pts := min 4096 (s.f (F.KND_MKm_CFG_NPTS m))
  if pts * step ≤ n ∨ isInvalid w then false
  else if w.getLsbD 24 then s.flag (F.KND_MKm_CFG_OVLFAIL m)
  else
    let l := s.maskLimits m (n / step)
    decide (dataOf w < l.1) || decide (l.2 < dataOf w)

/-- The mask test of a word of trigger `u`'s capture, and what its first violation does (R374). -/
def State.maskTest (s : State) (u : Nat) (x : Capture) (e : SetEntry) (n : Nat) (w : HistWord) : State × Capture :=
  if !e.maskOn || x.fail.isSome || !s.violates e.mask n w.word then (s, x)
  else
    let x := { x with fail := some (e.ch, n, e.mask) }
    let s := s.emit .KND_MASK_FAIL (objUnit u) [(e.ch : Int), (n : Int), (e.mask : Int)]
    (if s.flag (F.KND_MKm_CFG_MTRIG_EN e.mask) then s.fire (s.f (F.KND_MKm_CFG_MTRIG e.mask)) w.inst.toNat .mask none else s, x)

/-- One word of the window is copied (R369 to R371, R373): state, capture and channel after it. -/
def State.copyWord (s : State) (u : Nat) (a : Capture × CapCh) (w : HistWord) : State × Capture × CapCh :=
  let x := a.1
  let c := a.2
  let sameRate := match c.prev with | some p => p.2.1 == w.rate | none => true
  let absent := match c.prev with | some p => sameRate && w.grid != p.1 + 1 | none => false
  let n := match c.prev with
    | some p => if sameRate then c.n + (w.grid - p.1) else c.n + 1
    | none => 0
  let post := decide ((x.tf : Int) ≤ w.inst)
  let m := s.maskTest u x c.ent n w
  let s := m.1
  let x := m.2
  let cut := match c.seg with
    | some g => absent || !sameRate || g.post != post || (decide (g.k < x.k) && n % 2 ^ x.k == 0) || decide (4096 ≤ g.words.length)
    | none => false
  let r := if cut then x.close c else (x, c)
  let c := { r.2 with cursor := w.inst + 1, prev := some (w.grid, w.rate, w.inst), n := n, after := r.2.after || absent }
  match c.seg with
  | some g => (s, r.1, { c with seg := some (g.take w.word) })
  | none =>
    if n % 2 ^ x.k = 0 then
      let g : Seg := { ch := c.ent.ch, order := c.order, k := x.k, first := n, rate := w.rate, seq := w.seq, start := w.inst,
                       grid := w.grid, post := post, words := [], grp := [], gpe := c.after }
      (s, { r.1 with absent := r.1.absent + b2n c.after }, { c with seg := some (g.take w.word), after := false })
    else (s, r.1, c)

/-- The words of the window that stand in the ring and are not copied yet, in instant order. -/
def State.uncopied (s : State) (x : Capture) (c : CapCh) : List HistWord :=
  ((tabGet (fun _ => []) s.front.hist c.ent.ch).filter fun w => decide (c.cursor ≤ w.inst) && decide (w.inst < x.hi)).reverse

/-- A history word with a double-bit error is absent, with a gap record (R401). -/
def State.badWord (s : State) (c : Nat) (w : HistWord) : State :=
  let g := gapOne c .memEcc false w.tick (w.grid / max 1 w.rate) (w.grid % max 1 w.rate)
  s.gap { g with seq := w.seq }

/-- Everything in the ring is copied for one channel; `bad` are the words with a double-bit error, as channel and place. -/
def State.copyChan (s : State) (u : Nat) (x : Capture) (c : CapCh) (bad : List (Nat × Nat)) : State × Capture × CapCh :=
  (s.uncopied x c).foldl (fun a w =>
    if bad.contains (c.ent.ch, w.grid) then (a.1.badWord c.ent.ch w, a.2.1, { a.2.2 with cursor := w.inst + 1 })
    else a.1.copyWord u a.2 w) (s, x, c)

/-- The channels of a capture, one after the other, in set order. -/
def State.copyChans (s : State) (u : Nat) (bad : List (Nat × Nat)) : List CapCh → Capture → State × Capture × List CapCh
  | [], x => (s, x, [])
  | c :: r, x =>
    if c.done then
      let z := s.copyChans u bad r x
      (z.1, z.2.1, c :: z.2.2)
    else
      let a := s.copyChan u x c bad
      let newest := (tabGet (fun _ => []) s.front.hist c.ent.ch).head?
      let ovr := match newest with | some w => decide (x.hi ≤ w.inst) | none => false
      let b := if ovr then a.2.1.close a.2.2 else (a.2.1, a.2.2)
      let z := a.1.copyChans u bad r b.1
      (z.1, z.2.1, { b.2 with done := ovr } :: z.2.2)

/-- Instant and set order of two segments compared. -/
def segBefore (a b : Int × Nat) : Bool := decide (a.1 < b.1) || (a.1 == b.1 && decide (a.2 < b.2))

/-- The earliest closed segment. -/
def firstSeg : List Seg → Option Seg
  | [] => none
  | g :: r => match firstSeg r with
    | some h => some (if segBefore (h.start, h.order) (g.start, g.order) then h else g)
    | none => some g

/-- Closed segments that no channel's later words can precede are written ("The capture record"); false when one is refused. -/
def State.writeSegs (s : State) (u : Nat) (x : Capture) : Nat → Bool × State × Capture
  | 0 => (true, s, x)
  | k + 1 =>
    let bounds := (x.chans.filter fun c => !c.done).map fun c =>
      (match c.seg with | some g => g.start | none => c.cursor, c.order)
    match firstSeg x.closed with
    | none => (true, s, x)
    | some g =>
      if bounds.all fun b => segBefore (g.start, g.order) b then
        let r := s.putCapture u (segPacket x.tf g)
        if r.1 then
          r.2.writeSegs u { x with closed := x.closed.filter fun h => !(h.order == g.order && h.start == g.start),
                                   words := x.words + g.words.length } k
        else (false, r.2, x)
      else (true, s, x)

/-- The END packet and what follows it: a frozen capture is pinned (R369, R374, R447). -/
def State.endCapture (s : State) (u : Nat) (x : Capture) (trunc : Bool) : State :=
  let f := x.fail.getD (0xFFFF, 0, 0)
  let flags := b2n (0 < x.k) + 2 * b2n trunc + 12 * b2n x.fail.isSome + 16 * b2n (0 < x.absent)
  let ws := packBytes [(3, 1), (x.k, 1), (flags, 2), (x.id, 4), (x.words, 4), (min 65535 x.absent, 2), (f.1, 2), (f.2.1, 4),
    (f.2.2, 1), (0, 3), (s.tick.num, 8)]
  let s := (s.putCapture u ws).2
  let s := s.emit .KND_CAPTURE_END (objUnit u) [(x.id : Int), (x.words : Int)]
  let s := s.bumpWrap (F.KND_TRu_STAT_CAPS u) 1
  let y := s.trig u
  let stays := x.fail.isSome && !y.stopAfter
  let s := s.setTrig u { y with cap := none, prevEnd := some x.hi, stopAfter := false, best := if stays then y.best else none }
  let q := (s.rd (Reg.KND_TRu_Q u)).toNat
  let s := if x.fail.isSome && decide (q < 4096) then s.addPin q y.settleEnd s.tick.num else s
  if stays then s.toTrig u 5
  else if s.flag (F.KND_TRu_CFG_REARM u) && !y.stopAfter then s.toTrig u 2
  else s.toTrig u 0

/-- The gap record of the uncopied part of one channel's window (R372): from grid place `g` at rate `r`, whose instant `inst` is that
of place `g0`. -/
def State.truncGap (s : State) (u : Nat) (x : Capture) (ch g0 : Nat) (inst : Int) (g r : Nat) : State :=
  let span := ((x.hi - inst) * r + (secUnits : Nat) - 1) / (secUnits : Nat)
  let last := (g0 : Int) + span - 1
  if last < g ∨ r = 0 then s
  else
    let l := last.toNat
    let n := max 1 s.rate
    let clock (k : Nat) : Nat := (inst + ((k : Int) - g0) * (secUnits : Nat) / r).toNat
    let q := (s.rd (Reg.KND_TRu_Q u)).toNat
    s.gap { ch := ch, cause := .captureTrunc, queueWide := false, conv := false, merged := false, inexact := false,
            queue := if q < 4096 then q else 0xFFFF, firstTick := tickOfClock n (clock g), lastTick := tickOfClock n (clock l),
            firstSec := g / r, firstIdx := g % r, lastSec := l / r, lastIdx := l % r, seq := 0, count := l + 1 - g }

/-- One channel's gap record at a truncation: from its first input that no written segment holds. -/
def State.truncChan (s : State) (u : Nat) (x : Capture) (c : CapCh) : State :=
  match firstSeg (x.closed.filter fun g => g.order == c.order) with
  | some g => s.truncGap u x c.ent.ch g.grid g.start g.grid g.rate
  | none => match c.prev with
    | some p => s.truncGap u x c.ent.ch p.1 p.2.2 (p.1 + 1) p.2.1
    | none => match s.uncopied x c with
      | w :: _ => s.truncGap u x c.ent.ch w.grid w.inst w.grid w.rate
      | [] =>
        let r := (rates (s.chrSet true c.ent.ch) (s.inRate true c.ent.ch)).1
        s.truncGap u x c.ent.ch (firstIndex r (s.rho1 c.ent.ch) x.lo.toNat)
          ((slotClock r 0 (firstIndex r (s.rho1 c.ent.ch) x.lo.toNat) : Nat) + s.rho1 c.ent.ch)
          (firstIndex r (s.rho1 c.ent.ch) x.lo.toNat) r

/-- Every open segment closes. -/
def Capture.closeAll (x : Capture) : Capture :=
  let l := x.chans
  l.foldl (fun x c =>
    let r := x.close c
    { r.1 with chans := r.1.chans ++ [{ r.2 with done := true }] }) { x with chans := [] }

/-- The capture is ended before its window is copied (R372). -/
def State.truncate (s : State) (u : Nat) (x : Capture) : State :=
  let x := x.closeAll
  let r := s.writeSegs u x x.closed.length
  let s := r.2.2.chans.foldl (fun s c => s.truncChan u r.2.2 c) r.2.1
  let s := s.emit .KND_TRUNCATED (objUnit u) [(x.id : Int)]
  s.endCapture u r.2.2 true

/-- The capture outruns storage (R371). -/
def State.outruns (s : State) (u : Nat) (x : Capture) : Bool :=
  let q := (s.rd (Reg.KND_TRu_Q u)).toNat
  (decide (q < 4096) && s.flag (F.QMG_Qq_STAT_DEEP q)) ||
    x.chans.any fun c => match s.uncopied x c with
      | w :: _ => decide (w.inst + s1900 < s.tick.clock)
      | [] => false

/-- The exponent rises, at most once in 10 ms (R371). -/
def State.raiseK (s : State) (u : Nat) (x : Capture) : State × Capture :=
  let due := match x.kAt with | some c => decide (c + ms10 ≤ s.tick.clock) | none => true
  if s.outruns u x && decide (x.k < 4) && due then
    (s.wf (F.KND_TRu_STAT_RDIV u) (x.k + 1), { x with k := x.k + 1, kAt := some s.tick.clock })
  else (s, x)

/-- Words that stand in the ring are copied (R369). -/
def State.captureCopy (s : State) (u : Nat) (bad : List (Nat × Nat)) : State :=
  match (s.trig u).cap with
  | none => s
  | some x =>
    let k := s.raiseK u x
    let a := k.1.copyChans u bad x.chans k.2
    let x := { a.2.1 with chans := a.2.2 }
    let r := a.1.writeSegs u x x.closed.length
    if r.1 then r.2.1.setTrig u { r.2.1.trig u with cap := some r.2.2 } else r.2.1.truncate u r.2.2

def execCaptureCopy (u : Fin 64) (bad : List (Nat × Nat)) (s : State) : Host.Outcome State Fault Refusal :=
  .next (s.captureCopy u bad)

/-- 10 ms after the exponent has reached 4 the capture still outruns storage (R372). -/
def State.captureTruncate (s : State) (u : Nat) : State :=
  match (s.trig u).cap with
  | none => s
  | some x =>
    let late := match x.kAt with | some c => decide (c + ms10 ≤ s.tick.clock) | none => false
    if x.k == 4 && late && s.outruns u x then s.truncate u x else s

def execCaptureTruncate (u : Fin 64) (s : State) : Host.Outcome State Fault Refusal := .next (s.captureTruncate u)

/-- The last words of the window stand in the ring (R369). -/
def State.windowIn (s : State) (x : Capture) : Bool :=
  decide (tickOfClock (max 1 s.rate) (x.hi - 1).toNat + 2 ≤ s.tick.num) && s.tick.stagingClosed

/-- The capture completes: what is left is copied, every segment written, and the capture ends (R369). -/
def State.captureEnd (s : State) (u : Nat) : State :=
  match (s.trig u).cap with
  | none => s
  | some x =>
    if !(s.windowIn x || x.chans.all (·.done)) then s
    else
      let a := s.copyChans u [] x.chans x
      let x := { a.2.1 with chans := a.2.2 }.closeAll
      let r := a.1.writeSegs u x x.closed.length
      if r.1 then r.2.1.endCapture u r.2.2 false else r.2.1.truncate u r.2.2

def execCaptureEnd (u : Fin 64) (s : State) : Host.Outcome State Fault Refusal := .next (s.captureEnd u)

/-- The capture begins at the settle boundary (R363, R369): registers, record and HEADER. -/
def State.startCapture (s : State) (u : Nat) (b : Nat × Nat × FireCause) : State :=
  let y := s.trig u
  let tf := b.1
  let s := (s.wr (Reg.KND_TRu_FT_SLO u) (BitVec.ofNat 32 (tf / secUnits))).wf (F.KND_TRu_FT_SHI_SEC u) (tf / secUnits / 2 ^ 32)
  let s := (s.wf (F.KND_TRu_FT_NS_NS u) (tf % secUnits / 65536)).wf (F.KND_TRu_FT_FRAC_FRAC u) (tf % 65536)
  let s := s.wr (Reg.KND_TRu_ORIG u) (BitVec.ofNat 32 b.2.1)
  let s := s.emit .KND_FIRE (objUnit u) [(tf : Int), (b.2.1 : Int)]
  let pre := s.f (F.KND_TRu_PRE_PRE u)
  let post := s.f (F.KND_TRu_POST_POST u)
  let lo : Int := (tf : Int) - pre * 65536000
  let n := y.set.length
  let chans := (List.range n).zipWith (fun i e => CapCh.mk e i lo none 0 none false false) y.set
  let x : Capture := { id := s.knd.capid, tf := tf, orig := b.2.1, cause := b.2.2, lo := lo, hi := (tf : Int) + post * 65536000, k := 0,
                       kAt := none, chans := chans, closed := [], absent := 0, words := 0, fail := none }
  let s := { s with knd.capid := (s.knd.capid + 1) % 2 ^ 32 }
  let s := (s.setTrig u { y with cap := some x }).toTrig u 4
  let s := s.wf (F.KND_TRu_STAT_RDIV u) 0
  let head := packBytes ([(1, 1), (1, 1), (u, 1), (s.f (F.KND_TRu_CFG_SET u), 1), (x.id, 4), (s.serial, 4), (s.trigNetid u, 2),
    (causeCode b.2.2, 1), (n, 1)] ++ clockBytes tf ++ [(b.2.1, 4), (y.armTick, 8), (pre, 4), (post, 4), (0, 16)])
  let r := s.putCapture u head
  if r.1 then r.2.captureCopy u [] else r.2.truncate u x

/-- The settle interval of trigger `u` ends (R363, R368), not before its boundary. -/
def State.settleEnd (s : State) (u : Nat) : State :=
  let y := s.trig u
  match s.trigState u == 3 && decide (y.settleEnd ≤ s.tick.num), y.best with
  | true, some b =>
    if b.1 + ms400 < boundaryClock s.rate s.tick.num then
      ((s.emit .KND_FIRE_STALE (objUnit u) [(b.1 : Int)]).setTrig u { y with best := none }).toTrig u 2
    else s.startCapture u b
  | _, _ => s

def execSettleIntervalEnd (u : Fin 64) (s : State) : Host.Outcome State Fault Refusal := .next (s.settleEnd u)

/-! ### Skew runs (R376 to R378) -/

/-- PHASE 0 IDLE, 1 WAIT, 2 PULSING, 3 DONE, 4 APPLIED. -/
def State.skewPhase (s : State) : Nat := s.f F.KND_SK_STAT_PHASE

/-- The duties of the selected clusters are in a visit with PHASE SHADOW or HANDED. -/
def State.skewWaits (s : State) : Bool :=
  (List.range 12).any fun n => bitOf (s.f F.KND_SK_SEL_CLUSTERS) n && (s.visit n).isSome &&
    (s.f (F.CNV_ROLE_PHASE n) == 1 || s.f (F.CNV_ROLE_PHASE n) == 2)

/-- START (R376). -/
def State.skewStart (s : State) : State :=
  let armed := match s.front.session with | some x => x.chans.any fun y => s.skewChan y.ch | none => false
  if s.knd.run.isSome || armed then s.wf F.KND_SK_STAT_RES 2
  else
    let run : SkewRun := { earliest := s.tick.num + 3, ts := none, pulses := 0, high := false, chans := [], bad := [], srcs := [], seen := [] }
    { s with knd.run := some run }.wf F.KND_SK_STAT_PHASE 1

/-- The steward asks the selected partners for their pulse, or gives each slot its own setting back (R376): a SET effective at this tick, mirrored
as every change is (R289). -/
def State.skewSet (s : State) (on : Bool) : State :=
  if !s.steward then s
  else
    s.front.remote.foldl (fun s e =>
      let c := e.1
      if !s.skewChan c then s
      else match e.2 with
        | some r =>
          let x : Change := { op := 3, partner := s.f (F.PTN_SLs_STAT_PARTNER c), slot := c, ch := s.f (F.PTN_SLs_STAT_NODE_CH c), arg0 := r.rate,
                              arg1 := if on then s.rd Reg.KND_SK_NCFG else s.rd (Reg.PTN_SLs_NCFG c), rateReg := none, ncfgReg := none,
                              tick := 0, mseq := 0, cseq := 0, repeats := 0 }
          (s.nodeCfg x (s.rd (Reg.PTN_SLs_ID c)).toNat x.state s.tick.num 0).command x s.tick.num
        | none => s) s

/-- A waiting run begins at the boundary of tick `t` (R376). -/
def State.skewBoundary (s : State) (t : Nat) : State :=
  match s.knd.run with
  | some r =>
    if r.ts.isNone && decide (r.earliest ≤ t) && !s.skewWaits then
      let s := { s with knd.run := some { r with ts := some t } }
      ((s.wf F.KND_SK_STAT_PHASE 2).wf64 F.KND_SK_TICK_LO_TICK F.KND_SK_TICK_HI_TICK t).skewSet true
    else s
  | none => s

/-- The instant at which pulse `j` of a run rises. -/
def State.pulseRise (s : State) (ts j : Nat) : Nat := boundaryClock s.rate ts + j * ms10 + 2000000 * 65536

/-- Nominal delay of a local channel's anti-alias filter in 2^-16 ns ("Anti-alias filters and their delay"). -/
def State.aafDelay (s : State) (c : Nat) : Int :=
  if 96 ≤ c then 0
  else if s.ef (F.AFE_CH_CFG_MODE c) = 4 then 54 * 65536
  else match s.ef (F.AFE_CH_CFG_AAF c) with
    | 0 => 216000 * 65536
    | 1 => 21600 * 65536
    | 2 => 2160 * 65536
    | _ => 216 * 65536

/-- Sum and number of some words. -/
def sumCount (l : List HistWord) : Int × Nat := ((l.map fun w => dataOf w.word).sum, l.length)

/-- The first crossing of level `num / den` by linear interpolation between two words, oldest first. -/
def crossing (num den : Int) (up : Bool) : List HistWord → Option Int
  | a :: b :: r =>
    let va := dataOf a.word * den
    let vb := dataOf b.word * den
    if (if up then decide (va < num) && decide (num ≤ vb) else decide (num < va) && decide (vb ≤ num)) then
      some (a.inst + rdivs ((b.inst - a.inst) * (num - va)) (vb - va))
    else crossing num den up (b :: r)
  | _ => none

/-- The lateness of channel `c` for the pulse that rises at `rise` (R377), in 2^-16 ns; none when it is not measured, and true
when a window holds OVL, CMF or a gap. -/
def State.lateness (s : State) (c rise : Nat) : Option Int × Bool :=
  let l := (tabGet (fun _ => []) s.front.hist c).reverse
  let within (a b : Int) := l.filter fun w => decide (a ≤ w.inst) && decide (w.inst < b)
  let r : Int := (rise : Int)
  let base := within (r - 500000 * 65536) r
  let top := within (r + 4000000 * 65536) (r + 5000000 * 65536)
  let all := within (r - 500000 * 65536) (r + 5000000 * 65536)
  let dirty := (base ++ top).any fun w => w.word.getLsbD 24 || w.word.getLsbD 25
  let broken := (all.zip (all.drop 1)).any fun p => p.2.grid != p.1.grid + 1
  let b := sumCount base
  let h := sumCount top
  if dirty || broken then (none, true)
  else if b.2 = 0 ∨ h.2 = 0 then (none, false)
  else
    let num := b.1 * h.2 + h.1 * b.2
    let den : Int := 2 * (b.2 : Int) * h.2
    (((crossing num den (decide (b.1 * h.2 < h.1 * b.2)) all).map fun t => t - r - s.aafDelay c), false)

/-- The selected channels that can be measured: local channels and attached slots. -/
def State.skewList (s : State) : List Nat :=
  ((List.range 96).filter (s.skewChan ·)) ++ (s.front.remote.map (·.1)).filter (s.skewChan ·)

/-- Every selected channel is measured for the pulse that rose at `rise`. -/
def State.skewMeasure (s : State) (r : SkewRun) (rise : Nat) : SkewRun :=
  s.skewList.foldl (fun r c =>
    let m := s.lateness c rise
    let r := if m.2 then { r with bad := c :: r.bad } else r
    match m.1 with
    | some v => { r with chans := tabSet (fun _ => []) r.chans c (v :: tabGet (fun _ => []) r.chans c) }
    | none => r) r

/-- The pulse sources of the selected clusters step to level `b`. -/
def State.pulseOut (s : State) (b : Nat) : State := s.send .testPulse 0 [(s.f F.KND_SK_SEL_CLUSTERS : Int), (b : Int)]

/-- A test pulse rises, or falls 5 ms later (R376), not before its instant: each selected cluster's pulse source steps; before a rise
the pulse before it is measured. -/
def State.skewPulse (s : State) : State :=
  match s.knd.run with
  | none => s
  | some r => match r.ts with
    | none => s
    | some ts =>
      let np := max 1 (s.f F.KND_SK_CFG_NP)
      if r.high then
        if s.tick.clock < s.pulseRise ts (r.pulses - 1) + ms5 then s
        else { s with knd.run := some { r with high := false } }.pulseOut 0
      else if np ≤ r.pulses ∨ s.tick.clock < s.pulseRise ts r.pulses then s
      else
        let r := if r.pulses = 0 then r else s.skewMeasure r (s.pulseRise ts (r.pulses - 1))
        { s with knd.run := some { r with high := true, pulses := r.pulses + 1, seen := [] } }.pulseOut 1

def execSkewPulse (s : State) : Host.Outcome State Fault Refusal := .next s.skewPulse

/-- The median of latenesses in 2^-8 ns, as KND_SK_CHc and KND_SK_SRCs hold it. -/
def skewWord (l : List Int) : Word := BitVec.ofInt 32 (medianDiv l 256)

/-- The run ends (R377), at Ts + NP × 10 ms + 2 ms or later: medians over the pulses. -/
def State.skewDone (s : State) : State :=
  match s.knd.run with
  | none => s
  | some r => match r.ts with
    | none => s
    | some ts =>
      let np := max 1 (s.f F.KND_SK_CFG_NP)
      if r.pulses < np ∨ r.high ∨ s.tick.clock < s.pulseRise ts np then s
      else
      let r := s.skewMeasure r (s.pulseRise ts (r.pulses - 1))
      let full (c : Nat) : Nat := (rates (s.chrSet true c) (s.inRate true c)).1
      let good (c : Nat) : Bool := decide (1600 ≤ full c) && !r.bad.contains c && decide (np ≤ 2 * (tabGet (fun _ => []) r.chans c).length)
      let srcs := r.srcs.filter fun e => decide (np ≤ 2 * e.2.length)
      let chans := r.chans.filter fun e => good e.1
      let none' := 0x80000000#32
      let s := (List.range 4192).foldl (fun s c => s.wr (Reg.KND_SK_CHc c) none') s
      let s := (List.range 96).foldl (fun s c => s.wr (Reg.KND_SK_SRCs (16 + c)) none') s
      let s := chans.foldl (fun s e => s.wr (Reg.KND_SK_CHc e.1) (skewWord e.2)) s
      let s := srcs.foldl (fun s e => s.wr (Reg.KND_SK_SRCs e.1) (skewWord e.2)) s
      let s := s.skewSet false
      let s := { s with knd.run := none, knd.ran := some (ts, s.tick.num, s.skewList) }
      let s := ((s.wf F.KND_SK_STAT_PHASE 3).wf F.KND_SK_STAT_RES 1).wf F.KND_SK_STAT_COUNT (chans.length + srcs.length)
      s.emit .KND_SKEW_DONE 0 ((List.range 4).map fun t => s.fs (F.UMB_SENSs_VALUE t))

def execSkewRunDone (s : State) : Host.Outcome State Fault Refusal := .next s.skewDone

/-- ABORT (R376): the run ends and keeps no results. -/
def State.skewStop (s : State) : State :=
  match s.knd.run with
  | none => s
  | some r =>
    let s := if r.ts.isSome then s.skewSet false else s
    let past := match r.ts with | some ts => some (ts, s.tick.num, s.skewList) | none => s.knd.ran
    ({ s with knd.run := none, knd.ran := past }.wf F.KND_SK_STAT_PHASE 0).wf F.KND_SK_STAT_RES 3

def execStart (_ : Master) (s : State) : Host.Outcome State Fault Refusal := .next s.skewStart
def execSkewAbort (_ : Master) (s : State) : Host.Outcome State Fault Refusal := .next s.skewStop

/-- APPLY (R378): taken while PHASE is DONE, at the next boundary. -/
def State.skewApply (s : State) : State :=
  if s.skewPhase = 3 then { s with knd.apply := some s.nextDue } else s

def execApply (_ : Master) (s : State) : Host.Outcome State Fault Refusal := .next s.skewApply

/-- A write of KND_SK_CMD. -/
def State.skewCmd (s : State) (w : Word) : State :=
  let s := if w.getLsbD 29 then s.skewStop else s
  let s := if w.getLsbD 30 then s.skewApply else s
  if w.getLsbD 31 then s.skewStart else s

/-- Whole samples of a channel's total delay, as R229 counts its changes. -/
def State.wholeDelay (s : State) (c : Nat) : Int :=
  let x := s.chrSet true c
  let r := if x.out then s.outRate true c else (rates x (s.inRate true c)).1
  ((s.skewed c r x).w : Int) + (if x.frac then 3 else 0)

/-- The result of channel `c` becomes its skew delay (R378, R229). -/
def State.skewTake (s : State) (c : Nat) (e : Int) : State :=
  let x := s.chrSet true c
  let r := if x.out then s.outRate true c else (rates x (s.inRate true c)).1
  let low : Bool := if x.frac then decide (256 * (x.w : Int) + (x.phi : Int) + rdiv (e * r) 1000000000 < 0)
    else decide ((x.w : Int) + rdiv (e * r) 256000000000 < 0)
  if low then s.emit .SKEW_RANGE (objChannel c) []
  else
    let old := s.wholeDelay c
    let s := { s with knd.skew := tabSet (fun _ => 0) s.knd.skew c e }
    let d := s.wholeDelay c - old
    if d = 0 ∨ !x.en then s else (s.delayStep c x.out d).gdChange c

/-- APPLY takes effect at the boundary of tick `t` (R378). -/
def State.applyBoundary (s : State) (t : Nat) : State :=
  match s.knd.apply with
  | some b =>
    if t < b then s
    else
      let s := { s with knd.apply := none }
      let s := (List.range 96).foldl (fun s c =>
        let w := s.rd (Reg.KND_SK_SRCs (16 + c))
        if w = 0x80000000#32 then s
        else s.wr (Reg.EDG_Ss_OFS (16 + c)) (s.rd (Reg.EDG_Ss_OFS (16 + c)) + BitVec.ofInt 32 (w.toInt * 256))) s
      let s := (List.range 4192).foldl (fun s c =>
        let w := s.rd (Reg.KND_SK_CHc c)
        if w = 0x80000000#32 then s else s.skewTake c w.toInt) s
      s.wf F.KND_SK_STAT_PHASE 4
  | none => s

end Sys2Proof.Machine
end

