-- ==== Sys2Proof/Machine/Edge.lean ====
section
/-!
DEFINITION. The edge timer (R339 to R355): stamping an edge, dead time and the rate limit, releasing stamps in order, edge records,
interval units and event groups.
-/
namespace Sys2Proof.Machine

open Sys2Proof

/-! ### Sources -/

def interp0 : Interp := { p := 32, z := 0, busy := 0, stale := false }
def edgeSrc0 : EdgeSrc :=
  { interps := [interp0, interp0], last := none, credit := 0, refill := 0, fullAt := none, missed := false, ovr := false,
    overEp := false, calEp := false, comp := none }

def State.edgeSrc (s : State) (e : Nat) : EdgeSrc := (tabGet (fun _ => none) s.edg.srcs e).getD edgeSrc0
def State.setEdgeSrc (s : State) (e : Nat) (x : EdgeSrc) : State :=
  { s with edg.srcs := tabSet (fun _ => none) s.edg.srcs e (some x) }

/-- FLAGS of an edge record ("Edge records"). -/
def eRISE : Nat := 1
def eMISSED : Nat := 2
def eOVERRATE : Nat := 4
def eSETTLE : Nat := 8
def eCMF : Nat := 16
def eHLD : Nat := 32
def eCALSTALE : Nat := 64
def eTIMEOUT : Nat := 128

/-- One step of the timer, 39.0625 ps, in 2^-16 ns (R342). -/
def edgeStep : Int := 2560

/-- Source `e` runs. -/
def State.edgeOn (s : State) (e : Nat) : Bool := s.eflag F.EDG_CTRL_EN && s.eflag (F.EDG_Ss_CFG_EN e)

/-- The source emits an edge of this direction to the timer (R155, R340). -/
def State.edgeTaken (s : State) (e : Nat) (rise : Bool) : Bool :=
  if e < 16 then
    let p := s.ef (F.EDG_Ss_CFG_POL e)
    p == 2 || (p == 0 && rise) || (p == 1 && !rise)
  else
    let c := e - 16
    let p := s.ef (F.AFE_CH_AE_POL c)
    s.ef (F.AFE_CH_CFG_MODE c) == 4 && s.eflag (F.AFE_CH_AE_CMP_EN c) && (p == 2 || (p == 0 && rise) || (p == 1 && !rise))

/-- IN_RATE of the source's record in the active envelope. -/
def State.edgeInRate (s : State) (e : Nat) : Nat :=
  if s.bankValid then (match s.edgeRecord s.activeBank e with | some d => d.inRate | none => 0) else 0

/-- The largest credit count of a rate, in units of 2^-16 ns × events/s (R346). -/
def creditMax (rate : Nat) : Nat := max secUnits (rate * secUnits / 1000)

/-- The credit count brought up to hub clock `now`, with the end of an over-rate episode (R346). -/
def refill (x : EdgeSrc) (rate now : Nat) : EdgeSrc :=
  let full := creditMax rate
  let c := x.credit + (now - x.refill) * rate
  let at' : Option Nat := if full ≤ c then (match x.fullAt with
      | some a => some a
      | none => some (now - (c - full) / max 1 rate)) else none
  let calm := match at' with | some a => decide (a + 65536000000 ≤ now) | none => false
  { x with credit := min full c, refill := now, fullAt := at', overEp := x.overEp && !calm }

/-- A new calibration of an interpolator (R342): P and z are kept when it fails. -/
def Interp.calibrate (x : Interp) (u1 u2 : Int) : Interp :=
  let p := u2 - u1
  let z := 2 * u1 - u2
  if decide (28 ≤ p) && decide (p ≤ 36) && decide (-8 ≤ z) && decide (z ≤ 8) then { x with p := p, z := z, stale := false }
  else { x with stale := true }

/-- The stamp of R342, in 2^-16 ns. -/
def stampOf (x : Interp) (e : EdgeMeas) (lat ofs : Int) : Int :=
  (e.h : Int) - rdivs (32 * (e.u - x.z)) x.p * edgeStep - lat - ofs

/-! ### Groups and interval units -/

def interval0 : Interval := { start := none, missed := false, count := 0, last := none, shown := (0, none) }
def State.interval (s : State) (i : Nat) : Interval := (tabGet (fun _ => none) s.edg.intervals i).getD interval0
def State.setInterval (s : State) (i : Nat) (x : Interval) : State :=
  { s with edg.intervals := tabSet (fun _ => none) s.edg.intervals i (some x) }

def group0 : GroupSt := { open' := none, lost := false, holdoff := none, holding := false, missed := false, count := 0, last := none, shown := (0, none) }
def State.group (s : State) (g : Nat) : GroupSt := (tabGet (fun _ => none) s.edg.groups g).getD group0
def State.setGroup (s : State) (g : Nat) (x : GroupSt) : State :=
  { s with edg.groups := tabSet (fun _ => none) s.edg.groups g (some x) }

/-- The source of member `k` of group `g`; 0xFF: none. -/
def State.member (s : State) (g k : Nat) : Nat :=
  let w := if k < 4 then s.eff (Reg.EDG_Gg_MEM0 g) else s.eff (Reg.EDG_Gg_MEM1 g)
  w.toNat / 2 ^ (8 * (k % 4)) % 256

/-- Member indices that source `e` has in group `g`, and the configured ones. -/
def State.memberOf (s : State) (g e : Nat) : List Nat := (List.range 8).filter fun k => s.member g k == e
def State.members (s : State) (g : Nat) : List Nat := (List.range 8).filter fun k => decide (s.member g k < 112)

/-- A direction setting takes an edge: 0 rising, 1 falling, 2 either. -/
def dirTakes (pol : Nat) (rise : Bool) : Bool := pol == 2 || (pol == 0 && rise) || (pol == 1 && !rise)

/-- What an edge of source `e` is to interval units and groups by the settings in force (R341, R349, R351); a source in a skew run delivers
none to them (R376). -/
def State.edgeUnits (s : State) (e : Nat) (rise : Bool) : List (Nat × Bool × Bool) × List (Nat × List Nat) :=
  if decide (16 ≤ e) && s.skewSys (e - 16) then ([], [])
  else
    let role (i : Nat) : Nat × Bool × Bool :=
      (i, s.ef (F.EDG_Ii_CFG_START i) == e && dirTakes (s.ef (F.EDG_Ii_CFG_SPOL i)) rise,
        s.ef (F.EDG_Ii_CFG_STOP i) == e && dirTakes (s.ef (F.EDG_Ii_CFG_PPOL i)) rise)
    ((((List.range 16).filter fun i => s.eflag (F.EDG_Ii_CFG_EN i)).map role).filter fun x => x.2.1 || x.2.2,
     (((List.range 32).filter fun g => s.eflag (F.EDG_Gg_CFG_EN g)).map fun g => (g, s.memberOf g e)).filter fun x => !x.2.isEmpty)

/-- An edge of source `e` is lost (R343, R346): open groups of its own carry MISSED (R351). -/
def State.edgeLost (s : State) (e : Nat) : State :=
  (List.range 32).foldl (fun s g =>
    let x := s.group g
    if x.open'.isSome && !(s.memberOf g e).isEmpty then s.setGroup g { x with lost := true } else s) s

/-- A stamp goes to its place in the FIFO (R347): by stamp, then by source. -/
def fifoInsert (t : Stamp) : List Stamp → List Stamp
  | [] => [t]
  | x :: r => if t.at' < x.at' ∨ (t.at' = x.at' ∧ t.src < x.src) then t :: x :: r else x :: fifoInsert t r

/-- The first edge of a comparator source after a pulse of a skew run rises is its lateness (R377). -/
def State.skewEdge (s : State) (e : Nat) (stamp : Int) : State :=
  match s.knd.run with
  | none => s
  | some r => match r.ts with
    | none => s
    | some ts =>
      let rise := s.pulseRise ts (r.pulses - 1)
      if e < 16 ∨ !s.skewChan (e - 16) ∨ r.seen.contains e ∨ r.pulses = 0 ∨ stamp < rise then s
      else
        let l := (stamp - (rise : Int)) :: tabGet (fun _ => []) r.srcs e
        let r := { r with seen := e :: r.seen, srcs := tabSet (fun _ => []) r.srcs e l }
        { s with knd.run := some r }

/-- The comparator of source `e` has re-armed since its last edge: LOCKOUT µs have passed, and the signal has come back inside the threshold by
at least HYST (R155). One re-arm serves both polarities. -/
def State.compArmed (s : State) (e : Nat) (t : Int) (back : Nat) : Bool :=
  decide (e < 16) || (match (s.edgeSrc e).comp with
    | none => true
    | some l => decide (l + 65536000 * (s.ef (F.AFE_CH_AE_LOCKOUT (e - 16)) : Nat) ≤ t) && decide (s.ef (F.AFE_CH_AE_HYST (e - 16)) ≤ back))

/-- An edge of source `e` (R155, R342 to R346). -/
def State.edgeArrival (s : State) (e : Nat) (rise : Bool) (m : EdgeMeas) : State :=
  let t := (m.h : Int) - m.u * edgeStep
  if !s.edgeTaken e rise || !s.compArmed e t m.back then s
  else
  let s := if e < 16 then s else s.setEdgeSrc e { s.edgeSrc e with comp := some t }
  if !s.edgeOn e then s
  else
    let x := s.edgeSrc e
    if s.genState ≠ 1 then s.bump (F.EDG_Ss_CNT_DEAD e) 1
    else
      let apart := match x.last with | some l => decide (l + 196608 ≤ t) | none => true
      let free (k : Nat) : Bool := match x.interps[k]? with | some i => decide ((i.busy : Int) ≤ t) | none => false
      let pick := if free 0 then some 0 else if free 1 then some 1 else none
      match apart, pick with
      | true, some k =>
        let i := (x.interps.getD k interp0).calibrate m.u1 m.u2
        let stamp := stampOf i m (s.f (F.EDG_Ss_LAT_LAT e) : Nat) (s.efs (F.EDG_Ss_OFS_OFS e))
        let newCal := i.stale && !x.calEp
        let rate := s.edgeInRate e
        let l := listSet x.interps k { i with busy := (t + 720896).toNat }
        let y := refill { x with interps := l, last := some t, calEp := l.any (·.stale) } rate s.tick.clock
        let s := s.bumpWrap (F.EDG_Ss_CNT_ACC e) 1
        let s := if newCal then s.emit .INTERP_CAL_BAD (objUnit e) [] else s
        if y.credit < secUnits then
          let s := (s.setEdgeSrc e { y with missed := true, ovr := true, overEp := true }).bump (F.EDG_Ss_CNT_OVER e) 1
          let s := if y.overEp then s else s.emit .EDGE_OVERRATE (objUnit e) []
          s.edgeLost e
        else
          let comp : Bool := decide (16 ≤ e)
          let flags := b2n rise * eRISE + b2n y.missed * eMISSED + b2n y.ovr * eOVERRATE
            + b2n (comp && s.flag (F.AFE_CH_STAT_SETTLING (e - 16))) * eSETTLE
            + b2n (comp && s.flag (F.AFE_CH_STAT_CMF (e - 16))) * eCMF + b2n s.holdover * eHLD + b2n i.stale * eCALSTALE
          let u := s.edgeUnits e rise
          let st : Stamp := { at' := stamp, src := e, rise := rise, flags := flags, stream := s.eflag (F.EDG_Ss_CFG_STREAM e),
                              queue := (s.eff Reg.EDG_EDGE_Q).toNat, units := u.1, groups := u.2 }
          let s := s.setEdgeSrc e { y with credit := y.credit - secUnits, fullAt := none, missed := false, ovr := false }
          let s := { s with edg.fifo := fifoInsert st s.edg.fifo }
          let s := s.peak F.EDG_STAT_FIFO_PEAK s.edg.fifo.length
          s.skewEdge e stamp
      | _, _ => ((s.setEdgeSrc e { x with missed := true }).bump (F.EDG_Ss_CNT_DEAD e) 1).edgeLost e

def execEdgeArrival (sr : Fin 112) (rise : Bool) (e : EdgeMeas) (s : State) : Host.Outcome State Fault Refusal :=
  .next (s.edgeArrival sr rise e)

/-! ### Records (R347, R348) -/

/-- The head of a record: SOURCE, KIND, FLAGS and the stamp. -/
def recordHead (source kind flags : Nat) (stamp : Int) : List Word :=
  packBytes ([(source, 2), (kind, 1), (flags, 1)] ++ clockBytes stamp.toNat)

/-- A record goes to queue register value `q`; false: the queue manager refused it (R348). -/
def State.putRecord (s : State) (q : Nat) (ws : List Word) : Bool × State :=
  if 4096 ≤ q then (true, s)
  else
    let r := s.putPacket q ws
    if r.1 then (true, { r.2 with edg.full := false })
    else
      let s := r.2.bump F.EDG_STAT_QDROP 1
      let s := if s.edg.full then s else s.emit .EDG_QUEUE_FULL (objQueue q) []
      (false, { s with edg.full := true })

/-- The queue of edge and interval records. -/
def State.edgeQ (s : State) : Nat := (s.eff Reg.EDG_EDGE_Q).toNat

/-! ### Intervals (R349, R350) -/

/-- Unit `i` closes with a result (R350). -/
def State.intervalClose (s : State) (i : Nat) (st : Stamp) (value : Int) (flags : Nat) (timeout : Bool) : State :=
  let x := s.interval i
  let fl := (st.flags ||| (flags &&& 0xFE)) ||| (b2n x.missed * eMISSED) ||| (b2n timeout * eTIMEOUT)
  let ws := recordHead (0x100 + i) 2 fl st.at' ++ packBytes [(bitsOf 64 value, 8)]
  let r := s.putRecord s.edgeQ ws
  let s := r.2.setInterval i { x with start := none, missed := !r.1, count := x.count + 1, last := some (value, timeout) }
  if s.eflag (F.EDG_Ii_CFG_CONT i) then s else s.setNow (Reg.EDG_Ii_CFG i) 0#32 0x80000000#32

/-- TO of unit `i` in 2^-16 ns. -/
def State.intervalTO (s : State) (i : Nat) : Int := 65536 * (max 1 (s.ef (F.EDG_Ii_TO_TO i)) : Nat)

/-- Unit `u` takes a released edge, which may start or stop it. -/
def State.intervalEdge (s : State) (u : Nat × Bool × Bool) (e : Stamp) : State :=
  let i := u.1
  let opens (s : State) : State :=
    if s.eflag (F.EDG_Ii_CFG_EN i) && u.2.1 then s.setInterval i { s.interval i with start := some e } else s
  match (s.interval i).start with
  | none => opens s
  | some st =>
    if st.at' + s.intervalTO i < e.at' then opens (s.intervalClose i st 0 0 true)
    else if u.2.2 && decide (st.at' < e.at') then s.intervalClose i st (e.at' - st.at') e.flags false
    else s

/-- 50 ns, after which a stamp is released (R347). -/
def releaseLag : Int := 50 * 65536

/-- No edge stamped at or before `t` can still be released (R347, R352). -/
def State.edgesPast (s : State) (t : Int) : Bool :=
  decide (t + releaseLag ≤ (s.tick.clock : Int)) && s.edg.fifo.all fun e => decide (t < e.at')

/-- An open unit closes without a stop (R350, R355). -/
def State.intervalCut (s : State) (i : Nat) : State :=
  match (s.interval i).start with
  | some st => s.intervalClose i st 0 0 true
  | none => s

/-- No stop came within TO (R350). -/
def State.intervalTimeout (s : State) (i : Nat) : State :=
  match (s.interval i).start with
  | some st => if s.edgesPast (st.at' + s.intervalTO i) then s.intervalCut i else s
  | none => s

def execIntervalTimeout (i : Fin 16) (s : State) : Host.Outcome State Fault Refusal := .next (s.intervalTimeout i)

/-! ### Event groups (R351 to R354) -/

/-- T0 of an open group. -/
def groupT0 (o : Nat × List (Option Stamp)) : Int := match o.2.getD o.1 none with | some e => e.at' | none => 0

/-- WIN of group `g` in 2^-16 ns. -/
def State.groupWin (s : State) (g : Nat) : Int := 65536 * (max 1 (s.ef (F.EDG_Gg_WIN_WIN g)) : Nat)

/-- a_k of a member (R353). -/
def groupOfs (t0 : Int) (e : Option Stamp) : Option Nat := e.map fun e => (rdiv (e.at' - t0) edgeStep).toNat

/-- Group `g` is reported (R353, R354). -/
def State.groupReport (s : State) (g : Nat) (o : Nat × List (Option Stamp)) (extra : Nat) : State :=
  let x := s.group g
  let t0 := groupT0 o
  let first := o.2.getD o.1 none
  let rise := match first with | some e => b2n e.rise | none => 0
  let flags := o.2.foldl (fun a e => match e with | some e => a ||| (e.flags &&& 0x7E) | none => a)
    (rise ||| extra ||| (b2n (x.lost || x.missed) * eMISSED))
  let seen := (List.range 8).foldl (fun a k => if (o.2.getD k none).isSome then a + 2 ^ k else a) 0
  let offs := o.2.map (groupOfs t0)
  let ws := recordHead (0x200 + g) 3 flags t0 ++ packBytes [(seen, 1), (o.1, 1), ((s.members g).length, 1), (0, 1)] ++
    offs.map fun a => BitVec.ofNat 32 (a.getD 0xFFFFFFFF)
  let r := s.putRecord (s.eff (Reg.EDG_Gg_Q g)).toNat ws
  let s := r.2.bumpWrap (F.EDG_Gg_CNT_GROUPS g) 1
  let s := s.setGroup g { s.group g with missed := !r.1, count := x.count + 1,
                                         last := some { t0 := t0, seen := seen, flags := flags, offs := offs } }
  if s.eflag (F.EDG_Gg_CFG_TRIG_EN g) then s.fire (s.ef (F.EDG_Gg_CFG_TRIG g)) t0.toNat .group none else s

/-- Group `g` closes at hub clock `at'` (R352): it is reported, or discarded under MINHIT, and holds off. -/
def State.groupClose (s : State) (g : Nat) (o : Nat × List (Option Stamp)) (extra : Nat) (at' : Int) : State :=
  let hits := (o.2.filter (·.isSome)).length
  let need := min (max 1 (s.ef (F.EDG_Gg_CFG_MINHIT g))) (s.members g).length
  let s := if need ≤ hits then s.groupReport g o extra else s.bump (F.EDG_Gg_CNT_SHORT g) 1
  let off := s.ef (F.EDG_Gg_CFG_HOLDOFF g)
  s.setGroup g { s.group g with open' := none, lost := false, holdoff := some (at' + 65536000 * (off : Nat)), holding := off != 0 }

/-- Member `k` of an open group arrives. -/
def groupArrive (o : Nat × List (Option Stamp)) (k : Nat) (e : Stamp) : Nat × List (Option Stamp) :=
  if (o.2.getD k none).isSome then o
  else (if e.at' = groupT0 o ∧ k < o.1 then k else o.1, listSet o.2 k (some e))

/-- Group `u` takes a released edge, which is of the members `u` names (R351, R352). -/
def State.groupEdge (s : State) (u : Nat × List Nat) (e : Stamp) : State :=
  let g := u.1
  let ks := u.2
  let full (o : Nat × List (Option Stamp)) : Bool := (s.members g).all fun k => (o.2.getD k none).isSome
  let take (s : State) (o : Nat × List (Option Stamp)) : State :=
    let o := ks.foldl (fun o k => groupArrive o k e) o
    if full o then s.groupClose g o 0 (e.at' + releaseLag) else s.setGroup g { s.group g with open' := some o }
  let opens (s : State) : State :=
    let after := match (s.group g).holdoff with | some h => decide (h < e.at') | none => true
    match ks with
    | k :: _ => if s.eflag (F.EDG_Gg_CFG_EN g) && after then
        let s := s.setGroup g { s.group g with holding := false }
        take s (k, listSet (List.replicate 8 none) k (some e)) else s
    | [] => s
  match (s.group g).open' with
  | none => opens s
  | some o =>
    let limit := groupT0 o + s.groupWin g
    if limit < e.at' then opens (s.groupClose g o eTIMEOUT (limit + releaseLag)) else take s o

/-- The window of an open group has passed (R352). -/
def State.groupTimeout (s : State) (g : Nat) : State :=
  match (s.group g).open' with
  | some o =>
    let limit := groupT0 o + s.groupWin g
    if s.edgesPast limit then s.groupClose g o eTIMEOUT (limit + releaseLag) else s
  | none => s

def execGroupWindowTimeout (g : Fin 32) (s : State) : Host.Outcome State Fault Refusal := .next (s.groupTimeout g)

/-- The hold-off of group `g` ends (R352). -/
def State.groupHoldoffEnd (s : State) (g : Nat) : State :=
  let x := s.group g
  let ended := match x.holdoff with | some h => decide (h ≤ (s.tick.clock : Int)) | none => true
  if x.holding && ended then s.setGroup g { x with holding := false } else s

def execGroupHoldoffEnd (g : Fin 32) (s : State) : Host.Outcome State Fault Refusal := .next (s.groupHoldoffEnd g)

/-! ### Release (R347) -/

/-- The earliest stamp is released. -/
def State.releaseOne (s : State) : State :=
  match s.edg.fifo with
  | [] => s
  | e :: r =>
    let s := { s with edg.fifo := r }
    let s :=
      if e.stream then
        let p := s.putRecord e.queue (recordHead e.src 1 e.flags e.at')
        if p.1 then p.2 else p.2.setEdgeSrc e.src { p.2.edgeSrc e.src with missed := true }
      else s
    let s := e.units.foldl (fun s u => s.intervalEdge u e) s
    e.groups.foldl (fun s u => s.groupEdge u e) s

/-- The earliest stamp is released once 50 ns of hub time have passed after it (R347). -/
def State.edgeRelease (s : State) : State :=
  match s.edg.fifo with
  | [] => s
  | e :: _ => if e.at' + releaseLag ≤ (s.tick.clock : Int) then s.releaseOne else s

def execEdgeRelease (s : State) : Host.Outcome State Fault Refusal := .next s.edgeRelease

/-! ### Registers (R341, R350, R353, R355) -/

/-- The difference of a pair (R353). -/
def pairDiff (a b : Option Nat) : Word :=
  match a, b with
  | some x, some y =>
    let d : Int := (x : Int) - y
    if d > 0x7FFFFFFF then 0x7FFFFFFF#32 else if d < -0x7FFFFFFF then 0x80000001#32 else BitVec.ofInt 32 d
  | _, _ => 0x80000000#32

/-- The result registers of interval unit `i` at cycle 240 (R350). -/
def State.intervalLatch (s : State) (i : Nat) : State :=
  let x := (s.interval i).shown
  let s := match x.2 with
    | some r => (s.wf64 (F.EDG_Ii_RES_LO_INT i) (F.EDG_Ii_RES_HI_INT i) (bitsOf 64 r.1)).wb (F.EDG_Ii_RES_STAT_TIMEOUT i) r.2
    | none => s
  (s.wb (F.EDG_Ii_RES_STAT_VALID i) x.2.isSome).wf (F.EDG_Ii_RES_STAT_COUNT i) (min 65535 x.1)

/-- The result registers of group `g` at cycle 240 (R353). -/
def State.groupLatch (s : State) (g : Nat) : State :=
  let x := (s.group g).shown
  let s := s.wf (F.EDG_Gg_LAST_COUNT g) (min 65535 x.1)
  match x.2 with
  | none => s
  | some r =>
    let t := r.t0.toNat
    let s := (s.wr (Reg.EDG_Gg_T0_SLO g) (BitVec.ofNat 32 (t / secUnits))).wf (F.EDG_Gg_T0_SHI_SEC g) (t / secUnits / 2 ^ 32)
    let s := (s.wf (F.EDG_Gg_T0_NS_NS g) (t % secUnits / 65536)).wf (F.EDG_Gg_T0_FRAC_FRAC g) (t % 65536)
    let s := (s.wf (F.EDG_Gg_LAST_SEEN g) r.seen).wf (F.EDG_Gg_LAST_FLAGS g) r.flags
    let s := (List.range 8).foldl (fun s k =>
      s.wr (Reg.EDG_Gg_OFSk g k) (BitVec.ofNat 32 ((r.offs.getD k none).getD 0xFFFFFFFF))) s
    (List.range 8).foldl (fun s i => (List.range 8).foldl (fun s j =>
      if i < j then s.wr (Reg.EDG_Gg_PAIRp g (i * (15 - i) / 2 + j - i - 1)) (pairDiff (r.offs.getD i none) (r.offs.getD j none))
      else s) s) s

/-- A tick begins: the results of the one before stand for its cycle 240 (R350, R353). -/
def State.edgTurn (s : State) : State :=
  { s with edg.intervals := s.edg.intervals.map fun e => (e.1, e.2.map fun x => { x with shown := (x.count, x.last), count := 0, last := none }),
           edg.groups := s.edg.groups.map fun e => (e.1, e.2.map fun x => { x with shown := (x.count, x.last), count := 0, last := none }) }

/-- Results of the previous tick are shown at cycle 240 (R350, R353). -/
def State.edgLatch (s : State) : State :=
  (List.range 32).foldl (fun s g => s.groupLatch g) ((List.range 16).foldl (fun s i => s.intervalLatch i) s)

/-- A register of a group or interval unit that is open or holding off: a change of it waits (R341). -/
def State.edgBusy (s : State) (a : Nat) : Bool :=
  if 0xB02000 ≤ a ∧ a < 0xB02200 then (s.interval ((a - 0xB02000) / 0x20)).start.isSome
  else if 0xB04000 ≤ a ∧ a < 0xB06000 then
    let x := s.group ((a - 0xB04000) / 0x100)
    x.open'.isSome || x.holding
  else false

/-- A restep is applied (R355): what was stamped before it is released, and open groups and interval units close at once. -/
def State.edgCut (s : State) : State :=
  let s := forNat s.edg.fifo.length (fun s _ => s.releaseOne) s
  let s := (List.range 32).foldl (fun s g => match (s.group g).open' with
    | some o =>
      let s := s.groupClose g o eTIMEOUT (s.tick.clock : Int)
      (s.bump (F.EDG_Gg_CNT_CUT g) 1).emit .EDG_GROUP_CUT (objUnit g) []
    | none => s) s
  (List.range 16).foldl (fun s i => s.intervalCut i) s

/-- Sum of the declared rates of the enabled sources, for EDG_RATE. -/
def State.edgRate (s : State) : Nat :=
  ((List.range 112).map fun e => if s.eflag (F.EDG_Ss_CFG_EN e) then s.edgeInRate e else 0).sum

end Sys2Proof.Machine
end

