-- ==== Sys2Proof/Machine/Taken.lean ====
section
/-!
DEFINITION. Settings that wait for a tick boundary (R582): which registers hold them, what a setting does in the boundary row in which it
takes effect, and which of them wait longer (R12, R160, R341, R489).
-/
namespace Sys2Proof.Machine

open Sys2Proof

/-- Rows of the register tables, by base address, whose changes take effect at a boundary (R133, R140, R153, R165, R169, R214, R365, R489). -/
def heldBases : List Nat :=
  [Reg.AFE_CH_CFG 0, Reg.AFE_CH_CM 0, Reg.AFE_CH_LIN 0, Reg.AFE_CH_RREF 0, Reg.AFE_CH_CJC 0, Reg.AFE_CH_AE 0, Reg.AFE_CH_CODE 0,
   Reg.AFE_EX_CTRL 0, Reg.AFE_UT_CTRL, Reg.CNV_SCAN_A 0, Reg.CNV_SCAN_B 0, Reg.CNV_Pp_MIS_OFS 0 0, Reg.CNV_Pp_MIS_GAIN 0 0,
   Reg.CNV_Pp_MIS_SKEW 0 0, Reg.CHR_CH_CFG 0, Reg.CHR_CH_RSMP 0, Reg.CHR_CH_DELAY 0,
   Reg.CHR_DET_CFG 0, Reg.CHR_DET_WIN 0, Reg.KND_CUn_CFG 0, Reg.KND_CUn_THR 0, Reg.KND_CUn_HYST 0, Reg.KND_CUn_SPAN 0,
   Reg.GPIO_PINn_CFG 0]

/-- The row with base `b` holds settings that wait; of the edge timer all but the counters do (R341). -/
def heldReg (b : Nat) : Bool :=
  heldBases.contains b || (b / 0x100000 == 0xB && b != Reg.EDG_STAT && b != Reg.EDG_Ss_CNT 0 && b != Reg.EDG_Gg_CNT 0)

/-- AFE_CH_CFG of channel `c` at address `a` takes effect through `f`, which writes the bits of `mask`. While CODED is 1, a change of TIA
waits for its code boundary (R160); with CODED gone, a TIA change that waited takes effect. -/
def State.landCfg (s : State) (c a : Nat) (mask : Word) (f : State → State) : State :=
  let old := s.eff a
  let corr := tabGet (fun _ => none) s.front.corrs c
  let s := f s
  match corr with
  | none => s.cfgTaken c old (s.eff a)
  | some k =>
    let tia := F.AFE_CH_CFG_TIA c
    let t := if mask &&& 0x700#32 = 0#32 then k.tia.getD (fw old tia) else fw (s.eff a) tia
    let waits := fw old tia != t
    let s := s.setNow a (BitVec.ofNat 32 (t * 256)) 0x700#32
    let new := s.eff a
    if new.getLsbD 15 then
      let s : State := { s with front.corrs := tabSet (fun _ => none) s.front.corrs c (some { k with tia := if waits then some t else none }) }
      let s := if waits then { s with tick.force := tabSet (fun _ => none) s.tick.force a (some (keepField new old tia)) } else s
      s.cfgTaken c old (s.eff a)
    else
      let s := s.cfgTaken c old new
      if waits then s.emit .TIA_SWITCH (objChannel c) [t, s.tick.num] else s

/-- A write of the register at `a` that reached its boundary is discarded: the word in force stays, and the register shows it with the writes
that still wait. -/
def State.unwritten (s : State) (a : Nat) : State :=
  let old := s.eff a
  let rest := s.tick.held.filter fun h => h.addr == a
  let s : State := { s with tick.force := tabSet (fun _ => none) s.tick.force a (if rest.isEmpty then none else some old) }
  s.wr a (rest.foldl (fun w h => merge w h.data h.mask) old)

/-- Settings of a Charcoal path take effect, judged against the rates and the bank in force; a write that would leave them invalid is discarded
(R213). -/
def State.landPath (s : State) (c a : Nat) (f : State → State) : State :=
  let x := f s
  if x.chrValid (x.chrSet true c) (x.inRate true c) (x.coded true c) (x.codeTicks c) then
    x.chrTaken c (s.chrSet true c) (s.outRate true c)
  else (s.unwritten a).emit .CHR_CFG_BAD (objChannel c) [(a : Int)]

/-- ρ and the group delay of the channels of duty `d` follow their rank and frame rate (R232). -/
def State.showRhos (s : State) (d : Nat) : State := ((List.range 4).map (4 * d + ·)).foldl State.showRho s

/-- A setting at address `a` takes effect through `f`, which gives the register its word; then what follows from the change. -/
def State.land (s : State) (a : Nat) (mask : Word) (f : State → State) : State :=
  match rowOf a with
  | none => f s
  | some (r, i) =>
    let b := r.base
    let old := s.eff a
    if b = Reg.AFE_CH_CFG 0 then (s.landCfg i a mask f).showRho i
    else if b = Reg.AFE_CH_LIN 0 then let s := f s; s.linTaken i old (s.eff a)
    else if b = Reg.AFE_EX_CTRL 0 then let s := f s; s.exTaken i old (s.eff a)
    else if b = Reg.AFE_CH_CM 0 then let s := f s; if s.eff a = old then s else s.cmReset i
    else if b = Reg.AFE_CH_CODE 0 then let s := f s; if s.coded true i && s.eff a != old then s.gdChange i else s
    else if b = Reg.CNV_SCAN_A 0 then let s := f s; (s.scanTaken (2 * i) old (s.eff a)).showRhos (2 * i)
    else if b = Reg.CNV_SCAN_B 0 then let s := f s; (s.scanTaken (2 * i + 1) old (s.eff a)).showRhos (2 * i + 1)
    else if b = Reg.CHR_CH_CFG 0 ∨ b = Reg.CHR_CH_RSMP 0 ∨ b = Reg.CHR_CH_DELAY 0 then s.landPath i a f
    else if b = Reg.CHR_DET_CFG 0 ∨ b = Reg.CHR_DET_WIN 0 then
      let s := f s
      if s.eff a = old then s else s.detTaken i
    else if b = Reg.KND_CUn_CFG 0 ∨ b = Reg.KND_CUn_THR 0 ∨ b = Reg.KND_CUn_HYST 0 ∨ b = Reg.KND_CUn_SPAN 0 then
      let s := f s
      if s.eff a = old then s else s.condTaken i
    else f s

/-- Pin `n` is the select of a transaction that runs (R489). -/
def State.pinInUse (s : State) (n : Nat) : Bool :=
  (List.range 2).any fun m => match tabGet (fun _ => none) s.spi.run m with
    | some (r : SpimRun) => !r.tx.w1.getLsbD 17 && fieldOf r.tx.w1 15 11 == n
    | none => false

/-- The register at `a` is AFE_CH_CODE, which changes at the start of a network second only (R158). -/
def isCode (a : Nat) : Bool := match rowOf a with | some (r, _) => r.base == Reg.AFE_CH_CODE 0 | none => false

/-- The register at `a` is one of a tile that is marked TILE_DOWN; the user table stands in the space of tile 0 (R134, R153). -/
def State.afeWaits (s : State) (a : Nat) : Bool :=
  decide (0x400000 ≤ a) && decide (a < 0x440000) && s.tileDownNow ((a - 0x400000) / 0x10000)

/-- A change of the register at `a` waits longer: the group or interval unit is open or holding off (R341), the tile of the front end is
marked TILE_DOWN (R12, R134), a CODE_TICKS waits for its second (R158), or a transaction uses the pin as its select (R489). -/
def State.landWaits (s : State) (a : Nat) : Bool :=
  s.edgBusy a || s.afeWaits a || (isCode a && s.tick.num % max 1 s.rate != 0)
    || (decide (Reg.GPIO_PINn_CFG 0 ≤ a) && decide (a < Reg.GPIO_PINn_CFG 32) && s.pinInUse ((a - Reg.GPIO_PINn_CFG 0) / 4))

/-- The waiting writes that `p` picks, and that need not wait longer, take effect in the order in which they came. -/
def State.landHeld (s : State) (p : HeldWrite → Bool) : State :=
  s.tick.held.foldl (fun s h =>
    if p h && !s.landWaits h.addr then
      ({ s with tick.held := s.tick.held.erase h }).land h.addr h.mask fun s => s.unhold h
    else s) s

/-- A timed write of such a setting takes effect in its own boundary row (R582), unless it must wait longer. -/
def State.landNow (s : State) (a : Nat) (data mask : Word) (m : Nat) : State :=
  if s.landWaits a then s.hold s.tick.num a data mask m
  else s.land a mask fun s => s.setNow a data mask

end Sys2Proof.Machine
end

