-- ==== Sys2Proof/Machine/Records.lean ====
section
/-!
DEFINITION. The records of the hub as words: event records (R545, R548), gap records (R454) and log pages (R497).
-/
namespace Sys2Proof.Machine

open Sys2Proof

/-- Widths in bytes of an event's detail fields: stated for the HUB block's events (R550), else the dictionary's. -/
def detailWidths : EvName → List Nat
  | .BUS_ADDR => [4, 1]
  | .EVENT_OVERFLOW => [4]
  | .COMMON_CAUSE | .COMMON_CAUSE_END => [2, 2, 2, 2]
  | .ACCESS_LOCKED | .FENCE_WRITE => [4, 1]
  | n => Config.eventWidths (eventIndex n)

/-- The detail bytes of an event (R548). -/
def detailBytes (ws : List Nat) (vs : List Int) : List Nat :=
  (ws.zip vs).flatMap fun (p : Nat × Int) => leBytes p.1 (bitsOf (8 * p.1) p.2)

/-- One record of eight words: the event's head and eight bytes of detail. -/
def eventRecord (e : Event) (cont : Bool) (detail : List Nat) : List Word :=
  let flags := b2n (eventSamples e.name) + 2 * b2n e.direct + 4 * b2n cont + 8 * b2n e.noTime + 16 * b2n e.umber
  let d := (detail ++ List.replicate 8 0).take 8
  [BitVec.ofNat 32 (eventTypeOf e.name + e.obj * 65536),
   BitVec.ofNat 32 (e.block + flags * 256 + (e.sec % 65536) * 65536), BitVec.ofNat 32 (e.sec / 65536),
   BitVec.ofNat 32 e.ns, BitVec.ofNat 32 e.tick, BitVec.ofNat 32 (e.tick / 2 ^ 32)] ++ bytesWords d

/-- The records of an event: one, or two when the dictionary gives it 16 detail bytes. -/
def eventRecords (e : Event) : List (List Word) :=
  let d := detailBytes (detailWidths e.name) e.detail
  if eventEntries e.name = 1 then [eventRecord e false d]
  else [eventRecord e false d, eventRecord e true (d.drop 8)]

/-- CAUSE of a gap record (R454). -/
def gapCode : GapCause → Nat
  | .tileLink => 0x01 | .tileDown => 0x02 | .stagingLate => 0x03 | .tickStop => 0x04 | .restep => 0x05 | .linkBoth => 0x06
  | .link => 0x07 | .frameBad => 0x08 | .fieldLate => 0x09 | .nodeSkip => 0x0A | .nodeLost => 0x0B | .chrRestart => 0x0C
  | .chrStopped => 0x0D | .delayChange => 0x0E | .queueOff => 0x0F | .poolEmpty => 0x10 | .flush => 0x11 | .memEcc => 0x12
  | .pressFail => 0x13 | .captureTrunc => 0x14 | .domainReset => 0x15 | .archiveWrite => 0x16

/-- A gap record's 12 words (R454). -/
def gapWords (g : Gap) : List Word :=
  let flags := b2n g.queueWide + 2 * b2n g.conv + 4 * b2n g.merged + 8 * b2n g.inexact
  [BitVec.ofNat 32 ((if g.queueWide then 0xFFFF else g.ch) + gapCode g.cause * 65536 + flags * 16777216), BitVec.ofNat 32 g.queue,
   BitVec.ofNat 32 g.firstTick, BitVec.ofNat 32 (g.firstTick / 2 ^ 32), BitVec.ofNat 32 g.lastTick,
   BitVec.ofNat 32 (g.lastTick / 2 ^ 32), BitVec.ofNat 32 g.firstSec, BitVec.ofNat 32 g.firstIdx, BitVec.ofNat 32 g.lastSec,
   BitVec.ofNat 32 g.lastIdx, BitVec.ofNat 32 g.seq, BitVec.ofNat 32 g.count]

/-- A committed log page's 64 words (R497). -/
def pageWords (p : LogPage) : List Word :=
  let recs := p.recs.flatMap fun e => (eventRecords e).flatten
  let body := (recs ++ List.replicate 56 0xFFFFFFFF#32).take 56 ++
    [0x474C4255#32, BitVec.ofNat 32 (evqDepth p.recs), BitVec.ofNat 32 p.seq, BitVec.ofNat 32 (p.seq / 2 ^ 32)]
  body ++ [BitVec.ofNat 32 (crc32c (body.flatMap wordBytes)), 0xFFFFFFFF#32, 0#32, 0#32]

end Sys2Proof.Machine
end

