-- ==== Sys2Proof/Machine/Lanes.lean ====
section
/-!
DEFINITION. The field lanes (R243 to R275): bring-up from DETECT to ACTIVE, training, block lock, the exchange
of capabilities, failed attempts and their backoff, and the two low-power states. What a lane sends is logged under
`laneMode`: 0 electrical idle, 1 a burst, 2 training frames, 3 idle blocks, 4 CAPS block, 5 LP block, 6 the reference output.
-/
namespace Sys2Proof.Machine

open Sys2Proof

/-! ### States -/

def State.laneSend (s : State) (l kind : Nat) (d : List Int) : State := s.send .laneMode l ((kind : Int) :: d)

/-- A lane control block leaves (R244): what it is and its 8 bytes. -/
def State.ctrlSend (s : State) (l kind : Nat) (b : List Nat) : State :=
  s.blocksOut .laneMode l ((kind : Int) :: b.map fun (n : Nat) => (n : Int)) [ctrlBlock b]

/-- The reference output of a lane (R246, R247): none is high impedance, else the spread in use. -/
def State.refOut (s : State) (l : Nat) : Option Nat := if s.flag (F.FLK_CTRL_REF_EN l) then some (s.lane l).spread else none

/-- A change of the reference output since `s0` is logged: 6 with 0 for high impedance, or with 1 and the spread. -/
def State.refShow (s s0 : State) (l : Nat) : State :=
  if s.refOut l = s0.refOut l then s else s.laneSend l 6 (match s.refOut l with | none => [0] | some k => [1, (k : Int)])

/-- REFCLK is valid (R275). -/
def State.refOk (s : State) : Bool := s.flag F.CLK_STAT_REF_OK

/-- LANE_DOWN, and the cause of the drop (R252, R264, R275). -/
def State.laneDown (s : State) (l cause : Nat) : State :=
  let s := s.wf (F.FLK_STAT_CAUSE l) cause
  s.emit .LANE_DOWN (objLink l) [(cause : Nat)]

/-- FAILS is cleared (R264, R266). -/
def State.clearFails (s : State) (l : Nat) : State :=
  let s := ((s.wf (F.FLK_STAT_FAILS l) 0).wf (F.FLK_STAT_CAUSE l) 0).wf (F.FLK_STAT_HOLDOFF l) 0
  (s.wf (F.FLK_HOLD_MS l) 0).setLane l { s.lane l with streak := 0, holdEnd := 0 }

/-- What a lane past DETECT held is given up. -/
def State.laneClear (s : State) (l : Nat) : State :=
  let x := s.lane l
  let s := (s.wf (F.FLK_STAT_BLOCK_LOCK l) 0).wf (F.FLK_STAT_RELOCK l) 0
  s.setLane l { lane0 with rate := x.rate, spread := x.spread, drop := x.drop, streak := x.streak, holdEnd := x.holdEnd,
                           fromEq := x.fromEq, taps := x.taps }

/-- The lane has left ACTIVE: the partner manager is told (R263). -/
def State.laneRest (s : State) (l : Nat) : State := ((s.laneClear l).wf F.HUB_INT_RAW_LANE 1).laneGone l

/-- The lane leaves the state it is in; the partner manager is told when it was ACTIVE (R263). -/
def State.laneLeave (s : State) (l : Nat) : State := if s.laneState l = 6 then s.laneRest l else s.laneClear l

/-- The rate of the next attempt (R250, R267). -/
def State.attemptRate (s : State) (l : Nat) : Nat :=
  if s.flag (F.FLK_CTRL_FALLBACK l) then (s.lane l).rate - (s.lane l).drop else (s.lane l).rate

/-- The lane enters DETECT: a held RATE and SPREAD take effect (R247, R250). -/
def State.toDetect (s : State) (l : Nat) : State :=
  let s := (s.laneLeave l).domReset (16 + l) 0
  let s := (s.setLane l { s.lane l with rate := s.f (F.FLK_CTRL_RATE l), spread := s.f (F.FLK_CTRL_SPREAD l) }).refShow s l
  ((s.wf (F.FLK_STAT_STATE l) 1).wf (F.FLK_STAT_RATE_NOW l) (s.attemptRate l)).laneSend l 1 []

/-- An ACTIVE lane goes to DETECT (R252, R262, R264, R275): LANE_DOWN, and the bring-up that follows starts again at RATE (R267). -/
def State.laneDrop (s : State) (l cause : Nat) : State :=
  ((s.setLane l { s.lane l with drop := 0 }).toDetect l).laneDown l cause

/-- A failed attempt (R265, R267). -/
def State.laneFail (s : State) (l cause : Nat) : State :=
  let st := s.laneState l
  let s := ((s.bump (F.FLK_STAT_FAILS l) 1).bump (F.FLK_ERR_TRAIN_FAIL l) 1).wf (F.FLK_STAT_CAUSE l) cause
  let s := s.emit .LANE_ATTEMPT_FAIL (objLink l) [(cause : Nat), (st : Nat), (s.f (F.FLK_STAT_RATE_NOW l) : Nat)]
  let ms := min (100 * 2 ^ min 7 (s.f (F.FLK_STAT_FAILS l) - 1)) 10000
  let x := s.lane l
  let lower := s.flag (F.FLK_CTRL_FALLBACK l) && (x.streak + 1) % 2 == 0 && cause != 0x08 && cause != 0x09
  let s := s.setLane l { x with streak := x.streak + 1, drop := if lower then min x.rate (x.drop + 1) else x.drop,
                                holdEnd := s.tick.clock + ms * 65536000000, fromEq := false }
  ((s.toDetect l).wf (F.FLK_STAT_HOLDOFF l) 1).wf (F.FLK_HOLD_MS l) ms

/-- FLK_HOLD.MS as time passes: whole milliseconds left. -/
def State.holdLeft (s : State) (l : Nat) : Nat := ((s.lane l).holdEnd - s.tick.clock) / 65536000000

/-- Taps of a register of the FLK_TX_INIT layout. -/
def tapsOf (w : Word) : Taps := { pre := fieldOf w 20 16, main := fieldOf w 14 8, post := fieldOf w 5 0 }
def tapsWord (x : Taps) : Word := BitVec.ofNat 32 (x.pre * 65536 + x.main * 256 + x.post)

/-- Tap values are valid (R249). -/
def tapsOk (x : Taps) : Bool :=
  decide (x.pre ≤ 16) && decide (x.post ≤ 32) && decide (32 ≤ x.main) && decide (x.main ≤ 64) &&
    decide (x.pre + x.main + x.post ≤ 64) && decide (16 + x.pre + x.post ≤ x.main)

/-- TRAIN begins (R256). -/
def State.toTrain (s : State) (l : Nat) : State :=
  let x := s.lane l
  let eq := if x.fromEq then s.rd (Reg.FLK_TX_EQ l) else s.rd (Reg.FLK_TX_INIT l)
  let s := s.setLane l { x with marks := 0, misses := 0, frameLock := false, everLock := false, taps := tapsOf eq, reqInit := true,
                                req := [0, 0, 0], status := [0, 0, 0], ready := false, farReady := 0, trained := false,
                                fromEq := false, seen := 0 }
  ((s.wf (F.FLK_STAT_STATE l) 2).wf (F.FLK_STAT_RATE_NOW l) (s.attemptRate l)).laneSend l 2 []

/-- No probe of a hop has gone yet. -/
def hop0 : HopSt := { out := [], results := [], sent := 0, seq := 0, dropped := 0, published := false }

def State.hop (s : State) (l : Nat) : HopSt := tabGet (fun _ => hop0) s.ptp.hops l
def State.setHop (s : State) (l : Nat) (x : HopSt) : State := { s with ptp.hops := tabSet (fun _ => hop0) s.ptp.hops l x }

/-- The hop's delay is measured afresh (R332). -/
def State.hopStart (s : State) (l : Nat) : State :=
  ((s.wf (F.PTP_FLl_MSTAT_VALID l) 0).wf (F.PTP_FLl_MSTAT_RUNNING l) 1).setHop l hop0

/-- The lane is ACTIVE (R260, R267): FLK_UP, and the far end is there. -/
def State.laneUp (s : State) (l : Nat) : State :=
  let s := ((s.wf (F.FLK_STAT_STATE l) 6).wf (F.FLK_STAT_FAR_SEEN l) 1).wf64 (F.FLK_UP_LO_TICK l) (F.FLK_UP_HI_TICK l) s.tick.num
  (s.setLane l { s.lane l with waking := false, hopDone := false, searches := 0 }).hopStart l

/-! ### DETECT -/

/-- A 1 ms window ends (R251): bursts go out; after three windows with the far end seen, and no hold, TRAIN begins. -/
def State.detectWindow (s : State) (l : Nat) (seen : Bool) : State :=
  let st := s.laneState l
  if st ≠ 1 ∧ st ≠ 9 then s
  else
    let x := s.lane l
    let k := if seen then x.seen + 1 else 0
    let s := ((s.wb (F.FLK_STAT_FAR_SEEN l) seen).setLane l { x with seen := min 3 k }).laneSend l 1 []
    if st = 1 ∧ 3 ≤ k ∧ !s.flag (F.FLK_STAT_HOLDOFF l) ∧ s.refOk then s.toTrain l else s

def execDetectWindow (l : Fin 16) (seen : Bool) (s : State) : Host.Outcome State Fault Refusal := .next (s.detectWindow l seen)

/-- The backoff hold ends (R265). -/
def State.laneHoldEnd (s : State) (l : Nat) : State :=
  if !s.flag (F.FLK_STAT_HOLDOFF l) then s
  else
    let s := ((s.wf (F.FLK_STAT_HOLDOFF l) 0).wf (F.FLK_HOLD_MS l) 0).setLane l { s.lane l with holdEnd := 0 }
    if s.laneState l == 1 && s.flag (F.FLK_STAT_FAR_SEEN l) && s.refOk then s.toTrain l else s

def execHoldEnd (l : Fin 16) (s : State) : Host.Outcome State Fault Refusal := .next (s.laneHoldEnd l)

/-- A lane ACTIVE for 10 s clears FAILS (R266). -/
def execFailsClearActive (l : Fin 16) (s : State) : Host.Outcome State Fault Refusal :=
  .next (if s.laneState l == 6 then s.clearFails l else s)

/-- FAR_SEEN has stayed 0 for 1 s (R266). -/
def execFarAbsent (l : Fin 16) (s : State) : Host.Outcome State Fault Refusal :=
  .next (if s.flag (F.FLK_STAT_FAR_SEEN l) then s else s.clearFails l)

/-! ### TRAIN (R253 to R256) -/

/-- A tap after a request of one step (R254): the taps and the status, 1 updated, 2 at minimum, 3 at maximum. -/
def stepTap (x : Taps) (k req : Nat) : Taps × Nat :=
  let up := req == 1
  let y := match k with
    | 0 => { x with pre := if up then x.pre + 1 else x.pre - 1 }
    | 1 => { x with main := if up then x.main + 1 else x.main - 1 }
    | _ => { x with post := if up then x.post + 1 else x.post - 1 }
  if tapsOk y && y != x then (y, 1) else (x, if up then 3 else 2)

/-- The hub answers the request of one tap: a status that is not zero goes back to zero when hold is seen. -/
def answerTap (a : Taps × List Nat) (k req : Nat) : Taps × List Nat :=
  let st := a.2.getD k 0
  if req = 0 then (a.1, listSet a.2 k 0)
  else if st ≠ 0 then a
  else
    let r := stepTap a.1 k req
    (r.1, listSet a.2 k r.2)

/-- The hub's taps and status after a frame's REQUEST (R254): a reserved value, or PRESET with INIT, holds every field. -/
def answer (init : Taps) (x : LaneSt) (r : BitVec 16) : Taps × List Nat :=
  let q := [fieldOf (BitVec.setWidth 32 r) 1 0, fieldOf (BitVec.setWidth 32 r) 3 2, fieldOf (BitVec.setWidth 32 r) 5 4]
  let ini := r.getLsbD 7
  let pre := r.getLsbD 6
  let bad := q.contains 3 || (ini && pre) || fieldOf (BitVec.setWidth 32 r) 15 8 != 0
  if bad then (x.taps, [0, 0, 0])
  else if ini || pre then
    if x.status == [0, 0, 0] then (if ini then init else preset, [1, 1, 1]) else (x.taps, x.status)
  else answerTap (answerTap (answerTap (x.taps, x.status) 0 (q.getD 0 0)) 1 (q.getD 1 0)) 2 (q.getD 2 0)

/-- One of the hub's own tap requests: held until its status is not zero, then hold until it is zero again (R254). -/
def nextReq1 (req st want : Nat) : Nat := if req ≠ 0 then (if st ≠ 0 then 0 else req) else if st = 0 then want else 0

/-- A training frame is due (R253 to R255): `adapted` says that the hub's equaliser has converged with at most one wrong bit of the
latest 2^20. -/
def State.trainingFrame (s : State) (l : Nat) (f : TrainFrame) (adapted : Bool) (want : TapWant) : State :=
  if s.laneState l ≠ 2 then s
  else
    let x := s.lane l
    let marks := if f.marker then min 3 (x.marks + 1) else 0
    let misses := if f.marker then 0 else min 3 (x.misses + 1)
    let lock := if x.frameLock then decide (misses < 3) else decide (3 ≤ marks)
    let x := { x with marks := marks, misses := misses, frameLock := lock, everLock := x.everLock || lock }
    if !(lock && f.marker) then s.setLane l { x with farReady := 0 }
    else
      let a := answer (tapsOf (s.rd (Reg.FLK_TX_INIT l))) x f.request
      let st := [fieldOf (BitVec.setWidth 32 f.status) 1 0, fieldOf (BitVec.setWidth 32 f.status) 3 2,
                 fieldOf (BitVec.setWidth 32 f.status) 5 4]
      let initHeld := x.reqInit && st.any (· == 0)
      let req := if x.reqInit then [0, 0, 0] else
        [nextReq1 (x.req.getD 0 0) (st.getD 0 0) want.pre, nextReq1 (x.req.getD 1 0) (st.getD 1 0) want.main,
         nextReq1 (x.req.getD 2 0) (st.getD 2 0) want.post]
      let ready := x.ready || adapted
      let far := if f.status.getLsbD 15 then min 8 (x.farReady + 1) else 0
      s.setLane l { x with taps := a.1, status := a.2, reqInit := initHeld, req := req, ready := ready, farReady := far,
                           trained := x.trained || (ready && decide (8 ≤ far)) }

def execTrainingFrame (l : Fin 16) (f : TrainFrame) (adapted : Bool) (want : TapWant) (s : State) :
    Host.Outcome State Fault Refusal := .next (s.trainingFrame l f adapted want)

/-- The 16 further frames have gone (R255): BITLOCK, and the taps in force go to FLK_TX_EQ. -/
def State.trainDone (s : State) (l : Nat) : State :=
  if s.laneState l = 2 ∧ (s.lane l).trained then
    ((s.wr (Reg.FLK_TX_EQ l) (tapsWord (s.lane l).taps)).wf (F.FLK_STAT_STATE l) 3).laneSend l 3 []
  else s

def execTrainDone (l : Fin 16) (s : State) : Host.Outcome State Fault Refusal := .next (s.trainDone l)

/-- A failed attempt when the lane is in state `st`. -/
def State.laneFailIn (s : State) (l st cause : Nat) : State := if s.laneState l = st then s.laneFail l cause else s

/-- TRAIN expires (R253). -/
def execTrainTimeout (l : Fin 16) (s : State) : Host.Outcome State Fault Refusal :=
  .next (s.laneFailIn l 2 (if (s.lane l).everLock then 0x03 else 0x02))

/-! ### BITLOCK, BLOCKLOCK and CAPS (R257 to R261) -/

/-- The mean frequency difference is measured, in parts per billion (R257). -/
def execBitlockMeasure (l : Fin 16) (ppb : Int) (s : State) : Host.Outcome State Fault Refusal :=
  .next (if s.laneState l ≠ 3 then s
    else if 100000 < ppb.natAbs then s.laneFail l 0x05
    else (s.wf (F.FLK_STAT_STATE l) 4).setLane l { s.lane l with cand := 0, valid := 0, window := [] })

def execBitlockTimeout (l : Fin 16) (s : State) : Host.Outcome State Fault Refusal := .next (s.laneFailIn l 3 0x04)

def execBlockLockTimeout (l : Fin 16) (s : State) : Host.Outcome State Fault Refusal := .next (s.laneFailIn l 4 0x06)

def execCapsTimeout (l : Fin 16) (s : State) : Host.Outcome State Fault Refusal := .next (s.laneFailIn l 5 0x07)

/-- Lane `l` has block lock, with a fresh window (R258, R259). -/
def State.blockLock (s : State) (l : Nat) : State :=
  (s.wf (F.FLK_STAT_BLOCK_LOCK l) 1).setLane l { s.lane l with window := List.replicate 64 false, valid := 0 }

/-- Block lock is declared (R258): BLOCKLOCK ends, a relock ends (R262), or the lane is awake (R270). -/
def State.blockLocked (s : State) (l : Nat) : State :=
  let s := s.blockLock l
  match s.laneState l with
  | 4 => (s.wf (F.FLK_STAT_STATE l) 5).setLane l { s.lane l with capsGot := false, capsAck := false, capsSent := 0 }
  | 6 =>
    if s.flag (F.FLK_STAT_RELOCK l) then
      let us := (s.tick.clock - (s.lane l).lostAt) / 65536000
      ((s.wf (F.FLK_STAT_RELOCK l) 0).showRoutes l).emit .LANE_RELOCK (objLink l) [(us : Nat)]
    else s
  | 7 => s.laneUp l
  | _ => s

/-- Lane `l` loses block lock. -/
def State.blockUnlock (s : State) (l : Nat) : State :=
  (s.wf (F.FLK_STAT_BLOCK_LOCK l) 0).setLane l { s.lane l with cand := 0, valid := 0, window := [] }

/-- Block lock is lost (R259, R261, R262). -/
def State.blockLost (s : State) (l : Nat) : State :=
  let s := s.blockUnlock l
  match s.laneState l with
  | 5 => s.laneFail l 0x0A
  | 6 =>
    let s := (s.bump (F.FLK_ERR_LOCK_LOSS l) 1).wf (F.FLK_STAT_RELOCK l) 1
    (s.setLane l { s.lane l with lostAt := s.tick.clock }).laneRelock l
  | _ => s

/-- A block is received (R258, R259): its sync header. -/
def State.blockIn (s : State) (l hdr : Nat) : State :=
  let st := s.laneState l
  let good := hdr == 1 || hdr == 2
  let x := s.lane l
  if !(st == 4 || st == 5 || st == 6 || (st == 7 && x.waking)) then s
  else if s.flag (F.FLK_STAT_BLOCK_LOCK l) then
    let w := ((!good) :: x.window).take 64
    let s := (if good then s else s.bump (F.FLK_ERR_BAD_HDR l) 1).setLane l { x with window := w }
    if 16 ≤ (w.filter id).length then s.blockLost l else s
  else if !good then s.setLane l { x with cand := (x.cand + 1) % 66, valid := 0 }
  else if x.valid + 1 < 64 then s.setLane l { x with valid := x.valid + 1 }
  else s.blockLocked l

def execBlockReceived (l : Fin 16) (hdr : Fin 4) (s : State) : Host.Outcome State Fault Refusal := .next (s.blockIn l hdr)

/-- The exchange is complete (R260). -/
def State.capsTry (s : State) (l : Nat) : State :=
  let x := s.lane l
  if x.capsAck && decide (8 ≤ x.capsSent) then
    let now := s.f (F.FLK_STAT_RATE_NOW l)
    let want := s.f (F.FLK_CTRL_RATE l)
    let s := (s.laneUp l).emit .LANE_UP (objLink l) [(now : Nat)]
    if now < want then s.emit .LANE_FALLBACK (objLink l) [(want : Nat), (now : Nat)] else s
  else s

/-- A CAPS block is received (R260, R261). -/
def State.capsIn (s : State) (l : Nat) (version rates flags : Nat) : State :=
  if s.laneState l ≠ 5 then s
  else
    let s := ((s.wf (F.FLK_FAR_CAPS_VERSION l) version).wf (F.FLK_FAR_CAPS_RATES l) rates).wf (F.FLK_FAR_CAPS_FLAGS l) flags
    if flags % 2 = 0 then s.laneFail l 0x08
    else if version ≠ 1 then s.laneFail l 0x09
    else
      let x := s.lane l
      (s.setLane l { x with capsGot := true, capsAck := x.capsAck || bitOf flags 1 }).capsTry l

def execCapsBlock (l : Fin 16) (version rates flags : BitVec 8) (s : State) : Host.Outcome State Fault Refusal :=
  .next (s.capsIn l version.toNat rates.toNat flags.toNat)

/-- The hub sends its CAPS block (R260). -/
def State.capsSend (s : State) (l : Nat) : State :=
  if s.laneState l ≠ 5 then s
  else
    let x := s.lane l
    let s := s.ctrlSend l 4 [0xD2, 0x01, 0x0F, 2 * b2n x.capsGot, l, 0, 0, 0]
    (s.setLane l { x with capsSent := if x.capsGot then min 8 (x.capsSent + 1) else x.capsSent }).capsTry l

def execCapsSend (l : Fin 16) (s : State) : Host.Outcome State Fault Refusal := .next (s.capsSend l)

/-! ### Losses (R252, R262, R275) -/

/-- No energy from the far end for 2 µs (R252). -/
def State.lossOfSignal (s : State) (l : Nat) : State :=
  let st := s.laneState l
  if st < 2 ∨ 6 < st then s
  else
    let s := s.wf (F.FLK_STAT_FAR_SEEN l) 0
    if st = 6 then (s.clearFails l).laneDrop l 0x01 else s.laneFail l 0x01

def execLossOfSignal (l : Fin 16) (s : State) : Host.Outcome State Fault Refusal := .next (s.lossOfSignal l)

/-- Lock is not regained in 10 ms (R262): the next bring-up begins from FLK_TX_EQ (R256). -/
def State.relockTimeout (s : State) (l : Nat) : State :=
  if s.laneState l = 6 ∧ s.flag (F.FLK_STAT_RELOCK l) then
    (s.setLane l { s.lane l with fromEq := true }).laneDrop l 0x0A
  else s

def execRelockTimeout (l : Fin 16) (s : State) : Host.Outcome State Fault Refusal := .next (s.relockTimeout l)

/-- REFCLK fails (R275): every lane past DETECT goes to DETECT. -/
def State.lanesRefLost (s : State) : State :=
  (List.range 16).foldl (fun s l =>
    let st := s.laneState l
    if st < 2 then s
    else if st = 6 then s.laneDrop l 0x0E
    else (s.toDetect l).wf (F.FLK_STAT_CAUSE l) 0x0E) s

/-! ### Low power (R268 to R273) -/

/-- A channel is attached on the lane (R268). -/
def State.laneBusy (s : State) (l : Nat) : Bool :=
  s.usedSlots.any fun c => decide (2 ≤ s.slotState c) &&
    (match s.partner (s.f (F.PTN_SLs_STAT_PARTNER c)) with
     | some p => p.routes.any fun r => r.lane == l
     | none => false)

/-- LANE_LP_REFUSED: reason 1 LP_STATE, 2 LANE_BUSY, 3 LP_NOACK; LP reads 0. -/
def State.lpRefuse (s : State) (l reason : Nat) : State :=
  (s.wf (F.FLK_CTRL_LP l) 0).emit .LANE_LP_REFUSED (objLink l) [(reason : Nat)]

/-- A request for a low-power state (R268, R269, R272). -/
def State.lpRequest (s : State) (l mode : Nat) : State :=
  let st := s.laneState l
  let x := s.lane l
  if (st = 7 ∧ !x.waking) ∨ st = 8 then s
  else if st ≠ 6 then s.lpRefuse l 1
  else if x.lpEntry.isSome then s
  else if s.laneBusy l then s.lpRefuse l 2
  else (s.setLane l { x with lpEntry := some mode, lpWake := false }).ctrlSend l 5 [0xD4, mode, 0, 0, 0, 0, 0, 0]

/-- The exit from a low-power state begins (R270, R271), or waits for the end of an entry (R272). -/
def State.lpExit (s : State) (l : Nat) : State :=
  let x := s.lane l
  match s.laneState l with
  | 6 => if x.lpEntry.isSome then s.setLane l { x with lpWake := true } else s
  | 7 =>
    if x.waking then s
    else (s.setLane l { x with waking := true, cand := 0, valid := 0, window := [] }).laneSend l 3 []
  | 8 => ((s.wf (F.FLK_STAT_STATE l) 9).setLane l { x with fromEq := true, drop := 0, seen := 0 }).laneSend l 1 []
  | _ => s

/-- An LP block arrives (R269): the acknowledgement of the entry under way completes it. During RELOCK it is discarded (R262). -/
def State.lpBlockIn (s : State) (l mode : Nat) (ack : Bool) : State :=
  let x := s.lane l
  if !s.laneLive l ∨ x.lpEntry ≠ some mode ∨ !ack then s
  else
    let s := (s.ctrlSend l 5 [0xD4, mode, 1, 0, 0, 0, 0, 0]).laneSend l 0 []
    let s := ((s.wf (F.FLK_STAT_STATE l) (if mode = 1 then 7 else 8)).wf (F.FLK_STAT_FAR_SEEN l) 0).laneRest l
    if x.lpWake then s.lpExit l else s

def execLpBlock (l : Fin 16) (mode : Fin 4) (ack : Bool) (s : State) : Host.Outcome State Fault Refusal :=
  .next (s.lpBlockIn l mode ack)

/-- No acknowledgement within 100 µs (R269). -/
def execLpNoack (l : Fin 16) (s : State) : Host.Outcome State Fault Refusal :=
  .next (if s.laneState l == 6 && (s.lane l).lpEntry.isSome then
      (s.setLane l { s.lane l with lpEntry := none, lpWake := false }).lpRefuse l 3
    else s)

/-- A wake from BANKED does not lock within 100 µs (R270). -/
def execWakeFail (l : Fin 16) (s : State) : Host.Outcome State Fault Refusal :=
  .next (if s.laneState l == 7 && (s.lane l).waking then s.laneFail l 0x0B else s)

/-- The far end wakes a sleeping lane, or one whose entry is under way (R270 to R272). -/
def State.wakeFar (s : State) (l : Nat) : State :=
  let st := s.laneState l
  let x := s.lane l
  if (st = 7 ∧ !x.waking) ∨ st = 8 ∨ (st = 6 ∧ x.lpEntry.isSome ∧ !x.lpWake) then
    ((((s.wf (F.FLK_CTRL_LP l) 0).wf (F.FLK_STAT_FAR_SEEN l) 1).emit .LANE_WAKE_FAR (objLink l) [])).lpExit l
  else s

def execLaneWakeFar (l : Fin 16) (s : State) : Host.Outcome State Fault Refusal := .next (s.wakeFar l)

/-- The loops have restarted (R271): TRAIN from FLK_TX_EQ; with the far end absent the lane goes on in DETECT (R273). -/
def State.relightDone (s : State) (l : Nat) : State :=
  if s.laneState l ≠ 9 then s
  else
    if s.flag (F.FLK_STAT_FAR_SEEN l) && s.refOk && !s.flag (F.FLK_STAT_HOLDOFF l) then (s.laneLeave l).toTrain l else s.toDetect l

def execRelightDone (l : Fin 16) (s : State) : Host.Outcome State Fault Refusal := .next (s.relightDone l)

/-! ### FLK_CTRL and FLK_TX_INIT -/

/-- The lane goes to DISABLED (R246, R264). -/
def State.laneOff (s : State) (l : Nat) : State :=
  let st := s.laneState l
  if st = 0 then s
  else
    let s := (((s.laneLeave l).domReset (16 + l) 1).wf (F.FLK_STAT_STATE l) 0).laneSend l 0 []
    let s := s.setLane l { s.lane l with drop := 0, fromEq := false }
    if st = 6 then s.laneDown l 0x0D else s

/-- RETRAIN (R264). -/
def State.laneRetrain (s : State) (l : Nat) : State :=
  let st := s.laneState l
  if st = 0 then s
  else
    let s := (s.clearFails l).setLane l { s.lane l with streak := 0, holdEnd := 0, drop := 0 }
    let s := s.toDetect l
    let s := s.setLane l { s.lane l with fromEq := false }
    if st = 6 then s.laneDown l 0x0C else s

/-- A write of FLK_CTRL (R246, R247, R250, R264, R268 to R272): the bits that a write acts through. -/
def State.laneCtrl (s : State) (l : Nat) (w : Word) : State :=
  let s := (s.wr (Reg.FLK_CTRL l) (w &&& 0xD3330000#32)).refShow s l
  let st := s.laneState l
  if !(s.flag (F.FLK_CTRL_EN l) && s.flag (F.FLK_CTRL_REF_EN l)) then
    let s := s.laneOff l
    let s := (s.setLane l { s.lane l with rate := s.f (F.FLK_CTRL_RATE l), spread := s.f (F.FLK_CTRL_SPREAD l) }).refShow s l
    let lp := s.f (F.FLK_CTRL_LP l)
    if (lp = 1 ∨ lp = 2) ∧ st ≠ 7 ∧ st ≠ 8 then s.lpRefuse l 1 else s
  else
    let s := if st = 0 then (s.setLane l { s.lane l with drop := 0 }).toDetect l
      else if st = 1 ∧ (s.lane l).rate ≠ s.f (F.FLK_CTRL_RATE l) then
        let s := s.setLane l { s.lane l with rate := s.f (F.FLK_CTRL_RATE l) }
        s.wf (F.FLK_STAT_RATE_NOW l) (s.attemptRate l)
      else s
    let s := if w.getLsbD 29 then s.laneRetrain l else s
    match s.f (F.FLK_CTRL_LP l) with
    | 0 => s.lpExit l
    | 1 => s.lpRequest l 1
    | 2 => s.lpRequest l 2
    | _ => s

/-- A write of FLK_TX_INIT (R249). -/
def State.laneTx (s : State) (l : Nat) (w : Word) : State :=
  let w := w &&& 0x001F7F3F#32
  if tapsOk (tapsOf w) then s.wr (Reg.FLK_TX_INIT l) w else s.emit .LANE_EQ_BAD (objLink l) [(w.toNat : Nat)]

/-- FLK_CTRL with a field replaced, as the rows that write one field do. -/
def State.laneField (s : State) (l : Nat) (x : RegField) (v : Nat) : State :=
  s.laneCtrl l (setField (s.rd (Reg.FLK_CTRL l)) x.hi x.lo v)

def execLaneDisable (_ : Master) (l : Fin 16) (s : State) : Host.Outcome State Fault Refusal :=
  .next (s.laneField l (F.FLK_CTRL_EN l) 0)

def execRetrain (_ : Master) (l : Fin 16) (s : State) : Host.Outcome State Fault Refusal :=
  .next (s.laneField l (F.FLK_CTRL_RETRAIN l) 1)

def execLaneLpRequest (_ : Master) (l : Fin 16) (smoulder : Bool) (s : State) : Host.Outcome State Fault Refusal :=
  .next (s.laneField l (F.FLK_CTRL_LP l) (if smoulder then 2 else 1))

def execLaneLpWake (_ : Master) (l : Fin 16) (s : State) : Host.Outcome State Fault Refusal :=
  .next (s.laneField l (F.FLK_CTRL_LP l) 0)

end Sys2Proof.Machine
end

