-- ==== Sys2Proof/Machine/Time.lean ====
section
/-!
DEFINITION. Network time (R307 to R335): the servo and its states, master selection, the two PTP ports, path
delays, the arming of a restep, and the hop delays of the field lanes. Times and offsets are in 2^-16 ns, rates in
2^-40, hop delays in 2^-8 ns.
-/
namespace Sys2Proof.Machine

open Sys2Proof

/-! ### Access -/

def port0 : PortSt :=
  { foreign := [], best := none, syncs := [], ms := none, reqs := [], nextSeq := 0, mpd := none, offs := [] }

def State.port (s : State) (u : Nat) : PortSt := tabGet (fun _ => port0) s.ptp.ports u
def State.setPort (s : State) (u : Nat) (x : PortSt) : State := { s with ptp.ports := tabSet (fun _ => port0) s.ptp.ports u x }

/-- STATE of the servo: 0 NO_TIME, 1 ACQUIRE, 2 LOCKED, 3 SLEW, 4 HOLDOVER. -/
def State.servo (s : State) : Nat := s.f F.PTP_SERVO_STAT_STATE

/-- LOCK_THR in 2^-16 ns; 0 acts as 1. -/
def State.lockThr (s : State) : Nat := 65536 * max 1 (s.f F.PTP_SERVO_CFG_LOCK_THR)

/-- QUAL; 0 acts as 1. -/
def State.qual (s : State) : Nat := max 1 (s.f F.PTP_SERVO_CFG_QUAL)

/-- SLEW_PPM in 2^-40: 0 acts as 1, above 200 as 200. -/
def State.slewRate (s : State) : Int := ((min 200 (max 1 (s.f F.PTP_SERVO_CFG_SLEW_PPM)) * 1099511627776 / 1000000 : Nat) : Int)

/-- The filtered offset. -/
def State.ofs (s : State) : Int := signedOf 64 (s.f64 F.PTP_OFFSET_LO_OFS F.PTP_OFFSET_HI_OFS)
def State.setOfs (s : State) (v : Int) : State := s.wf64 F.PTP_OFFSET_LO_OFS F.PTP_OFFSET_HI_OFS (bitsOf 64 v)

/-- The port runs PTP. -/
def State.portOn (s : State) (u : Nat) : Bool := s.flag F.PTP_CTRL_EN && s.flag (F.PTP_Un_CFG_EN u)

/-! ### The rate (R308, R320, R321) -/

/-- The clamp of the rate fence. -/
def State.rateFence (s : State) : Int := ((s.f F.FNC_RATE_PPM * 1099511627776 / 100000000 : Nat) : Int)

/-- The rate the servo ramps to. -/
def State.rateGoal (s : State) : Int :=
  match s.servo with
  | 0 => 0
  | 1 => if s.ptp.beyond = 0 then s.ptp.loop else if s.ptp.ahead then s.ptp.freq - s.slewRate else s.ptp.freq + s.slewRate
  | 2 => s.ptp.loop
  | 3 => if 0 < s.ofs then s.ptp.freq - s.slewRate else s.ptp.freq + s.slewRate
  | _ => s.fs F.PTP_HOLD_RATE_RATE

/-- 0.1 ppm. -/
def rateStep : Int := 109951

/-- A tick's change of r (R308): at most 0.1 ppm toward the goal, clamped by the fence. While Stoker is down, r stays as it is until
holdover is entered (R13, R322). -/
def State.servoTick (s : State) : State :=
  if !s.stokerUp && s.servo != 4 then s
  else
  let want := s.rateGoal
  let goal := clampTo s.rateFence want
  let r := s.rateCorr
  let next := if r + rateStep < goal then r + rateStep else if goal < r - rateStep then r - rateStep else goal
  let s := s.wfs F.PTP_RATE_RATE next
  if goal = want then { s with ptp.clamped := false }
  else if s.ptp.clamped then s
  else
    let s := { s with ptp.clamped := true }
    (s.fenceHit 3).emit .PTP_RATE_CLAMP 0 [want, goal]

/-! ### What the ports show -/

/-- PSTATE and the grandmaster registers of a port. -/
def State.showPort (s : State) (u : Nat) : State :=
  let x := s.port u
  let st := if !s.flag (F.PTP_Un_CFG_EN u) then 2 else if !s.flag F.PTP_CTRL_EN then 0
    else match x.best, s.ptp.sel with
      | none, _ => 3
      | some _, some (v, _) => if v = u then (if s.qual ≤ x.offs.length ∨ s.servo = 2 ∨ s.servo = 3 then 5 else 4) else 6
      | some _, none => 3
  let gm := match x.best with | some a => a.gm | none => 0
  (s.wf (F.PTP_Un_STAT_PSTATE u) st).wf64 (F.PTP_Un_GM_LO_GMID u) (F.PTP_Un_GM_HI_GMID u) gm

def State.showPorts (s : State) : State := (s.showPort 0).showPort 1

/-! ### The servo's states (R316, R318 to R323) -/

/-- TIME_OFFSET (R320). -/
def State.timeOffset (s : State) : State := s.emit .TIME_OFFSET 0 [(s.tick.num : Nat), s.ofs]

/-- The servo enters a state; PTP_STATE carries the old and the new one and the cause: 0 none of R321, 1 Announce timeout,
2 no Sync, 3 another grandmaster, 4 no update, 5 EN cleared. LOCKED takes up the frequency estimate: after a slew r ramps back to it (R320). -/
def State.servoEnter (s : State) (new cause : Nat) : State :=
  let old := s.servo
  let s := if old = 3 then s.timeOffset else s
  let s := s.wf F.PTP_SERVO_STAT_STATE new
  let s := { s with ptp.inside := 0, ptp.beyond := 0, ptp.switchLeft := 0 }
  let s := if new = 2 then
      { s with ptp.lockAt := s.tick.clock, tick.firstLock := true, ptp.hist := if old = 3 then s.ptp.hist else [],
               ptp.loop := if old = 1 then s.ptp.loop else s.ptp.freq }
    else s
  let s := if new = 3 then s.timeOffset else s
  s.condNote.showPorts.emit .PTP_STATE 0 [(old : Nat), (new : Nat), (cause : Nat)]

/-- The measurements of both ports start again. -/
def State.clearOffs (s : State) : State :=
  (s.setPort 0 { s.port 0 with offs := [] }).setPort 1 { s.port 1 with offs := [] }

/-- The holdover rate (R321): the mean estimate over the averaging time, or over the whole of LOCKED. -/
def State.holdRate (s : State) : Int :=
  let t := 2 ^ s.f F.PTP_SERVO_CFG_HOLD_AVG * secUnits
  let l := (s.ptp.hist.filter fun e => decide (s.tick.clock ≤ e.1 + t)).map (·.2)
  if l.isEmpty then s.ptp.freq else rdiv l.sum l.length

/-- The servo enters HOLDOVER from LOCKED or SLEW (R321). -/
def State.toHoldover (s : State) (cause : Nat) : State :=
  if s.servo = 2 ∨ s.servo = 3 then (s.wfs F.PTP_HOLD_RATE_RATE s.holdRate).clearOffs.servoEnter 4 cause else s

/-- The median of measurements. -/
def medianOf (l : List Int) : Int := median l

/-- The loop takes a measurement (R319): at a filtered offset of zero it holds the frequency estimate. -/
def State.loopTake (s : State) (o : Int) : State :=
  let bw := s.f F.PTP_SERVO_CFG_BW
  let f := s.ofs
  let q := s.ptp.freq
  let r := s.ptp.loop
  let freq := Config.loopFreq bw f q r o
  let ofs := Config.loopOffset bw f q r o
  let s := s.setOfs ofs
  { s with ptp.freq := freq, ptp.loop := if ofs = 0 then freq else Config.loopRate bw f q r o, ptp.hist := (s.tick.clock, freq) :: s.ptp.hist }

/-- A measurement counts as within or beyond LOCK_THR. -/
def State.countOfs (s : State) (o : Int) : State :=
  if o.natAbs ≤ s.lockThr then { s with ptp.inside := s.ptp.inside + 1, ptp.beyond := 0 }
  else { s with ptp.inside := 0, ptp.beyond := s.ptp.beyond + 1, ptp.ahead := decide (0 < o) }

/-- What a port keeps of stamps and measurements, on a hub clock that has stepped by `d` since. -/
def PortSt.stepped (x : PortSt) (d : Int) : PortSt :=
  { x with syncs := x.syncs.map fun w => { w with t2 := w.t2 + d }, ms := x.ms.map (· + d), reqs := x.reqs.map fun r => (r.1, r.2 + d),
           offs := x.offs.map (· + d) }

/-- The ports follow a step of the hub clock (log entry 74). -/
def State.portsStep (s : State) (d : Int) : State := (s.setPort 0 ((s.port 0).stepped d)).setPort 1 ((s.port 1).stepped d)

/-- ACQUIRE (R318): the single step once QUAL measurements are in, then by rate only. -/
def State.acquire (s : State) (u : Nat) (o : Option Int) : State :=
  if !s.flag F.PTP_SERVO_STAT_STEPPED then
    let l := (s.port u).offs
    if l.length < s.qual then s
    else
      let step := -(medianOf (l.take s.qual))
      let s := { s with tick.clock := ((s.tick.clock : Int) + step).toNat }
      (((s.wf F.PTP_SERVO_STAT_STEPPED 1).setOfs 0).portsStep step).clearOffs.emit .PTP_STEP 0 [step]
  else match o with
    | none => s
    | some o =>
      let s := (s.loopTake o).countOfs o
      if s.qual ≤ s.ptp.inside then s.servoEnter 2 0 else s

/-- A measurement of the selected port reaches the servo; while Stoker is down, the servo takes none (R322). -/
def State.servoTake (s : State) (u : Nat) (o : Int) : State :=
  if !s.stokerUp then s
  else match s.servo with
  | 1 => s.acquire u (some o)
  | 2 =>
    let far := decide (s.lockThr < (o - s.ofs).natAbs)
    let left := s.ptp.switchLeft
    let allFar := s.ptp.switchFar && far
    let s := { s with ptp.switchLeft := left - 1, ptp.switchFar := allFar }
    let s := (s.loopTake o).countOfs o
    if s.qual ≤ s.ptp.beyond ∨ (left = 1 ∧ allFar) then s.servoEnter 3 0 else s
  | 3 =>
    let s := s.loopTake o
    if s.ofs.natAbs ≤ s.lockThr / 4 then s.servoEnter 2 0 else s
  | 4 =>
    let l := (s.port u).offs
    if l.length < s.qual then s
    else
      let m := medianOf (l.take s.qual)
      let s := s.setOfs m
      if m.natAbs ≤ s.lockThr then s.servoEnter 2 0 else s.servoEnter 3 0
  | _ => s

/-! ### Master selection (R315, R316) -/

/-- A data set as a list compared in order (the default BMCA, PRESUMED IEEE 1588, log entry 73): the smaller is the better. -/
def annKey (a : Announce) : List Nat := [a.prio1, a.cls, a.acc, a.var, a.prio2, a.gm, a.steps, a.src]

/-- `a` comes before `b` in the first place where they differ. -/
def keyLess : List Nat → List Nat → Bool
  | x :: r, y :: q => decide (x < y) || (x == y && keyLess r q)
  | _, _ => false

/-- The best of a port's foreign masters that have sent two Announce messages. -/
def bestOf (l : List Master1588) : Option Announce :=
  (l.filter fun m => decide (2 ≤ m.count)).foldl (fun b m => match b with
    | some x => if keyLess (annKey m.ann) (annKey x) then some m.ann else b
    | none => some m.ann) none

/-- The port that becomes SLAVE (R315): with masters of equal rank of one grandmaster, U0. -/
def State.bestPort (s : State) : Option (Nat × Announce) :=
  match (s.port 0).best, (s.port 1).best with
  | none, none => none
  | some a, none => some (0, a)
  | none, some b => some (1, b)
  | some a, some b => if keyLess ((annKey b).take 7) ((annKey a).take 7) then some (1, b) else some (0, a)


/-- The selection is made again; `cause` is that of R321 when the master is lost or changes. While Stoker is down, the selection and the
servo's state stand (R322). -/
def State.select (s : State) (cause : Nat) : State :=
  if !s.stokerUp then s
  else
  let old := s.ptp.sel
  let new := s.bestPort
  let s := { s with ptp.sel := new }.wb F.PTP_SERVO_STAT_GM_VALID new.isSome
  let s := match new with | some (u, _) => s.wf F.PTP_SERVO_STAT_PORT u | none => s
  let s := match old, new with
    | none, none => s
    | none, some (u, _) => if s.servo = 0 then (s.servoEnter 1 0).acquire u none else s
    | some _, none => if s.servo = 1 then (s.servoEnter 0 cause).clearOffs else s.toHoldover cause
    | some (u, a), some (v, b) =>
      if a.gm = b.gm then
        if u = v then s
        else
          let s := { s with ptp.switchLeft := s.qual, ptp.switchFar := true }.emit .PTP_PORT_SWITCH (objLink (16 + v)) []
          if s.servo = 1 then s.acquire v none else s
      else if s.servo = 1 then s.clearOffs.acquire v none
      else s.toHoldover (if cause = 0 then 3 else cause)
  s.showPorts

/-! ### Messages (R310 to R314) -/

/-- The message is one the port takes (R310). -/
def State.ptpMatch (s : State) (u : Nat) (h : PtpHdr) : Bool :=
  h.known && h.transport == s.f (F.PTP_Un_CFG_TRANSPORT u) && h.domain == s.f F.PTP_CTRL_DOMAIN
    && h.sdoMaj == s.f F.PTP_CTRL_SDO_MAJ && h.sdoMin == s.f F.PTP_CTRL_SDO_MIN
    && h.vid == (if s.flag (F.PTP_Un_CFG_VLAN_EN u) then some (s.f (F.PTP_Un_CFG_VID u)) else none)
    && h.major == 2 && decide (h.minor ≤ 1)

/-- Run `f` on a message that the port takes; another is only counted (R310). -/
def State.ptpIn (s : State) (u : Nat) (h : PtpHdr) (f : State → State) : State :=
  if !s.portOn u then s else if s.ptpMatch u h then f s else s.bump (F.PTP_Un_CNT_RX_BAD u) 1

/-- The port's master sent it. -/
def State.fromBest (s : State) (u src : Nat) : Bool := match (s.port u).best with | some a => a.src == src | none => false

/-- Offsets kept for each port. -/
def offsKept : Nat := 255

/-- An ingress stamp of port `u` of a message from its master, and an egress stamp of a request to it: at the connector (R312), and with
delayAsymmetry on the master's path taken off it (R314). Both settings are those at the stamp. -/
def State.stampIn (s : State) (u : Nat) (stamp : Int) : Int := stamp - (s.f (F.PTP_Un_ING_LAT_LAT u) : Nat) - s.fs (F.PTP_Un_ASYM_ASYM u)
def State.stampOut (s : State) (u : Nat) (stamp : Int) : Int := stamp + (s.f (F.PTP_Un_EGR_LAT_LAT u) : Nat) - s.fs (F.PTP_Un_ASYM_ASYM u)

/-- A Sync is complete (R314): its measurement, once the path delay is known. -/
def State.measure (s : State) (u : Nat) (origin corr t2 : Int) : State :=
  let ms := t2 - origin - corr
  let x := s.port u
  let s := s.setPort u { x with ms := some ms }
  match x.mpd with
  | none => s
  | some d =>
    let o := ms - d
    let s := (s.setPort u { s.port u with offs := (o :: x.offs).take offsKept }).showPort u
    match s.ptp.sel with
    | some (v, _) => if v = u then s.servoTake u o else s
    | none => s

/-- A Sync is stamped (R312, R314). -/
def State.syncIn (s : State) (u src seq : Nat) (two : Bool) (origin corr stamp : Int) : State :=
  if !s.fromBest u src then s
  else
    let t2 := s.stampIn u stamp
    let s := s.bumpWrap (F.PTP_Un_CNT_SYNC u) 1
    if two then
      let x := s.port u
      s.setPort u { x with syncs := x.syncs ++ [{ src := src, seq := seq, t2 := t2, corr := corr }] }
    else s.measure u origin corr t2

def execPtpSync (u : Fin 2) (h : PtpHdr) (src seq : Nat) (twoStep : Bool) (origin corr stamp : Int) (s : State) :
    Host.Outcome State Fault Refusal := .next (s.ptpIn u h fun s => s.syncIn u src seq twoStep origin corr stamp)

/-- A Follow_Up completes its Sync (R314). -/
def State.followUp (s : State) (u src seq : Nat) (origin corr : Int) : State :=
  let x := s.port u
  match x.syncs.find? fun w => w.seq == seq && w.src == src with
  | none => s
  | some w =>
    (s.setPort u { x with syncs := x.syncs.filter fun w => !(w.seq == seq && w.src == src) }).measure u origin (w.corr + corr) w.t2

def execPtpFollowUp (u : Fin 2) (h : PtpHdr) (src seq : Nat) (origin corr : Int) (s : State) :
    Host.Outcome State Fault Refusal := .next (s.ptpIn u h fun s => s.followUp u src seq origin corr)

/-- No Follow_Up for 100 ms (R314). -/
def State.followUpTimeout (s : State) (u seq : Nat) : State :=
  let x := s.port u
  if x.syncs.any fun w => w.seq == seq then
    (s.setPort u { x with syncs := x.syncs.filter fun w => w.seq != seq }).bump (F.PTP_Un_CNT_RX_BAD u) 1
  else s

def execFollowUpTimeout (u : Fin 2) (seq : Nat) (s : State) : Host.Outcome State Fault Refusal := .next (s.followUpTimeout u seq)

/-- Port `u` has the foreign masters `l` (R315). Measurements are of one master: with another best one they start again, and the path delay to
it too when requests measure it (R323). -/
def State.foreignSet (s : State) (u : Nat) (l : List Master1588) : State :=
  let x := s.port u
  let b := bestOf l
  let who (a : Option Announce) : Option (Nat × Nat) := a.map fun a => (a.src, a.gm)
  let y : PortSt := { x with foreign := l, best := b }
  s.setPort u (if who x.best = who b then y
    else { y with syncs := [], offs := [], ms := none, mpd := if s.flag F.PTP_CTRL_PROFILE then x.mpd else none })

/-- An Announce message (R315): eight foreign-master entries are kept on each port. -/
def State.announceIn (s : State) (u : Nat) (a : Announce) : State :=
  let x := s.port u
  let known := x.foreign.any fun m => m.ann.src == a.src
  let again (m : Master1588) : Master1588 := if m.ann.src = a.src then { ann := a, count := min 2 (m.count + 1) } else m
  let l := if known then x.foreign.map again
    else if x.foreign.length < 8 then x.foreign ++ [{ ann := a, count := 1 }] else x.foreign
  (s.foreignSet u l).select 0

def execPtpAnnounce (u : Fin 2) (h : PtpHdr) (a : Announce) (s : State) : Host.Outcome State Fault Refusal :=
  .next (s.ptpIn u h fun s => s.announceIn u a)

/-- The Announce of a port's master times out (R321). -/
def State.announceTimeout (s : State) (u : Nat) : State :=
  let x := s.port u
  match x.best with
  | none => s
  | some a =>
    (s.foreignSet u (x.foreign.filter fun m => m.ann.src != a.src)).select 1

def execAnnounceTimeout (u : Fin 2) (s : State) : Host.Outcome State Fault Refusal := .next (s.announceTimeout u)

/-- A path or link delay is measured (R314). -/
def State.setMpd (s : State) (u : Nat) (d : Int) : State :=
  (s.setPort u { s.port u with mpd := some d }).wf (F.PTP_Un_MPD_MPD u) (min 4294967295 d.toNat)

/-- Delay_Resp (R314): the mean path delay. -/
def State.delayResp (s : State) (u src seq : Nat) (receipt corr : Int) : State :=
  let x := s.port u
  match x.reqs.find? fun r => r.1 == seq, x.ms with
  | some r, some ms =>
    if s.fromBest u src && !s.flag F.PTP_CTRL_PROFILE then
      (s.setPort u { x with reqs := x.reqs.filter fun r => r.1 != seq }).setMpd u (rdiv (ms + (receipt - r.2 - corr)) 2)
    else s
  | _, _ => s

def execPtpDelayResp (u : Fin 2) (h : PtpHdr) (src seq : Nat) (receipt corr : Int) (s : State) :
    Host.Outcome State Fault Refusal := .next (s.ptpIn u h fun s => s.delayResp u src seq receipt corr)

/-- Pdelay_Req is answered one-step (R313): the turnaround goes into correctionField, and requestReceiptTimestamp is zero; requestingPortIdentity,
which comes with the request, is a free value (log entry 129). -/
def State.pdelayReq (s : State) (u seq : Nat) (ingress egress : Int) : State :=
  let turn := (egress + (s.f (F.PTP_Un_EGR_LAT_LAT u) : Nat)) - (ingress - (s.f (F.PTP_Un_ING_LAT_LAT u) : Nat))
  let f := s.freeWords 3
  f.2.ptpOut .ptpPdelayResp u [(seq : Nat), 0, turn] 3 turn seq 5 (List.replicate 10 0 ++ (wordsBytes f.1).take 10)

def execPtpPdelayReq (u : Fin 2) (h : PtpHdr) (seq : Nat) (ingress egress : Int) (s : State) :
    Host.Outcome State Fault Refusal := .next (s.ptpIn u h fun s => s.pdelayReq u seq ingress egress)

/-- Pdelay_Resp (R314): the link delay; `turn` is the responder's turnaround from its timestamps, 0 when it is one-step. -/
def State.pdelayResp (s : State) (u seq : Nat) (turn corr stamp : Int) : State :=
  let x := s.port u
  match x.reqs.find? fun r => r.1 == seq with
  | some r =>
    if s.flag F.PTP_CTRL_PROFILE then
      (s.setPort u { x with reqs := x.reqs.filter fun r => r.1 != seq }).setMpd u (rdiv (s.stampIn u stamp - r.2 - turn - corr) 2)
    else s
  | none => s

def execPtpPdelayResp (u : Fin 2) (h : PtpHdr) (seq : Nat) (turn corr stamp : Int) (s : State) :
    Host.Outcome State Fault Refusal := .next (s.ptpIn u h fun s => s.pdelayResp u seq turn corr stamp)

/-- Delay_Req or Pdelay_Req leaves (R313): the egress stamp, referred to the connector, goes into originTimestamp and, below a
nanosecond, into correctionField. -/
def State.reqSend (s : State) (u : Nat) (egress : Int) : State :=
  let x := s.port u
  let peer := s.flag F.PTP_CTRL_PROFILE
  if !s.portOn u || (!peer && x.best.isNone) then s
  else
    let t := egress + (s.f (F.PTP_Un_EGR_LAT_LAT u) : Nat)
    let s := s.setPort u { x with reqs := ((x.nextSeq, s.stampOut u egress) :: x.reqs).take 8, nextSeq := (x.nextSeq + 1) % 65536 }
    let ns := t.toNat / 65536
    s.ptpOut .ptpReq u [(b2n peer : Nat), (x.nextSeq : Nat), t / 65536, t % 65536] (if peer then 2 else 1) (t % 65536) x.nextSeq (if peer then 5 else 1)
      (beBytes 6 (ns / 1000000000) ++ beBytes 4 (ns % 1000000000) ++ if peer then List.replicate 10 0 else [])

def execPtpReqSend (u : Fin 2) (egress : Int) (s : State) : Host.Outcome State Fault Refusal := .next (s.reqSend u egress)

/-! ### Timeouts and checks (R317, R320, R321) -/

def execSyncTimeout (s : State) : Host.Outcome State Fault Refusal := .next (if s.stokerUp then s.toHoldover 2 else s)

def execServoUpdateTimeout (s : State) : Host.Outcome State Fault Refusal := .next (s.toHoldover 4)

/-- The offsets of both ports are compared (R317). -/
def State.portCompare (s : State) : State :=
  match (s.port 0).best, (s.port 1).best, (s.port 0).offs, (s.port 1).offs with
  | some a, some b, x :: _, y :: _ =>
    if a.gm = b.gm ∧ 4 * s.lockThr < (x - y).natAbs then
      let k := s.ptp.disagree + 1
      let s := { s with ptp.disagree := k }
      if k = 8 then s.emit .PTP_PORT_DISAGREE 0 [x, y] else s
    else { s with ptp.disagree := 0 }
  | _, _, _, _ => { s with ptp.disagree := 0 }

def execPortCompare (s : State) : Host.Outcome State Fault Refusal := .next s.portCompare

def execTimeOffset (s : State) : Host.Outcome State Fault Refusal := .next (if s.servo = 3 then s.timeOffset else s)

/-- PTP_CTRL is written (R309): a change of what identifies the domain while EN is 1 is discarded. -/
def State.ptpCtrl (s : State) (w : Word) : State :=
  let old := s.rd Reg.PTP_CTRL
  let w := w &&& 0x80FFFFF1#32
  if old.getLsbD 31 && (w &&& 0x7FFFFFFF#32) != (old &&& 0x7FFFFFFF#32) then s.emit .PTP_CFG_BUSY 0 []
  else
    let s := s.wr Reg.PTP_CTRL w
    let s :=
      if old.getLsbD 31 && !w.getLsbD 31 then
        let s := if s.servo = 1 then s.servoEnter 0 5 else s.toHoldover 5
        ({ s with ptp.sel := none, ptp.ports := [] }).wf F.PTP_SERVO_STAT_GM_VALID 0
      else s
    s.showPorts

/-! ### Arming a restep (R324, R325) -/

/-- The step of MODE 0. -/
def State.restepVal (s : State) : Int := signedOf 64 (s.f64 F.PTP_RESTEP_VAL_LO_STEP F.PTP_RESTEP_VAL_HI_STEP)
def State.restepTick (s : State) : Nat := s.f64 F.PTP_RESTEP_TICK_LO_TICK F.PTP_RESTEP_TICK_HI_TICK
def State.restepExp (s : State) : Nat := s.f64 F.PTP_RESTEP_EXP_LO_TICK F.PTP_RESTEP_EXP_HI_TICK

/-- A restep is armed. -/
def State.restepArmed (s : State) : Bool := s.f F.PTP_RESTEP_STAT_RESULT == 1

/-- The step breaks the authorisation's bound (RESTEP_BOUND): its direction differs from DIR, or its magnitude exceeds MAX µs. -/
def State.restepOut (s : State) (step : Int) : Bool :=
  let back := s.flag F.PTP_RESTEP_AUTH_DIR
  (decide (0 < step) && back) || (decide (step < 0) && !back) || decide (s.f F.PTP_RESTEP_AUTH_MAX * 65536000 < step.natAbs)

/-- A step is refused: RESULT; the authorisation ends with RESTEP_BOUND (R324); the step fence has acted. -/
def State.restepRefuse (s : State) (code : Nat) : State :=
  let s := s.wf F.PTP_RESTEP_STAT_RESULT code
  let s := if code = 5 then s.wf F.PTP_RESTEP_AUTH_VALID 0 else s
  if 3 ≤ code ∧ code ≤ 5 then s.fenceHit 4 else s

/-- The code of a GO (R325): SCHED_LATE 7, then 3 to 6 in order; 1 when it is accepted. -/
def State.goCode (s : State) (mode : Bool) : Nat :=
  if !leadOk s.tick.num (s.restepTick + 1) then 7
  else if !s.flag F.PTP_RESTEP_AUTH_VALID then 3
  else if s.restepExp < s.restepTick then 4
  else if !mode && s.restepOut s.restepVal then 5
  else if s.servo ≠ 2 ∧ s.servo ≠ 3 then 6
  else 1

/-- GO and CANCEL (R325). -/
def State.restepCmd (s : State) (go mode cancel : Bool) : State :=
  if go && cancel then s.emit .RESTEP_CMD_BAD 0 []
  else if go then
    if s.restepArmed then s
    else
      let c := s.goCode mode
      if c = 1 then { s with ptp.mode := mode }.wf F.PTP_RESTEP_STAT_RESULT 1 else s.restepRefuse c
  else if cancel && s.restepArmed && decide (s.tick.num + 2 ≤ s.restepTick) then s.wf F.PTP_RESTEP_STAT_RESULT 8
  else s

def execGo (_ : Master) (mode cancel : Bool) (s : State) : Host.Outcome State Fault Refusal :=
  .next (s.restepCmd true mode cancel)

def execCancel (_ : Master) (s : State) : Host.Outcome State Fault Refusal := .next (s.restepCmd false false true)

/-- The expiry tick ends (R324): nothing before it has come. -/
def execRestepAuthExpiry (s : State) : Host.Outcome State Fault Refusal :=
  .next (if s.restepExp ≤ s.tick.num then s.wf F.PTP_RESTEP_AUTH_VALID 0 else s)

/-! ### Hop delays (R332, R333) -/

/-- Marker blocks leave on a lane. -/
def State.markerSend (s : State) (l : Nat) (vals : List Int) (bs : List (List Nat)) : State := s.blocksOut .probe l vals (bs.map ctrlBlock)

/-- PROBE leaves. -/
def State.probeSend (s : State) (l : Nat) (depart : Int) : State :=
  if s.laneState l ≠ 6 then s
  else
    let x := s.hop l
    (s.setHop l { x with out := x.out ++ [(x.seq, depart)], sent := min 64 (x.sent + 1), seq := (x.seq + 1) % 256 }).markerSend l
      [0xC1, (x.seq : Nat)] [[0xC1, x.seq, 0, 0, 0, 0, 0, 0]]

def execProbeSend (l : Fin 16) (depart : Int) (s : State) : Host.Outcome State Fault Refusal := .next (s.probeSend l depart)

/-- The delay in 2^-8 ns from results of twice their value: the median, rounded to nearest once (R332). -/
def hopMedian (l : List Int) : Int := medianDiv l 2

/-- The median of the latest results is published, with HOPDLY (R332, R333): after the first 64 probes, then after each. -/
def State.hopPublish (s : State) (l : Nat) : State :=
  let x := s.hop l
  if x.results.isEmpty ∨ x.sent < 64 ∨ (!x.published ∧ !x.out.isEmpty) then s
  else
    let d := (hopMedian x.results).toNat
    let was := s.f (F.PTP_FLl_DELAY_DLY l)
    let top := x.results.foldl (fun a v => if a < v then v else a) (x.results.headD 0)
    let low := x.results.foldl (fun a v => if v < a then v else a) (x.results.headD 0)
    let far := x.published && decide (s.f (F.PTP_FLl_TOL_TOL l) < ((d : Int) - (was : Int)).natAbs)
    let s := (s.wf (F.PTP_FLl_DELAY_DLY l) d).wf (F.PTP_FLl_MSTAT_SPREAD l) (min 65535 (rdiv (top - low) 2).toNat)
    let s := if far then s.emit .HOP_DELAY_STEP (objLink l) [(was : Nat), (d : Nat)] else s
    let s := s.markerSend l [0xC3, (d : Nat)] [[0xC3] ++ leBytes 4 d ++ [0, 0, 0]]
    if x.published then s
    else
      let s := ((s.wf (F.PTP_FLl_MSTAT_VALID l) 1).wf (F.PTP_FLl_MSTAT_RUNNING l) 0).setHop l { x with published := true }
      (s.setLane l { s.lane l with hopDone := true }).offerAll

/-- ECHO completes a probe (R332); one that arrives while the lane is not ACTIVE or RELOCK is set is discarded (R262). -/
def State.echoIn (s : State) (l seq : Nat) (arrive turn : Int) : State :=
  let x := s.hop l
  match (if s.laneLive l then x.out.find? fun p => p.1 == seq else none) with
  | none => s
  | some p =>
    let r := (arrive - p.2) - turn + 2 * s.fs (F.PTP_FLl_ASYM_ASYM l)
    (s.setHop l { x with out := x.out.filter fun q => q.1 != seq, results := (r :: x.results).take 64, dropped := 0 }).hopPublish l

def execEcho (l : Fin 16) (seq : Nat) (arrive turn : Int) (s : State) : Host.Outcome State Fault Refusal :=
  .next (s.echoIn l seq arrive turn)

/-- No ECHO for 100 µs (R333). -/
def State.probeTimeout (s : State) (l seq : Nat) : State :=
  let x := s.hop l
  if !x.out.any fun p => p.1 == seq then s
  else
    let s := s.setHop l { x with out := x.out.filter fun p => p.1 != seq, dropped := x.dropped + 1 }
    let s := if x.dropped + 1 = 16 then s.emit .HOP_PROBE_LOST (objLink l) [] else s
    if x.published then s else s.hopPublish l

def execProbeTimeout (l : Fin 16) (seq : Nat) (s : State) : Host.Outcome State Fault Refusal := .next (s.probeTimeout l seq)

/-- The TIME pair of a boundary on each ACTIVE lane (R331): the lateness that CORR holds is a free value under 52.8 ns. -/
def State.timeMarkers (s : State) : State :=
  let flags := b2n (s.servo == 4) + 2 * b2n s.ptp.stepMark + 4 * b2n (s.servo == 3)
  let s := s.activeLanes.foldl (fun s l =>
    let c := s.free
    let n := c.2.tick.num
    let corr := c.1 % 13517
    c.2.markerSend l [0xC4, (n : Nat), 0xC5, corr, (flags : Nat)] [[0xC4] ++ leBytes 7 n, [0xC5] ++ leInt 5 corr ++ [flags, 0]]) s
  { s with ptp.stepMark := false }

end Sys2Proof.Machine
end

