-- ==== Sys2Proof/Machine/Uplink.lean ====
section
/-!
DEFINITION. The uplinks (R460 to R474): PRP, streams, timed launch, received frames and health.
-/
namespace Sys2Proof.Machine

open Sys2Proof

/-! ### Health (R468) -/

/-- The enabled stream of queue `q`. -/
def State.streamOf (s : State) (q : Nat) : Option Nat :=
  (List.range 256).find? fun m => s.flag (F.UPL_STREAM_EN m) && s.f (F.UPL_STREAM_Q m) == q

/-- The queues that still have an item stalled. -/
def State.stalls (s : State) (q : Nat) : Bool :=
  (s.streamOf q).isSome && s.consumer q == 6 && (s.readyItem q).isSome

/-- HEALTHY follows its conditions; UPLINK_DOWN and UPLINK_UP. -/
def State.showUplinks (s : State) : State :=
  let s := { s with upl.stalled := s.upl.stalled.filter (s.stalls ·) }
  let h := s.flag F.UPL_CTRL_EN && (s.uplinkOn 0 || s.uplinkOn 1) && s.upl.stalled.isEmpty
  if h = s.flag F.UPL_HEALTH_HEALTHY then s
  else (s.wb F.UPL_HEALTH_HEALTHY h).emit (if h then .UPLINK_UP else .UPLINK_DOWN) 0 []

/-- A port gains or loses LINK, which resets its domain (R460, R529); `fit` says that a module is present. -/
def State.linkChange (s : State) (u : Nat) (link fit : Bool) : State :=
  let was := s.flag (F.UPL_Un_STAT_LINK u)
  let s := (s.wb (F.UPL_Un_STAT_LINK u) link).wb (F.UPL_Un_STAT_MOD u) fit
  (if was && !link then s.domReset (8 + u) 0 else if link then s.domRelease (8 + u) else s).showUplinks

def execUplinkLinkChange (u : Fin 2) (link fit : Bool) (s : State) : Host.Outcome State Fault Refusal :=
  .next (s.linkChange u link fit)

/-- A write of UPL_Un_CFG: EN written 0 resets the port's domain (R529). -/
def State.portCfg (s : State) (u : Nat) (w : Word) : State :=
  let was := s.flag (F.UPL_Un_CFG_EN u)
  let s := s.wr (Reg.UPL_Un_CFG u) (w &&& 0xC0000000#32)
  (if was && !w.getLsbD 31 then s.domReset (8 + u) 1
   else if w.getLsbD 31 && s.flag (F.UPL_Un_STAT_LINK u) then s.domRelease (8 + u) else s).showUplinks

/-- The first item of a stream's queue has been ready for 100 ms and its first fragment has not left (R468). -/
def execUplinkStall (q : Fin 4096) (s : State) : Host.Outcome State Fault Refusal :=
  .next (if s.stalls q then { s with upl.stalled := q.val :: s.upl.stalled.filter (· != q.val) }.showUplinks else s)

/-- PRP supervision frames leave on both ports (R461): a frame of the least Ethernet size (PRESUMED, IEC 62439-3, log entry 93). -/
def execPrpSupervision (s : State) : Host.Outcome State Fault Refusal :=
  .next (if s.flag F.UPL_CTRL_EN then
    let n := (s.upl.prpSup + 1) % 65536
    let tlv := beBytes 2 1 ++ beBytes 2 n ++ [20, 6] ++ s.macOwn ++ [0, 0]
    let r := { s with upl.prpSup := n }.prpFrame .prpSupervision [(s.f F.UPL_MAC_LO_MAC : Nat), (s.f F.UPL_MAC_HI_MAC : Nat)]
      (etherHead [0x01, 0x15, 0x4E, 0x00, 0x01, 0x00] s.macOwn none 0x88FB) (tlv ++ List.replicate 26 0)
    r.2.txSend 16 false [r.1] else s)

/-! ### Streams (R464 to R467) -/

/-- A write that would give the stream table word `w` of stream `m` is not valid (R464). -/
def State.streamBad (s : State) (m : Nat) (w : Word) : Bool :=
  let q := fieldOf w 11 0
  w.getLsbD 31 && (s.consumer q != 6 ||
    (List.range 256).any fun k => k != m && s.flag (F.UPL_STREAM_EN k) && s.f (F.UPL_STREAM_Q k) == q)

/-- A write of the stream table (R464). -/
def State.streamWrite (s : State) (m : Nat) (w : Word) (master : Nat) : State :=
  if s.streamBad m w then s.emit .UPL_CFG_BAD 0 [(Reg.UPL_STREAM m : Nat), (master : Nat)]
  else (s.wr (Reg.UPL_STREAM m) (w &&& 0xFF000FFF#32)).showUplinks

/-- A port-7 write of the stream table: EN and DEST act, LAUNCH, PRIO and Q stay. True: it would have changed one of these (R464). -/
def State.streamPort (s : State) (m : Nat) (w : Word) (master : Nat) : Bool × State :=
  let old := s.rd (Reg.UPL_STREAM m)
  let withheld := 0x70000FFF#32
  let new := (w &&& 0x8F000000#32) ||| (old &&& withheld)
  let bad := (w &&& withheld) != (old &&& withheld)
  let s := s.streamWrite m new master
  (bad, if bad then s.emit .UPL_CFG_BAD 0 [(Reg.UPL_STREAM m : Nat), (master : Nat)] else s)

/-- A write of UPL_GAPQ or UPL_EVQ: one that names a queue without an enabled stream is discarded (R466). -/
def State.uplinkQueue (s : State) (addr : Nat) (w : Word) (master : Nat) : State :=
  if w.getLsbD 31 && (s.streamOf (fieldOf w 11 0)).isNone then s.emit .UPL_CFG_BAD 0 [(addr : Nat), (master : Nat)]
  else s.wr addr (w &&& 0x80000FFF#32)

/-- The largest fragment (R465). -/
def State.frag (s : State) : Nat := (s.f F.UPL_CTRL_MTU - (if s.flag F.UPL_CTRL_IPV6 then 80 else 60)) / 4 * 4

/-- KIND of what queue `q` carries (R465, R466). -/
def State.streamKind (s : State) (q : Nat) : Nat :=
  if s.flag F.UPL_GAPQ_EN && s.f F.UPL_GAPQ_Q == q then 2 else if s.flag F.UPL_EVQ_EN && s.f F.UPL_EVQ_Q == q then 3 else 1

/-- ISEQ of the next item of queue `q`. -/
def State.iseqOf (s : State) (q : Nat) : Nat := tabGet (fun _ => 0) s.upl.iseq q

/-- The stream header (R465). -/
def State.streamHead (s : State) (kind flags q no iseq off len : Nat) : List Word :=
  [0x4D525453#32, BitVec.ofNat 32 (1 + kind * 256 + flags * 65536), s.rd Reg.HUB_SERIAL, s.rd Reg.UMB_BOOT,
   BitVec.ofNat 32 (q + no * 65536), BitVec.ofNat 32 iseq, BitVec.ofNat 32 off, BitVec.ofNat 32 len]

/-- One datagram of a stream: its frame to destination `d`, whose addresses stand in front (R465). -/
def State.streamFrame (s : State) (d : Nat) (head words : List Word) : TxItem × State :=
  let dest := [s.f (F.UPL_Dd_MAC_LO_MAC d), s.f (F.UPL_Dd_MAC_HI_MAC d), s.f (F.UPL_Dd_IP_IP d 0), s.f (F.UPL_Dd_IP_IP d 1),
    s.f (F.UPL_Dd_IP_IP d 2), s.f (F.UPL_Dd_IP_IP d 3), s.f (F.UPL_Dd_PORT_PORT d), s.f F.UPL_HCP_PORT_PORT]
  let ip := [0, 1, 2, 3].flatMap fun i => leBytes 4 (s.f (F.UPL_Dd_IP_IP d i))
  s.udpFrame .stream ((dest.map fun (n : Nat) => (n : Int)) ++ ((head ++ words).map fun (w : Word) => (w.toNat : Int)))
    { mac := leBytes 4 (s.f (F.UPL_Dd_MAC_LO_MAC d)) ++ leBytes 2 (s.f (F.UPL_Dd_MAC_HI_MAC d)),
      ip := if s.flag F.UPL_CTRL_IPV6 then ip else ip.take 4, port := s.f (F.UPL_Dd_PORT_PORT d) } (wordsBytes (head ++ words))

/-- The fragments of an item, by what is left of its words, the fragment number and the offset: `flags` stand in the first header alone
(R471). `k` bounds their number. -/
def State.fragments (s : State) (k d kind flags q iseq len : Nat) (words : List Word) (no off : Nat) : List TxItem × State :=
  match k with
  | 0 => ([], s)
  | k + 1 =>
    let n := max 1 (s.frag / 4)
    let now := words.take n
    let rest := words.drop n
    let fl := flags + if rest.isEmpty then 1 else 0
    let r := s.streamFrame d (s.streamHead kind fl q no iseq off len) now
    if rest.isEmpty then ([r.1], r.2)
    else
      let t := r.2.fragments k d kind 0 q iseq len rest (no + 1) (off + 4 * now.length)
      (r.1 :: t.1, t.2)

/-- The records at the front of a list of ready items that fit in `room` bytes (R466). -/
def recordsIn : List Item → Nat → List Item
  | [], _ => []
  | i :: r, room => if i.ready && decide (4 * i.words.length ≤ room) then i :: recordsIn r (room - 4 * i.words.length) else []

/-- The next item of queue `q` is read and its frames leave, behind those that wait or in front of them (R464 to R466, R470); or as many
whole records as fit in one frame. -/
def State.sendItem (s : State) (q m flags : Nat) (front : Bool) : State :=
  let d := s.f (F.UPL_STREAM_DEST m)
  let kind := s.streamKind q
  let items := match (s.queue q).items with
    | [] => []
    | i :: r => if kind = 1 then [i] else let l := recordsIn (i :: r) s.frag; if l.isEmpty then [i] else l
  let words := items.flatMap (·.words)
  let iseq := s.iseqOf q
  let f := s.fragments (words.length + 1) d kind flags q iseq (4 * words.length) words 0 0
  let s := items.foldl (fun s i => s.freeItem q i.id) f.2
  let s := { s with upl.iseq := tabSet (fun _ => 0) s.upl.iseq q ((iseq + items.length) % 2 ^ 32),
                    upl.stalled := s.upl.stalled.filter (· != q) }
  (s.txSend 16 front f.1).showUplinks

/-- The stream whose item leaves next (R464): the highest PRIO, then the item that became ready first; stream, queue. -/
def State.nextStream (s : State) : Option (Nat × Nat) :=
  let cand := (List.range 256).filterMap fun m =>
    let q := s.f (F.UPL_STREAM_Q m)
    if s.flag (F.UPL_STREAM_EN m) && !s.flag (F.UPL_STREAM_LAUNCH m) && s.consumer q == 6 then
      (s.readyItem q).map fun i => (m, q, s.f (F.UPL_STREAM_PRIO m), i.at')
    else none
  let top := (cand.map (·.2.2.1)).foldl max 0
  let best := cand.filter (·.2.2.1 == top)
  let low := (best.map (·.2.2.2)).foldl min (s.qmg.readied + 1)
  (best.find? (·.2.2.2 == low)).map fun (x : Nat × Nat × Nat × Nat) => (x.1, x.2.1)

/-- The uplinks send the next item, once no frame waits for the transmit-rate fence (R467). -/
def State.streamSend (s : State) : State :=
  if !s.flag F.UPL_CTRL_EN then s
  else
    let s := s.txPump 16
    if !(tabGet (fun _ => []) s.hub.txq 16).isEmpty then s
    else match s.nextStream with
      | some x => s.sendItem x.2 x.1 0 false
      | none => s

def execStreamSend (s : State) : Host.Outcome State Fault Refusal := .next s.streamSend

/-! ### Timed launch (R469 to R471, R47, R328) -/

/-- 2 µs of the hub clock (R47). -/
def launchLead : Nat := 131072000

def State.lslot (s : State) (k : Nat) : Option LaunchSlot := tabGet (fun _ => none) s.upl.slots k
def State.setLslot (s : State) (k : Nat) (x : Option LaunchSlot) : State :=
  { s with upl.slots := tabSet (fun _ => none) s.upl.slots k x }

/-- UPL_LCH_RESULT of master `m`'s copy. -/
def State.launchResult (s : State) (m code k : Nat) : State :=
  (s.wf (privF m F.UPL_LCH_RESULT_CODE) code).wf (privF m F.UPL_LCH_RESULT_SLOT) k

/-- COMMIT (R469). -/
def State.launchCommit (s : State) (m : Nat) (lateOk cancel : Bool) : State :=
  let q := s.f (privF m F.UPL_LCH_Q_Q)
  let time := s.f64 (privF m F.UPL_LCH_SEC_LO_SEC) (privF m F.UPL_LCH_SEC_HI_SEC) * secUnits + s.f (privF m F.UPL_LCH_NS_NS) * 65536
  let late := decide (time < s.tick.clock + launchLead)
  if cancel then s.launchResult m 3 0
  else if !(match s.streamOf q with | some k => s.flag (F.UPL_STREAM_LAUNCH k) | none => false) then s.launchResult m 3 0
  else if s.servo ≤ 1 then s.launchResult m 6 0
  else match (List.range 64).find? fun k => (s.lslot k).isNone with
    | none => s.launchResult m 2 0
    | some k =>
      if late && !lateOk then s.launchResult m 1 0
      else (s.setLslot k (some { queue := q, time := time, lateOk := lateOk, late := late, master := m })).launchResult m 0 k

/-- CANCEL (R469). -/
def State.launchCancel (s : State) (m k : Nat) : State :=
  match s.lslot k with
  | none => s.launchResult m 5 k
  | some x => if x.time < s.tick.clock + launchLead then s.launchResult m 1 k else (s.setLslot k none).launchResult m 4 k

/-- A write of UPL_LCH_CMD by master `m`. -/
def State.launchCmd (s : State) (m : Nat) (w : Word) : State :=
  if w.getLsbD 31 then s.launchCommit m (w.getLsbD 30) (w.getLsbD 29)
  else if w.getLsbD 29 then s.launchCancel m (fieldOf w 5 0) else s

def execCommit (m : Master) (lateOk cancel : Bool) (s : State) : Host.Outcome State Fault Refusal :=
  .next (s.launchCommit (masterCode m) lateOk cancel)

def execLaunchCancel (m : Master) (sl : Fin 64) (s : State) : Host.Outcome State Fault Refusal :=
  .next (s.launchCancel (masterCode m) sl)

/-- A hub clock value in the layout of T_SCHED (R471): seconds (6 bytes), nanoseconds (4), 2^-16 ns (2). -/
def launchTime (t : Nat) : List Word :=
  let v := t / secUnits + (t % secUnits / 65536) * 2 ^ 48 + (t % 65536) * 2 ^ 80
  [BitVec.ofNat 32 v, BitVec.ofNat 32 (v / 2 ^ 32), BitVec.ofNat 32 (v / 2 ^ 64)]

/-- The launch report of a spent slot (R471). -/
def State.launchReport (s : State) (k : Nat) (x : LaunchSlot) (empty capped : Bool) (iseq e0 e1 : Nat) : State :=
  let off (u : Nat) := !s.uplinkOn u
  let flags := b2n x.late + 2 * b2n empty + 4 * b2n (off 0) + 8 * b2n (off 1) + 16 * b2n capped
  let t (u e : Nat) := if empty || off u then 0 else e
  if s.flag F.UPL_LRPTQ_EN then
    (s.putPacket (s.f F.UPL_LRPTQ_Q) ([BitVec.ofNat 32 (0x30 + k * 256 + flags * 65536), BitVec.ofNat 32 x.queue,
      BitVec.ofNat 32 (if empty then 0 else iseq)] ++ launchTime x.time ++ launchTime (t 0 e0) ++ launchTime (t 1 e1))).2
  else s

/-- Slot `k` is the first of its queue in order of launch time; equal times go by number (the model's choice, log entry 94). -/
def State.slotFirst (s : State) (k : Nat) (x : LaunchSlot) : Bool :=
  s.upl.slots.all fun e => match e.2 with
    | some y => y.queue != x.queue || decide (x.time < y.time) || (x.time == y.time && decide (k ≤ e.1))
    | none => true

/-- The launch time of slot `k` arrives (R470, R471); a late slot waits for an item. `e0` and `e1` are the egress times measured at the
connectors (R329). -/
def State.launch (s : State) (k e0 e1 : Nat) : State :=
  match s.lslot k with
  | none => s
  | some x =>
    if !s.slotFirst k x || (!x.late && decide (s.tick.clock < x.time)) then s
    else match s.streamOf x.queue, s.readyItem x.queue with
      | some m, some _ =>
        let iseq := s.iseqOf x.queue
        let s := (s.setLslot k none).sendItem x.queue m (2 + 4 * b2n x.late) true
        let capped := !(tabGet (fun _ => []) s.hub.txq 16).isEmpty
        let s := if x.late then s.emit .LAUNCH_APPLIED_LATE (objQueue x.queue) [(k : Nat)] else s
        s.launchReport k x false capped iseq e0 e1
      | _, _ =>
        if x.late then s
        else ((s.setLslot k none).emit .LAUNCH_EMPTY (objQueue x.queue) [(k : Nat)]).launchReport k x true false 0 e0 e1

def execLaunchSlot (sl : Fin 64) (e0 e1 : Nat) (s : State) : Host.Outcome State Fault Refusal := .next (s.launch sl e0 e1)

/-- A forward step from `old` to `new` passes over launch times (R328): with LATE_OK they leave late, the others are returned. -/
def State.launchStep (s : State) (old new : Nat) : State :=
  s.upl.slots.foldl (fun s e => match e.2 with
    | some x =>
      if old ≤ x.time ∧ x.time < new then
        if x.lateOk then s.setLslot e.1 (some { x with late := true }) else (s.setLslot e.1 none).launchResult x.master 1 e.1
      else s
    | none => s) s

/-! ### Frames received (R462, R472, R474) -/

/-- 400 ms of the hub clock (R462). -/
def prpWindow : Nat := 26214400000000

/-- A frame with a valid trailer passes the duplicate discard (R462). True: it is accepted. -/
def State.prpAccept (s : State) (u src seq : Nat) : Bool × State :=
  let now := s.tick.clock
  let fresh := fun (e : Nat × Nat × Nat) => decide (now ≤ e.2.2 + prpWindow)
  match s.upl.nodes.find? (·.mac == src) with
  | some x =>
    let seen := x.seen.filter fresh
    let rest := s.upl.nodes.filter (·.mac != src)
    if seen.any fun e => e.1 == seq && e.2.1 != u then
      (false, { s with upl.nodes := rest ++ [{ x with heard := now, seen := seen }] }.bump F.UPL_PRP_CNT_DUP 1)
    else (true, { s with upl.nodes := rest ++ [{ x with heard := now, seen := (seq, u, now) :: seen }] })
  | none =>
    let new : PrpNode := { mac := src, heard := now, seen := [(seq, u, now)] }
    if s.upl.nodes.length < 512 then (true, { s with upl.nodes := s.upl.nodes ++ [new] })
    else
      let first := !s.upl.nodesFull
      let s := { s with upl.nodes := s.upl.nodes.drop 1 ++ [new], upl.nodesFull := true }
      (true, if first then s.emit .PRP_TABLE_FULL 0 [] else s)

/-- HCP_REASSEMBLY, at most once per second (R474). -/
def State.reasmNote (s : State) : State :=
  let sec := s.tick.clock / secUnits
  if s.upl.reasmAt = some sec then s else { s with upl.reasmAt := some sec }.emit .HCP_REASSEMBLY 0 []

/-- A fragment of a Hub Control Protocol datagram (R474). -/
def State.fragIn (s : State) (id off len : Nat) (more : Bool) : State :=
  let x : Reasm := (s.upl.reasm.find? (·.id == id)).getD { id := id, parts := [], total := none }
  let rest := s.upl.reasm.filter (·.id != id)
  let overlap := x.parts.any fun p => decide (off < p.1 + p.2) && decide (p.1 < off + len)
  if overlap ∨ 8256 < off + len then { s with upl.reasm := rest }.reasmNote
  else
    let y : Reasm := { x with parts := (off, len) :: x.parts, total := if more then x.total else some (off + len) }
    if y.total = some ((y.parts.map (·.2)).sum) then { s with upl.reasm := rest, upl.rx := .hcp :: s.upl.rx }
    else if rest.length = s.upl.reasm.length ∧ 16 ≤ rest.length then { s with upl.reasm := rest.drop 1 ++ [y] }.reasmNote
    else { s with upl.reasm := (s.upl.reasm.filter fun (z : Reasm) => z.id != id) ++ [y] }

/-- A frame of Stoker's IP stack leaves (R472), to an address or to the one its bytes begin with. -/
def State.stackSend (s : State) (k : SentKind) (mac : Option (List Nat)) (vals : List Int) : State :=
  if s.flag F.UPL_CTRL_EN then
    let l := Config.stackFrame s.hub.freeCtr
    let r := ({ s with hub.freeCtr := s.hub.freeCtr + 1 } : State).prpFrame k vals (mac.getD (l.take 6) ++ s.macOwn ++ (l.drop 6).take 2) (l.drop 8)
    r.2.txSend 16 false [r.1]
  else s

/-- The hub joins the Kindling group, whose address it names (R472). -/
def State.groupJoin (s : State) : State :=
  s.stackSend .groupJoin none (if s.flag F.UPL_CTRL_IPV6 then [0, 1, 2, 3].map fun i => ((s.f (F.UPL_KND_IP6_GRP i) : Nat) : Int)
    else [((s.f F.UPL_KND_IP4_GRP : Nat) : Int)])

/-- A frame arrives on port `u` (R472): the PRP check, and where it goes; what it carries is its own command. -/
def State.uplinkIn (s : State) (u src : Nat) (tr : Option Trailer) (kind : RxKind) : State :=
  if !s.flag F.UPL_CTRL_EN || !s.uplinkOn u then s
  else
    let r : Bool × State := match tr with
      | some t =>
        if !t.sizeOk || kind == .ptp || decide (t.lan ≠ 10 ∧ t.lan ≠ 11) then (true, s)
        else (if t.lan ≠ 10 + u then s.bump F.UPL_PRP_CNT_WRONG_LAN 1 else s).prpAccept u src t.seq
      | none => (true, s)
    if !r.1 then r.2
    else match kind with
      | .other => r.2
      | .hcpFrag id off len more => r.2.fragIn id off len more
      | .stoker =>
        let s : State := { r.2 with upl.rx := .stoker :: r.2.upl.rx }
        if s.stokerUp then s.stackSend .stackReply (some (leBytes 6 src)) [] else s
      | k => { r.2 with upl.rx := k :: r.2.upl.rx }

def execFrameReceive (u : Fin 2) (src : Nat) (tr : Option Trailer) (kind : RxKind) (s : State) :
    Host.Outcome State Fault Refusal := .next (s.uplinkIn u src tr kind)

/-- A datagram's fragments have not all arrived within 1 s (R474). -/
def execHcpReassembly (id : Nat) (s : State) : Host.Outcome State Fault Refusal :=
  .next (if s.upl.reasm.any (·.id == id) then { s with upl.reasm := s.upl.reasm.filter (·.id != id) }.reasmNote else s)

end Sys2Proof.Machine
end

