-- ==== Sys2Proof/Machine/Umber.lean ====
section
/-!
DEFINITION. Umber (R492 to R519): the event log, sensors, sessions and messages, keys, life-cycle, fences and image
updates. Signatures, tags and image hashes are checked outside the model: their verdicts are operands; the TAG of a message in the
mailbox is compared with the TAG under the session's key.
-/
namespace Sys2Proof.Machine

open Sys2Proof

/-- UMB_STAT.LC: 0 BLANK, 1 PROVISIONED, 2 FIELD, 3 SERVICE, 4 RETIRED. -/
def State.lc (s : State) : Nat := s.f F.UMB_STAT_LC

/-! ### The event log (R497 to R500) -/

/-- Pages of the log ring, 16 to a sector. -/
def ringPages : Nat := 245760

/-- Umber erases a sector of the ring: its pages are discarded (R500). -/
def State.eraseSector (s : State) (sector : Nat) : State :=
  { s with umb.pages := s.umb.pages.filter fun (p : LogPage) => p.pos / 16 != sector % 15360 }

/-- The records at the front of a list that fit in `room` places of a page. -/
def pageFill : List Event → Nat → List Event
  | [], _ => []
  | e :: r, room => if eventEntries e.name ≤ room then e :: pageFill r (room - eventEntries e.name) else []

/-- Umber starts a page with up to seven records (R497), one page at a time, once the log has been recovered. -/
def State.pageStart (s : State) : State :=
  let recs := pageFill s.umb.logBuf 7
  if s.umb.writing.isSome || recs.isEmpty || s.umb.down || !s.flag F.UMB_STAT_LOG_READY then s
  else { s with umb.writing := some { pos := s.umb.nextPos, seq := s.umb.nextSeq, recs := recs },
                umb.logBuf := s.umb.logBuf.drop recs.length, umb.nextPos := (s.umb.nextPos + 1) % ringPages,
                umb.nextSeq := s.umb.nextSeq + 1 }

def execLogPageStart (s : State) : Host.Outcome State Fault Refusal := .next s.pageStart

/-- The page's three programs are complete (R498); a page that enters a sector has the ninth sector on erased (R500). -/
def State.pageCommit (s : State) : State :=
  match s.umb.writing with
  | none => s
  | some p =>
    let s := if p.pos % 16 = 0 then s.eraseSector (p.pos / 16 + 8) else s
    { s with umb.writing := none, umb.pages := s.umb.pages ++ [p] }.wf64 F.UMB_LOG_SEQ_LO_SEQ F.UMB_LOG_SEQ_HI_SEQ p.seq

def execLogPageCommit (s : State) : Host.Outcome State Fault Refusal := .next s.pageCommit

/-- The log ring is recovered at a start of Umber (R499). -/
def State.logRecover (s : State) (found : PageFound) : State :=
  if s.flag F.UMB_STAT_LOG_READY then s
  else
    let done := match found, s.umb.broken with | .completed, some p => [p] | _, _ => []
    let s := { s with umb.pages := s.umb.pages ++ done, umb.broken := none }
    let s := match s.umb.pages.getLast? with
      | some h =>
        let s := { s with umb.nextPos := (h.pos / 16 + 1) * 16 % ringPages, umb.nextSeq := h.seq + 1 }
        ((List.range 8).foldl (fun (s : State) i => s.eraseSector (h.pos / 16 + 1 + i)) s).wf64 F.UMB_LOG_SEQ_LO_SEQ F.UMB_LOG_SEQ_HI_SEQ h.seq
      | none => s
    (s.wf F.UMB_STAT_LOG_READY 1).umberEvent .LOG_RECOVERED 0 [(done.length : Nat), (b2n (found == PageFound.torn) : Nat)]

def execLogRecovery (found : PageFound) (s : State) : Host.Outcome State Fault Refusal := .next (s.logRecover found)

/-! ### Sensors (R495) -/

/-- A reading of sensor `k` is judged against its limits. -/
def State.sensJudge (s : State) (k : Nat) (v lo hi : Int) : State :=
  let x := (tabGet (fun _ => none) s.umb.sens k).getD { out := 0, inn := 0, bad := false }
  let set (y : SensSt) (s : State) : State := { s with umb.sens := tabSet (fun _ => none) s.umb.sens k (some y) }
  if v < lo ∨ hi < v then
    let s' := set { x with out := min 3 (x.out + 1), inn := 0, bad := x.bad || decide (3 ≤ x.out + 1) } s
    if x.out = 2 ∧ !x.bad then s'.umberEvent .SENSOR_LIMIT (objUnit k) [v, if v < lo then lo else hi] else s'
  else
    let done := x.bad && decide (100 ≤ x.inn + 1)
    let s' := set { out := 0, inn := min 100 (x.inn + 1), bad := x.bad && !done } s
    if done then s'.umberEvent .SENSOR_OK (objUnit k) [] else s'

/-- A sample of sensor `k`, or of board sensor `k` − 22: a read that is not acknowledged clears VALID, and I2C_NACK is recorded once per
episode. -/
def State.sensSample (s : State) (k : Nat) (v : Int) (ack : Bool) : State :=
  if k < 22 then
    (s.wfs (F.UMB_SENSs_VALUE k) v).sensJudge k (signedOf 16 (bitsOf 16 v)) (s.fs (F.UMB_SENSs_LIM_LO k)) (s.fs (F.UMB_SENSs_LIM_HI k))
  else
    let e := k - 22
    if !s.flag (F.UMB_I2Ce_CFG_EN e) then s
    else if !ack then
      let first := !s.umb.nack.contains e
      let s := { s with umb.nack := e :: s.umb.nack.filter (· != e) }.wf (F.UMB_I2Ce_VAL_VALID e) 0
      if first then s.umberEvent .I2C_NACK (objUnit k) [] else s
    else
      let n := if s.flag (F.UMB_I2Ce_CFG_LEN2 e) then 16 else 8
      let r : Int := if s.flag (F.UMB_I2Ce_CFG_SIGNED e) then signedOf n (bitsOf n v) else (bitsOf n v : Int)
      let s := ({ s with umb.nack := s.umb.nack.filter (· != e) }.wf (F.UMB_I2Ce_VAL_VALID e) 1).wfs (F.UMB_I2Ce_VAL_VALUE e) r
      s.sensJudge k (signedOf 16 (bitsOf 16 r)) (s.fs (F.UMB_I2Ce_LIM_LO e)) (s.fs (F.UMB_I2Ce_LIM_HI e))

def execSensorSample (k : Fin 38) (v : Int) (ack : Bool) (s : State) : Host.Outcome State Fault Refusal :=
  .next (s.sensSample k v ack)

/-! ### Sessions and replay (R473, R475, R505) -/

def State.sess (s : State) (id : Nat) : Option Sess := s.umb.sessions.find? (·.id == id)

/-- The sessions change; SESSIONS follows. -/
def State.setSessions (s : State) (l : List Sess) : State :=
  { s with umb.sessions := l }.wf F.UMB_STAT_SESSIONS l.length

/-- A session is replaced by its new value. -/
def State.setSess (s : State) (x : Sess) : State :=
  { s with umb.sessions := s.umb.sessions.map fun (y : Sess) => if y.id == x.id then x else y }

/-- Sessions that meet `p` end. -/
def State.endSessions (s : State) (p : Sess → Bool) : State := s.setSessions (s.umb.sessions.filter fun x => !p x)

/-- Bit `b` of a session's permissions. -/
def Sess.can (x : Sess) (b : Nat) : Bool := x.perm / 2 ^ b % 2 == 1

/-- A message fails authentication (R473). -/
def State.authFail (s : State) (session : Nat) : State :=
  let sec := s.tick.clock / secUnits
  let s := s.bump F.UPL_HCP_CNT_BAD_TAG 1
  if tabGet (fun _ => none) s.upl.authFail session = some sec then s
  else { s with upl.authFail := tabSet (fun _ => none) s.upl.authFail session (some sec) }.emit .HCP_AUTH_FAIL 0 [(session : Nat)]

/-- What becomes of a message (R473, R475): discarded, a repeat with its kept response, or accepted. -/
inductive Admit where
  | drop
  | again (words : List Word)
  | accept
  deriving DecidableEq, Repr

/-- A message of a session is admitted (R473, R475). -/
def State.admitMsg (s : State) (session mseq : Nat) (tagOk : Bool) : Admit × State :=
  match s.sess session with
  | none => (.drop, s.authFail session)
  | some x =>
    if !tagOk then (.drop, s.authFail session)
    else
      let repeated : Admit × State := match x.kept.find? (·.1 == mseq) with
        | some k => (.again k.2, s)
        | none => (.drop, s.bump F.UPL_HCP_CNT_REPLAY 1)
      match x.high with
      | none => (.accept, s.setSess { x with high := some mseq })
      | some h =>
        if h < mseq then
          (.accept, s.setSess { x with high := some mseq, taken := (h :: x.taken).filter fun n => decide (mseq ≤ n + 64) })
        else if mseq = h ∨ x.taken.contains mseq then repeated
        else if h ≤ mseq + 64 then (.accept, s.setSess { x with taken := mseq :: x.taken })
        else repeated

/-- A RESPONSE message (R473): header, body and TAG. -/
def responseWords (session mseq nops status : Nat) (body : List Word) : List Word :=
  let l := [0x50434857#32, 0x00000201#32, BitVec.ofNat 32 session, BitVec.ofNat 32 mseq, BitVec.ofNat 32 (mseq / 2 ^ 32),
    BitVec.ofNat 32 (4 * body.length + nops * 65536), BitVec.ofNat 32 status, 0#32] ++ body
  l ++ (List.range 8).map fun i => if session = 0 then 0#32 else Config.tag session l i

/-- A response is kept for its session, the last 16 (R475). -/
def State.keep (s : State) (session mseq : Nat) (words : List Word) : State :=
  match s.sess session with
  | some x => s.setSess { x with kept := ((mseq, words) :: x.kept.filter (·.1 != mseq)).take 16 }
  | none => s

/-! ### The mailbox (R502) -/

/-- The mailbox is released. -/
def State.mboxFree (s : State) : State := s.wr Reg.UMB_MBOX_STAT 0#32

/-- Words stand in the response window, and DONE is set. -/
def State.mboxAnswer (s : State) (words : List Word) : State :=
  let s := (words.zip (List.range words.length)).foldl (fun s p => s.wr (0x1C000 + 4 * p.2) p.1) s
  (s.wf F.UMB_MBOX_STAT_DONE 1).wf F.UMB_MBOX_STAT_RLEN (4 * words.length)

/-- A response leaves: through the mailbox while its master holds it, or on the uplinks. -/
def State.umbAnswer (s : State) (via : Option Nat) (words : List Word) : State :=
  match via with
  | some m => if s.flag F.UMB_MBOX_STAT_BUSY && s.f F.UMB_MBOX_STAT_OWNER == m then s.mboxAnswer words else s
  | none => s.hostSend .umberReply words

/-- A word of the request window. -/
def State.reqWord (s : State) (i : Nat) : Word := s.rd (0x18000 + 4 * i)

/-- A message of master `m` waits for Umber (R502, R503). -/
def State.mboxWait (s : State) (m session mseq : Nat) : State :=
  { s with umb.inq := s.umb.inq ++ [{ via := some m, session := session, mseq := mseq }] }

/-- A message whose session, TAG and MSEQ need no check waits, or is answered when its form is wrong (R473). -/
def State.mboxTake (s : State) (m session mseq : Nat) (fits : Bool) : State :=
  if fits then s.mboxWait m session mseq else s.mboxAnswer (responseWords session mseq 0 1 [])

/-- The replay window judges a message whose TAG holds (R475). -/
def State.mboxJudge (s : State) (m session mseq : Nat) : State :=
  match s.admitMsg session mseq true with
  | (.drop, s) => s.mboxFree
  | (.again w, s) => s.mboxAnswer w
  | (.accept, s) => s.mboxWait m session mseq

/-- The message of `len` bytes in the request RAM, which master `m` submitted, is checked (R473, R475, R502). -/
def State.submitCheck (s : State) (m len : Nat) : State :=
  let n := len / 4
  let msg := (List.range (n - 8)).map s.reqWord
  let tag := (List.range 8).map fun i => s.reqWord (n - 8 + i)
  let session := (s.reqWord 2).toNat
  let mseq := (s.reqWord 3).toNat + (s.reqWord 4).toNat * 2 ^ 32
  let fits := decide (16 ≤ n) && s.reqWord 0 == 0x50434857#32 && fieldOf (s.reqWord 1) 15 0 == 0x0301
    && fieldOf (s.reqWord 5) 15 0 + 64 == len && fieldOf (s.reqWord 5) 31 16 == 1
  let ok := tag == (List.range 8).map fun i => Config.tag session msg i
  if session = 0 then (if tag.all (· == 0#32) then s.mboxTake m session mseq fits else (s.authFail 0).mboxFree)
  else if s.lc = 4 then s.mboxTake m session mseq fits
  else if (s.sess session).isNone || !ok then (s.authFail session).mboxFree
  else if !fits then s.mboxTake m session mseq fits
  else s.mboxJudge m session mseq

/-- SUBMIT (R502): the message in the window is checked and waits for Umber. While Umber restarts, it is discarded (R519). -/
def State.submit (s : State) (m len : Nat) : State :=
  let busy := s.flag F.UMB_MBOX_STAT_BUSY
  let owner := s.f F.UMB_MBOX_STAT_OWNER
  if s.umb.down then s
  else if busy && owner != m then s.umberEvent .UMB_MBOX_BUSY (objMaster m) []
  else if busy && !s.flag F.UMB_MBOX_STAT_DONE then s
  else
    ((s.mboxFree.wf F.UMB_MBOX_STAT_BUSY 1).wf F.UMB_MBOX_STAT_OWNER m).submitCheck m len

def execSubmit (m : Master) (len : Fin 16384) (s : State) : Host.Outcome State Fault Refusal := .next (s.submit (masterCode m) len)

/-- A read of UMB_MBOX_STAT: by the owner with DONE set it releases the mailbox. -/
def State.mboxRead (s : State) (m : Nat) : Word × State :=
  let w := s.rd Reg.UMB_MBOX_STAT
  (w, if s.flag F.UMB_MBOX_STAT_DONE && s.f F.UMB_MBOX_STAT_OWNER == m then s.mboxFree else s)

def execMailboxRlenRead (m : Master) (s : State) : Host.Outcome State Fault Refusal :=
  let r := s.mboxRead (masterCode m)
  .next { r.2 with hub.rdata := r.1 }

/-- The owner has not read RLEN within 10 s of DONE. -/
def execUmbMboxReleased (s : State) : Host.Outcome State Fault Refusal :=
  .next (if s.flag F.UMB_MBOX_STAT_DONE then
    let o := s.f F.UMB_MBOX_STAT_OWNER
    s.mboxFree.umberEvent .UMB_MBOX_RELEASED (objMaster o) [] else s)

/-! ### Operations (R503) -/

/-- The response to an operation, kept for its session. -/
def State.umbReply (s : State) (m : UMsg) (op result : Nat) (data : List Word) : State :=
  let w := responseWords m.session m.mseq 1 0 (BitVec.ofNat 32 (op + result * 256 + 4 * data.length * 65536) :: data)
  (s.keep m.session m.mseq w).umbAnswer m.via w

/-- An operation answers a result code and data, and changes the state. -/
abbrev OpAns := Nat × List Word × State

/-- Umber carries out the operation of the message at the front: the session's permission `perm` is checked, then the life-cycle state
(R503, R509). In RETIRED only LOG_READ is answered. -/
def State.umbOp (s : State) (op : Nat) (perm : Option Nat) (states : List Nat) (f : UMsg → Sess → State → OpAns) : State :=
  if s.umb.down then s
  else match s.umb.inq with
    | [] => s
    | m :: rest =>
      let s := { s with umb.inq := rest }
      let go (x : Sess) : State :=
        let r := f m x s
        r.2.2.umbReply m op r.1 r.2.1
      if s.lc = 4 then
        if op = 0x10 then go { id := 0, perm := 1, key := 0, bench := false, high := none, taken := [], kept := [] }
        else s.umbReply m op 2 []
      else match s.sess m.session with
        | none => s.umbReply m op 0x21 []
        | some x =>
          if !(match perm with | some b => x.can b | none => true) then s.umbReply m op 1 []
          else if !states.contains s.lc then s.umbReply m op 2 []
          else go x

/-- A fresh session identifier (R504): not zero and not in use. -/
def State.freshId (s : State) : Nat × State :=
  let r := s.free
  let base := bitsOf 32 r.1
  let cand := (List.range 18).map fun i => (base + i) % 2 ^ 32
  ((cand.find? fun n => n != 0 && (s.sess n).isNone).getD 1, r.2)

/-- The operator key in a slot. -/
def State.opKey (s : State) (k : Nat) : Option (Nat × Nat) := tabGet (fun _ => none) s.umb.keys k

/-- OPEN's result and permissions (R504, R507): in BLANK only the bench session, through the mailbox. -/
def State.openCode (s : State) (via : Option Nat) (key perm life : Nat) (sigOk : Bool) : Nat × Nat :=
  let bench := s.lc == 0 && key == 0xFF && via.isSome
  let p := if bench then perm &&& 0xC1 else match s.opKey key with | some k => perm &&& k.1 &&& 0x3FF | none => 0
  if s.lc = 4 then (2, 0)
  else if key = 0xFF ∧ !bench then (0x20, 0)
  else if s.lc = 0 ∧ !bench then (2, 0)
  else if !bench && ((s.opKey key).isNone || !sigOk) then (0x20, 0)
  else if p = 0 then (1, 0)
  else if 16 ≤ s.umb.sessions.length then (0x21, 0)
  else if life < 60 ∨ 86400 < life then (3, 0)
  else (0, p)

/-- OPEN (R504). The hub NONCE, its ephemeral public key and its signature are free values. -/
def State.umbOpen (s : State) (key perm life : Nat) (sigOk : Bool) : State :=
  if s.umb.down then s
  else match s.umb.inq with
    | [] => s
    | m :: rest =>
      let s := { s with umb.inq := rest }
      let c := if m.session = 0 then s.openCode m.via key perm life sigOk else (3, 0)
      if c.1 ≠ 0 then s.umbReply m 0x01 c.1 []
      else
        let id := s.freshId
        let x : Sess := { id := id.1, perm := c.2, key := key, bench := key == 0xFF, high := none, taken := [], kept := [] }
        let s := id.2.setSessions (id.2.umb.sessions ++ [x])
        let r := s.freeWords 53
        r.2.umbReply m 0x01 0 (BitVec.ofNat 32 id.1 :: BitVec.ofNat 32 c.2 :: r.1)

def execOpenSession (key : Fin 256) (perm : Fin 65536) (life : Nat) (sigOk : Bool) (s : State) :
    Host.Outcome State Fault Refusal := .next (s.umbOpen key perm life sigOk)

def execCloseSession (s : State) : Host.Outcome State Fault Refusal :=
  .next (s.umbOp 0x02 none [0, 1, 2, 3] fun _ x s => (0, [], s.endSessions (·.id == x.id)))

/-- LOG_READ: the pages from SEQ on. -/
def execLogRead (seq n : Nat) (s : State) : Host.Outcome State Fault Refusal :=
  .next (s.umbOp 0x10 (some 0) [0, 1, 2, 3] fun _ _ s =>
    if n = 0 ∨ 28 < n then (3, [], s)
    else (0, (s.umb.pages.filter fun (p : LogPage) => decide (seq ≤ p.seq) && decide (p.seq < seq + n)).flatMap pageWords, s))

def execKeySet (sl : Fin 256) (mask : Fin 65536) (pub : Nat) (s : State) : Host.Outcome State Fault Refusal :=
  .next (s.umbOp 0x20 (some 6) [0, 1, 3] fun _ _ s =>
    if 7 < sl.val then (3, [], s)
    else (0, [], { s with umb.keys := tabSet (fun _ => none) s.umb.keys sl (if pub = 0 then none else some (mask.val, pub)) }))

def execTrigkeySet (key : Nat) (s : State) : Host.Outcome State Fault Refusal :=
  .next (s.umbOp 0x21 (some 6) [1, 3] fun _ _ s => (0, [], { s with umb.trigKey := some key }))

/-! ### Updates (R514 to R516) -/

/-- State of image slot `k`: UA, UB, SA, SB. -/
def slotF : Nat → RegField
  | 0 => F.UMB_SLOTS_UA
  | 1 => F.UMB_SLOTS_UB
  | 2 => F.UMB_SLOTS_SA
  | _ => F.UMB_SLOTS_SB

/-- The slots of a type: 1 Umber, 2 Stoker. -/
def slotsOf (type : Nat) : List Nat := if type = 1 then [0, 1] else [2, 3]

/-- The slot of a type in a state. -/
def State.slotIn (s : State) (type st : Nat) : Option Nat := (slotsOf type).find? fun k => s.f (slotF k) == st

def State.hdr (s : State) (k : Nat) : ImgHdr :=
  (tabGet (fun _ => none) s.umb.hdrs k).getD { keyslot := 0, svn := 0, flags := 0, version := 0 }

/-- The monotonic counter of a type (R516), and VERSION of the running image. -/
def svnF (type : Nat) : RegField := if type = 1 then F.UMB_SVN_U else F.UMB_SVN_S
def verF (type : Nat) : RegField := if type = 1 then F.UMB_VER_U_VERSION else F.UMB_VER_S_VERSION

/-- The message comes from the owner of the update. -/
def Upd.ownedBy (u : Upd) (m : UMsg) : Bool :=
  match m.via, u.via with
  | none, none => m.session == u.session
  | some a, some b => a == b
  | _, _ => false

def execUpdBegin (type : Fin 256) (total : Nat) (s : State) : Host.Outcome State Fault Refusal :=
  .next (s.umbOp 0x30 (some 5) [1, 2, 3] fun m _ s =>
    if type.val ≠ 1 ∧ type.val ≠ 2 then (3, [], s)
    else if s.umb.upd.isSome then (4, [], s)
    else match (slotsOf type).find? fun k => s.f (slotF k) != 4 && s.f (slotF k) != 3 with
      | none => (2, [], s)
      | some k =>
        (0, [], { s with umb.upd := some { via := m.via, session := m.session, type := type, slot := k, total := total, count := 0, data := [] },
                         umb.hdrs := tabSet (fun _ => none) s.umb.hdrs k none }.wf (slotF k) 1))

def execUpdData (offset : Nat) (bytes : List (BitVec 8)) (s : State) : Host.Outcome State Fault Refusal :=
  .next (s.umbOp 0x31 (some 5) [1, 2, 3] fun m _ s => match s.umb.upd with
    | none => (2, [], s)
    | some u =>
      if !u.ownedBy m then (2, [], s)
      else if offset ≠ u.count ∨ u.total < u.count + bytes.length then (3, [], s)
      else (0, [], { s with umb.upd := some { u with count := u.count + bytes.length,
                                                     data := (bytes.map fun (b : BitVec 8) => b.toNat) :: u.data } }))

/-- `n` bytes of an image at an offset, as a number. -/
def imgField (b : List Nat) (off n : Nat) : Nat := leNat ((b.drop off).take n)

/-- The first check of UPD_END that fails (R515), or 0. -/
def State.imgCode (s : State) (type : Nat) (b : List Nat) (c : ImgCheck) : Nat :=
  let len := imgField b 16 4
  let most := if type = 1 then 1048064 else 523776
  if imgField b 0 4 ≠ 0x4D495757 ∨ imgField b 4 1 ≠ type ∨ most < len ∨ b.length ≠ 512 + len then 0x10
  else if imgField b 12 4 ≠ 0x000000B1 then 0x11
  else if !c.key ∨ s.umb.revoked.contains (imgField b 5 1) then 0x12
  else if !c.sig then 0x13
  else if !c.hash then 0x14
  else if imgField b 6 1 < s.f (svnF type) then 0x15
  else 0

def execUpdEnd (c : ImgCheck) (s : State) : Host.Outcome State Fault Refusal :=
  .next (s.umbOp 0x32 (some 5) [1, 2, 3] fun m _ s => match s.umb.upd with
    | none => (2, [], s)
    | some u =>
      if !u.ownedBy m then (2, [], s)
      else
        let b := u.data.reverse.flatten
        let code := s.imgCode u.type b c
        let h : ImgHdr := { keyslot := imgField b 5 1, svn := imgField b 6 1, flags := imgField b 7 1, version := imgField b 8 4 }
        let s := { s with umb.upd := none, umb.hdrs := tabSet (fun _ => none) s.umb.hdrs u.slot (if code = 0 then some h else none) }
        (code, [], s.wf (slotF u.slot) (if code = 0 then 2 else 5)))

/-- No UPD_DATA for 600 s (R514). -/
def execUpdateAbandoned (s : State) : Host.Outcome State Fault Refusal :=
  .next (match s.umb.upd with
    | none => s
    | some u => ({ s with umb.upd := none }.wf (slotF u.slot) 0).umberEvent .UPDATE_ABANDONED 0 [(u.type : Nat)])

/-- ACTIVATE (R517): a READY slot is activated at a boundary. -/
def execActivate (type : Fin 256) (tick : Nat) (s : State) : Host.Outcome State Fault Refusal :=
  .next (s.umbOp 0x33 (some 5) [1, 2, 3] fun _ _ s =>
    if type.val ≠ 1 ∧ type.val ≠ 2 then (3, [], s)
    else match s.slotIn type 2 with
      | none => (2, [], s)
      | some k =>
        if (s.slotIn 1 3).isSome || (s.slotIn 2 3).isSome then (4, [], s)
        else if tick ≠ 0 ∧ !leadOk s.tick.num tick then (5, [], s)
        else if (s.hdr k).svn < s.f (svnF type) then (0x15, [], s)
        else (0, [], { s with umb.act := some (type.val, if tick = 0 then s.tick.num + 2 else tick) }))

/-- COMMIT of the TRIAL slot (R518, R516): a Stoker image must have reported health. -/
def execImageCommit (type : Fin 256) (s : State) : Host.Outcome State Fault Refusal :=
  .next (s.umbOp 0x34 (some 5) [1, 2, 3] fun _ _ s =>
    if type.val ≠ 1 ∧ type.val ≠ 2 then (3, [], s)
    else match s.slotIn type 3 with
      | none => (2, [], s)
      | some k =>
        if type.val = 2 ∧ !s.umb.healthy then (2, [], s)
        else
          let h := s.hdr k
          let s := match s.slotIn type 4 with | some a => s.wf (slotF a) 2 | none => s
          let s := (s.wf (slotF k) 4).wf (svnF type) (max (s.f (svnF type)) h.svn)
          let s := if h.flags % 2 = 1 then
              { s with umb.revoked := (List.range h.keyslot) ++ s.umb.revoked.filter fun n => decide (h.keyslot ≤ n) } else s
          let s := if type.val = 2 ∧ s.f F.STK_STAT_STATE = 3 then s.wf F.STK_STAT_STATE 2 else s
          (0, [], if type.val = 2 then { s with umb.trialUp := false, umb.healthy := false } else s))

/-- A Stoker image in TRIAL reports health (R518). -/
def execHealthReport (s : State) : Host.Outcome State Fault Refusal :=
  .next (if s.umb.trialUp then { s with umb.healthy := true } else s)

/-- The trial image of a type is given up: its slot is BAD, and the ACTIVE slot's image runs (R518, R519). -/
def State.revert (s : State) (type : Nat) : State :=
  match s.slotIn type 3 with
  | none => s
  | some k =>
    let s := s.wf (slotF k) 5
    let s := match s.slotIn type 4 with | some a => s.wf (verF type) (s.hdr a).version | none => s
    let s := if type = 2 then { s with umb.trialUp := false, umb.healthy := false } else s
    s.umberEvent .UPDATE_REVERTED 0 [(type : Nat)]

/-- A new Umber image is not running within 1 s, or restarts before COMMIT (R519). -/
def execUmberTrialTimeout (s : State) : Host.Outcome State Fault Refusal :=
  .next (if (s.slotIn 1 3).isSome then
    { (s.revert 1).wf F.UMB_STAT_LOG_READY 0 with umb.down := false, umb.absentNoted := false } else s)

/-- Umber's new image runs (R519): the log is recovered anew (R499). -/
def execUmberRestartDone (s : State) : Host.Outcome State Fault Refusal :=
  .next (if s.umb.down then
    let s := match s.slotIn 1 3 with | some k => s.wf F.UMB_VER_U_VERSION (s.hdr k).version | none => s
    { s.wf F.UMB_STAT_LOG_READY 0 with umb.down := false, umb.absentNoted := false } else s)

/-! ### Sessions end (R505) -/

def execSessionExpiry (id : Nat) (s : State) : Host.Outcome State Fault Refusal :=
  .next (if (s.sess id).isSome then s.endSessions (·.id == id) else s)

/-! ### Fences (R510) and restep authorisations (R507) -/

/-- The ranges of the fence register at an address (R510): none outside FNC's field registers. -/
def fenceRange (a : Nat) (w : Word) : Bool :=
  match findRow regRowsFNC a with
  | none => false
  | some (r, _) =>
    a != Reg.FNC_HIT &&
    (if r.base = 0x1300100 then
        decide (500 ≤ fieldOf w 29 16) && decide (fieldOf w 29 16 ≤ 10000) && decide (1 ≤ fieldOf w 5 0) && decide (fieldOf w 5 0 ≤ 60)
      else if r.base = 0x1300300 then decide (1 ≤ fieldOf w 14 0) && decide (fieldOf w 14 0 ≤ 20000)
      else true)

/-- A fence register takes a value over Umber's fence path: a ceiling below a present setting acts at once (R510, R142, R308). -/
def State.fenceTake (s : State) (a : Nat) (w : Word) : State :=
  let mask := match findRow regRowsFNC a with | some (r, _) => BitVec.ofNat 32 r.rof | none => 0#32
  let s := s.wr a (w &&& mask)
  if Reg.FNC_EXd 0 ≤ a ∧ a ≤ Reg.FNC_EXd 23 then s.driverSet ((a - Reg.FNC_EXd 0) / 4)
  else if a = Reg.FNC_RATE then
    let r := clampTo s.rateFence s.rateCorr
    if r = s.rateCorr then s
    else ((s.wfs F.PTP_RATE_RATE r).fenceHit 3).emit .PTP_RATE_CLAMP 0 [s.rateCorr, r]
  else s

def execFenceWrite (addr : Nat) (value : Word) (s : State) : Host.Outcome State Fault Refusal :=
  .next (s.umbOp 0x50 (some 8) [3] fun _ _ s =>
    if !fenceRange addr value then (3, [], s)
    else
      let old := s.rd addr
      (0, [], (s.fenceTake addr value).umberEvent .FENCE_SET 0 [(addr : Nat), (old.toNat : Nat), (value.toNat : Nat)]))

def execRestepAuth (dir : Fin 256) (most expiry : Nat) (s : State) : Host.Outcome State Fault Refusal :=
  .next (s.umbOp 0x60 (some 4) [2, 3] fun _ _ s =>
    if most = 0 ∨ s.f F.FNC_STEP_MAX < most ∨ expiry < 3 ∨ 1920000 < expiry ∨ 1 < dir.val then (3, [], s)
    else (0, [], ((s.wf F.PTP_RESTEP_AUTH_VALID 1).wf F.PTP_RESTEP_AUTH_DIR dir).wf F.PTP_RESTEP_AUTH_MAX most |>.wf64
      F.PTP_RESTEP_EXP_LO_TICK F.PTP_RESTEP_EXP_HI_TICK (s.tick.num + expiry)))

end Sys2Proof.Machine
end

