-- ==== Sys2Proof/Machine/Domains.lean ====
section
/-!
DEFINITION. The reset domains (R529 to R534): the tile links with their outages (R12, R533), the sample synthesiser (R525), the backlog
store, the storage port, the Slate link, and what each side gives up.
-/
namespace Sys2Proof.Machine

open Sys2Proof

/-! ### Lost conversions of a tile -/

/-- The conversions of tile `t` with instants from `lo` to before `hi` are lost: the gap records of its channels, in channel order. DOMAIN_RESET
records count in CLK_XDROP (R533). -/
def State.tileGaps (s : State) (t : Nat) (cause : GapCause) (lo hi : Nat) : State :=
  (List.range 24).foldl (fun s i =>
    match s.convGap (24 * t + i) cause lo hi with
    | none => s
    | some g => (if cause = .domainReset then s.bump F.CLK_XDROP_DROP g.count else s).gap g) s

/-! ### Tile links and the sample synthesiser -/

/-- The hub clock at the start of the current tick, or now while no tick runs. -/
def State.boundaryNow (s : State) : Nat := if s.ticking then boundaryClock s.rate s.tick.num else s.tick.clock

/-- Conversions of tile `t` that have not arrived are discarded (R532): the loss begins with the earliest of them, else now. -/
def State.tileDrop (s : State) (t : Nat) : State :=
  let gone := s.front.convs.filter fun (c : Conv) => c.ch / 24 == t && !c.delivered
  let first := gone.foldl (fun (a : Nat) (c : Conv) => min a c.inst) s.tick.clock
  let x := s.tile t
  let x := if x.marked then x else { x with lossFrom := some (match x.lossFrom with | some y => min y first | none => first) }
  { s with front.convs := s.front.convs.filter fun (c : Conv) => !(c.ch / 24 == t && !c.delivered) }.setTile t x

/-- The link of tile `t` loses lock. -/
def State.tileReset (s : State) (t cause : Nat) : State :=
  if (s.tile t).down then s
  else ((s.tileDrop t).setTile t { (s.tileDrop t).tile t with down := true, lostTick := s.tick.num }).domReset (2 + t) cause

/-- The cores of tile `t` resume 2 µs from now (R533). -/
def State.tileResume (s : State) (t : Nat) : State :=
  let x := s.tile t
  let at' := s.tick.clock + 131072000
  if x.marked then s.setTile t { x with resumeAt := at' }
  else
    let s := match x.lossFrom with
      | some lo => s.tileGaps t .domainReset lo at'
      | none => s
    s.setTile t { x with lossFrom := none, resumeAt := at' }

/-- The link of tile `t` is trained again. -/
def State.tileRelease (s : State) (t : Nat) : State :=
  if !(s.tile t).down then s
  else
    let s := (s.setTile t { s.tile t with down := false, retrying := false }).domRelease (2 + t)
    if s.inReset 1 then s else s.tileResume t

/-- The drivers of tile `t` stop at 0 V, or take their set-points again (R12). -/
def State.tileDrivers (s : State) (t : Nat) (stop : Bool) : State :=
  (List.range 6).foldl (fun s i =>
    { s with front.tileStop := tabSet (fun _ => false) s.front.tileStop (6 * t + i) stop }.driverSet (6 * t + i)) s

/-- Tile `t` is declared TILE_DOWN at a boundary (R12): the records of the outage before it, its drivers and its visits. -/
def State.tileMark (s : State) (t : Nat) : State :=
  let x := s.tile t
  if !x.down || x.marked then s
  else
    let b := s.boundaryNow
    let s := match x.lossFrom with
      | some lo => s.tileGaps t .domainReset lo b
      | none => s
    let s := s.setTile t { x with marked := true, fromClock := b, lossFrom := none }
    ((s.tileDrivers t true).visitsDown t).emit .TILE_DOWN (objLink (23 + t)) []

/-- Tile `t` resumes at a boundary (R12): the records of what was lost under the mark, its drivers, and the settings that waited. -/
def State.tileUnmark (s : State) (t : Nat) : State :=
  let x := s.tile t
  if !x.marked || x.down then s
  else
    let at' := max s.boundaryNow x.resumeAt
    let s := s.tileGaps t .tileDown x.fromClock at'
    let s := s.setTile t { x with marked := false, resumeAt := at', lossFrom := if s.inReset 1 then some at' else none }
    let s := (List.range 24).foldl (fun s i => s.gpeAwait (24 * t + i) (s.tick.num - 1, 0, 0)) s
    let s := s.landHeld fun h => decide (h.due ≤ s.tick.num) && decide (0x400000 ≤ h.addr) && decide (h.addr < 0x440000)
      && (h.addr - 0x400000) / 0x10000 == t
    (s.tileDrivers t false).emit .TILE_UP (objLink (23 + t)) []

/-- The synthesiser loses lock: every conversion in flight is discarded, and the SMP domain is in reset (R525, R532). -/
def State.smpReset (s : State) (cause : Nat) : State :=
  if s.inReset 1 then s else ([0, 1, 2, 3].foldl State.tileDrop s).domReset 1 cause

/-- The SMP reset is released: tiles whose links are up resume (R533). -/
def State.smpRelease (s : State) : State :=
  if !s.inReset 1 then s
  else [0, 1, 2, 3].foldl (fun s t => if (s.tile t).down then s else s.tileResume t) (s.domRelease 1)

/-! ### The other domains -/

/-- The backlog store's controller is reset (R534): spills in flight are abandoned, fills in flight restart; READY is 0 until training. -/
def State.ddrReset (s : State) (cause : Nat) : State :=
  let spills := s.qmg.xfers.filter fun x => !x.2
  let s : State := { s with qmg.xfers := s.qmg.xfers.filter (·.2) }
  let s := s.wf F.QMG_BL_STAT_FREE_BLK (s.f F.QMG_BL_STAT_FREE_BLK + spills.length)
  (s.wf F.QMG_BL_STAT_READY 0).domReset 6 cause

/-- The root port is reset (R532): Writes in flight fail under R452; Reads are tried again, a job's within its three times (R459). -/
def State.pcieReset (s : State) (cause : Nat) : State :=
  let s := s.crd.writes.foldl (fun s (w : CWrite) => s.writeComplete w.unit.id (-1)) s
  let s := s.crd.reads.foldl (fun s (x : Nat × ReadFor) => match x.2 with
    | .job _ => s.readComplete x.1 .fail
    | _ => s) s
  s.domReset 7 cause

/-- The Slate link is reset (R532): what waits to leave on it is discarded. -/
def State.sltReset (s : State) (cause : Nat) : State :=
  { s with hub.txq := tabSet (fun _ => []) s.hub.txq 18 [] }.domReset 10 cause

/-- RST_REQ (R529): register writes reset the domains named. -/
def State.rstReq (s : State) (w : Word) : State :=
  let s := if w.getLsbD 10 then s.sltReset 1 else s
  let s := if w.getLsbD 8 then s.domReset 8 1 else s
  let s := if w.getLsbD 9 then s.domReset 9 1 else s
  let s := if w.getLsbD 7 then s.pcieReset 1 else s
  if w.getLsbD 6 then s.ddrReset 1 else s

/-! ### Rows -/

def execTileDown (t : Fin 4) (s : State) : Host.Outcome State Fault Refusal := .next (s.tileMark t)

def execTileUp (t : Fin 4) (s : State) : Host.Outcome State Fault Refusal := .next (s.tileUnmark t)

/-- The synthesiser loses lock by a hardware fault (R525). -/
def execSmpUnlock (s : State) : Host.Outcome State Fault Refusal :=
  .next (if s.flag F.CLK_STAT_SMP_LOCK then ((s.wf F.CLK_STAT_SMP_LOCK 0).emit .SMP_UNLOCK 0 []).condNote.smpReset 0 else s)

def execSmpLock (s : State) : Host.Outcome State Fault Refusal := .next (s.wf F.CLK_STAT_SMP_LOCK 1).condNote.smpRelease

def execRstReq (_m : Master) (slt pcie ddr : Bool) (up : Fin 4) (s : State) : Host.Outcome State Fault Refusal :=
  .next (s.rstReq (BitVec.ofNat 32 (b2n slt * 1024 + up.val * 256 + b2n pcie * 128 + b2n ddr * 64)))

end Sys2Proof.Machine
end

