-- ==== Sys2Proof/Machine/Kiln.lean ====
section
/-!
DEFINITION. The Kiln instructions that act inside their hearth: control flow, moves, arithmetic,
accumulators, flags, sample words, tick RAM, views and the scheduler path (R84 to R96, R101); and a fetch
parity error (R80).
-/
namespace Sys2Proof.Machine

open Sys2Proof

/-- The answer of a command that takes effect. -/
abbrev Ans := Host.Outcome State Fault Refusal

/-! ### Control flow (R84 to R87) -/

def execNop (h : Fin 4) (p : Pred) (s : State) : Ans := .next (s.issueH h p 1 id)

/-- A taken `br` costs 3 cycles, a `br` that falls through 1 (R84). -/
def execBr (h : Fin 4) (p : Pred) (off : Nat) (s : State) : Ans :=
  let x := s.hearth h
  .next (if !x.running then s
    else if x.holds p then s.setHearth h (x.go (x.pc + 1 + off) 3)
    else s.setHearth h (x.next 1))

def execSkip (h : Fin 4) (p : Pred) (n : Nat) (s : State) : Ans :=
  let x := s.hearth h
  .next (if !x.running then s
    else if x.holds p then s.setHearth h (x.go (x.pc + 1 + n) 1)
    else s.setHearth h (x.next 1))

/-- A taken `rep` opens its body at 2 cycles; otherwise the body is passed over at 1 cycle (R84). -/
def execRep (h : Fin 4) (p : Pred) (count len : Nat) (s : State) : Ans :=
  let x := s.hearth h
  .next (if !x.running then s
    else if x.holds p then
      s.setHearth h { x with reps := { start := x.pc + 1, len := len, left := count - 1, idx := 0 } :: x.reps,
                             pc := x.pc + 1, cyc := x.cyc + 2 }
    else s.setHearth h (x.go (x.pc + 1 + len) 1))

/-- `waitc` retires in cycle max(c, cyc) (R86). -/
def execWaitc (h : Fin 4) (p : Pred) (cyc : Nat) (s : State) : Ans :=
  let x := s.hearth h
  .next (if !x.running then s
    else if x.holds p then s.setHearth h ({ x with cyc := max x.cyc cyc }.next 1)
    else s.setHearth h (x.next 1))

/-- `end` ends the hearth's tick and discards the repeat stack (R84, R87, R107). -/
def execEndTick (h : Fin 4) (p : Pred) (s : State) : Ans :=
  let x := s.hearth h
  .next (if !x.running then s
    else if x.holds p then
      s.setHearth h { x with running := false, reps := [], cyc := x.cyc + 1, used := x.cyc + 1 - 256 }
    else s.setHearth h (x.next 1))

/-! ### Moves and special values (R88) -/

def execLdi (h : Fin 4) (p : Pred) (d : Fin 32) (hi : Bool) (imm : BitVec 16) (s : State) : Ans :=
  .next (s.issueH h p 1 fun x =>
    x.kw d (if hi then (BitVec.setWidth 32 imm <<< 16) ||| (x.kr d &&& 0xFFFF#32) else BitVec.signExtend 32 imm))

/-- Special value `sel` (R88). -/
def State.special (s : State) (h : Nat) (x : Hearth) (sel : Nat) : Word :=
  BitVec.ofNat 32 (match sel with
    | 0x000 => s.tick.num
    | 0x001 => s.tick.num / 2 ^ 32
    | 0x002 => s.tick.num % s.rate
    | 0x003 => h
    | 0x004 => x.cyc
    | 0x005 => s.rate
    | 0x006 => s.f F.KLN_BUDGET_BUDGET
    | 0x007 => s.activeBank
    | 0x008 => s.kiln.timeState
    | 0x009 => x.faultCode * 2 ^ 24 + x.faultCount * 2 ^ 16 + x.faultPc
    | 0x00A => if x.sat then 1 else 0
    | 0x010 => (x.reps.reverse[0]?.map (·.idx)).getD 0
    | 0x011 => (x.reps.reverse[1]?.map (·.idx)).getD 0
    | 0x012 => (x.reps.reverse[2]?.map (·.idx)).getD 0
    | 0x013 => (x.reps.reverse[3]?.map (·.idx)).getD 0
    | _ => 0)

def execGets (h : Fin 4) (p : Pred) (d : Fin 32) (sel : Nat) (s : State) : Ans :=
  .next (s.issue h p 1 fun s x => (s, x.kw d (s.special h x sel)))

/-! ### Integer arithmetic (R89, R90) -/

def execAlu (h : Fin 4) (p : Pred) (d a b : Fin 32) (fn : AluFn) (s : State) : Ans :=
  .next (s.issueH h p 1 fun x =>
    let r := aluOp fn (x.kr a) (x.kr b)
    (x.kw d r.1).satIf r.2)

def execAddi (h : Fin 4) (p : Pred) (d a : Fin 32) (imm : BitVec 12) (s : State) : Ans :=
  .next (s.issueH h p 1 fun x => x.kw d (x.kr a + BitVec.signExtend 32 imm))

def execAndi (h : Fin 4) (p : Pred) (d a : Fin 32) (imm : BitVec 12) (s : State) : Ans :=
  .next (s.issueH h p 1 fun x => x.kw d (x.kr a &&& BitVec.setWidth 32 imm))

def execOri (h : Fin 4) (p : Pred) (d a : Fin 32) (imm : BitVec 12) (s : State) : Ans :=
  .next (s.issueH h p 1 fun x => x.kw d (x.kr a ||| BitVec.setWidth 32 imm))

def execXori (h : Fin 4) (p : Pred) (d a : Fin 32) (imm : BitVec 12) (s : State) : Ans :=
  .next (s.issueH h p 1 fun x => x.kw d (x.kr a ^^^ BitVec.setWidth 32 imm))

def execShli (h : Fin 4) (p : Pred) (d a sh : Fin 32) (s : State) : Ans :=
  .next (s.issueH h p 1 fun x => x.kw d (x.kr a <<< sh.val))

def execShri (h : Fin 4) (p : Pred) (d a sh : Fin 32) (s : State) : Ans :=
  .next (s.issueH h p 1 fun x => x.kw d (x.kr a >>> sh.val))

def execSrai (h : Fin 4) (p : Pred) (d a sh : Fin 32) (s : State) : Ans :=
  .next (s.issueH h p 1 fun x => x.kw d ((x.kr a).sshiftRight sh.val))

/-! ### Accumulators (R91) -/

def execMul (h : Fin 4) (p : Pred) (a : Fin 4) (m n : Fin 32) (u : Bool) (s : State) : Ans :=
  .next (s.issueH h p 2 fun x => x.aw a (BitVec.ofInt 64 (product u (x.kr m) (x.kr n))))

def execMac (h : Fin 4) (p : Pred) (a : Fin 4) (m n : Fin 32) (u neg : Bool) (s : State) : Ans :=
  .next (s.issueH h p 2 fun x =>
    let q := BitVec.ofInt 64 (product u (x.kr m) (x.kr n))
    x.aw a (if neg then x.ar a - q else x.ar a + q))

def execClra (h : Fin 4) (p : Pred) (a : Fin 4) (s : State) : Ans :=
  .next (s.issueH h p 1 fun x => x.aw a 0#64)

def execLda (h : Fin 4) (p : Pred) (a : Fin 4) (m n : Fin 32) (s : State) : Ans :=
  .next (s.issueH h p 1 fun x =>
    x.aw a ((BitVec.setWidth 64 (x.kr m) <<< 32) ||| BitVec.setWidth 64 (x.kr n)))

def execMva (h : Fin 4) (p : Pred) (d : Fin 32) (a : Fin 4) (sh : Fin 64) (rnd : Bool) (s : State) : Ans :=
  .next (s.issueH h p 2 fun x =>
    let r := mvaOp (x.ar a) sh rnd
    (x.kw d r.1).satIf r.2)

/-! ### Flags and sample words (R92 to R94) -/

def execCmp (h : Fin 4) (p : Pred) (f : Fin 8) (a b : Fin 32) (c : Cond) (s : State) : Ans :=
  .next (s.issueH h p 1 fun x => x.fw f (condHolds c (x.kr a) (x.kr b)))

def execCmpi (h : Fin 4) (p : Pred) (f : Fin 8) (a : Fin 32) (imm : BitVec 11) (c : Cond) (s : State) : Ans :=
  .next (s.issueH h p 1 fun x => x.fw f (condHolds c (x.kr a) (BitVec.signExtend 32 imm)))

def execFlop (h : Fin 4) (p : Pred) (f a b : Fin 8) (fn : FlopFn) (s : State) : Ans :=
  .next (s.issueH h p 1 fun x => x.fw f (flopOp fn (x.fr a) (x.fr b)))

def execTstb (h : Fin 4) (p : Pred) (f : Fin 8) (a bit : Fin 32) (s : State) : Ans :=
  .next (s.issueH h p 1 fun x => x.fw f ((x.kr a).getLsbD bit))

def execSwd (h : Fin 4) (p : Pred) (d a b : Fin 32) (fn : SwdFn) (s : State) : Ans :=
  .next (s.issueH h p 1 fun x =>
    let r := swdOp fn (x.kr a) (x.kr b)
    (x.kw d r.1).satIf r.2)

/-! ### Tick RAM (R62, R66, R95) -/

/-- Cycles of a tick RAM access: one more in the shared region (R95). -/
def tramCost (base i : Nat) : Nat := if 0x8000 ≤ i then base + 1 else base

/-- The state and hearth after a fault of the instruction at the hearth's pc (R78). -/
def faultNow (s : State) (h code : Nat) (x : Hearth) : State × Hearth := (s.sticky h code, x.fault code x.pc)

/-- A tick RAM instruction: its cycles depend on the region it names. -/
def State.issueTram (s : State) (h : Nat) (p : Pred) (base : Nat) (src : Nat) (imm : BitVec 12)
    (f : State → Hearth → Nat → State × Hearth) : State :=
  let i := tramIndex (s.hearth h) src imm
  s.issue h p (tramCost base i) fun s x => f s x i

def execLd (h : Fin 4) (p : Pred) (d a : Fin 32) (imm : BitVec 12) (s : State) : Ans :=
  .next (s.issueTram h p 1 a imm fun s x i =>
    if !tramReach h i then faultNow s h 0x01 (x.kw d 0#32)
    else
      let r := s.tramRead i
      let s := s.tramCount i
      if r.2 then faultNow s h 0x03 (x.kw d 0#32) else (s, x.kw d r.1))

def execSt (h : Fin 4) (p : Pred) (t a : Fin 32) (imm : BitVec 12) (s : State) : Ans :=
  .next (s.issueTram h p 1 a imm fun s x i =>
    if !tramReach h i then faultNow s h 0x01 x else (s.tramWrite i (x.kr t), x))

def execLd64 (h : Fin 4) (p : Pred) (a : Fin 4) (b : Fin 32) (imm : BitVec 12) (s : State) : Ans :=
  .next (s.issueTram h p 2 b imm fun s x i =>
    if !tramReach h i then faultNow s h 0x01 (x.aw a 0#64)
    else if i % 2 = 1 then faultNow s h 0x02 (x.aw a 0#64)
    else
      let lo := s.tramRead i
      let hi := s.tramRead (i + 1)
      let s := (s.tramCount i).tramCount (i + 1)
      if lo.2 || hi.2 then faultNow s h 0x03 (x.aw a 0#64)
      else (s, x.aw a ((BitVec.setWidth 64 hi.1 <<< 32) ||| BitVec.setWidth 64 lo.1)))

def execSt64 (h : Fin 4) (p : Pred) (a : Fin 4) (b : Fin 32) (imm : BitVec 12) (s : State) : Ans :=
  .next (s.issueTram h p 2 b imm fun s x i =>
    if !tramReach h i then faultNow s h 0x01 x
    else if i % 2 = 1 then faultNow s h 0x02 x
    else
      let v := x.ar a
      ((s.tramWrite i (BitVec.setWidth 32 v)).tramWrite (i + 1) (BitVec.setWidth 32 (v >>> 32)), x))

/-! ### Views (R68 to R70, R96) -/

def execScnt (h : Fin 4) (p : Pred) (d c : Fin 32) (view : View) (s : State) : Ans :=
  .next (s.issue h p 2 fun s x =>
    let c := (x.kr c).toNat
    if 4191 < c then faultNow s h 0x06 (x.kw d 0#32)
    else (s, x.kw d (BitVec.ofNat 32 (s.viewOf view c).length)))

/-- `srd` and `strd`: a view entry, or a fault on a channel number above 4,191 (R70, R96). -/
def readView (h : Nat) (view : View) (d c i : Nat) (s : State) (x : Hearth) : State × Hearth :=
  let n := (x.kr c).toNat
  if 4191 < n then faultNow s h 0x06 (x.kw d invalidWord)
  else (s, x.kw d (s.viewWord view n (x.kr i).toNat))

def execSrd (h : Fin 4) (p : Pred) (d c i : Fin 32) (s : State) : Ans :=
  .next (s.issue h p 4 fun s x => readView h .output d c i s x)

def execStrd (h : Fin 4) (p : Pred) (d c i : Fin 32) (s : State) : Ans :=
  .next (s.issue h p 4 fun s x => readView h .staging d c i s x)

/-! ### The scheduler path (R101) -/

def execSchd (h : Fin 4) (p : Pred) (d a b : Fin 32) (off : Fin 128) (s : State) : Ans :=
  .next (s.issue h p 8 fun s x =>
    let r := s.schedule (5 + h) (s.tick.num + off) ((x.kr a).toNat / 4 * 4) (x.kr b) 0xFFFFFFFF#32 false
    let seq := if r.1 = 0 then r.2.tick.seq % 2 ^ 24 else 0
    (r.2, x.kw d (BitVec.ofNat 32 (r.1 + 256 * seq))))

/-! ### A fetch parity error (R80) -/

/-- The hearth stops for the rest of the tick; its posted entries stand, and USED reads its cycles up to the stop (R107). -/
def State.hearthParity (s : State) (h : Nat) : State :=
  let x := s.hearth h
  if !x.running then s
  else (s.setHearth h { x with running := false, reps := [], used := x.cyc - 256 }).emit .KILN_PARITY
    (objUnit h) [(s.activeBank : Nat), (x.pc : Nat)]

def execKilnParity (h : Fin 4) (s : State) : Ans := .next (s.hearthParity h)

end Sys2Proof.Machine
end

