-- ==== Sys2Proof/Machine/Loader.lean ====
section
/-!
DEFINITION. Kiln's loader (R108 to R125): the image and its header, the bound check, the admission of the
demand table, the load commands and the refusals, and the swap of program banks (R126 to R131).
-/
namespace Sys2Proof.Machine

open Sys2Proof

/-! ### The image (R108, R109) -/

/-- Word `i` of the image being received. -/
def State.imgWord (s : State) (i : Nat) : Nat := (s.kiln.image.getD i 0#32).toNat

/-- The fields of the image header. -/
def State.imgRate (s : State) : Nat := s.imgWord 2
def State.imgEntry (s : State) (h : Nat) : Nat := s.imgWord (4 + h / 2) / 2 ^ (16 * (h % 2)) % 65536
def State.imgBound (s : State) (h : Nat) : Nat := s.imgWord (6 + h)
def State.imgCodeWords (s : State) : Nat := s.imgWord 10
def State.imgBase (s : State) : Nat := s.imgWord 11
def State.imgDemandBytes (s : State) : Nat := s.imgWord 12
def State.imgSeedWords (s : State) : Nat := s.imgWord 13
def State.imgTotal (s : State) : Nat := s.imgWord 14

/-- The bytes of words. -/
def bytesOf (ws : List Word) : List Nat := ws.flatMap wordBytes

/-- The length rules of R109. -/
def State.imgSizeOk (s : State) : Bool :=
  let c := s.imgCodeWords
  let d := s.imgDemandBytes
  let n := s.imgSeedWords
  decide (1 ≤ c) && decide (c ≤ 65536) && d % 16 == 0 && decide (d ≤ 68864) && decide (n ≤ 128)
    && s.imgTotal == 64 + 4 * c + d + 8 * n + 4

/-- The header checks, codes 0x01 to 0x06 in table order (R116); 0 when all pass. -/
def State.headerCode (s : State) : Nat :=
  if s.imgWord 0 ≠ 0x4B494C46 then 0x01
  else if s.imgWord 1 % 65536 ≠ 0x0001 then 0x02
  else if crc32c (bytesOf (s.kiln.image.take 15)) ≠ s.imgWord 15 then 0x03
  else if !s.imgSizeOk then 0x04
  else if !validRate s.imgRate then 0x05
  else if s.ticking && s.imgRate != s.rate then 0x06
  else 0

/-- The code, demand and seed sections. -/
def State.imgCodeSec (s : State) : List Word := (s.kiln.image.drop 16).take s.imgCodeWords
def State.imgDemandWords (s : State) : List Word := (s.kiln.image.drop (16 + s.imgCodeWords)).take (s.imgDemandBytes / 4)
def State.imgSeedList (s : State) : List Word :=
  (s.kiln.image.drop (16 + s.imgCodeWords + s.imgDemandBytes / 4)).take (2 * s.imgSeedWords)

/-- Demand records from their words (R110). -/
def demandsOf : List Word → List Demand
  | a :: b :: c :: d :: r =>
    { source := fieldOf a 15 0, kind := fieldOf a 23 16, flags := fieldOf a 31 24, inRate := b.toNat, outRate := c.toNat,
      taps := fieldOf d 15 0, detect := fieldOf d 23 16, lane := fieldOf d 31 24 } :: demandsOf r
  | _ => []

/-- Seed entries from their words (R112). -/
def seedsOf : List Word → List (Nat × Word)
  | a :: v :: r => (a.toNat, v) :: seedsOf r
  | _ => []

/-- Whether the image check holds (R108). -/
def State.imgCrcOk (s : State) : Bool :=
  let n := s.imgTotal / 4
  crc32c (bytesOf ((s.kiln.image.take (n - 1)).drop 16)) == s.imgWord (n - 1)

/-! ### The bound check (R119 to R122) -/

/-- Bound cost of an operation, apart from `br`, `skip`, `rep` and `waitc` (R84 to R106). -/
def boundCost : KOp → Nat
  | .ld .. | .st .. | .scnt .. | .mul .. | .mac .. | .mva .. => 2
  | .ld64 .. | .st64 .. => 3
  | .srd .. | .strd .. | .hpw .. | .route .. | .enq .. | .fire .. | .pins .. | .spix .. | .sig .. => 4
  | .schd .. => 8
  | .hpr .. | .qdep .. => 12
  | _ => 1

/-- A walk under way: the latest cycle of each word reached, the latest cycle of an `end`, whether an `end` was met, the first word
after the repeat body just costed, and the breaches found as code and word index. -/
structure Walk where
  late : Tab (Option Nat)
  fin : Nat
  holds : Bool
  resume : Nat
  errs : List (Nat × Nat)
  deriving DecidableEq, Repr

/-- `late` of a word. -/
def Walk.at' (w : Walk) (i : Nat) : Option Nat := tabGet (fun _ => none) w.late i

/-- `reach` from word `from'`: beyond the code section the path is open, beyond the enclosing body it breaks R85. -/
def Walk.reach (w : Walk) (top : Bool) (stop from' j t : Nat) : Walk :=
  if top && decide (stop ≤ j) then { w with errs := (0x0E, from') :: w.errs }
  else if !top && decide (stop < j) then { w with errs := (0x0C, from') :: w.errs }
  else { w with late := tabSet (fun _ => none) w.late j (some (max t ((w.at' j).getD 0))) }

/-- One word of the walk; a `rep` that no path reaches has no body here (DESIGN CHOICE, log entry 125). `body` walks a repeat body, from its first word to the word after it, from cycle 0; none when repeats
nest no deeper (R85). -/
def walkWord (ops : Nat → Option KOp) (stop : Nat) (top : Bool) (body : Option (Nat → Nat → Walk)) (codeEnd : Nat)
    (w : Walk) (i : Nat) : Walk :=
  match w.at' i with
  | none => w
  | some c =>
    if i < w.resume then w
    else match ops i with
      | none => w
      | some .endTick => if top then { w with fin := max w.fin c } else { w with holds := true }.reach top stop i (i + 1) (c + 1)
      | some (.br off) => (w.reach top stop i (i + 1) (c + 3)).reach top stop i (i + 1 + off) (c + 3)
      | some (.skip n) => (w.reach top stop i (i + 1) (c + 1)).reach top stop i (i + 1 + n) (c + 1)
      | some (.waitc cyc) =>
        if top then w.reach top stop i (i + 1) (max c cyc + 1)
        else { w with errs := (0x0D, i) :: w.errs }.reach top stop i (i + 1) (c + 1)
      | some (.rep count len) =>
        let last := i + 1 + len
        if !top && decide (stop < last) then { w with errs := (0x0C, i) :: w.errs }
        else match body with
          | none => { w with errs := (0x0C, i) :: w.errs }
          | some f =>
            if codeEnd < last then { w with errs := (0x0E, i) :: (f (i + 1) last).errs ++ w.errs }
            else
              let into := (List.range len).any fun k => (w.at' (i + 1 + k)).isSome
              let b := f (i + 1) last
              let cost := (b.at' last).getD 0
              let w := { w with errs := (if into then [(0x0C, i)] else []) ++ b.errs ++ w.errs, resume := last,
                                holds := w.holds || b.holds,
                                fin := if b.holds && top then max w.fin (c + 1 + count * cost) else w.fin }
              w.reach top stop i last (c + 2 + count * cost)
      | some op => w.reach top stop i (i + 1) (c + boundCost op)

/-- A walk over the words from `lo` to `stop`. -/
def walkFrom (ops : Nat → Option KOp) (top : Bool) (body : Option (Nat → Nat → Walk)) (codeEnd lo stop start : Nat) : Walk :=
  (List.range (stop - lo)).foldl (fun w k => walkWord ops stop top body codeEnd w (lo + k))
    { late := [(lo, some start)], fin := 0, holds := false, resume := 0, errs := [] }

/-- `body`, where `n` further repeats may nest. -/
def walkBody (ops : Nat → Option KOp) (codeEnd : Nat) : Nat → Nat → Nat → Walk
  | 0, lo, stop => walkFrom ops false none codeEnd lo stop 0
  | n + 1, lo, stop => walkFrom ops false (some (walkBody ops codeEnd n)) codeEnd lo stop 0

/-- The walk of a hearth's program from its entry, and its bound. -/
def walkHearth (ops : Nat → Option KOp) (codeEnd entry : Nat) : Walk :=
  walkFrom ops true (some (walkBody ops codeEnd 3)) codeEnd entry codeEnd 256

def Walk.bound (w : Walk) : Nat := w.fin - 255

/-- The lowest word of a breach, over some walks in order: of the first walk that has one. -/
def firstErr (code : Nat) : List Walk → Option Nat
  | [] => none
  | w :: r =>
    match (w.errs.filter (·.1 == code)).map (·.2) with
    | [] => firstErr code r
    | a :: l => some (l.foldl min a)

/-- The index of the first element that satisfies `p`. -/
def firstIdx {α : Type} (p : α → Bool) : List α → Nat → Option Nat
  | [], _ => none
  | x :: r, i => if p x then some i else firstIdx p r (i + 1)

/-! ### Admission (R123) -/

/-- Whether a record is well-formed (R110, R111). -/
def demandOk (d : Demand) : Bool :=
  decide (d.kind ≤ 3) && decide (d.flags < 8) && decide (d.taps ≤ 256) && decide (d.detect < 16) && d.inRate != 0
    && (match d.kind with
        | 0 => decide (d.source < 96) && decide (d.lane < 64) && d.inRate % (d.lane + 1) == 0
        | 1 => decide (96 ≤ d.source) && decide (d.source < 4192) && decide (d.lane < 16)
        | 2 => decide (d.source < 96) && decide (d.lane < 64) && d.inRate % (d.lane + 1) == 0 && d.outRate == 0
        | _ => decide (d.source < 112) && d.lane == 0xFF && d.outRate == 0)

/-- The first record that is malformed, or whose source an earlier record names (R111). -/
def demandBad (seen : List (Bool × Nat)) (i : Nat) : List Demand → Option Nat
  | [] => none
  | d :: r =>
    let k := (d.kind == 3, d.source)
    if !demandOk d || seen.contains k then some i else demandBad (k :: seen) (i + 1) r

/-- Conversions of rank `i` at frame rate `f` that start before cycle `x` of a second, counted from the second before (R163). -/
def convsBefore (f i x : Nat) : Nat := (x + 800000000 - 80 * i - 1) * f / 800000000 + 1

/-- The records of a duty break CORE_TIME at tick rate `n` (R168). -/
def coreTimeBad (n : Nat) (l : List Demand) : Bool :=
  match l with
  | [] => false
  | d :: _ =>
    let f := max 1 d.inRate
    let k := l.length
    let wake := b2n (decide (1600 < (800000000 + f - 1) / f - 80 * (k - 1) - 160))
    let cyc := 800000000 / n
    (l.any fun x => x.inRate != d.inRate) || decide (10000000 < f * k) || decide (800000000 / f < 80 * k)
      || decide (1000000000 < f * (k * 100 + wake * 1200))
      || (List.range n).any fun t =>
           decide (10240 < ((List.range k).map fun i => convsBefore f i (cyc * (t + 1)) - convsBefore f i (cyc * t)).sum)

/-- The first record, in record order, of the first duty that breaks CORE_TIME (R168). -/
def coreTime (n : Nat) (l : List Demand) : Option Nat :=
  let of (k : Nat) (d : Demand) : Bool := (d.kind == 0 || d.kind == 2) && d.source / 4 == k
  match (List.range 24).find? fun k => coreTimeBad n (l.filter (of k)) with
  | some k => firstIdx (of k) l 0
  | none => none

/-- The demand of the sum checks of R123. -/
def chargeSum (l : List Demand) : Nat :=
  ((l.filter fun d => d.kind < 2).map fun d => chrCharge d.inRate d.outRate d.taps d.detect (bitOf d.flags 1)).sum
def outSum (l : List Demand) : Nat := ((l.filter fun d => d.kind < 2).map (·.outRate)).sum
def laneSum (l : List Demand) (n : Nat) : Nat := ((l.filter fun d => d.kind == 1 && d.lane == n).map (·.inRate)).sum
def edgeSum (l : List Demand) : Nat := ((l.filter fun d => d.kind == 3).map (·.inRate)).sum

/-- The answer of the checks: 0 and no detail when they pass, or a code with its detail, or with none where the spec does not say
which record a sum concerns. -/
abbrev Verdict := Nat × Option Nat

/-- The checks of R123, in table order. -/
def State.admission (s : State) : Verdict :=
  let l := demandsOf s.imgDemandWords
  match demandBad [] 0 l with
  | some i => (0x11, some i)
  | none =>
    match coreTime s.imgRate l with
    | some i => (0x12, some i)
    | none =>
      if 25600000000 < chargeSum l then (0x13, none)
      else if 24000000 < outSum l then (0x14, none)
      else if (List.range 16).any fun n => decide (6000000 < laneSum l n) then (0x15, none)
      else if s.ringBytes (s.f F.QMG_BL_HIST_HIST) < historyNeed l then (0x16, none)
      else if 2000000 < edgeSum l then (0x17, none)
      else match firstIdx (fun (e : Nat × Word) => decide (0x10000 ≤ e.1)) (seedsOf s.imgSeedList) 0 with
        | some i => (0x18, some i)
        | none => (0, some 0)

/-- The hearths' walks of the image received. -/
def State.imgWalks (s : State) : List Walk :=
  let base := s.imgBase
  let code := s.imgCodeSec
  let ops (i : Nat) : Option KOp := if i < base then none else (code[i - base]?).bind fun w => (kdecode w).map (·.op)
  (List.range 4).map fun h => walkHearth ops (base + s.imgCodeWords) (s.imgEntry h)

/-- The first word of the code section that satisfies `p`, as a bank word. -/
def State.imgBadWord (s : State) (p : Word → Bool) : Option Nat := firstIdx p s.imgCodeSec s.imgBase

/-- The budget of a tick rate (R31). -/
def budgetOf (n : Nat) : Nat := 800000000 / n - 512

/-- The checks of a received image, from IMAGE_CRC_BAD on, in table order (R118). -/
def State.imageCode (s : State) : Verdict :=
  if !s.imgCrcOk then (0x07, some 0)
  else if 65536 < s.imgBase + s.imgCodeWords then (0x08, none)
  else match (List.range 4).find? fun h => decide (s.imgEntry h < s.imgBase) || decide (s.imgBase + s.imgCodeWords ≤ s.imgEntry h) with
    | some h => (0x08, some (s.imgEntry h))
    | none =>
      match s.imgBadWord (fun w => !opKnown (fieldOf w 31 26)) with
      | some i => (0x09, some i)
      | none =>
        match s.imgBadWord (fun w => (kdecode w).isNone) with
        | some i => (0x0A, some i)
        | none =>
          match s.imgBadWord (fun w => match kdecode w with | some k => k.op.destPF0 | none => false) with
          | some i => (0x0B, some i)
          | none =>
            let ws := s.imgWalks
            match [0x0C, 0x0D, 0x0E].findSome? fun k => (firstErr k ws).map fun i => (k, some i) with
            | some v => v
            | none =>
              match (List.range 4).find? fun h => decide (s.imgBound h < ((ws[h]?).map Walk.bound).getD 0) with
              | some h => (0x0F, some h)
              | none =>
                match (List.range 4).find? fun h => decide (budgetOf s.imgRate < s.imgBound h) with
                | some h => (0x10, some h)
                | none => s.admission

/-! ### Loading (R113 to R118) -/

/-- State codes of a program bank and of a load. -/
def State.bankState (s : State) (b : Nat) : Nat := s.f (bankStateF b)
def State.loadPhase (s : State) : Nat := s.f F.KLN_LOAD_STAT_PHASE
def State.loadOwner (s : State) : Nat := s.f F.KLN_LOAD_STAT_OWNER

/-- A load is in progress. -/
def State.loading (s : State) : Bool := s.loadPhase == 1 || s.loadPhase == 2

/-- A bank loses its contents and its record. -/
def State.wipeBank (s : State) (b st : Nat) : State :=
  let s := ((s.setBank b bank0).wf (bankStateF b) st).wr (Reg.KLN_Bb_ID b) 0#32
  forNat 4 (fun s n => (s.wr (Reg.KLN_Bb_DECLn b n) 0#32).wr (Reg.KLN_Bb_COMPn b n) 0#32) (s.wr (Reg.KLN_Bb_RATE b) 0#32)

/-- A load ends with a code and a detail. -/
def State.loadEnd (s : State) (code : Nat) (detail : Word) : State :=
  { ((s.wf F.KLN_LOAD_STAT_PHASE 3).wf F.KLN_LOAD_STAT_CODE code).wr Reg.KLN_LOAD_DETAIL detail with kiln.image := [] }

/-- The load is refused (R116, R118). -/
def State.loadRefuse (s : State) (v : Verdict) : State :=
  let r : Word × State := match v.2 with
    | some d => (BitVec.ofNat 32 d, s)
    | none => let f := s.free; (BitVec.ofInt 32 f.1, f.2)
  let b := s.kiln.loadBank
  let s := ((r.2.setBank b bank0).wf (bankStateF b) 5).loadEnd v.1 r.1
  (s.emit .LOAD_REFUSED 0 [(v.1 : Nat), (r.1.toNat : Nat)]).wf F.HUB_INT_RAW_LOAD 1

/-- The load is abandoned (R117). -/
def State.loadAbandon (s : State) (code : Nat) : State :=
  let owner := s.loadOwner
  ((s.wipeBank s.kiln.loadBank 0).loadEnd code 0#32).emit .LOAD_ABANDONED 0 [(code : Nat), (owner : Nat)]

/-- A write of KLN_LOAD_CTRL with START (R115). -/
def State.loadStart (s : State) (m b : Nat) (abort : Bool) : State :=
  if abort then s.emit .LOAD_CMD_BAD (objMaster m) []
  else if s.bankState b = 4 then s.emit .LOAD_START_REFUSED (objMaster m) [0x19]
  else if s.loading && s.loadOwner != m then s.emit .LOAD_START_REFUSED (objMaster m) [0x1A]
  else
    let s := if s.loading then (s.wipeBank s.kiln.loadBank 0).emit .LOAD_RESTARTED (objMaster m) [] else s
    let s := ((s.wipeBank b 1).wf F.KLN_LOAD_STAT_OWNER m).wf F.KLN_LOAD_STAT_PHASE 1
    { s with kiln.image := [], kiln.loadBank := b, kiln.strayNoted := s.kiln.strayNoted.filter (· != m) }

/-- ABORT alone (R117): it counts from the load's owner. -/
def State.loadAbort (s : State) (m : Nat) : State :=
  if s.loading && s.loadOwner == m then s.loadAbandon 0x1C else s

/-- A write of KLN_LOAD_CTRL. -/
def State.loadCtrl (s : State) (m : Nat) (w : Word) : State :=
  if w.getLsbD 31 then s.loadStart m (fieldOf w 0 0) (w.getLsbD 30)
  else if w.getLsbD 30 then s.loadAbort m
  else s

/-- A word written to KLN_LOAD_DATA (R116). -/
def State.loadData (s : State) (m : Nat) (w : Word) : State :=
  if !s.loading then
    if s.kiln.strayNoted.contains m then s
    else { s with kiln.strayNoted := m :: s.kiln.strayNoted }.emit .BANK_WRITE (objMaster m) []
  else if s.loadOwner ≠ m then s.emit .BANK_WRITE (objMaster m) []
  else if s.loadPhase = 2 then s.loadRefuse (0x04, some 0)
  else
    let s := { s with kiln.image := s.kiln.image ++ [w] }
    let n := s.kiln.image.length
    if n < 16 then s
    else
      let code := if n = 16 then s.headerCode else 0
      if code ≠ 0 then s.loadRefuse (code, some 0)
      else if 4 * n = s.imgTotal then (s.wf F.KLN_LOAD_STAT_PHASE 2).wf (bankStateF s.kiln.loadBank) 2
      else s

/-- The bounds of the per-bank record (R122). -/
def State.showBounds (s : State) : State :=
  let b := s.kiln.loadBank
  let ws := s.imgWalks
  forNat 4 (fun s h => (s.wf (F.KLN_Bb_DECLn_DECL b h) (s.imgBound h)).wf (F.KLN_Bb_COMPn_COMP b h) (((ws[h]?).map Walk.bound).getD 0)) s

/-- The checks of a received image are done (R118). -/
def State.loadCheckDone (s : State) : State :=
  if s.loadPhase ≠ 2 then s
  else
    let v := s.imageCode
    let s := if v.1 = 0 ∨ 0x0F ≤ v.1 then s.showBounds else s
    if v.1 ≠ 0 then s.loadRefuse v
    else
      let b := s.kiln.loadBank
      let s := s.setBank b { loaded := true, base := s.imgBase, code := s.imgCodeSec, parity := s.imgCodeSec.map wordParity, entry := (List.range 4).map s.imgEntry,
                             demands := demandsOf s.imgDemandWords, demandWords := s.imgDemandWords,
                             seed := seedsOf s.imgSeedList }
      let s := (s.wf (F.KLN_Bb_ID_BUILD_ID b) (s.imgWord 3)).wf (F.KLN_Bb_RATE_RATE b) s.imgRate
      ((s.wf (bankStateF b) 3).loadEnd 0 0#32).wf F.HUB_INT_RAW_LOAD 1

def execLoadStart (m : Master) (bank : Fin 2) (abort : Bool) (s : State) : Host.Outcome State Fault Refusal :=
  .next (s.loadStart (masterCode m) bank abort)

def execLoadAbort (m : Master) (s : State) : Host.Outcome State Fault Refusal := .next (s.loadAbort (masterCode m))

def execLoadData (m : Master) (data : Word) (s : State) : Host.Outcome State Fault Refusal := .next (s.loadData (masterCode m) data)

def execLoadTimeout (s : State) : Host.Outcome State Fault Refusal := .next (if s.loadPhase = 1 then s.loadAbandon 0x1B else s)

def execLoadCheckDone (s : State) : Host.Outcome State Fault Refusal := .next s.loadCheckDone

/-- A register-bus write to a program bank window is discarded (R114). -/
def execBankWrite (m : Master) (_ : Fin 2) (_ : Fin 65536) (s : State) : Host.Outcome State Fault Refusal :=
  .next (s.emit .BANK_WRITE (objMaster (masterCode m)) [])

/-! ### Swapping banks (R126 to R131) -/

/-- Why a swap to bank `b` is refused (R128): 2 ALREADY_ACTIVE, 1 NOT_READY, 3 RATE, 4 ENVELOPE; 0 when it is taken. -/
def State.swapReason (s : State) (b : Nat) : Nat :=
  if s.bankState b = 4 then 2
  else if s.bankState b ≠ 3 then 1
  else if s.f (F.KLN_Bb_RATE_RATE b) ≠ s.rate then 3
  else if !s.envFits b then 4
  else 0

/-- The tick a decision stands for: the boundary's tick, or the last tick while no boundary comes. -/
def State.swapDecide (s : State) (b : Nat) : State :=
  let why := s.swapReason b
  let t := s.tick.num
  if why ≠ 0 then
    ((s.bump F.KLN_SWAP_STAT_REFUSED 1).wf F.KLN_SWAP_STAT_REASON why).emit .SWAP_REFUSED 0 [(why : Nat), (b : Nat), (t : Nat)]
  else
    let had := s.bankValid
    let other := 1 - b
    let old := if had then (s.bank other).demands else []
    let s := if had then s.wf (bankStateF other) 3 else s
    let s := ((s.wf (bankStateF b) 4).wf F.KLN_BANK_STAT_ACTIVE b).wf F.KLN_BANK_STAT_ACTIVE_VALID 1
    let s := (s.bumpWrap F.KLN_SWAP_STAT_TAKEN 1).wf64 F.KLN_SWAP_TICK_LO_TICK F.KLN_SWAP_TICK_HI_TICK t
    let s := (s.bank b).seed.foldl (fun s e => s.tramWrite e.1 e.2) s
    (s.divideRing old (s.bank b).demands).retryJoins.wf F.HUB_INT_RAW_SWAP 1

/-- The last request of several acts; each of the others is superseded (R127). -/
def State.swapLast (s : State) (l : List Nat) : State :=
  match l.reverse with
  | [] => s
  | b :: rest => (rest.reverse.foldl (fun s x => s.emit .SWAP_SUPERSEDED 0 [(x : Int)]) s).swapDecide b

/-- An untimed write of KLN_SWAP (R126): for the second boundary after the tick, or at once. -/
def State.swapRequest (s : State) (b : Nat) : State :=
  if s.ticking then { s with kiln.swaps := s.kiln.swaps ++ [{ bank := b, due := s.tick.num + 2 }] }
  else s.swapDecide b

def execSwapRequest (_ : Master) (bank : Fin 2) (s : State) : Host.Outcome State Fault Refusal := .next (s.swapRequest bank)

/-- The decision of a boundary at cycle 137: timed requests first, then the untimed ones due (R127, R128). -/
def State.swapBoundary (s : State) (t : Nat) : State :=
  let due := (s.kiln.swaps.filter fun r => decide (r.due ≤ t)).map (·.bank)
  let l := s.kiln.swapsNow ++ due
  { s with kiln.swaps := s.kiln.swaps.filter (fun r => decide (t < r.due)), kiln.swapsNow := [] }.swapLast l

end Sys2Proof.Machine
end

