-- ==== Sys2Proof/Machine/TickCtl.lean ====
section
/-!
DEFINITION. The tick generator under software control (R27 to R35): the rate and RUN, what a stop ends, what a start checks, and
the gap records of a stretch of ticks in which nothing is sampled.
-/
namespace Sys2Proof.Machine

open Sys2Proof

/-- Channel `c` is not sampled from hub clock `lo` to before `hi`, in the ticks `t0` to `t1`: its gap record (R34, R37). The words of a remote
channel keep their sequence numbers, so that the next one jumps over them (R327). -/
def State.idleGap (s : State) (cause : GapCause) (lo hi t0 t1 c : Nat) : State :=
  if c < 96 then
    match s.convGap c cause lo hi with
    | some g => s.gap { g with firstTick := t0, lastTick := t1 }
    | none => s
  else
    let x := s.slot c
    let r := max 1 x.rate
    let th := x.theta * 65536
    let a := firstIndex r th lo
    let b := firstIndex r th hi
    let seq := s.seqAt c a
    if b ≤ a then s
    else
      let s := s.setSlot c (some { x with skip := some (seq, b - a) })
      s.gap { s.remoteGapOf c cause seq (b - a) with firstTick := t0, lastTick := t1 }

/-- The generator stops (R34): every item still queued is dropped, a system-calibration session ends with GAP_SEEN (R203) and Press closes its
open Briquettes (R414). -/
def State.stopNow (s : State) : State :=
  let s := s.tick.items.foldl (fun s i => s.emit .SCHED_DROPPED 0 [(i.seq : Int)]) s
  let s := match s.front.session with
    | some x => s.sessionEnd s.tick.num x (some 0x05)
    | none => s
  let s := s.pressStop
  let s := if s.ticking then
      let next := s.tick.jump.getD (s.tick.num + 1)
      { s with tick.stopTick := next - 1, tick.stopEnd := boundaryClock s.rate next, tick.stopped := s.activeList }
    else s
  let s := (s.wf F.KLN_TICK_STATE_STATE 3).wf F.KLN_TICK_CTRL_RUN 0
  { s with tick.items := [], tick.inTail := false, tick.jump := none, tick.condAt := none }

/-- RUN is cleared (R34): a generator that runs finishes its tick; one that waits stops at once. -/
def State.runClear (s : State) : State :=
  let s := s.wf F.KLN_TICK_CTRL_RUN 0
  if s.genState = 0 ∨ s.genState = 2 then s.stopNow else s

/-- The bound that the active bank declares exceeds the budget of a rate it was not admitted at (R35). -/
def State.overBudget (s : State) : Bool :=
  let b := s.activeBank
  s.bankValid && s.rate != s.f (F.KLN_Bb_RATE_RATE b)
    && (List.range 4).any fun h => decide (s.f F.KLN_BUDGET_BUDGET < s.f (F.KLN_Bb_DECLn_DECL b h))

/-- RUN is written 1 (R33, R35). -/
def State.runStart (s : State) : State :=
  if s.genState = 3 then
    if s.overBudget then (s.wf F.KLN_TICK_CTRL_RUN 0).emit .TICK_BUDGET 0 []
    else ((s.wf F.KLN_TICK_CTRL_RUN 1).wf F.KLN_TICK_STATE_STATE 0).condNote
  else (s.wf F.KLN_TICK_CTRL_RUN 1).condNote

/-- A new tick rate (R27, R32). -/
def State.rateSet (s : State) (n : Nat) : State :=
  if n = s.rate then s
  else if s.genState ≠ 0 ∧ s.genState ≠ 3 then s.emit .TICK_RATE_BUSY 0 []
  else if !validRate n then s.emit .TICK_RATE_BAD 0 []
  else ((s.wf F.KLN_TICK_CTRL_RATE n).wf F.KLN_TICK_CYCLES_CYCLES (800000000 / n)).wf F.KLN_BUDGET_BUDGET (budgetOf n)

/-- A write of KLN_TICK_CTRL: the rate, then RUN (R32, R34, R35). -/
def State.tickCtrlWrite (s : State) (n : Nat) (run : Bool) : State :=
  let s := s.rateSet n
  if run then s.runStart else s.runClear

def execTickRateSet (_m : Master) (rate : Nat) (run : Bool) (s : State) : Ans := .next (s.tickCtrlWrite (rate % 131072) run)

def execTickRunStart (_m : Master) (s : State) : Ans := .next s.runStart

def execSchedCommit (m : Master) (lateOk cancel : Bool) (s : State) : Ans := .next (s.schedCommit (masterCode m) lateOk cancel)

def execSchedCancel (m : Master) (s : State) : Ans := .next (s.schedCancel (masterCode m) false)

end Sys2Proof.Machine
end

