-- ==== Sys2Proof/Machine/BusWrite.lean ====
section
/-!
DEFINITION. Register writes (R8, R9, R49 to R54, R124, R538 to R543, R582): what a word written to an address does, over the register bus,
by a timed write and through a Kiln helper port, under the access codes, the checks of each block and the active envelope.
-/
namespace Sys2Proof.Machine

open Sys2Proof

/-! ### Access codes -/

/-- A write on its way: the master's code, the address it reaches, the row of its register and the instance, the word that stands there, the
bits written and their mask, the word that the access codes leave, the bits that a write sets, and the boundary a waiting setting reaches: none for a timed write. -/
structure Wr where
  m : Nat
  addr : Nat
  base : Nat
  inst : Nat
  old : Word
  data : Word
  mask : Word
  new : Word
  set : Word
  due : Option Nat
  deriving DecidableEq, Repr

/-- RW-L fields may be set: the life-cycle state is BLANK or PROVISIONED (R8). -/
def State.unlocked (s : State) : Bool := decide (s.f F.UMB_STAT_LC ≤ 1)

/-- The bits of a register that differ from what a write carries. -/
def changed (old data mask field : Word) : Bool := (old ^^^ data) &&& mask &&& field != 0#32

/-- The word that a write leaves under the access codes (R8, R9). -/
def State.accWord (s : State) (r : RegRow) (old data mask : Word) : Word :=
  let b (n : Nat) : Word := BitVec.ofNat 32 n
  let set := mask &&& (b r.rw ||| (if s.unlocked then b r.rwl else 0#32))
  (merge old data set &&& ~~~(data &&& mask &&& b r.w1c)) ||| (data &&& mask &&& b r.w1s)

/-- A write would change an RW-L field that is locked; an RO-F field. -/
def State.hitsLock (s : State) (r : RegRow) (old data mask : Word) : Bool :=
  !s.unlocked && changed old data mask (BitVec.ofNat 32 r.rwl)
def hitsFence (r : RegRow) (old data mask : Word) : Bool := changed old data mask (BitVec.ofNat 32 r.rof)

/-- The private copies of R541. -/
def isPrivate (b : Nat) : Bool :=
  (decide (Reg.KLN_SCHED_TICK_LO ≤ b) && decide (b ≤ Reg.KLN_SCHED_SEQ)) || b == Reg.KLN_TICK_HI
    || (decide (Reg.UPL_LCH_Q ≤ b) && decide (b ≤ Reg.UPL_LCH_RESULT)) || (decide (Reg.CRD_JOB_LOC_LO ≤ b) && decide (b ≤ Reg.CRD_JOB_RES))
    || b == Reg.PTP_NOW_SEC_HI || b == Reg.PTP_NOW_NS || b == Reg.PTP_NOW_FRAC

/-- The register shows `w`: a setting that waits is held for its boundary, or lands in the row of a timed write (R582). A write to the
AFE registers of a tile that is marked TILE_DOWN is kept (R134): a setting is shown, the fault count of AFE_CH_STAT goes on until then. -/
def State.store (s : State) (x : Wr) (w : Word) : State :=
  if heldReg x.base || (s.afeWaits x.addr && x.base != Reg.AFE_CH_STAT 0) then
    match x.due with
    | some d => s.hold d x.addr w x.set x.m
    | none => s.landNow x.addr w x.set x.m
  else if s.afeWaits x.addr then
    { s with tick.held := s.tick.held ++ [{ due := x.due.getD s.tick.num, addr := x.addr, data := w, mask := x.set, master := x.m }] }
  else s.wr x.addr w

/-- The write names the bits of a field that acts when written 1. -/
def Wr.acts (x : Wr) (i : Nat) : Bool := (x.data &&& x.mask).getLsbD i

/-- The write came through a helper port: a hearth's write that is not timed (R71, R489). -/
def Wr.port (x : Wr) : Bool := decide (5 ≤ x.m) && x.due.isSome

/-! ### The envelope (R124) -/

/-- The bank whose envelope is active; while none is, a bank that holds no record. -/
def State.envBank (s : State) : Nat := if s.bankValid then s.activeBank else 2

/-- The first of some channels whose running demand, as latest written, has no room in its record. -/
def State.envBreach (s : State) (l : List Nat) : Option Nat :=
  l.find? fun c => !((decide (96 ≤ c) || s.cnvFits false s.envBank c) && s.chrFits false s.envBank c)

/-- Store a word, unless the demand of one of the channels would then exceed its record. -/
def State.storeEnv (s : State) (x : Wr) (w : Word) (l : List Nat) : State :=
  match (s.wr x.addr w).envBreach l with
  | some c => s.envExceeded c x.addr x.m
  | none => s.store x w

/-! ### The blocks -/

/-- Kiln's registers (R32, R48, R115, R126). -/
def State.wrKln (s : State) (x : Wr) : State :=
  if x.base = Reg.KLN_TICK_CTRL then s.tickCtrlWrite (fw x.new F.KLN_TICK_CTRL_RATE) (x.new.getLsbD 31)
  else if x.base = Reg.KLN_SCHED_CMD then s.schedCmd x.m (x.data &&& x.mask)
  else if x.base = Reg.KLN_LOAD_CTRL then s.loadCtrl x.m (x.data &&& x.mask)
  else if x.base = Reg.KLN_LOAD_DATA then s.loadData x.m (x.data &&& x.mask)
  else if x.base = Reg.KLN_SWAP then
    if x.acts 31 then
      match x.due with
      | some _ => s.swapRequest (x.data.toNat % 2)
      | none => { s with kiln.swapsNow := s.kiln.swapsNow ++ [x.data.toNat % 2] }
    else s
  else s.store x x.new

/-- AFE_CH_CFG (R132, R136, R151, R213, R242). -/
def State.wrAfeCfg (s : State) (x : Wr) : State :=
  let c := x.inst
  let r := s.checkCfg c x.old x.new
  let s := if r.2 then s.emit .AFE_CFG_BAD (objChannel c) [(x.addr : Int)] else s
  if r.1.getLsbD 15 && !x.old.getLsbD 15 && s.rate % max 1 (s.f (F.AFE_CH_CODE_CODE_TICKS c)) != 0 then
    s.emit .CHR_CFG_BAD (objChannel c) [(x.addr : Int)]
  else if r.1.getLsbD 15 != x.old.getLsbD 15 then s.storeEnv x r.1 [c]
  else s.store x r.1

/-- A checked word is stored; what the check discards records AFE_CFG_BAD with channel or driver `obj` (R132). -/
def State.wrAfe (s : State) (x : Wr) : State :=
  let c := x.inst
  let put (obj : Nat) (r : Word × Bool) : State :=
    (if r.2 then s.emit .AFE_CFG_BAD obj [(x.addr : Int)] else s).store x r.1
  if x.base = Reg.AFE_CH_CFG 0 then s.wrAfeCfg x
  else if x.base = Reg.AFE_CH_LIN 0 then put (objChannel c) (s.checkLin c x.old x.new)
  else if x.base = Reg.AFE_CH_AE 0 then put (objChannel c) (checkAe c x.old x.new)
  else if x.base = Reg.AFE_CH_CODE 0 then
    let r := s.checkCode c x.old x.new
    (if r.2 then s.emit .AFE_CFG_BAD (objChannel c) [(x.addr : Int)] else s).storeEnv x r.1 (if s.coded false c then [c] else [])
  else if x.base = Reg.AFE_EX_CTRL 0 then put (objUnit c) (checkEx c x.old x.new)
  else if x.base = Reg.AFE_UT_CTRL then
    match x.due with
    | some d => s.utSelect x.m d (x.new.getLsbD 31)
    | none => if x.new = x.old then s
      else if s.utValid (b2n (x.new.getLsbD 31)) then s.store x x.new else s.emit .UT_BAD 0 [(b2n (x.new.getLsbD 31) : Nat)]
  else if (x.base = Reg.AFE_UT_X0 0 ∨ x.base = Reg.AFE_UT_Y0 0) ∧ s.ef F.AFE_UT_CTRL_SEL = 0 then s.emit .UT_ACTIVE 0 [(x.addr : Int)]
  else if (x.base = Reg.AFE_UT_X1 0 ∨ x.base = Reg.AFE_UT_Y1 0) ∧ s.ef F.AFE_UT_CTRL_SEL = 1 then s.emit .UT_ACTIVE 0 [(x.addr : Int)]
  else s.store x x.new

/-- A scan setting of duty `d` (R124, R164). -/
def State.wrScan (s : State) (x : Wr) (d : Nat) : State :=
  if !scanValid x.new then
    s.emit .CNV_SCAN_BAD (objUnit (d / 2)) [((d % 2 : Nat) : Int), (x.new.toNat : Int)]
  else s.storeEnv x x.new ((List.range 4).map (4 * d + ·))

def State.wrCnv (s : State) (x : Wr) : State :=
  if x.base = Reg.CNV_SCAN_A 0 then s.wrScan x (2 * x.inst)
  else if x.base = Reg.CNV_SCAN_B 0 then s.wrScan x (2 * x.inst + 1)
  else if x.base = Reg.CNV_VISIT 0 then s.visitWrite x.inst (x.data &&& x.mask)
  else s.store x x.new

/-- Calibration (R189, R198, R210): a remote slot without a channel discards writes. -/
def State.wrCal (s : State) (x : Wr) : State :=
  let t := x.inst
  let ref (vfs vmid : Nat) : State :=
    if refValid vfs vmid then s.store x x.new else s.emit .CAL_REF_BAD (objUnit t) [(x.addr : Int)]
  if x.base = Reg.CAL_REF_VFS 0 then ref (fw x.new (F.CAL_REF_VFS_VFS t)) (s.f (F.CAL_REF_VMID_VMID t))
  else if x.base = Reg.CAL_REF_VMID 0 then ref (s.f (F.CAL_REF_VFS_VFS t)) (fw x.new (F.CAL_REF_VMID_VMID t))
  else if x.base = Reg.CAL_SYS_CMD then s.calCmd x.due.isNone (x.data &&& x.mask)
  else if Reg.CAL_CH_CTRL 0 ≤ x.base ∧ 96 ≤ t ∧ (s.remoteCh t).isNone then s
  else if x.base = Reg.CAL_CH_CTRL 0 then
    let s := s.store x x.new
    if x.acts 30 then s.calLoad t (if x.due.isNone then s.tick.num else s.loadTick) else s
  else s.store x x.new

/-- A detector is enabled on channel `c`. -/
def State.detected (s : State) (c : Nat) : Bool :=
  (List.range 512).any fun d => (s.rd (Reg.CHR_DET_CFG d)).getLsbD 31 && fieldOf (s.rd (Reg.CHR_DET_CFG d)) 12 0 == c

/-- The settings of a Charcoal path (R228, R238, R242); they are judged valid where they take effect (R213). -/
def State.wrPath (s : State) (x : Wr) : State :=
  let c := x.inst
  let s' := s.wr x.addr x.new
  let on (s : State) := (s.chrSet false c).en && (s.chrSet false c).out
  if on s && !on s' && s.detected c then s.emit .CHR_CFG_BAD (objChannel c) [(x.addr : Int)]
  else if 1048576 < s'.delayUsed then s.emit .CHR_DELAY_FULL (objChannel c) []
  else s.storeEnv x x.new [c]

/-- The routed detectors would make more than 1,000,000 words/s (R239). -/
def State.detFull (s : State) (x : Wr) : Bool :=
  let n := (s.wr x.addr x.new).detRate
  decide (1000000 < n) && decide (s.detRate < n)

/-- A detector's settings (R238, R239, R242). -/
def State.wrDet (s : State) (x : Wr) : State :=
  let d := x.inst
  let c := fieldOf x.new 12 0
  if x.base = Reg.CHR_DET_CFG 0 ∧ x.new.getLsbD 31 ∧ !((s.chrSet false c).en && (s.chrSet false c).out) then
    s.emit .CHR_CFG_BAD (objChannel c) [(x.addr : Int)]
  else if s.detFull x then s.emit .CHR_DET_RATE (objUnit d) []
  else if x.base = Reg.CHR_DET_CFG 0 ∧ x.new.getLsbD 31 then s.storeEnv x x.new [c]
  else s.store x x.new

def State.wrChr (s : State) (x : Wr) : State :=
  if x.base = Reg.CHR_BANK_CTRL then s.chrCtrl (x.data &&& x.mask)
  else if x.base = Reg.CHR_SWAP then
    if x.acts 31 then
      match x.due with
      | some _ => s.chrSwapRequest (x.data.toNat % 2)
      | none => { s with front.chrSwapsNow := s.front.chrSwapsNow ++ [x.data.toNat % 2] }
    else s
  else if x.base = Reg.CHR_CH_CFG 0 ∨ x.base = Reg.CHR_CH_RSMP 0 ∨ x.base = Reg.CHR_CH_DELAY 0 then s.wrPath x
  else if x.base = Reg.CHR_DET_CFG 0 ∨ x.base = Reg.CHR_DET_WIN 0 ∨ x.base = Reg.CHR_DET_ROUTE 0 then s.wrDet x
  else s.store x x.new

def State.wrFlk (s : State) (x : Wr) : State :=
  if x.base = Reg.FLK_CTRL 0 then s.laneCtrl x.inst (x.new ||| (x.data &&& x.mask &&& 0x20000000#32))
  else if x.base = Reg.FLK_TX_INIT 0 then s.laneTx x.inst x.new
  else s.store x x.new

def State.wrPtn (s : State) (x : Wr) : State :=
  if x.base = Reg.PTN_CTRL then (s.store x x.new).ptnCtrl
  else if x.base = Reg.PTN_TAKE then if x.acts 31 then s.ptnTake else s
  else if x.base = Reg.PTN_SLs_RATE 96 then s.slotSet x.m (96 + x.inst) false x.new
  else if x.base = Reg.PTN_SLs_NCFG 96 then s.slotSet x.m (96 + x.inst) true x.new
  else if x.base = Reg.PTN_SLs_RESCH 96 then
    let s := s.store x x.new
    s.wb (F.PTN_SLs_STAT_RESV (96 + x.inst)) (x.new.getLsbD 31)
  else s.store x x.new

/-- Network time (R309, R325). A port whose EN is cleared gives up its masters. -/
def State.wrPtp (s : State) (x : Wr) : State :=
  if x.base = Reg.PTP_CTRL then s.ptpCtrl x.new
  else if x.base = Reg.PTP_RESTEP_CMD then s.restepCmd (x.acts 31) (x.acts 30) (x.acts 29)
  else if s.restepArmed && decide (Reg.PTP_RESTEP_VAL_LO ≤ x.base) && decide (x.base ≤ Reg.PTP_RESTEP_TICK_HI) then s
  else if x.base = Reg.PTP_Un_CFG 0 then
    let u := x.inst
    let s := s.store x x.new
    if fw x.old (F.PTP_Un_CFG_EN u) = 1 ∧ fw x.new (F.PTP_Un_CFG_EN u) = 0 then
      (s.setPort u { s.port u with foreign := [], best := none, syncs := [], offs := [] }).select 5
    else (s.showPort 0).showPort 1
  else s.store x x.new

/-- The edge timer (R124, "Group registers"). -/
def State.wrEdg (s : State) (x : Wr) : State :=
  let e := x.inst
  if x.base = Reg.EDG_Ss_CFG 0 ∧ x.new.getLsbD 31 ∧ !x.old.getLsbD 31 ∧ (s.edgeRecord s.envBank e).isNone then
    s.emit .ENVELOPE_EXCEEDED (objUnit e) [(x.addr : Int), (x.m : Int)]
  else if (x.base = Reg.EDG_Gg_MEM0 0 ∨ x.base = Reg.EDG_Gg_MEM1 0) ∧ (wordBytes x.new).any fun b => decide (111 < b) && b != 0xFF then
    s.emit .EDG_CFG_BAD (objUnit e) [(x.addr : Int)]
  else s.store x x.new

/-- Kindling (R358, R359, R361, "Mask tests", R376). -/
def State.wrKnd (s : State) (x : Wr) : State :=
  let u := x.inst
  let inSet := x.base = Reg.KND_SET 0 0
  let inMask := x.base = Reg.KND_MKm_CFG 0 ∨ x.base = Reg.KND_MKm_STEP 0 ∨ x.base = Reg.KND_MKm_LO 0 0 ∨ x.base = Reg.KND_MKm_HI 0 0
  let mk := if x.base = Reg.KND_MKm_LO 0 0 ∨ x.base = Reg.KND_MKm_HI 0 0 then u / 4096 else u
  let trig := x.base = Reg.KND_TRu_CFG 0 ∨ x.base = Reg.KND_TRu_PRE 0 ∨ x.base = Reg.KND_TRu_POST 0
  let v := x.new.toNat
  if x.base = Reg.KND_TRu_CMD 0 then s.trigCmd x.m u (x.data &&& x.mask)
  else if x.base = Reg.KND_SK_CMD then s.skewCmd (x.data &&& x.mask)
  else if trig ∧ s.trigState u ≠ 0 then s.emit .KND_BUSY (objUnit u) [(x.addr : Int)]
  else if (x.base = Reg.KND_TRu_PRE 0 ∧ 1500000 < v) ∨ (x.base = Reg.KND_TRu_POST 0 ∧ (v = 0 ∨ 60000000 < v)) then
    s.emit .KND_CFG_BAD (objUnit u) [(x.addr : Int)]
  else if inSet ∧ s.setBusy (u / 256) then s.emit .KND_SET_BUSY (objUnit (u / 256)) []
  else if inMask ∧ s.maskBusy mk then s.emit .KND_MASK_BUSY (objUnit mk) []
  else s.store x x.new

/-- QMG_Qq_CFG (R383, R384). -/
def State.wrQueue (s : State) (x : Wr) : State :=
  let q := x.inst
  let cons := F.QMG_Qq_CFG_CONS q
  let en (w : Word) : Bool := fw w (F.QMG_Qq_CFG_EN q) == 1
  let move := fw x.new cons != fw x.old cons
  let s := if move && en x.old then s.emit .QMG_CFG_BUSY (objQueue q) []
    else if move && decide (10 ≤ fw x.new cons) then s.emit .QMG_CFG_BAD (objQueue q) [] else s
  let w := if move && (en x.old || decide (10 ≤ fw x.new cons)) then keepField x.new x.old cons else x.new
  (if en x.old && !en w then s.disableQueue q else s).wr x.addr w

def State.wrQmg (s : State) (x : Wr) : State :=
  let q := x.inst
  if x.base = Reg.QMG_Qq_CFG 0 then s.wrQueue x
  else if x.base = Reg.QMG_Qq_HI 0 ∧ x.new.toNat ≤ s.f (F.QMG_Qq_LO_LO q) then s.emit .QMG_CFG_BAD (objQueue q) []
  else if x.base = Reg.QMG_Qq_LO 0 ∧ s.f (F.QMG_Qq_HI_HI q) ≤ x.new.toNat then s.emit .QMG_CFG_BAD (objQueue q) []
  else if x.base = Reg.QMG_FLUSH then if x.acts 31 then s.flushQueue (fieldOf x.data 11 0) (x.acts 30) else s
  else if x.base = Reg.QMG_HWn_CFG 0 then s.winBind q (fw x.new (F.QMG_HWn_CFG_Q q)) (fw x.new (F.QMG_HWn_CFG_EN q) == 1)
  else if x.base = Reg.QMG_BL_HIST then s.histSet (fw x.new F.QMG_BL_HIST_HIST)
  else s.store x x.new

/-- The archive (R447, R449, R457, R459). -/
def State.wrCrd (s : State) (x : Wr) : State :=
  if x.base = Reg.CRD_CTRL then (s.store x x.new).showCord
  else if x.base = Reg.CRD_EXT_CMD then s.extCmd (x.data &&& x.mask)
  else if x.base = Reg.CRD_PIN_CMD then if x.acts 31 then s.releasePin (fieldOf x.data 7 0) else s
  else if x.base = Reg.CRD_JOB_CTRL then
    if x.acts 31 then s.jobGo x.m (fieldOf x.data 30 29) (x.data.getLsbD 28) (fieldOf x.data 11 0) else s
  else if (x.base = Reg.CRD_GAPQ ∨ x.base = Reg.CRD_EVQ) ∧ x.new.getLsbD 31 ∧ s.consumer (fieldOf x.new 11 0) ≠ 5 then
    s.emit .CRD_CFG_BAD 0 [(x.addr : Int)]
  else s.store x x.new

/-- The uplinks (R460, R464, R466, R469). -/
def State.wrUpl (s : State) (x : Wr) : State :=
  if x.base = Reg.UPL_CTRL then
    let t := (s.store x x.new).showUplinks
    if x.new.getLsbD 31 && (x.old &&& 0xC0000000#32) != (x.new &&& 0xC0000000#32) then t.groupJoin else t
  else if x.base = Reg.UPL_KND_IP4 ∨ x.base = Reg.UPL_KND_IP6 0 then (s.store x x.new).groupJoin
  else if x.base = Reg.UPL_Un_CFG 0 then s.portCfg x.inst x.new
  else if x.base = Reg.UPL_STREAM 0 then
    if x.port then (s.streamPort x.inst x.new x.m).2 else s.streamWrite x.inst x.new x.m
  else if x.base = Reg.UPL_GAPQ ∨ x.base = Reg.UPL_EVQ ∨ x.base = Reg.UPL_LRPTQ then s.uplinkQueue x.addr x.new x.m
  else if x.base = Reg.UPL_LCH_CMD then s.launchCmd x.m (x.data &&& x.mask)
  else s.store x x.new

/-- The pins whose owner in force is `o`, as bits (R489). -/
def State.ownedPins (s : State) (o : Nat) : Nat :=
  (List.range 32).foldl (fun a n => if s.ef (F.GPIO_PINn_CFG_OWNER n) = o then a + 2 ^ n else a) 0

/-- The general-purpose pins (R489): only the owner's writes reach a pin's OUT bit; GPIO_OUT_SET and GPIO_OUT_CLR act on GPIO_OUT. -/
def State.wrGpio (s : State) (x : Wr) : State :=
  let own := BitVec.ofNat 32 (s.ownedPins (if x.port then 1 else 0))
  let out := s.rd Reg.GPIO_OUT
  let bits := x.data &&& x.mask &&& own
  if x.base = Reg.GPIO_OUT then s.wr Reg.GPIO_OUT (merge out x.data (x.mask &&& own))
  else if x.base = Reg.GPIO_OUT_SET then s.wr Reg.GPIO_OUT (out ||| bits)
  else if x.base = Reg.GPIO_OUT_CLR then s.wr Reg.GPIO_OUT (out &&& ~~~bits)
  else s.store x x.new

/-- A write whose fields have passed the access codes, at its block. -/
def State.wrBlock (s : State) (x : Wr) : State :=
  match blockOf x.base with
  | 0x01 => if x.base = Reg.UMB_MBOX_CTRL then if x.acts 31 then s.submit x.m (fieldOf x.data 13 0) else s else s.store x x.new
  | 0x03 => s.wrKln x
  | 0x04 => s.wrAfe x
  | 0x05 => s.wrCnv x
  | 0x06 => s.wrCal x
  | 0x07 => s.wrChr x
  | 0x08 => s.wrFlk x
  | 0x09 => s.wrPtn x
  | 0x0A => s.wrPtp x
  | 0x0B => s.wrEdg x
  | 0x0C => s.wrKnd x
  | 0x0D => s.wrQmg x
  | 0x0E => if x.base = Reg.ARB_RQr_CFG 0 ∧ x.inst < 3 then s else s.store x x.new
  | 0x0F => if x.base = Reg.PRS_Qq_CFG 0 then s.pressCfg x.inst false x.new
            else if x.base = Reg.PRS_Qq_OUT 0 then s.pressCfg x.inst true x.new
            else s.store x x.new
  | 0x10 => s.wrCrd x
  | 0x11 => s.wrUpl x
  | 0x12 => s.wrGpio x
  | 0x14 => if x.base = Reg.RST_REQ then s.rstReq (x.data &&& x.mask) else s.store x x.new
  | _ => s.store x x.new

/-! ### Windows and the map (R63, R114, R220, R537 to R539, R543) -/

/-- A reserved range of the map (R537). -/
def reserved (a : Nat) : Bool :=
  (decide (0x30000 ≤ a) && decide (a < 0x100000)) || (decide (0x280000 ≤ a) && decide (a < 0x400000))
    || (decide (0x440000 ≤ a) && decide (a < 0x500000)) || decide (0x1500000 ≤ a)

/-- A host may reach the address: in the STK block it has STK_STAT alone (R543). -/
def stkDenied (m a : Nat) : Bool := decide (0x20000 < a) && decide (a < 0x30000) && m != 3

/-- An access to a reserved address (R538): the error registers, and BUS_ADDR at most once for each master and tick. -/
def State.busError (s : State) (m a : Nat) (write : Bool) : State :=
  let s := (s.wr Reg.HUB_BUS_ERR_ADDR (BitVec.ofNat 32 a)).wr Reg.HUB_BUS_ERR_INFO (BitVec.ofNat 32 (b2n write * 2 ^ 31 + m))
  if tabGet (fun _ => 0) s.hub.busErrTick m = s.tick.num + 1 then s
  else { s with hub.busErrTick := tabSet (fun _ => 0) s.hub.busErrTick m (s.tick.num + 1) }.emitFrom .BUS_ADDR 0 (objMaster m)
    [(a : Int), (b2n write : Int)]

/-- The UMB block does not answer: Umber is in reset (R536). UMB_ABSENT is recorded once for each reset of Umber. -/
def State.umbAbsent (s : State) : State :=
  if s.umb.absentNoted then s else { s with umb.absentNoted := true }.emit .UMB_ABSENT 0 []

/-- A write in a window of the register space, or to an address without a register (R539). -/
def State.wrWindow (s : State) (m a : Nat) (data mask : Word) : State :=
  if 0x140000 ≤ a ∧ a < 0x180000 then
    let i := (a - 0x140000) / 4
    s.tramWrite i (merge (s.rd (tramAddr i)) data mask)
  else if 0x200000 ≤ a ∧ a < 0x280000 then s.emit .BANK_WRITE (objMaster m) []
  else if 0x780000 ≤ a ∧ a < 0x798000 then s.chrBankWrite 0 ((a - 0x780000) / 4) (merge (s.rd a) data mask) m
  else if 0x7A0000 ≤ a ∧ a < 0x7B8000 then s.chrBankWrite 1 ((a - 0x7A0000) / 4) (merge (s.rd a) data mask) m
  else if 0x18000 ≤ a ∧ a < 0x1C000 then s.wr a (merge (s.rd a) data mask)
  else s

/-- The hub is held in reset, and the register bus beyond Umber's own block with it (R496, R509). -/
def State.busDown (s : State) (a : Nat) : Bool := (s.umb.thermal || s.umb.held) && !(decide (0x10000 ≤ a) && decide (a < 0x20000))

/-- A word is written to address `a` by master `m` under a mask; `due` is the boundary that a waiting setting reaches, none for a timed
write. -/
def State.busWrite (s : State) (m a : Nat) (data mask : Word) (due : Option Nat) : State :=
  if a % 4 ≠ 0 ∨ s.busDown a then s
  else if reserved a || stkDenied m a then s.busError m a true
  else if s.umb.down && decide (0x10000 ≤ a) && decide (a < 0x20000) then s.umbAbsent
  else match rowOf a with
    | none => s.wrWindow m a data mask
    | some (r, i) =>
      let addr := if isPrivate r.base then priv m a else a
      let old := s.rd addr
      let s := if hitsFence r old data mask then s.emitFrom .FENCE_WRITE (blockOf a) 0 [(a : Int), (m : Int)]
        else if s.hitsLock r old data mask then s.emitFrom .ACCESS_LOCKED (blockOf a) 0 [(a : Int), (m : Int)] else s
      s.wrBlock { m := m, addr := addr, base := r.base, inst := i, old := old, data := data, mask := mask,
                  new := s.accWord r old data mask, set := mask &&& BitVec.ofNat 32 (r.rw ||| r.rwl), due := due }

/-- A write over the register bus now. -/
def State.hostWrite (s : State) (m a : Nat) (data : Word) : State := s.busWrite m a data 0xFFFFFFFF#32 (some s.nextDue)

def execRegisterWrite (m : Master) (addr : Nat) (data : Word) (s : State) : Ans := .next (s.hostWrite (masterCode m) addr data)

/-- An access to an address of a reserved range (R538); an address that is not reserved is not this command's. -/
def execBusAddrAccess (m : Master) (addr : Nat) (write : Bool) (s : State) : Ans :=
  .next (if addr % 4 = 0 ∧ !s.busDown addr ∧ (reserved addr || stkDenied (masterCode m) addr) then
    { s.busError (masterCode m) addr write with hub.rdata := if write then s.hub.rdata else 0#32 } else s)

end Sys2Proof.Machine
end

