-- ==== Sys2Proof/Machine/BusRead.lean ====
section
/-!
DEFINITION. Register reads (R66, R114, R389, R536 to R543, R551): the registers that show a live value, the reads that have an effect, the
windows, and the pins.
-/
namespace Sys2Proof.Machine

open Sys2Proof

/-! ### Pins (R489 to R491) -/

/-- The pins that are forced to their safe state, as bits (R491). -/
def State.safePins (s : State) : Nat :=
  if !s.hub.stokerRan then 0xFFFFFFFF
  else if s.f F.STK_STAT_STATE = 0 then s.ownedPins 0
  else 0

/-- The level that the hub drives on pin `n`; none while the pin is at high impedance. -/
def State.pinLevel (s : State) (n : Nat) : Option Bool :=
  if bitOf s.safePins n then
    if (s.rd Reg.FNC_GP_Z).getLsbD n then none else some ((s.rd Reg.FNC_GP_LVL).getLsbD n)
  else if !s.eflag (F.GPIO_PINn_CFG_DIR n) then none
  else
    let out := (s.rd Reg.GPIO_OUT).getLsbD n
    if s.eflag (F.GPIO_PINn_CFG_OD n) && out then none else some out

/-- GPIO_IN: the level of each pin; what stands outside on a pin that the hub does not drive is a free value. -/
def State.pinsIn (s : State) : Word × State :=
  let ext := Config.freeWord s.hub.freeCtr
  let v := (List.range 32).foldl (fun a n =>
    let b := match s.pinLevel n with | some x => x | none => ext.getLsbD n
    if b then a + 2 ^ n else a) 0
  (BitVec.ofNat 32 v, { s with hub.freeCtr := s.hub.freeCtr + 1 })

/-! ### Interrupts (R551) -/

/-- HUB_INT_RAW: the latches as they stand and the levels. -/
def State.intRaw (s : State) : Word :=
  let lvl (i : Nat) (b : Bool) : Nat := if b then 2 ^ i else 0
  let st := s.rd Reg.CLK_STAT
  let levels :=
    lvl 2 ((List.range 128).any fun i => s.rd (Reg.QMG_DEEP_MAP i) != 0#32)
    + lvl 3 (s.rd Reg.ARB_STARVE &&& s.rd Reg.ARB_STARVE_EN != 0#32)
    + lvl 4 (s.f F.PTP_SERVO_STAT_STATE == 4) + lvl 5 (s.f F.PTP_SERVO_STAT_STATE == 3)
    + lvl 6 (s.flag F.CRD_CTRL_EN && !s.flag F.CRD_STAT_HEALTHY) + lvl 7 (s.flag F.UPL_CTRL_EN && !s.flag F.UPL_HEALTH_HEALTHY)
    + lvl 14 (s.f F.FNC_HIT_HIT != 0)
    + lvl 15 (s.umb.sens.any fun e => match e.2 with | some x => x.bad | none => false)
    + lvl 16 ((List.range 4).any s.tileDownNow) + lvl 22 (s.flag F.QMG_BL_STAT_FULL)
    + lvl 23 (!(st.getLsbD 31 && st.getLsbD 30 && st.getLsbD 29))
  (s.rd Reg.HUB_INT_RAW &&& 0x003E3F03#32) ||| BitVec.ofNat 32 levels

/-- HUB_INT_SUM. -/
def State.intSum (s : State) : Word := s.intRaw &&& s.rd Reg.HUB_INT_EN

/-! ### Live values -/

/-- The running settings fit the envelope of the inactive bank, which is READY (R129). -/
def State.envFit (s : State) : Bool :=
  let b := if s.bankValid then 1 - s.activeBank else if s.bankState 0 = 3 then 0 else 1
  s.bankState b == 3 && s.envFits b

/-- Seconds since the servo last entered LOCKED. -/
def State.lockSeconds (s : State) : Nat := min 65535 ((s.tick.clock - s.ptp.lockAt) / secUnits)

/-- What the register of row base `b`, instance `i`, shows when `w` stands at its address: derived fields are computed, the others read as
stored. -/
def State.live (s : State) (b i : Nat) (w : Word) : Word :=
  if b = Reg.KLN_TICK_LO then BitVec.ofNat 32 s.tick.num
  else if b = Reg.KLN_TICK_CYC then BitVec.ofNat 32 s.tick.cyc
  else if b = Reg.KLN_SCHED_RESULT then setField w 26 16 (1024 - s.ordinary.length)
  else if b = Reg.KLN_BANK_STAT then setField w 8 8 (b2n s.envFit)
  else if b = Reg.HUB_INT_RAW then s.intRaw
  else if b = Reg.HUB_INT_SUM then s.intSum
  else if b = Reg.CNV_Pp_EST 0 0 then setField w 30 30 (b2n (s.estRuns i))
  else if b = Reg.QMG_HWn_STAT 0 then s.winStat i
  else if b = Reg.CHR_LOAD then BitVec.ofNat 32 s.chrLoad
  else if b = Reg.CHR_DELAY_USED then BitVec.ofNat 32 s.delayUsed
  else if b = Reg.CHR_DET_RATE_USED then BitVec.ofNat 32 (min 1048575 s.detRate)
  else if b = Reg.FLK_HOLD 0 then BitVec.ofNat 32 (min 0xFFFFFF (s.holdLeft i))
  else if b = Reg.PTP_SERVO_STAT then setField w 15 0 (if s.servo = 2 then s.lockSeconds else fieldOf w 15 0)
  else if b = Reg.PTP_NOW_SEC_LO then BitVec.ofNat 32 (s.tick.clock / secUnits)
  else if b = Reg.EDG_RATE then BitVec.ofNat 32 s.edgRate
  else if b = Reg.GPIO_OUT_SET ∨ b = Reg.GPIO_OUT_CLR then s.rd Reg.GPIO_OUT
  else if b = Reg.GPIO_SAFE_ACT then BitVec.ofNat 32 s.safePins
  else w

/-- A read of this row has an effect beside the value it returns (R389, R502, R541). -/
def readActs (b : Nat) : Bool :=
  b == Reg.KLN_TICK_LO || b == Reg.PTP_NOW_SEC_LO || b == Reg.QMG_HWn_DATA 0 || b == Reg.UMB_MBOX_STAT

/-- Master `m`'s read latches the upper parts of a count into its own copy (R541). -/
def State.latchTick (s : State) (m : Nat) : State := s.wr (priv m Reg.KLN_TICK_HI) (BitVec.ofNat 32 (s.tick.num / 2 ^ 32))
def State.latchNow (s : State) (m : Nat) : State :=
  let c := s.tick.clock
  ((s.wr (priv m Reg.PTP_NOW_SEC_HI) (BitVec.ofNat 32 (c / secUnits / 2 ^ 32 % 65536))).wr (priv m Reg.PTP_NOW_NS)
    (BitVec.ofNat 32 (c % secUnits / 65536))).wr (priv m Reg.PTP_NOW_FRAC) (BitVec.ofNat 32 (c % 65536))

/-- A register-bus read of tick RAM word `i` (R66). -/
def State.tramBusRead (s : State) (m i : Nat) : Word × State :=
  let r := s.tramRead i
  let s := s.tramCount i
  (r.1, if r.2 then s.emit .KLN_TRAM_ECC 0 [(i : Int), (m : Int)] else s)

/-- A read in a window of the register space, or of an address without a register (R539, R547). -/
def State.rdWindow (s : State) (m a : Nat) : Word × State :=
  if 0x8000 ≤ a ∧ a < 0x10000 then (Config.dictionary ((a - 0x8000) / 4), s)
  else if 0x140000 ≤ a ∧ a < 0x180000 then s.tramBusRead m ((a - 0x140000) / 4)
  else if 0x180000 ≤ a ∧ a < 0x1C0000 then ((s.bank ((a - 0x180000) / 0x20000)).demandWords.getD ((a - 0x180000) % 0x20000 / 4) 0#32, s)
  else if 0x200000 ≤ a ∧ a < 0x280000 then (s.bankWord ((a - 0x200000) / 0x40000) ((a - 0x200000) % 0x40000 / 4), s)
  else (s.rd a, s)

/-- CLK_REF_PPM: the frequency error of REFCLK, as Umber has measured it, is a free value. -/
def State.refPpm (s : State) : Word × State :=
  let r := s.free
  (BitVec.ofNat 32 (bitsOf 16 r.1), r.2)

/-- Master `m` reads the word at address `a`. -/
def State.busRead (s : State) (m a : Nat) : Word × State :=
  if s.busDown a then (0#32, s)
  else if reserved a || stkDenied m a then (0#32, s.busError m a false)
  else if s.umb.down && decide (0x10000 ≤ a) && decide (a < 0x20000) then (0#32, s.umbAbsent)
  else match rowOf a with
    | none => s.rdWindow m a
    | some (r, i) =>
      let w := s.live r.base i (s.rd (if isPrivate r.base then priv m a else a))
      if r.base = Reg.KLN_TICK_LO then (w, s.latchTick m)
      else if r.base = Reg.PTP_NOW_SEC_LO then (w, s.latchNow m)
      else if r.base = Reg.QMG_HWn_DATA 0 then s.winRead i
      else if r.base = Reg.UMB_MBOX_STAT then s.mboxRead m
      else if r.base = Reg.GPIO_IN then s.pinsIn
      else if r.base = Reg.CLK_REF_PPM then s.refPpm
      else (w, s)

/-- A read over the register bus: what it returns is the last word read. -/
def State.hostRead (s : State) (m a : Nat) : State :=
  let r := s.busRead m a
  { r.2 with hub.rdata := r.1 }

def execTickLoRead (m : Master) (now : Bool) (s : State) : Ans :=
  .next (s.hostRead (masterCode m) (if now then Reg.PTP_NOW_SEC_LO else Reg.KLN_TICK_LO))

/-- The ECC of tick RAM word `i` shows what `e` says: an error stays with the word until it is written (R66). -/
def State.tramUpset (s : State) (i : Nat) (e : Ecc) : State :=
  match e with
  | .clean => s
  | .single => { s with kiln.tramSingle := if s.kiln.tramSingle.contains i then s.kiln.tramSingle else i :: s.kiln.tramSingle }
  | .double => { s with kiln.tramDouble := if s.kiln.tramDouble.contains i then s.kiln.tramDouble else i :: s.kiln.tramDouble }

def execTramBusRead (m : Master) (w : TramWord) (s : State) : Ans :=
  .next ((s.tramUpset w.index w.ecc).hostRead (masterCode m) (tramAddr w.index))

end Sys2Proof.Machine
end

