-- ==== Sys2Proof/Machine/KilnPosted.lean ====
section
/-!
DEFINITION. The Kiln instructions that act outside their hearth (R71 to R75, R97 to R106): the posted buffer and its drain, what each
entry does, the reads that wait for it, and the pin changes of a tick.
-/
namespace Sys2Proof.Machine

open Sys2Proof

/-! ### Helper ports (R71, R106) -/

/-- Base address and last byte offset of the block on a helper port. -/
def portBlock (p : Nat) : Nat × Nat :=
  match p with
  | 0 => (0x400000, 0x3FFFF)
  | 1 => (0x500000, 0xFFFFF)
  | 2 => (0x700000, 0xFFFFF)
  | 3 => (0xB00000, 0xFFFFF)
  | 4 => (0xC00000, 0xFFFFF)
  | 5 => (0xD00000, 0xFFFFF)
  | 6 => (0xF00000, 0xFFFFF)
  | 7 => (0x1100000, 0xFFFFF)
  | 8 => (0x1200000, 0xFFFFF)
  | _ => (0x900000, 0xFFFFF)

/-- The fault code of a byte offset on a port: 0x04 beyond the span, 0x05 not a multiple of 4. -/
def portFault (p a : Nat) : Option Nat :=
  if (portBlock p).2 < a then some 0x04 else if a % 4 ≠ 0 then some 0x05 else none

/-- A port write is discarded under R8, or names a field that the block withholds from Kiln (PORT_ACCESS). -/
def State.portWithheld (s : State) (h a : Nat) (data : Word) : Bool :=
  match rowOf a with
  | none => false
  | some (r, i) =>
    let old := s.rd (if isPrivate r.base then priv (5 + h) a else a)
    s.hitsLock r old data 0xFFFFFFFF#32 || hitsFence r old data 0xFFFFFFFF#32
      || (r.base == Reg.UPL_STREAM 0 && (s.streamPort i (s.accWord r old data 0xFFFFFFFF#32) (5 + h)).1)

/-- A port write drains (R71). -/
def State.portWrite (s : State) (h pc p off : Nat) (data : Word) : State :=
  match portFault p off with
  | some c => s.faultAt h c pc
  | none =>
    let a := (portBlock p).1 + off
    let bad := s.portWithheld h a data
    let s := s.busWrite (5 + h) a data 0xFFFFFFFF#32 (some s.nextDue)
    if bad then s.faultAt h 0x0E pc else s

/-! ### Queues and triggers (R97 to R102) -/

/-- A `route` entry drains. -/
def State.postRoute (s : State) (h pc : Nat) (c q : Word) : State :=
  if 4191 < c.toNat then s.faultAt h 0x06 pc
  else if 4095 < q.toNat ∧ q ≠ noRoute then s.faultAt h 0x07 pc
  else { s with kiln.shadow := tabSet (fun _ => noRoute) s.kiln.shadow c.toNat q }

/-- The open packets of hearth `h`. -/
def State.hearthOpens (s : State) (h : Nat) : Nat :=
  (s.qmg.queues.map fun (e : Nat × Option Queue) => match e.2 with
    | some x => (x.opens.filter fun (o : OpenPkt) => o.prod == .hearth h && !o.dropping).length
    | none => 0).sum

/-- An `enq` entry drains (R99, R100). The words of a packet that would be the ninth are discarded up to its last. -/
def State.postEnq (s : State) (h pc : Nat) (q v : Word) (eop : Bool) : State :=
  if 4095 < q.toNat then s.faultAt h 0x07 pc
  else
    let p := Producer.hearth h
    let x := s.queue q.toNat
    if (x.pkt p).isNone ∧ 8 ≤ s.hearthOpens h then
      let s := if eop then s else
        s.setQueue q.toNat (x.setPkt p (some { prod := p, words := [], ranges := [], banks := [], marked := false, dropping := true }))
      s.faultAt h 0x08 pc
    else
      let r := s.putWord p q.toNat v eop
      if r.1 then r.2 else r.2.faultAt h 0x08 pc

/-- The fire time of a `fire` entry (R102); none beyond the count. -/
def State.fireTime (s : State) (c i : Nat) (mode : FireMode) : Option Nat :=
  match mode with
  | .stagingEntry => ((s.viewOf .staging c)[i]?).map (·.inst)
  | .outputWord => ((s.viewOf .output c)[i]?).map (·.inst)
  | .boundaryPlus => some (boundaryClock s.rate (s.tick.num - 1) + i * 65536)

/-- A `fire` entry drains. -/
def State.postFire (s : State) (h pc : Nat) (u c i : Word) (mode : FireMode) : State :=
  if mode ≠ .boundaryPlus ∧ 4191 < c.toNat then s.faultAt h 0x06 pc
  else if 63 < u.toNat then s.faultAt h 0x09 pc
  else match s.fireTime c.toNat i.toNat mode with
    | some t => s.fire u.toNat t .kiln none
    | none => s

/-! ### Pins, board SPI and signals (R103 to R105, R487) -/

/-- A `pins` entry drains. -/
def State.postPins (s : State) (h pc : Nat) (m v o : Word) : State :=
  if s.cycles ≤ o.toNat then s.faultAt h 0x0A pc
  else if 16 ≤ s.kiln.pinsNext.length then s.faultAt h 0x0B pc
  else { s with kiln.pinsNext := s.kiln.pinsNext ++ [{ mask := m, value := v, cyc := o.toNat }] }

/-- Bytes that a descriptor's word 1 clocks (R487). -/
def spimLen (w1 : Word) : Nat := max 1 (fieldOf w1 10 0)

/-- Hearth `h` reaches the words from `i` on that hold `n` bytes. -/
def spimReach (h i n : Nat) : Bool := (List.range ((n + 3) / 4)).all fun k => tramReach h (i + k)

/-- The transactions of master `m` taken for the next tick (R104). -/
def State.spimTaken (s : State) (m : Nat) : Nat :=
  ((tabGet (fun _ => []) s.spi.queue m).filter fun (x : SpimTx) => x.tick.isNone).length

/-- Transactions taken in the tick before run from tick `t` on (R104). -/
def State.spimTick (s : State) (t : Nat) : State :=
  { s with spi.queue := s.spi.queue.map fun (e : Nat × List SpimTx) =>
      (e.1, e.2.map fun (x : SpimTx) => { x with tick := some (x.tick.getD t) }) }

/-- Master `m` refuses the transaction: EN is 0, or its select is not the master's (R487). -/
def State.spimRefuses (s : State) (m : Nat) (w1 : Word) : Bool :=
  !s.flag (F.SPIM_m_CTRL_EN m) || (!w1.getLsbD 17 && s.ef (F.GPIO_PINn_CFG_OWNER (fieldOf w1 15 11)) != 2 + m)

/-- A `spix` entry drains: TRAM_RANGE, then the master's refusal, then SPI_BUSY. -/
def State.postSpix (s : State) (h pc : Nat) (d : Word) (m : Nat) : State :=
  let k := d.toNat
  if !(tramReach h k && tramReach h (k + 5)) then s.faultAt h 0x01 pc
  else
    let s := forNat 4 (fun s i => s.tramCount (k + i)) s
    let w (i : Nat) : Word := (s.tramRead (k + i)).1
    let w1 := w 1
    let w2 := w 2
    let w3 := w 3
    let n := spimLen w1
    let tx := w3.getLsbD 30 || spimReach h (fieldOf w2 15 0) n
    let rx := !w3.getLsbD 31 || spimReach h (fieldOf w2 31 16) n
    if !(tx && rx) then s.faultAt h 0x01 pc
    else if s.spimRefuses m w1 then (s.bump (F.SPIM_m_STAT_REFUSED m) 1).tramWrite (k + 4) 0x20000000#32
    else if 4 ≤ s.spimTaken m then s.faultAt h 0x0C pc
    else
      let x : SpimTx := { hearth := h, kd := k, w0 := w 0, w1 := w1, w2 := w2, w3 := w3, tick := none }
      { s with spi.queue := tabSet (fun _ => []) s.spi.queue m (tabGet (fun _ => []) s.spi.queue m ++ [x]) }

/-- A `sig` entry drains (R105). -/
def State.postSig (s : State) (h pc imm : Nat) : State :=
  if (s.hearth h).signalled then s.faultAt h 0x0D pc
  else (s.setHearth h { s.hearth h with signalled := true }).emit .KILN_SIGNAL (objUnit h) [(pc : Int), (imm : Int)]

/-! ### The posted buffer (R72, R73) -/

/-- An entry of hearth `h` takes effect. -/
def State.postedAct (s : State) (h : Nat) (e : PostedEntry) : State :=
  match e.op with
  | .hpw a p d => s.portWrite h e.pc p a d
  | .route c q => s.postRoute h e.pc c q
  | .enq q v eop => s.postEnq h e.pc q v eop
  | .fire u c i m => s.postFire h e.pc u c i m
  | .pins m v o => s.postPins h e.pc m v o
  | .spix d m => s.postSpix h e.pc d m
  | .sig imm => s.postSig h e.pc imm

/-- The oldest entry of hearth `h` drains. -/
def State.drainOne (s : State) (h : Nat) : State :=
  match (s.hearth h).posted with
  | [] => s
  | e :: r => (s.setHearth h { s.hearth h with posted := r }).postedAct h e

/-- The instruction waits a cycle: it stands at its word, to be issued again (R72, R75). -/
def Hearth.stall (x : Hearth) : Hearth := { x with cyc := x.cyc + 1 }

/-- A posted instruction (R72): it issues in one cycle; with a full buffer it waits until a slot has freed an entry. -/
def State.post (s : State) (h : Nat) (p : Pred) (op : Hearth → Posted) : State :=
  let x := s.hearth h
  if !x.running then s
  else if !x.holds p then s.setHearth h (x.next 1)
  else if 16 ≤ x.posted.length then s.setHearth h x.stall
  else
    let y : Hearth := { x with posted := x.posted ++ [{ pc := x.pc, op := op x }] }
    s.setHearth h (y.next 1)

/-- `hpr` and `qdep` (R75): they wait until the slots have emptied the hearth's buffer; then they read, and take 12 cycles. -/
def State.readOut (s : State) (h : Nat) (p : Pred) (f : State → Hearth → State × Hearth) : State :=
  let x := s.hearth h
  if !x.running then s
  else if !x.holds p then s.setHearth h (x.next 1)
  else if !x.posted.isEmpty then s.setHearth h x.stall
  else
    let r := f s x
    r.1.setHearth h (r.2.next 12)

/-! ### The instructions -/

def execRoute (h : Fin 4) (p : Pred) (c q : Fin 32) (s : State) : Ans := .next (s.post h p fun x => .route (x.kr c) (x.kr q))

def execEnq (h : Fin 4) (p : Pred) (q v : Fin 32) (eop : Bool) (s : State) : Ans :=
  .next (s.post h p fun x => .enq (x.kr q) (x.kr v) eop)

def execFire (h : Fin 4) (p : Pred) (u c i : Fin 32) (mode : FireMode) (s : State) : Ans :=
  .next (s.post h p fun x => .fire (x.kr u) (x.kr c) (x.kr i) mode)

def execPins (h : Fin 4) (p : Pred) (m v o : Fin 32) (s : State) : Ans :=
  .next (s.post h p fun x => .pins (x.kr m) (x.kr v) (x.kr o))

def execSpix (h : Fin 4) (p : Pred) (k : Fin 32) (m : Fin 2) (s : State) : Ans := .next (s.post h p fun x => .spix (x.kr k) m)

def execSig (h : Fin 4) (p : Pred) (imm : BitVec 16) (s : State) : Ans := .next (s.post h p fun _ => .sig imm.toNat)

/-- The byte offset of `hpw` and `hpr`: Ks + 4 × OFF (R106). -/
def portOffset (x : Hearth) (s : Nat) (off : BitVec 8) : Nat := (x.kr s + BitVec.ofNat 32 (4 * off.toNat)).toNat

def execHpw (h : Fin 4) (p : Pred) (port : Fin 10) (k t : Fin 32) (off : BitVec 8) (s : State) : Ans :=
  .next (s.post h p fun x => .hpw (portOffset x k off) port (x.kr t))

def execHpr (h : Fin 4) (p : Pred) (d : Fin 32) (port : Fin 10) (k : Fin 32) (off : BitVec 8) (s : State) : Ans :=
  .next (s.readOut h p fun s x =>
    let o := portOffset x k off
    match portFault port o with
    | some c => faultNow s h c (x.kw d 0#32)
    | none =>
      let r := s.busRead (5 + h) ((portBlock port).1 + o)
      (r.2, x.kw d r.1))

def execQdep (h : Fin 4) (p : Pred) (d q : Fin 32) (s : State) : Ans :=
  .next (s.readOut h p fun s x =>
    let n := (x.kr q).toNat
    if 4095 < n then faultNow s h 0x07 (x.kw d 0#32)
    else (s, x.kw d (BitVec.ofNat 32 (s.queue n).depth)))

def execPostedDrain (h : Fin 4) (s : State) : Ans := .next (s.drainOne h)

/-! ### Pin changes (R42, R103) -/

/-- A change acts on the outputs that Kiln owns. -/
def State.pinChange (s : State) (c : PinChange) : State :=
  let dirs := (List.range 32).foldl (fun a n => if s.eflag (F.GPIO_PINn_CFG_DIR n) then a + 2 ^ n else a) 0
  let m := c.mask &&& BitVec.ofNat 32 (s.ownedPins 1) &&& BitVec.ofNat 32 dirs
  s.wr Reg.GPIO_OUT (merge (s.rd Reg.GPIO_OUT) c.value m)

/-- A change takes its place by its cycle, behind those that drained before it. -/
def pinInsert (c : PinChange) : List PinChange → List PinChange
  | [] => [c]
  | d :: r => if c.cyc < d.cyc then c :: d :: r else d :: pinInsert c r

/-- The changes of this tick, up to cycle `cyc`, take effect in the order of their cycles. -/
def State.pinsUpTo (s : State) (cyc : Nat) : State :=
  let due := (s.kiln.pinsNow.filter fun c => decide (c.cyc ≤ cyc)).foldl (fun l c => pinInsert c l) []
  due.foldl State.pinChange { s with kiln.pinsNow := s.kiln.pinsNow.filter fun c => decide (cyc < c.cyc) }

/-- The tick's last cycle: every change left takes effect (R42). -/
def State.pinsLast (s : State) : State :=
  let due := s.kiln.pinsNow.foldl (fun l c => pinInsert c l) []
  due.foldl State.pinChange { s with kiln.pinsNow := [] }

def execPinsApply (cyc : Nat) (s : State) : Ans := .next (s.pinsUpTo cyc)

end Sys2Proof.Machine
end

