-- ==== Sys2Proof/Machine/Spim.lean ====
section
/-!
DEFINITION. The SPI masters (R488): a posted transaction starts and ends.
-/
namespace Sys2Proof.Machine

open Sys2Proof

/-- OFFSET of a transaction. -/
def SpimTx.offset (x : SpimTx) : Nat := fieldOf x.w0 19 0

/-- `a` runs before `b`: by tick, then by OFFSET; with both equal, drain order stands. -/
def SpimTx.before (a b : SpimTx) : Bool :=
  let t (x : SpimTx) : Nat := x.tick.getD 0
  decide (t a < t b) || (t a == t b && decide (a.offset < b.offset))

/-- Core cycles of one SCLK half-period (R487). -/
def SpimTx.half (x : SpimTx) : Nat := max 9 (fieldOf x.w0 31 24) + 1

/-- Core cycles from the start of a transaction to its end: GAP, two half-periods a bit, GAP (R487). -/
def SpimTx.length (x : SpimTx) : Nat := (2 * max 1 (fieldOf x.w1 31 24) + 16 * spimLen x.w1) * x.half

/-- The transaction that a master runs next. -/
def spimFirst : List SpimTx → Option SpimTx
  | [] => none
  | x :: r => match spimFirst r with
    | some y => some (if y.before x then y else x)
    | none => some x

/-- Byte `j` of tick RAM from word `i` on. -/
def State.tramByte (s : State) (i j : Nat) : Nat := ((s.tramRead (i + j / 4)).1.toNat / 256 ^ (j % 4)) % 256

/-- Byte `j` from word `i` on takes a value. -/
def State.tramSetByte (s : State) (i j v : Nat) : State :=
  let w := s.rd (tramAddr (i + j / 4))
  s.tramWrite (i + j / 4) (setField w (8 * (j % 4) + 7) (8 * (j % 4)) v)

/-- The master that owns its select drives it (R487, R489). -/
def State.spimSelect (s : State) (m : Nat) (w1 : Word) (active : Bool) : State :=
  let n := fieldOf w1 15 11
  if w1.getLsbD 17 || s.ef (F.GPIO_PINn_CFG_OWNER n) != 2 + m then s
  else
    let high := w1.getLsbD 16 == active
    s.wr Reg.GPIO_OUT (setField (s.rd Reg.GPIO_OUT) n n (b2n high))

/-- The next transaction of master `m` starts at core cycle `cyc` of the tick, once its OFFSET is reached and 2 SCLK periods have passed since the
end of the one before (R488). The bytes sent stand behind the
divider, the mode and the bit order. -/
def State.spimStart (s : State) (m cyc : Nat) : State :=
  let q := tabGet (fun _ => []) s.spi.queue m
  if (tabGet (fun _ => none) s.spi.run m).isSome then s
  else match spimFirst (q.filter fun (x : SpimTx) => x.tick.isSome) with
    | none => s
    | some x =>
      let since := (s.tick.num - x.tick.getD 0) * s.cycles + cyc
      let rest := tabGet (fun _ => (0, 0)) s.spi.rest m
      if since < x.offset ∨ (s.tick.num - rest.1) * s.cycles + cyc < rest.2 then s
      else
        let r : SpimRun := { tx := x, cyc := cyc, tick := s.tick.num, late := decide (x.offset < since) }
        let s : State := { s with spi.queue := tabSet (fun _ => []) s.spi.queue m (q.erase x),
                                  spi.run := tabSet (fun _ => none) s.spi.run m (some r) }
        let s := if r.late then s.bump (F.SPIM_m_STAT_LATE m) 1 else s
        let from' := fieldOf x.w2 15 0
        let bytes := (List.range (spimLen x.w1)).map fun j => if x.w3.getLsbD 30 then 0 else s.tramByte from' j
        let s := if x.w3.getLsbD 30 then s else forNat ((spimLen x.w1 + 3) / 4) (fun s k => s.tramCount (from' + k)) s
        (s.spimSelect m x.w1 true).send .spimBytes m (([max 9 (fieldOf x.w0 31 24), fieldOf x.w0 23 22, fieldOf x.w0 21 21] ++ bytes).map
          fun (b : Nat) => (b : Int))

/-- The transaction of master `m` that runs ends: received bytes, words 4 and 5, and the count (R487, R488). -/
def State.spimEnd (s : State) (m : Nat) (rx : List Nat) : State :=
  match tabGet (fun _ => none) s.spi.run m with
  | none => s
  | some (r : SpimRun) =>
    let x := r.tx
    let s : State := { s with spi.run := tabSet (fun _ => none) s.spi.run m none,
                              spi.rest := tabSet (fun _ => (0, 0)) s.spi.rest m (r.tick, r.cyc + x.length + 4 * x.half) }
    let s := s.spimSelect m x.w1 false
    let bytes := rx.take (spimLen x.w1)
    let s := if x.w3.getLsbD 31 then
        forNat bytes.length (fun s j => s.tramSetByte (fieldOf x.w2 31 16) j (bytes.getD j 0)) s
      else s
    let s := s.tramWrite (x.kd + 4) (BitVec.ofNat 32 (2 ^ 31 + b2n r.late * 2 ^ 30 + r.cyc % 2 ^ 20))
    (s.tramWrite (x.kd + 5) (BitVec.ofNat 32 r.tick)).bumpWrap (F.SPIM_m_STAT_DONE m) 1

def execSpimTransaction (m : Fin 2) (cyc : Nat) (s : State) : Ans := .next (s.spimStart m cyc)

def execSpimTransactionEnd (m : Fin 2) (rx : List (BitVec 8)) (s : State) : Ans := .next (s.spimEnd m (rx.map (·.toNat)))

end Sys2Proof.Machine
end

