-- ==== Sys2Proof/Machine/Spis.lean ====
section
/-!
DEFINITION. The SPI slave port (R480 to R486): reads and writes of its registers, the words it fetches from and issues to the register bus,
late words and the prefetched copy.
-/
namespace Sys2Proof.Machine

open Sys2Proof

/-- Master code of the SPI slave port (R546). -/
def spisMaster : Nat := 2

/-- The SPI register after `a` (R480). -/
def spisNext (a : Nat) : Nat := if a = 0x0B then 0x08 else if a = 0x7F then 0 else a + 1

/-- SPIS_STATUS. IRQ is the level of the interrupt pin (R551). -/
def State.spisStatus (s : State) : Nat :=
  128 * b2n s.spi.rdy + 64 * b2n s.spi.underrun + 32 * b2n s.spi.overrun + 16 * b2n s.spi.part + 8 * b2n (s.intSum != 0#32)
    + 4 * b2n (!s.spi.waits.isEmpty) + 2 * b2n s.spi.compat

/-- What SPI register `a` returns, DATA apart. -/
def State.spisReg (s : State) (a : Nat) : Nat :=
  if a = 0 then s.spisStatus
  else if a = 1 then 128 * b2n s.spi.compat + 64 * b2n s.spi.winc
  else if 4 ≤ a ∧ a < 8 then s.spi.wptr / 256 ^ (a - 4) % 256
  else if 0x0C ≤ a ∧ a < 0x10 then s.serial / 256 ^ (a - 0x0C) % 256
  else if a = 0x10 then s.spi.upos
  else if a = 0x11 then s.spi.scratch
  else 0

/-- Written words that wait are issued to the register bus, oldest first. -/
def State.spisDrain (s : State) : State :=
  s.spi.waits.foldl (fun s (w : Nat × Word) => s.hostWrite spisMaster w.1 w.2) { s with spi.waits := [] }

/-- The word at the end of a late fetch waits for the read that takes it (R484). -/
def State.spisLate (s : State) : State :=
  match s.spi.late with
  | none => s
  | some a =>
    let r := s.busRead spisMaster a
    { r.2 with spi.late := none, spi.kept := r.2.spi.kept ++ [(a, r.1)] }

/-- SPIS_CS_N falls: in compatibility mode the copy is refreshed, but for a register whose read has an effect (R483). -/
def State.spisFall (s : State) : State :=
  let acts := match rowOf s.spi.wptr with | some (r, _) => readActs r.base | none => false
  if !s.spi.compat || acts then { s with spi.copy := none }
  else
    let r := s.busRead spisMaster s.spi.wptr
    { r.2 with spi.copy := some (s.spi.wptr, r.1) }

/-- WPTR advances after a word (R480). -/
def State.spisStep (s : State) : State :=
  if s.spi.winc then { s with spi.wptr := (s.spi.wptr + 4) % 2 ^ 32 } else s

/-- Word slot `k` of a read is not ready: the last word is sent again (R484). -/
def State.spisRepeat (s : State) (k : Nat) : State :=
  let x := s.spi
  let s : State := { s with spi.underrun := true, spi.upos := if x.upos = 0xFF then min k 0xFE else x.upos }
  if k = 0 ∧ !x.compat then { s with spi.rdy := false } else s

/-- The word of slot `k` is delivered. -/
def State.spisDeliver (s : State) (k : Nat) (w : Word) : State :=
  { s with spi.last := w, spi.rdy := if k = 0 then true else s.spi.rdy }

/-- The word that slot `k` takes without a fetch (R483, R484): for a read's first word a kept late word of its address, or the copy. -/
def State.spisReady (s : State) (k : Nat) : Option (Word × State) :=
  if k ≠ 0 then none
  else match s.spi.kept.find? fun x => x.1 == s.spi.wptr with
    | some x => some (x.2, { s with spi.kept := s.spi.kept.erase x })
    | none => match s.spi.copy with
      | some c => if c.1 = s.spi.wptr then some (c.2, s) else none
      | none => none

/-- Word slot `k` of a read begins (R483, R484); `late` says that the bus is not free in time. True: a word was delivered. A fetch that is
still in flight comes first. -/
def State.spisSlot (s : State) (k : Nat) (late : Bool) : Bool × State :=
  let a := s.spi.wptr
  let s : State := if k = 0 then { s with spi.upos := 0xFF } else s
  match s.spisReady k with
  | some r => (true, r.2.spisDeliver k r.1)
  | none =>
    if late then
      let s := if s.spi.late = some a then s else { s.spisLate with spi.late := some a }
      (false, s.spisRepeat k)
    else
      let s := if s.spi.late = some a then { s with spi.late := none } else s.spisLate
      let r := s.busRead spisMaster a
      (true, r.2.spisDeliver k r.1)

/-- The bytes of a read: `n` are left, the next is register `a`, in word slot `k`; `on` says that a word was entered at DATA0 and delivered. -/
def State.spisBytes (s : State) (late : List Bool) : Nat → Nat → Nat → Bool → List Nat → List Nat × State
  | 0, _, _, _, l => (l.reverse, s)
  | n + 1, a, k, on, l =>
    if a = 8 then
      let r := s.spisSlot k (late.getD k false)
      r.2.spisBytes late n 9 (k + 1) r.1 (r.2.spi.last.toNat % 256 :: l)
    else if 9 ≤ a ∧ a ≤ 11 then
      let b := s.spi.last.toNat / 256 ^ (a - 8) % 256
      if a = 11 ∧ on then s.spisStep.spisBytes late n 8 k false (b :: l)
      else s.spisBytes late n (spisNext a) k on (b :: l)
    else s.spisBytes late n (spisNext a) k on (s.spisReg a :: l)

/-- Bytes leave on SPIS_MISO, behind the status byte of native mode (R482). -/
def State.spisOut (s : State) (compat : Bool) (status : Nat) (l : List Nat) : State :=
  s.send .spisBytes 0 (((if compat then [] else [status]) ++ l).map fun (b : Nat) => (b : Int))

/-- A read of `n` bytes from SPI register `a` on; `late` says of each word slot whether the bus lets its fetch come too late. -/
def State.spisRead (s : State) (a n : Nat) (late : List Bool) : State :=
  let status := s.spisStatus
  let s := s.spisDrain.spisFall
  let r := s.spisBytes late n a 0 false []
  r.2.spisOut s.spi.compat status r.1

/-- What a write has reached: the bytes of the open word, the next SPI register, whether words are being discarded, and the CFG byte that takes
effect when SPIS_CS_N rises. -/
structure SpisWr where
  word : List (Option Nat)
  dead : Bool
  cfg : Option Nat
  deriving DecidableEq, Repr

/-- A word of a write is complete (R485): it is issued, or waits when the bus is busy. -/
def State.spisIssue (s : State) (slow : Bool) (x : SpisWr) (w : Word) : State × SpisWr :=
  if x.dead then (s, x)
  else if !slow then ((s.spisDrain.hostWrite spisMaster s.spi.wptr w).spisStep, x)
  else if 16 ≤ s.spi.waits.length then ({ s with spi.overrun := true }, { x with dead := true })
  else ({ s with spi.waits := s.spi.waits ++ [(s.spi.wptr, w)] }.spisStep, x)

/-- The bytes of a word; those that a write entering mid-word leaves out are free. -/
def State.spisWord (s : State) (l : List (Option Nat)) : Word × State :=
  let free := Config.freeWord s.hub.freeCtr
  let b (i : Nat) : Nat := match l.getD i none with | some v => v % 256 | none => free.toNat / 256 ^ i % 256
  (BitVec.ofNat 32 (leNat [b 0, b 1, b 2, b 3]),
    if l.all (·.isSome) then s else { s with hub.freeCtr := s.hub.freeCtr + 1 })

/-- One byte of a write at SPI register `a`. -/
def State.spisByte (s : State) (slow : Bool) (x : SpisWr) (a b : Nat) : State × SpisWr :=
  if a = 0 then
    ({ s with spi.underrun := s.spi.underrun && !bitOf b 6, spi.overrun := s.spi.overrun && !bitOf b 5,
              spi.part := s.spi.part && !bitOf b 4 }, x)
  else if a = 1 then (s, { x with cfg := some b })
  else if 4 ≤ a ∧ a < 8 then
    let p := s.spi.wptr
    let p := p - (p / 256 ^ (a - 4) % 256) * 256 ^ (a - 4) + b * 256 ^ (a - 4)
    ({ s with spi.wptr := p / 4 * 4 }, x)
  else if 8 ≤ a ∧ a ≤ 11 then
    let w := listSet (if a = 8 then [none, none, none, none] else x.word) (a - 8) (some b)
    if a = 11 then
      let v := s.spisWord w
      let r := v.2.spisIssue slow x v.1
      (r.1, { r.2 with word := [none, none, none, none] })
    else (s, { x with word := w })
  else if a = 0x11 then ({ s with spi.scratch := b }, x)
  else (s, x)

/-- The bytes of a write, from SPI register `a` on. -/
def State.spisPut (s : State) (slow : Bool) : List Nat → Nat → SpisWr → State × SpisWr
  | [], _, x => (s, x)
  | b :: r, a, x =>
    let y := s.spisByte slow x a b
    y.1.spisPut slow r (spisNext a) y.2

/-- A write of bytes from SPI register `a` on; `slow` says that the register bus is not free for its words. -/
def State.spisWrite (s : State) (a : Nat) (bytes : List Nat) (slow : Bool) : State :=
  let status := s.spisStatus
  let compat := s.spi.compat
  let s := (if slow then s else s.spisDrain).spisFall
  let r := s.spisPut slow bytes a { word := [none, none, none, none], dead := false, cfg := none }
  let s := if r.2.word.any (·.isSome) then { r.1 with spi.part := true } else r.1
  let s := s.spisOut compat status []
  match r.2.cfg with
  | some c => { s with spi.compat := bitOf c 7, spi.winc := bitOf c 6 }
  | none => s

def execSpisRead (a : Fin 128) (n : Nat) (late : List Bool) (s : State) : Host.Outcome State Fault Refusal := .next (s.spisRead a n late)

def execSpisWrite (a : Fin 128) (bytes : List (BitVec 8)) (slow : Bool) (s : State) : Host.Outcome State Fault Refusal :=
  .next (s.spisWrite a (bytes.map (·.toNat)) slow)

/-- The late fetch completes after its read has ended (R484); the bus is free for the words that wait. -/
def execSpisFetchDone (s : State) : Host.Outcome State Fault Refusal := .next s.spisDrain.spisLate

end Sys2Proof.Machine
end

