-- ==== Sys2Proof/Machine/Stage.lean ====
section
/-!
DEFINITION. Cycle 240 of a tick (R11, R43, R45, R69, R145, R169, R178, R186, R231): what Charcoal made is released and written by sample
ingress, and the staging of the tick before closes; and the frames of the tile links.
-/
namespace Sys2Proof.Machine

open Sys2Proof

/-! ### Lists in order -/

/-- An element takes its place behind those of the same or a smaller key. -/
def insertOn {α : Type} (k : α → Nat) (x : α) : List α → List α
  | [] => [x]
  | y :: r => if k x < k y then x :: y :: r else y :: insertOn k x r

/-- A list sorted by a key; elements of one key keep their order. -/
def sortOn {α : Type} (k : α → Nat) (l : List α) : List α := l.foldl (fun a x => insertOn k x a) []

/-- The keys of a list, rising, each once. -/
def keysOf {α : Type} (k : α → Nat) (l : List α) : List Nat :=
  l.foldl (fun a x => if a.contains (k x) then a else insertOn id (k x) a) []

/-! ### Release (R68, R97, R152, R231, R239, R382) -/

/-- Sample ingress writes the released words of channel `c`: linearised, into the output view, and as a group for its queue. -/
def State.writeChannel (s : State) (c : Nat) (ws : List OutWord) : State × List (Nat × Group) :=
  let rate := s.outRate true c
  let rho := (s.represented c).1
  let r := ws.foldl (fun (a : State × List ViewWord) (w : OutWord) =>
    let v := a.1.linearise c w.word
    (a.1.supply c v, a.2 ++ [{ word := v, inst := ((slotClock rate w.sec w.idx : Nat) + rho).toNat }])) (s, [])
  let s := { r.1 with kiln.outNow := tabMod (fun _ => []) r.1.kiln.outNow c (· ++ r.2) }
  let q := tabGet (fun _ => noRoute) s.kiln.route c
  match ws with
  | [] => (s, [])
  | w :: _ =>
    if q = noRoute then (s, [])
    else (s, [(q.toNat, { ch := c, sec := w.sec, idx := w.idx, seq := w.seq, rate := rate, words := r.2.map (·.word) })])

/-- The result of detector `x.det` is shown, and written to its queue when one is named (R233, R239). -/
def State.writeDet (s : State) (x : DetRes) : State × List (Nat × Group) :=
  let d := x.det
  let s := ((s.wr (Reg.CHR_DET_RES0 d) x.a).wr (Reg.CHR_DET_RES1 d) x.b).wr (Reg.CHR_DET_RES2 d) (BitVec.ofNat 32 x.n)
  let s := ((s.wr (Reg.CHR_DET_RES3 d) (BitVec.ofNat 32 x.tick)).wf (F.CHR_DET_RES4_EXCL d) x.excl).bumpWrap (F.CHR_DET_RES4_WINS d) 1
  let q := (s.rd (Reg.CHR_DET_ROUTE d)).toNat
  let words := if s.ef (F.CHR_DET_CFG_TYPE d) = 1 then [x.a, x.b] else [x.a]
  if 4095 < q then (s, []) else (s, [(q, { ch := 0x8000 + d, sec := 0, idx := 0, seq := 0, rate := 0, words := words })])

/-- Everything that Charcoal completed since the last close is released (R231). -/
def State.releaseWords (s : State) : State :=
  let made := s.front.made
  let dets := sortOn (·.det) s.front.detMade
  let s := s.condRelease s.knd.histMade made
  let s := { s with front.made := [], front.detMade := [], knd.histMade := [] }
  let a := (keysOf (·.ch) made).foldl (fun (a : State × List (Nat × Group)) c =>
    let r := a.1.writeChannel c (made.filter (·.ch == c))
    (r.1, a.2 ++ r.2)) (s, [])
  let a := dets.foldl (fun (a : State × List (Nat × Group)) d =>
    let r := a.1.writeDet d
    (r.1, a.2 ++ r.2)) a
  (keysOf (·.1) a.2).foldl (fun s q => s.ingress q s.tick.num ((a.2.filter (·.1 == q)).map (·.2))) a.1

/-! ### The staging of the tick before (R43, R69, R145, R169, R186) -/

/-- The gap records of conversions of channel `c` that are lost, one for each run of consecutive ones (R11). -/
def State.lossRuns (s : State) (cause : GapCause) (l : List Conv) (c : Nat) : List Gap :=
  ((l.filter fun (x : Conv) => x.ch == c).foldl (fun (a : List Gap) (x : Conv) =>
    let g := gapOne c cause true x.tick x.sec x.j
    match a with
    | [] => [g]
    | p :: r => if s.gapFollows p g then
        { p with lastTick := g.lastTick, lastSec := g.lastSec, lastIdx := g.lastIdx, count := p.count + 1 } :: r
      else g :: p :: r) []).reverse

/-- The gap records of conversions that are lost are written, channel by channel. -/
def State.lossGaps (s : State) (cause : GapCause) (l : List Conv) : State :=
  (keysOf (fun (c : Conv) => c.ch) l).foldl (fun s c => (s.lossRuns cause l c).foldl State.gap s) s

/-- The range of a sense converter, ±12.5 V, in nV (R144). -/
def senseRange : Int := 12500000000

/-- S of channel `c` in nV, through the converter's coefficients (R144, R196): the mean of the readings, each within the range; with no reading in
the tick the spec gives no S, which is a free value. -/
def State.senseMean (s : State) (m : TickMeas) (c : Nat) : Int :=
  match m.sense.getD c [] with
  | [] => Config.free (s.hub.freeCtr + c)
  | l => s.senseValue c (rdiv (l.map (clampTo senseRange)).sum l.length)

/-- S of every channel for the tick whose staging closes. -/
def State.senseMeans (s : State) (m : TickMeas) : List Int := (List.range 96).map (s.senseMean m)

/-- S in the unit of AFE_CH_SENSE, 12.5 V ÷ 2^23. -/
def senseUnits (v : Int) : Int := clampTo 8388607 (rdiv (v * 8388608) 12500000000)

/-- The settings of the ratiometric step that are in effect on channel `c` (R145). -/
def State.senseSet (s : State) (c : Nat) : ConvSet :=
  { mode := s.ef (F.AFE_CH_CFG_MODE c), bsub := s.ef (F.AFE_CH_CFG_BSUB c), vrange := s.ef (F.AFE_CH_CFG_VRANGE c),
    vset := s.ef (F.AFE_EX_CTRL_VSET (dutyOf c)), gain := 0, ofs := 0 }

/-- The sense readings of a tick: AFE_CH_SENSE, and SENSE_LOW with its episode (R144, R145). A tick without a conversion of the channel is judged by
the settings in effect when it has readings. -/
def State.senseShow (s : State) (m : TickMeas) (v : Int) (l : List Conv) (c : Nat) : State :=
  let now := s.ef (F.AFE_CH_CFG_MODE c) == 2
  let s := s.wfs (F.AFE_CH_SENSE_SENSE c) (if now then senseUnits v else 0)
  let z := ((l.find? fun (x : Conv) => x.ch == c).map (·.set)).getD (s.senseSet c)
  if now && (m.sense.getD c []).isEmpty && !(l.any fun (x : Conv) => x.ch == c) then s
  else
    let low := z.mode == 2 && (ratiometric z 0 v).isNone
    let open' := tabGet (fun _ => false) s.front.senseLow c
    let s := { s.wb (F.AFE_CH_STAT_SENSE_LOW c) low with front.senseLow := tabSet (fun _ => false) s.front.senseLow c low }
    if low && !open' then s.emit .SENSE_LOW (objChannel c) [] else s

/-- What driver `d` shows for the tick before (AFE_EX_STAT, AFE_EX_VOUT): a current within its ceiling (R143), none at high impedance (R140), and a
voltage within its compliance (R141); without a measurement, the voltage it drives. -/
def State.driverShow (s : State) (m : TickMeas) (d : Nat) : State :=
  let i := F.AFE_EX_STAT_IOUT d
  let v := F.AFE_EX_VOUT_VOUT d
  let amps := if s.driverHiZ d then 0 else min (m.iout.getD d 0) (1000 * s.f (F.FNC_EXd_IMAX d))
  let volts := min (m.vout.getD d ((s.driverForce d).getD 0).toNat) (s.forceMax d).toNat
  (s.wf i (min (fieldMax i) amps)).wf v (min (fieldMax v) volts)

/-- The neighbours of conversion `x` for the skew term of R169, when the estimator runs on its core and both exist: the conversions of the frames
before and after, on slice 0 of the same core and under the same setting. -/
def State.neighbours (s : State) (x : Conv) : Option (Int × Int) :=
  if !s.estRuns x.core || x.slice != 1 then none
  else
    let since := (s.duty (dutyOf x.ch)).since
    let f := scanRate (s.scanAt (dutyOf x.ch) x.inst)
    let same (i : Nat) : Bool := decide (i < since) == decide (x.inst < since)
    let after := s.front.convs.find? fun (y : Conv) =>
      y.ch == x.ch && y.core == x.core && y.delivered && y.slice == 0 && frameFollows f (x.sec, x.j) (y.sec, y.j) && same y.inst
    match tabGet (fun _ => none) s.front.prevConv x.ch, after with
    | some p, some y =>
      if p.core == x.core && p.slice == 0 && frameFollows f (p.sec, p.j) (x.sec, x.j) && same p.inst then some (p.raw, y.raw) else none
    | _, _ => none

/-- Status bits of a corrected conversion (R23, R69). -/
def convBits (x : Conv) (ovl : Bool) : Nat :=
  (if ovl then bOVL else 0) ||| (if x.cmf then bCMF else 0) ||| (if x.slw then bSLW else 0) ||| (if x.sys then bSYS else 0)
    ||| (if x.hld then bHLD else 0)

/-- The pair of a shadowed conversion joins its visit (R177, R178): `r` is its correction, `s0` the sense mean. -/
def State.pairTake (s : State) (x : Conv) (r : Corrected) (s0 : Int) : State :=
  let n := x.core / 3
  match x.spare, s.visit n with
  | some (raw, slice, ovl), some v =>
    let q := 3 * n + v.spare
    let y := s.mismatch q slice raw none
    let c := s.correct q x.set x.invalid (ovl || y.2) y.1 s0
    if r.ovl || c.ovl || x.cmf then s else s.setVisit n (some { v with pairs := (x.ch, x.tick, c.x - r.x) :: v.pairs })
  | _, _ => s

/-- A delivered conversion is corrected and goes to the staging view, the session, the estimator, the correlator and Charcoal (R43, R69, R170, R186,
R201); `s0` is S of its channel. AFE_CH_STAT shows the OVL that a correction gives the latest conversion. -/
def State.stageConv (s : State) (s0 : Int) (x : Conv) : State :=
  let c := x.ch
  let y := s.mismatch x.core x.slice x.raw (s.neighbours x)
  let r := s.correct x.core x.set x.invalid (x.ovl || y.2) y.1 s0
  let st := convBits x r.ovl
  let word : ViewWord := { word := sampleWord st (16 * r.x), inst := x.inst }
  let s := { s with kiln.staging := tabMod (fun _ => []) s.kiln.staging c (· ++ [word]),
                    front.prevConv := tabSet (fun _ => none) s.front.prevConv c
                      (some { core := x.core, sec := x.sec, j := x.j, inst := x.inst, slice := x.slice, raw := x.raw }) }
  let s := if s.front.convs.any fun (z : Conv) => z.ch == c && decide (x.inst < z.inst) then s else s.wb (F.AFE_CH_STAT_OVL_NOW c) r.ovl
  let s := (((s.estFeed x (r.ovl || x.cmf)).sessValue c x.tick r.u r.ovl x.cmf).pairTake x r s0).gpeReach c (x.tick, x.sec, x.j)
  let s := if s.coded true c then s.feedCode c x.inst r.x r.ovl st else s
  s.feedLocal c x.tick x.sec x.j r.x r.inv st

/-- The conversion instants of channel `c`'s schedule in tick `t` (R69, R163). -/
def State.schedule' (s : State) (c t : Nat) : List Nat :=
  let d := s.duty (dutyOf c)
  let lo := boundaryClock s.rate t
  let hi := boundaryClock s.rate (t + 1)
  let insts (x : Option (Nat × Nat × Nat × Nat)) : List Nat := match x with
    | some (f, i, a, b) => (List.range (b + 1 - a)).map fun k => instOf f i (a + k)
    | none => []
  insts (spanUnder d.prevScan c lo hi d.since true) ++ insts (spanUnder (s.eff (scanReg (dutyOf c))) c lo hi d.since false)

/-- An instant of the schedule without a delivered conversion keeps its entry in the staging view (R69). -/
def State.fillStaging (s : State) (t c : Nat) : State :=
  let l := tabGet (fun _ => []) s.kiln.staging c
  let miss := (s.schedule' c t).filter fun i => !(l.any fun (w : ViewWord) => w.inst == i)
  if miss.isEmpty then s
  else
    let all := sortOn (·.inst) (l ++ miss.map fun i => { word := invalidWord, inst := i })
    { s with kiln.staging := tabSet (fun _ => []) s.kiln.staging c all }

/-- At the close of the staging of tick `t`: with PAIRS valid pairs of every enabled channel of the visited duty it is the overlap tick (R178); a
scan change or an outage of the tick that runs ends the visit otherwise (R181). -/
def State.overlapTick (s : State) (t n : Nat) : State :=
  match s.visit n with
  | some v =>
    match v.duty, v.tm with
    | some k, none =>
      let chans := s.dutyChans (2 * n + k) (boundaryClock s.rate t)
      let full (c : Nat) : Bool := decide (s.matchPairs ≤ (v.pairs.filter fun p => p.1 == c).length)
      if v.ts ≤ t ∧ !chans.isEmpty ∧ chans.all full then s.setVisit n (some { v with tm := some t, chans := chans, doubt := none })
      else match v.doubt with
        | some r => s.endVisit n r
        | none => s
    | _, _ => s
  | none => s

/-- A stopped path loses its words of tick `t` (R216). -/
def State.stoppedGap (s : State) (t c : Nat) : State :=
  if (s.path c).stopped && (s.chrSet true c).en && (s.chrSet true c).out then
    let g := s.gapTicks c .chrStopped false t t (s.outRate true c)
    if g.count = 0 then s else s.gap g
  else s

/-- The staging of the tick before closes (R43), at cycle 240. -/
def State.stagingClose (s : State) (m : TickMeas) : State :=
  if s.genState ≠ 1 ∨ s.tick.stagingClosed then s
  else
    let s := (s.atCycle 240).releaseWords
    let t := s.tick.prev.getD 0
    let old := s.front.convs.filter fun (x : Conv) => decide (x.tick < s.tick.num)
    let late (x : Conv) : Bool := !x.delivered && !x.lost && (s.tile (x.ch / 24)).retrying
    let gone := old.filter fun x => !x.delivered && !late x
    let s := { s.lossGaps .tileLink gone with kiln.staging := [] }
    let s := gone.foldl (fun s (x : Conv) => s.estDrop x.core) s
    let means := s.senseMeans m
    let s := { s with hub.freeCtr := s.hub.freeCtr + 96 }
    let s := forNat 96 (fun s c => s.senseShow m (means.getD c 0) old c) s
    let s := forNat 24 (fun s d => s.driverShow m d) s
    let s := (old.filter (·.delivered)).foldl (fun s x => s.stageConv (means.getD x.ch 0) x) s
    let s := if s.tick.prev.isSome then forNat 96 (fun s c => s.fillStaging t c) s else s
    let s := { s with front.convs := s.front.convs.filter fun (x : Conv) => !decide (x.tick < s.tick.num) || late x }
    let s := forNat 12 (fun s n => s.overlapTick t n) s
    let rem := s.front.remIn.filter fun (r : RemWord) => decide (r.tick < s.tick.num)
    let s := { s with front.remIn := s.front.remIn.filter fun (r : RemWord) => !decide (r.tick < s.tick.num) }
    let s := rem.foldl (fun s r => s.feedRemote r.tick r) s
    let s := s.chrOn.foldl (fun s c => s.stoppedGap t c) s
    { s.edgLatch with tick.stagingClosed := true }

def execStagingClose (meas : TickMeas) (s : State) : Host.Outcome State Fault Refusal := .next (s.stagingClose meas)

/-! ### Tile-link frames (R11, R45) -/

/-- A frame of tile `t` with the results of `n` conversions arrives: in error it is requested again once, and the next frame of the tile
is the one requested (DESIGN CHOICE, log entry 119). A result comes late when the staging of its tick has closed (R45). -/
def State.tileFrame (s : State) (t n : Nat) (ok : Bool) : State :=
  let x := s.tile t
  if x.down then s
  else
    let mine := (s.front.convs.filter fun (c : Conv) => c.ch / 24 == t && !c.delivered && !c.lost).take n
    let late (c : Conv) : Bool := decide (c.tick < s.tick.num) && (s.tick.stagingClosed || s.tick.prev != some c.tick)
    let mark (f : Conv → Conv) (s : State) : State :=
      { s with front.convs := (s.front.convs.filter fun (c : Conv) => !(mine.contains c && late c)).map fun c =>
          if mine.contains c then f c else c }
    if ok then
      let s := (s.setTile t { x with retrying := false }).lossGaps .stagingLate (mine.filter late)
      mark (fun c => { c with delivered := true }) s
    else if !x.retrying then s.setTile t { x with retrying := true }
    else
      let s := (s.setTile t { x with retrying := false }).lossGaps .tileLink (mine.filter late)
      mark (fun c => { c with lost := true }) s

def execTileLinkFrame (t : Fin 4) (n : Nat) (ok : Bool) (s : State) : Host.Outcome State Fault Refusal := .next (s.tileFrame t n ok)

end Sys2Proof.Machine
end

