-- ==== Sys2Proof/Machine/Hcp.lean ====
section
/-!
DEFINITION. The Hub Control Protocol (R473 to R479): a message and its operations, the responses, and notices.
-/
namespace Sys2Proof.Machine

open Sys2Proof

/-- A RESPONSE leaves on the uplinks. -/
def State.hcpSend (s : State) (words : List Word) : State :=
  s.hostSend .hcpReply words

/-- The request that runs is answered with STATUS and a body; the answer is kept (R475). -/
def State.hcpAnswer (s : State) (x : HcpRun) (status : Nat) : State :=
  let body := if status = 0 then x.body else []
  let words := responseWords x.session x.mseq (if status = 0 then x.nops else 0) status body
  (s.keep x.session x.mseq words).hcpSend words

/-- The request at the front has no operation left: it is answered. -/
def State.hcpPump (s : State) : State :=
  match s.upl.runs with
  | [] => s
  | x :: r => if x.left = 0 then ({ s with upl.runs := r } : State).hcpAnswer x 0 else s

/-- A message whose TAG is right, by its type (R473, R475). -/
def State.hcpAccept (s : State) (session mseq : Nat) (ty : HcpType) : State :=
  match ty with
  | .request n =>
    ({ s with upl.runs := s.upl.runs ++ [{ session := session, mseq := mseq, nops := n, left := n, stopped := false, body := [] }] } : State).hcpPump
  | .umber => if s.umb.down then s
    else { s with umb.inq := s.umb.inq ++ [{ via := none, session := session, mseq := mseq }] }

/-- A message arrives at UPL_HCP_PORT (R473, R475): `tagOk` is the check of its TAG, `fits` that MAGIC, VERSION, LEN and NOPS fit its datagram. While
Stoker is down it is discarded (R478). -/
def State.hcpMessage (s : State) (session mseq : Nat) (tagOk fits : Bool) (ty : HcpType) : State :=
  let bad (s : State) : State := s.hcpSend (responseWords session mseq 0 1 [])
  if !s.stokerUp || !s.flag F.UPL_CTRL_EN then s
  else if session = 0 ∧ ty = .umber then
    if !tagOk then s.authFail 0 else if !fits then bad s else s.hcpAccept 0 mseq ty
  else if (s.sess session).isNone || !tagOk then s.authFail session
  else if !fits then bad s
  else match s.admitMsg session mseq true with
    | (.drop, s) => s
    | (.again w, s) => s.hcpSend w
    | (.accept, s) => s.hcpAccept session mseq ty

def execHcpMessage (session mseq : Nat) (tagOk fits : Bool) (ty : HcpType) (s : State) : Host.Outcome State Fault Refusal :=
  .next (s.hcpMessage session mseq tagOk fits ty)

/-! ### Operations (R476, R477) -/

/-- Permission bit `b` of a session. -/
def State.sessCan (s : State) (session b : Nat) : Bool :=
  match s.sess session with
  | some x => x.can b
  | none => false

/-- A KLN loader register, or a Charcoal bank register or bank window, whose writes need LOAD (R477). -/
def loadAddr (a : Nat) : Bool :=
  (decide (Reg.KLN_LOAD_CTRL ≤ a) && decide (a ≤ Reg.KLN_SWAP_TICK_HI))
    || (decide (Reg.CHR_BANK_STAT ≤ a) && decide (a ≤ Reg.CHR_SWAP_STAT)) || (decide (0x780000 ≤ a) && decide (a < 0x7C0000))

/-- An address that a host finds in no block (R477, R543). -/
def State.noBlock (a : Nat) : Bool := reserved a || stkDenied 1 a

/-- The operation that runs gives RESULT, COUNT and data (R475, R476). -/
def State.opDone (s : State) (op result : Nat) (stop : Bool) (count : Nat) (data : List Word) : State :=
  match s.upl.runs with
  | [] => s
  | x :: r =>
    let head := BitVec.ofNat 32 (op + 256 * result + 65536 * count)
    let x := { x with left := x.left - 1, stopped := x.stopped || (result != 0 && stop), body := x.body ++ head :: data }
    ({ s with upl.runs := x :: r } : State).hcpPump

/-- One operation of the request that runs: nothing without one, or while Stoker is down (R13, R478); NOT_RUN after a STOP; DENIED without the permissions `perms`; ADDR_BAD for an
address that is not aligned; else `f` answers RESULT, COUNT and data. -/
def State.hcpOp (s : State) (op addr : Nat) (stop : Bool) (perms : List Nat) (f : State → Nat × Nat × List Word × State) : State :=
  match s.upl.runs with
  | [] => s
  | x :: _ =>
    if !s.stokerUp then s
    else if x.stopped then s.opDone op 3 stop 0 []
    else if !(perms.all fun b => s.sessCan x.session b) then s.opDone op 1 stop 0 []
    else if addr % 4 ≠ 0 then s.opDone op 2 stop 0 []
    else
      let r := f s
      r.2.2.2.opDone op r.1 stop r.2.1 r.2.2.1

/-- `n` reads by the host, from `a` on in steps of `step`; an address in no block ends them. -/
def State.hcpReads (s : State) (step : Nat) : Nat → Nat → List Word → Nat × List Word × State
  | 0, _, l => (0, l.reverse, s)
  | n + 1, a, l =>
    let r := s.busRead 1 a
    if State.noBlock a then (2, l.reverse, r.2) else r.2.hcpReads step n (a + step) (r.1 :: l)

/-- Writes by the host, from `a` on; an address in no block ends them. -/
def State.hcpWrites (s : State) (step : Nat) : List Word → Nat → Nat → Nat × Nat × State
  | [], _, k => (0, k, s)
  | w :: r, a, k =>
    let t := s.hostWrite 1 a w
    if State.noBlock a then (2, k, t) else t.hcpWrites step r (a + step) (k + 1)

/-- Address `a` is the DATA register of a host window: the window, if it is. -/
def winData (a : Nat) : Option Nat :=
  match rowOf a with
  | some (r, i) => if r.base = Reg.QMG_HWn_DATA 0 then some i else none
  | none => none

/-- Up to `n` reads of `a`: those of a host window's DATA stop before the first that would find EMPTY (R476). -/
def State.fifoReads (s : State) (a : Nat) : Nat → List Word → Nat × List Word × State
  | 0, l => (0, l.reverse, s)
  | n + 1, l =>
    match winData a with
    | some w =>
      if (s.winWords w).isEmpty then (0, l.reverse, s)
      else let r := s.busRead 1 a; r.2.fifoReads a n (r.1 :: l)
    | none =>
      let r := s.busRead 1 a
      if State.noBlock a then (2, l.reverse, r.2) else r.2.fifoReads a n (r.1 :: l)

/-- Permissions that writes to the words from `a` on need. -/
def writePerms (a step n : Nat) : List Nat := if (List.range n).any fun k => loadAddr (a + step * k) then [1, 2] else [1]

def execRead (addr : Nat) (n : Fin 256) (stop : Bool) (s : State) : Host.Outcome State Fault Refusal :=
  .next (s.hcpOp 1 addr stop [0] fun s =>
    let r := s.hcpReads 4 (n.val + 1) addr []
    (r.1, r.2.1.length, r.2.1, r.2.2))

def execWrite (addr : Nat) (data : List Word) (stop : Bool) (s : State) : Host.Outcome State Fault Refusal :=
  .next (s.hcpOp 2 addr stop (writePerms addr 4 data.length) fun s =>
    let r := s.hcpWrites 4 data addr 0
    (r.1, r.2.1, [], r.2.2))

def execFifoWrite (addr : Nat) (data : List Word) (stop : Bool) (s : State) : Host.Outcome State Fault Refusal :=
  .next (s.hcpOp 3 addr stop (writePerms addr 0 data.length) fun s =>
    let r := s.hcpWrites 0 data addr 0
    (r.1, r.2.1, [], r.2.2))

def execFifoRead (addr : Nat) (n : Fin 256) (stop : Bool) (s : State) : Host.Outcome State Fault Refusal :=
  .next (s.hcpOp 4 addr stop [0] fun s =>
    let r := s.fifoReads addr (n.val + 1) []
    (r.1, r.2.1.length, r.2.1, r.2.2))

/-- SCHED: the host's copy of the staging registers takes the item, and its result is returned (R476). -/
def State.hcpSched (s : State) (tick addr : Nat) (data mask : Word) (lateOk : Bool) : Nat × Nat × List Word × State :=
  let s := s.wf64 (privF 1 F.KLN_SCHED_TICK_LO_TICK) (privF 1 F.KLN_SCHED_TICK_HI_TICK) (tick % 2 ^ 64)
  let s := s.wf (privF 1 F.KLN_SCHED_ADDR_ADDR) (addr / 4)
  let s := (s.wr (priv 1 Reg.KLN_SCHED_DATA) data).wr (priv 1 Reg.KLN_SCHED_MASK) mask
  let s := s.schedCommit 1 lateOk false
  let code := s.f (privF 1 F.KLN_SCHED_RESULT_CODE)
  (0, 0, [BitVec.ofNat 32 code, if code = 0 then s.rd (priv 1 Reg.KLN_SCHED_SEQ) else 0#32], s)

def execSched (tick addr : Nat) (data mask : Word) (lateOk stop : Bool) (s : State) : Host.Outcome State Fault Refusal :=
  .next (s.hcpOp 5 addr stop [1] fun s => s.hcpSched tick addr data mask lateOk)

/-! ### Notices (R479) -/

/-- The interrupt summary gains a bit: a NOTICE to each session with NOTIFY, at most one in a tick. -/
def State.noticeSend (s : State) : State :=
  let sum := s.intSum
  if (sum.toNat &&& (0xFFFFFFFF - s.hub.notified)) = 0 ∨ s.upl.noticeTick = some s.tick.num ∨ !s.stokerUp then s
  else
    let s : State := { s with hub.notified := sum.toNat, upl.noticeTick := some s.tick.num }
    (s.umb.sessions.filter fun (x : Sess) => x.can 3).foldl (fun s (x : Sess) =>
      let n := (s.upl.noticeSeq + 1) % 2 ^ 64
      let l := [0x50434857#32, 0x00000401#32, BitVec.ofNat 32 x.id, BitVec.ofNat 32 n, BitVec.ofNat 32 (n / 2 ^ 32), 4#32, 0#32, 0#32, sum]
      let words := l ++ (List.range 8).map fun i => Config.tag x.id l i
      { s with upl.noticeSeq := n }.hostSend .notice words) s

def execNotice (s : State) : Host.Outcome State Fault Refusal := .next s.noticeSend

end Sys2Proof.Machine
end

