-- ==== Sys2Proof/Machine/Stoker.lean ====
section
/-!
DEFINITION. Stoker's part in events and gap records (R305, R306, R455, R550), its restarts (R13, R478, R535) and the
trial of a Stoker image (R517, R518).
-/
namespace Sys2Proof.Machine

open Sys2Proof

/-! ### Event records (R305, R306, R550) -/

/-- The queue that UPL_EVQ, or CRD_EVQ, names, when it is enabled. -/
def State.evTarget (s : State) (up : Bool) : Option Nat :=
  let q := s.f (if up then F.UPL_EVQ_Q else F.CRD_EVQ_Q)
  if s.flag (if up then F.UPL_EVQ_EN else F.CRD_EVQ_EN) && s.flag (F.QMG_Qq_CFG_EN q) then some q else none

/-- A record goes to a queue as one packet; one that the queue refuses is held, and so is what follows it (R385). -/
def State.evWrite (s : State) (up : Bool) (ws : List Word) : State :=
  match s.evTarget up with
  | none => s
  | some q =>
    let hold (s : State) : State := { s with hub.evHeld := s.hub.evHeld ++ [(up, ws)] }
    if s.hub.evHeld.any (·.1 == up) then hold s
    else
      let r := s.putPacket q ws
      if r.1 then r.2 else hold r.2

/-- The records that are held are written again (R385). -/
def State.evRetry (s : State) : State :=
  s.hub.evHeld.foldl (fun s x => s.evWrite x.1 x.2) { s with hub.evHeld := [] }

/-- A record is forwarded to Umber's log and to the host, with the EVENT latch from EV_SEV on (R550, R551). -/
def State.toHost (s : State) (e : Event) : State :=
  let s := (eventRecords e).foldl (fun s ws => s.evWrite true ws) (s.logRecord e)
  if s.f F.HUB_INT_CFG_EV_SEV ≤ eventSevOf e.name then s.wf F.HUB_INT_RAW_EVENT 1 else s

/-- The origin is a partner or a local channel, so that a storm window judges it (R305). -/
def stormOrigin (o : Nat) : Bool :=
  (decide (objChannel 0 ≤ o) && decide (o < objChannel 96)) || (decide (objPartner 0 ≤ o) && decide (o < objPartner 512))

/-- The lanes on which an origin has a route, as bits (R305): a local channel has none. -/
def State.stormLanes (s : State) (o : Nat) : Nat :=
  if o < objPartner 0 then 0
  else match s.partner (o - objPartner 0) with
    | some x => (x.routes.filter (·.live)).foldl (fun n r => n ||| 2 ^ r.lane) 0
    | none => 0

/-- The record that Stoker builds from a window (R305, R549); `e` gives its time. -/
def Storm.record (x : Storm) (n : EvName) (e : Event) : Event :=
  { e with name := n, block := x.block, obj := x.first, direct := false, umber := false,
           detail := [(eventTypeOf x.name : Nat), (x.count : Nat), (x.lanes : Nat), (x.last : Nat)] }

/-- A record reaches the window of its type (R305). True: it is forwarded individually. -/
def State.stormTake (s : State) (e : Event) : Bool × State :=
  if !stormOrigin e.obj then (true, s)
  else
    let others := s.hub.storms.filter (·.name != e.name)
    let put (x : Storm) : State := { s with hub.storms := others ++ [x] }
    let lanes := s.stormLanes e.obj
    let fresh : Storm := { name := e.name, block := e.block, first := e.obj, origins := [e.obj], count := 1, lanes := lanes, last := e.obj,
                           opened := e.tick + 63, holding := false }
    match s.hub.storms.find? (·.name == e.name) with
    | none => (true, put fresh)
    | some x =>
      let y := { x with count := min 65535 (x.count + 1), lanes := x.lanes ||| lanes, last := e.obj }
      if x.holding then (false, put y)
      else if x.opened < e.tick then (true, put fresh)
      else
        let origins := if x.origins.contains e.obj then x.origins else x.origins ++ [e.obj]
        if origins.length < 8 then (true, put { y with origins := origins })
        else (false, (put { y with origins := origins, count := 0, lanes := 0, last := 0, holding := true }).toHost
          (y.record .COMMON_CAUSE e))

/-- Stoker takes the oldest record of the event queue (R550), once the records it holds are written. -/
def State.forwardEvent (s : State) : State :=
  if !s.stokerUp then s
  else
    let s := s.evRetry
    match s.hub.evHeld, s.hub.evq with
    | [], e :: r =>
      let s := ({ s with hub.evq := r }).wf F.HUB_EVQ_STAT_DEPTH (evqDepth r)
      let x := s.stormTake e
      let s := if x.1 then x.2.toHost e else x.2
      if eventSamples e.name then (eventRecords e).foldl (fun s ws => s.evWrite false ws) s else s
    | _, _ => s

def execStokerForwardEvent (s : State) : Host.Outcome State Fault Refusal := .next s.forwardEvent

/-- The hold-off of an event type ends (R305). -/
def State.stormEnd (s : State) (n : EvName) : State :=
  match s.hub.storms.find? fun x => x.name == n && x.holding with
  | none => s
  | some x =>
    if !s.stokerUp then s
    else { s with hub.storms := s.hub.storms.filter (·.name != n) }.toHost
      (x.record .COMMON_CAUSE_END (s.mkEvent .COMMON_CAUSE_END 0 0 []))

def execCommonCauseEnd (n : EvName) (s : State) : Host.Outcome State Fault Refusal := .next (s.stormEnd n)

/-- A block presents a record (R550). -/
def execEventRecord (n : EvName) (obj : Nat) (detail : List Int) (s : State) : Host.Outcome State Fault Refusal :=
  .next (s.emit n obj detail)

/-! ### Gap records (R455, R535) -/

/-- The oldest gap record goes to the two gap queues; it leaves the buffer once it is linked in both. A queue whose register has EN 0 asks
for nothing; with neither enabled the record stays. -/
def State.gapForward (s : State) : State :=
  match s.hub.gaps with
  | [] => s
  | g :: _ =>
    let a := s.flag F.CRD_GAPQ_EN
    let u := s.flag F.UPL_GAPQ_EN
    if !s.stokerUp || !(a || u) then s
    else
      let put (s : State) (done : Bool) (q : Nat) : Bool × State := if done then (true, s) else s.putPacket q (gapWords g)
      let x := put s (!a || s.hub.gapArchived) (s.f F.CRD_GAPQ_Q)
      let y := put x.2 (!u || s.hub.gapUplinked) (s.f F.UPL_GAPQ_Q)
      if x.1 && y.1 then { y.2 with hub.gaps := y.2.hub.gaps.drop 1, hub.gapArchived := false, hub.gapUplinked := false }.wf F.HUB_INT_RAW_GAP 1
      else { y.2 with hub.gapArchived := a && x.1, hub.gapUplinked := u && y.1 }

def execGapForward (s : State) : Host.Outcome State Fault Refusal := .next s.gapForward

/-! ### Restarts (R13, R117, R475, R478, R502, R535) -/

/-- CAUSE of STK_STAT for a restart (R543). -/
def restartCode : RestartCause → Nat
  | .watchdog => 2
  | .fault => 3
  | .activation => 4

/-- Stoker stops, and is held in reset: what it had in hand is lost, and nothing else stops. -/
def State.stokerStop (s : State) (c : RestartCause) : State :=
  let s := ((s.wf F.STK_STAT_STATE 0).wf F.STK_STAT_CAUSE (restartCode c)).bump F.STK_STAT_RESTARTS 1
  let s := if s.inReset 0 then s else s.domReset 0 (match c with | .watchdog => 4 | .fault => 2 | .activation => 3)
  let s := { s with hub.evHeld := [], hub.gapArchived := false, hub.gapUplinked := false,
                    umb.sessions := s.umb.sessions.map fun (x : Sess) => { x with kept := [] } }
  let s := if s.flag F.UMB_MBOX_STAT_BUSY && s.f F.UMB_MBOX_STAT_OWNER == 3 then s.mboxFree else s
  if s.loading && s.loadOwner == 3 then s.loadAbandon 0x1B else s

/-- A restart (R13); a watchdog restart during a trial gives the trial image up (R518). -/
def State.stokerRestart (s : State) (c : RestartCause) : State :=
  let s := s.stokerStop c
  if c = .watchdog ∧ s.umb.trialUp then s.revert 2 else s

def execStokerRestart (c : RestartCause) (s : State) : Host.Outcome State Fault Refusal := .next (s.stokerRestart c)

/-- The patch is copied, and Stoker is released into its trial (R517). -/
def State.stokerRelease (s : State) : State :=
  if !s.umb.copying then s
  else
    let s := match s.slotIn 2 2 with
      | some k => (s.wf (slotF k) 3).wf (verF 2) (s.hdr k).version
      | none => s
    { (((s.wf F.STK_STAT_STATE 1).domRelease 0).wf F.HUB_INT_RAW_STOKER 1) with
      umb.copying := false, umb.trialUp := true, umb.healthy := false }

def execStokerRelease (s : State) : Host.Outcome State Fault Refusal := .next s.stokerRelease

/-- A health report is missed (R518): Stoker restarts from the ACTIVE slot. -/
def State.trialLost (s : State) : State := if s.umb.trialUp then (s.stokerStop .watchdog).revert 2 else s

def execUpdateReverted (s : State) : Host.Outcome State Fault Refusal := .next s.trialLost

/-- Stoker runs again, or for the first time: the requests it had accepted are answered STOKER_RESTART (R13, R478). -/
def State.stokerRunning (s : State) : State :=
  if s.stokerUp || s.umb.thermal || s.umb.held || s.umb.copying then s
  else
    let first := !s.hub.stokerRan
    let s := s.wf F.STK_STAT_STATE (if s.umb.trialUp then 3 else 2)
    let s := if s.inReset 0 then s.domRelease 0 else s
    let s := if first then s else s.wf F.HUB_INT_RAW_STOKER 1
    let l := s.upl.runs
    l.foldl (fun s x => s.hcpAnswer x 2) { s with upl.runs := [], hub.stokerRan := true }

def execStokerRunning (s : State) : Host.Outcome State Fault Refusal := .next s.stokerRunning

end Sys2Proof.Machine
end

