-- ==== Sys2Proof/Machine/Boundary.lean ====
section
/-!
DEFINITION. The course of a tick (R33, R36 to R42, R57, R60, R79, R107, R582): the boundary with its rows in order, the start of the
hearths, the tail guard, and the first boundary after a start.
-/
namespace Sys2Proof.Machine

open Sys2Proof

/-! ### The tail guard (R41, R42, R60, R79, R107) -/

/-- Hearth `h` is aborted at the end of the budget (R41): USED reads as its cycles up to the stop. -/
def State.hearthAbort (s : State) (h : Nat) : State :=
  let x := s.hearth h
  if x.running then s.setHearth h { x with running := false, reps := [], used := s.f F.KLN_BUDGET_BUDGET } else s

/-- What the buffers still hold drains in the 64 cycles from core cycle `c` on, each entry in its hearth's slot (R72, R74). -/
def State.drainFrom (s : State) (c : Nat) : State := forNat 64 (fun s i => s.drainOne ((c + i) % 4)) s

/-- What hearth `h` shows of the tick, and KILN_FAULT (R79, R107). -/
def State.hearthShow (s : State) (h : Nat) : State :=
  let x := s.hearth h
  let s := (s.wf (F.KLN_Hn_USED_USED h) x.used).peak (F.KLN_Hn_PEAK_PEAK h) x.used
  let s := ((s.wf (F.KLN_Hn_FAULT_CODE h) x.faultCode).wf (F.KLN_Hn_FAULT_COUNT h) x.faultCount).wf (F.KLN_Hn_FAULT_PC h) x.faultPc
  if x.faultCount = 0 then s
  else if (match x.lastFault with | some t => decide (s.tick.num ≤ t + 1024) | none => false) then
    s.setHearth h { x with suppressed := x.suppressed + 1 }
  else
    (s.setHearth h { x with lastFault := some s.tick.num, suppressed := 0 }).emit .KILN_FAULT (objUnit h)
      [(x.faultCode : Nat), (x.faultPc : Nat), (x.faultCount : Nat), (x.suppressed : Nat)]

/-- Hearth `h` is cleared for the next tick (R60). -/
def State.hearthClear (s : State) (h : Nat) : State :=
  let x := s.hearth h
  s.setHearth h { hearth0 with lastFault := x.lastFault, suppressed := x.suppressed }

/-- The tail guard begins (R41, R42): a hearth that has not ended is aborted, posted entries drain, and the hearths are cleared. -/
def State.tailGuard (s : State) : State :=
  if s.genState ≠ 1 ∨ s.tick.inTail then s
  else
    let s := s.atCycle (s.cycles - 256)
    let miss := s.bankValid && (!s.kiln.started || [0, 1, 2, 3].any fun h => (s.hearth h).running)
    let s := [0, 1, 2, 3].foldl State.hearthAbort s
    let s := if miss then s.emit .KILN_MISS 0 [] else s
    let s := { s with tick.inTail := true }.drainFrom s.tick.cyc
    [0, 1, 2, 3].foldl State.hearthClear ([0, 1, 2, 3].foldl State.hearthShow s)

def execTailGuard (s : State) : Ans := .next s.tailGuard

/-- The hearths issue their first instructions at cycle 256, when a bank is active (R57, R60). -/
def State.kilnStart (s : State) : State :=
  if s.genState ≠ 1 ∨ s.kiln.started ∨ s.tick.inTail ∨ !s.bankValid then s
  else
    let entry := (s.bank s.activeBank).entry
    let s := [0, 1, 2, 3].foldl (fun s h =>
      let x := s.hearth h
      s.setHearth h { hearth0 with running := true, pc := entry.getD h 0, lastFault := x.lastFault, suppressed := x.suppressed }) (s.atCycle 256)
    { s with kiln.started := true }

def execKilnTickStart (s : State) : Ans := .next s.kilnStart

/-! ### The rows of a boundary (R37, R39, R52 to R54) -/

/-- The item is the arm of a trigger. -/
def SchedItem.arms (i : SchedItem) : Bool := decide (armAddr 0 ≤ i.addr)

/-- Items due at the boundary of tick `t` (R37, R52, R53). They stand in the order of their sequence numbers; those that are not late come by
scheduled tick first. -/
def State.itemsDue (s : State) (t : Nat) (late : Bool) (p : SchedItem → Bool) : List SchedItem :=
  let l := s.tick.items.filter fun i => i.late == late && p i && decide (i.due ≤ t)
  if late then l else sortOn (fun (i : SchedItem) => i.tick) l

/-- An item is applied at the boundary of tick `t` (R37, R52 to R54); a late one whose own boundary was passed over was skipped as well. -/
def State.itemApply (t : Nat) (s : State) (i : SchedItem) : State :=
  let s : State := { s with tick.items := s.tick.items.erase i }
  let d : List Int := [(i.seq : Nat), (i.tick : Nat), (t : Nat)]
  let s := if i.late then s.emit .SCHED_APPLIED_LATE 0 d else s
  let s := if i.due < t then s.emit .SCHED_SKIPPED 0 d else s
  if i.arms then s.armNow (i.addr - armAddr 0) else s.busWrite i.master i.addr i.data i.mask none

/-- Cycle 0: the tick number becomes `t`, and what is kept per tick changes over. -/
def State.tickHead (s : State) (t : Nat) : State :=
  let s := (s.pinsLast.spimTick t).edgTurn
  let time := b2n s.holdover + 2 * b2n (s.servo == 3) + 4 * b2n (s.flag F.PTN_STEW_STEWARD)
  { s with
    tick.prev := if s.tick.num = 0 then none else some s.tick.num, tick.num := t, tick.cyc := 0,
    tick.clock := max s.tick.clock (boundaryClock s.rate t), tick.inTail := false, tick.stagingClosed := false, tick.jump := none,
    front.cfgNow := [], kiln.started := false, kiln.route := s.kiln.shadow, kiln.outPrev := s.kiln.outNow, kiln.outNow := [],
    kiln.pinsNow := s.kiln.pinsNext, kiln.pinsNext := [], kiln.timeState := time }

/-- Cycles 1 to 168, in order (R39): settings that wait and ordinary writes, late writes, bank swaps, joins and leaves, arm times. -/
def State.boundaryRows (s : State) (t : Nat) : State :=
  let s := (s.calBoundary t).landHeld fun h => decide (h.due ≤ t)
  let s := ((s.itemsDue t false fun i => !i.arms).take 128).foldl (State.itemApply t) s
  let s := (s.itemsDue t true fun i => !i.arms).foldl (State.itemApply t) s
  let s := (s.swapBoundary t).chrSwapBoundary t
  let s := (s.joinBoundary t).disarmBoundary t
  ((s.itemsDue t false SchedItem.arms) ++ (s.itemsDue t true SchedItem.arms)).foldl (State.itemApply t) s

/-- What the blocks do at the boundary of tick `t` with the settings that now stand. -/
def State.boundaryBlocks (s : State) (t : Nat) : State :=
  let s := (s.calBoundary t).senseBoundary
  let s := forNat 36 State.estBoundary s
  let s := forNat 12 (fun s n => s.visitBoundary n t) s
  let s := s.front.slews.foldl (fun s x => s.calRefresh x.1 t) s
  let s := (s.codeBoundary t).detBoundary t
  let s := (s.skewBoundary t).applyBoundary t
  s.chrOn.foldl (fun s c => (s.chrJudge c).showFilling c) s

/-- An accepted ACTIVATE reaches its boundary (R517, R519): a Stoker patch is copied while Stoker is in reset, or Umber restarts into its
new image. -/
def State.activation (s : State) (t : Nat) : State :=
  match s.umb.act with
  | none => s
  | some (type, b) =>
    if t < b then s
    else
      let s := { s with umb.act := none }
      if type = 2 then { s.stokerRestart .activation with umb.copying := true }
      else
        let s := s.pageCommit
        let s := match s.slotIn 1 2 with | some k => s.wf (slotF k) 3 | none => s
        { s.wf F.UMB_STAT_LOG_READY 0 with umb.down := true }

/-- Work that waits is tried again at each boundary: held records of Stoker, refused packets, frames under the transmit fence, words of the SPI
slave port, and the extent commands and the epoch end that a restart of Stoker put off (R385, R434, R485). -/
def State.boundaryRetry (s : State) : State :=
  let s := if s.stokerUp then s.evRetry.extResume else s
  let s := if s.hub.stokerDeferred && s.stokerUp then { s with hub.stokerDeferred := false }.epochEnd else s
  let s := s.pressPump.cordPump.pumpReady
  (forNat 19 State.txPump s).spisDrain

/-- A bit of HUB_INT_SUM that has cleared may bring a NOTICE again (R479). -/
def State.noticeForget (s : State) : State := { s with hub.notified := s.hub.notified &&& s.intSum.toNat }

/-- The boundary of tick `t` (R39). -/
def State.boundary (s : State) (t : Nat) : State :=
  let s := (s.tickHead t).boundaryRows t
  let s := (s.boundaryBlocks t).servoTick
  let s := s.slateBoundary.timeMarkers
  ((s.activation t).boundaryRetry).noticeForget

/-- The next boundary of a running generator (R34, R37): with RUN 0 there is none, and the generator stops. A tick whose tail guard has not come has
it first. -/
def State.tickBoundary (s : State) : State :=
  if s.genState ≠ 1 then s
  else
    let s := s.tailGuard
    if s.f F.KLN_TICK_CTRL_RUN = 0 then s.pinsLast.stopNow
    else s.boundary (s.tick.jump.getD (s.tick.num + 1))

def execTickBoundary (s : State) : Ans := .next s.tickBoundary

/-- RUN is cleared and the tick that runs has been finished (R34). -/
def State.tickStop (s : State) : State :=
  if s.genState = 3 then s else ((s.wf F.KLN_TICK_CTRL_RUN 0).tailGuard.pinsLast).stopNow

def execTickStop (s : State) : Ans := .next s.tickStop

/-- The network second in which the generator starts: the first that begins strictly after the instant at which the condition holds (R33), and
not before the end of the last tick issued (R38). -/
def State.startSecond (s : State) : Nat :=
  max (s.tick.condAt.getD s.tick.clock / secUnits + 1) ((s.tick.stopEnd + secUnits - 1) / secUnits)

/-- The generator emits tick 0 of that network second (R33), with the gap records of the stop before it (R34). -/
def State.generatorStart (s : State) : State :=
  if !s.startReady ∨ s.umb.held ∨ s.umb.thermal then s
  else
    let sec := s.startSecond
    let t := s.rate * sec
    let s := s.tick.stopped.foldl (fun s c => s.idleGap .tickStop s.tick.stopEnd (sec * secUnits) (s.tick.stopTick + 1) (t - 1) c) s
    let s := { s with tick.stopped := [], tick.condAt := none, ptn.rateNoted := false }
    ((s.slewsCut t).wf F.KLN_TICK_STATE_STATE 1).boundary t

def execTickGeneratorStart (s : State) : Ans := .next s.generatorStart

end Sys2Proof.Machine
end

