-- ==== Sys2Proof/Machine/Resets.lean ====
section
/-!
DEFINITION. Resets of the hub and of Umber, the power-up, the thermal trip, and resets of single domains (R492 to R496, R526 to R536).
-/
namespace Sys2Proof.Machine

open Sys2Proof

/-! ### What survives a hub reset (R492 to R494, R501, R527) -/

/-- A word of the register space after a hub reset: UMB and the fences keep theirs, and so does RST_CAUSE; a register elsewhere keeps its RW-L
fields, which the configuration record restores. -/
def survivor (a : Nat) (w : Word) : Word :=
  if 2 ^ 32 ≤ a then resetWord a
  else if (0x10000 ≤ a ∧ a < 0x20000) ∨ a = Reg.RST_CAUSE then w
  else if a / 0x100000 = 0x13 then if a = Reg.FNC_HIT then resetWord a else w
  else match rowOf a with
    | some (r, _) => merge (resetWord a) w (BitVec.ofNat 32 r.rwl)
    | none => resetWord a

/-- BOOT rises (R493); with no readable configuration record it starts from the next generation fuse (R494). -/
def State.bootNext (s : State) : State :=
  if s.umb.recordOk then s.wf F.UMB_BOOT_BOOT ((s.f F.UMB_BOOT_BOOT + 1) % 2 ^ 32)
  else
    let g := s.umb.genFuses + 1
    { s with umb.genFuses := g, umb.recordOk := true }.wf F.UMB_BOOT_BOOT (g * 2 ^ 24 + 1)

/-- Umber's part in a hub reset: the mailbox is released, an activation and a trial of a Stoker image end (R502, R518), and the kept responses
are lost. -/
def State.umberHubReset (s : State) : State :=
  let s := if s.flag F.UMB_MBOX_STAT_BUSY && s.f F.UMB_MBOX_STAT_OWNER != 4 then s.mboxFree else s
  let s := match s.slotIn 2 3 with
    | some k =>
      let s := s.wf (slotF k) 2
      match s.slotIn 2 4 with | some a => s.wf (verF 2) (s.hdr a).version | none => s
    | none => s
  { s with umb.act := none, umb.copying := false, umb.trialUp := false, umb.healthy := false,
           umb.sessions := s.umb.sessions.map fun (x : Sess) => { x with kept := [] } }

/-- Every domain but UMB is reset: the rest of the state is as right after reset. XREF_SEL and the compatibility strap are sampled (R520, R481). -/
def State.hubClear (s : State) (sel25 compat : Bool) : State :=
  let r := State.reset
  let c := s.rd Reg.CLK_STAT
  let s' : State := { r with
    mem := s.mem.foldl (fun m e => tabSet resetWord m e.1 (survivor e.1 e.2)) [],
    hub := { r.hub with sent := s.hub.sent, rdata := s.hub.rdata, freeCtr := s.hub.freeCtr },
    upl := { r.upl with rx := s.upl.rx }, spi := { r.spi with compat := compat }, umb := s.umb, pending := s.pending }
  let held := 0xE0400000#32
  s'.wr Reg.CLK_STAT ((c &&& held) ||| 0x17000000#32 ||| BitVec.ofNat 32 (b2n sel25))

/-- A hub reset: STK_STAT holds its cause, BOOT rises, and Stoker stays in reset. -/
def State.hubRestart (s : State) (sel25 compat : Bool) : State :=
  (s.umberHubReset.hubClear sel25 compat).bootNext.wf F.STK_STAT_CAUSE 1

/-- RST_CAUSE bit of a hub reset, and its number in HUB_RESET (R527). -/
def causeBit : HubResetCause → Nat
  | .por => 0
  | .pin => 1
  | .thermal => 2
  | .jtag => 3

/-- A hub reset with its cause (R527). -/
def State.hubReset (s : State) (c : HubResetCause) (sel25 compat : Bool) : State :=
  let s := s.hubRestart sel25 compat
  (s.wr Reg.RST_CAUSE (s.rd Reg.RST_CAUSE ||| BitVec.ofNat 32 (2 ^ causeBit c))).umberEvent .HUB_RESET 0 [(causeBit c : Nat)]

/-- RESET_N is ignored in RETIRED, where the hub stays in reset (R509, R527). -/
def execHubReset (c : HubResetCause) (sel25 compat : Bool) (s : State) : Host.Outcome State Fault Refusal :=
  .next (if s.umb.held then s else s.hubReset c sel25 compat)

/-! ### The thermal trip (R496) -/

def State.thermalTrip (s : State) (sel25 compat : Bool) : State :=
  if s.umb.thermal then s
  else
    let s := (s.umberEvent .THERMAL_TRIP 0 []).hubReset .thermal sel25 compat
    { s with umb.thermal := true }

def execThermalTrip (sel25 compat : Bool) (s : State) : Host.Outcome State Fault Refusal := .next (s.thermalTrip sel25 compat)

/-- Every die sensor reads below 105 °C, in 1/16 °C. -/
def State.dieCool (s : State) : Bool := (List.range 8).all fun k => decide (s.fs (F.UMB_SENSs_VALUE k) < 1680)

def execThermalRelease (s : State) : Host.Outcome State Fault Refusal :=
  .next (if s.dieCool then { s with umb.thermal := false } else s)

/-! ### Resets of Umber (R492, R499, R506, R526) -/

/-- UMB registers that the configuration record, the log or OTP hold. -/
def umberKept (a : Nat) : Bool :=
  a == Reg.UMB_STAT || a == Reg.UMB_BOOT || a == Reg.UMB_LOG_SEQ_LO || a == Reg.UMB_LOG_SEQ_HI || a == Reg.UMB_VER_U || a == Reg.UMB_VER_S
    || a == Reg.UMB_SVN || a == Reg.UMB_SLOTS || (decide (Reg.UMB_DEVPUB 0 ≤ a) && decide (a < Reg.UMB_DEVPUB 25))

/-- Umber is reset: what it keeps in RAM is lost, a page being written is left broken, and a trial of an Umber image ends (R519). -/
def State.umberReset (s : State) : State :=
  let u := s.umb
  let s : State := { s with
    mem := s.mem.foldl (fun m e => tabSet resetWord m e.1
      (if decide (0x10000 ≤ e.1) && decide (e.1 < 0x20000) && !umberKept e.1 then resetWord e.1 else e.2)) [],
    umb := { u with logBuf := [], lostOpen := false, writing := none, broken := match u.writing with | some p => some p | none => u.broken,
                    sessions := [], inq := [], upd := none, act := none, trialUp := false, healthy := false, copying := false, down := false,
                    absentNoted := false, held := decide (s.lc = 4), sens := [], nack := [] } }
  ((s.wf F.UMB_STAT_LOG_READY 0).wf F.UMB_STAT_SESSIONS 0).revert 1

/-- Umber makes the device key pair at its first power-up in BLANK (R506): the public key is a free value. -/
def State.makeDeviceKey (s : State) : State :=
  if s.umb.devKey || s.lc != 0 then s
  else
    let r := { s with umb.devKey := true }.freeWords 25
    (r.1.zip (List.range 25)).foldl (fun s p => s.wr (Reg.UMB_DEVPUB p.2) (if p.2 = 24 then p.1 &&& 0xFF#32 else p.1)) r.2

/-- VAON comes up (R526): Umber starts, and the hub with it. -/
def State.powerUp (s : State) (refOk sel25 compat : Bool) : State :=
  let s := { s.umberReset with umb.thermal := false }.makeDeviceKey.hubReset .por sel25 compat
  let c := s.rd Reg.CLK_STAT
  s.wr Reg.CLK_STAT ((c &&& 0x1FBFFFFF#32) ||| BitVec.ofNat 32 (0xA0000000 + b2n refOk * 0x40000000))

def execPowerUp (refOk sel25 compat : Bool) (s : State) : Host.Outcome State Fault Refusal := .next (s.powerUp refOk sel25 compat)

/-- UMB_RST_N resets Umber, and the hub is held in reset with it (R492, R527). -/
def execUmbRst (sel25 compat : Bool) (s : State) : Host.Outcome State Fault Refusal := .next (s.umberReset.hubRestart sel25 compat)

/-! ### Domains (R529, R532) -/

/-- Domain `d` is reset alone. -/
def State.domainReset (s : State) (d : Domain) : State :=
  match d with
  | .stk => s.stokerRestart .fault
  | .tile t => s.tileReset t 0
  | .smp => if s.flag F.CLK_STAT_SMP_LOCK then ((s.wf F.CLK_STAT_SMP_LOCK 0).emit .SMP_UNLOCK 0 []).condNote.smpReset 0 else s
  | .lane l => s.domReset (16 + l) 0
  | .up u => s.domReset (8 + u) 0
  | .slt => s.sltReset 2
  | .pcie => s.pcieReset 2
  | .ddr => s.ddrReset 2

def execDomainReset (d : Domain) (s : State) : Host.Outcome State Fault Refusal := .next (s.domainReset d)

/-- The reset of domain `d` is released; the sample clock's once the synthesiser has locked again (R525). -/
def State.domainRelease (s : State) (d : Domain) : State :=
  match d with
  | .stk => s.domRelease 0
  | .tile t => s.tileRelease t
  | .smp => if s.flag F.CLK_STAT_SMP_LOCK then s.smpRelease else s
  | .lane l => s.domRelease (16 + l)
  | .up u => s.domRelease (8 + u)
  | .slt => s.domRelease 10
  | .pcie => s.domRelease 7
  | .ddr => s.domRelease 6

def execDomainResetRelease (d : Domain) (s : State) : Host.Outcome State Fault Refusal := .next (s.domainRelease d)

/-! ### Clock inputs (R522 to R524) -/

def execXrefLost (s : State) : Host.Outcome State Fault Refusal :=
  .next (if s.flag F.CLK_STAT_XREF_OK then ((s.wf F.CLK_STAT_XREF_OK 0).wf F.CLK_STAT_CORE_HOLD 1).umberEvent .XREF_LOST 0 [] else s)

def execXrefOk (s : State) : Host.Outcome State Fault Refusal :=
  .next (if s.flag F.CLK_STAT_XREF_OK then s else ((s.wf F.CLK_STAT_XREF_OK 1).wf F.CLK_STAT_CORE_HOLD 0).umberEvent .XREF_OK 0 [])

def execRefclkLost (s : State) : Host.Outcome State Fault Refusal :=
  .next (if s.flag F.CLK_STAT_REF_OK then (s.wf F.CLK_STAT_REF_OK 0).lanesRefLost.emit .REFCLK_LOST 0 [] else s)

def execRefclkOk (s : State) : Host.Outcome State Fault Refusal :=
  .next (if s.flag F.CLK_STAT_REF_OK then s else (s.wf F.CLK_STAT_REF_OK 1).emit .REFCLK_OK 0 [])

def execUxtalLost (s : State) : Host.Outcome State Fault Refusal :=
  .next (if s.flag F.CLK_STAT_UXTAL_OK then ((s.wf F.CLK_STAT_UXTAL_OK 0).wf F.CLK_STAT_UMB_RC 1).umberEvent .UXTAL_LOST 0 [] else s)

/-- Umber returns to the crystal. -/
def execUxtalOk (s : State) : Host.Outcome State Fault Refusal :=
  .next ((s.wf F.CLK_STAT_UXTAL_OK 1).wf F.CLK_STAT_UMB_RC 0)

end Sys2Proof.Machine
end

