-- ==== Sys2Proof/Machine/Life.lean ====
section
/-!
DEFINITION. The life cycle (R508, R509): LC_CHANGE and the expiry of SERVICE.
-/
namespace Sys2Proof.Machine

open Sys2Proof

/-- The result of LC_CHANGE from state `old` to `dst` (R508): 0 OK, 1 DENIED, 2 STATE, 3 BAD_ARG. -/
def State.lcCode (s : State) (x : Sess) (dst timeout : Nat) : Nat :=
  let old := s.lc
  let listed := decide (dst = 4) || (old, dst) ∈ [(0, 1), (1, 0), (1, 2), (2, 3), (3, 2), (3, 1)]
  if !listed then 2
  else if !x.can (if dst = 4 then 9 else 7) then 1
  else if dst = 4 then 0
  else if old = 2 then if timeout < 60 ∨ 86400 < timeout then 3 else 0
  else if old = 0 then if x.bench && s.umb.keys.any (·.2.isSome) then 0 else 2
  else 0

/-- RETIRED: every key and session is wiped, and then the hub, which stays in reset (R508, R509). -/
def State.retire (s : State) : State :=
  let s := ({ s with umb.devKey := false, umb.keys := [], umb.trigKey := none }.endSessions fun _ => true).umberHubReset
  let s := s.hubClear (s.flag F.CLK_STAT_XREF_25) s.spi.compat
  { s with umb.held := true }

/-- What a transition wipes and closes (R508); `x` is the requesting session. -/
def State.lcWipe (s : State) (x : Sess) (old dst : Nat) : State :=
  if dst = 4 then s.retire
  else if old = 0 then s.endSessions (·.bench)
  else if old = 1 ∧ dst = 0 then { s with umb.keys := [], umb.trigKey := none }.endSessions fun _ => true
  else if old = 2 then s.endSessions (·.id != x.id)
  else if old = 3 ∧ dst = 2 then s.endSessions (·.can 8)
  else if old = 3 then { s with umb.trigKey := none }.endSessions fun _ => true
  else s

/-- LC_CHANGE (R508): a refusal changes nothing. -/
def State.lcChange (s : State) (dst timeout : Nat) : State :=
  s.umbOp 0x40 none [0, 1, 2, 3] fun _ x s =>
    let code := s.lcCode x dst timeout
    if code ≠ 0 then (code, [], s)
    else
      let old := s.lc
      let s := (s.wf F.UMB_STAT_LC dst).umberEvent .LC_CHANGED 0 [(old : Nat), (dst : Nat), (x.key : Nat)]
      (0, [], s.lcWipe x old dst)

def execLcChange (dst timeout : Nat) (s : State) : Host.Outcome State Fault Refusal := .next (s.lcChange dst timeout)

/-- SERVICE expires (R508); no operator asks for it, so the key slot in LC_CHANGED is a free value. -/
def State.serviceTimeout (s : State) : State :=
  if s.lc ≠ 3 then s
  else
    let r := s.free
    ((r.2.wf F.UMB_STAT_LC 2).umberEvent .LC_CHANGED 0 [3, 2, r.1]).endSessions (·.can 8)

def execServiceTimeout (s : State) : Host.Outcome State Fault Refusal := .next s.serviceTimeout

end Sys2Proof.Machine
end

