-- ==== Sys2Proof/Machine/Mirror.lean ====
section
/-!
DEFINITION. The Slate link between the two hubs of a pair (R302 to R304, R375): applying the steward's mirror records, and sending
the whole state when the link returns.
-/
namespace Sys2Proof.Machine

open Sys2Proof

/-- The partner number of a serial. -/
def State.partnerOf (s : State) (serial : Nat) : Option Nat :=
  (s.ptn.partners.find? fun e => match e.2 with | some x => x.serial == serial | none => false).map (·.1)

/-- The sequence base at tick `j'` of a channel whose base at tick `j` is `base`. -/
def State.laterBase (s : State) (rate : Nat) (theta : Int) (base j j' : Nat) : Nat :=
  let n := max 1 s.rate
  (base + firstIndex rate (theta * 65536) (boundaryClock n j') - firstIndex rate (theta * 65536) (boundaryClock n j)) % 2 ^ 32

/-- A NODE_CFG record (R303), by its STATE: the identity attaches to a slot of this hub's choice at J, takes a changed rate or NCFG, or leaves at
Lv. -/
def State.mirrorNode (s : State) (serial ch state rate : Nat) (ncfg : Word) (tick base : Nat) : State :=
  let s := { s with ptn.syncing := s.ptn.syncing.map fun l => (serial, ch) :: l }
  match s.partnerOf serial with
  | none => s
  | some p => match s.partner p with
    | none => s
    | some x =>
      let mine := s.slotOf serial ch
      if state = 1 ∨ state = 2 then
        match mine.filter fun c => s.slotState c == 2 with
        | some c =>
          let y := s.slot c
          if y.joined then
            if s.slotAsked c = (rate, ncfg) then s
            else s.setSlot c (some { y with sets := y.sets ++ [SlotSetting.mk 0 (max tick (s.tick.num + 1)) rate none (some ncfg)] })
          else
            let j := if tick ≤ s.tick.num then y.join else tick
            let base := s.laterBase y.rate y.theta base tick j
            let first := firstIndex (max 1 y.rate) (y.theta * 65536) (boundaryClock (max 1 s.rate) j)
            (((s.setSlot c (some { y with join := j, base := base, next := first })).wr (Reg.PTN_SLs_JOIN c) (BitVec.ofNat 32 j)).wr
              (Reg.PTN_SLs_SEQ c) (BitVec.ofNat 32 (base + 2 ^ 32 - 1)))
        | none =>
          match s.chooseSlot serial ch with
            | none => s
            | some c =>
              let lane := x.home.1
              if !s.slotFits c rate lane then s.envExceeded c (Reg.PTN_SLs_STAT c) 0
              else
                let late := decide (tick ≤ s.tick.num)
                let j := if late then s.tick.num + 2 else tick
                let theta := match x.chans.find? fun d => d.ch == ch with | some d => d.theta | none => 0
                let s := if late then s.emit .MIRROR_LATE (objPartner p) [(c : Int), (tick : Int), (j : Int)] else s
                let s := s.wr (Reg.PTN_SLs_NCFG c) ncfg
                s.attach { op := 1, partner := p, slot := c, ch := ch, arg0 := rate, arg1 := ncfg, rateReg := none, ncfgReg := none,
                           tick := j, mseq := 0, cseq := 0, repeats := 0 } x (s.laterBase rate theta base tick j)
      else match mine with
        | none => s
        | some c =>
          let t := max tick (s.tick.num + 1)
          (s.wf (F.PTN_SLs_STAT_STATE c) 3).setSlot c (some { s.slot c with leave := some t })

/-- A COEFF record (R205): kept under the identity, and applied from the tick at which slewing starts, which may lie a little back; words whose
instants lie there have not reached Charcoal yet. Its TRACE is SYSTEM (log entry 122). -/
def State.mirrorCoeff (s : State) (serial ch : Nat) (g b : Int) (record : List Word) (tick : Nat) : State :=
  let rest := s.front.remCal.filter fun x => !(x.serial == serial && x.nodeCh == ch)
  let e : RemoteCal := { serial := serial, nodeCh := ch, g := g, b := b, record := record, trace := 1 }
  let s := { s with front.remCal := (e :: rest).take 4096 }
  match s.slotOf serial ch with
  | none => s
  | some c =>
    let s := (List.range 4).foldl (fun s i => s.wr (Reg.CAL_CH_CERT c i) (record.getD i 0#32)) s
    let s := (s.wr (Reg.CAL_CH_TICK_LO c) (record.getD 4 0#32)).wr (Reg.CAL_CH_TICK_HI c) (record.getD 5 0#32)
    let s := (s.wr (Reg.CAL_CH_TEMP c) (record.getD 6 0#32)).wr (Reg.CAL_CH_AFE c) (record.getD 7 0#32)
    (s.wf (F.CAL_CH_CTRL_TRACE c) 1).applyPair c tick g b

/-- SYNC_END (R304): what the steward did not send is released, and the copy is in step. -/
def State.syncEnd (s : State) : State :=
  let sent := s.ptn.syncing.getD []
  let gone := s.usedSlots.filter fun c => s.slotState c != 0 &&
    !(sent.contains ((s.rd (Reg.PTN_SLs_ID c)).toNat, s.f (F.PTN_SLs_STAT_NODE_CH c)))
  let s := gone.foldl (fun s c => s.leaveNow c) s
  let s := if gone.isEmpty then s else s.emit .MIRROR_OVERWRITTEN 0 [(gone.length : Int)]
  { s with ptn.syncing := none }.wf F.PTN_STEW_SYNCED 1

/-- A mirror record takes effect. -/
def State.mirrorApply (s : State) (r : MirrorIn) : State :=
  match r with
  | .nodeCfg serial ch state rate ncfg tick base => s.mirrorNode serial ch state rate ncfg tick base
  | .coeff serial ch g b record tick => s.mirrorCoeff serial ch g b record tick
  | .epoch e _ => { s with ptn.peerEpoch := e }
  | .arm netid st armTick pre post tf orig => s.armMirror netid st armTick pre post tf orig
  | .syncBegin => { s with ptn.syncing := some [] }.wf F.PTN_STEW_SYNCED 0
  | .syncEnd _ => s.syncEnd

/-- A mirror record arrives (R303): the peer applies records in MSEQ order; SYNC_BEGIN starts the order anew. -/
def State.mirrorRecord (s : State) (mseq : Nat) (r : MirrorIn) : State :=
  if s.steward || !s.flag F.PTN_CTRL_PAIR then s
  else if mseq = (s.ptn.applied + 1) % 2 ^ 32 ∨ r = .syncBegin then { s with ptn.applied := mseq % 2 ^ 32 }.mirrorApply r
  else s

def execMirrorRecord (mseq : Nat) (r : MirrorIn) (s : State) : Host.Outcome State Fault Refusal := .next (s.mirrorRecord mseq r)

/-- The steward sends every record of its current state (R304). -/
def State.mirrorAll (s : State) : State :=
  let first := s.hub.mirrorOut.length
  let s := s.mirror 0x05 []
  let s := s.usedSlots.foldl (fun s c =>
    let x := s.slot c
    if s.slotState c = 0 then s
    else s.mirror 0x01 [((s.rd (Reg.PTN_SLs_ID c)).toNat : Int), (s.f (F.PTN_SLs_STAT_NODE_CH c) : Int), (s.slotState c : Int), (x.rate : Int),
      ((s.rd (Reg.PTN_SLs_NCFG c)).toNat : Int), (x.leave.getD x.join : Int), (x.base : Int)]) s
  let s := s.front.remCal.foldl (fun s e =>
    s.mirror 0x02 ([(e.serial : Int), (e.nodeCh : Int), e.g, e.b, (s.tick.num : Int)] ++ e.record.map fun w => (w.toNat : Int))) s
  let s := s.mirror 0x03 [(s.f F.PTN_EPOCH_EPOCH : Int), (s.tick.num : Int)]
  let s := (List.range 64).foldl (fun s u => s.mirrorTrig u (s.trigState u)) s
  s.mirror 0x06 [((s.hub.mirrorOut.length - first : Nat) : Int)]

/-- The Slate link returns (R304). -/
def State.slateUp (s : State) : State :=
  if !s.flag F.PTN_CTRL_PAIR then s
  else
    let s := { s with ptn.clashNoted := false }.wf F.PTN_STEW_SLATE_UP 1
    if s.steward then s.mirrorAll else s.wf F.PTN_STEW_SYNCED 0

def execSlateUp (s : State) : Host.Outcome State Fault Refusal := .next s.slateUp

end Sys2Proof.Machine
end

