-- ==== Sys2Proof/Machine/Restep.lean ====
section
/-!
DEFINITION. The restep (R37, R38, R326 to R328): its application at the end of its tick, the gap records of the ticks passed over or of the
hold, and the end of a hold.
-/
namespace Sys2Proof.Machine

open Sys2Proof

/-- The gap record of channel `c` for a hold in which the hub clock runs from `lo` to `hi` a second time (R38): it names the last tick completed.
A remote channel's SEQ is its next sequence number, since none is lost (R327). -/
def State.holdGap (lo hi : Nat) (s : State) (c : Nat) : State :=
  if c < 96 then
    match s.convGap c .restep lo hi with
    | some g => s.gap { g with firstTick := s.tick.num, lastTick := s.tick.num }
    | none => s
  else
    let x := s.slot c
    let r := max 1 x.rate
    let th := x.theta * 65536
    let a := firstIndex r th lo
    let b := firstIndex r th hi
    let ro := let o := s.outRate true c; if o = 0 then r else o
    if b ≤ a then s
    else
      let i := a * ro / r
      let j := (b - 1) * ro / r
      s.gap { ch := c, cause := .restep, queueWide := false, conv := false, merged := false, inexact := false, queue := 0xFFFF,
              firstTick := s.tick.num, lastTick := s.tick.num, firstSec := i / ro, firstIdx := i % ro, lastSec := j / ro,
              lastIdx := j % ro, seq := s.seqAt c b, count := b - a }

/-- The step that is to be taken: STEP in MODE 0, the negated filtered offset in MODE 1. -/
def State.restepStep (s : State) : Int := if s.ptp.mode then -s.ofs else s.restepVal

/-- The first of codes 3, 5 and 6 that a step meets at its application (R326); 0 when it passes. -/
def State.restepCheck (s : State) (step : Int) : Nat :=
  if !s.flag F.PTP_RESTEP_AUTH_VALID then 3
  else if s.restepOut step then 5
  else if s.servo ≠ 2 ∧ s.servo ≠ 3 then 6
  else 0

/-- The generator follows a step from hub clock `old`: it passes over ticks, or holds; a step of less than 1 ns does neither (R37, R38, R326). -/
def State.restepTicks (s : State) (old : Nat) (step : Int) : State :=
  let new := s.tick.clock
  if step.natAbs < 65536 then s
  else if 0 < step then
    let j := tickAtOrAfter s.rate new
    let s := { s with tick.jump := some j }.launchStep old new
    if j ≤ s.tick.num + 1 then s
    else s.activeList.foldl (fun s c => s.idleGap .restep (boundaryClock s.rate (s.tick.num + 1)) (boundaryClock s.rate j) (s.tick.num + 1)
      (j - 1) c) s
  else s.activeList.foldl (State.holdGap new old) (s.wf F.KLN_TICK_STATE_STATE 2)

/-- The armed step is applied at the end of its tick (R326). -/
def State.restepApply (s : State) : State :=
  if !s.restepArmed ∨ s.genState ≠ 1 ∨ s.tick.num ≠ s.restepTick then s
  else
    let s := s.tailGuard.pinsLast
    let step := s.restepStep
    let code := s.restepCheck step
    if code ≠ 0 then (s.restepRefuse code).emit .RESTEP_REFUSED 0 [(code : Nat)]
    else
      let s := s.edgCut
      let old := max s.tick.clock (boundaryClock s.rate (s.tick.num + 1))
      let s : State := { s with tick.clock := ((old : Int) + step).toNat, ptp.stepMark := true }
      let s := ((s.restepTicks old step).setOfs (s.ofs + step)).portsStep step
      let s := ((s.wf F.PTP_RESTEP_STAT_RESULT 2).wf F.PTP_RESTEP_AUTH_VALID 0).wf64 F.PTP_RESTEP_DONE_LO_TICK F.PTP_RESTEP_DONE_HI_TICK
        s.tick.num
      let s := s.emit .RESTEP_DONE 0 [step, (s.tick.num : Nat)]
      let dst := if s.ofs.natAbs ≤ s.lockThr then 2 else 3
      if s.servo ≠ dst then s.servoEnter dst 0 else if dst = 3 then s.timeOffset else s

def execRestepApply (s : State) : Ans := .next s.restepApply

/-- Network time reaches the end of the last completed tick again: ticks resume with the next number (R38). -/
def State.holdResume (s : State) : State :=
  if s.genState ≠ 2 then s else (s.wf F.KLN_TICK_STATE_STATE 1).boundary (s.tick.num + 1)

def execHoldResume (s : State) : Ans := .next s.holdResume

end Sys2Proof.Machine
end

