-- ==== Sys2Proof/Machine/Dispatch.lean ====
section
/-!
DEFINITION. The dispatch of a command to its meaning, one arm per constructor.
-/
namespace Sys2Proof.Machine

open Sys2Proof

def exec (i : Instr) (s : State) : Host.Outcome State Fault Refusal :=
  match i with
  | .tickBoundary => Sys2Proof.Machine.execTickBoundary s
  | .stagingClose meas => Sys2Proof.Machine.execStagingClose meas s
  | .kilnTickStart => Sys2Proof.Machine.execKilnTickStart s
  | .tailGuard => Sys2Proof.Machine.execTailGuard s
  | .kilnParity h => Sys2Proof.Machine.execKilnParity h s
  | .nop h p => Sys2Proof.Machine.execNop h p s
  | .br h p off => Sys2Proof.Machine.execBr h p off s
  | .skip h p n => Sys2Proof.Machine.execSkip h p n s
  | .rep h p count len => Sys2Proof.Machine.execRep h p count len s
  | .waitc h p cyc => Sys2Proof.Machine.execWaitc h p cyc s
  | .endTick h p => Sys2Proof.Machine.execEndTick h p s
  | .ldi h p d hi imm => Sys2Proof.Machine.execLdi h p d hi imm s
  | .gets h p d sel => Sys2Proof.Machine.execGets h p d sel s
  | .alu h p d sr t fn => Sys2Proof.Machine.execAlu h p d sr t fn s
  | .addi h p d sr imm => Sys2Proof.Machine.execAddi h p d sr imm s
  | .andi h p d sr imm => Sys2Proof.Machine.execAndi h p d sr imm s
  | .ori h p d sr imm => Sys2Proof.Machine.execOri h p d sr imm s
  | .xori h p d sr imm => Sys2Proof.Machine.execXori h p d sr imm s
  | .shli h p d sr sh => Sys2Proof.Machine.execShli h p d sr sh s
  | .shri h p d sr sh => Sys2Proof.Machine.execShri h p d sr sh s
  | .srai h p d sr sh => Sys2Proof.Machine.execSrai h p d sr sh s
  | .mul h p a sr t u => Sys2Proof.Machine.execMul h p a sr t u s
  | .mac h p a sr t u neg => Sys2Proof.Machine.execMac h p a sr t u neg s
  | .clra h p a => Sys2Proof.Machine.execClra h p a s
  | .lda h p a sr t => Sys2Proof.Machine.execLda h p a sr t s
  | .mva h p d a sh rnd => Sys2Proof.Machine.execMva h p d a sh rnd s
  | .cmp h p f sr t c => Sys2Proof.Machine.execCmp h p f sr t c s
  | .cmpi h p f sr imm c => Sys2Proof.Machine.execCmpi h p f sr imm c s
  | .flop h p f a b fn => Sys2Proof.Machine.execFlop h p f a b fn s
  | .tstb h p f sr bit => Sys2Proof.Machine.execTstb h p f sr bit s
  | .swd h p d sr t fn => Sys2Proof.Machine.execSwd h p d sr t fn s
  | .ld h p d sr imm => Sys2Proof.Machine.execLd h p d sr imm s
  | .st h p t sr imm => Sys2Proof.Machine.execSt h p t sr imm s
  | .ld64 h p a sr imm => Sys2Proof.Machine.execLd64 h p a sr imm s
  | .st64 h p a sr imm => Sys2Proof.Machine.execSt64 h p a sr imm s
  | .scnt h p d c view => Sys2Proof.Machine.execScnt h p d c view s
  | .srd h p d c ix => Sys2Proof.Machine.execSrd h p d c ix s
  | .strd h p d c ix => Sys2Proof.Machine.execStrd h p d c ix s
  | .route h p c q => Sys2Proof.Machine.execRoute h p c q s
  | .enq h p q v eop => Sys2Proof.Machine.execEnq h p q v eop s
  | .qdep h p d q => Sys2Proof.Machine.execQdep h p d q s
  | .schd h p d sr t off => Sys2Proof.Machine.execSchd h p d sr t off s
  | .fire h p u c ix mode => Sys2Proof.Machine.execFire h p u c ix mode s
  | .pins h p m v o => Sys2Proof.Machine.execPins h p m v o s
  | .spix h p k m => Sys2Proof.Machine.execSpix h p k m s
  | .sig h p imm => Sys2Proof.Machine.execSig h p imm s
  | .hpw h p port sr t off => Sys2Proof.Machine.execHpw h p port sr t off s
  | .hpr h p d port sr off => Sys2Proof.Machine.execHpr h p d port sr off s
  | .postedDrain h => Sys2Proof.Machine.execPostedDrain h s
  | .pinsApply cyc => Sys2Proof.Machine.execPinsApply cyc s
  | .registerWrite m addr data => Sys2Proof.Machine.execRegisterWrite m addr data s
  | .busAddrAccess m addr write => Sys2Proof.Machine.execBusAddrAccess m addr write s
  | .tickLoRead m now => Sys2Proof.Machine.execTickLoRead m now s
  | .tramBusRead m w => Sys2Proof.Machine.execTramBusRead m w s
  | .tickRateSet m rate run => Sys2Proof.Machine.execTickRateSet m rate run s
  | .tickRunStart m => Sys2Proof.Machine.execTickRunStart m s
  | .tickStop => Sys2Proof.Machine.execTickStop s
  | .tickGeneratorStart => Sys2Proof.Machine.execTickGeneratorStart s
  | .schedCommit m lateOk cancel => Sys2Proof.Machine.execSchedCommit m lateOk cancel s
  | .schedCancel m => Sys2Proof.Machine.execSchedCancel m s
  | .loadStart m bank abort => Sys2Proof.Machine.execLoadStart m bank abort s
  | .loadAbort m => Sys2Proof.Machine.execLoadAbort m s
  | .loadData m data => Sys2Proof.Machine.execLoadData m data s
  | .loadTimeout => Sys2Proof.Machine.execLoadTimeout s
  | .loadCheckDone => Sys2Proof.Machine.execLoadCheckDone s
  | .bankWrite m bank word => Sys2Proof.Machine.execBankWrite m bank word s
  | .swapRequest m bank => Sys2Proof.Machine.execSwapRequest m bank s
  | .tileLinkFrame t n ok => Sys2Proof.Machine.execTileLinkFrame t n ok s
  | .tileDown t => Sys2Proof.Machine.execTileDown t s
  | .tileUp t => Sys2Proof.Machine.execTileUp t s
  | .stokerRestart cause => Sys2Proof.Machine.execStokerRestart cause s
  | .eventRecord n obj detail => Sys2Proof.Machine.execEventRecord n obj detail s
  | .stokerForwardEvent => Sys2Proof.Machine.execStokerForwardEvent s
  | .commonCauseEnd n => Sys2Proof.Machine.execCommonCauseEnd n s
  | .gapForward => Sys2Proof.Machine.execGapForward s
  | .settleEnd c => Sys2Proof.Machine.execSettleEnd c s
  | .cmCheck c mv => Sys2Proof.Machine.execCmCheck c mv s
  | .excComply x => Sys2Proof.Machine.execExcComply x s
  | .excLimit d => Sys2Proof.Machine.execExcLimit d s
  | .excLimitEnd d => Sys2Proof.Machine.execExcLimitEnd d s
  | .utSelect m sel => Sys2Proof.Machine.execUtSelect m sel s
  | .codePeriodEnd c => Sys2Proof.Machine.execCodePeriodEnd c s
  | .conversion c j old input ovr spare => Sys2Proof.Machine.execConversion c j old input ovr spare s
  | .coreStartUp q => Sys2Proof.Machine.execCoreStartUp q s
  | .estimatorBlock tile cluster core => Sys2Proof.Machine.execEstimatorBlock tile cluster core s
  | .visitRequest m n duty force => Sys2Proof.Machine.execVisitRequest m n duty force s
  | .spareRunRequest m n => Sys2Proof.Machine.execSpareRunRequest m n s
  | .visitCancel m n => Sys2Proof.Machine.execVisitCancel m n s
  | .rotationRequest n => Sys2Proof.Machine.execRotationRequest n s
  | .tempTriggerEval => Sys2Proof.Machine.execTempTriggerEval s
  | .visitBegin t => Sys2Proof.Machine.execVisitBegin t s
  | .matchCheck n => Sys2Proof.Machine.execMatchCheck n s
  | .shadowShort n => Sys2Proof.Machine.execShadowShort n s
  | .visitRetry n duty => Sys2Proof.Machine.execVisitRetry n duty s
  | .coreCalDone t m0 m1 ovl => Sys2Proof.Machine.execCoreCalDone t m0 m1 ovl s
  | .coreRunRetry n => Sys2Proof.Machine.execCoreRunRetry n s
  | .senseRefCycleEnd t means => Sys2Proof.Machine.execSenseRefCycleEnd t means s
  | .startZero m => Sys2Proof.Machine.execStartZero m s
  | .startFull m => Sys2Proof.Machine.execStartFull m s
  | .finish m => Sys2Proof.Machine.execFinish m s
  | .abort m => Sys2Proof.Machine.execAbort m s
  | .calPhaseEnd => Sys2Proof.Machine.execCalPhaseEnd s
  | .calSysTimeout => Sys2Proof.Machine.execCalSysTimeout s
  | .load m c => Sys2Proof.Machine.execLoad m c s
  | .edit m bank => Sys2Proof.Machine.execEdit m bank s
  | .seal m bank => Sys2Proof.Machine.execSeal m bank s
  | .chrBankSealDone bank => Sys2Proof.Machine.execChrBankSealDone bank s
  | .chrBankWrite m bank off data => Sys2Proof.Machine.execChrBankWrite m bank off data s
  | .chrSwapRequest m bank => Sys2Proof.Machine.execChrSwapRequest m bank s
  | .detectorWindowEnd d => Sys2Proof.Machine.execDetectorWindowEnd d s
  | .laneDisable m l => Sys2Proof.Machine.execLaneDisable m l s
  | .retrain m l => Sys2Proof.Machine.execRetrain m l s
  | .laneLpRequest m l smoulder => Sys2Proof.Machine.execLaneLpRequest m l smoulder s
  | .laneLpWake m l => Sys2Proof.Machine.execLaneLpWake m l s
  | .detectWindow l seen => Sys2Proof.Machine.execDetectWindow l seen s
  | .trainingFrame l f adapted want => Sys2Proof.Machine.execTrainingFrame l f adapted want s
  | .trainTimeout l => Sys2Proof.Machine.execTrainTimeout l s
  | .bitlockMeasure l ppb => Sys2Proof.Machine.execBitlockMeasure l ppb s
  | .bitlockTimeout l => Sys2Proof.Machine.execBitlockTimeout l s
  | .blockReceived l hdr => Sys2Proof.Machine.execBlockReceived l hdr s
  | .blockLockTimeout l => Sys2Proof.Machine.execBlockLockTimeout l s
  | .capsBlock l version rates flags => Sys2Proof.Machine.execCapsBlock l version rates flags s
  | .capsTimeout l => Sys2Proof.Machine.execCapsTimeout l s
  | .lossOfSignal l => Sys2Proof.Machine.execLossOfSignal l s
  | .relockTimeout l => Sys2Proof.Machine.execRelockTimeout l s
  | .holdEnd l => Sys2Proof.Machine.execHoldEnd l s
  | .failsClearActive l => Sys2Proof.Machine.execFailsClearActive l s
  | .farAbsent l => Sys2Proof.Machine.execFarAbsent l s
  | .lpBlock l mode ack => Sys2Proof.Machine.execLpBlock l mode ack s
  | .lpNoack l => Sys2Proof.Machine.execLpNoack l s
  | .wakeFail l => Sys2Proof.Machine.execWakeFail l s
  | .laneWakeFar l => Sys2Proof.Machine.execLaneWakeFar l s
  | .relightDone l => Sys2Proof.Machine.execRelightDone l s
  | .discoverSend l long => Sys2Proof.Machine.execDiscoverSend l long s
  | .nodeInfo f serial model twoPorts epoch chans => Sys2Proof.Machine.execNodeInfo f serial model twoPorts epoch chans s
  | .samples f tick epoch groups => Sys2Proof.Machine.execSamples f tick epoch groups s
  | .report f r => Sys2Proof.Machine.execReport f r s
  | .reply f epoch cseq result value => Sys2Proof.Machine.execReply f epoch cseq result value s
  | .routeExpiry p l => Sys2Proof.Machine.execRouteExpiry p l s
  | .commandRetry cseq => Sys2Proof.Machine.execCommandRetry cseq s
  | .join sl => Sys2Proof.Machine.execJoin sl s
  | .leave sl lead => Sys2Proof.Machine.execLeave sl lead s
  | .slotSet m sl ncfg data => Sys2Proof.Machine.execSlotSet m sl ncfg data s
  | .mirrorLag mseq => Sys2Proof.Machine.execMirrorLag mseq s
  | .heartbeat b => Sys2Proof.Machine.execHeartbeat b s
  | .stewardTakeSilence => Sys2Proof.Machine.execStewardTakeSilence s
  | .take m => Sys2Proof.Machine.execTake m s
  | .mirrorRecord mseq r => Sys2Proof.Machine.execMirrorRecord mseq r s
  | .mirrorResend => Sys2Proof.Machine.execMirrorResend s
  | .slateUp => Sys2Proof.Machine.execSlateUp s
  | .ptpSync u h src seq twoStep origin corr stamp => Sys2Proof.Machine.execPtpSync u h src seq twoStep origin corr stamp s
  | .ptpFollowUp u h src seq origin corr => Sys2Proof.Machine.execPtpFollowUp u h src seq origin corr s
  | .ptpAnnounce u h a => Sys2Proof.Machine.execPtpAnnounce u h a s
  | .ptpDelayResp u h src seq receipt corr => Sys2Proof.Machine.execPtpDelayResp u h src seq receipt corr s
  | .ptpPdelayReq u h seq ingress egress => Sys2Proof.Machine.execPtpPdelayReq u h seq ingress egress s
  | .ptpPdelayResp u h seq turn corr stamp => Sys2Proof.Machine.execPtpPdelayResp u h seq turn corr stamp s
  | .ptpReqSend u egress => Sys2Proof.Machine.execPtpReqSend u egress s
  | .followUpTimeout u seq => Sys2Proof.Machine.execFollowUpTimeout u seq s
  | .announceTimeout u => Sys2Proof.Machine.execAnnounceTimeout u s
  | .syncTimeout => Sys2Proof.Machine.execSyncTimeout s
  | .servoUpdateTimeout => Sys2Proof.Machine.execServoUpdateTimeout s
  | .portCompare => Sys2Proof.Machine.execPortCompare s
  | .timeOffset => Sys2Proof.Machine.execTimeOffset s
  | .go m mode cancel => Sys2Proof.Machine.execGo m mode cancel s
  | .cancel m => Sys2Proof.Machine.execCancel m s
  | .restepApply => Sys2Proof.Machine.execRestepApply s
  | .holdResume => Sys2Proof.Machine.execHoldResume s
  | .restepAuthExpiry => Sys2Proof.Machine.execRestepAuthExpiry s
  | .probeSend l depart => Sys2Proof.Machine.execProbeSend l depart s
  | .echo l seq arrive turn => Sys2Proof.Machine.execEcho l seq arrive turn s
  | .probeTimeout l seq => Sys2Proof.Machine.execProbeTimeout l seq s
  | .edgeArrival sr rise e => Sys2Proof.Machine.execEdgeArrival sr rise e s
  | .edgeRelease => Sys2Proof.Machine.execEdgeRelease s
  | .intervalTimeout ix => Sys2Proof.Machine.execIntervalTimeout ix s
  | .groupWindowTimeout g => Sys2Proof.Machine.execGroupWindowTimeout g s
  | .groupHoldoffEnd g => Sys2Proof.Machine.execGroupHoldoffEnd g s
  | .arm m u lateOk send => Sys2Proof.Machine.execArm m u lateOk send s
  | .disarm m u send => Sys2Proof.Machine.execDisarm m u send s
  | .fireRequest u time cause => Sys2Proof.Machine.execFireRequest u time cause s
  | .settleIntervalEnd u => Sys2Proof.Machine.execSettleIntervalEnd u s
  | .armFrame f pre post disarm => Sys2Proof.Machine.execArmFrame f pre post disarm s
  | .fireFrame f time cause => Sys2Proof.Machine.execFireFrame f time cause s
  | .captureCopy u bad => Sys2Proof.Machine.execCaptureCopy u bad s
  | .captureTruncate u => Sys2Proof.Machine.execCaptureTruncate u s
  | .captureEnd u => Sys2Proof.Machine.execCaptureEnd u s
  | .start m => Sys2Proof.Machine.execStart m s
  | .apply m => Sys2Proof.Machine.execApply m s
  | .skewAbort m => Sys2Proof.Machine.execSkewAbort m s
  | .skewPulse => Sys2Proof.Machine.execSkewPulse s
  | .skewRunDone => Sys2Proof.Machine.execSkewRunDone s
  | .queueFlush m q force => Sys2Proof.Machine.execQueueFlush m q force s
  | .queueDisable m q => Sys2Proof.Machine.execQueueDisable m q s
  | .hostWindowBind m n q en => Sys2Proof.Machine.execHostWindowBind m n q en s
  | .hostWindowRead m n => Sys2Proof.Machine.execHostWindowRead m n s
  | .itemReady q single double => Sys2Proof.Machine.execItemReady q single double s
  | .spill q => Sys2Proof.Machine.execSpill q s
  | .fill q => Sys2Proof.Machine.execFill q s
  | .blockTransferDone q fill => Sys2Proof.Machine.execBlockTransferDone q fill s
  | .backlogTrained intact => Sys2Proof.Machine.execBacklogTrained intact s
  | .histSet m mib => Sys2Proof.Machine.execHistSet m mib s
  | .starvation r b => Sys2Proof.Machine.execStarvation r b s
  | .pressTakeItem e => Sys2Proof.Machine.execPressTakeItem e s
  | .briquetteAgeClose q => Sys2Proof.Machine.execBriquetteAgeClose q s
  | .verifyDone ix code => Sys2Proof.Machine.execVerifyDone ix code s
  | .retrievalDone ix => Sys2Proof.Machine.execRetrievalDone ix s
  | .controllerInit n c => Sys2Proof.Machine.execControllerInit n c s
  | .cordRecovery r => Sys2Proof.Machine.execCordRecovery r s
  | .cordTakeItem => Sys2Proof.Machine.execCordTakeItem s
  | .unitAgeClose id => Sys2Proof.Machine.execUnitAgeClose id s
  | .writeComplete id status => Sys2Proof.Machine.execWriteComplete id status s
  | .writeTimeout id => Sys2Proof.Machine.execWriteTimeout id s
  | .epochEnd => Sys2Proof.Machine.execEpochEnd s
  | .add m format => Sys2Proof.Machine.execAdd m format s
  | .remove m x => Sys2Proof.Machine.execRemove m x s
  | .controllerFailed n => Sys2Proof.Machine.execControllerFailed n s
  | .controllerRetry n c => Sys2Proof.Machine.execControllerRetry n c s
  | .release m p => Sys2Proof.Machine.execRelease m p s
  | .jobSubmit m kind strict q => Sys2Proof.Machine.execJobSubmit m kind strict q s
  | .readComplete id r => Sys2Proof.Machine.execReadComplete id r s
  | .streamSend => Sys2Proof.Machine.execStreamSend s
  | .commit m lateOk cancel => Sys2Proof.Machine.execCommit m lateOk cancel s
  | .launchCancel m sl => Sys2Proof.Machine.execLaunchCancel m sl s
  | .launchSlot sl e0 e1 => Sys2Proof.Machine.execLaunchSlot sl e0 e1 s
  | .uplinkLinkChange u link fit => Sys2Proof.Machine.execUplinkLinkChange u link fit s
  | .uplinkStall q => Sys2Proof.Machine.execUplinkStall q s
  | .prpSupervision => Sys2Proof.Machine.execPrpSupervision s
  | .frameReceive u src tr kind => Sys2Proof.Machine.execFrameReceive u src tr kind s
  | .hcpMessage session mseq tagOk fits ty => Sys2Proof.Machine.execHcpMessage session mseq tagOk fits ty s
  | .read addr n stop => Sys2Proof.Machine.execRead addr n stop s
  | .write addr data stop => Sys2Proof.Machine.execWrite addr data stop s
  | .fifoWrite addr data stop => Sys2Proof.Machine.execFifoWrite addr data stop s
  | .fifoRead addr n stop => Sys2Proof.Machine.execFifoRead addr n stop s
  | .sched tick addr data mask lateOk stop => Sys2Proof.Machine.execSched tick addr data mask lateOk stop s
  | .hcpReassembly id => Sys2Proof.Machine.execHcpReassembly id s
  | .notice => Sys2Proof.Machine.execNotice s
  | .spisRead a n late => Sys2Proof.Machine.execSpisRead a n late s
  | .spisWrite a bytes slow => Sys2Proof.Machine.execSpisWrite a bytes slow s
  | .spisFetchDone => Sys2Proof.Machine.execSpisFetchDone s
  | .spimTransaction m cyc => Sys2Proof.Machine.execSpimTransaction m cyc s
  | .spimTransactionEnd m rx => Sys2Proof.Machine.execSpimTransactionEnd m rx s
  | .sensorSample k v ack => Sys2Proof.Machine.execSensorSample k v ack s
  | .thermalTrip sel25 compat => Sys2Proof.Machine.execThermalTrip sel25 compat s
  | .thermalRelease => Sys2Proof.Machine.execThermalRelease s
  | .logPageStart => Sys2Proof.Machine.execLogPageStart s
  | .logPageCommit => Sys2Proof.Machine.execLogPageCommit s
  | .logRecovery found => Sys2Proof.Machine.execLogRecovery found s
  | .submit m len => Sys2Proof.Machine.execSubmit m len s
  | .mailboxRlenRead m => Sys2Proof.Machine.execMailboxRlenRead m s
  | .umbMboxReleased => Sys2Proof.Machine.execUmbMboxReleased s
  | .openSession key perm life sigOk => Sys2Proof.Machine.execOpenSession key perm life sigOk s
  | .closeSession => Sys2Proof.Machine.execCloseSession s
  | .logRead seq n => Sys2Proof.Machine.execLogRead seq n s
  | .keySet sl mask pub => Sys2Proof.Machine.execKeySet sl mask pub s
  | .trigkeySet key => Sys2Proof.Machine.execTrigkeySet key s
  | .updBegin type total => Sys2Proof.Machine.execUpdBegin type total s
  | .updData offset bytes => Sys2Proof.Machine.execUpdData offset bytes s
  | .updEnd c => Sys2Proof.Machine.execUpdEnd c s
  | .activate type tick => Sys2Proof.Machine.execActivate type tick s
  | .imageCommit type => Sys2Proof.Machine.execImageCommit type s
  | .lcChange dst timeout => Sys2Proof.Machine.execLcChange dst timeout s
  | .fenceWrite addr value => Sys2Proof.Machine.execFenceWrite addr value s
  | .restepAuth dir most expiry => Sys2Proof.Machine.execRestepAuth dir most expiry s
  | .sessionExpiry id => Sys2Proof.Machine.execSessionExpiry id s
  | .updateAbandoned => Sys2Proof.Machine.execUpdateAbandoned s
  | .serviceTimeout => Sys2Proof.Machine.execServiceTimeout s
  | .stokerRelease => Sys2Proof.Machine.execStokerRelease s
  | .healthReport => Sys2Proof.Machine.execHealthReport s
  | .updateReverted => Sys2Proof.Machine.execUpdateReverted s
  | .umberTrialTimeout => Sys2Proof.Machine.execUmberTrialTimeout s
  | .xrefLost => Sys2Proof.Machine.execXrefLost s
  | .xrefOk => Sys2Proof.Machine.execXrefOk s
  | .refclkLost => Sys2Proof.Machine.execRefclkLost s
  | .refclkOk => Sys2Proof.Machine.execRefclkOk s
  | .uxtalLost => Sys2Proof.Machine.execUxtalLost s
  | .uxtalOk => Sys2Proof.Machine.execUxtalOk s
  | .smpUnlock => Sys2Proof.Machine.execSmpUnlock s
  | .smpLock => Sys2Proof.Machine.execSmpLock s
  | .powerUp refOk sel25 compat => Sys2Proof.Machine.execPowerUp refOk sel25 compat s
  | .hubReset cause sel25 compat => Sys2Proof.Machine.execHubReset cause sel25 compat s
  | .umbRst sel25 compat => Sys2Proof.Machine.execUmbRst sel25 compat s
  | .domainReset d => Sys2Proof.Machine.execDomainReset d s
  | .domainResetRelease d => Sys2Proof.Machine.execDomainResetRelease d s
  | .rstReq m slt pcie ddr up => Sys2Proof.Machine.execRstReq m slt pcie ddr up s
  | .stokerRunning => Sys2Proof.Machine.execStokerRunning s
  | .bankDecision b req => Sys2Proof.Machine.execBankDecision b req s
  | .archiveDown => Sys2Proof.Machine.execArchiveDown s
  | .nodeBoundFrame l => Sys2Proof.Machine.execNodeBoundFrame l s
  | .trainDone l => Sys2Proof.Machine.execTrainDone l s
  | .capsSend l => Sys2Proof.Machine.execCapsSend l s
  | .umberRestartDone => Sys2Proof.Machine.execUmberRestartDone s
  | .excitationRailMove d high => Sys2Proof.Machine.execExcitationRailMove d high s

end Sys2Proof.Machine
end

