-- ==== Sys2Proof/Machine/Cycle.lean ====
section
/-!
DEFINITION. A core cycle without a command (log entry 1): time passes, and the hearths, their posted buffers and the pins go on by
themselves (R57, R58, R72, R103).
-/
namespace Sys2Proof.Machine

open Sys2Proof

/-- The cycles from a store's issue to its retirement, in which it takes effect (R64, R67, R95); none for an instruction that stores
nothing. -/
def Hearth.storeLag (x : Hearth) (i : KInstr) : Option Nat :=
  if !x.holds i.pred then none
  else match i.op with
    | .st _ a imm => some (tramCost 1 (tramIndex x a imm) - 1)
    | .st64 _ b imm => some (tramCost 2 (tramIndex x b imm) - 1)
    | _ => none

/-- The instruction at which hearth `h` stands (R57, R58). -/
def State.fetched (s : State) (h : Nat) : Option KInstr := kdecode (s.bankWord s.activeBank (s.hearth h).pc)

/-- Hearth `h` stands at a store. -/
def State.atStore (s : State) (h : Nat) : Bool :=
  match s.fetched h with
  | some i => ((s.hearth h).storeLag i).isSome
  | none => false

/-- A hearth whose next instruction is due fetches it from the active bank (R57, R58), with its parity checked (R80), and issues it; a
store takes effect in the cycle in which it retires. -/
def State.hearthStep (s : State) (h : Fin 4) : State :=
  let x := s.hearth h
  if !x.running || s.tick.inTail || decide (s.tick.cyc < x.cyc) then s
  else if wordParity (s.bankWord s.activeBank x.pc) != s.bankParity s.activeBank x.pc then s.hearthParity h
  else match s.fetched h with
    | none => s
    | some i =>
      if decide (s.tick.cyc < x.cyc + (x.storeLag i).getD 0) then s
      else match exec (i.command h) s with
        | .next t => t
        | _ => s

/-- One core cycle of a running tick: a posted slot (R72), pin changes (R103), and the hearths. Loads read before the stores of the cycle
take effect, and these follow in the order H0 to H3 (R64). -/
def State.tickCycle (s : State) : State :=
  let s := (s.drainOne (s.tick.cyc % 4)).pinsUpTo s.tick.cyc
  let hs : List (Fin 4) := [0, 1, 2, 3]
  let later := hs.filter fun (h : Fin 4) => s.atStore h
  later.foldl State.hearthStep ((hs.filter fun (h : Fin 4) => !s.atStore h).foldl State.hearthStep s)

/-- While no tick runs, r changes once in as many core cycles as a tick has (R308, log entry 74). -/
def State.restServo (s : State) : State :=
  if s.genState = 1 ∨ s.tick.rest < s.cycles then s else { s with tick.rest := 0 }.servoTick

/-- One core cycle. -/
def State.coreCycle (s : State) : State := ((if s.genState ≠ 1 then s else s.tickCycle).idle).restServo

end Sys2Proof.Machine
end

