-- ==== Sys2Proof/Machine/Step.lean ====
section
/-!
DEFINITION. One step of the hub: the command at the front of the queue takes effect; on an empty queue one
core cycle passes.
-/
namespace Sys2Proof.Machine

open Sys2Proof

/-- A step of the hub. -/
def step (s : State) : Host.Outcome State Fault Refusal :=
  match s.pending with
  | [] => .next s.coreCycle
  | c :: rest => exec c { s with pending := rest }

/-- The state with the command that a word spells put in front of the queue: no row of the table has bits, so no word
spells a command. -/
def State.withFetchWord (s : State) (nbits w : Nat) : State :=
  match decodeTableWord nbits w with
  | some c => { s with pending := c :: s.pending }
  | none => s

end Sys2Proof.Machine
end

