-- ==== Sys2Proof/Safety.lean ====
section
/-!
DEFINITION. Terms in which claims speak of the hub as a whole: a command that completes, the canonical form of the register space, and what one
step may and may not do.
-/
namespace Sys2Proof.Machine

open Sys2Proof

/-- Command `c` completes in `s` with next state `t`. -/
def Completes (c : Instr) (s t : State) : Prop := exec c s = .next t

/-- The hub is safe in `s`: its register space has its canonical form, the event queue keeps to its 4,096 entries (R21), the gap buffer to its
16,384 records (R455), and the scheduler to its 1,024 ordinary items (R49). -/
def State.safe (s : State) : Prop :=
  Memory.wf s.mem = true ∧ evqDepth s.hub.evq ≤ 4096 ∧ s.hub.gaps.length ≤ 16384 ∧ s.ordinary.length ≤ 1024

/-- A hub that has queue `q` before it and nothing else changed: what a sender's command meets. -/
def State.withQueue (s : State) (q : List Instr) : State := { s with pending := q }

/-! ### What commands show -/

/-- A record of event `n` about object `obj` with detail `d`, and no other, joined the event queue, if it had room (R21, R548). -/
def State.Joins (s t : State) (n : EvName) (obj : Nat) (d : List Int) : Prop :=
  evqDepth s.hub.evq + eventEntries n ≤ 4096 → ∃ e : Event, e.name = n ∧ e.obj = obj ∧ e.detail = d ∧ t.hub.evq = s.hub.evq ++ [e]

/-- A record of event `n` about object `obj` with detail `d` is in the event queue afterwards, if there was room for it. -/
def State.Enters (s t : State) (n : EvName) (obj : Nat) (d : List Int) : Prop :=
  evqDepth s.hub.evq + eventEntries n ≤ 4096 → ∃ e : Event, e.name = n ∧ e.obj = obj ∧ e.detail = d ∧ e ∈ t.hub.evq

/-- A record of Umber's of event `n` about object `obj` with detail `d` is in its log buffer afterwards, if there was room for it (R497, R500). -/
def State.Logs (s t : State) (n : EvName) (obj : Nat) (d : List Int) : Prop :=
  evqDepth s.umb.logBuf + eventEntries n ≤ s.logRoom → ∃ e : Event, e.name = n ∧ e.obj = obj ∧ e.detail = d ∧ e ∈ t.umb.logBuf

/-- The registers that recording an event may write: the queue's counts, the latches, and Umber's count of lost records (R21, R500, R551). -/
def recordRegs : List Nat := [Reg.HUB_EVQ_STAT, Reg.HUB_EVQ_OVF, Reg.HUB_INT_RAW, Reg.UMB_LOG_LOST]

/-- Every register outside `l`, and outside those that recording an event writes, keeps its value. -/
def State.RegsBut (s t : State) (l : List Nat) : Prop := ∀ a, a ∉ l → a ∉ recordRegs → t.rd a = s.rd a

/-- Beside registers and what recording an event writes, nothing changed. -/
def State.RestSame (s t : State) : Prop := { t with mem := s.mem, hub := s.hub, umb := s.umb } = s

/-! ### Hearths -/

/-- Hearth `h` runs and the predicate holds (R77, R81). -/
def State.Runs (s : State) (h : Nat) (p : Pred) : Prop := (s.hearth h).running = true ∧ (s.hearth h).holds p = true

/-- Of the whole state only hearth `h` differs. -/
def State.OnlyHearth (s t : State) (h : Nat) : Prop :=
  { t with kiln.hearths := s.kiln.hearths } = s ∧ ∀ g, g ≠ h → t.hearth g = s.hearth g

/-- The hearth went on to the next word, `cost` cycles later (R57, R84, R85). -/
def Hearth.Advanced (x y : Hearth) (cost : Nat) : Prop := y.cyc = x.cyc + cost ∧ (y.reps, y.pc) = landAt x.reps (x.pc + 1)

/-- Its K registers, accumulators, flags and SAT, and where it stands, aside, the hearth is as before. -/
def Hearth.SameRest (x y : Hearth) : Prop :=
  y = { x with k := y.k, a := y.a, pf := y.pf, sat := y.sat, pc := y.pc, cyc := y.cyc, reps := y.reps }

/-- An instruction of hearth `h` wrote `v` to K register `d` and nothing else; with `d` 0 the write is discarded (R59). -/
def State.WritesK (s t : State) (h d : Nat) (v : Word) (clamped : Bool) (cost : Nat) : Prop :=
  s.OnlyHearth t h ∧ (s.hearth h).SameRest (t.hearth h) ∧ (s.hearth h).Advanced (t.hearth h) cost
    ∧ (t.hearth h).sat = ((s.hearth h).sat || clamped)
    ∧ (∀ n, (t.hearth h).kr n = if n = d ∧ n ≠ 0 then v else (s.hearth h).kr n)
    ∧ (∀ n, (t.hearth h).ar n = (s.hearth h).ar n) ∧ ∀ n, (t.hearth h).fr n = (s.hearth h).fr n

/-- An instruction of hearth `h` wrote `v` to accumulator `a` and nothing else. -/
def State.WritesA (s t : State) (h a : Nat) (v : Acc) (cost : Nat) : Prop :=
  s.OnlyHearth t h ∧ (s.hearth h).SameRest (t.hearth h) ∧ (s.hearth h).Advanced (t.hearth h) cost
    ∧ (t.hearth h).sat = (s.hearth h).sat
    ∧ (∀ n, (t.hearth h).kr n = (s.hearth h).kr n)
    ∧ (∀ n, (t.hearth h).ar n = if n = a then v else (s.hearth h).ar n) ∧ ∀ n, (t.hearth h).fr n = (s.hearth h).fr n

/-- An instruction of hearth `h` set predicate flag `f` to `v` and changed nothing else; PF0 reads as 1 whatever is written (R59). -/
def State.WritesF (s t : State) (h f : Nat) (v : Bool) (cost : Nat) : Prop :=
  s.OnlyHearth t h ∧ (s.hearth h).SameRest (t.hearth h) ∧ (s.hearth h).Advanced (t.hearth h) cost
    ∧ (t.hearth h).sat = (s.hearth h).sat
    ∧ (∀ n, (t.hearth h).kr n = (s.hearth h).kr n)
    ∧ (∀ n, (t.hearth h).ar n = (s.hearth h).ar n)
    ∧ ∀ n, (t.hearth h).fr n = if n = f ∧ n ≠ 0 then v else (s.hearth h).fr n

/-- An instruction of hearth `h` at word `pc` faulted with `code` (R78): the fault word keeps the first fault of the tick, the count saturates
at 255, the code's sticky bit is set, and no other register of the hub and no other hearth changed. -/
def State.Faulted (s t : State) (h code pc : Nat) : Prop :=
  (t.hearth h).faultCode = (if (s.hearth h).faultCount = 0 then code else (s.hearth h).faultCode)
    ∧ (t.hearth h).faultPc = (if (s.hearth h).faultCount = 0 then pc else (s.hearth h).faultPc)
    ∧ (t.hearth h).faultCount = min 255 ((s.hearth h).faultCount + 1)
    ∧ (t.rd (Reg.KLN_Hn_STICKY h)).getLsbD code = true
    ∧ (∀ n, n ≠ code → (t.rd (Reg.KLN_Hn_STICKY h)).getLsbD n = (s.rd (Reg.KLN_Hn_STICKY h)).getLsbD n)
    ∧ (∀ a, a ≠ Reg.KLN_Hn_STICKY h → t.rd a = s.rd a)
    ∧ { t with mem := s.mem, kiln.hearths := s.kiln.hearths } = s ∧ ∀ g, g ≠ h → t.hearth g = s.hearth g

/-- A posted instruction of hearth `h` put `op` into its posted buffer, under its own program counter, and changed nothing else (R72, R73). -/
def State.Posts (s t : State) (h : Nat) (op : Posted) : Prop :=
  s.OnlyHearth t h ∧ (s.hearth h).Advanced (t.hearth h) 1
    ∧ (t.hearth h).posted = (s.hearth h).posted ++ [{ pc := (s.hearth h).pc, op := op }]
    ∧ t.hearth h = { s.hearth h with posted := (t.hearth h).posted, pc := (t.hearth h).pc, cyc := (t.hearth h).cyc,
                                     reps := (t.hearth h).reps }

/-- The oldest entry of hearth `h`'s posted buffer. -/
def State.Oldest (s : State) (h pc : Nat) (op : Posted) : Prop := (s.hearth h).posted.head? = some { pc := pc, op := op }

/-- An entry of hearth `h` left its posted buffer, and of the hearths nothing else changed (R72). -/
def State.Left (s t : State) (h : Nat) : Prop :=
  t.hearth h = { s.hearth h with posted := (s.hearth h).posted.tail } ∧ ∀ g, g ≠ h → t.hearth g = s.hearth g

end Sys2Proof.Machine
end

