-- ==== Sys2Proof/Certificates/Slice0/Obligations.lean ====
section
/-!
DEFINITION. The claims about the hub that the provers are asked to prove, one `Prop` each; OBLIGATIONS.json gives their titles and rules.
-/

open Sys2Proof Sys2Proof.Machine

/-! ### The hub as a whole -/

/-- A step with command `c` in front of the queue is `exec c` on the state with the queue's rest. -/
def Obligations.StepRunsFrontCommand : Prop :=
  ∀ (c : Instr) (q : List Instr) (s : State), step (s.withQueue (c :: q)) = exec c (s.withQueue q)

/-- Log 1 (the model's choice): on an empty queue the hub idles for one core cycle; while the generator is not RUNNING only the clock moves, and once in a tick's time the rate on its ramp. Model's choices it rests on: log entries 1, 74. -/
def Obligations.EmptyQueueIsOneCoreCycle : Prop :=
  ∀ s : State, s.pending = [] → s.genState ≠ 1 →
    let gain : Nat := s.tick.frac + 81920 * (1099511627776 + s.rateCorr).toNat
    let t : State := { s with tick.clock := s.tick.clock + gain / 1099511627776, tick.frac := gain % 1099511627776 }
    step s = .next (if s.tick.rest + 1 < s.cycles then { t with tick.rest := s.tick.rest + 1 } else { t with tick.rest := 0 }.servoTick)

/-- In no state does a command end the run, and none touches the queue behind it. Model's choices it rests on: log entries 2, 12. -/
def Obligations.EveryCommandHasItsNextState : Prop :=
  ∀ (c : Instr) (s : State), ∃ t, exec c s = .next t ∧ t.pending = s.pending

/-- The commands that may change the tick number: those that emit a boundary (R30, R33, R38), and those that reset the hub. Model's choices it rests on: log entries 1, 24. -/
def Obligations.OnlyBoundariesAndResetsMoveTheTick : Prop :=
  ∀ (c : Instr) (s t : State), exec c s = .next t →
    (match c with
      | .tickBoundary | .tickGeneratorStart | .holdResume | .hubReset .. | .powerUp .. | .umbRst .. | .thermalTrip .. | .lcChange .. => False
      | _ => True) →
    t.tick.num = s.tick.num

/-- The state after reset is safe. -/
def Obligations.ResetIsSafe : Prop := State.reset.safe

/-- Headline: the invariant `safe` is kept by every step, whatever the command. Model's choices it rests on: log entries 1, 6. -/
def Obligations.StepKeepsTheHubSafe : Prop :=
  ∀ s t : State, s.safe → step s = .next t → t.safe

/-- The values the spec states for reset, over every kind of state. -/
def Obligations.ResetRegisterValues : Prop :=
  let s := State.reset
  s.rate = 32000 ∧ s.f F.KLN_TICK_CTRL_RUN = 1 ∧ s.genState = 0 ∧ s.cycles = 25000 ∧ s.f F.KLN_BUDGET_BUDGET = 24488 ∧ s.bankValid = false
    ∧ (∀ h < 4, s.rd (Reg.KLN_Hn_FAULT h) = 0#32 ∧ s.rd (Reg.KLN_Hn_STICKY h) = 0#32)
    ∧ (∀ h n, (s.hearth h).running = false ∧ (s.hearth h).kr n = 0#32 ∧ (s.hearth h).ar n = 0#64 ∧ (s.hearth h).posted = [])
    ∧ (∀ c, tabGet (fun _ => noRoute) s.kiln.route c = 0xFFFFFFFF#32)
    ∧ s.hub.evq = [] ∧ s.hub.gaps = [] ∧ s.tick.items = [] ∧ s.pending = []

/-- R21: a record joins the queue, or is copied to the log with the queue as it was. Model's choices it rests on: log entries 13, 14. -/
def Obligations.RecordedEventJoinsTheQueue : Prop :=
  ∀ (s : State) (n : EvName) (obj : Nat) (d : List Int),
    (evqDepth s.hub.evq + eventEntries n ≤ 4096 →
      ∃ e : Event, e.name = n ∧ e.obj = obj ∧ e.detail = d ∧ (s.emit n obj d).hub.evq = s.hub.evq ++ [e])
    ∧ (4096 < evqDepth s.hub.evq + eventEntries n →
      (s.emit n obj d).hub.evq = s.hub.evq
        ∧ (s.emit n obj d).f F.HUB_EVQ_OVF_DIRECT = min (s.f F.HUB_EVQ_OVF_DIRECT + 1) (fieldMax F.HUB_EVQ_OVF_DIRECT))
    ∧ ∀ a, a ∉ [Reg.HUB_EVQ_STAT, Reg.HUB_EVQ_OVF, Reg.HUB_INT_RAW, Reg.UMB_LOG_LOST] → (s.emit n obj d).rd a = s.rd a

/-! ### Kiln: the instructions that act inside their hearth (R57 to R96) -/

/-- R88, R90: results and frame of the instructions that write one K register from an immediate or a special value. Model's choices it rests on: log entry 8. -/
def Obligations.KlnRegisterInstructions : Prop :=
  ∀ (s : State) (h : Fin 4) (p : Pred), s.Runs h p → ∀ (d a : Fin 32) (i16 : BitVec 16) (i12 : BitVec 12) (sh : Fin 32) (sel : Nat),
    let x := s.hearth h
    (∃ t, exec (.ldi h p d false i16) s = .next t ∧ s.WritesK t h d (BitVec.ofInt 32 i16.toInt) false 1)
    ∧ (∃ t, exec (.ldi h p d true i16) s = .next t ∧ s.WritesK t h d (BitVec.ofNat 32 (i16.toNat * 65536 + (x.kr d).toNat % 65536)) false 1)
    ∧ (∃ t, exec (.addi h p d a i12) s = .next t ∧ s.WritesK t h d (BitVec.ofInt 32 ((x.kr a).toInt + i12.toInt)) false 1)
    ∧ (∃ t, exec (.andi h p d a i12) s = .next t ∧ s.WritesK t h d (x.kr a &&& BitVec.ofNat 32 i12.toNat) false 1)
    ∧ (∃ t, exec (.ori h p d a i12) s = .next t ∧ s.WritesK t h d (x.kr a ||| BitVec.ofNat 32 i12.toNat) false 1)
    ∧ (∃ t, exec (.xori h p d a i12) s = .next t ∧ s.WritesK t h d (x.kr a ^^^ BitVec.ofNat 32 i12.toNat) false 1)
    ∧ (∃ t, exec (.shli h p d a sh) s = .next t ∧ s.WritesK t h d (BitVec.ofNat 32 ((x.kr a).toNat * 2 ^ sh.val)) false 1)
    ∧ (∃ t, exec (.shri h p d a sh) s = .next t ∧ s.WritesK t h d (BitVec.ofNat 32 ((x.kr a).toNat / 2 ^ sh.val)) false 1)
    ∧ (∃ t, exec (.srai h p d a sh) s = .next t ∧ s.WritesK t h d (BitVec.ofInt 32 ((x.kr a).toInt / 2 ^ sh.val)) false 1)
    ∧ (∃ t v, exec (.gets h p d sel) s = .next t ∧ s.WritesK t h d v false 1
        ∧ (sel = 0x000 → v = BitVec.ofNat 32 s.tick.num) ∧ (sel = 0x001 → v = BitVec.ofNat 32 (s.tick.num / 2 ^ 32))
        ∧ (sel = 0x002 → v = BitVec.ofNat 32 (s.tick.num % s.rate)) ∧ (sel = 0x003 → v = BitVec.ofNat 32 h)
        ∧ (sel = 0x004 → v = BitVec.ofNat 32 x.cyc) ∧ (sel = 0x005 → v = BitVec.ofNat 32 s.rate)
        ∧ (sel = 0x006 → v = BitVec.ofNat 32 (s.f F.KLN_BUDGET_BUDGET)) ∧ (sel = 0x007 → v = BitVec.ofNat 32 s.activeBank)
        ∧ (sel = 0x008 → v = BitVec.ofNat 32 s.kiln.timeState)
        ∧ (sel = 0x009 → v = BitVec.ofNat 32 (x.faultCode * 2 ^ 24 + x.faultCount * 2 ^ 16 + x.faultPc))
        ∧ (sel = 0x00A → v = if x.sat then 1#32 else 0#32)
        ∧ ∀ k < 4, sel = 0x010 + k → v = BitVec.ofNat 32 ((x.reps.reverse[k]?.map (·.idx)).getD 0))

/-- R89: every operation of the `alu` table, with its frame. Model's choices it rests on: log entry 8. -/
def Obligations.KlnAluInstruction : Prop :=
  ∀ (s : State) (h : Fin 4) (p : Pred), s.Runs h p → ∀ (d a b : Fin 32) (fn : AluFn),
    let u := (s.hearth h).kr a
    let v := (s.hearth h).kr b
    let n := v.toNat % 32
    let inRange (z : Int) : Prop := -2147483648 ≤ z ∧ z ≤ 2147483647
    ∃ (t : State) (r : Word) (c : Bool), exec (.alu h p d a b fn) s = .next t ∧ s.WritesK t h d r c 1
      ∧ (match fn with
          | .add => r = BitVec.ofInt 32 (u.toInt + v.toInt) ∧ c = false
          | .sub => r = BitVec.ofInt 32 (u.toInt - v.toInt) ∧ c = false
          | .and => (∀ k < 32, r.getLsbD k = (u.getLsbD k && v.getLsbD k)) ∧ c = false
          | .or => (∀ k < 32, r.getLsbD k = (u.getLsbD k || v.getLsbD k)) ∧ c = false
          | .xor => (∀ k < 32, r.getLsbD k = (u.getLsbD k != v.getLsbD k)) ∧ c = false
          | .shl => r = BitVec.ofNat 32 (u.toNat * 2 ^ n) ∧ c = false
          | .shr => r.toNat = u.toNat / 2 ^ n ∧ c = false
          | .sra => r.toInt = u.toInt / 2 ^ n ∧ c = false
          | .min => r.toInt = min u.toInt v.toInt ∧ c = false
          | .max => r.toInt = max u.toInt v.toInt ∧ c = false
          | .minu => r.toNat = min u.toNat v.toNat ∧ c = false
          | .maxu => r.toNat = max u.toNat v.toNat ∧ c = false
          | .adds => r.toInt = max (-2147483648) (min 2147483647 (u.toInt + v.toInt)) ∧ (c = true ↔ ¬inRange (u.toInt + v.toInt))
          | .subs => r.toInt = max (-2147483648) (min 2147483647 (u.toInt - v.toInt)) ∧ (c = true ↔ ¬inRange (u.toInt - v.toInt))
          | .abs => r.toInt = min 2147483647 (u.toInt.natAbs : Int) ∧ (c = true ↔ u = 0x80000000#32))

/-- R91: the accumulator instructions, over the integers, with their frames. Model's choices it rests on: log entry 8. -/
def Obligations.KlnAccumulatorInstructions : Prop :=
  ∀ (s : State) (h : Fin 4) (p : Pred), s.Runs h p → ∀ (n : Fin 4) (a b d : Fin 32) (neg rnd : Bool) (sh : Fin 64),
    let x := s.hearth h
    let signed : Int := (x.kr a).toInt * (x.kr b).toInt
    let unsigned : Int := ((x.kr a).toNat * (x.kr b).toNat : Nat)
    let shifted : Int := (if rnd ∧ 1 ≤ sh.val then (x.ar n).toInt + 2 ^ (sh.val - 1) else (x.ar n).toInt) / 2 ^ sh.val
    let sgn : Int := if neg then -1 else 1
    (∃ t, exec (.mul h p n a b false) s = .next t ∧ s.WritesA t h n (BitVec.ofInt 64 signed) 2)
    ∧ (∃ t, exec (.mul h p n a b true) s = .next t ∧ s.WritesA t h n (BitVec.ofInt 64 unsigned) 2)
    ∧ (∃ t, exec (.mac h p n a b false neg) s = .next t ∧ s.WritesA t h n (BitVec.ofInt 64 ((x.ar n).toInt + sgn * signed)) 2)
    ∧ (∃ t, exec (.mac h p n a b true neg) s = .next t ∧ s.WritesA t h n (BitVec.ofInt 64 ((x.ar n).toInt + sgn * unsigned)) 2)
    ∧ (∃ t, exec (.clra h p n) s = .next t ∧ s.WritesA t h n 0#64 1)
    ∧ (∃ t, exec (.lda h p n a b) s = .next t ∧ s.WritesA t h n (BitVec.ofNat 64 ((x.kr a).toNat * 2 ^ 32 + (x.kr b).toNat)) 1)
    ∧ (∃ t r c, exec (.mva h p d n sh rnd) s = .next t ∧ s.WritesK t h d r c 2
        ∧ r.toInt = max (-2147483648) (min 2147483647 shifted) ∧ (c = true ↔ shifted < -2147483648 ∨ 2147483647 < shifted))

/-- R92, R93: the instructions that set a predicate flag, with their frames. Model's choices it rests on: log entry 8. -/
def Obligations.KlnFlagInstructions : Prop :=
  ∀ (s : State) (h : Fin 4) (p : Pred), s.Runs h p →
    ∀ (f fa fb : Fin 8) (a b bit : Fin 32) (imm : BitVec 11) (c : Cond) (fn : FlopFn),
    let x := s.hearth h
    let holds (u v : Word) : Prop := match c with
      | .eq => u = v
      | .ne => u ≠ v
      | .lt => u.toInt < v.toInt
      | .le => u.toInt ≤ v.toInt
      | .gt => v.toInt < u.toInt
      | .ge => v.toInt ≤ u.toInt
      | .ltu => u.toNat < v.toNat
      | .geu => v.toNat ≤ u.toNat
    let op : Bool := match fn with
      | .and => x.fr fa && x.fr fb
      | .or => x.fr fa || x.fr fb
      | .xor => x.fr fa ^^ x.fr fb
      | .andn => x.fr fa && !x.fr fb
      | .copy => x.fr fa
      | .not => !x.fr fa
      | .set => true
      | .clear => false
    (∃ t v, exec (.cmp h p f a b c) s = .next t ∧ s.WritesF t h f v 1 ∧ (v = true ↔ holds (x.kr a) (x.kr b)))
    ∧ (∃ t v, exec (.cmpi h p f a imm c) s = .next t ∧ s.WritesF t h f v 1 ∧ (v = true ↔ holds (x.kr a) (BitVec.ofInt 32 imm.toInt)))
    ∧ (∃ t, exec (.flop h p f fa fb fn) s = .next t ∧ s.WritesF t h f op 1)
    ∧ (∃ t, exec (.tstb h p f a bit) s = .next t ∧ s.WritesF t h f ((x.kr a).getLsbD bit) 1)

/-- R94, whole. -/
def Obligations.KlnSampleWordInstruction : Prop :=
  ∀ (s : State) (h : Fin 4) (p : Pred), s.Runs h p → ∀ (d a b : Fin 32),
    let u := (s.hearth h).kr a
    let v := (s.hearth h).kr b
    let z : Int := max (-8388607) (min 8388607 u.toInt)
    let clamps : Prop := u.toInt < -8388607 ∨ 8388607 < u.toInt
    (∃ t, exec (.swd h p d a b .data) s = .next t ∧ s.WritesK t h d (BitVec.ofInt 32 (BitVec.ofInt 24 u.toInt).toInt) false 1)
    ∧ (∃ t, exec (.swd h p d a b .stat) s = .next t ∧ s.WritesK t h d (BitVec.ofNat 32 (u.toNat / 2 ^ 24)) false 1)
    ∧ ∃ t r c, exec (.swd h p d a b .pack) s = .next t ∧ s.WritesK t h d r c 1 ∧ (c = true ↔ clamps)
        ∧ r.toNat % 2 ^ 24 = (BitVec.ofInt 24 z).toNat ∧ r.toNat % 2 ^ 24 ≠ 0x800000
        ∧ ∀ k < 8, r.getLsbD (24 + k) = (v.getLsbD k || (decide (k = 6) && c))

/-- R84 to R87: control flow of one hearth, every form. Model's choices it rests on: log entry 8. -/
def Obligations.KlnControlFlow : Prop :=
  ∀ (s : State) (h : Fin 4) (p : Pred), (s.hearth h).running = true → ∀ (off n count len cyc : Nat),
    let x := s.hearth h
    let at' (t : State) (w cost : Nat) : Prop :=
      s.OnlyHearth t h ∧ t.hearth h = { x with reps := (landAt x.reps w).1, pc := (landAt x.reps w).2, cyc := x.cyc + cost }
    (x.holds p = true →
      (∃ t, exec (.nop h p) s = .next t ∧ at' t (x.pc + 1) 1)
      ∧ (∃ t, exec (.br h p off) s = .next t ∧ at' t (x.pc + 1 + off) 3)
      ∧ (∃ t, exec (.skip h p n) s = .next t ∧ at' t (x.pc + 1 + n) 1)
      ∧ (∃ t, exec (.rep h p count len) s = .next t ∧ s.OnlyHearth t h
          ∧ t.hearth h = { x with reps := ⟨x.pc + 1, len, count - 1, 0⟩ :: x.reps, pc := x.pc + 1, cyc := x.cyc + 2 })
      ∧ (∃ t, exec (.waitc h p cyc) s = .next t ∧ at' t (x.pc + 1) (max x.cyc cyc - x.cyc + 1))
      ∧ (∃ t, exec (.endTick h p) s = .next t ∧ s.OnlyHearth t h
          ∧ t.hearth h = { x with running := false, reps := [], cyc := x.cyc + 1, used := x.cyc + 1 - 256 }))
    ∧ (x.holds p = false →
      (∃ t, exec (.br h p off) s = .next t ∧ at' t (x.pc + 1) 1)
      ∧ (∃ t, exec (.skip h p n) s = .next t ∧ at' t (x.pc + 1) 1)
      ∧ (∃ t, exec (.rep h p count len) s = .next t ∧ at' t (x.pc + 1 + len) 1))
    ∧ (∀ w, landAt [] w = ([], w))
    ∧ ∀ (r : RepFrame) (rs : List RepFrame) (w : Nat),
        (w ≠ r.start + r.len → landAt (r :: rs) w = (r :: rs, w))
        ∧ (w = r.start + r.len → 0 < r.left → landAt (r :: rs) w = ({ r with left := r.left - 1, idx := r.idx + 1 } :: rs, r.start))
        ∧ (w = r.start + r.len → r.left = 0 → landAt (r :: rs) w = landAt rs w)

/-- R77: no effect and no fault under a false predicate. Model's choices it rests on: log entry 8. -/
def Obligations.KlnFalsePredicateHasNoEffect : Prop :=
  ∀ (s : State) (h : Fin 4) (i : KInstr), (s.hearth h).running = true → (s.hearth h).holds i.pred = false →
    (match i.op with
      | .br _ | .skip _ | .rep _ _ => False
      | _ => True) →
    ∃ t, exec (i.command h) s = .next t ∧ s.OnlyHearth t h
      ∧ t.hearth h = { s.hearth h with reps := (landAt (s.hearth h).reps ((s.hearth h).pc + 1)).1,
                                       pc := (landAt (s.hearth h).reps ((s.hearth h).pc + 1)).2, cyc := (s.hearth h).cyc + 1 }

/-- R62, R66, R95; R70, R96; R101: tick RAM, the views and the scheduler as a hearth reaches them. Model's choices it rests on: log entries 8, 34. -/
def Obligations.KlnMemoryViewAndScheduleInstructions : Prop :=
  (∀ (s : State) (h : Fin 4) (p : Pred), s.Runs h p → ∀ (d a : Fin 32) (n : Fin 4) (imm : BitVec 12),
      let x := s.hearth h
      let i := ((x.kr a).toNat + imm.toNat) % 2 ^ 32
      let mine : Prop := i < 0x10000 ∧ (0x8000 ≤ i ∨ (0x2000 * h.val ≤ i ∧ i < 0x2000 * (h.val + 1)))
      let shared := if 0x8000 ≤ i then 1 else 0
      let word (t : State) (j : Nat) : Word := t.rd (0x00140000 + 4 * j)
      let good (j : Nat) : Prop := j ∉ s.kiln.tramDouble ∧ j ∉ s.kiln.tramSingle
      (mine → good i →
        (∃ t, exec (.ld h p d a imm) s = .next t ∧ s.WritesK t h d (word s i) false (1 + shared))
        ∧ ∃ t, exec (.st h p d a imm) s = .next t ∧ word t i = x.kr d ∧ (∀ b, b ≠ 0x00140000 + 4 * i → t.rd b = s.rd b)
            ∧ x.Advanced (t.hearth h) (1 + shared) ∧ (∀ m, (t.hearth h).kr m = x.kr m) ∧ x.SameRest (t.hearth h)
            ∧ (∀ g, g ≠ h.val → t.hearth g = s.hearth g))
      ∧ (mine → i % 2 = 0 → good i → good (i + 1) →
        (∃ t, exec (.ld64 h p n a imm) s = .next t
            ∧ s.WritesA t h n (BitVec.ofNat 64 ((word s (i + 1)).toNat * 2 ^ 32 + (word s i).toNat)) (2 + shared))
        ∧ ∃ t, exec (.st64 h p n a imm) s = .next t
            ∧ (word t i).toNat = (x.ar n).toNat % 2 ^ 32 ∧ (word t (i + 1)).toNat = (x.ar n).toNat / 2 ^ 32
            ∧ (∀ b, b ≠ 0x00140000 + 4 * i → b ≠ 0x00140000 + 4 * (i + 1) → t.rd b = s.rd b)
            ∧ x.Advanced (t.hearth h) (2 + shared) ∧ (∀ m, (t.hearth h).kr m = x.kr m) ∧ x.SameRest (t.hearth h)
            ∧ (∀ g, g ≠ h.val → t.hearth g = s.hearth g))
      ∧ (¬mine →
        (∃ t, exec (.ld h p d a imm) s = .next t ∧ s.Faulted t h 0x01 (s.hearth h).pc ∧ (d ≠ 0 → (t.hearth h).kr d = 0#32))
        ∧ (∃ t, exec (.st h p d a imm) s = .next t ∧ s.Faulted t h 0x01 (s.hearth h).pc)
        ∧ (∃ t, exec (.ld64 h p n a imm) s = .next t ∧ s.Faulted t h 0x01 (s.hearth h).pc ∧ (t.hearth h).ar n = 0#64)
        ∧ ∃ t, exec (.st64 h p n a imm) s = .next t ∧ s.Faulted t h 0x01 (s.hearth h).pc)
      ∧ (mine → i % 2 = 1 →
        (∃ t, exec (.ld64 h p n a imm) s = .next t ∧ s.Faulted t h 0x02 (s.hearth h).pc ∧ (t.hearth h).ar n = 0#64)
        ∧ ∃ t, exec (.st64 h p n a imm) s = .next t ∧ s.Faulted t h 0x02 (s.hearth h).pc)
      ∧ (mine → i ∉ s.kiln.tramDouble → i ∈ s.kiln.tramSingle →
        ∃ t, exec (.ld h p d a imm) s = .next t ∧ (d ≠ 0 → (t.hearth h).kr d = word s i) ∧ (t.hearth h).faultCount = x.faultCount
          ∧ t.f F.KLN_TRAM_ERR_SINGLE = min (s.f F.KLN_TRAM_ERR_SINGLE + 1) 65535)
      ∧ (mine → i ∈ s.kiln.tramDouble →
        ∃ t, exec (.ld h p d a imm) s = .next t ∧ (d ≠ 0 → (t.hearth h).kr d = 0#32)
          ∧ (t.hearth h).faultCount = min 255 (x.faultCount + 1) ∧ (x.faultCount = 0 → (t.hearth h).faultCode = 0x03)
          ∧ i ∈ t.kiln.tramDouble ∧ t.rd (tramAddr i) = s.rd (tramAddr i)))
  ∧ (∀ (s : State) (h : Fin 4) (p : Pred), s.Runs h p → ∀ (d a b : Fin 32),
      let c := ((s.hearth h).kr a).toNat
      let i := ((s.hearth h).kr b).toNat
      let out : List ViewWord := if 96 ≤ c && (s.remoteCh c).isNone then [] else tabGet (fun _ => []) s.kiln.outPrev c
      let stg : List ViewWord := if c < 96 then tabGet (fun _ => []) s.kiln.staging c else []
      let entry (l : List ViewWord) : Word := if e : i < l.length then l[i].word else 0x01800000#32
      (c ≤ 4191 →
        (∃ t, exec (.scnt h p d a .output) s = .next t ∧ s.WritesK t h d (BitVec.ofNat 32 out.length) false 2)
        ∧ (∃ t, exec (.scnt h p d a .staging) s = .next t ∧ s.WritesK t h d (BitVec.ofNat 32 stg.length) false 2)
        ∧ (∃ t, exec (.srd h p d a b) s = .next t ∧ s.WritesK t h d (entry out) false 4)
        ∧ ∃ t, exec (.strd h p d a b) s = .next t ∧ s.WritesK t h d (entry stg) false 4)
      ∧ (4191 < c →
        (∀ v, ∃ t, exec (.scnt h p d a v) s = .next t ∧ s.Faulted t h 0x06 (s.hearth h).pc ∧ (d ≠ 0 → (t.hearth h).kr d = 0#32))
        ∧ (∃ t, exec (.srd h p d a b) s = .next t ∧ s.Faulted t h 0x06 (s.hearth h).pc ∧ (d ≠ 0 → (t.hearth h).kr d = 0x01800000#32))
        ∧ ∃ t, exec (.strd h p d a b) s = .next t ∧ s.Faulted t h 0x06 (s.hearth h).pc ∧ (d ≠ 0 → (t.hearth h).kr d = 0x01800000#32)))
  ∧ (∀ (s : State) (h : Fin 4) (p : Pred), s.Runs h p → ∀ (d a b : Fin 32) (off : Fin 128),
      let x := s.hearth h
      let addr := (x.kr a).toNat / 4 * 4
      let seq := (s.tick.seq + 1) % 2 ^ 32
      let full : Prop := 1024 ≤ s.ordinary.length ∨ 128 ≤ (s.ordinary.filter fun i => i.tick == s.tick.num + off.val).length
      let code : Nat := if s.genState ≠ 1 ∧ s.genState ≠ 2 then 0x05 else if schedTargetBad addr then 0x03 else if off.val < 3 then 0x01 else 0
      ∃ t, exec (.schd h p d a b off) s = .next t ∧ x.Advanced (t.hearth h) 8
        ∧ (∀ n, n ≠ d.val → (t.hearth h).kr n = x.kr n) ∧ (∀ g, g ≠ h.val → t.hearth g = s.hearth g)
        ∧ (∀ w, t.rd w = s.rd w)
        ∧ (code ≠ 0 → t.tick = s.tick ∧ (d ≠ 0 → (t.hearth h).kr d = BitVec.ofNat 32 code))
        ∧ (code = 0 → full → t.tick = s.tick ∧ (d ≠ 0 → (t.hearth h).kr d = 0x02#32))
        ∧ (code = 0 → ¬full →
            t.tick.seq = seq ∧ (d ≠ 0 → (t.hearth h).kr d = BitVec.ofNat 32 (256 * (seq % 2 ^ 24)))
            ∧ ∃ i : SchedItem, t.tick.items = s.tick.items ++ [i] ∧ i.seq = seq ∧ i.tick = s.tick.num + off.val ∧ i.addr = addr
                ∧ i.data = x.kr b ∧ i.mask = 0xFFFFFFFF#32 ∧ i.late = false))

/-- Headline: decode and encode agree in both directions, over all of Kiln's instruction set. -/
def Obligations.KlnWordsRoundTrip : Prop :=
  (∀ i : KInstr, i.op.wf = true → kdecode (kencode i) = some i)
    ∧ ∀ (w : Word) (i : KInstr), kdecode w = some i → i.op.wf = true ∧ kencode i = w

/-- A few words by hand. -/
def Obligations.KlnWordsOfTheEncodingTables : Prop :=
  let p : Pred := ⟨0, false⟩
  let d (w : Nat) : Option KInstr := kdecode (BitVec.ofNat 32 w)
  d 0x00000000 = some ⟨p, .nop⟩
    ∧ d 0x04000010 = some ⟨p, .br 16⟩
    ∧ d 0x08000003 = some ⟨p, .skip 3⟩
    ∧ d 0x0C000C02 = some ⟨p, .rep 3 2⟩
    ∧ d 0x1000012C = some ⟨p, .waitc 300⟩
    ∧ d 0x14000000 = some ⟨p, .endTick⟩
    ∧ d 0x2003FFFF = some ⟨p, .ldi 1 true 0xFFFF#16⟩
    ∧ d 0x240A0010 = some ⟨p, .gets 5 0x010⟩
    ∧ d 0x40041181 = some ⟨p, .alu 2 1 3 .sub⟩
    ∧ d 0x44041FFF = some ⟨p, .addi 2 1 0xFFF#12⟩
    ∧ d 0x60023201 = some ⟨p, .mul 1 3 4 true⟩
    ∧ d 0x280E2054 = some ⟨p, .mva 7 2 20 true⟩
    ∧ d 0x81043201 = some ⟨⟨2, false⟩, .cmp 2 3 4 .ne⟩
    ∧ d 0xA0C43004 = some ⟨⟨1, true⟩, .ld 2 3 0x004#12⟩
    ∧ d 0xC4022180 = some ⟨p, .srd 1 2 3⟩
    ∧ d 0xE8004280 = some ⟨p, .route 4 5⟩
    ∧ d 0xF8022181 = some ⟨p, .fire 1 2 3 .outputWord⟩
    ∧ d 0xE01C6409 = some ⟨p, .hpw 7 3 4 0x09#8⟩
    ∧ d 0xE40D230A = some ⟨p, .hpr 6 9 3 0x0A#8⟩
    ∧ d 0x68000000 = none
    ∧ d 0x4002108F = none
    ∧ d 0xE0280000 = none
    ∧ d 0x60021082 = none
    ∧ d 0x00000001 = none

/-! ### Kiln: posted entries, waiting reads and the course of a tick (R60, R71 to R75, R80, R97 to R107) -/

/-- R72, R73: a posted instruction issues into the buffer. Model's choices it rests on: log entries 8, 29. -/
def Obligations.KlnPostedInstructionsEnter : Prop :=
  ∀ (s : State) (h : Fin 4) (p : Pred), s.Runs h p →
    ∀ (a b c : Fin 32) (eop : Bool) (mode : FireMode) (m : Fin 2) (imm : BitVec 16) (port : Fin 10) (off : BitVec 8),
    let x := s.hearth h
    let cases' : List (Instr × Posted) :=
      [(.route h p a b, .route (x.kr a) (x.kr b)), (.enq h p a b eop, .enq (x.kr a) (x.kr b) eop),
       (.fire h p a b c mode, .fire (x.kr a) (x.kr b) (x.kr c) mode), (.pins h p a b c, .pins (x.kr a) (x.kr b) (x.kr c)),
       (.spix h p a m, .spix (x.kr a) m), (.sig h p imm, .sig imm.toNat),
       (.hpw h p port a b off, .hpw (((x.kr a).toNat + 4 * off.toNat) % 2 ^ 32) port (x.kr b))]
    (x.posted.length < 16 → ∀ e ∈ cases', ∃ t, exec e.1 s = .next t ∧ s.Posts t h e.2)
    ∧ (16 ≤ x.posted.length → ∀ e ∈ cases', ∃ t, exec e.1 s = .next t ∧ s.OnlyHearth t h ∧ t.hearth h = { x with cyc := x.cyc + 1 })

/-- R72, R97, R99, R102 to R106: what a drained entry does. Model's choices it rests on: log entries 8, 29. -/
def Obligations.KlnPostedEntriesDrain : Prop :=
  (∀ (s : State) (h : Fin 4),
      ((s.hearth h).posted = [] → exec (.postedDrain h) s = .next s)
      ∧ ∀ (pc : Nat) (c q : Word), s.Oldest h pc (.route c q) →
        let route (t : State) (n : Nat) : Word := tabGet (fun _ => noRoute) t.kiln.shadow n
        (c.toNat ≤ 4191 → (q.toNat ≤ 4095 ∨ q = 0xFFFFFFFF#32) →
          ∃ t, exec (.postedDrain h) s = .next t ∧ s.Left t h ∧ (∀ n, route t n = if n = c.toNat then q else route s n)
            ∧ { t with kiln.hearths := s.kiln.hearths, kiln.shadow := s.kiln.shadow } = s)
        ∧ (4191 < c.toNat → ∃ t, exec (.postedDrain h) s = .next t ∧ s.Faulted t h 0x06 pc)
        ∧ (c.toNat ≤ 4191 → 4095 < q.toNat → q ≠ 0xFFFFFFFF#32 → ∃ t, exec (.postedDrain h) s = .next t ∧ s.Faulted t h 0x07 pc))
  ∧ (∀ (s : State) (h : Fin 4) (pc : Nat),
      (∀ (m v o : Word), s.Oldest h pc (.pins m v o) →
        (o.toNat < s.cycles → s.kiln.pinsNext.length < 16 →
          ∃ t, exec (.postedDrain h) s = .next t ∧ s.Left t h ∧ t.kiln.pinsNext = s.kiln.pinsNext ++ [⟨m, v, o.toNat⟩]
            ∧ { t with kiln.hearths := s.kiln.hearths, kiln.pinsNext := s.kiln.pinsNext } = s)
        ∧ (s.cycles ≤ o.toNat → ∃ t, exec (.postedDrain h) s = .next t ∧ s.Faulted t h 0x0A pc)
        ∧ (o.toNat < s.cycles → 16 ≤ s.kiln.pinsNext.length → ∃ t, exec (.postedDrain h) s = .next t ∧ s.Faulted t h 0x0B pc))
      ∧ (∀ (imm : Nat), s.Oldest h pc (.sig imm) →
        ((s.hearth h).signalled = false →
          ∃ t, exec (.postedDrain h) s = .next t ∧ (t.hearth h).signalled = true ∧ (t.hearth h).posted = (s.hearth h).posted.tail
            ∧ (∀ g, g ≠ h.val → t.hearth g = s.hearth g)
            ∧ (evqDepth s.hub.evq + eventEntries .KILN_SIGNAL ≤ 4096 →
                ∃ e : Event, t.hub.evq = s.hub.evq ++ [e] ∧ e.name = .KILN_SIGNAL ∧ e.obj = objUnit h ∧ e.detail = [(pc : Int), (imm : Int)]))
        ∧ ((s.hearth h).signalled = true → ∃ t, exec (.postedDrain h) s = .next t ∧ s.Faulted t h 0x0D pc))
      ∧ ∀ (a b : PinChange) (cyc : Nat), s.kiln.pinsNow = [a, b] → a.cyc ≤ cyc → b.cyc ≤ cyc →
      let first := if b.cyc < a.cyc then b else a
      let second := if b.cyc < a.cyc then a else b
      let mine (n : Nat) : Prop := s.ef (F.GPIO_PINn_CFG_OWNER n) = 1 ∧ s.ef (F.GPIO_PINn_CFG_DIR n) = 1
      let out (t : State) (n : Nat) : Bool := (t.rd Reg.GPIO_OUT).getLsbD n
      ∃ t, exec (.pinsApply cyc) s = .next t ∧ t.kiln.pinsNow = [] ∧ (∀ r, r ≠ Reg.GPIO_OUT → t.rd r = s.rd r)
        ∧ ∀ n < 32,
          (¬mine n → out t n = out s n)
          ∧ (mine n → second.mask.getLsbD n = true → out t n = second.value.getLsbD n)
          ∧ (mine n → second.mask.getLsbD n = false → first.mask.getLsbD n = true → out t n = first.value.getLsbD n)
          ∧ (mine n → second.mask.getLsbD n = false → first.mask.getLsbD n = false → out t n = out s n))
  ∧ (∀ (s : State) (h : Fin 4) (pc : Nat),
      (∀ (q v : Word) (eop : Bool), s.Oldest h pc (.enq q v eop) →
        (q.toNat ≤ 4095 → eop = false → ((s.queue q.toNat).pkt (.hearth h)).isNone → s.hearthOpens h < 8 → s.refuses q.toNat 0 1 = false →
          ∃ t, exec (.postedDrain h) s = .next t ∧ s.Left t h ∧ t.freeCells = s.freeCells - 1
            ∧ ((t.queue q.toNat).pkt (.hearth h)).map (·.words) = some [v] ∧ (t.queue q.toNat).items = (s.queue q.toNat).items)
        ∧ (4095 < q.toNat → ∃ t, exec (.postedDrain h) s = .next t ∧ s.Faulted t h 0x07 pc))
      ∧ (∀ (u c i : Word) (mode : FireMode), s.Oldest h pc (.fire u c i mode) →
        (mode = .boundaryPlus → u.toNat < 64 →
          exec (.postedDrain h) s = exec (.fireRequest ⟨u.toNat % 64, Nat.mod_lt _ (by decide)⟩
            (boundaryClock s.rate (s.tick.num - 1) + i.toNat * 65536) .kiln) (s.setHearth h { s.hearth h with posted := (s.hearth h).posted.tail }))
        ∧ (mode ≠ .boundaryPlus → 4191 < c.toNat → ∃ t, exec (.postedDrain h) s = .next t ∧ s.Faulted t h 0x06 pc)
        ∧ (mode = .boundaryPlus ∨ c.toNat ≤ 4191 → 63 < u.toNat → ∃ t, exec (.postedDrain h) s = .next t ∧ s.Faulted t h 0x09 pc)
        ∧ (mode = .stagingEntry → c.toNat ≤ 4191 → u.toNat < 64 → (s.viewOf .staging c.toNat).length ≤ i.toNat →
            ∃ t, exec (.postedDrain h) s = .next t ∧ s.Left t h ∧ { t with kiln.hearths := s.kiln.hearths } = s))
      ∧ (∀ (d : Word) (m : Fin 2), s.Oldest h pc (.spix d m) →
          (0x10000 ≤ d.toNat ∨ (d.toNat < 0x8000 ∧ d.toNat / 0x2000 ≠ h)) → ∃ t, exec (.postedDrain h) s = .next t ∧ s.Faulted t h 0x01 pc)
      ∧ ∀ (off port : Nat) (v : Word), s.Oldest h pc (.hpw off port v) → port < 10 →
          ((if port = 0 then 0x3FFFF else 0xFFFFF) < off → ∃ t, exec (.postedDrain h) s = .next t ∧ s.Faulted t h 0x04 pc)
          ∧ (off ≤ (if port = 0 then 0x3FFFF else 0xFFFFF) → off % 4 ≠ 0 → ∃ t, exec (.postedDrain h) s = .next t ∧ s.Faulted t h 0x05 pc))

/-- R75: `hpr` and `qdep`. Model's choices it rests on: log entry 8. -/
def Obligations.KlnWaitingReads : Prop :=
  ∀ (s : State) (h : Fin 4) (p : Pred), s.Runs h p → ∀ (d a : Fin 32) (port : Fin 10) (off : BitVec 8),
    let x := s.hearth h
    let q := (x.kr a).toNat
    let o := ((x.kr a).toNat + 4 * off.toNat) % 2 ^ 32
    let waits (i : Instr) : Prop := ∃ t, exec i s = .next t ∧ s.OnlyHearth t h ∧ t.hearth h = { x with cyc := x.cyc + 1 }
    let span := if port = 0 then 0x3FFFF else 0xFFFFF
    let base : Nat := [0x400000, 0x500000, 0x700000, 0xB00000, 0xC00000, 0xD00000, 0xF00000, 0x1100000, 0x1200000, 0x900000].getD port 0
    (x.posted ≠ [] → waits (.qdep h p d a) ∧ waits (.hpr h p d port a off))
    ∧ (x.posted = [] →
      (d ≠ 0 → q ≤ 4095 →
        ∃ t, exec (.qdep h p d a) s = .next t ∧ (t.hearth h).cyc = x.cyc + 12
          ∧ (t.hearth h).kr d = BitVec.ofNat 32 ((s.queue q).pool + 32 * (s.queue q).blocks))
      ∧ (4095 < q → ∃ t, exec (.qdep h p d a) s = .next t ∧ s.Faulted t h 0x07 x.pc ∧ (d ≠ 0 → (t.hearth h).kr d = 0#32))
      ∧ (o ≤ span → o % 4 = 0 → d ≠ 0 → ∃ t, exec (.hpr h p d port a off) s = .next t
          ∧ (t.hearth h).kr d = (s.busRead (5 + h) (base + o)).1 ∧ (t.hearth h).cyc = x.cyc + 12)
      ∧ (span < o → ∃ t, exec (.hpr h p d port a off) s = .next t ∧ s.Faulted t h 0x04 x.pc ∧ (d ≠ 0 → (t.hearth h).kr d = 0#32))
      ∧ (o ≤ span → o % 4 ≠ 0 → ∃ t, exec (.hpr h p d port a off) s = .next t ∧ s.Faulted t h 0x05 x.pc
          ∧ (d ≠ 0 → (t.hearth h).kr d = 0#32)))

/-- R80: a parity error of a fetched word. Model's choices it rests on: log entries 8, 28. -/
def Obligations.KlnParityStopsTheHearth : Prop :=
  ∀ (s : State) (h : Fin 4), (s.hearth h).running = true →
    ∃ t, exec (.kilnParity h) s = .next t
      ∧ t.hearth h = { s.hearth h with running := false, reps := [], used := (s.hearth h).cyc - 256 }
      ∧ (∀ g, g ≠ h.val → t.hearth g = s.hearth g)
      ∧ (evqDepth s.hub.evq + eventEntries .KILN_PARITY ≤ 4096 →
          ∃ e : Event, t.hub.evq = s.hub.evq ++ [e] ∧ e.name = .KILN_PARITY ∧ e.obj = objUnit h
            ∧ e.detail = [(s.activeBank : Int), ((s.hearth h).pc : Int)])

/-- R60, and the start of R57. -/
def Obligations.KlnTailGuardClearsHearths : Prop :=
  let zero (x : Hearth) : Prop := (∀ n, x.kr n = 0#32) ∧ (∀ n, x.ar n = 0#64) ∧ (∀ n, x.fr n = decide (n = 0)) ∧ x.reps = []
    ∧ x.faultCode = 0 ∧ x.faultCount = 0 ∧ x.faultPc = 0 ∧ x.sat = false
  (∀ h, zero (State.reset.hearth h))
  ∧ ∀ s : State,
    (s.genState = 1 → s.tick.inTail = false →
      ∃ t, exec .tailGuard s = .next t ∧ t.tick.inTail = true ∧ ∀ h < 4, (t.hearth h).running = false ∧ zero (t.hearth h))
    ∧ (s.genState = 1 → s.kiln.started = false → s.tick.inTail = false → s.bankValid = true →
      ∃ t, exec .kilnTickStart s = .next t ∧ t.kiln.started = true
        ∧ ∀ h < 4, (t.hearth h).running = true ∧ zero (t.hearth h) ∧ (t.hearth h).cyc = 256
            ∧ (t.hearth h).pc = (s.bank s.activeBank).entry.getD h 0)
    ∧ (s.genState ≠ 1 ∨ s.bankValid = false → exec .kilnTickStart s = .next s)
    ∧ (s.genState ≠ 1 → exec .tailGuard s = .next s)

/-! ### The tick and its scheduler (R27 to R54) -/

/-- R27, whole. -/
def Obligations.TickValidRates : Prop :=
  (∀ n, validRate n = true ↔ 1000 ≤ n ∧ n ≤ 100000 ∧ ∃ a b, a ≤ 11 ∧ b ≤ 8 ∧ n = 2 ^ a * 5 ^ b)
    ∧ (∀ n, validRate n = true ↔ 1000 ≤ n ∧ n ≤ 100000 ∧ 800000000 % n = 0)
    ∧ (∀ n, validRate n = true → 4000000000 % n = 0)
    ∧ ∀ (s : State) (m : Master) (n : Nat), n < 131072 → validRate n = false →
        ∀ run : Bool, run = true ∨ s.genState = 1 ∨ s.genState = 3 →
        ∃ t, exec (.tickRateSet m n run) s = .next t ∧ t.rate = s.rate ∧ t.cycles = s.cycles ∧ t.f F.KLN_BUDGET_BUDGET = s.f F.KLN_BUDGET_BUDGET

/-- R31, whole, and the times of R30. The hub clock counts 2^-16 ns. -/
def Obligations.TickNumbersAndSeconds : Prop :=
  (∀ n sec k, validRate n = true → k < n →
      boundaryClock n (sec * n + k) * n = sec * 65536000000000 * n + k * 65536000000000 ∧ boundaryClock n (sec * n) = sec * 65536000000000)
    ∧ (∀ n m sec, validRate n = true → validRate m = true → boundaryClock n (sec * n) = boundaryClock m (sec * m))
    ∧ (∀ n t u, validRate n = true → t < u → boundaryClock n t < boundaryClock n u)
    ∧ boundaryClock 32000 57600000012345 = (1800000000 * 1000000000 + 385781250) * 65536

/-- R30, R34, R37, R43: the boundary, the stop and the close of the staging. Model's choices it rests on: log entries 2, 23, 24, 26. -/
def Obligations.TickBoundaryCommand : Prop :=
  ∀ s : State,
    let stopped (t : State) : Prop := t.genState = 3 ∧ t.f F.KLN_TICK_CTRL_RUN = 0 ∧ t.tick.items = []
    (s.genState = 1 →
      let g := s.tailGuard
      (g.f F.KLN_TICK_CTRL_RUN = 1 → ∃ t, exec .tickBoundary s = .next t ∧ t.tick.num = g.tick.jump.getD (g.tick.num + 1))
      ∧ (g.f F.KLN_TICK_CTRL_RUN = 0 → ∃ t, exec .tickBoundary s = .next t ∧ stopped t ∧ t.tick.num = s.tick.num))
    ∧ (s.genState ≠ 1 → exec .tickBoundary s = .next s)
    ∧ (s.genState ≠ 3 → ∃ t, exec .tickStop s = .next t ∧ stopped t ∧ t.tick.num = s.tick.num)
    ∧ (s.genState = 3 → exec .tickStop s = .next s)
    ∧ ∀ m : TickMeas,
      (s.genState = 1 → s.tick.stagingClosed = false →
        ∃ t, exec (.stagingClose m) s = .next t ∧ t.tick.stagingClosed = true ∧ t.tick.num = s.tick.num)
      ∧ (s.genState ≠ 1 ∨ s.tick.stagingClosed = true → exec (.stagingClose m) s = .next s)

/-- R32, R33, R35: rate, RUN and the start of the generator. Events are said to join the queue when it has room. Model's choices it rests on: log entries 25, 26, 27. -/
def Obligations.TickRateRunAndStart : Prop :=
  (∀ s : State,
    let ready : Prop := s.genState = 0 ∧ s.f F.KLN_TICK_CTRL_RUN = 1 ∧ s.tick.firstLock = true ∧ s.f F.CLK_STAT_SMP_LOCK = 1
      ∧ s.umb.held = false ∧ s.umb.thermal = false
    let holds := s.tick.condAt.getD s.tick.clock
    (ready → ∃ t sec, exec .tickGeneratorStart s = .next t ∧ t.tick.num = s.rate * sec ∧ t.genState = 1
        ∧ holds < sec * 65536000000000 ∧ s.tick.stopEnd ≤ sec * 65536000000000
        ∧ ∀ z, holds < z * 65536000000000 → s.tick.stopEnd ≤ z * 65536000000000 → sec ≤ z)
      ∧ (¬ready → exec .tickGeneratorStart s = .next s))
  ∧ ∀ (s : State) (m : Master) (n : Nat), n < 131072 →
    let records (t : State) (e : EvName) : Prop := evqDepth s.hub.evq + eventEntries e ≤ 4096 → ∃ x : Event, x.name = e ∧ t.hub.evq = s.hub.evq ++ [x]
    (validRate n = true → s.genState = 3 →
      ∃ t, exec (.tickRateSet m n false) s = .next t ∧ t.rate = n ∧ (n ≠ s.rate → t.cycles = 800000000 / n ∧ t.f F.KLN_BUDGET_BUDGET = 800000000 / n - 512)
        ∧ t.genState = 3 ∧ t.f F.KLN_TICK_CTRL_RUN = 0 ∧ t.tick = s.tick)
    ∧ (validRate n = true → s.genState = 0 →
      ∃ t, exec (.tickRateSet m n true) s = .next t ∧ t.rate = n ∧ (n ≠ s.rate → t.cycles = 800000000 / n ∧ t.f F.KLN_BUDGET_BUDGET = 800000000 / n - 512)
        ∧ t.genState = 0 ∧ t.f F.KLN_TICK_CTRL_RUN = 1 ∧ t.tick = { s.tick with condAt := t.tick.condAt })
    ∧ (n ≠ s.rate → s.genState = 1 → ∀ run : Bool,
      ∃ t, exec (.tickRateSet m n run) s = .next t ∧ t.rate = s.rate ∧ t.f F.KLN_TICK_CTRL_RUN = (if run then 1 else 0) ∧ t.genState = 1
        ∧ records t .TICK_RATE_BUSY)
    ∧ (n ≠ s.rate → validRate n = false → s.genState = 3 →
      ∃ t, exec (.tickRateSet m n false) s = .next t ∧ t.rate = s.rate ∧ t.f F.KLN_TICK_CTRL_RUN = 0 ∧ records t .TICK_RATE_BAD)
    ∧ (s.genState = 3 → s.overBudget = false →
      ∃ t, exec (.tickRunStart m) s = .next t ∧ t.genState = 0 ∧ t.f F.KLN_TICK_CTRL_RUN = 1 ∧ t.rate = s.rate ∧ t.tick = { s.tick with condAt := t.tick.condAt })
    ∧ (s.genState = 3 → s.overBudget = true →
      ∃ t, exec (.tickRunStart m) s = .next t ∧ t.genState = 3 ∧ t.f F.KLN_TICK_CTRL_RUN = 0 ∧ records t .TICK_BUDGET)
    ∧ (s.genState ≠ 3 → ∃ t, exec (.tickRunStart m) s = .next t ∧ t.genState = s.genState ∧ t.f F.KLN_TICK_CTRL_RUN = 1)

/-- R46, R48, R49, R53: a commit. Model's choices it rests on: log entries 9, 34. -/
def Obligations.SchedulerDecidesACommit : Prop :=
  ∀ (s : State) (m : Master) (lateOk : Bool),
    let mc := masterCode m
    let c := s.tick.num
    let T := s.f (privF mc F.KLN_SCHED_TICK_LO_TICK) + s.f (privF mc F.KLN_SCHED_TICK_HI_TICK) * 2 ^ 32
    let addr := s.f (privF mc F.KLN_SCHED_ADDR_ADDR) * 4
    let due := max T (if s.tick.inTail then c + 2 else c + 1)
    let ordinary := s.tick.items.filter fun i => !i.late
    let code : Nat :=
      if s.genState ≠ 1 ∧ s.genState ≠ 2 then 0x05
      else if (0x10000 ≤ addr ∧ addr < 0x20000) ∨ (0x1300000 ≤ addr ∧ addr < 0x1500000)
          ∨ (Reg.KLN_SCHED_TICK_LO ≤ addr ∧ addr ≤ Reg.KLN_SCHED_SEQ) then 0x03
      else if c + 2 ^ 32 < T then 0x04
      else if c + 3 ≤ T then
        if 1024 ≤ ordinary.length ∨ 128 ≤ (ordinary.filter fun i => i.tick == T).length then 0x02 else 0x00
      else if lateOk = false then 0x01
      else if 8 ≤ (s.tick.items.filter fun i => i.late && i.due == due).length then 0x02 else 0x00
    (∃ t, exec (.schedCommit m lateOk true) s = .next t ∧ t.f (privF mc F.KLN_SCHED_RESULT_CODE) = 0x08 ∧ t.tick = s.tick)
    ∧ ∃ t, exec (.schedCommit m lateOk false) s = .next t ∧ t.f (privF mc F.KLN_SCHED_RESULT_CODE) = code
      ∧ (code ≠ 0 → t.tick = s.tick)
      ∧ (code = 0 → t.tick.seq = (s.tick.seq + 1) % 2 ^ 32 ∧ t.f (privF mc F.KLN_SCHED_SEQ_SEQ) = t.tick.seq
          ∧ ∃ i : SchedItem, t.tick.items = s.tick.items ++ [i] ∧ i.seq = t.tick.seq ∧ i.tick = T ∧ i.addr = addr ∧ i.master = mc
              ∧ i.data = s.rd (priv mc Reg.KLN_SCHED_DATA) ∧ i.mask = s.rd (priv mc Reg.KLN_SCHED_MASK)
              ∧ (i.late = true ↔ T < c + 3) ∧ i.due = if c + 3 ≤ T then T else due)

/-- R50, whole. -/
def Obligations.SchedulerCancelsUnderTheLeadRule : Prop :=
  ∀ (s : State) (m : Master),
    let mc := masterCode m
    let seq := (s.rd (priv mc Reg.KLN_SCHED_DATA)).toNat
    let code (t : State) : Nat := t.f (privF mc F.KLN_SCHED_RESULT_CODE)
    ((∀ i ∈ s.tick.items, i.seq ≠ seq) → ∃ t, exec (.schedCancel m) s = .next t ∧ code t = 0x07 ∧ t.tick = s.tick)
    ∧ ∀ i ∈ s.tick.items, i.seq = seq → (∀ j ∈ s.tick.items, j.seq = seq → j = i) →
      (s.tick.num + 3 ≤ i.tick → ∃ t, exec (.schedCancel m) s = .next t ∧ code t = 0x06
          ∧ i ∉ t.tick.items ∧ (∀ j, j ≠ i → (j ∈ t.tick.items ↔ j ∈ s.tick.items)))
      ∧ (i.tick < s.tick.num + 3 → ∃ t, exec (.schedCancel m) s = .next t ∧ code t = 0x01 ∧ t.tick = s.tick)

/-! ### The register bus (R7 to R9, R66, R538 to R541) -/

/-- R7 to R9, bit by bit. FNC's fence registers and the hub's own registers show every access code. Model's choices it rests on: log entries 17, 21, 33. -/
def Obligations.BusWriteObeysAccessCodes : Prop :=
  ∀ (s : State) (m : Master) (a : Nat) (data : Word) (r : RegRow) (i : Nat),
    a % 4 = 0 → (a < 0x8000 ∨ (0x1300000 ≤ a ∧ a < 0x1400000)) → rowOf a = some (r, i) → s.umb.thermal = false → s.umb.held = false →
    let has (mask k : Nat) : Bool := mask.testBit k
    let old := s.rd a
    let open' : Prop := s.f F.UMB_STAT_LC ≤ 1
    let differs (mask : Nat) : Prop := ∃ k < 32, has mask k = true ∧ old.getLsbD k ≠ data.getLsbD k
    let joins (t : State) (n : EvName) : Prop := evqDepth s.hub.evq + eventEntries n ≤ 4096 →
      ∃ e : Event, e.name = n ∧ t.hub.evq = s.hub.evq ++ [e]
    ∃ t, exec (.registerWrite m a data) s = .next t
      ∧ (∀ k < 32,
        (has r.rw k = true → (t.rd a).getLsbD k = data.getLsbD k)
        ∧ (has r.w1c k = true → (t.rd a).getLsbD k = (old.getLsbD k && !data.getLsbD k))
        ∧ (has r.w1s k = true → (t.rd a).getLsbD k = (old.getLsbD k || data.getLsbD k))
        ∧ (has r.rwl k = true → open' → (t.rd a).getLsbD k = data.getLsbD k)
        ∧ (has r.rwl k = true → ¬open' → (t.rd a).getLsbD k = old.getLsbD k)
        ∧ (has r.rof k = true → (t.rd a).getLsbD k = old.getLsbD k)
        ∧ (has r.rw k = false → has r.w1c k = false → has r.w1s k = false → has r.rwl k = false → (t.rd a).getLsbD k = old.getLsbD k))
      ∧ (differs r.rof → joins t .FENCE_WRITE)
      ∧ (¬differs r.rof → ¬open' → differs r.rwl → joins t .ACCESS_LOCKED)
      ∧ (¬differs r.rof → (open' ∨ ¬differs r.rwl) → t.hub.evq = s.hub.evq ∧ ∀ b, b ≠ a → t.rd b = s.rd b)

/-- R538, R541, R66: reserved addresses, latching reads and tick RAM over the bus. Model's choices it rests on: log entries 18, 114. -/
def Obligations.BusErrorsAndLatches : Prop :=
  ∀ (s : State) (m : Master), s.umb.thermal = false → s.umb.held = false →
    let mc := masterCode m
    (∀ (a : Nat) (w : Bool), a % 4 = 0 →
      ((0x30000 ≤ a ∧ a < 0x100000) ∨ (0x280000 ≤ a ∧ a < 0x400000) ∨ (0x440000 ≤ a ∧ a < 0x500000) ∨ 0x1500000 ≤ a) →
      ∃ t, exec (.busAddrAccess m a w) s = .next t ∧ t.rd Reg.HUB_BUS_ERR_ADDR = BitVec.ofNat 32 a
        ∧ t.rd Reg.HUB_BUS_ERR_INFO = BitVec.ofNat 32 ((if w then 2 ^ 31 else 0) + mc)
        ∧ (w = false → t.hub.rdata = 0#32)
        ∧ tabGet (fun _ => 0) t.hub.busErrTick mc = s.tick.num + 1
        ∧ (tabGet (fun _ => 0) s.hub.busErrTick mc = s.tick.num + 1 → t.hub.evq = s.hub.evq)
        ∧ (tabGet (fun _ => 0) s.hub.busErrTick mc ≠ s.tick.num + 1 → evqDepth s.hub.evq + eventEntries .BUS_ADDR ≤ 4096 →
            ∃ e : Event, e.name = .BUS_ADDR ∧ e.obj = objMaster mc ∧ e.detail = [(a : Int), if w then 1 else 0] ∧ t.hub.evq = s.hub.evq ++ [e]))
    ∧ (∃ t, exec (.tickLoRead m false) s = .next t ∧ t.hub.rdata = BitVec.ofNat 32 s.tick.num
        ∧ t.rd (priv mc Reg.KLN_TICK_HI) = BitVec.ofNat 32 (s.tick.num / 2 ^ 32)
        ∧ ∀ b, b ≠ priv mc Reg.KLN_TICK_HI → t.rd b = s.rd b)
    ∧ (∃ t, exec (.tickLoRead m true) s = .next t ∧ t.hub.rdata = BitVec.ofNat 32 (s.tick.clock / 65536000000000)
        ∧ t.rd (priv mc Reg.PTP_NOW_NS) = BitVec.ofNat 32 (s.tick.clock % 65536000000000 / 65536)
        ∧ ∀ n, n ≠ mc → ∀ b, b < 2 ^ 32 → t.rd (priv n b) = s.rd (priv n b))
    ∧ ∀ x : TramWord,
      let i := x.index.val
      let double : Prop := i ∈ s.kiln.tramDouble ∨ x.ecc = .double
      (¬double → ∃ t, exec (.tramBusRead m x) s = .next t ∧ t.hub.rdata = s.rd (0x140000 + 4 * i)
        ∧ (x.ecc = .single → i ∈ t.kiln.tramSingle ∧ t.f F.KLN_TRAM_ERR_SINGLE = min (s.f F.KLN_TRAM_ERR_SINGLE + 1) 65535))
      ∧ (double → ∃ t, exec (.tramBusRead m x) s = .next t ∧ t.hub.rdata = 0#32 ∧ i ∈ t.kiln.tramDouble
          ∧ t.f F.KLN_TRAM_ERR_DOUBLE = min (s.f F.KLN_TRAM_ERR_DOUBLE + 1) 65535
          ∧ (evqDepth s.hub.evq + eventEntries .KLN_TRAM_ECC ≤ 4096 →
              ∃ e : Event, e.name = .KLN_TRAM_ECC ∧ e.detail = [(i : Int), (mc : Int)] ∧ t.hub.evq = s.hub.evq ++ [e]))

/-! ### Loading and swapping tick programs (R113 to R131) -/

/-- R114 to R117: the load commands. Model's choices it rests on: log entries 2, 35. -/
def Obligations.LoaderCommandsAct : Prop :=
  ∀ (s : State) (m : Master) (b : Fin 2),
    let mc := masterCode m
    let phase (t : State) : Nat := t.f F.KLN_LOAD_STAT_PHASE
    let owner (t : State) : Nat := t.f F.KLN_LOAD_STAT_OWNER
    let busy : Prop := phase s = 1 ∨ phase s = 2
    let records (t : State) (n : EvName) (obj : Nat) (d : List Int) : Prop := evqDepth s.hub.evq + eventEntries n ≤ 4096 →
      ∃ e : Event, e.name = n ∧ e.obj = obj ∧ e.detail = d ∧ t.hub.evq = s.hub.evq ++ [e]
    let same (t : State) : Prop := t.rd Reg.KLN_LOAD_STAT = s.rd Reg.KLN_LOAD_STAT ∧ t.rd Reg.KLN_LOAD_DETAIL = s.rd Reg.KLN_LOAD_DETAIL ∧ t.kiln = s.kiln
    (∃ t, exec (.loadStart m b true) s = .next t ∧ same t ∧ records t .LOAD_CMD_BAD (objMaster mc) [])
    ∧ (s.bankState b = 4 → ∃ t, exec (.loadStart m b false) s = .next t ∧ same t ∧ records t .LOAD_START_REFUSED (objMaster mc) [0x19])
    ∧ (s.bankState b ≠ 4 → busy → owner s ≠ mc →
        ∃ t, exec (.loadStart m b false) s = .next t ∧ same t ∧ records t .LOAD_START_REFUSED (objMaster mc) [0x1A])
    ∧ (s.bankState b ≠ 4 → ¬busy →
        ∃ t, exec (.loadStart m b false) s = .next t ∧ t.bankState b = 1 ∧ (t.bank b).loaded = false ∧ owner t = mc ∧ phase t = 1
          ∧ t.kiln.image = [] ∧ t.kiln.loadBank = b.val ∧ t.hub.evq = s.hub.evq)
    ∧ (busy → owner s = mc → s.kiln.loadBank < 2 →
        ∃ t, exec (.loadAbort m) s = .next t ∧ t.bankState s.kiln.loadBank = 0 ∧ (t.bank s.kiln.loadBank).loaded = false ∧ phase t = 3
          ∧ t.f F.KLN_LOAD_STAT_CODE = 0x1C ∧ records t .LOAD_ABANDONED 0 [0x1C, (mc : Int)])
    ∧ (¬(busy ∧ owner s = mc) → exec (.loadAbort m) s = .next s)
    ∧ (phase s = 1 → s.kiln.loadBank < 2 →
        ∃ t, exec .loadTimeout s = .next t ∧ t.bankState s.kiln.loadBank = 0 ∧ phase t = 3 ∧ t.f F.KLN_LOAD_STAT_CODE = 0x1B
          ∧ records t .LOAD_ABANDONED 0 [0x1B, (owner s : Int)])
    ∧ (phase s ≠ 1 → exec .loadTimeout s = .next s)
    ∧ (∀ w : Word,
        (phase s = 1 → owner s = mc → s.kiln.image.length < 15 →
          exec (.loadData m w) s = .next { s with kiln.image := s.kiln.image ++ [w] })
        ∧ (busy → owner s ≠ mc → ∃ t, exec (.loadData m w) s = .next t ∧ same t ∧ records t .BANK_WRITE (objMaster mc) [])
        ∧ (¬busy → mc ∉ s.kiln.strayNoted →
            ∃ t, exec (.loadData m w) s = .next t ∧ t.kiln.image = s.kiln.image ∧ mc ∈ t.kiln.strayNoted ∧ records t .BANK_WRITE (objMaster mc) [])
        ∧ (¬busy → mc ∈ s.kiln.strayNoted → exec (.loadData m w) s = .next s))
    ∧ ∀ i : Fin 65536, ∃ t, exec (.bankWrite m b i) s = .next t ∧ same t ∧ records t .BANK_WRITE (objMaster mc) []

/-- R116, R118: the checks of an image. Model's choices it rests on: log entries 35, 36. -/
def Obligations.LoaderAdmitsOrRefuses : Prop :=
  ∀ (s : State) (m : Master), s.kiln.loadBank < 2 →
    let b := s.kiln.loadBank
    let phase (t : State) : Nat := t.f F.KLN_LOAD_STAT_PHASE
    let refused (t : State) (code : Nat) : Prop := t.bankState b = 5 ∧ (t.bank b).loaded = false ∧ phase t = 3 ∧ t.f F.KLN_LOAD_STAT_CODE = code % 256
      ∧ t.kiln.image = [] ∧ t.f F.HUB_INT_RAW_LOAD = 1
    (phase s = 2 → ∃ t, exec .loadCheckDone s = .next t ∧ phase t = 3 ∧ t.kiln.image = [] ∧ t.f F.HUB_INT_RAW_LOAD = 1
      ∧ (s.imageCode.1 = 0 → t.bankState b = 3 ∧ t.f F.KLN_LOAD_STAT_CODE = 0
        ∧ (t.bank b).loaded = true ∧ (t.bank b).base = s.imgBase ∧ (t.bank b).code = s.imgCodeSec ∧ (t.bank b).demands = demandsOf s.imgDemandWords
        ∧ t.f (F.KLN_Bb_RATE_RATE b) = s.imgRate % 2 ^ 17 ∧ t.f (F.KLN_Bb_ID_BUILD_ID b) = s.imgWord 3)
      ∧ (s.imageCode.1 ≠ 0 → refused t s.imageCode.1))
    ∧ (phase s ≠ 2 → exec .loadCheckDone s = .next s)
    ∧ ∀ w : Word, s.f F.KLN_LOAD_STAT_OWNER = masterCode m →
      (phase s = 1 → s.kiln.image.length = 15 →
        let c := { s with kiln.image := s.kiln.image ++ [w] }.headerCode
        c ≠ 0 → ∃ t, exec (.loadData m w) s = .next t ∧ refused t c)
      ∧ (phase s = 2 → ∃ t, exec (.loadData m w) s = .next t ∧ refused t 0x04)

/-- R126, R128: an untimed swap request. Model's choices it rests on: log entry 38. -/
def Obligations.SwapRequestIsDecided : Prop :=
  ∀ (s : State) (m : Master) (b : Fin 2),
    let ticks : Prop := s.genState = 1 ∨ s.genState = 2
    let why : Nat := if s.bankState b = 4 then 2 else if s.bankState b ≠ 3 then 1 else if s.f (F.KLN_Bb_RATE_RATE b) ≠ s.rate then 3
      else if s.envFits b = false then 4 else 0
    let decided (t : State) (n : Nat) : Prop :=
      (why ≠ 0 → t.activeBank = s.activeBank ∧ t.bankValid = s.bankValid ∧ t.bank b = s.bank b
        ∧ t.f F.KLN_SWAP_STAT_REASON = why ∧ t.f F.KLN_SWAP_STAT_REFUSED = min (s.f F.KLN_SWAP_STAT_REFUSED + 1) (fieldMax F.KLN_SWAP_STAT_REFUSED)
        ∧ (∀ i < 65536, t.rd (tramAddr i) = s.rd (tramAddr i))
        ∧ (evqDepth s.hub.evq + eventEntries .SWAP_REFUSED ≤ 4096 →
            ∃ e : Event, e.name = .SWAP_REFUSED ∧ e.detail = [(why : Int), (b.val : Int), (n : Int)] ∧ t.hub.evq = s.hub.evq ++ [e]))
      ∧ (why = 0 → t.bankState b = 4 ∧ t.activeBank = b.val ∧ t.bankValid = true ∧ (s.bankValid = true → t.bankState (1 - b.val) = 3)
          ∧ t.f F.KLN_SWAP_STAT_TAKEN = (s.f F.KLN_SWAP_STAT_TAKEN + 1) % (fieldMax F.KLN_SWAP_STAT_TAKEN + 1)
          ∧ ∀ i < 65536, ∀ v, (s.bank b).seed = [(i, v)] → t.rd (tramAddr i) = v)
    ∃ t, exec (.swapRequest m b) s = .next t
      ∧ (ticks → t = { s with kiln.swaps := s.kiln.swaps ++ [⟨b.val, s.tick.num + 2⟩] }
        ∧ (s.kiln.swaps = [] → s.kiln.swapsNow = [] → ∀ n, s.tick.num + 2 ≤ n → decided (({ t with tick.num := n }).swapBoundary n) n))
      ∧ (¬ticks → decided t s.tick.num)

/-! ### Front ends (R132 to R160, R558) -/

/-- R138 to R158, R558: the commands of the front ends. Model's choices it rests on: log entries 2, 41, 43, 44. -/
def Obligations.FrontEndCommandsAct : Prop :=
  ∀ (s : State) (c : Fin 96) (d : Fin 24) (m : Master),
    (tabGet (fun _ => 0) s.front.settleTo c ≤ s.tick.clock →
      ∃ t, exec (.settleEnd c) s = .next t ∧ t.f (F.AFE_CH_STAT_SETTLING c) = 0 ∧ (∀ a, a ≠ Reg.AFE_CH_STAT c → t.rd a = s.rd a)
        ∧ { t with mem := s.mem } = s)
    ∧ (s.tick.clock < tabGet (fun _ => 0) s.front.settleTo c → exec (.settleEnd c) s = .next s)
    ∧ (∀ mv : Int,
        let out (t : State) : Nat := tabGet (fun _ => 0) t.front.cmOut c
        let in' (t : State) : Nat := tabGet (fun _ => 0) t.front.cmIn c
        let hi : Prop := s.efs (F.AFE_CH_CM_CM_HI c) * 100 < mv
        let lo : Prop := mv < s.efs (F.AFE_CH_CM_CM_LO c) * 100
        let cmf (t : State) : Nat := t.f (F.AFE_CH_STAT_CMF c)
        let live : Prop := s.ef (F.AFE_CH_CFG_MODE c) ≠ 0 ∧ s.f (F.AFE_CH_STAT_SETTLING c) = 0
        (¬live → exec (.cmCheck c mv) s = .next s)
        ∧ (live → hi ∨ lo → ∃ t, exec (.cmCheck c mv) s = .next t ∧ out t = out s + 1 ∧ in' t = 0
            ∧ (cmf s = 0 → max 1 (s.ef (F.AFE_CH_CM_DEB_ON c)) ≤ out s + 1 →
                cmf t = 1 ∧ t.f (F.AFE_CH_STAT_CMCLASS c) = (if s.efs (F.AFE_CH_CM_CM_HI c) * 100 < mv then 1 else 2)
                ∧ s.Joins t .CM_FAULT (objChannel c) [if s.efs (F.AFE_CH_CM_CM_HI c) * 100 < mv then 1 else 2])
            ∧ (cmf s = 1 ∨ out s + 1 < max 1 (s.ef (F.AFE_CH_CM_DEB_ON c)) → cmf t = cmf s ∧ t.hub.evq = s.hub.evq))
        ∧ (live → ¬hi → ¬lo → ∃ t, exec (.cmCheck c mv) s = .next t ∧ in' t = in' s + 1 ∧ out t = 0
            ∧ (cmf s = 1 → max 1 (s.ef (F.AFE_CH_CM_DEB_OFF c)) * 64 ≤ in' s + 1 → cmf t = 0
                ∧ s.Joins t .CM_CLEAR (objChannel c) [(((s.tick.clock - tabGet (fun _ => 0) s.front.cmSince c) / 65536 : Nat) : Int)])
            ∧ (cmf s = 0 ∨ in' s + 1 < max 1 (s.ef (F.AFE_CH_CM_DEB_OFF c)) * 64 → cmf t = cmf s ∧ t.hub.evq = s.hub.evq)))
    ∧ (∀ force : Int,
        let regulates : Prop := s.ef (F.AFE_EX_CTRL_EN d) = 1 ∧ s.ef (F.AFE_EX_CTRL_REMOTE d) = 1
        let most : Int := if s.ef (F.AFE_EX_CTRL_SINGLE d) = 1 then 12000 else 24000
        let was := tabGet (fun _ => false) s.front.comply d
        let c := Instr.excComply ⟨d, force⟩
        (¬regulates → exec c s = .next s)
        ∧ (regulates → ∃ t, exec c s = .next t ∧ t.f (F.AFE_EX_STAT_COMPLY d) = (if most ≤ force then 1 else 0)
            ∧ tabGet (fun _ => 0) t.front.force d = min force most ∧ tabGet (fun _ => false) t.front.comply d = decide (most ≤ force)
            ∧ s.RegsBut t [Reg.AFE_EX_STAT d] ∧ (was = false → most ≤ force → s.Joins t .EXC_COMPLY (objUnit d) [])
            ∧ (was = true ∨ force < most → t.hub.evq = s.hub.evq)))
    ∧ (0 < s.driverOut d → s.f (F.AFE_EX_STAT_LIMIT d) = 0 →
        ∃ t, exec (.excLimit d) s = .next t ∧ t.f (F.AFE_EX_STAT_LIMIT d) = 1 ∧ tabGet (fun _ => none) t.front.limitAt d = some s.tick.clock
          ∧ s.RegsBut t [Reg.AFE_EX_STAT d, Reg.FNC_HIT] ∧ s.Joins t .EXC_LIMIT (objUnit d) [])
    ∧ (s.f (F.AFE_EX_STAT_LIMIT d) = 1 → exec (.excLimit d) s = .next s)
    ∧ (∀ b : Nat, s.f (F.AFE_EX_STAT_LIMIT d) = 1 → tabGet (fun _ => none) s.front.limitAt d = some b →
        ∃ t, exec (.excLimitEnd d) s = .next t ∧ t.f (F.AFE_EX_STAT_LIMIT d) = 0 ∧ s.RegsBut t [Reg.AFE_EX_STAT d]
          ∧ s.Joins t .EXC_LIMIT_END (objUnit d) [(((s.tick.clock - b) / 65536 : Nat) : Int)])
    ∧ (∀ sel : Bool,
        let k := if sel then 1 else 0
        let good : Prop := 2 ≤ s.utN k ∧ s.utN k ≤ 1024 ∧ ∀ i, i + 1 < s.utN k → s.utX k i < s.utX k (i + 1)
        (s.f F.AFE_UT_CTRL_SEL = k → exec (.utSelect m sel) s = .next s)
        ∧ (s.f F.AFE_UT_CTRL_SEL ≠ k → good → ∃ t, exec (.utSelect m sel) s = .next t ∧ t.f F.AFE_UT_CTRL_SEL = k
            ∧ t.ef F.AFE_UT_CTRL_SEL = s.ef F.AFE_UT_CTRL_SEL
            ∧ ∃ h : HeldWrite, t.tick.held = s.tick.held ++ [h] ∧ h.addr = Reg.AFE_UT_CTRL ∧ h.due = if s.tick.inTail then s.tick.num + 2 else s.tick.num + 1)
        ∧ (s.f F.AFE_UT_CTRL_SEL ≠ k → ¬good → ∃ t, exec (.utSelect m sel) s = .next t ∧ s.RegsBut t [] ∧ s.Joins t .UT_BAD 0 [(k : Int)]))
    ∧ (∀ k : Corr, tabGet (fun _ => none) s.front.corrs c = some k → s.pathRuns c = false →
        k.start + k.period ≤ (if s.tick.stagingClosed then s.tick.num else s.tick.num - 1) →
        ∃ t, exec (.codePeriodEnd c) s = .next t ∧ t.f (F.AFE_CH_STAT_EXCL c) = (127 - (k.chips.filter fun e => !e.2.ovl).length) % 128
          ∧ ∃ k', tabGet (fun _ => none) t.front.corrs c = some k' ∧ k'.start = k.start + k.period ∧ k'.chips = [] ∧ k'.period = max 1 (s.ef (F.AFE_CH_CODE_CODE_TICKS c)))
    ∧ ∀ high : Bool, ∃ t, exec (.excitationRailMove d high) s = .next t ∧ tabGet (fun _ => false) t.front.highRail d = high
        ∧ { t with front.highRail := s.front.highRail } = s

/-! ### Tiles, events, gap records and Stoker (R11 to R21, R305, R455, R517, R518, R535, R550) -/

/-- R11, R12: the tile links. Model's choices it rests on: log entries 10, 59. -/
def Obligations.TileLinkCommandsAct : Prop :=
  ∀ (s : State) (t : Fin 4) (n : Nat),
    let x := s.tile t
    let mine := (s.front.convs.filter fun c => c.ch / 24 == t.val && !c.delivered && !c.lost).take n
    let onTime : Prop := ∀ c ∈ mine, s.tick.num ≤ c.tick ∨ (s.tick.prev = some c.tick ∧ s.tick.stagingClosed = false)
    let marked (f : Conv → Conv) : List Conv := s.front.convs.map fun c => if c ∈ mine then f c else c
    (x.down = true → ∀ ok, exec (.tileLinkFrame t n ok) s = .next s)
    ∧ (x.down = false → onTime →
        (∃ u, exec (.tileLinkFrame t n true) s = .next u ∧ u.front.convs = marked (fun c => { c with delivered := true }) ∧ (u.tile t).retrying = false
          ∧ u.hub.gaps = s.hub.gaps)
        ∧ (x.retrying = false → ∃ u, exec (.tileLinkFrame t n false) s = .next u ∧ u.front = s.front ∧ (u.tile t).retrying = true)
        ∧ (x.retrying = true → ∃ u, exec (.tileLinkFrame t n false) s = .next u ∧ u.front.convs = marked (fun c => { c with lost := true })
            ∧ (u.tile t).retrying = false))
    ∧ (x.down = true → x.marked = false → x.lossFrom = none → (∀ k < 3, s.visit (3 * t.val + k) = none) →
        ∃ u, exec (.tileDown t) s = .next u ∧ (u.tile t).marked = true ∧ (∀ i < 6, tabGet (fun _ => 0) u.front.rampTo (6 * t.val + i) = 0)
          ∧ s.Joins u .TILE_DOWN (objLink (23 + t.val)) [])
    ∧ (x.down = false ∨ x.marked = true → exec (.tileDown t) s = .next s)
    ∧ (x.marked = true → x.down = false → s.tick.held = [] → s.hub.gaps.length + 24 ≤ 16384 →
        ∃ u, exec (.tileUp t) s = .next u ∧ (u.tile t).marked = false ∧ (∀ i < 24, (s.tick.num - 1, 0, 0) ∈ tabGet (fun _ => []) u.hub.gpeIn (24 * t.val + i))
          ∧ s.Joins u .TILE_UP (objLink (23 + t.val)) [])
    ∧ (x.marked = false ∨ x.down = true → exec (.tileUp t) s = .next s)

/-- R305, R455, R535, R550: Stoker's part. Model's choices it rests on: log entries 13, 58, 109. -/
def Obligations.StokerForwardsEventsAndGaps : Prop :=
  ∀ s : State,
    (∀ n obj d, ∃ t, exec (.eventRecord n obj d) s = .next t ∧ s.Joins t n obj d ∧ s.RegsBut t [])
    ∧ (s.f F.STK_STAT_STATE < 2 → exec .stokerForwardEvent s = .next s ∧ exec .gapForward s = .next s)
    ∧ (∀ (e : Event) (r : List Event), 2 ≤ s.f F.STK_STAT_STATE → s.hub.evHeld = [] → s.hub.evq = e :: r →
        s.f F.UPL_EVQ_EN = 0 → s.f F.CRD_EVQ_EN = 0 → s.umb.lostOpen = false → evqDepth s.umb.logBuf + 2 ≤ s.logRoom →
        let win (t : State) : Option Storm := t.hub.storms.find? fun x => x.name == e.name
        let origin : Prop := stormOrigin e.obj = true
        let logged (t : State) (l : List Event) : Prop := t.hub.evq = r ∧ t.umb.logBuf = s.umb.logBuf ++ l
        ∃ t, exec .stokerForwardEvent s = .next t
          ∧ (¬origin → logged t [e] ∧ t.hub.storms = s.hub.storms)
          ∧ (origin → win s = none → logged t [e] ∧ ∃ x, win t = some x ∧ x.count = 1 ∧ x.opened = e.tick + 63 ∧ x.first = e.obj ∧ x.holding = false)
          ∧ ∀ x, win s = some x → origin →
            let origins := if x.origins.contains e.obj then x.origins else x.origins ++ [e.obj]
            (x.holding = true → logged t [] ∧ ∃ y, win t = some y ∧ y.holding = true ∧ y.count = min 65535 (x.count + 1))
            ∧ (x.holding = false → e.tick ≤ x.opened → origins.length < 8 → logged t [e] ∧ ∃ y, win t = some y ∧ y.origins = origins ∧ y.holding = false)
            ∧ (x.holding = false → e.tick ≤ x.opened → 8 ≤ origins.length →
                (∃ y, win t = some y ∧ y.holding = true ∧ y.count = 0)
                ∧ ∃ c : Event, c.name = .COMMON_CAUSE ∧ c.obj = x.first ∧ logged t [c]
                    ∧ c.detail.take 2 = [(eventTypeOf e.name : Int), ((min 65535 (x.count + 1) : Nat) : Int)]))
    ∧ (∀ (n : EvName) (x : Storm), 2 ≤ s.f F.STK_STAT_STATE → s.f F.UPL_EVQ_EN = 0 → s.umb.lostOpen = false → evqDepth s.umb.logBuf + 2 ≤ s.logRoom →
        (s.hub.storms.find? fun y => y.name == n && y.holding) = some x →
        ∃ t, exec (.commonCauseEnd n) s = .next t ∧ (∀ y ∈ t.hub.storms, y.name ≠ n)
          ∧ ∃ c : Event, c.name = .COMMON_CAUSE_END ∧ c.obj = x.first ∧ t.umb.logBuf = s.umb.logBuf ++ [c]
              ∧ c.detail.take 2 = [(eventTypeOf n : Int), (x.count : Int)])
    ∧ ∀ (g : Gap) (r : List Gap), 2 ≤ s.f F.STK_STAT_STATE → s.hub.gaps = g :: r → s.hub.gapArchived = false → s.hub.gapUplinked = false →
        let qu := s.f F.UPL_GAPQ_Q
        let qa := s.f F.CRD_GAPQ_Q
        (s.f F.UPL_GAPQ_EN = 0 → s.f F.CRD_GAPQ_EN = 0 → exec .gapForward s = .next s)
        ∧ (s.f F.UPL_GAPQ_EN = 1 → s.f F.CRD_GAPQ_EN = 0 → s.refuses qu 0 12 = false →
            ∃ t, exec .gapForward s = .next t ∧ t.hub.gaps = r ∧ (t.queue qu).items.map (·.words) = (s.queue qu).items.map (·.words) ++ [gapWords g])
        ∧ (s.f F.UPL_GAPQ_EN = 0 → s.f F.CRD_GAPQ_EN = 1 → s.refuses qa 0 12 = true → ∃ t, exec .gapForward s = .next t ∧ t.hub.gaps = s.hub.gaps)
        ∧ (s.f F.UPL_GAPQ_EN = 1 → s.f F.CRD_GAPQ_EN = 1 → s.refuses qa 0 12 = true → s.refuses qu 0 12 = false →
            ∃ t, exec .gapForward s = .next t ∧ t.hub.gaps = s.hub.gaps ∧ t.hub.gapUplinked = true ∧ t.hub.gapArchived = false)

/-- R13, R517, R518: restarts of Stoker. Model's choices it rests on: log entries 109, 110. -/
def Obligations.StokerRestartsAlone : Prop :=
  ∀ s : State,
    let others (t : State) : Prop := t.tick = s.tick ∧ t.kiln = s.kiln ∧ t.front = s.front ∧ t.flk = s.flk ∧ t.ptn = s.ptn ∧ t.ptp = s.ptp ∧ t.edg = s.edg
      ∧ t.knd = s.knd ∧ t.qmg = s.qmg ∧ t.prs = s.prs ∧ t.crd = s.crd ∧ t.upl = s.upl ∧ t.spi = s.spi
    (∀ c : RestartCause, s.f F.KLN_LOAD_STAT_OWNER ≠ 3 → (c = .watchdog → s.umb.trialUp = false) →
        ∃ t, exec (.stokerRestart c) s = .next t ∧ others t ∧ t.f F.STK_STAT_STATE = 0
          ∧ t.f F.STK_STAT_CAUSE = (match c with | .watchdog => 2 | .fault => 3 | .activation => 4)
          ∧ t.f F.STK_STAT_RESTARTS = min (s.f F.STK_STAT_RESTARTS + 1) (fieldMax F.STK_STAT_RESTARTS)
          ∧ t.hub.gaps = s.hub.gaps ∧ t.hub.evHeld = [])
    ∧ (s.f F.STK_STAT_STATE < 2 → s.umb.thermal = false → s.umb.held = false → s.umb.copying = false → s.upl.runs = [] →
        ∃ t, exec .stokerRunning s = .next t ∧ t.f F.STK_STAT_STATE = (if s.umb.trialUp then 3 else 2) ∧ t.inReset 0 = false
          ∧ t.tick = s.tick ∧ t.kiln = s.kiln ∧ t.hub.stokerRan = true)
    ∧ (s.umb.copying = true → ∃ t, exec .stokerRelease s = .next t ∧ t.umb.copying = false ∧ t.umb.trialUp = true ∧ t.umb.healthy = false
        ∧ t.inReset 0 = false ∧ t.f F.STK_STAT_STATE = 1)
    ∧ (s.umb.copying = false → exec .stokerRelease s = .next s)
    ∧ (s.umb.trialUp = true → exec .healthReport s = .next { s with umb.healthy := true })
    ∧ (s.umb.trialUp = false → exec .healthReport s = .next s ∧ exec .updateReverted s = .next s)
    ∧ ∀ k, s.umb.trialUp = true → s.slotIn 2 3 = some k → s.f F.KLN_LOAD_STAT_OWNER ≠ 3 →
        ∃ t, exec .updateReverted s = .next t ∧ t.f (slotF k) = 5 ∧ t.umb.trialUp = false ∧ t.f F.STK_STAT_STATE = 0

/-! ### Converter cores and scanning (R161 to R185, R190 to R194) -/

/-- R137, R139, R161 to R172: conversions and the slice-mismatch estimator. Model's choices it rests on: log entries 10, 39, 46. -/
def Obligations.ConversionsAndEstimator : Prop :=
  ∀ s : State,
    (∀ (c : Fin 96) (j : Nat) (input : Int) (ovr : Option Nat) (spare : Option Int),
      let d := dutyOf c
      let w := s.eff (scanReg d)
      let f := scanRate w
      let hi := boundaryClock s.rate (s.tick.num + 1)
      let off := (frameStart f j + 80 * scanRank (scanMask w) (c % 4)) * 81920
      let at' := s.tick.num / s.rate
      let sec := if hi ≤ at' * secUnits + off then at' - 1 else at'
      let inst := sec * secUnits + off
      let due : Prop := s.genState = 1 ∧ scanOn w c = true ∧ j < f ∧ boundaryClock s.rate s.tick.num ≤ inst ∧ inst < hi
        ∧ (s.duty d).since ≤ sec * secUnits + frameStart f j * 81920 ∧ s.tileConverts (c / 24) inst = true
        ∧ ∀ l, (s.core (3 * (d / 2) + s.holder (d / 2) (d % 2))).last = some l → l + 6553600 ≤ inst
      let q := 3 * (d / 2) + s.holder (d / 2) (d % 2)
      let mode := s.ef (F.AFE_CH_CFG_MODE c)
      let tia := s.ef (F.AFE_CH_CFG_TIA c)
      let late := recovery mode tia
      let scale : Nat := 10 ^ (13 - (if mode = 3 then tia else s.ef (F.AFE_CH_CFG_VRANGE c)))
      let code := clamp20 (rdiv (input * 524288) (scale : Int))
      (due → ∃ t, exec (.conversion c j false input ovr spare) s = .next t ∧ (∀ a, a ≠ Reg.AFE_CH_STAT c → t.rd a = s.rd a)
        ∧ t.hub = s.hub ∧ t.tick = s.tick
        ∧ (s.visit (d / 2) = none →
            t.core q = { s.core q with up := (t.core q).up, next := 1 - sliceAt (s.core q) inst, last := some inst }
            ∧ ∀ z, s.nextInst d c w false sec j inst = some z → ((t.core q).up = true ↔ z ≤ inst + 1760 * 81920))
        ∧ ∃ k : Conv, t.front.convs = s.front.convs ++ [k] ∧ k.ch = c ∧ k.core = q ∧ k.slice = sliceAt (s.core q) inst ∧ k.j = j ∧ k.sec = sec
          ∧ k.inst = inst ∧ k.tick = s.tick.num ∧ k.raw = (if mode = 0 then -524288 else code) ∧ k.cmf = s.flag (F.AFE_CH_STAT_CMF c)
          ∧ k.delivered = false
          ∧ (k.ovl = true ↔ mode = 0 ∨ inst < tabGet (fun _ => 0) s.front.settleTo c ∨ (∃ a, ovr = some a ∧ (a = 0 ∨ a * 65536 < late))
              ∨ (mode ≠ 0 ∧ 513803 ≤ code.natAbs)
              ∨ ∃ e, tabGet (fun _ => none) s.front.ovr c = some e ∧ (inst < e + late ∨ inst ≤ e)))
      ∧ (¬due → exec (.conversion c j false input ovr spare) s = .next s))
    ∧ (∀ q : Fin 36,
      ((s.core q).up = true → exec (.coreStartUp q) s = .next s)
      ∧ ((s.core q).up = false → ∃ t, exec (.coreStartUp q) s = .next t ∧ t.core q = { s.core q with up := true, next := 0 }
        ∧ (∀ x, x ≠ q.val → t.core x = s.core x) ∧ { t with front.cores := s.front.cores } = s))
    ∧ ∀ (tile : Fin 4) (cluster p : Fin 3),
      let n := 3 * tile.val + cluster.val
      let q := 3 * n + p.val
      let ends := Instr.estimatorBlock tile cluster p
      ((s.core q).full = none → exec ends s = .next s)
      ∧ ∀ b : BlockSums, (s.core q).full = some b → b.n = 1048576 → b.n0 = 524288 → b.n1 = 524288 →
        let h : Int := 524288
        let dropped := s.setCore q { s.core q with full := none }
        let all := 2 * h * ((b.q0 + b.q1 : Nat) : Int) - (b.s0 + b.s1) * (b.s0 + b.s1)
        let o := s.efs (F.CNV_Pp_MIS_OFS_OFS n p)
        let o' := o + rdiv (16 * (b.s1 * h - b.s0 * h) - o * (h * h)) (16 * (h * h))
        (s.estRuns q = false → exec ends s = .next dropped)
        ∧ (s.estRuns q = true → all < 18446744073709551616 → exec ends s = .next dropped)
        ∧ (s.estRuns q = true → 18446744073709551616 ≤ all → o'.natAbs ≤ 1024 →
            ∃ t, exec ends s = .next t ∧ s.RegsBut t [Reg.CNV_Pp_EST n p, Reg.CNV_VISIT_STAT n]
              ∧ (t.f (F.CNV_Pp_EST_FROZEN n p) = 0 → ∃ g k, (t.core q).moved = some (o', g, k) ∧ g.natAbs ≤ 4194 ∧ k.natAbs ≤ 20000))
        ∧ (s.estRuns q = true → 18446744073709551616 ≤ all → 1024 < o'.natAbs →
            ∃ t, exec ends s = .next t ∧ t.f (F.CNV_Pp_EST_FROZEN n p) = 1 ∧ (t.core q).moved = (s.core q).moved
              ∧ s.Joins t .MISMATCH_RANGE (objUnit q) [0])

/-- R173 to R185, R193: the visits of the spare core. Model's choices it rests on: log entry 45. -/
def Obligations.VisitsTakeTheirCourse : Prop :=
  ∀ (s : State) (m : Master) (n : Fin 12),
    let queued (d : Option Nat) : Prop := ∃ r ∈ s.front.reqs, r.cluster = n ∧ r.duty = d
    let asks (c : Instr) (r : VisitReq) : Prop := ∃ t, exec c s = .next t ∧ t.front.reqs = s.front.reqs ++ [r] ∧ s.RegsBut t [Reg.CNV_VISIT_STAT n]
      ∧ ∀ k, r.duty = some k → k < 2 → (t.f (F.CNV_VISIT_STAT_QUEUED n)).testBit k = true
    let keys (t : State) : List (Nat × Nat × Option Nat) := t.front.reqs.map fun r => (r.cls, r.cluster, r.duty)
    (∀ (k : Fin 2) (force : Bool),
      (¬queued (some k) → asks (.visitRequest m n k force) { cls := 3, cluster := n, duty := some k.val, force := force })
      ∧ (queued (some k) → ∃ t, exec (.visitRequest m n k force) s = .next t ∧ keys t = keys s))
    ∧ (¬queued none → asks (.spareRunRequest m n) { cls := 1, cluster := n, duty := none, force := false })
    ∧ (queued none → exec (.spareRunRequest m n) s = .next s)
    ∧ (s.f F.CNV_ROT_CTRL_AUTO = 0 → exec (.rotationRequest n) s = .next s)
    ∧ (s.f F.CNV_ROT_CTRL_AUTO = 1 →
        let k := tabGet (fun _ => 0) s.front.rot n
        (∀ t, exec (.rotationRequest n) s = .next t → tabGet (fun _ => 0) t.front.rot n = 1 - k)
        ∧ ((∀ d, ¬queued (some d)) → (s.duty (2 * n + k)).fails < 3 → asks (.rotationRequest n) { cls := 4, cluster := n, duty := some k, force := false })
        ∧ ((∃ d, queued (some d)) ∨ 3 ≤ (s.duty (2 * n + k)).fails → ∃ t, exec (.rotationRequest n) s = .next t ∧ t.front.reqs = s.front.reqs))
    ∧ (∃ t, exec .tempTriggerEval s = .next t ∧ s.RegsBut t ((List.range 12).map Reg.CNV_VISIT_STAT)
        ∧ ∀ i : Fin 12, s.spareOf i < 3 → s.f (F.CNV_Pp_STATE_STATE i (s.spareOf i)) ≠ 5 → (s.core (3 * i + s.spareOf i)).ran = true →
            s.f F.CNV_ROT_CTRL_CAL_DT ≠ 0 →
            2 * s.f F.CNV_ROT_CTRL_CAL_DT < (s.fs (F.UMB_SENSs_VALUE (i / 3)) - s.fs (F.CNV_Pp_RUN_TEMP_TEMP i (s.spareOf i))).natAbs →
            ∃ r ∈ t.front.reqs, r.cluster = i ∧ r.duty = none)
    ∧ (∀ k : Fin 2, let x := (s.duty (2 * n + k)).fails;
        (x = 0 ∨ 3 ≤ x → exec (.visitRetry n k) s = .next s)
        ∧ (1 ≤ x → x < 3 → ¬queued (some k) → asks (.visitRetry n k) { cls := 4, cluster := n, duty := some k.val, force := false }))
    ∧ (let p := s.spareOf n;
        (s.f (F.CNV_Pp_STATE_REFUSALS n p) = 0 ∨ s.f (F.CNV_Pp_STATE_STATE n p) = 5 ∨ s.visit n ≠ none → exec (.coreRunRetry n) s = .next s)
        ∧ (s.f (F.CNV_Pp_STATE_REFUSALS n p) ≠ 0 → s.f (F.CNV_Pp_STATE_STATE n p) ≠ 5 → s.visit n = none → ¬queued none →
            asks (.coreRunRetry n) { cls := 1, cluster := n, duty := none, force := false }))
    ∧ (s.visit n = none → (∃ d, queued (some d)) → ∃ t, exec (.visitCancel m n) s = .next t ∧ t.f (F.CNV_VISIT_STAT_RESULT n) = 8
        ∧ t.f (F.CNV_VISIT_STAT_QUEUED n) = 0 ∧ ∀ r ∈ t.front.reqs, r.cluster = n → r.duty = none)
    ∧ (s.visit n = none → (∀ d, ¬queued (some d)) → exec (.visitCancel m n) s = .next s)
    ∧ (∀ v, s.visit n = some v →
        (v.duty ≠ none → v.verdict = none → ∃ t, exec (.visitCancel m n) s = .next t ∧ t.visit n = some { v with stopping := some 8 } ∧ t.mem = s.mem)
        ∧ (v.duty = none ∨ v.verdict ≠ none → exec (.visitCancel m n) s = .next s)
        ∧ (let last := v.ts + s.f F.CNV_SHADOW_MAX_TICKS;
            let past : Prop := last < s.tick.num ∨ (last = s.tick.num ∧ s.tick.stagingClosed = true);
            (v.duty ≠ none → v.tm = none → past → ∃ t, exec (.shadowShort n) s = .next t ∧ t.visit n = some { v with stopping := some 3 } ∧ t.mem = s.mem)
            ∧ (v.tm ≠ none ∨ ¬past → exec (.shadowShort n) s = .next s))
        ∧ ∀ k tm, v.duty = some k → v.tm = some tm → v.verdict = none →
            let ok := v.chans.all fun c =>
              withinLimits (checkDiffs v.pairs c tm s.matchPairs) (s.f F.CNV_MATCH_CFG_MEAN) (s.f F.CNV_MATCH_CFG_RMS)
            ∃ t, exec (.matchCheck n) s = .next t ∧ t.visit n = some { v with verdict := some (ok || v.force), forced := !ok && v.force }
              ∧ t.f (F.CNV_ROLE_PHASE n) = (if ok || v.force then 2 else s.f (F.CNV_ROLE_PHASE n))
              ∧ s.RegsBut t [Reg.CNV_MATCH_RES n, Reg.CNV_ROLE n])
    ∧ ∀ i : Fin 4,
      (s.f F.STK_STAT_STATE < 2 ∨ s.nextReq i = none → exec (.visitBegin i) s = .next s)
      ∧ (∀ r, 2 ≤ s.f F.STK_STAT_STATE → s.nextReq i = some r → s.spareOf r.cluster < 3 →
          let p := s.spareOf r.cluster
          ∃ t, exec (.visitBegin i) s = .next t ∧ r ∉ t.front.reqs ∧ t.f (F.CNV_ROLE_VISIT r.cluster) = 1
            ∧ t.f (F.CNV_ROLE_PHASE r.cluster) = (if r.duty = none then 4 else 1)
            ∧ t.f (F.CNV_Pp_STATE_STATE r.cluster p) = (if r.duty = none then 4 else 3)
            ∧ ∃ v, t.visit r.cluster = some v ∧ v.duty = r.duty ∧ v.spare = p ∧ v.ts = s.tick.num + 2)
      ∧ ∀ m0 m1 ovl, (s.coreRun i = none → exec (.coreCalDone i m0 m1 ovl) s = .next s)
        ∧ ∀ r, s.coreRun i = some r → r.core < 36 →
          let a := r.core / 3
          let p := r.core % 3
          let code := s.coreCode r m0 m1 ovl
          let inPlace := match s.visit a with | some v => v.duty.isNone | none => true
          let forced := match s.visit a with | some v => v.forced | none => false
          let tag : Int := (s.rd (Reg.CAL_REF_TAG i)).toNat
          ∃ t, exec (.coreCalDone i m0 m1 ovl) s = .next t ∧ t.coreRun i = none ∧ t.visit a = none ∧ t.f (F.CAL_CORE_RES_CODE r.core) = code
            ∧ (code = 32 → t.f (F.CNV_Pp_STATE_STATE a p) = 2 ∧ t.f (F.CNV_Pp_STATE_REFUSALS a p) = 0 ∧ t.f (F.CNV_ROLE_S_VALID a) = 1
                ∧ t.f (F.CNV_VISIT_STAT_RESULT a) = (if inPlace then 9 else if forced then 6 else 1)
                ∧ s.Joins t .CORE_CAL_DONE (objUnit r.core) [32, tag])
            ∧ (code ≠ 32 → t.f (F.CNV_VISIT_STAT_RESULT a) = 7 ∧ t.f (F.CNV_ROLE_S_VALID a) = 0
                ∧ t.f (F.CNV_Pp_STATE_STATE a p) = (if 3 ≤ s.f (F.CNV_Pp_STATE_REFUSALS a p) + 1 then 5 else 4)
                ∧ (s.f (F.CNV_Pp_STATE_REFUSALS a p) + 1 < 3 → s.Joins t .CORE_CAL_REFUSED (objUnit r.core) [(code : Int), tag]))

/-! ### Calibration and Charcoal (R186 to R242) -/

/-- R190, R196 to R210: calibration. Model's choices it rests on: log entries 48, 49. -/
def Obligations.CalibrationCommandsAct : Prop :=
  ∀ (s : State) (m : Master),
    let ph := s.f F.CAL_SYS_STAT_PHASE
    let busy (c : Instr) (d : Int) : Prop := ∃ t, exec c s = .next t ∧ s.RegsBut t [] ∧ t.front = s.front ∧ s.Joins t .CAL_BUSY 0 [d]
    let ends (c : Instr) (r : Option Nat) : Prop := ∃ t, exec c s = .next t ∧ t.f F.CAL_SYS_STAT_PHASE = 5 ∧ s.RegsBut t [Reg.CAL_SYS_STAT]
      ∧ t.front.session = s.front.session.map fun (x : Session) => { x with ending := some (s.tick.num + 3, r) }
    (ph ≠ 0 → busy (.startZero m) 0)
    ∧ (ph = 0 → ∃ t, exec (.startZero m) s = .next t ∧ t.f F.CAL_SYS_STAT_PHASE = 1 ∧ t.f F.CAL_SYS_STAT_PASSED = 0
        ∧ (∃ x, t.front.session = some x ∧ x.start = s.tick.num + 3 ∧ x.sysOn = false ∧ x.begun = false ∧ x.ending = none
            ∧ x.chans.map (·.ch) = s.armedList.filter fun c => decide (c < 96) || s.steward)
        ∧ ∀ c ∈ s.armedList, 96 ≤ c → s.steward = false → t.f (F.CAL_CH_CTRL_REASON c) = 3)
    ∧ (∀ x, ph = 2 → s.front.session = some x → ∃ t, exec (.startFull m) s = .next t ∧ t.f F.CAL_SYS_STAT_PHASE = 3
        ∧ t.front.session = some { x with start := s.tick.num + 3, begun := false } ∧ s.RegsBut t [Reg.CAL_SYS_STAT])
    ∧ (ph ≠ 2 → busy (.startFull m) 1)
    ∧ (ph = 4 → ends (.finish m) none)
    ∧ (ph = 5 → busy (.finish m) 2 ∧ busy (.abort m) 3)
    ∧ (ph ≠ 0 → ph < 4 → ends (.finish m) (some 1))
    ∧ (ph ≠ 0 → ph ≠ 5 → ends (.abort m) (some 1))
    ∧ (ph = 0 → exec (.finish m) s = .next s ∧ exec (.abort m) s = .next s)
    ∧ (ph = 2 ∨ ph = 4 → ends .calSysTimeout (some 2))
    ∧ (ph ≠ 2 → ph ≠ 4 → exec .calSysTimeout s = .next s)
    ∧ (∀ x, s.front.session = some x →
        let last := x.start + x.settle + x.avg + (if ∃ y ∈ x.chans, 96 ≤ y.ch then 2 else 0)
        let past : Prop := last < s.tick.num ∨ (last = s.tick.num ∧ s.tick.stagingClosed = true)
        (x.begun = false ∨ ¬past → exec .calPhaseEnd s = .next s)
        ∧ (x.begun = true → past → ph = 1 → ∃ t, exec .calPhaseEnd s = .next t ∧ t.f F.CAL_SYS_STAT_PHASE = 2
            ∧ t.front.session = some { x with begun := false } ∧ s.RegsBut t [Reg.CAL_SYS_STAT])
        ∧ (x.begun = true → past → ph = 3 → (∀ y ∈ x.chans, y.full.mean ≠ y.zero.mean) → ∃ t z, exec .calPhaseEnd s = .next t
            ∧ t.f F.CAL_SYS_STAT_PHASE = 4 ∧ t.front.session = some z ∧ z.begun = false
            ∧ (z.chans.map fun y => (y.ch, y.g1, y.b1, y.reason)) = x.chans.map fun y =>
                let p := newPair x.span y 0
                (y.ch, p.1, p.2, some (reasonOf x.span y p.1 p.2))))
    ∧ (s.front.session = none → exec .calPhaseEnd s = .next s)
    ∧ (∀ c : Fin 4192,
        let g : Int := (s.f (F.CAL_CH_LGAIN_G c) : Nat)
        let b := s.fs (F.CAL_CH_LOFS_B c)
        let there : Prop := c.val < 96 ∨ s.remoteCh c ≠ none
        let armed : Prop := ∃ x, s.front.session = some x ∧ ∃ y ∈ x.chans, y.ch = c
        let good : Prop := 134217728 ≤ g ∧ g ≤ 536870912 ∧ b.natAbs < 2147483648
        (¬there → exec (.load m c) s = .next s)
        ∧ (there → armed → ∃ t, exec (.load m c) s = .next t ∧ s.RegsBut t [] ∧ s.Joins t .CAL_BUSY (objChannel c) [])
        ∧ (there → ¬armed → ¬good → ∃ t, exec (.load m c) s = .next t ∧ s.RegsBut t [] ∧ s.Joins t .CAL_CFG_BAD (objChannel c) [])
        ∧ (there → ¬armed → good → s.genState ≠ 1 → s.genState ≠ 2 → ∃ t, exec (.load m c) s = .next t ∧ t.f (F.CAL_CH_CTRL_TRACE c) = 2
            ∧ tabGet (fun _ => none) t.front.pairs c = some (g, b) ∧ tabGet (fun _ => none) t.front.slews c = none)
        ∧ (there → ¬armed → good → s.genState = 1 ∨ s.genState = 2 → ∃ t z, exec (.load m c) s = .next t ∧ t.f (F.CAL_CH_CTRL_TRACE c) = 2
            ∧ tabGet (fun _ => none) t.front.slews c = some z ∧ (z.g0, z.b0) = s.pairAt c (s.nextDue - 1)
            ∧ (z.g1, z.b1) = (g, b) ∧ z.start = s.nextDue ∧ z.cut = none ∧ z.len = max 1 (s.f F.CAL_SLEW_TICKS)))
    ∧ ∀ (i : Fin 4) (l : List SenseMeas),
        let vfs : Int := (s.f (F.CAL_REF_VFS_VFS i) * 1000 : Nat)
        let vmid : Int := (s.f (F.CAL_REF_VMID_VMID i) * 1000 : Nat)
        let ok : Prop := 24 ≤ l.length ∧ refAgrees vfs vmid (l.take 24) = true
        let within (x : SenseMeas) : Prop := (senseFit vfs x).1.natAbs ≤ 20000000 ∧ (senseFit vfs x).2.natAbs ≤ 167772
        (¬ok → ∃ t, exec (.senseRefCycleEnd i l) s = .next t ∧ t.f (F.CAL_REF_STAT_REF_OK i) = 0 ∧ t.front.senseNext = s.front.senseNext
          ∧ (s.f (F.CAL_REF_STAT_REF_OK i) = 1 → s.Joins t .REFCAL_LOST (objUnit i) []))
        ∧ (ok → ∃ t, exec (.senseRefCycleEnd i l) s = .next t ∧ t.f (F.CAL_REF_STAT_REF_OK i) = 1
          ∧ ((∀ x ∈ l.take 24, within x) →
              (s.f (F.CAL_REF_STAT_REF_OK i) = 0 → s.Joins t .REFCAL_OK (objUnit i) [])
              ∧ ∀ k x, l[k]? = some x → k < 24 → tabGet (fun _ => none) s.front.senseCal (24 * i + k) = none →
                  tabGet (fun _ => none) t.front.senseNext (24 * i + k) = some (senseFit vfs x)))

/-- R220 to R224, R233 to R237: Charcoal. Model's choices it rests on: log entries 54, 56, 127. -/
def Obligations.CharcoalCommandsAct : Prop :=
  ∀ (s : State) (m : Master) (b : Fin 2),
    let st (x : State) : Nat := x.f (chrStateF b)
    let bank := [Reg.CHR_BANK_STAT, Reg.CHR_BANK_RES]
    let gives (c : Instr) (v code detail : Nat) : Prop := ∃ t, exec c s = .next t ∧ st t = v ∧ t.f F.CHR_BANK_RES_CODE = code
      ∧ t.f F.CHR_BANK_RES_DETAIL = detail ∧ (∀ a, a ∉ bank → t.rd a = s.rd a) ∧ { t with mem := s.mem } = s
    (st s = 4 → gives (.edit m b) 4 5 0 ∧ gives (.seal m b) 4 5 0)
    ∧ (st s = 0 ∨ st s = 3 ∨ st s = 5 → gives (.edit m b) 1 0 0)
    ∧ (st s = 1 ∨ st s = 2 → exec (.edit m b) s = .next s)
    ∧ (st s = 1 → ∃ t, exec (.seal m b) s = .next t ∧ st t = 2 ∧ (∀ a, a ≠ Reg.CHR_BANK_STAT → t.rd a = s.rd a) ∧ { t with mem := s.mem } = s)
    ∧ (st s ≠ 1 → st s ≠ 4 → gives (.seal m b) (st s) 6 0)
    ∧ (st s ≠ 2 → exec (.chrBankSealDone b) s = .next s)
    ∧ (st s = 2 → ∃ t, exec (.chrBankSealDone b) s = .next t ∧ st t = (if (s.sealCode b).1 = 0 then 3 else 5)
        ∧ t.f F.CHR_BANK_RES_CODE = (s.sealCode b).1 ∧ ∀ a, a ∉ bank → t.rd a = s.rd a)
    ∧ (∀ (i : Fin 24576) (w : Word),
        (st s = 1 → ∃ t, exec (.chrBankWrite m b i w) s = .next t ∧ t.rd (chrBankAddr b (4 * i)) = w
          ∧ (∀ a, a ≠ chrBankAddr b (4 * i) → t.rd a = s.rd a) ∧ { t with mem := s.mem } = s)
        ∧ (st s ≠ 1 → ∃ t, exec (.chrBankWrite m b i w) s = .next t ∧ s.RegsBut t []
          ∧ s.Joins t .CHR_BANK_WRITE 0 [(b.val : Int), ((4 * i.val : Nat) : Int), (masterCode m : Int)]))
    ∧ (s.genState = 1 ∨ s.genState = 2 → ∃ t, exec (.chrSwapRequest m b) s = .next t
        ∧ t.front.chrSwaps = s.front.chrSwaps ++ [SwapReq.mk b (s.tick.num + 2)] ∧ t.mem = s.mem)
    ∧ (s.genState ≠ 1 → s.genState ≠ 2 →
        let r := s.chrSwapCode b
        ∃ t, exec (.chrSwapRequest m b) s = .next t
          ∧ (r.1 ≠ 0 → t.f F.CHR_SWAP_STAT_REASON = r.1 ∧ t.f (chrStateF b) = st s ∧ t.chrBank = s.chrBank
              ∧ s.Joins t .CHR_SWAP_REFUSED 0 [(r.1 : Int), (b.val : Int), (r.2 : Int)])
          ∧ (r.1 = 0 → st t = 4 ∧ t.chrBank = some b.val ∧ (s.chrBank ≠ none → t.f (chrStateF (1 - b)) = 3)))
    ∧ ∀ d : Fin 512,
      (tabGet (fun _ => none) s.front.dets d = none → exec (.detectorWindowEnd d) s = .next s)
      ∧ ∀ x, tabGet (fun _ => none) s.front.dets d = some x →
        let stop := x.since + s.detWin d
        let closed := if s.tick.stagingClosed then s.tick.num else s.tick.num - 1
        let y := (x.wins.find? fun y => y.start == x.since).getD (detWin0 x.since)
        let gap := x.gaps.any fun g => decide (x.since ≤ g.2) && decide (g.1 < stop)
        (s.ef (F.CHR_DET_CFG_EN d) = 0 ∨ closed < stop → exec (.detectorWindowEnd d) s = .next s)
        ∧ (s.ef (F.CHR_DET_CFG_EN d) = 1 → stop ≤ closed → ∃ t r, exec (.detectorWindowEnd d) s = .next t
            ∧ t.front.detMade = s.front.detMade ++ [r] ∧ r.det = d.val
            ∧ (r.a, r.b) = detResult (s.ef (F.CHR_DET_CFG_TYPE d)) (s.eflag (F.CHR_DET_CFG_AC d)) gap y ∧ r.n = y.n ∧ r.tick = stop - 1
            ∧ (t.det d).since = stop ∧ (t.det d).env = x.env ∧ (t.det d).wins = x.wins.filter (fun z => decide (stop ≤ z.start)) ∧ t.mem = s.mem)

/-! ### Field lanes (R243 to R275) -/

/-- R251 to R267: the bring-up of a lane. Model's choices it rests on: log entries 2, 64, 66. -/
def Obligations.LanesBringUp : Prop :=
  ∀ (s : State) (l : Fin 16),
    let st := s.f (F.FLK_STAT_STATE l)
    let x := s.lane l
    let still (c : Instr) : Prop := exec c s = .next s
    let goes (c : Instr) (v : Nat) : Prop := ∃ t, exec c s = .next t ∧ t.f (F.FLK_STAT_STATE l) = v
    let failed (c : Instr) (cause : Nat) : Prop := ∃ t, exec c s = .next t ∧ t.f (F.FLK_STAT_STATE l) = 1 ∧ t.f (F.FLK_STAT_CAUSE l) = cause
      ∧ t.f (F.FLK_STAT_FAILS l) = min (s.f (F.FLK_STAT_FAILS l) + 1) 255 ∧ t.f (F.FLK_STAT_HOLDOFF l) = 1
      ∧ t.f (F.FLK_HOLD_MS l) = min (100 * 2 ^ min 7 (min (s.f (F.FLK_STAT_FAILS l) + 1) 255 - 1)) 10000
      ∧ s.Enters t .LANE_ATTEMPT_FAIL (objLink l) [(cause : Int), (st : Int), (s.f (F.FLK_STAT_RATE_NOW l) : Int)]
    let cleared (c : Instr) : Prop := ∃ t, exec c s = .next t ∧ t.f (F.FLK_STAT_FAILS l) = 0 ∧ t.f (F.FLK_STAT_CAUSE l) = 0
      ∧ t.f (F.FLK_STAT_HOLDOFF l) = 0 ∧ t.f (F.FLK_HOLD_MS l) = 0 ∧ (∀ a, a ≠ Reg.FLK_STAT l → a ≠ Reg.FLK_HOLD l → t.rd a = s.rd a)
    (∀ seen : Bool, let k := if seen then x.seen + 1 else 0;
      (st ≠ 1 → st ≠ 9 → still (.detectWindow l seen))
      ∧ (st = 1 → 3 ≤ k → s.f (F.FLK_STAT_HOLDOFF l) = 0 → s.f F.CLK_STAT_REF_OK = 1 → goes (.detectWindow l seen) 2)
      ∧ (st = 1 ∨ st = 9 → k < 3 ∨ s.f (F.FLK_STAT_HOLDOFF l) = 1 ∨ s.f F.CLK_STAT_REF_OK = 0 ∨ st = 9 →
          ∃ t, exec (.detectWindow l seen) s = .next t ∧ t.f (F.FLK_STAT_STATE l) = st ∧ t.f (F.FLK_STAT_FAR_SEEN l) = b2n seen
            ∧ (t.lane l).seen = min 3 k))
    ∧ (∀ (f : TrainFrame) (a : Bool) (w : TapWant),
        (st ≠ 2 → still (.trainingFrame l f a w))
        ∧ (st = 2 → ∃ t, exec (.trainingFrame l f a w) s = .next t ∧ t.mem = s.mem
            ∧ (tapsOk x.taps = true → tapsOk (tapsOf (s.rd (Reg.FLK_TX_INIT l))) = true → tapsOk (t.lane l).taps = true)
            ∧ (x.frameLock = false → ((t.lane l).frameLock = true ↔ f.marker = true ∧ 2 ≤ x.marks))
            ∧ (x.frameLock = true → ((t.lane l).frameLock = true ↔ f.marker = true ∨ x.misses < 2))
            ∧ (x.trained = false → ((t.lane l).trained = true ↔ (t.lane l).frameLock = true ∧ f.marker = true ∧ (x.ready = true ∨ a = true)
                ∧ f.status.getLsbD 15 = true ∧ 7 ≤ x.farReady))))
    ∧ (st = 2 → x.trained = true → ∃ t, exec (.trainDone l) s = .next t ∧ t.f (F.FLK_STAT_STATE l) = 3 ∧ t.rd (Reg.FLK_TX_EQ l) = tapsWord x.taps)
    ∧ (st ≠ 2 ∨ x.trained = false → still (.trainDone l))
    ∧ (st = 2 → failed (.trainTimeout l) (if x.everLock then 3 else 2))
    ∧ (st ≠ 2 → still (.trainTimeout l))
    ∧ (∀ ppb : Int, (st ≠ 3 → still (.bitlockMeasure l ppb)) ∧ (st = 3 → 100000 < ppb.natAbs → failed (.bitlockMeasure l ppb) 5)
        ∧ (st = 3 → ppb.natAbs ≤ 100000 → goes (.bitlockMeasure l ppb) 4))
    ∧ (st = 3 → failed (.bitlockTimeout l) 4) ∧ (st ≠ 3 → still (.bitlockTimeout l))
    ∧ (st = 4 → failed (.blockLockTimeout l) 6) ∧ (st ≠ 4 → still (.blockLockTimeout l))
    ∧ (st = 5 → failed (.capsTimeout l) 7) ∧ (st ≠ 5 → still (.capsTimeout l))
    ∧ (∀ h : Fin 4, let good : Prop := h = 1 ∨ h = 2;
        (st < 4 ∨ 7 < st → still (.blockReceived l h))
        ∧ (4 ≤ st → st ≤ 6 → s.f (F.FLK_STAT_BLOCK_LOCK l) = 0 →
            (¬good → ∃ t, exec (.blockReceived l h) s = .next t ∧ (t.lane l).cand = (x.cand + 1) % 66 ∧ (t.lane l).valid = 0 ∧ t.mem = s.mem)
            ∧ (good → x.valid < 63 → ∃ t, exec (.blockReceived l h) s = .next t ∧ (t.lane l).valid = x.valid + 1 ∧ t.mem = s.mem)
            ∧ (good → 63 ≤ x.valid → ∃ t, exec (.blockReceived l h) s = .next t ∧ t.f (F.FLK_STAT_BLOCK_LOCK l) = 1
                ∧ t.f (F.FLK_STAT_STATE l) = (if st = 4 then 5 else st) ∧ (st = 6 → t.f (F.FLK_STAT_RELOCK l) = 0)))
        ∧ (4 ≤ st → st ≤ 6 → s.f (F.FLK_STAT_BLOCK_LOCK l) = 1 →
            let bad := ((decide (¬good) :: x.window).take 64).filter id
            (bad.length < 16 → ∃ t, exec (.blockReceived l h) s = .next t ∧ t.f (F.FLK_STAT_STATE l) = st ∧ t.f (F.FLK_STAT_BLOCK_LOCK l) = 1)
            ∧ (16 ≤ bad.length → st = 5 → failed (.blockReceived l h) 10)))
    ∧ (∀ v r f : BitVec 8,
        (st ≠ 5 → still (.capsBlock l v r f))
        ∧ (st = 5 → f.getLsbD 0 = false → failed (.capsBlock l v r f) 8)
        ∧ (st = 5 → f.getLsbD 0 = true → v ≠ 1#8 → failed (.capsBlock l v r f) 9)
        ∧ (st = 5 → f.getLsbD 0 = true → v = 1#8 →
            let done : Prop := (x.capsAck = true ∨ f.getLsbD 1 = true) ∧ 8 ≤ x.capsSent
            (done → ∃ t, exec (.capsBlock l v r f) s = .next t ∧ t.f (F.FLK_STAT_STATE l) = 6
              ∧ s.Enters t .LANE_UP (objLink l) [(s.f (F.FLK_STAT_RATE_NOW l) : Int)])
            ∧ (¬done → ∃ t, exec (.capsBlock l v r f) s = .next t ∧ t.f (F.FLK_STAT_STATE l) = 5 ∧ (t.lane l).capsGot = true)))
    ∧ (st ≠ 5 → still (.capsSend l))
    ∧ (st = 5 → x.capsGot = true → x.capsAck = true → 7 ≤ x.capsSent → goes (.capsSend l) 6)
    ∧ (st = 5 → x.capsGot = false ∨ x.capsAck = false ∨ x.capsSent < 7 → x.capsSent < 8 → goes (.capsSend l) 5)
    ∧ (2 ≤ st → st ≤ 5 → failed (.lossOfSignal l) 1)
    ∧ (st = 6 → ∃ t, exec (.lossOfSignal l) s = .next t ∧ t.f (F.FLK_STAT_STATE l) = 1 ∧ t.f (F.FLK_STAT_CAUSE l) = 1)
    ∧ (st < 2 ∨ 6 < st → still (.lossOfSignal l))
    ∧ (st = 6 → s.f (F.FLK_STAT_RELOCK l) = 1 → ∃ t, exec (.relockTimeout l) s = .next t ∧ t.f (F.FLK_STAT_STATE l) = 1
        ∧ t.f (F.FLK_STAT_CAUSE l) = 10)
    ∧ (st ≠ 6 ∨ s.f (F.FLK_STAT_RELOCK l) = 0 → still (.relockTimeout l))
    ∧ (st = 7 → x.waking = true → failed (.wakeFail l) 11)
    ∧ (st ≠ 7 ∨ x.waking = false → still (.wakeFail l))
    ∧ (s.f (F.FLK_STAT_HOLDOFF l) = 0 → still (.holdEnd l))
    ∧ (s.f (F.FLK_STAT_HOLDOFF l) = 1 → ∃ t, exec (.holdEnd l) s = .next t ∧ t.f (F.FLK_STAT_HOLDOFF l) = 0 ∧ t.f (F.FLK_HOLD_MS l) = 0
        ∧ t.f (F.FLK_STAT_STATE l) = (if st = 1 ∧ s.f (F.FLK_STAT_FAR_SEEN l) = 1 ∧ s.f F.CLK_STAT_REF_OK = 1 then 2 else st))
    ∧ (st = 6 → cleared (.failsClearActive l)) ∧ (st ≠ 6 → still (.failsClearActive l))
    ∧ (s.f (F.FLK_STAT_FAR_SEEN l) = 0 → cleared (.farAbsent l)) ∧ (s.f (F.FLK_STAT_FAR_SEEN l) = 1 → still (.farAbsent l))

/-- R264, R268 to R273: a lane's rest. Model's choices it rests on: log entries 2, 65. -/
def Obligations.LanesRestAndWake : Prop :=
  ∀ (s : State) (l : Fin 16) (m : Master),
    let st := s.f (F.FLK_STAT_STATE l)
    let x := s.lane l
    let on : Prop := s.f (F.FLK_CTRL_EN l) = 1 ∧ s.f (F.FLK_CTRL_REF_EN l) = 1 ∧ s.f (F.FLK_CTRL_RETRAIN l) = 0
    (∃ t, exec (.laneDisable m l) s = .next t ∧ t.f (F.FLK_STAT_STATE l) = 0 ∧ (st ≠ 6 → t.f (F.FLK_CTRL_EN l) = 0)
      ∧ (st = 6 → t.f (F.FLK_STAT_CAUSE l) = 13))
    ∧ (on → ∃ t, exec (.retrain m l) s = .next t ∧ t.f (F.FLK_STAT_STATE l) = 1 ∧ (st = 6 → t.f (F.FLK_STAT_CAUSE l) = 12))
    ∧ (∀ sm : Bool,
        let mode := if sm then 2 else 1
        (on → st = 6 → x.lpEntry = none → s.laneBusy l = false → ∃ t, exec (.laneLpRequest m l sm) s = .next t ∧ (t.lane l).lpEntry = some mode
          ∧ t.f (F.FLK_CTRL_LP l) = mode ∧ t.f (F.FLK_STAT_STATE l) = 6)
        ∧ (on → st = 6 → x.lpEntry = none → s.laneBusy l = true → ∃ t, exec (.laneLpRequest m l sm) s = .next t ∧ t.f (F.FLK_CTRL_LP l) = 0
          ∧ t.lane l = x ∧ s.Joins t .LANE_LP_REFUSED (objLink l) [2])
        ∧ (st = 0 → s.f (F.FLK_CTRL_EN l) = 0 ∨ s.f (F.FLK_CTRL_REF_EN l) = 0 → ∃ t, exec (.laneLpRequest m l sm) s = .next t
          ∧ t.f (F.FLK_CTRL_LP l) = 0 ∧ t.f (F.FLK_STAT_STATE l) = 0 ∧ s.Joins t .LANE_LP_REFUSED (objLink l) [1])
        ∧ (on → 2 ≤ st → st ≤ 5 → ∃ t, exec (.laneLpRequest m l sm) s = .next t ∧ t.f (F.FLK_CTRL_LP l) = 0
          ∧ t.lane l = x ∧ s.Joins t .LANE_LP_REFUSED (objLink l) [1]))
    ∧ (∀ (mode : Fin 4) (ack : Bool),
        let mine : Prop := st = 6 ∧ s.f (F.FLK_STAT_RELOCK l) = 0 ∧ x.lpEntry = some mode.val ∧ ack = true
        (¬mine → exec (.lpBlock l mode ack) s = .next s)
        ∧ (mine → x.lpWake = false → ∃ t, exec (.lpBlock l mode ack) s = .next t ∧ t.f (F.FLK_STAT_FAR_SEEN l) = 0
            ∧ t.f (F.FLK_STAT_STATE l) = (if mode = 1 then 7 else 8))
        ∧ (mine → x.lpWake = true → ∃ t, exec (.lpBlock l mode ack) s = .next t
            ∧ t.f (F.FLK_STAT_STATE l) = (if mode = 1 then 7 else 9) ∧ (mode = 1 → (t.lane l).waking = true)))
    ∧ (st = 6 → x.lpEntry ≠ none → ∃ t, exec (.lpNoack l) s = .next t ∧ (t.lane l).lpEntry = none ∧ t.f (F.FLK_CTRL_LP l) = 0
        ∧ t.f (F.FLK_STAT_STATE l) = 6 ∧ s.Joins t .LANE_LP_REFUSED (objLink l) [3])
    ∧ (st ≠ 6 ∨ x.lpEntry = none → exec (.lpNoack l) s = .next s)
    ∧ (on → st = 8 → ∃ t, exec (.laneLpWake m l) s = .next t ∧ t.f (F.FLK_STAT_STATE l) = 9 ∧ t.f (F.FLK_CTRL_LP l) = 0 ∧ (t.lane l).fromEq = true)
    ∧ (on → st = 7 → x.waking = false → ∃ t, exec (.laneLpWake m l) s = .next t ∧ t.f (F.FLK_STAT_STATE l) = 7 ∧ (t.lane l).waking = true
        ∧ (t.lane l).valid = 0)
    ∧ (on → st = 6 → x.lpEntry ≠ none → ∃ t, exec (.laneLpWake m l) s = .next t ∧ (t.lane l).lpWake = true ∧ t.f (F.FLK_STAT_STATE l) = 6)
    ∧ (st = 8 → ∃ t, exec (.laneWakeFar l) s = .next t ∧ t.f (F.FLK_STAT_STATE l) = 9 ∧ t.f (F.FLK_CTRL_LP l) = 0 ∧ t.f (F.FLK_STAT_FAR_SEEN l) = 1
        ∧ s.Joins t .LANE_WAKE_FAR (objLink l) [])
    ∧ (st = 7 → x.waking = false → ∃ t, exec (.laneWakeFar l) s = .next t ∧ t.f (F.FLK_STAT_STATE l) = 7 ∧ (t.lane l).waking = true
        ∧ t.f (F.FLK_CTRL_LP l) = 0 ∧ s.Joins t .LANE_WAKE_FAR (objLink l) [])
    ∧ (st < 6 ∨ 8 < st → exec (.laneWakeFar l) s = .next s)
    ∧ (st = 9 → ∃ t, exec (.relightDone l) s = .next t ∧ t.f (F.FLK_STAT_STATE l) =
        (if s.f (F.FLK_STAT_FAR_SEEN l) = 1 ∧ s.f F.CLK_STAT_REF_OK = 1 ∧ s.f (F.FLK_STAT_HOLDOFF l) = 0 then 2 else 1))
    ∧ (st ≠ 9 → exec (.relightDone l) s = .next s)

/-! ### Partners, stewardship and the Slate link (R276 to R306) -/

/-- R278 to R296: what the nodes send. Model's choices it rests on: log entries 10, 67, 68, 69. -/
def Obligations.NodeFramesAct : Prop :=
  ∀ (s : State) (f : FrameIn),
    let up : Prop := s.f F.PTN_CTRL_EN = 1 ∧ s.laneLive f.lane = true
    let from' (p : Nat) (x : Partner) : Prop := up ∧ f.ok = true ∧ s.partnerAt f.lane f.pos = some p ∧ s.partner p = some x
    let counts (c : Instr) : Prop := ∃ t, exec c s = .next t ∧ t.f F.PTN_COUNTS_FRAME_BAD = min (s.f F.PTN_COUNTS_FRAME_BAD + 1) (fieldMax F.PTN_COUNTS_FRAME_BAD)
      ∧ ∀ a, a ≠ Reg.PTN_COUNTS → t.rd a = s.rd a
    let every (q : Instr → Prop) : Prop := (∀ a b c d e, q (.nodeInfo f a b c d e)) ∧ (∀ a b c, q (.samples f a b c)) ∧ (∀ r, q (.report f r))
      ∧ ∀ a b c d, q (.reply f a b c d)
    (¬up → every (fun c => exec c s = .next s) ∧ exec (.nodeBoundFrame f.lane) s = .next s)
    ∧ (up → counts (.nodeBoundFrame f.lane) ∧ (f.ok = false → every counts))
    ∧ (∀ (l : Fin 16) (long : Bool),
        let on : Prop := s.f F.PTN_CTRL_EN = 1 ∧ s.laneState l = 6 ∧ (s.lane l).hopDone = true
        (¬on → exec (.discoverSend l long) s = .next s)
        ∧ (on → ∃ t, exec (.discoverSend l long) s = .next t ∧ (t.lane l).searches = (s.lane l).searches + 1
            ∧ (long = true → s.Enters t .CHAIN_LONG (objLink l) [])))
    ∧ (∀ (serial model epoch p : Nat) (two : Bool) (chans : List NodeCh), up → f.ok = true → s.f F.PTN_CTRL_AUTO_JOIN = 0 →
        (s.partnerNumber serial = (some p, s) → s.partner p = none →
          ∃ t y, exec (.nodeInfo f serial model two epoch chans) s = .next t ∧ t.partner p = some y ∧ y.serial = serial ∧ y.model = model ∧ y.present = true
            ∧ y.chans = chans ∧ y.epoch = epoch ∧ y.routes = [{ lane := f.lane, pos := f.pos, last := s.tick.num, live := true }]
            ∧ s.Enters t .PARTNER_UP (objPartner p) [(serial : Int), (f.lane.val : Int), (f.pos : Int)])
        ∧ (∀ x, s.partnerNumber serial = (some p, s) → s.partner p = some x → x.serial = serial → x.present = true →
            newRoutes x.routes f.lane f.pos s.tick.num two = none → ∃ t, exec (.nodeInfo f serial model two epoch chans) s = .next t
              ∧ t.ptn.partners = s.ptn.partners
              ∧ s.Enters t .PARTNER_CLASH (objPartner p) [(serial : Int), (f.lane.val : Int), (f.pos : Int)]))
    ∧ ∀ (p : Nat) (x : Partner), from' p x → p < 512 →
        (∀ e : Nat, ∃ t y, exec (.report f (.epochNotice e)) s = .next t ∧ t.partner p = some y ∧ y.epoch = e
          ∧ (s.steward = true → s.f F.PTN_EPOCH_EPOCH < e → t.ptn.outranked = true))
        ∧ (∀ n d, ∃ t, exec (.report f (.event n d)) s = .next t ∧ s.Joins t n (objPartner p) d)
        ∧ (∀ (c tick epoch : Nat) (w : Word) (ch : Nat), s.slotOf x.serial ch = some c → 96 ≤ c → c < 4192 → 2 ≤ s.slotState c →
            let last := (s.rd (Reg.PTN_SLs_SEQ c)).toNat
            let next := (last + 1) % 2 ^ 32
            let ticks : Prop := s.genState = 1 ∨ s.genState = 2
            (¬ticks → ∀ gs, ∃ t, exec (.samples f tick epoch gs) s = .next t ∧ t.front.remIn = s.front.remIn)
            ∧ (ticks → s.tick.num ≤ tick + 2 → (s.slot c).rebase = none → ∃ t v, exec (.samples f tick epoch [⟨ch, next, [w]⟩]) s = .next t
              ∧ t.front.remIn = s.front.remIn ++ [v] ∧ v.ch = c ∧ v.tick = tick + 2 ∧ v.seq = next ∧ v.word &&& 0x6FFFFFFF#32 = w &&& 0x6FFFFFFF#32
              ∧ (t.rd (Reg.PTN_SLs_SEQ c)).toNat = next)
            ∧ (ticks → tick + 2 < s.tick.num → ∃ t, exec (.samples f tick epoch [⟨ch, next, [w]⟩]) s = .next t ∧ (t.slot c).late = true
              ∧ t.rd (Reg.PTN_SLs_SEQ c) = s.rd (Reg.PTN_SLs_SEQ c) ∧ t.front.remIn = s.front.remIn)
            ∧ (ticks → ∃ t, exec (.samples f tick epoch [⟨ch, last, [w]⟩]) s = .next t ∧ t.front.remIn = s.front.remIn
              ∧ t.f F.PTN_COUNTS_DUP = min (s.f F.PTN_COUNTS_DUP + 1) (fieldMax F.PTN_COUNTS_DUP)))
        ∧ ∀ (cseq epoch value : Nat) (z : Change), (s.ptn.sentCmds.find? fun y => y.cseq == cseq && y.partner == p) = some z →
            96 ≤ z.slot → z.slot < 4192 →
            (z.op = 1 → s.slotState z.slot = 1 → s.tick.num < z.tick → ∃ t, exec (.reply f epoch cseq 0 value) s = .next t ∧ t.slotState z.slot = 2
              ∧ (t.slot z.slot).base = value ∧ (t.rd (Reg.PTN_SLs_SEQ z.slot)).toNat = (value + 2 ^ 32 - 1) % 2 ^ 32
              ∧ ∀ y ∈ t.ptn.sentCmds, y.cseq ≠ cseq)
            ∧ (z.op ≠ 1 → ∀ r : Fin 5, r ≠ 0 → ∃ t, exec (.reply f epoch cseq r value) s = .next t 
              ∧ (t.slot z.slot).sets = (s.slot z.slot).sets.filter (fun w => w.cseq != cseq) ∧ ∀ y ∈ t.ptn.sentCmds, y.cseq ≠ cseq)

/-- R282 to R294: changes of the remote slots. Model's choices it rests on: log entries 68, 71. -/
def Obligations.PartnerChangesAct : Prop :=
  ∀ (s : State) (m : Master),
    (∀ (p : Fin 512) (l : Fin 16),
      (∀ x, s.partner p = some x → (x.routes.any fun r => r.lane == l.val && r.live) = true →
        let rs := x.routes.map fun (r : Route) => if r.lane = l.val then { r with live := false } else r
        ((rs.any (·.live)) = true → ∃ t, exec (.routeExpiry p l) s = .next t ∧ t.partner p = some { x with routes := rs } ∧ t.hub.evq = s.hub.evq)
        ∧ (s.laneState l = 7 ∨ s.laneState l = 8 → ∃ t, exec (.routeExpiry p l) s = .next t ∧ t.partner p = some { x with routes := rs }
            ∧ t.hub.evq = s.hub.evq)
        ∧ (x.present = true → (rs.any (·.live)) = false → s.laneState l ≠ 7 → s.laneState l ≠ 8 → s.slotsOfPartner x.serial = [] → ∃ t, exec (.routeExpiry p l) s = .next t
            ∧ t.partner p = some { x with routes := rs, present := false, absent := s.tick.num }
            ∧ s.Joins t .PARTNER_LOST (objPartner p) [(x.serial : Int)]))
      ∧ (s.partner p = none → exec (.routeExpiry p l) s = .next s))
    ∧ (∀ cseq : Nat,
        ((∀ x ∈ s.ptn.sentCmds, x.cseq ≠ cseq) → exec (.commandRetry cseq) s = .next s)
        ∧ ∀ x q, (s.ptn.sentCmds.find? fun y => y.cseq == cseq) = some x → s.partner x.partner = some q →
          (x.repeats < 3 → ∃ t, exec (.commandRetry cseq) s = .next t
            ∧ t.ptn.sentCmds = s.ptn.sentCmds.map fun (w : Change) => if w.cseq = cseq then { w with repeats := w.repeats + 1 } else w)
          ∧ (3 ≤ x.repeats → ∃ t, exec (.commandRetry cseq) s = .next t
            ∧ s.Enters t .PARTNER_NO_REPLY (objPartner x.partner) [(x.op : Int), (x.slot : Int)]
            ∧ (x.op ≠ 1 → t.ptn.sentCmds = s.ptn.sentCmds.filter fun w => w.cseq != cseq)
            ∧ (x.op = 1 → s.slotState x.slot = 1 → s.f F.PTN_CTRL_AUTO_JOIN = 0 → 96 ≤ x.slot → x.slot < 4192 → t.slotState x.slot = 0)))
    ∧ (∀ sl : Fin 4192, 96 ≤ sl.val →
        let wait := s.ptn.waiting.find? fun x => x.op == 1 && x.slot == sl.val
        let free : Bool := !(s.ptn.waiting.any fun x => x.slot == sl.val)
        (wait = none ∨ s.steward = false → exec (.join sl) s = .next s)
        ∧ (∀ x q, wait = some x → s.steward = true → s.partner x.partner = some q →
            (s.mirrored x = false → s.f F.PTN_STEW_SLATE_UP = 1 → exec (.join sl) s = .next s)
            ∧ (s.mirrored x = true → s.slotState sl ≠ 3 → ∃ t, exec (.join sl) s = .next t ∧ t.slotState sl = 1
                ∧ (t.rd (Reg.PTN_SLs_ID sl)).toNat = q.serial % 2 ^ 32 ∧ (t.slot sl).rate = x.arg0))
        ∧ (∀ lead : Nat,
            (s.steward = false ∨ s.slotState sl ≠ 2 ∨ free = false → exec (.leave sl lead) s = .next s)
            ∧ (s.steward = true → s.slotState sl = 2 → free = true → s.f F.PTN_CTRL_PAIR = 0 → s.partner (s.f (F.PTN_SLs_STAT_PARTNER sl)) ≠ none →
                ∃ t, exec (.leave sl lead) s = .next t ∧ t.slotState sl = 3 ∧ (t.slot sl).leave = some (s.tick.num + max lead s.joinLead))
            ∧ (s.steward = true → s.slotState sl = 2 → free = true → s.f F.PTN_CTRL_PAIR = 1 → s.f F.PTN_STEW_SLATE_UP = 1 →
                ∃ t x, exec (.leave sl lead) s = .next t ∧ t.slotState sl = 2 ∧ t.ptn.waiting = s.ptn.waiting ++ [x] ∧ x.op = 2 ∧ x.slot = sl.val))
        ∧ ∀ (ncfg : Bool) (w : Word),
            let reg := if ncfg then Reg.PTN_SLs_NCFG sl else Reg.PTN_SLs_RATE sl
            let v := if ncfg then w else w &&& 0xFFFFFF#32
            (s.slotState sl < 2 → ∃ t, exec (.slotSet m sl ncfg w) s = .next t ∧ t.rd reg = v ∧ ∀ a, a ≠ reg → t.rd a = s.rd a)
            ∧ (2 ≤ s.slotState sl → s.steward = false → ∃ t, exec (.slotSet m sl ncfg w) s = .next t ∧ s.RegsBut t []
                ∧ s.Joins t .PTN_NOT_STEWARD (objChannel sl) [(masterCode m : Int)])
            ∧ (s.slotState sl = 2 → s.steward = true → s.f F.PTN_CTRL_PAIR = 0 → s.partner (s.f (F.PTN_SLs_STAT_PARTNER sl)) ≠ none →
                let rate := if ncfg then (s.slotAsked sl).1 else if v = 0#32 then s.offered sl else v.toNat
                let fits := s.slotFits sl rate (s.slot sl).lane
                (ncfg = true ∨ fits = true → ∃ t z, exec (.slotSet m sl ncfg w) s = .next t ∧ (t.slot sl).sets = (s.slot sl).sets ++ [z]
                  ∧ z.tick = s.tick.num + s.joinLead ∧ z.rate = rate ∧ z.rateReg = (if ncfg then none else some v)
                  ∧ z.ncfgReg = (if ncfg then some w else none))
                ∧ (ncfg = false → fits = false → ∃ t, exec (.slotSet m sl ncfg w) s = .next t ∧ s.RegsBut t [] ∧ (t.slot sl).sets = (s.slot sl).sets
                  ∧ s.Joins t .ENVELOPE_EXCEEDED (objChannel sl) [(reg : Int), (masterCode m : Int)])))
    ∧ ∀ mseq : Nat,
      let lags := s.ptn.waiting.find? fun x => x.mseq == mseq && !s.mirrored x
      (lags = none ∨ s.steward = false → exec (.mirrorLag mseq) s = .next s)
      ∧ ∀ x, lags = some x → s.steward = true → ∃ t, exec (.mirrorLag mseq) s = .next t
          ∧ t.ptn.waiting = (s.ptn.waiting.filter fun w => w.mseq != mseq) ∧ s.Enters t .MIRROR_LAG (objPartner x.partner) [(x.slot : Int)]

/-- R297 to R304: stewardship and the mirror. Model's choices it rests on: log entries 70, 71, 122. -/
def Obligations.StewardshipAndMirrorAct : Prop :=
  ∀ (s : State) (m : Master),
    (∀ b : Beat, ∃ t, exec (.heartbeat b) s = .next t ∧ t = { s with ptn.beats := s.ptn.beats ++ [b] }
        ∧ (s.f F.PTN_CTRL_PAIR = 1 → s.ptn.take = false →
            let u := t.slateBoundary
            u.f F.PTN_STEW_SLATE_UP = 1 ∧ u.f F.PTN_STEW_SILENT = 0 ∧ u.ptn.peerEpoch = b.epoch ∧ u.ptn.lastBeat = b.tick
            ∧ (u.f F.PTN_STEW_RATE_MISMATCH = 1 ↔ b.rate ≠ s.rate)
            ∧ (s.steward = true → b.rate = s.rate → b.steward = true → s.f F.PTN_EPOCH_EPOCH < b.epoch → u.steward = false)))
    ∧ (∃ t, exec (.take m) s = .next t ∧ t = { s with ptn.take := true }
        ∧ (s.f F.PTN_CTRL_EN = 1 → s.f F.PTN_CTRL_PAIR = 1 → s.steward = false → s.ptn.beats = [] → s.ptn.stop = false →
            ∃ e : Nat, t.slateBoundary.steward = true ∧ t.slateBoundary.f F.PTN_EPOCH_EPOCH = e % 2 ^ 32
              ∧ s.f F.PTN_EPOCH_EPOCH < e ∧ s.ptn.peerEpoch < e))
    ∧ (let due : Prop := s.f F.PTN_CTRL_EN = 1 ∧ s.f F.PTN_CTRL_PAIR = 1 ∧ s.steward = false ∧ s.silenceNeeded ≤ s.f F.PTN_STEW_SILENT;
        (¬due → exec .stewardTakeSilence s = .next s)
        ∧ (due → ∃ (t : State) (e : Nat), exec .stewardTakeSilence s = .next t ∧ t.steward = true
            ∧ t.f F.PTN_EPOCH_EPOCH = e % 2 ^ 32 ∧ s.f F.PTN_EPOCH_EPOCH < e ∧ s.ptn.peerEpoch < e
            ∧ (∀ p x, (p, some x) ∈ s.ptn.partners → x.present = true → x.epoch < e)
            ∧ (s.ptn.silentNoted = true → s.Enters t .STEWARD_TAKEN 0 [(e : Int)])))
    ∧ (∀ (mseq : Nat) (r : MirrorIn),
        let mine : Prop := s.steward = false ∧ s.f F.PTN_CTRL_PAIR = 1
        let next : Prop := mseq = (s.ptn.applied + 1) % 2 ^ 32
        (¬mine ∨ (¬next ∧ r ≠ .syncBegin) → exec (.mirrorRecord mseq r) s = .next s)
        ∧ (mine → next ∨ r = .syncBegin → ∃ t, exec (.mirrorRecord mseq r) s = .next t ∧ t.ptn.applied = mseq % 2 ^ 32)
        ∧ (mine → next →
            (∀ e tick, r = .epoch e tick → exec (.mirrorRecord mseq r) s = .next { s with ptn.applied := mseq, ptn.peerEpoch := e })
            ∧ (∀ n l, r = .syncEnd n → s.ptn.syncing = some l →
                (∀ c ∈ s.usedSlots, s.slotState c ≠ 0 → ((s.rd (Reg.PTN_SLs_ID c)).toNat, s.f (F.PTN_SLs_STAT_NODE_CH c)) ∈ l) →
                ∃ t, exec (.mirrorRecord mseq r) s = .next t ∧ t.f F.PTN_STEW_SYNCED = 1 ∧ t.ptn.syncing = none ∧ t.hub.evq = s.hub.evq)
            ∧ (∀ serial ch g b rec tick, r = .coeff serial ch g b rec tick → ∃ t, exec (.mirrorRecord mseq r) s = .next t ∧ t.ptn.applied = mseq
                ∧ t.front.remCal.head? = some { serial := serial, nodeCh := ch, g := g, b := b, record := rec, trace := 1 })
            ∧ (∀ netid tick pre post tf orig, r = .arm netid 0 tick pre post tf orig → ∃ t, exec (.mirrorRecord mseq r) s = .next t
                ∧ ∀ u ∈ s.netTrigs netid, (t.trig u).disarm = some s.nextDue)
            ∧ (∀ serial ch st rate ncfg tick base p x, r = .nodeCfg serial ch st rate ncfg tick base → s.partnerOf serial = some p → s.partner p = some x →
                (∀ c, s.slotOf serial ch = none → st = 2 → s.chooseSlot serial ch = some c → 96 ≤ c → s.slotState c = 0 →
                  s.slotFits c rate x.home.1 = true → s.tick.num < tick → ∃ t, exec (.mirrorRecord mseq r) s = .next t ∧ t.slotState c = 2
                    ∧ (t.slot c).join = tick ∧ (t.slot c).rate = rate ∧ (t.slot c).base = base % 2 ^ 32)
                ∧ (∀ c, s.slotOf serial ch = some c → st = 2 → s.slotState c = 2 → (s.slot c).joined = true → s.slotAsked c ≠ (rate, ncfg) →
                  ∃ t, exec (.mirrorRecord mseq r) s = .next t
                    ∧ (t.slot c).sets = (s.slot c).sets ++ [⟨0, max tick (s.tick.num + 1), rate, none, some ncfg⟩])
                ∧ (∀ c, s.slotOf serial ch = some c → st = 3 → 96 ≤ c → ∃ t, exec (.mirrorRecord mseq r) s = .next t ∧ t.slotState c = 3
                    ∧ (t.slot c).leave = some (max tick (s.tick.num + 1)))))
        ∧ (mine → r = .syncBegin → ∃ t, exec (.mirrorRecord mseq r) s = .next t ∧ t.f F.PTN_STEW_SYNCED = 0 ∧ t.ptn.syncing = some []
            ∧ t.ptn.applied = mseq % 2 ^ 32))
    ∧ (s.steward = false → exec .mirrorResend s = .next s)
    ∧ (s.steward = true → ∃ t, exec .mirrorResend s = .next t ∧ t.ptn = s.ptn ∧ t.hub.mirrorOut = s.hub.mirrorOut)
    ∧ (s.f F.PTN_CTRL_PAIR = 0 → exec .slateUp s = .next s)
    ∧ (s.f F.PTN_CTRL_PAIR = 1 → s.steward = false → ∃ t, exec .slateUp s = .next t ∧ t.f F.PTN_STEW_SLATE_UP = 1 ∧ t.f F.PTN_STEW_SYNCED = 0
        ∧ ∀ a, a ≠ Reg.PTN_STEW → t.rd a = s.rd a)
    ∧ (s.f F.PTN_CTRL_PAIR = 1 → s.steward = true → ∃ (t : State) (l : List MirrorRec), exec .slateUp s = .next t ∧ t.f F.PTN_STEW_SLATE_UP = 1
        ∧ t.hub.mirrorOut = s.hub.mirrorOut ++ l ∧ (l.head?.map (·.rtype)) = some 5 ∧ (l.getLast?.map (·.rtype)) = some 6)

/-! ### Network time (R307 to R333) -/

/-- R310 to R321: what the ports receive and send. Model's choices it rests on: log entries 10, 72, 73. -/
def Obligations.PtpMessagesAct : Prop :=
  ∀ (s : State) (u : Fin 2) (h : PtpHdr),
    let x := s.port u
    let servo := s.f F.PTP_SERVO_STAT_STATE
    let ok : Prop := s.portOn u = true ∧ s.ptpMatch u h = true
    let up : Prop := 2 ≤ s.f F.STK_STAT_STATE
    let steady : Prop := servo ≠ 1 ∨ s.f F.PTP_SERVO_STAT_STEPPED = 1
    let asym := s.fs (F.PTP_Un_ASYM_ASYM u)
    let every (q : Instr → Prop) : Prop := (∀ a b c d e f, q (.ptpSync u h a b c d e f)) ∧ (∀ a b c d, q (.ptpFollowUp u h a b c d)) ∧ (∀ a, q (.ptpAnnounce u h a))
      ∧ (∀ a b c d, q (.ptpDelayResp u h a b c d)) ∧ (∀ a b c, q (.ptpPdelayReq u h a b c)) ∧ ∀ a b c d, q (.ptpPdelayResp u h a b c d)
    (s.portOn u = false → every fun c => exec c s = .next s)
    ∧ (s.portOn u = true → s.ptpMatch u h = false → every fun c => ∃ t, exec c s = .next t
        ∧ t.f (F.PTP_Un_CNT_RX_BAD u) = min (s.f (F.PTP_Un_CNT_RX_BAD u) + 1) 65535 ∧ (∀ a, a ≠ Reg.PTP_Un_CNT u → t.rd a = s.rd a)
        ∧ { t with mem := s.mem } = s)
    ∧ (ok → ∀ (src seq : Nat) (origin corr stamp : Int),
        let t2 := stamp - (s.f (F.PTP_Un_ING_LAT_LAT u) : Nat) - asym
        (s.fromBest u src = false → ∀ two, exec (.ptpSync u h src seq two origin corr stamp) s = .next s)
        ∧ (s.fromBest u src = true →
            (∃ t, exec (.ptpSync u h src seq true origin corr stamp) s = .next t ∧ t.f (F.PTP_Un_CNT_SYNC u) = (s.f (F.PTP_Un_CNT_SYNC u) + 1) % 65536
              ∧ t.port u = { x with syncs := x.syncs ++ [{ src := src, seq := seq, t2 := t2, corr := corr }] })
            ∧ ∃ t, exec (.ptpSync u h src seq false origin corr stamp) s = .next t ∧ (steady → (t.port u).ms = some (t2 - origin - corr))
                ∧ ∀ d, x.mpd = some d →
                    let o := t2 - origin - corr - d
                    (s.ptp.sel = none → (t.port u).offs = (o :: x.offs).take 255)
                    ∧ (¬up → (t.port u).offs = (o :: x.offs).take 255 ∧ t.f F.PTP_SERVO_STAT_STATE = servo ∧ t.tick = s.tick ∧ t.ptp.sel = s.ptp.sel)
                    ∧ (∀ a, up → s.ptp.sel = some (u.val, a) → servo = 1 → s.f F.PTP_SERVO_STAT_STEPPED = 0 → s.qual ≤ ((o :: x.offs).take 255).length →
                        let step := -(medianOf (((o :: x.offs).take 255).take s.qual))
                        t.tick.clock = ((s.tick.clock : Int) + step).toNat ∧ t.f F.PTP_SERVO_STAT_STEPPED = 1 ∧ (t.port u).offs = []
                          ∧ s.Joins t .PTP_STEP 0 [step])
                    ∧ (∀ a, up → s.ptp.sel = some (u.val, a) → servo = 2 → s.lockThr < o.natAbs → s.qual ≤ s.ptp.beyond + 1 → t.f F.PTP_SERVO_STAT_STATE = 3))
        ∧ (∀ w, (x.syncs.find? fun w => w.seq == seq && w.src == src) = some w → ∃ t, exec (.ptpFollowUp u h src seq origin corr) s = .next t
            ∧ (t.port u).syncs.map (·.seq) = (x.syncs.filter fun w => !(w.seq == seq && w.src == src)).map (·.seq)
            ∧ (steady → (t.port u).ms = some (w.t2 - origin - (w.corr + corr))
                ∧ (t.port u).syncs = x.syncs.filter fun w => !(w.seq == seq && w.src == src)))
        ∧ ((∀ w ∈ x.syncs, ¬(w.seq = seq ∧ w.src = src)) → exec (.ptpFollowUp u h src seq origin corr) s = .next s)
        ∧ (∀ r ms, (x.reqs.find? fun r => r.1 == seq) = some r → x.ms = some ms → s.fromBest u src = true → s.f F.PTP_CTRL_PROFILE = 0 →
            let d := rdiv (ms + (origin - r.2 - corr)) 2
            ∃ t, exec (.ptpDelayResp u h src seq origin corr) s = .next t ∧ (t.port u).mpd = some d ∧ t.f (F.PTP_Un_MPD_MPD u) = min 4294967295 d.toNat)
        ∧ (s.f F.PTP_CTRL_PROFILE = 1 → exec (.ptpDelayResp u h src seq origin corr) s = .next s)
        ∧ (∀ r, (x.reqs.find? fun r => r.1 == seq) = some r → s.f F.PTP_CTRL_PROFILE = 1 →
            let d := rdiv (t2 - r.2 - origin - corr) 2
            ∃ t, exec (.ptpPdelayResp u h seq origin corr stamp) s = .next t ∧ (t.port u).mpd = some d ∧ t.f (F.PTP_Un_MPD_MPD u) = min 4294967295 d.toNat)
        ∧ (s.f F.PTP_CTRL_PROFILE = 0 → exec (.ptpPdelayResp u h seq origin corr stamp) s = .next s)
        ∧ ∃ t, exec (.ptpPdelayReq u h seq origin stamp) s = .next t
            ∧ (∃ y : Sent, t.hub.sent = y :: s.hub.sent ∧ y.kind = .ptpPdelayResp ∧ y.port = u.val
                ∧ y.data = [(seq : Int), 0, (stamp + (s.f (F.PTP_Un_EGR_LAT_LAT u) : Nat)) - (origin - (s.f (F.PTP_Un_ING_LAT_LAT u) : Nat))])
            ∧ { t with hub.sent := s.hub.sent, hub.freeCtr := s.hub.freeCtr } = s)
    ∧ (ok → ∀ a : Announce,
        let l := if (x.foreign.any fun m => m.ann.src == a.src) then x.foreign.map fun m => if m.ann.src = a.src then { ann := a, count := min 2 (m.count + 1) } else m
          else if x.foreign.length < 8 then x.foreign ++ [{ ann := a, count := 1 }] else x.foreign
        ∃ t, exec (.ptpAnnounce u h a) s = .next t ∧ (t.port u).foreign = l ∧ (t.port u).best = bestOf l
          ∧ (¬up → t.f F.PTP_SERVO_STAT_STATE = servo ∧ t.ptp.sel = s.ptp.sel)
          ∧ (up → bestOf l ≠ none → (s.port (1 - u)).best = none → s.ptp.sel = none → servo = 0 →
              t.f F.PTP_SERVO_STAT_STATE = 1 ∧ t.f F.PTP_SERVO_STAT_GM_VALID = 1 ∧ t.f F.PTP_SERVO_STAT_PORT = u))
    ∧ (x.best = none → exec (.announceTimeout u) s = .next s)
    ∧ (∀ a b, up → x.best = some a → s.ptp.sel = some b → (s.port (1 - u)).best = none → bestOf (x.foreign.filter fun m => m.ann.src != a.src) = none → servo = 2 →
        ∃ t, exec (.announceTimeout u) s = .next t ∧ t.f F.PTP_SERVO_STAT_STATE = 4 ∧ t.ptp.sel = none ∧ (t.port u).offs = []
          ∧ s.Joins t .PTP_STATE 0 [2, 4, 1])
    ∧ (∀ seq : Nat,
        ((∀ w ∈ x.syncs, w.seq ≠ seq) → exec (.followUpTimeout u seq) s = .next s)
        ∧ ((∃ w ∈ x.syncs, w.seq = seq) → ∃ t, exec (.followUpTimeout u seq) s = .next t ∧ (∀ w ∈ (t.port u).syncs, w.seq ≠ seq)
            ∧ t.f (F.PTP_Un_CNT_RX_BAD u) = min (s.f (F.PTP_Un_CNT_RX_BAD u) + 1) 65535))
    ∧ (∀ egress : Int,
        let peer := s.f F.PTP_CTRL_PROFILE
        (s.portOn u = false ∨ (peer = 0 ∧ x.best = none) → exec (.ptpReqSend u egress) s = .next s)
        ∧ (s.portOn u = true → peer = 1 ∨ x.best ≠ none → ∃ t, exec (.ptpReqSend u egress) s = .next t
            ∧ (t.port u).reqs = ((x.nextSeq, egress + (s.f (F.PTP_Un_EGR_LAT_LAT u) : Nat) - asym) :: x.reqs).take 8
            ∧ (t.port u).nextSeq = (x.nextSeq + 1) % 65536 ∧ t.mem = s.mem))
    ∧ (servo = 2 → (up → ∃ t, exec .syncTimeout s = .next t ∧ t.f F.PTP_SERVO_STAT_STATE = 4 ∧ s.Joins t .PTP_STATE 0 [2, 4, 2])
        ∧ ∃ t, exec .servoUpdateTimeout s = .next t ∧ t.f F.PTP_SERVO_STAT_STATE = 4 ∧ s.Joins t .PTP_STATE 0 [2, 4, 4])
    ∧ (¬up → exec .syncTimeout s = .next s)
    ∧ (servo ≠ 2 → servo ≠ 3 → exec .syncTimeout s = .next s ∧ exec .servoUpdateTimeout s = .next s)
    ∧ (∀ a b v w l r, (s.port 0).best = some a → (s.port 1).best = some b → (s.port 0).offs = v :: l → (s.port 1).offs = w :: r →
        let apart : Prop := a.gm = b.gm ∧ 4 * s.lockThr < (v - w).natAbs
        (apart → ∃ t, exec .portCompare s = .next t ∧ t.ptp.disagree = s.ptp.disagree + 1
          ∧ (s.ptp.disagree = 7 → s.Joins t .PTP_PORT_DISAGREE 0 [v, w]) ∧ (s.ptp.disagree ≠ 7 → t.hub.evq = s.hub.evq))
        ∧ (¬apart → exec .portCompare s = .next { s with ptp.disagree := 0 }))
    ∧ (servo = 3 → ∃ t, exec .timeOffset s = .next t ∧ s.RegsBut t [] ∧ s.Joins t .TIME_OFFSET 0 [(s.tick.num : Int), s.ofs])
    ∧ (servo ≠ 3 → exec .timeOffset s = .next s)

/-- R324 to R326, R332, R333: resteps and hop delays. Model's choices it rests on: log entries 74, 75. -/
def Obligations.RestepsAndProbesAct : Prop :=
  ∀ (s : State) (m : Master),
    let res := s.f F.PTP_RESTEP_STAT_RESULT
    (∀ mode, ∃ t, exec (.go m mode true) s = .next t ∧ s.RegsBut t [] ∧ s.Joins t .RESTEP_CMD_BAD 0 [])
    ∧ (∀ mode, let c := s.goCode mode;
        (res = 1 → exec (.go m mode false) s = .next s)
        ∧ (res ≠ 1 → ∃ t, exec (.go m mode false) s = .next t ∧ t.f F.PTP_RESTEP_STAT_RESULT = c ∧ (c = 1 → t.ptp.mode = mode)
            ∧ t.f F.PTP_RESTEP_AUTH_VALID = (if c = 5 then 0 else s.f F.PTP_RESTEP_AUTH_VALID) ∧ t.tick = s.tick
            ∧ ∀ a, a ∉ [Reg.PTP_RESTEP_STAT, Reg.PTP_RESTEP_AUTH, Reg.FNC_HIT] → t.rd a = s.rd a))
    ∧ (res = 1 → s.tick.num + 2 ≤ s.restepTick → ∃ t, exec (.cancel m) s = .next t ∧ t.f F.PTP_RESTEP_STAT_RESULT = 8
        ∧ ∀ a, a ≠ Reg.PTP_RESTEP_STAT → t.rd a = s.rd a)
    ∧ (res ≠ 1 ∨ s.restepTick < s.tick.num + 2 → exec (.cancel m) s = .next s)
    ∧ (let due : Prop := res = 1 ∧ s.genState = 1 ∧ s.tick.num = s.restepTick;
        (¬due → exec .restepApply s = .next s)
        ∧ (due →
            let u := s.tailGuard.pinsLast
            let step := u.restepStep
            let code := u.restepCheck step
            ∃ t, exec .restepApply s = .next t
              ∧ (code ≠ 0 → t.f F.PTP_RESTEP_STAT_RESULT = code ∧ u.Joins t .RESTEP_REFUSED 0 [(code : Int)] ∧ t.tick = u.tick)
              ∧ (code = 0 → t.f F.PTP_RESTEP_STAT_RESULT = 2 ∧ t.f F.PTP_RESTEP_AUTH_VALID = 0
                  ∧ t.tick.clock = (((max u.tick.clock (boundaryClock u.rate (u.tick.num + 1)) : Nat) : Int) + step).toNat
                  ∧ t.f64 F.PTP_OFFSET_LO_OFS F.PTP_OFFSET_HI_OFS = bitsOf 64 (u.ofs + step)
                  ∧ t.f F.PTP_SERVO_STAT_STATE = (if t.ofs.natAbs ≤ t.lockThr then 2 else 3)
                  ∧ (step ≤ -65536 → t.genState = 2))))
    ∧ (s.genState ≠ 2 → exec .holdResume s = .next s)
    ∧ (s.genState = 2 → ∃ t, exec .holdResume s = .next t ∧ t.tick.num = s.tick.num + 1)
    ∧ (s.restepExp ≤ s.tick.num → ∃ t, exec .restepAuthExpiry s = .next t ∧ t.f F.PTP_RESTEP_AUTH_VALID = 0
        ∧ (∀ a, a ≠ Reg.PTP_RESTEP_AUTH → t.rd a = s.rd a) ∧ { t with mem := s.mem } = s)
    ∧ (s.tick.num < s.restepExp → exec .restepAuthExpiry s = .next s)
    ∧ ∀ l : Fin 16,
      let x := s.hop l
      (∀ d : Int, (s.laneState l ≠ 6 → exec (.probeSend l d) s = .next s)
        ∧ (s.laneState l = 6 → ∃ t, exec (.probeSend l d) s = .next t ∧ t.mem = s.mem
            ∧ t.hop l = { x with out := x.out ++ [(x.seq, d)], sent := min 64 (x.sent + 1), seq := (x.seq + 1) % 256 }))
      ∧ ∀ seq : Nat,
        (s.laneLive l = false → ∀ a b, exec (.echo l seq a b) s = .next s)
        ∧ ((∀ p ∈ x.out, p.1 ≠ seq) → (∀ a b, exec (.echo l seq a b) s = .next s) ∧ exec (.probeTimeout l seq) s = .next s)
        ∧ ∀ p, (x.out.find? fun p => p.1 == seq) = some p →
          (∀ a b : Int, s.laneLive l = true → ∃ t, exec (.echo l seq a b) s = .next t
            ∧ (t.hop l).results = ((a - p.2 - b + 2 * s.fs (F.PTP_FLl_ASYM_ASYM l)) :: x.results).take 64
            ∧ (t.hop l).out = (x.out.filter fun q => q.1 != seq) ∧ (t.hop l).dropped = 0
            ∧ (x.published = false → 64 ≤ x.sent → (t.hop l).out = [] → (t.hop l).published = true))
          ∧ ∃ t, exec (.probeTimeout l seq) s = .next t ∧ (t.hop l).out = (x.out.filter fun q => q.1 != seq) ∧ (t.hop l).dropped = x.dropped + 1
            ∧ (x.published = true → x.dropped = 15 → s.Joins t .HOP_PROBE_LOST (objLink l) [])

/-! ### The edge timer (R339 to R355) -/

/-- R339 to R353: the edge timer. Model's choices it rests on: log entries 76, 77, 113. -/
def Obligations.EdgesAreTimed : Prop :=
  ∀ s : State,
    let past (t : Int) : Prop := t + 3276800 ≤ (s.tick.clock : Int) ∧ ∀ e ∈ s.edg.fifo, t < e.at'
    (∀ (e : Fin 112) (rise : Bool) (m : EdgeMeas),
      let x := s.edgeSrc e
      let at' := (m.h : Int) - m.u * 2560
      let armed : Prop := e.val < 16 ∨ ∀ l, x.comp = some l →
        l + 65536000 * (s.ef (F.AFE_CH_AE_LOCKOUT (e - 16)) : Nat) ≤ at' ∧ s.ef (F.AFE_CH_AE_HYST (e - 16)) ≤ m.back
      let seen : Prop := s.edgeTaken e rise = true ∧ armed
      let on : Prop := s.edgeOn e = true ∧ seen
      let apart : Prop := ∀ l, x.last = some l → l + 196608 ≤ at'
      let idle (k : Nat) : Prop := ∃ i, x.interps[k]? = some i ∧ (i.busy : Int) ≤ at'
      let rich : Prop := secUnits ≤ (refill x (s.edgeInRate e) s.tick.clock).credit
      let dead (t : State) : Prop := t.f (F.EDG_Ss_CNT_DEAD e) = min (s.f (F.EDG_Ss_CNT_DEAD e) + 1) 255 ∧ t.edg.fifo = s.edg.fifo
        ∧ ∀ a, a ≠ Reg.EDG_Ss_CNT e → t.rd a = s.rd a
      (¬seen → exec (.edgeArrival e rise m) s = .next s)
      ∧ (seen → ¬on → ∃ t, exec (.edgeArrival e rise m) s = .next t ∧ { t with edg.srcs := s.edg.srcs } = s)
      ∧ (on → s.genState ≠ 1 → ∃ t, exec (.edgeArrival e rise m) s = .next t ∧ dead t ∧ { t with mem := s.mem, edg.srcs := s.edg.srcs } = s)
      ∧ (on → s.genState = 1 → ¬apart ∨ (¬idle 0 ∧ ¬idle 1) → ∃ t, exec (.edgeArrival e rise m) s = .next t ∧ dead t ∧ (t.edgeSrc e).missed = true)
      ∧ (∀ i, on → s.genState = 1 → apart → x.interps[0]? = some i → (i.busy : Int) ≤ at' →
          (rich → ∃ t st, exec (.edgeArrival e rise m) s = .next t ∧ t.edg.fifo = fifoInsert st s.edg.fifo ∧ st.src = e ∧ st.rise = rise
            ∧ st.at' = stampOf (i.calibrate m.u1 m.u2) m (s.f (F.EDG_Ss_LAT_LAT e) : Nat) (s.efs (F.EDG_Ss_OFS_OFS e))
            ∧ st.stream = s.eflag (F.EDG_Ss_CFG_STREAM e)
            ∧ t.f (F.EDG_Ss_CNT_ACC e) = (s.f (F.EDG_Ss_CNT_ACC e) + 1) % 65536 ∧ (t.edgeSrc e).last = some at' ∧ (t.edgeSrc e).missed = false)
          ∧ (¬rich → ∃ t, exec (.edgeArrival e rise m) s = .next t ∧ t.edg.fifo = s.edg.fifo ∧ (t.edgeSrc e).missed = true ∧ (t.edgeSrc e).ovr = true
            ∧ t.f (F.EDG_Ss_CNT_OVER e) = min (s.f (F.EDG_Ss_CNT_OVER e) + 1) 255)))
    ∧ (s.edg.fifo = [] → exec .edgeRelease s = .next s)
    ∧ (∀ (e : Stamp) (r : List Stamp), s.edg.fifo = e :: r → (s.tick.clock : Int) < e.at' + 3276800 → exec .edgeRelease s = .next s)
    ∧ (∀ (e : Stamp) (r : List Stamp), s.edg.fifo = e :: r → e.at' + 3276800 ≤ (s.tick.clock : Int) →
        (e.stream = false → e.units = [] → e.groups = [] → exec .edgeRelease s = .next { s with edg.fifo := r })
        ∧ (e.stream = true → e.units = [] → e.groups = [] →
            let ws := recordHead e.src 1 e.flags e.at'
            (4096 ≤ e.queue → exec .edgeRelease s = .next { s with edg.fifo := r })
            ∧ (e.queue < 4096 → ∃ t, exec .edgeRelease s = .next t ∧ t.edg.fifo = r
                ∧ ((s.putPacket e.queue ws).1 = false → (t.edgeSrc e.src).missed = true)))
        ∧ (∀ (i : Fin 16) (b : Bool), e.stream = false → e.groups = [] →
            (∀ a, e.units = [(i.val, b, true)] → (s.interval i).start = some a → e.at' ≤ a.at' + s.intervalTO i → a.at' < e.at' →
              ∃ t, exec .edgeRelease s = .next t ∧ (t.interval i).start = none ∧ (t.interval i).last = some (e.at' - a.at', false)
                ∧ (t.interval i).count = (s.interval i).count + 1)
            ∧ (e.units = [(i.val, true, b)] → (s.interval i).start = none → s.ef (F.EDG_Ii_CFG_EN i) = 1 →
                ∃ t, exec .edgeRelease s = .next t ∧ (t.interval i).start = some e ∧ t.mem = s.mem))
        ∧ (∀ (g : Fin 32) (k j : Nat) (ks : List Nat), e.stream = false → e.units = [] → e.groups = [(g.val, k :: ks)] → (s.group g).open' = none →
            (∀ h, (s.group g).holdoff = some h → h < e.at') → s.ef (F.EDG_Gg_CFG_EN g) = 1 → k < 8 → (∀ i ∈ ks, k < i) →
            j ∈ s.members g → j ∉ k :: ks →
            ∃ t l, exec .edgeRelease s = .next t ∧ (t.group g).open' = some (k, l) ∧ l.getD k none = some e ∧ l.getD j none = none ∧ t.mem = s.mem))
    ∧ (∀ i : Fin 16,
        ((s.interval i).start = none → exec (.intervalTimeout i) s = .next s)
        ∧ ∀ a, (s.interval i).start = some a → (¬past (a.at' + s.intervalTO i) → exec (.intervalTimeout i) s = .next s)
          ∧ (past (a.at' + s.intervalTO i) → ∃ t, exec (.intervalTimeout i) s = .next t ∧ (t.interval i).start = none
            ∧ (t.interval i).last = some (0, true) ∧ (t.interval i).count = (s.interval i).count + 1
            ∧ (s.ef (F.EDG_Ii_CFG_CONT i) = 0 → t.f (F.EDG_Ii_CFG_EN i) = 0)))
    ∧ ∀ g : Fin 32,
      ((s.group g).open' = none → exec (.groupWindowTimeout g) s = .next s)
      ∧ (∀ o, (s.group g).open' = some o →
          let hits := (o.2.filter (·.isSome)).length
          let need := min (max 1 (s.ef (F.EDG_Gg_CFG_MINHIT g))) (s.members g).length
          let limit := groupT0 o + s.groupWin g
          (¬past limit → exec (.groupWindowTimeout g) s = .next s)
          ∧ (past limit → ∃ t, exec (.groupWindowTimeout g) s = .next t ∧ (t.group g).open' = none
            ∧ (t.group g).holding = decide (s.ef (F.EDG_Gg_CFG_HOLDOFF g) ≠ 0)
            ∧ (hits < need → t.f (F.EDG_Gg_CNT_SHORT g) = min (s.f (F.EDG_Gg_CNT_SHORT g) + 1) 255 ∧ (t.group g).last = (s.group g).last)
            ∧ (need ≤ hits → ∃ r, (t.group g).last = some r ∧ r.t0 = groupT0 o ∧ r.offs = o.2.map (groupOfs (groupT0 o))
                ∧ (t.group g).count = (s.group g).count + 1)))
      ∧ ((∀ h, (s.group g).holdoff = some h → h ≤ (s.tick.clock : Int)) →
          ∃ t, exec (.groupHoldoffEnd g) s = .next t ∧ (t.group g).holding = false ∧ t.mem = s.mem ∧ t.edg.fifo = s.edg.fifo)
      ∧ (∀ h, (s.group g).holdoff = some h → (s.tick.clock : Int) < h → exec (.groupHoldoffEnd g) s = .next s)

/-! ### Kindling (R358 to R378) -/

/-- R359 to R374: triggers and captures. Model's choices it rests on: log entries 78, 79. -/
def Obligations.TriggersAct : Prop :=
  ∀ (s : State) (m : Master) (u : Fin 64),
    let st := s.trigState u
    let x := s.trig u
    (∀ late send : Bool,
      let free : Prop := st = 0 ∧ s.f (F.KND_TRu_CFG_EN u) = 1
      let code := (s.schedule (masterCode m) (s.armTick u) (armAddr u) 0#32 0xFFFFFFFF#32 late).1
      (¬free → ∃ t, exec (.arm m u late send) s = .next t ∧ t.f (F.KND_TRu_STAT_RES u) = 3 ∧ t.trigState u = st
        ∧ s.RegsBut t [Reg.KND_TRu_STAT u] ∧ s.Joins t .KND_BUSY (objUnit u) [(Reg.KND_TRu_CMD u : Int)])
      ∧ (free → code = 0 → ∃ t, exec (.arm m u late send) s = .next t ∧ t.trigState u = 1 ∧ t.f (F.KND_TRu_STAT_RES u) = 1
          ∧ (t.trig u).armTick = s.armTick u ∧ ∃ i, t.tick.items = s.tick.items ++ [i] ∧ i.addr = armAddr u ∧ i.tick = s.armTick u)
      ∧ (free → code ≠ 0 → ∃ t, exec (.arm m u late send) s = .next t ∧ t.trigState u = 0 ∧ t.f (F.KND_TRu_STAT_RES u) = 2 ∧ t.tick = s.tick))
    ∧ (∀ send : Bool, ∃ t, exec (.disarm m u send) s = .next t ∧ t.trig u = { x with disarm := some s.nextDue } ∧ t.trigState u = st
        ∧ ∀ b, s.nextDue ≤ b → (t.disarmBoundary b).trigState u = (if st = 4 then 4 else 0) ∧ (t.disarmBoundary b).f (F.KND_TRu_STAT_RES u) = 5
          ∧ ((t.disarmBoundary b).trig u).disarm = none)
    ∧ (∀ (time : Nat) (c : FireCause),
        let early : Prop := time < boundaryClock s.rate x.armTick ∨ ∃ e, x.prevEnd = some e ∧ (time : Int) < e
        let takes : Prop := s.f F.KND_CTRL_EN = 1 ∧ (st = 2 ∨ st = 3) ∧ ¬early
        (¬takes → ∃ t, exec (.fireRequest u time c) s = .next t ∧ t.f (F.KND_TRu_STAT_IGN u) = min (s.f (F.KND_TRu_STAT_IGN u) + 1) 255
          ∧ (∀ a, a ≠ Reg.KND_TRu_STAT u → t.rd a = s.rd a) ∧ { t with mem := s.mem } = s)
        ∧ (takes → st = 2 → ∃ t, exec (.fireRequest u time c) s = .next t ∧ t.trigState u = 3
            ∧ t.trig u = { x with best := some (time, s.serial, c), settleEnd := s.tick.num + max 1 (s.f (F.KND_TRu_CFG_SETTLE u)) })
        ∧ (∀ b, takes → st = 3 → x.best = some b → ∃ t, exec (.fireRequest u time c) s = .next t ∧ t.trigState u = 3
            ∧ t.trig u = { x with best := if time < b.1 then some (time, s.serial, c) else some b }))
    ∧ (st ≠ 3 ∨ x.best = none ∨ s.tick.num < x.settleEnd → exec (.settleIntervalEnd u) s = .next s)
    ∧ (∀ b, st = 3 → x.best = some b → x.settleEnd ≤ s.tick.num →
        let stale : Prop := b.1 + 26214400000000 < boundaryClock s.rate s.tick.num
        (stale → ∃ t, exec (.settleIntervalEnd u) s = .next t ∧ t.trigState u = 2 ∧ (t.trig u).best = none
          ∧ s.Enters t .KND_FIRE_STALE (objUnit u) [(b.1 : Int)])
        ∧ (¬stale → ∃ t, exec (.settleIntervalEnd u) s = .next t ∧ (t.rd (Reg.KND_TRu_ORIG u)).toNat = b.2.1 % 2 ^ 32
            ∧ (t.rd (Reg.KND_TRu_FT_SLO u)).toNat = b.1 / secUnits % 2 ^ 32 ∧ t.f (F.KND_TRu_FT_NS_NS u) = b.1 % secUnits / 65536
            ∧ t.f (F.KND_TRu_FT_FRAC_FRAC u) = b.1 % 65536
            ∧ (∀ y, (t.trig u).cap = some y → t.trigState u = 4 ∧ y.id = s.knd.capid ∧ y.tf = b.1
                ∧ y.lo = (b.1 : Int) - s.f (F.KND_TRu_PRE_PRE u) * 65536000 ∧ y.hi = (b.1 : Int) + s.f (F.KND_TRu_POST_POST u) * 65536000)
            ∧ ((t.trig u).cap = none → t.trigState u = 0 ∨ t.trigState u = 2 ∨ t.trigState u = 5))
        ∧ (¬stale → x.set = [] → 4096 ≤ (s.rd (Reg.KND_TRu_Q u)).toNat → ∃ t y, exec (.settleIntervalEnd u) s = .next t ∧ t.trigState u = 4
            ∧ (t.trig u).cap = some y ∧ y.tf = b.1 ∧ y.lo = (b.1 : Int) - s.f (F.KND_TRu_PRE_PRE u) * 65536000
            ∧ y.hi = (b.1 : Int) + s.f (F.KND_TRu_POST_POST u) * 65536000 ∧ (t.rd (Reg.KND_TRu_ORIG u)).toNat = b.2.1 % 2 ^ 32
            ∧ s.Enters t .KND_FIRE (objUnit u) [(b.1 : Int), (b.2.1 : Int)]))
    ∧ (∀ f : KndFrame,
        let newer : Prop := ∀ n, tabGet (fun _ => none) s.knd.sseqIn f.sender = some n →
          (f.sseq + 2 ^ 32 - n) % 2 ^ 32 ≠ 0 ∧ (f.sseq + 2 ^ 32 - n) % 2 ^ 32 < 2 ^ 31
        let good : Prop := f.tagOk = true ∧ f.version = 1 ∧ newer
        let every (q : Instr → Prop) : Prop := (∀ a b d, q (.armFrame f a b d)) ∧ ∀ a c, q (.fireFrame f a c)
        (f.sender = s.serial → every fun c => exec c s = .next s)
        ∧ (f.sender ≠ s.serial → ¬good → every fun c => ∃ t, exec c s = .next t
            ∧ t.f F.KND_STAT_RX_BAD = min (s.f F.KND_STAT_RX_BAD + 1) 65535 ∧ (∀ a, a ≠ Reg.KND_STAT → t.rd a = s.rd a) ∧ { t with mem := s.mem } = s)
        ∧ (f.sender ≠ s.serial → good → s.netTrigs f.netid = [u.val] →
            let ok := f.armTick = x.armTick
            (∀ pre post, s.f F.KND_CTRL_EN = 1 → ∃ t, exec (.armFrame f pre post true) s = .next t ∧ (t.trig u).disarm = some s.nextDue
              ∧ t.f F.KND_STAT_RX_OK = (s.f F.KND_STAT_RX_OK + 1) % 65536)
            ∧ (∀ pre post, s.f F.KND_CTRL_EN = 1 → st = 0 → s.f (F.KND_TRu_CFG_EN u) = 1 →
                (s.schedule 0 f.armTick (armAddr u) 0#32 0xFFFFFFFF#32 false).1 = 0 →
                ∃ t, exec (.armFrame f pre post false) s = .next t ∧ t.trigState u = 1 ∧ (t.trig u).armTick = f.armTick
                  ∧ t.f (F.KND_TRu_STAT_RES u) = 1)
            ∧ (∀ time c, ¬ok → ∃ t, exec (.fireFrame f time c) s = .next t ∧ t.f (F.KND_TRu_STAT_IGN u) = min (s.f (F.KND_TRu_STAT_IGN u) + 1) 255
                ∧ t.trigState u = st)
            ∧ (∀ time c, ok → s.f F.KND_CTRL_EN = 1 → st = 2 → boundaryClock s.rate x.armTick ≤ time → x.prevEnd = none →
                ∃ t, exec (.fireFrame f time c) s = .next t ∧ t.trigState u = 3 ∧ (t.trig u).best = some (time, f.sender, c))
            ∧ (∀ time c, ok → st = 4 ∨ st = 5 → ∃ t, exec (.fireFrame f time c) s = .next t ∧ t.trigState u = st
                ∧ s.Joins t .KND_FIRE_LATE (objUnit u) [(time : Int), (f.sender : Int)])))
    ∧ (x.cap = none → (∀ l, exec (.captureCopy u l) s = .next s) ∧ exec (.captureTruncate u) s = .next s ∧ exec (.captureEnd u) s = .next s)
    ∧ ∀ y, x.cap = some y →
      let ends (c : Instr) : Prop := ∃ t, exec c s = .next t ∧ (t.trig u).cap = none ∧ (t.trig u).prevEnd = some y.hi ∧ (t.trigState u ≠ 5 → (t.trig u).best = none)
        ∧ (t.trigState u = 0 ∨ t.trigState u = 2 ∨ t.trigState u = 5) ∧ (x.stopAfter = true → t.trigState u = 0)
        ∧ (y.fail ≠ none → x.stopAfter = false → t.trigState u = 5)
      let outrun : Prop := y.k = 4 ∧ (∃ c, y.kAt = some c ∧ c + ms10 ≤ s.tick.clock) ∧ s.outruns u y = true
      let whole : Prop := s.windowIn y = true ∨ ∀ c ∈ y.chans, c.done = true
      (∀ l, ∃ t, exec (.captureCopy u l) s = .next t
        ∧ (∀ z, (t.trig u).cap = some z → z.id = y.id ∧ z.tf = y.tf ∧ z.lo = y.lo ∧ z.hi = y.hi ∧ z.chans.length = y.chans.length ∧ y.words ≤ z.words
            ∧ ((∀ c ∈ y.chans, (tabGet (fun _ => []) s.front.hist c.ent.ch).Pairwise fun a b => b.inst < a.inst) →
                ∀ c ∈ z.chans, c.done = true ∨ t.uncopied z c = []))
        ∧ ((t.trig u).cap = none → t.trigState u = 0 ∨ t.trigState u = 2 ∨ t.trigState u = 5)
        ∧ (4096 ≤ (s.rd (Reg.KND_TRu_Q u)).toNat → (t.trig u).cap ≠ none))
      ∧ (outrun → ends (.captureTruncate u)) ∧ (¬outrun → exec (.captureTruncate u) s = .next s)
      ∧ (whole → ends (.captureEnd u)) ∧ (¬whole → exec (.captureEnd u) s = .next s)

/-- R376 to R378: skew runs. Model's choices it rests on: log entry 81. -/
def Obligations.SkewRunsAct : Prop :=
  ∀ (s : State) (m : Master),
    let np := max 1 (s.f F.KND_SK_CFG_NP)
    let armed : Prop := ∃ x, s.front.session = some x ∧ ∃ y ∈ x.chans, s.skewChan y.ch = true
    let steps (t : State) (b : Int) : Prop :=
      t.hub.sent = { kind := .testPulse, port := 0, data := [(s.f F.KND_SK_SEL_CLUSTERS : Int), b], bytes := [], coded := [] } :: s.hub.sent
    (s.knd.run ≠ none ∨ armed → ∃ t, exec (.start m) s = .next t ∧ t.f F.KND_SK_STAT_RES = 2 ∧ t.knd = s.knd ∧ ∀ a, a ≠ Reg.KND_SK_STAT → t.rd a = s.rd a)
    ∧ (s.knd.run = none → ¬armed → ∃ t r, exec (.start m) s = .next t ∧ t.f F.KND_SK_STAT_PHASE = 1 ∧ t.knd.run = some r
        ∧ r.earliest = s.tick.num + 3 ∧ r.ts = none ∧ r.pulses = 0 ∧ ∀ a, a ≠ Reg.KND_SK_STAT → t.rd a = s.rd a)
    ∧ (s.knd.run = none → exec (.skewAbort m) s = .next s ∧ exec .skewPulse s = .next s ∧ exec .skewRunDone s = .next s)
    ∧ (s.f F.KND_SK_STAT_PHASE = 3 → ∃ t, exec (.apply m) s = .next t ∧ t = { s with knd.apply := some s.nextDue }
        ∧ ∀ b, s.nextDue ≤ b → (t.applyBoundary b).knd.apply = none ∧ (t.applyBoundary b).f F.KND_SK_STAT_PHASE = 4)
    ∧ (s.f F.KND_SK_STAT_PHASE ≠ 3 → exec (.apply m) s = .next s)
    ∧ ∀ r, s.knd.run = some r →
      (∃ t, exec (.skewAbort m) s = .next t ∧ t.knd.run = none ∧ t.f F.KND_SK_STAT_PHASE = 0 ∧ t.f F.KND_SK_STAT_RES = 3)
      ∧ (r.ts = none → exec .skewPulse s = .next s ∧ exec .skewRunDone s = .next s)
      ∧ (∀ ts, r.ts = some ts →
          let rise (j : Nat) : Nat := boundaryClock s.rate ts + j * ms10 + 131072000000
          (r.high = true → s.tick.clock < rise (r.pulses - 1) + ms5 → exec .skewPulse s = .next s)
          ∧ (r.high = true → rise (r.pulses - 1) + ms5 ≤ s.tick.clock → ∃ t, exec .skewPulse s = .next t ∧ t.knd.run = some { r with high := false } ∧ steps t 0)
          ∧ (r.high = false → np ≤ r.pulses ∨ s.tick.clock < rise r.pulses → exec .skewPulse s = .next s)
          ∧ (r.high = false → r.pulses < np → rise r.pulses ≤ s.tick.clock → ∃ t q, exec .skewPulse s = .next t ∧ t.knd.run = some q ∧ q.high = true ∧ q.pulses = r.pulses + 1
              ∧ steps t 1 ∧ t.mem = s.mem)
          ∧ (r.pulses < np ∨ r.high = true ∨ s.tick.clock < rise np → exec .skewRunDone s = .next s)
          ∧ (np ≤ r.pulses → r.high = false → rise np ≤ s.tick.clock → ∃ t, exec .skewRunDone s = .next t ∧ t.knd.run = none ∧ t.f F.KND_SK_STAT_PHASE = 3 ∧ t.f F.KND_SK_STAT_RES = 1
              ∧ s.Joins t .KND_SKEW_DONE 0 ((List.range 4).map fun i => t.fs (F.UMB_SENSs_VALUE i))))

/-! ### Cell pool queues and the arbiter (R379 to R411) -/

/-- R381 to R411: the queues of the cell pool, the backlog store and the arbiter of the banks. Model's choices it rests on: log entries 60, 61, 62, 131. -/
def Obligations.QueuesAndBanksAct : Prop :=
  ∀ (s : State) (m : Master) (q : Fin 4096),
    let x := s.queue q
    let waiting (t : State) : Prop := ∀ i ∈ (t.queue q).items, i.begun = true
    let others (t : State) : Prop := ∀ p, p ≠ q.val → t.queue p = s.queue p
    let quiet : Prop := s.backlogUp = false ∨ s.f F.QMG_BL_STAT_FULL = 1 ∨ 0 < s.f F.QMG_BL_STAT_FREE_BLK
    -- flush
    (∀ force : Bool, ∃ t, exec (.queueFlush m q force) s = .next t ∧ waiting t ∧ others t ∧ t.f F.QMG_FLUSH_STAT_Q = q
      ∧ (x.opens = [] → (t.queue q).flush = none ∧ t.f (F.QMG_Qq_STAT_FLUSHING q) = 0 ∧ t.f F.QMG_FLUSH_STAT_PENDING = 0)
      ∧ (force = true → ∀ o ∈ (t.queue q).opens, o.dropping = true)
      ∧ (force = false → (∃ o ∈ x.opens, o.dropping = false) → t.f (F.QMG_Qq_STAT_FLUSHING q) = 1 ∧ t.f F.QMG_FLUSH_STAT_PENDING = 1
          ∧ (t.queue q).opens = x.opens.map fun o => if o.dropping then o else { o with marked := true })
      ∧ (x.items = [] → x.opens = [] → x.flush = none → (∀ b, (q.val, b) ∉ s.qmg.xfers) → s.Joins t .QMG_FLUSH_DONE (objQueue q) [0, 0, 0, 0]))
    ∧ (s.f (F.QMG_Qq_CFG_EN q) = 0 → exec (.queueDisable m q) s = .next s)
    ∧ (s.f (F.QMG_Qq_CFG_EN q) = 1 → ∃ t, exec (.queueDisable m q) s = .next t ∧ t.f (F.QMG_Qq_CFG_EN q) = 0 ∧ waiting t ∧ others t
        ∧ ∀ o ∈ (t.queue q).opens, o.dropping = true)
    -- host windows
    ∧ (∀ n : Fin 16,
      (let other : Prop := ∃ k : Fin 16, k ≠ n ∧ s.winOn k = true ∧ s.winQueue k = q.val;
        (s.consumer q ≠ 9 ∨ other → ∃ t, exec (.hostWindowBind m n q true) s = .next t ∧ s.RegsBut t [] ∧ t.qmg = s.qmg
            ∧ s.Joins t .QMG_CFG_BAD (objQueue q) [(n.val : Int)])
        ∧ (s.consumer q = 9 → ¬other → s.winOn n = true → s.winQueue n = q.val → exec (.hostWindowBind m n q true) s = .next s)
        ∧ (s.consumer q = 9 → ¬other → s.winOn n = false ∨ s.winQueue n ≠ q.val → ∃ t, exec (.hostWindowBind m n q true) s = .next t
            ∧ t.winOn n = true ∧ t.winQueue n = q.val ∧ t.win n = win0
            ∧ (s.winOn n = false ∨ (s.win n).item = none → ∀ a, a ≠ Reg.QMG_HWn_CFG n → t.rd a = s.rd a)
            ∧ ∀ id, (s.win n).item = some id → s.winOn n = true → ∀ i ∈ (t.queue (s.winQueue n)).items, i.id ≠ id))
      ∧ (∃ t, exec (.hostWindowBind m n q false) s = .next t ∧ t.winOn n = false ∧ t.winQueue n = q.val
          ∧ t.win n = { s.win n with item := none, left := [] } ∧ (∀ k, k ≠ n.val → t.win k = s.win k)
          ∧ ∀ id, (s.win n).item = some id → s.winOn n = true → ∀ i ∈ (t.queue (s.winQueue n)).items, i.id ≠ id)
      ∧ (s.winWords n = [] → ∃ t, exec (.hostWindowRead m n) s = .next t ∧ t.hub.rdata = (s.win n).last ∧ t.f (F.QMG_HWn_STAT_UNDERRUN n) = 1
          ∧ t.qmg = s.qmg ∧ ∀ a, a ≠ Reg.QMG_HWn_STAT n → t.rd a = s.rd a)
      ∧ ∀ w r, s.winWords n = w :: r → ∃ t, exec (.hostWindowRead m n) s = .next t ∧ t.hub.rdata = w ∧ (t.win n).last = w
          ∧ (t.win n).left = r ∧ (t.win n).eop = r.isEmpty ∧ (∀ k, k ≠ n.val → t.win k = s.win k)
          ∧ ∀ id, (s.win n).item = some id → if r = [] then ∀ i ∈ (t.queue (s.winQueue n)).items, i.id ≠ id else (t.win n).item = some id)
    -- checks of items
    ∧ (∀ (single : Nat) (double : Bool),
      ((∀ i ∈ x.items, i.ready = true) → exec (.itemReady q single double) s = .next s)
      ∧ ∀ i, x.items.find? (fun y => !y.ready) = some i →
        let pooled : Prop := 16 ∉ i.banks
        (¬pooled → exec (.itemReady q single double) s = .next s)
        ∧ (pooled → ∃ t, exec (.itemReady q single false) s = .next t ∧ t.qmg.readied = s.qmg.readied + 1
            ∧ t.f F.QMG_ECC_SINGLE = min (s.f F.QMG_ECC_SINGLE + single) 65535 ∧ (∀ a, a ≠ Reg.QMG_ECC → t.rd a = s.rd a) ∧ others t
            ∧ (t.queue q).items = x.items.map fun y => if y.id = i.id then { y with ready := true, at' := s.qmg.readied + 1 } else y)
        ∧ (pooled → quiet → s.f (F.QMG_Qq_STAT_DEEP q) = 0 → ∃ t, exec (.itemReady q single true) s = .next t ∧ (∀ y ∈ (t.queue q).items, y.id ≠ i.id)
            ∧ others t ∧ s.Enters t .QMG_ECC (objQueue q) [(cellsOf i.words.length : Int)]))
    -- spill, fill and the backlog store
    ∧ (let room : Prop := s.qmg.xfers.length < 8;
      let spills : Prop := s.wantsSpill q = true ∧ room ∧ (q.val, false) ∉ s.qmg.xfers ∧ 0 < s.f F.QMG_BL_STAT_FREE_BLK
        ∧ ∀ e ∈ s.qmg.queues, s.wantsFill e.1 = true → (e.1, true) ∈ s.qmg.xfers;
      let fills : Prop := s.wantsFill q = true ∧ s.f F.QMG_SPILL_EN = 1 ∧ room ∧ (q.val, true) ∉ s.qmg.xfers ∧ 32 ≤ s.f F.QMG_POOL_FREE;
      (spills → ∃ t, exec (.spill q) s = .next t ∧ t.qmg.xfers = s.qmg.xfers ++ [(q.val, false)] ∧ t.qmg.queues = s.qmg.queues
          ∧ t.f F.QMG_BL_STAT_FREE_BLK = s.f F.QMG_BL_STAT_FREE_BLK - 1 ∧ s.RegsBut t [Reg.QMG_BL_STAT])
      ∧ (¬spills → exec (.spill q) s = .next s)
      ∧ (fills → ∃ t, exec (.fill q) s = .next t ∧ t.qmg.xfers = s.qmg.xfers ++ [(q.val, true)] ∧ t.qmg.queues = s.qmg.queues
          ∧ t.f F.QMG_POOL_FREE = s.f F.QMG_POOL_FREE - 32 ∧ (tabGet (fun _ => []) t.qmg.fills q).length = 32)
      ∧ (¬fills → exec (.fill q) s = .next s))
    ∧ (∀ (fill : Bool) (a b : List Nat) (k : Nat), (q.val, fill) ∈ s.qmg.xfers → x.items.flatMap (·.banks) = a ++ List.replicate k 16 ++ b → 16 ∉ a → 16 ∉ b →
        let c := tabGet (fun _ => []) s.qmg.fills q
        let moved (t : State) (l : List Nat) : Prop := (t.queue q).items.flatMap (·.banks) = l ∧ (t.queue q).depth = x.depth
          ∧ ((t.queue q).items.map fun i => (i.id, i.words)) = (x.items.map fun i => (i.id, i.words))
          ∧ t.qmg.xfers = s.qmg.xfers.erase (q.val, fill) ∧ others t
        (fill = true → 32 ≤ k → c.length = 32 → 16 ∉ c → ∃ t, exec (.blockTransferDone q fill) s = .next t
          ∧ moved t (a ++ c ++ List.replicate (k - 32) 16 ++ b) ∧ t.f F.QMG_POOL_FREE = min 0x40000 (s.f F.QMG_POOL_FREE))
        ∧ (fill = false → 32 ≤ b.length → k ≠ 0 ∨ a.length = 64 → ∃ t, exec (.blockTransferDone q fill) s = .next t
          ∧ moved t (a ++ List.replicate (k + 32) 16 ++ b.drop 32) ∧ t.f F.QMG_POOL_FREE = min 0x40000 (s.f F.QMG_POOL_FREE + 32)))
    ∧ (∀ intact, (s.f F.QMG_BL_CFG_EN = 0 → exec (.backlogTrained intact) s = .next s)
        ∧ (s.f F.QMG_BL_CFG_EN = 1 → ∃ t, exec (.backlogTrained intact) s = .next t ∧ t.f F.QMG_BL_STAT_READY = 1
            ∧ (intact = true → t.qmg = s.qmg ∧ t.front = s.front ∧ s.RegsBut t [Reg.QMG_BL_STAT])
            ∧ (intact = false → t.front.hist = [] ∧ ∀ p, ∀ i ∈ (t.queue p).items, 16 ∉ i.banks)))
    ∧ (∀ mib : BitVec 16,
      (s.f F.QMG_BL_CFG_SIZE * 1024 ≤ mib.toNat → ∃ t, exec (.histSet m mib) s = .next t ∧ s.RegsBut t [] ∧ s.Joins t .QMG_CFG_BAD 0 [(mib.toNat : Int)])
      ∧ (mib.toNat < s.f F.QMG_BL_CFG_SIZE * 1024 → s.ticking = true → ∃ t, exec (.histSet m mib) s = .next t ∧ s.RegsBut t []
          ∧ s.Joins t .QMG_HIST_BUSY 0 [(mib.toNat : Int)])
      ∧ (mib.toNat < s.f F.QMG_BL_CFG_SIZE * 1024 → s.ticking = false → s.bankValid = false → ∃ t, exec (.histSet m mib) s = .next t
          ∧ t.f F.QMG_BL_HIST_HIST = mib.toNat ∧ s.RegsBut t [Reg.QMG_BL_HIST, Reg.QMG_BL_STAT, Reg.KLN_BANK_STAT, Reg.KLN_LOAD_STAT]
          ∧ t.hub.evq = s.hub.evq))
    -- the arbiter
    ∧ ∀ b : Fin 16,
      (∀ req : BitVec 16, let y := s.arb b
        let keeps : Prop := ∃ o, y.owner = some o ∧ req.getLsbD o = true ∧ (o < 3 ∨ y.beats < max 1 (s.f (F.ARB_RQr_CFG_BURST o)))
        ∃ t, exec (.bankDecision b req) s = .next t ∧ (∀ c, c ≠ b.val → t.arb c = s.arb c) ∧ t.hub = s.hub ∧ t.qmg.queues = s.qmg.queues
          ∧ (keeps → (t.arb b).owner = y.owner ∧ (t.arb b).beats = y.beats + 1 ∧ (t.arb b).ptr = y.ptr)
          ∧ (¬keeps → req = 0#16 → (t.arb b).owner = none ∧ t.f (F.ARB_BKb_OWNER_VALID b) = 0)
          ∧ (¬keeps → req ≠ 0#16 → ∃ r, (t.arb b).owner = some r ∧ (t.arb b).beats = 1 ∧ req.getLsbD r = true
              ∧ t.f (F.ARB_BKb_OWNER_VALID b) = 1 ∧ t.f (F.ARB_BKb_OWNER_OWNER b) = r
              ∧ (∀ o, req.getLsbD o = true → s.arbRank o ≤ s.arbRank r)
              ∧ (y.owner = some r → ∀ o, o ≠ r → req.getLsbD o = true → s.arbRank o < s.arbRank r)
              ∧ (∀ o, y.owner = some o → o ≠ r → (t.arb b).ptr = (o + 1) % 16)))
      ∧ ∀ r : Fin 16, let lim := s.f (F.ARB_RQr_STARVE_LIMIT r)
        let n := tabGet (fun _ => 0) (s.arb b).waits r
        let flags := s.f F.ARB_STARVE_FLAG
        (lim = 0 ∨ n ≤ lim ∨ flags.testBit r = true → exec (.starvation r b) s = .next s)
        ∧ (0 < lim → lim < n → flags.testBit r = false → ∃ t, exec (.starvation r b) s = .next t
            ∧ t.f F.ARB_STARVE_FLAG = flags ||| 2 ^ r.val ∧ s.RegsBut t [Reg.ARB_STARVE]
            ∧ s.Joins t .ARB_STARVED (objUnit r) [(b.val : Int), (s.f (F.ARB_BKb_OWNER_OWNER b) : Int), (n : Int)])

/-! ### Press (R412 to R433) -/

/-- R412 to R430: what Press's four commands do. Model's choices it rests on: log entries 82, 83, 84, 132. -/
def Obligations.PressTakesVerifiesRetrieves : Prop :=
  ∀ s : State,
    let made (t : State) (f : Briq → Prop) : Prop := ∃ b, f b ∧ (b ∈ t.prs.closed ∨ b ∈ t.prs.vers)
    (∀ e : Fin 4,
      (s.f F.PRS_CTRL_EN = 0 ∨ s.engFaulty e = true ∨ s.engClosed e ≠ [] → ∃ t, exec (.pressTakeItem e) s = .next t
          ∧ t.prs.ctxs = s.prs.ctxs ∧ t.prs.marks = s.prs.marks ∧ t.prs.bseq = s.prs.bseq)
      ∧ ∀ (q : Fin 4096) (i : Item), s.f F.PRS_CTRL_EN = 1 → s.engFaulty e = false → s.prs.closed = [] →
          (∀ p ∈ s.readyQueues e, s.f (F.PRS_Qq_OUT_EN1 p.1) = 1) → (s.readyQueues e).head? = some (q.val, i) →
          let gone (t : State) : Prop := ∀ y ∈ (t.queue q).items, y.id ≠ i.id
          let open' := s.prs.ctxs.find? fun y => y.queue == q.val
          (57344 < i.words.length → ∃ t, exec (.pressTakeItem e) s = .next t ∧ gone t ∧ t.prs.ctxs = s.prs.ctxs
            ∧ (s.f (F.QMG_Qq_STAT_DEEP q) = 0 → s.backlogUp = false ∨ (0 < s.f F.QMG_BL_STAT_FREE_BLK ∧ 16 ∉ i.banks) →
                s.Enters t .PRS_ITEM_LARGE (objQueue q) [((4 * i.words.length : Nat) : Int)]))
          ∧ (i.words.length ≤ 57344 → open' = none → (s.prs.ctxs.filter fun y => y.engine == e.val).length < 16 →
              ∃ t x h, exec (.pressTakeItem e) s = .next t ∧ gone t ∧ t.f (F.PRS_ENGn_STAT_LASTQ e) = q ∧ t.prs.ctxs = s.prs.ctxs ++ [x]
                ∧ x.engine = e.val ∧ x.queue = q.val ∧ x.cfg = s.rd (Reg.PRS_Qq_CFG q) ∧ x.out = s.rd (Reg.PRS_Qq_OUT q) ∧ x.since = s.tick.num
                ∧ x.bseq = tabGet (fun _ => 0) s.prs.bseq q ∧ x.items = [h] ∧ h.linked = i.linked ∧ h.kind = kindOf (pPre x.cfg) i.words
                ∧ h.words = (markItem i.words ((s.prs.marks.filter fun k => k.1 == q.val).map (·.2))).1)
          ∧ ∀ x, open' = some x →
            let held := (x.items.map fun h => 4 * h.words.length).sum + 4 * i.words.length
            (i.words.length ≤ 57344 → held ≤ pTarget x.cfg → ∃ t h, exec (.pressTakeItem e) s = .next t ∧ gone t
                ∧ t.f (F.PRS_ENGn_STAT_LASTQ e) = q ∧ h.words = (markItem i.words x.marks).1 ∧ h.kind = kindOf (pPre x.cfg) i.words
                ∧ t.prs.ctxs = s.prs.ctxs.map fun y =>
                    if y.queue = q.val then { y with items := y.items ++ [h], marks := (markItem i.words x.marks).2 } else y)
            ∧ (i.words.length ≤ 57344 → pTarget x.cfg < held → ∃ t, exec (.pressTakeItem e) s = .next t
                ∧ made t fun b => b.items = x.items ∧ b.queue = x.queue ∧ b.engine = x.engine ∧ b.cfg = x.cfg ∧ b.redo = false))
    ∧ (∀ q : Fin 4096,
      (s.prs.ctxs.find? (fun y => y.queue == q.val) = none → exec (.briquetteAgeClose q) s = .next s)
      ∧ (∀ x, s.prs.ctxs.find? (fun y => y.queue == q.val) = some x → s.tick.num < x.since + max 1 (fieldOf x.cfg 31 16) →
          exec (.briquetteAgeClose q) s = .next s)
      ∧ ∀ x, s.prs.closed = [] → s.prs.ctxs.find? (fun y => y.queue == q.val) = some x → x.since + max 1 (fieldOf x.cfg 31 16) ≤ s.tick.num →
          ∃ t, exec (.briquetteAgeClose q) s = .next t
          ∧ t.prs.ctxs = s.prs.ctxs.filter (fun y => y.queue != x.queue)
          ∧ made t fun b => b.items = x.items ∧ b.queue = x.queue ∧ b.engine = x.engine ∧ b.cfg = x.cfg ∧ b.out = x.out ∧ b.bseq = x.bseq
              ∧ b.redo = false)
    ∧ ∀ i : Fin 2, let work := tabGet (fun _ => none) s.prs.infs i
      (∀ code, (∀ id, work ≠ some (.verify id)) → exec (.verifyDone i code) s = .next s)
      ∧ (∀ (code : Fin 9) (id : Nat) (b : Briq), work = some (.verify id) → s.prs.vers.find? (fun y => y.id == id) = some b →
          s.prs.closed = [] → b.engine < 4 → (s.prs.vers.map (·.id)).Nodup → (∀ y ∈ s.prs.vers, y.passed = false) → (b.copies.map (·.1)).Nodup →
          (∀ c ∈ b.copies, ∃ o, (s.queue c.1).pkt c.2 = some o ∧ o.marked = false ∧ o.dropping = false) →
          let first : Prop := ∀ y ∈ s.prs.vers, y.queue = b.queue → b.id ≤ y.id
          ∃ t, exec (.verifyDone i code) s = .next t
            ∧ (code = 0 → ¬first → t.qmg = s.qmg
                ∧ t.prs.vers = s.prs.vers.map fun (y : Briq) => if y.id = id then { y with passed := true } else y)
            ∧ (code = 0 → first → t.prs.vers = s.prs.vers.filter (fun y => y.id != id)
                ∧ t.f (F.PRS_ENGn_BRQ_COUNT b.engine) = (s.f (F.PRS_ENGn_BRQ_COUNT b.engine) + 1) % 4294967296
                ∧ t.f F.QMG_POOL_FREE = min 0x40000 (s.f F.QMG_POOL_FREE + (b.items.map (·.cells.length)).sum)
                ∧ ∀ c ∈ b.copies, ∃ o y, (s.queue c.1).pkt c.2 = some o ∧ y.words = o.words ∧ y.ranges = o.ranges ∧ y.ready = false
                    ∧ (t.queue c.1).items = (s.queue c.1).items ++ [y])
            ∧ (code ≠ 0 → t.f (F.PRS_ENGn_FAIL_CODE b.engine) = code
                ∧ s.Enters t .PRS_INFLATE_FAULT (objUnit (4 + i)) [(code.val : Int), ((s.rd Reg.HUB_SERIAL).toNat : Int), (b.bseq : Int)]
                ∧ (b.redo = false → made t fun y => y.items = b.items ∧ y.redo = true ∧ y.cfg = b.cfg &&& 0xFFFFFF30#32)
                ∧ (b.redo = true → t.engFaulty b.engine = true)))
      ∧ ((∀ j, work ≠ some (.retrieve j)) → exec (.retrievalDone i) s = .next s)
      ∧ ∀ j, work = some (.retrieve j) →
          let x := checkBriq j.words
          let items := if x.code = 0 ∨ (7 ≤ x.code ∧ j.strict = false) then x.items else []
          (s.putAll j.dest (items ++ [resultRecord x items.length]) = none → exec (.retrievalDone i) s = .next s)
          ∧ ∀ s1, s.putAll j.dest (items ++ [resultRecord x items.length]) = some s1 → s.prs.closed = [] → ∃ t, exec (.retrievalDone i) s = .next t
              ∧ t.qmg = s1.qmg ∧ t.f (F.PRS_INFn_DONE_RETR i) = (s1.f (F.PRS_INFn_DONE_RETR i) + 1) % 65536
              ∧ (s.prs.vers = [] → s.prs.jobs = [] → tabGet (fun _ => none) t.prs.infs i = none)
              ∧ (x.code = 0 → t.hub.evq = s1.hub.evq)
              ∧ (x.code ≠ 0 → s1.Joins t .PRS_INFLATE_FAULT (objUnit (4 + i)) [(x.code : Int), (x.hub : Int), (x.bseq : Int)])

/-! ### The Cord archive (R434 to R459) -/

/-- R434 to R457: the archive's books and its Writes. Model's choices it rests on: log entries 85, 86. -/
def Obligations.ArchiveTakesAndWrites : Prop :=
  ∀ s : State,
    let calm : Prop := s.crd.held = [] ∧ s.crd.gaps.length < 83 ∧ s.crd.events.length < 125 ∧ s.crd.control.length < 126
    (∀ (n : Nat) (c : CtrlInfo), ∃ t, exec (.controllerInit n c) s = .next t
      ∧ (s.crd.recovered = false → t.f F.CRD_STAT_RECOVERING = 1)
      ∧ (4 ≤ n → s.Enters t .CRD_CTRL_REFUSED 0 [5])
      ∧ (n < 4 → refuseReason c ≠ 0 → t.f (F.CRD_Cn_STAT_STATE n) = 3 ∧ t.f (F.CRD_Cn_STAT_REASON n) = refuseReason c
          ∧ s.Enters t .CRD_CTRL_REFUSED (objLink (19 + n)) [(refuseReason c : Int)])
      ∧ (n < 4 → refuseReason c = 0 → t.f (F.CRD_Cn_STAT_STATE n) = 2 ∧ t.f (F.CRD_Cn_STAT_REASON n) = 0
          ∧ t.f (F.CRD_Cn_STAT_NS n) = (t.ctrl n).nsids.length ∧ (t.ctrl n).granted = c.queues ∧ (t.ctrl n).sncrc = c.sncrc
          ∧ (t.ctrl n).nsids <+: (c.namespaces.filter (·.format)).map (·.nsid) ∧ ∀ k, k ≠ n → t.ctrl k = s.ctrl k))
    ∧ (∀ r : RecIn,
      (s.crd.recovered = true ∨ s.stokerUp = false → exec (.cordRecovery r) s = .next s)
      ∧ (s.crd.recovered = false → s.stokerUp = true → calm → (r.exts.map (·.ext)).Nodup → (∀ e ∈ r.exts, e.ext < 8192 ∧ e.state < 6) →
          (∀ g ∈ r.segs, g.1 < 8192) → ∃ t, exec (.cordRecovery r) s = .next t ∧ t.crd.recovered = true ∧ t.f F.CRD_STAT_RECOVERING = 0
            ∧ t.crd.entries = r.entries ∧ t.crd.order = r.segs.map (fun g => (g.1, g.2.1))
            ∧ t.crd.epoch = s.tick.num / max 1 (s.f F.CRD_EPOCH_CFG_EPOCH)
            ∧ ∀ e ∈ r.exts, (t.ext e.ext).nsid = e.nsid
              ∧ t.extState e.ext = if e.state = 4 then 4 else if e.ctrl ∉ s.liveCtrls then 5 else if e.state = 3 then 2 else e.state))
    ∧ (calm → s.f F.CRD_CTRL_EN = 0 ∨ s.crd.recovered = false → ∃ t, exec .cordTakeItem s = .next t ∧ t.qmg = s.qmg ∧ t.crd = s.crd)
    ∧ (∀ q i, calm → s.f F.CRD_CTRL_EN = 1 → s.crd.recovered = true → s.cordFull = false → s.cordNext = some (q, i) →
        let isGap : Prop := s.f F.CRD_GAPQ_EN = 1 ∧ s.f F.CRD_GAPQ_Q = q
        let isEv : Prop := s.f F.CRD_EVQ_EN = 1 ∧ s.f F.CRD_EVQ_Q = q
        let x := unitItem q (s.consumeItem q i).1 i
        ∃ t, exec .cordTakeItem s = .next t
          ∧ (isGap → t.crd.gaps = s.crd.gaps ++ [{ x with type := 0 }] ∧ t.crd.opens = s.crd.opens)
          ∧ (¬isGap → isEv → t.crd.events = s.crd.events ++ [{ x with type := 0 }] ∧ t.crd.opens = s.crd.opens)
          ∧ (¬isGap → ¬isEv → i.words.length ≤ 122880 → ∀ o, s.roomySeg (fun _ => true) 0 = some o →
              (∀ w ∈ s.crd.writes, w.ext ≠ o.ext ∨ w.seg ≠ o.seg) → o.next + blocksWith o i.words.length ≤ 16384 →
              (∀ u, o.unit = some u → unitFits u i.words.length = true) →
              ∃ u : CUnit, (match o.unit with
                  | some v => u = { v with items := v.items ++ [x] }
                  | none => u.kind = .data ∧ u.items = [x] ∧ u.since = s.tick.num ∧ u.epoch = s.crd.epoch ∧ u.turn = s.crd.turn)
                ∧ t.crd.opens = s.crd.opens.map fun y => if y.ext = o.ext ∧ y.seg = o.seg then { y with unit := some u } else y)
          ∧ (i.words.length ≤ 122880 → q < 4096 → isGap ∨ isEv → ∀ y ∈ (t.queue q).items, y.id ≠ i.id))
    ∧ (∀ id, let find := s.crd.opens.find? fun o => match o.unit with
          | some u => u.id == id && decide (u.since + max 1 (s.f F.CRD_UNIT_CFG_UNIT_AGE) ≤ s.tick.num)
          | none => false
        (find = none → exec (.unitAgeClose id) s = .next s)
        ∧ ∀ o u, calm → find = some o → o.unit = some u → s.ctrlSpace (s.f (F.CRD_Xx_STAT_CTRL o.ext)) = true →
          let ctrl := s.f (F.CRD_Xx_STAT_CTRL o.ext)
          let nsid := (s.ext o.ext).nsid
          let lba := s.extLba o.ext + o.seg * 16384 + o.next
          ∃ t, exec (.unitAgeClose id) s = .next t
            ∧ (s.storageOk ctrl nsid lba (unitBlocks u) = true →
                t.crd.writes = s.crd.writes ++ [{ unit := u, ctrl := ctrl, ext := o.ext, seg := o.seg, abn := abnOf o.ext o.seg o.next }]
                ∧ ∃ x : Sent, t.hub.sent = x :: s.hub.sent ∧ x.kind = .nvmeWrite ∧ x.port = ctrl ∧ x.data.take 2 = [(nsid : Int), (lba : Int)])
            ∧ (s.storageOk ctrl nsid lba (unitBlocks u) = false →
                s.Enters t .FENCE_WRITE_EXTENT (objLink (19 + ctrl)) [(nsid : Int), (lba : Int), (unitBlocks u : Int)]))
    ∧ (∀ id, let find := s.crd.writes.find? fun w => w.unit.id == id
        (find = none → (∀ status, exec (.writeComplete id status) s = .next s) ∧ exec (.writeTimeout id) s = .next s)
        ∧ ∀ w, calm → find = some w → s.crd.ending = none →
          (∃ t, exec (.writeComplete id 0) s = .next t ∧ t.crd.writes = s.crd.writes.filter (fun x => x.unit.id != id)
            ∧ (t.ctrl w.ctrl).fails = 0 ∧ t.f F.QMG_POOL_FREE = min 0x40000 (s.f F.QMG_POOL_FREE + (w.unit.items.map (·.cells.length)).sum)
            ∧ (w.unit.kind = .data → t.crd.entries = s.crd.entries ++ w.unit.items.map (fun i => IdxEntry.mk w.ext w.seg w.abn i.queue i.first i.last)
                ∧ t.crd.lastIndex = w.abn + dataBlocks w.unit.items))
          ∧ ((∀ x ∈ s.extList ++ s.crd.opens.map (·.ext) ++ s.crd.order.map (·.1), s.extState x ≠ 2) → (s.ctrl w.ctrl).fails < 15 → ∀ (c : Instr) (status : Int),
              (c = .writeTimeout id ∧ status = -1) ∨ (∃ k : Nat, c = .writeComplete id k ∧ k ≠ 0 ∧ status = k) →
              ∃ t, exec c s = .next t ∧ s.Enters t .CRD_WRITE_FAIL (objLink (19 + w.ctrl)) [(w.abn : Int), status]
                ∧ t.crd.writes = s.crd.writes.filter (fun x => x.unit.id != id) ∧ (t.ctrl w.ctrl).fails = (s.ctrl w.ctrl).fails + 1
                ∧ t.crd.held.head? = some ({ w.unit with id := s.crd.nextId, failed := some (w.unit.failed.getD s.tick.clock) }, some (w.ctrl, w.ext))
                ∧ ∀ o ∈ t.crd.opens, o.ext ≠ w.ext ∨ o.seg ≠ w.seg))
    ∧ (s.tick.num < (s.crd.epoch + 1) * s.crd.epochLen ∨ s.crd.ending ≠ none → exec .epochEnd s = .next s)
    ∧ ((s.crd.epoch + 1) * s.crd.epochLen ≤ s.tick.num → s.crd.ending = none → s.f F.CRD_CTRL_EN = 0 ∨ s.crd.recovered = false →
        let n := max 1 (s.f F.CRD_EPOCH_CFG_EPOCH)
        exec .epochEnd s = .next { s with crd.epoch := s.tick.num / n, crd.epochLen := n })
    ∧ ((s.crd.epoch + 1) * s.crd.epochLen ≤ s.tick.num → s.f F.CRD_CTRL_EN = 1 → s.crd.recovered = true → s.crd.ending = none → s.stokerUp = false →
        exec .epochEnd s = .next { s with hub.stokerDeferred := true })
    ∧ ((s.crd.epoch + 1) * s.crd.epochLen ≤ s.tick.num → s.f F.CRD_CTRL_EN = 1 → s.crd.recovered = true → s.crd.ending = none → s.stokerUp = true → s.crd.held = [] → s.crd.opens = [] →
        s.crd.gaps = [] → s.crd.events = [] → s.crd.control = [] → ∃ t, exec .epochEnd s = .next t
          ∧ t.crd.epoch = s.tick.num / max 1 (s.f F.CRD_EPOCH_CFG_EPOCH)
          ∧ ((∃ w ∈ s.crd.writes, w.unit.turn ≤ s.crd.turn) → t.crd.ending = some s.crd.epoch ∧ t.crd.writes = s.crd.writes)
          ∧ (s.crd.writes = [] → s.crd.written = [] → s.crd.exts.length < 126 → (∀ e ∈ s.crd.exts, e.1 < 8192) →
              t.crd.ending = none ∧ t.crd.ckpts = s.crd.ckpts + 1
              ∧ ∀ x ∈ s.extList, (s.extState x = 1 → t.extState x = 2) ∧ (s.extState x = 2 → t.extState x = 2) ∧ (s.extState x = 3 → s.crd.reads = [] → t.extState x = 4)
                ∧ (s.extState x = 5 → t.extState x = if (s.ext x).online then 2 else 5)))
    ∧ ∃ t, exec .archiveDown s = .next t
        ∧ let long (u : CUnit) : Prop := ∃ c, u.failed = some c ∧ c + ms100 ≤ s.tick.clock
        (∀ u ∈ s.unitsOut, (long u → { u with late := true } ∈ t.unitsOut) ∧ (¬long u → u ∈ t.unitsOut))
        ∧ (s.f F.CRD_STAT_HEALTHY = 1 → (∃ u ∈ s.unitsOut, long u) → t.f F.CRD_STAT_HEALTHY = 0 ∧ s.Joins t .ARCHIVE_DOWN 0 [])

/-- R444 to R451, R459: capacity commands, pins and retrieval jobs. Model's choices it rests on: log entries 87, 88, 89. -/
def Obligations.ExtentsPinsAndJobs : Prop :=
  ∀ (s : State) (m : Master),
    let calm : Prop := s.crd.held = [] ∧ s.crd.gaps.length < 84 ∧ s.crd.events.length < 126 ∧ s.crd.control.length < 125
    let answers (c : Instr) (code : Nat) : Prop := ∃ t, exec c s = .next t ∧ t.f F.CRD_EXT_RES_CODE = code ∧ t.crd = s.crd
    let isAt (t : State) (x : Nat) (a : AddReq) : Prop := t.extState x = 1 ∧ t.f (F.CRD_Xx_STAT_CTRL x) = a.ctrl % 4 ∧ (t.ext x).nsid = a.nsid
      ∧ t.extLen x = a.len % 536870912 ∧ t.f F.CRD_EXT_RES_CODE = 0 ∧ t.f F.CRD_EXT_RES_X = x ∧ t.crd.adding = none
    (∀ format,
      let c := s.f F.CRD_EXT_NS_CTRL
      let n := s.f F.CRD_EXT_NS_NSID
      let lba := s.f64 F.CRD_EXT_LBA_LO_LBA F.CRD_EXT_LBA_HI_LBA
      let len := s.f F.CRD_EXT_LEN_LEN
      let there : Prop := c ∈ s.liveCtrls ∧ n ∈ (s.ctrl c).nsids
      let a : AddReq := { ctrl := c, nsid := n, lba := lba, len := len, format := format }
      (s.stokerUp = false → exec (.add m format) s = .next { s with crd.waiting := s.crd.waiting ++ [(some a, 0)] })
      ∧ (s.stokerUp = true → s.extBusy = true → answers (.add m format) 7)
      ∧ (s.stokerUp = true → s.extBusy = false → ¬there → answers (.add m format) 3)
      ∧ (s.stokerUp = true → s.extBusy = false → there → s.badShape c n lba len = true → answers (.add m format) 2)
      ∧ (s.stokerUp = true → s.extBusy = false → there → s.badShape c n lba len = false → s.storageOk c n lba len = false →
          answers (.add m format) 1)
      ∧ (s.stokerUp = true → s.extBusy = false → there → s.badShape c n lba len = false → s.storageOk c n lba len = true →
          ∃ t, exec (.add m format) s = .next t ∧ t.crd.adding = some a ∧ t.crd.reads = s.crd.reads ++ [(s.crd.nextId, .label)]))
    ∧ (∀ x : Fin 8192, let st := s.extState x
      (s.stokerUp = false → exec (.remove m x) s = .next { s with crd.waiting := s.crd.waiting ++ [(none, x.val)] })
      ∧ (s.stokerUp = true → s.extBusy = true → st ≠ 1 → ∃ t, exec (.remove m x) s = .next t ∧ t.f F.CRD_EXT_RES_CODE = 7 ∧ t.extState x = st ∧ t.crd = s.crd)
      ∧ (s.stokerUp = true → s.extBusy = false → st ≠ 1 → st ≠ 2 → ∃ t, exec (.remove m x) s = .next t ∧ t.f F.CRD_EXT_RES_CODE = 5 ∧ t.extState x = st ∧ t.crd = s.crd)
      ∧ (s.stokerUp = true → calm → (s.extBusy = false ∧ st = 2) ∨ st = 1 → (∀ o ∈ s.crd.opens, o.ext ≠ x.val) → ∃ t, exec (.remove m x) s = .next t
          ∧ t.f F.CRD_EXT_RES_CODE = 0 ∧ t.f F.CRD_EXT_RES_X = x ∧ t.extState x = 3))
    ∧ (∀ n : Fin 4, let st := s.f (F.CRD_Cn_STAT_STATE n)
      (st ≠ 2 → exec (.controllerFailed n) s = .next s)
      ∧ (st = 2 → (∀ e ∈ s.crd.exts, e.1 < 8192) → ∃ t, exec (.controllerFailed n) s = .next t ∧ t.f (F.CRD_Cn_STAT_STATE n) = 4
          ∧ s.Enters t .CRD_CTRL_FAILED (objLink (19 + n)) []
          ∧ ∀ x ∈ s.extList, s.f (F.CRD_Xx_STAT_CTRL x) = n → s.extState x = 2 ∨ s.extState x = 3 → t.extState x = 5)
      ∧ ∀ c : CtrlInfo,
        (st ≠ 4 ∨ s.stokerUp = false ∨ refuseReason c ≠ 0 → exec (.controllerRetry n c) s = .next s)
        ∧ (st = 4 → s.stokerUp = true → refuseReason c = 0 → calm → ∃ t, exec (.controllerRetry n c) s = .next t ∧ t.f (F.CRD_Cn_STAT_STATE n) = 2
            ∧ ∀ x ∈ s.extList, s.extState x = 5 → s.f (F.CRD_Xx_STAT_CTRL x) = n → x ∈ c.intact → (t.ext x).online = true))
    ∧ (∀ p : Fin 256,
      (s.f (F.CRD_PINp_Q_V p) = 0 → exec (.release m p) s = .next s)
      ∧ (s.f (F.CRD_PINp_Q_V p) = 1 → calm → ∃ t, exec (.release m p) s = .next t ∧ t.f (F.CRD_PINp_Q_V p) = 0
          ∧ t.crd.control = s.crd.control ++ [CtlEntry.mk 7 (s.f (F.CRD_PINp_Q_Q p)) (s.f64 (F.CRD_PINp_FIRST_LO_TICK p) (F.CRD_PINp_FIRST_HI_TICK p))
              (s.f64 (F.CRD_PINp_LAST_LO_TICK p) (F.CRD_PINp_LAST_HI_TICK p))]))
    ∧ (∀ (kind : Fin 4) (strict : Bool) (q : Fin 4096),
      let k := masterCode m
      let loc := s.f64 (privF k F.CRD_JOB_LOC_LO_LOC) (privF k F.CRD_JOB_LOC_HI_LOC)
      let len := s.f (privF k F.CRD_JOB_LEN_LEN)
      let r := s.jobCheck kind loc len q
      let j : Job := { num := s.crd.jobNum, kind := kind, strict := strict, queue := q, loc := loc, len := len, tries := 0 }
      ∃ t, exec (.jobSubmit m kind strict q) s = .next t ∧ t.f (privF k F.CRD_JOB_RES_CODE) = Config.jobCode r % 256
        ∧ (r ≠ 0 → t.crd = s.crd ∧ t.hub = s.hub ∧ ∀ a, a ≠ (privF k F.CRD_JOB_RES_CODE).addr → t.rd a = s.rd a)
        ∧ (r = 0 → s.crd.jobs = [] → s.crd.jobNum < 16777216 → t.f (privF k F.CRD_JOB_RES_JOB) = s.crd.jobNum
            ∧ t.crd.jobNum = (s.crd.jobNum + 1) % 16777216 ∧ (t.crd.jobs = [j] ∨ t.crd.reads = s.crd.reads ++ [(s.crd.nextId, .job j)])))
    ∧ ∀ (id : Nat) (r : ReadIn), let find := s.crd.reads.find? fun x => x.1 == id
      let left := s.crd.reads.filter fun x => x.1 != id
      let fails (what : ReadFor) : Nat := (s.ctrl (s.readCtrl what)).fails
      (find = none → exec (.readComplete id r) s = .next s)
      ∧ (∀ a, calm → s.crd.jobs = [] → find = some (id, .label) → s.crd.adding = some a →
          ∃ t, exec (.readComplete id r) s = .next t ∧ t.crd.reads = left ∧ t.crd.adding = none
            ∧ (r = .fail → t.f F.CRD_EXT_RES_CODE = 3)
            ∧ (r = .foreign → a.format = false → t.f F.CRD_EXT_RES_CODE = 6)
            ∧ (r = .blank ∨ (r = .foreign ∧ a.format = true) → s.freeExt = none → t.f F.CRD_EXT_RES_CODE = 4)
            ∧ (∀ x, r = .blank ∨ (r = .foreign ∧ a.format = true) → s.freeExt = some x → isAt t x a)
            ∧ ∀ x, r = .own x → x < 8192 → s.extState x = 4 ∨ s.extState x = 5 → isAt t x a)
      ∧ (∀ w, calm → s.crd.jobs = [] → s.crd.ending = none → find = some (id, .back w) → r ≠ .fail ∨ fails (.back w) < 15 → ∃ t, exec (.readComplete id r) s = .next t
          ∧ t.crd.reads = left ∧ t.crd.written = s.crd.written.filter (fun y => y.id != w.id)
          ∧ t.crd.entries = (if r = .index true then s.crd.entries else s.crd.entries.filter fun e => e.abn != w.abn)
          ∧ t.crd.control = (if r = .index true then s.crd.control else s.crd.control ++ [{ op := 5, arg0 := w.abn, arg1 := 0, arg2 := 0 }]))
      ∧ ∀ j, calm → s.crd.jobs = [] → find = some (id, .job j) → r = .fail → j.tries < 2 → fails (.job j) < 15 → ∃ t, exec (.readComplete id r) s = .next t
          ∧ (t.ctrl (s.readCtrl (.job j))).fails = fails (.job j) + 1
          ∧ ∃ k : Job, k = { j with tries := j.tries + 1 } ∧ ((t.crd.jobs = [k] ∧ t.crd.reads = left) ∨ t.crd.reads = left ++ [(s.crd.nextId, .job k)])

/-! ### Uplinks and the Hub Control Protocol (R460 to R479) -/

/-- R460 to R479: the uplinks' and the Hub Control Protocol's commands. Model's choices it rests on: log entries 91, 92, 93, 94, 95, 96. -/
def Obligations.UplinksAndControlProtocolAct : Prop :=
  ∀ (s : State) (m : Master),
    let en : Prop := s.f F.UPL_CTRL_EN = 1
    let waits (t : State) : List TxItem := tabGet (fun _ => []) t.hub.txq 16
    let healthy (t : State) : Prop := t.f F.UPL_HEALTH_HEALTHY = 1 ↔
      t.f F.UPL_CTRL_EN = 1 ∧ (t.uplinkOn 0 = true ∨ t.uplinkOn 1 = true) ∧ t.upl.stalled = []
    let taken (t : State) (q : Nat) (i : Item) : Prop := (∀ y ∈ (t.queue q).items, y.id ≠ i.id) ∧ t.iseqOf q = (s.iseqOf q + 1) % 4294967296
    -- streams
    (¬en → exec .streamSend s = .next s)
    ∧ (en → waits (s.txPump 16) ≠ [] → ∃ t, exec .streamSend s = .next t ∧ t.qmg = s.qmg ∧ t.upl.iseq = s.upl.iseq)
    ∧ (en → waits s = [] → s.nextStream = none → ∃ t, exec .streamSend s = .next t ∧ t.qmg = s.qmg ∧ t.upl.iseq = s.upl.iseq)
    ∧ (∀ x q i, en → waits s = [] → s.nextStream = some (x, q) → s.streamKind q = 1 → s.readyItem q = some i →
        let n := max 1 (s.frag / 4)
        ∃ t, exec .streamSend s = .next t ∧ taken t q i
          ∧ t.upl.prpSeq = (s.upl.prpSeq + max 1 ((i.words.length + n - 1) / n)) % 65536)
    -- timed launch
    ∧ (∀ lateOk cancel : Bool,
      let k := masterCode m
      let q := s.f (privF k F.UPL_LCH_Q_Q)
      let time := s.f64 (privF k F.UPL_LCH_SEC_LO_SEC) (privF k F.UPL_LCH_SEC_HI_SEC) * secUnits + s.f (privF k F.UPL_LCH_NS_NS) * 65536
      let late := decide (time < s.tick.clock + launchLead)
      let timed : Prop := ∃ z, s.streamOf q = some z ∧ s.f (F.UPL_STREAM_LAUNCH z) = 1
      let slot := (List.range 64).find? fun n => (s.lslot n).isNone
      let code : Prop → Nat → Prop := fun p c => p → ∃ t, exec (.commit m lateOk cancel) s = .next t ∧ t.f (privF k F.UPL_LCH_RESULT_CODE) = c ∧ t.upl = s.upl
      code (cancel = true ∨ ¬timed) 3
      ∧ code (cancel = false ∧ timed ∧ s.servo ≤ 1) 6
      ∧ code (cancel = false ∧ timed ∧ 1 < s.servo ∧ slot = none) 2
      ∧ code (cancel = false ∧ timed ∧ 1 < s.servo ∧ slot ≠ none ∧ late = true ∧ lateOk = false) 1
      ∧ ∀ n, cancel = false → timed → 1 < s.servo → slot = some n → (late = true → lateOk = true) →
          ∃ t, exec (.commit m lateOk cancel) s = .next t ∧ t.f (privF k F.UPL_LCH_RESULT_CODE) = 0 ∧ t.f (privF k F.UPL_LCH_RESULT_SLOT) = n
            ∧ t.lslot n = some { queue := q, time := time, lateOk := lateOk, late := late, master := k } ∧ ∀ j, j ≠ n → t.lslot j = s.lslot j)
    ∧ (∀ n : Fin 64, let k := masterCode m
      let code (t : State) : Nat := t.f (privF k F.UPL_LCH_RESULT_CODE)
      (s.lslot n = none → (∃ t, exec (.launchCancel m n) s = .next t ∧ code t = 5 ∧ t.upl = s.upl) ∧ ∀ e0 e1, exec (.launchSlot n e0 e1) s = .next s)
      ∧ ∀ x, s.lslot n = some x →
        (x.time < s.tick.clock + launchLead → ∃ t, exec (.launchCancel m n) s = .next t ∧ code t = 1 ∧ t.upl = s.upl)
        ∧ (s.tick.clock + launchLead ≤ x.time → ∃ t, exec (.launchCancel m n) s = .next t ∧ code t = 4 ∧ t.lslot n = none ∧ ∀ j, j ≠ n.val → t.lslot j = s.lslot j)
        ∧ ∀ e0 e1,
          let turn : Prop := s.slotFirst n x = true ∧ (x.late = true ∨ x.time ≤ s.tick.clock)
          (¬turn → exec (.launchSlot n e0 e1) s = .next s)
          ∧ (turn → s.streamOf x.queue = none ∨ s.readyItem x.queue = none →
              (x.late = true → exec (.launchSlot n e0 e1) s = .next s)
              ∧ (x.late = false → ∃ t, exec (.launchSlot n e0 e1) s = .next t ∧ t.lslot n = none ∧ s.Enters t .LAUNCH_EMPTY (objQueue x.queue) [(n.val : Int)]))
          ∧ (∀ i z, turn → s.streamOf x.queue = some z → s.readyItem x.queue = some i →
              ∃ t, exec (.launchSlot n e0 e1) s = .next t ∧ t.lslot n = none
                ∧ (s.streamKind x.queue = 1 → t.iseqOf x.queue = (s.iseqOf x.queue + 1) % 4294967296)))
    -- links and received frames
    ∧ (∀ (u : Fin 2) (link fit : Bool), ∃ t, exec (.uplinkLinkChange u link fit) s = .next t ∧ t.f (F.UPL_Un_STAT_LINK u) = b2n link
        ∧ t.f (F.UPL_Un_STAT_MOD u) = b2n fit ∧ healthy t ∧ (link = true → t.inReset (8 + u) = false)
        ∧ (link = false → s.f (F.UPL_Un_STAT_LINK u) = 1 → t.inReset (8 + u) = true))
    ∧ (∀ q : Fin 4096, (s.stalls q = false → exec (.uplinkStall q) s = .next s)
        ∧ (s.stalls q = true → ∃ t, exec (.uplinkStall q) s = .next t ∧ q.val ∈ t.upl.stalled ∧ t.f F.UPL_HEALTH_HEALTHY = 0
            ∧ (s.f F.UPL_HEALTH_HEALTHY = 1 → s.Joins t .UPLINK_DOWN 0 [])))
    ∧ (¬en → exec .prpSupervision s = .next s)
    ∧ (en → ∃ (t : State) (i : TxItem), exec .prpSupervision s = .next t ∧ t.upl.prpSeq = (s.upl.prpSeq + 1) % 65536 ∧ i.bytes = 64
        ∧ i.outs.map (fun o => (o.kind, o.port)) = [(.prpSupervision, 0), (.prpSupervision, 1)]
        ∧ (i ∈ waits t ∨ ∀ o ∈ i.outs, s.uplinkOn o.port = true → o ∈ t.hub.sent))
    ∧ (∀ (u : Fin 2) (src : Nat) (tr : Option Trailer) (kind : RxKind),
      let dup : Prop := ∃ z x e, tr = some z ∧ z.sizeOk = true ∧ (z.lan = 10 ∨ z.lan = 11) ∧ kind ≠ .ptp ∧ s.upl.nodes.find? (fun n => n.mac == src) = some x ∧ e ∈ x.seen
        ∧ s.tick.clock ≤ e.2.2 + prpWindow ∧ e.1 = z.seq ∧ e.2.1 ≠ u.val
      (¬en ∨ s.uplinkOn u = false → exec (.frameReceive u src tr kind) s = .next s)
      ∧ (en → s.uplinkOn u = true → dup → ∃ t, exec (.frameReceive u src tr kind) s = .next t ∧ t.upl.rx = s.upl.rx
          ∧ t.f F.UPL_PRP_CNT_DUP = min (s.f F.UPL_PRP_CNT_DUP + 1) (fieldMax F.UPL_PRP_CNT_DUP))
      ∧ (en → s.uplinkOn u = true → ¬dup → ∃ t, exec (.frameReceive u src tr kind) s = .next t
          ∧ (kind = .ptp ∨ kind = .hcp ∨ kind = .kindling ∨ kind = .stoker → t.upl.rx = kind :: s.upl.rx)
          ∧ (kind = .other → t.upl.rx = s.upl.rx)
          ∧ (∀ id len, kind = .hcpFrag id 0 len false → len ≤ 8256 → (∀ x ∈ s.upl.reasm, x.id ≠ id) → t.upl.rx = .hcp :: s.upl.rx)))
    ∧ (∀ id, ((∀ x ∈ s.upl.reasm, x.id ≠ id) → exec (.hcpReassembly id) s = .next s)
        ∧ ((∃ x ∈ s.upl.reasm, x.id = id) → ∃ t, exec (.hcpReassembly id) s = .next t ∧ (∀ x ∈ t.upl.reasm, x.id ≠ id)
            ∧ (s.upl.reasmAt ≠ some (s.tick.clock / secUnits) → s.Joins t .HCP_REASSEMBLY 0 [])))
    -- the Hub Control Protocol
    ∧ (∀ (session mseq : Nat) (tagOk fits : Bool) (ty : HcpType),
      (s.stokerUp = false ∨ ¬en → exec (.hcpMessage session mseq tagOk fits ty) s = .next s)
      ∧ (s.stokerUp = true → en → (session = 0 ∧ ty = .umber ∧ tagOk = false) ∨ (¬(session = 0 ∧ ty = .umber) ∧ (s.sess session = none ∨ tagOk = false)) →
          ∃ t, exec (.hcpMessage session mseq tagOk fits ty) s = .next t ∧ t.upl.runs = s.upl.runs ∧ t.umb.inq = s.umb.inq
            ∧ t.f F.UPL_HCP_CNT_BAD_TAG = min (s.f F.UPL_HCP_CNT_BAD_TAG + 1) (fieldMax F.UPL_HCP_CNT_BAD_TAG)
            ∧ (tabGet (fun _ => none) s.upl.authFail session ≠ some (s.tick.clock / secUnits) → s.Joins t .HCP_AUTH_FAIL 0 [(session : Int)]))
      ∧ (s.stokerUp = true → en → session = 0 → ty = .umber → tagOk = true → fits = true → s.umb.down = false →
          ∃ t, exec (.hcpMessage session mseq tagOk fits ty) s = .next t ∧ t.umb.inq = s.umb.inq ++ [{ via := none, session := 0, mseq := mseq }])
      ∧ ∀ x, s.stokerUp = true → en → session ≠ 0 → s.sess session = some x → tagOk = true → fits = true →
        (x.high = none ∨ (∃ h, x.high = some h ∧ h < mseq) →
            (∀ n, ty = .request (n + 1) → (∀ y ∈ s.upl.runs, 0 < y.left) → ∃ t, exec (.hcpMessage session mseq tagOk fits ty) s = .next t
                ∧ t.upl.runs = s.upl.runs ++ [{ session := session, mseq := mseq, nops := n + 1, left := n + 1, stopped := false, body := [] }])
            ∧ (ty = .umber → s.umb.down = false → ∃ t, exec (.hcpMessage session mseq tagOk fits ty) s = .next t ∧ t.umb.inq = s.umb.inq ++ [{ via := none, session := session, mseq := mseq }])
            ∧ (ty = .umber → s.umb.down = true → ∃ t, exec (.hcpMessage session mseq tagOk fits ty) s = .next t ∧ t.umb.inq = s.umb.inq))
        ∧ (x.high = some mseq → ∃ t, exec (.hcpMessage session mseq tagOk fits ty) s = .next t ∧ t.upl.runs = s.upl.runs ∧ t.umb.inq = s.umb.inq
            ∧ (x.kept.find? (fun k => k.1 == mseq) = none →
                t.f F.UPL_HCP_CNT_REPLAY = min (s.f F.UPL_HCP_CNT_REPLAY + 1) (fieldMax F.UPL_HCP_CNT_REPLAY))
            ∧ (x.kept.find? (fun k => k.1 == mseq) ≠ none → t.upl.prpSeq = (s.upl.prpSeq + 1) % 65536)))
    ∧ (∀ (addr tick : Nat) (n : Fin 256) (data : List Word) (d mask : Word) (lateOk stop : Bool),
      let ops : List (Instr × Nat × List Nat) :=
        [(.read addr n stop, 1, [0]), (.write addr data stop, 2, writePerms addr 4 data.length), (.fifoWrite addr data stop, 3, writePerms addr 0 data.length),
         (.fifoRead addr n stop, 4, [0]), (.sched tick addr d mask lateOk stop, 5, [1])]
      let word (op result count : Nat) : Word := BitVec.ofNat 32 (op + 256 * result + 65536 * count)
      (∀ c ∈ ops, s.upl.runs = [] ∨ s.stokerUp = false → exec c.1 s = .next s)
      ∧ ∀ x r, s.upl.runs = x :: r → s.stokerUp = true →
        let goes (t : State) (op result count : Nat) (data : List Word) : Prop :=
          t.upl.runs = { x with left := x.left - 1, stopped := x.stopped || (result != 0 && stop), body := x.body ++ word op result count :: data } :: r
        let may (perms : List Nat) : Prop := ∀ b ∈ perms, s.sessCan x.session b = true
        (∀ c ∈ ops, 1 < x.left →
          (x.stopped = true → ∃ t, exec c.1 s = .next t ∧ goes t c.2.1 3 0 [])
          ∧ (x.stopped = false → ¬may c.2.2 → ∃ t, exec c.1 s = .next t ∧ goes t c.2.1 1 0 [])
          ∧ (x.stopped = false → may c.2.2 → addr % 4 ≠ 0 → ∃ t, exec c.1 s = .next t ∧ goes t c.2.1 2 0 []))
        ∧ (∀ c ∈ ops, x.left = 1 → x.stopped = true → ∃ t, exec c.1 s = .next t ∧ t.upl.runs = r
            ∧ ∀ y, s.sess x.session = some y → ∃ z, t.sess x.session = some z
              ∧ z.kept.head? = some (x.mseq, responseWords x.session x.mseq x.nops 0 (x.body ++ [word c.2.1 3 0])))
        ∧ (1 < x.left → x.stopped = false → addr % 4 = 0 →
          (may [0] → let a := s.hcpReads 4 (n.val + 1) addr []
            ∃ t, exec (.read addr n stop) s = .next t ∧ (a.2.2.upl.runs = x :: r → goes t 1 a.1 a.2.1.length a.2.1 ∧ t.mem = a.2.2.mem ∧ t.qmg = a.2.2.qmg))
          ∧ (may (writePerms addr 4 data.length) → let a := s.hcpWrites 4 data addr 0
            ∃ t, exec (.write addr data stop) s = .next t ∧ (a.2.2.upl.runs = x :: r → goes t 2 a.1 a.2.1 [] ∧ t.mem = a.2.2.mem))
          ∧ (may (writePerms addr 0 data.length) → let a := s.hcpWrites 0 data addr 0
            ∃ t, exec (.fifoWrite addr data stop) s = .next t ∧ (a.2.2.upl.runs = x :: r → goes t 3 a.1 a.2.1 [] ∧ t.mem = a.2.2.mem))
          ∧ (may [0] → let a := s.fifoReads addr (n.val + 1) []
            ∃ t, exec (.fifoRead addr n stop) s = .next t ∧ (a.2.2.upl.runs = x :: r → goes t 4 a.1 a.2.1.length a.2.1 ∧ t.qmg = a.2.2.qmg))
          ∧ (may [0] → ∀ w, winData addr = some w → s.winWords w = [] → ∃ t, exec (.fifoRead addr n stop) s = .next t ∧ goes t 4 0 0 [] ∧ t.qmg = s.qmg)
          ∧ (may [1] → ∃ t, exec (.sched tick addr d mask lateOk stop) s = .next t
            ∧ let code := t.f (privF 1 F.KLN_SCHED_RESULT_CODE)
              goes t 5 0 0 [BitVec.ofNat 32 code, if code = 0 then t.rd (priv 1 Reg.KLN_SCHED_SEQ) else 0#32])))
    ∧ (let sum := s.intSum
      let due : Prop := (sum.toNat &&& (0xFFFFFFFF - s.hub.notified)) ≠ 0 ∧ s.upl.noticeTick ≠ some s.tick.num ∧ s.stokerUp = true;
      (¬due → exec .notice s = .next s)
      ∧ (due → s.upl.noticeSeq < 18446744073709551616 → ∃ t, exec .notice s = .next t ∧ t.hub.notified = sum.toNat
          ∧ t.upl.noticeTick = some s.tick.num
          ∧ t.upl.noticeSeq = (s.upl.noticeSeq + (s.umb.sessions.filter (·.can 3)).length) % 18446744073709551616))

/-! ### The SPI ports, sensors and the event log (R480 to R500) -/

/-- R480 to R500: the SPI ports, the sensors and the log. Model's choices it rests on: log entries 98, 99, 103, 104. -/
def Obligations.SpiPortsSensorsAndLogAct : Prop :=
  ∀ s : State,
    let sent (t : State) (l : List Nat) : Prop := t.hub.sent.head? = some { kind := .spisBytes, port := 0, data := l.map fun (n : Nat) => (n : Int), bytes := [], coded := [] }
    let native : Prop := s.spi.compat = false ∧ s.spi.waits = []
    let quiet : State := { s with spi.copy := none }
    let ptr := s.spi.wptr
    -- SPI slave: reads
    (∀ a : Fin 128, a.val < 8 ∨ 11 < a.val → let u := s.spisDrain.spisFall
      ∃ t, exec (.spisRead a 1 []) s = .next t ∧ t.mem = u.mem ∧ sent t ((if u.spi.compat then [] else [s.spisStatus]) ++ [u.spisReg a]))
    ∧ (native → s.spi.kept = [] → s.spi.late = none →
        let u := ({ quiet with spi.upos := 0xFF }).busRead 2 ptr
        let b (i : Nat) : Nat := u.1.toNat / 256 ^ i % 256
        ∃ t, exec (.spisRead 8 4 []) s = .next t ∧ t.mem = u.2.mem ∧ t.spi.last = u.1 ∧ t.spi.rdy = true
          ∧ t.spi.wptr = (if u.2.spi.winc then (u.2.spi.wptr + 4) % 4294967296 else u.2.spi.wptr) ∧ sent t [s.spisStatus, b 0, b 1, b 2, b 3])
    ∧ (native → s.spi.kept = [] → s.spi.late = none →
        let b (i : Nat) : Nat := s.spi.last.toNat / 256 ^ i % 256
        ∃ t, exec (.spisRead 8 4 [true]) s = .next t ∧ t.mem = s.mem ∧ t.spi.last = s.spi.last ∧ t.spi.rdy = false ∧ t.spi.underrun = true
          ∧ t.spi.upos = 0 ∧ t.spi.wptr = ptr ∧ t.spi.late = some ptr ∧ sent t [s.spisStatus, b 0, b 1, b 2, b 3])
    ∧ (s.spi.waits = [] →
        (s.spi.late = none → exec .spisFetchDone s = .next s)
        ∧ ∀ a, s.spi.late = some a → let u := s.busRead 2 a
          ∃ t, exec .spisFetchDone s = .next t ∧ t.mem = u.2.mem ∧ t.spi.late = none ∧ t.spi.kept = u.2.spi.kept ++ [(a, u.1)])
    -- SPI slave: writes
    ∧ (native → ∀ b : BitVec 8,
        let put (a : Fin 128) (f : SpiSt → SpiSt) : Prop := ∃ t, exec (.spisWrite a [b] false) s = .next t ∧ t.spi = f quiet.spi ∧ t.mem = s.mem
          ∧ sent t [s.spisStatus]
        put 0 (fun x => { x with underrun := x.underrun && !b.getLsbD 6, overrun := x.overrun && !b.getLsbD 5, part := x.part && !b.getLsbD 4 })
        ∧ put 1 (fun x => { x with compat := b.getLsbD 7, winc := b.getLsbD 6 })
        ∧ put 0x11 (fun x => { x with scratch := b.toNat })
        ∧ (∀ a : Fin 128, 8 ≤ a.val → a.val < 11 → put a fun x => { x with part := true })
        ∧ ∀ a : Fin 128, a.val ∉ [0, 1, 4, 5, 6, 7, 8, 9, 10, 11, 0x11] → put a id)
    ∧ (∀ b0 b1 b2 b3 : BitVec 8,
        let n := b0.toNat + 256 * b1.toNat + 65536 * b2.toNat + 16777216 * b3.toNat
        (native → ptr < 4294967296 → ∃ t, exec (.spisWrite 4 [b0, b1, b2, b3] false) s = .next t ∧ t.spi = { quiet.spi with wptr := n / 4 * 4 } ∧ t.mem = s.mem)
        ∧ (native → let u := quiet.hostWrite 2 ptr (BitVec.ofNat 32 n)
            ∃ t, exec (.spisWrite 8 [b0, b1, b2, b3] false) s = .next t ∧ t.mem = u.mem
              ∧ t.spi.wptr = if u.spi.winc then (u.spi.wptr + 4) % 4294967296 else u.spi.wptr)
        ∧ (s.spi.compat = false → ∃ t, exec (.spisWrite 8 [b0, b1, b2, b3] true) s = .next t ∧ t.mem = s.mem
            ∧ (s.spi.waits.length < 16 → t.spi.waits = s.spi.waits ++ [(ptr, BitVec.ofNat 32 n)]
                ∧ t.spi.wptr = if s.spi.winc then (ptr + 4) % 4294967296 else ptr)
            ∧ (16 ≤ s.spi.waits.length → t.spi.waits = s.spi.waits ∧ t.spi.overrun = true ∧ t.spi.wptr = ptr)))
    -- SPI masters
    ∧ (∀ m : Fin 2, let run := tabGet (fun _ => none) s.spi.run m
      let first := spimFirst ((tabGet (fun _ => []) s.spi.queue m).filter fun x => x.tick.isSome)
      (∀ cyc, (run ≠ none ∨ first = none → exec (.spimTransaction m cyc) s = .next s)
        ∧ ∀ x, run = none → first = some x → let since := (s.tick.num - x.tick.getD 0) * s.cycles + cyc
          let rest := tabGet (fun _ => (0, 0)) s.spi.rest m
          let free : Prop := rest.2 ≤ (s.tick.num - rest.1) * s.cycles + cyc
          (since < x.offset ∨ ¬free → exec (.spimTransaction m cyc) s = .next s)
          ∧ (x.offset ≤ since → free → ∃ t, exec (.spimTransaction m cyc) s = .next t
              ∧ tabGet (fun _ => none) t.spi.run m = some { tx := x, cyc := cyc, tick := s.tick.num, late := decide (x.offset < since) }
              ∧ tabGet (fun _ => []) t.spi.queue m = (tabGet (fun _ => []) s.spi.queue m).erase x
              ∧ ∃ y, t.hub.sent = y :: s.hub.sent ∧ y.kind = .spimBytes ∧ y.port = m.val))
      ∧ ∀ rx, (run = none → exec (.spimTransactionEnd m rx) s = .next s)
        ∧ ∀ r, run = some r → r.tx.kd < 65528 → ∃ t, exec (.spimTransactionEnd m rx) s = .next t ∧ tabGet (fun _ => none) t.spi.run m = none
            ∧ t.f (F.SPIM_m_STAT_DONE m) = (s.f (F.SPIM_m_STAT_DONE m) + 1) % 65536
            ∧ t.rd (tramAddr (r.tx.kd + 4)) = BitVec.ofNat 32 (2 ^ 31 + b2n r.late * 2 ^ 30 + r.cyc % 2 ^ 20)
            ∧ t.rd (tramAddr (r.tx.kd + 5)) = BitVec.ofNat 32 r.tick)
    -- sensors
    ∧ (∀ (k : Fin 38) (v : Int) (ack : Bool),
        let x := (tabGet (fun _ => none) s.umb.sens k).getD { out := 0, inn := 0, bad := false }
        let judged (t : State) (n lo hi : Int) : Prop :=
          (lo ≤ n → n ≤ hi → tabGet (fun _ => none) t.umb.sens k
              = some { out := 0, inn := min 100 (x.inn + 1), bad := x.bad && decide (x.inn + 1 < 100) })
          ∧ (lo ≤ n → n ≤ hi → x.bad = true → 100 ≤ x.inn + 1 → s.Logs t .SENSOR_OK (objUnit k) [])
          ∧ (n < lo ∨ hi < n → tabGet (fun _ => none) t.umb.sens k = some { out := min 3 (x.out + 1), inn := 0, bad := x.bad || decide (3 ≤ x.out + 1) })
          ∧ (n < lo ∨ hi < n → x.out = 2 → x.bad = false → s.Logs t .SENSOR_LIMIT (objUnit k) [n, if n < lo then lo else hi])
        let e := k.val - 22
        (k.val < 22 → ∃ t, exec (.sensorSample k v ack) s = .next t ∧ t.f (F.UMB_SENSs_VALUE k) = bitsOf 16 v
            ∧ judged t (signedOf 16 (bitsOf 16 v)) (s.fs (F.UMB_SENSs_LIM_LO k)) (s.fs (F.UMB_SENSs_LIM_HI k)))
        ∧ (22 ≤ k.val → s.f (F.UMB_I2Ce_CFG_EN e) = 0 → exec (.sensorSample k v ack) s = .next s)
        ∧ (22 ≤ k.val → s.f (F.UMB_I2Ce_CFG_EN e) = 1 → ∃ t, exec (.sensorSample k v false) s = .next t ∧ t.f (F.UMB_I2Ce_VAL_VALID e) = 0
            ∧ e ∈ t.umb.nack ∧ (e ∉ s.umb.nack → s.Logs t .I2C_NACK (objUnit k) []) ∧ (e ∈ s.umb.nack → t.umb.logBuf = s.umb.logBuf))
        ∧ (22 ≤ k.val → s.f (F.UMB_I2Ce_CFG_EN e) = 1 →
            let n := if s.f (F.UMB_I2Ce_CFG_LEN2 e) = 1 then 16 else 8
            let r : Int := if s.f (F.UMB_I2Ce_CFG_SIGNED e) = 1 then signedOf n (bitsOf n v) else (bitsOf n v : Int)
            ∃ t, exec (.sensorSample k v true) s = .next t ∧ t.f (F.UMB_I2Ce_VAL_VALID e) = 1 ∧ t.f (F.UMB_I2Ce_VAL_VALUE e) = bitsOf 16 r
              ∧ e ∉ t.umb.nack ∧ judged t (signedOf 16 (bitsOf 16 r)) (s.fs (F.UMB_I2Ce_LIM_LO e)) (s.fs (F.UMB_I2Ce_LIM_HI e))))
    -- the event log
    ∧ (let recs := pageFill s.umb.logBuf 7
      let may : Prop := s.umb.writing = none ∧ recs ≠ [] ∧ s.umb.down = false ∧ s.f F.UMB_STAT_LOG_READY = 1;
      (¬may → exec .logPageStart s = .next s)
      ∧ (may → exec .logPageStart s = .next { s with
          umb.writing := some { pos := s.umb.nextPos, seq := s.umb.nextSeq, recs := recs }, umb.logBuf := s.umb.logBuf.drop recs.length,
          umb.nextPos := (s.umb.nextPos + 1) % 245760, umb.nextSeq := s.umb.nextSeq + 1 }))
    ∧ (s.umb.writing = none → exec .logPageCommit s = .next s)
    ∧ (∀ p, s.umb.writing = some p → ∃ t, exec .logPageCommit s = .next t ∧ t.umb.writing = none ∧ t.umb.pages.getLast? = some p
        ∧ t.f64 F.UMB_LOG_SEQ_LO_SEQ F.UMB_LOG_SEQ_HI_SEQ = p.seq % 18446744073709551616
        ∧ (p.pos % 16 ≠ 0 → t.umb.pages = s.umb.pages ++ [p])
        ∧ (p.pos % 16 = 0 → t.umb.pages = s.umb.pages.filter (fun q => q.pos / 16 != (p.pos / 16 + 8) % 15360) ++ [p]))
    ∧ ∀ found : PageFound,
      (s.f F.UMB_STAT_LOG_READY = 1 → exec (.logRecovery found) s = .next s)
      ∧ (s.f F.UMB_STAT_LOG_READY = 0 → ∃ t, exec (.logRecovery found) s = .next t ∧ t.f F.UMB_STAT_LOG_READY = 1 ∧ t.umb.broken = none
          ∧ s.Logs t .LOG_RECOVERED 0 [(b2n (found == .completed && s.umb.broken.isSome) : Nat), (b2n (found == .torn) : Nat)]
          ∧ ∀ p, found = .completed → s.umb.broken = some p → p.pos < 245760 → p ∈ t.umb.pages ∧ t.umb.nextSeq = p.seq + 1
              ∧ t.umb.nextPos = (p.pos / 16 + 1) * 16 % 245760)

/-! ### Umber's mailbox, sessions, keys and updates (R502 to R519) -/

/-- R502 to R519: Umber's operations. Model's choices it rests on: log entries 100, 101, 102, 105. -/
def Obligations.UmberOperationsAct : Prop :=
  ∀ (s : State) (m : Master),
    let mc := masterCode m
    let free (t : State) : Prop := t.rd Reg.UMB_MBOX_STAT = 0#32
    let busy : Prop := s.f F.UMB_MBOX_STAT_BUSY = 1
    -- the mailbox
    (∀ len : Fin 16384, let n := len.val / 4
      let session := (s.reqWord 2).toNat
      let mseq := (s.reqWord 3).toNat + (s.reqWord 4).toNat * 4294967296
      let open' : Prop := s.umb.down = false ∧ (¬busy ∨ (s.f F.UMB_MBOX_STAT_OWNER = mc ∧ s.f F.UMB_MBOX_STAT_DONE = 1))
      (s.umb.down = true → exec (.submit m len) s = .next s)
      ∧ (s.umb.down = false → busy → s.f F.UMB_MBOX_STAT_OWNER ≠ mc → ∃ t, exec (.submit m len) s = .next t ∧ s.RegsBut t []
          ∧ t.umb.inq = s.umb.inq ∧ s.Logs t .UMB_MBOX_BUSY (objMaster mc) [])
      ∧ (s.umb.down = false → busy → s.f F.UMB_MBOX_STAT_OWNER = mc → s.f F.UMB_MBOX_STAT_DONE = 0 → exec (.submit m len) s = .next s)
      ∧ (open' → session ≠ 0 → s.lc ≠ 4 → s.sess session = none → ∃ t, exec (.submit m len) s = .next t ∧ free t ∧ t.umb.inq = s.umb.inq
          ∧ t.f F.UPL_HCP_CNT_BAD_TAG = min (s.f F.UPL_HCP_CNT_BAD_TAG + 1) (fieldMax F.UPL_HCP_CNT_BAD_TAG))
      ∧ ∀ x, open' → session ≠ 0 → s.lc ≠ 4 → s.sess session = some x → x.high = none ∨ (∃ h, x.high = some h ∧ h < mseq) →
          16 ≤ n → s.reqWord 0 = 0x50434857#32 → fieldOf (s.reqWord 1) 15 0 = 0x0301 → fieldOf (s.reqWord 5) 15 0 + 64 = len.val →
          fieldOf (s.reqWord 5) 31 16 = 1 →
          ((List.range 8).map fun i => s.reqWord (n - 8 + i)) = ((List.range 8).map fun i => Config.tag session ((List.range (n - 8)).map s.reqWord) i) →
          ∃ t, exec (.submit m len) s = .next t ∧ t.f F.UMB_MBOX_STAT_BUSY = 1 ∧ t.f F.UMB_MBOX_STAT_OWNER = mc ∧ t.f F.UMB_MBOX_STAT_DONE = 0
            ∧ t.umb.inq = s.umb.inq ++ [{ via := some mc, session := session, mseq := mseq }])
    ∧ (∃ t, exec (.mailboxRlenRead m) s = .next t ∧ t.hub.rdata = s.rd Reg.UMB_MBOX_STAT ∧ (∀ a, a ≠ Reg.UMB_MBOX_STAT → t.rd a = s.rd a)
        ∧ (s.f F.UMB_MBOX_STAT_DONE = 1 → s.f F.UMB_MBOX_STAT_OWNER = mc → free t)
        ∧ (s.f F.UMB_MBOX_STAT_DONE = 0 ∨ s.f F.UMB_MBOX_STAT_OWNER ≠ mc → t.mem = s.mem))
    ∧ (s.f F.UMB_MBOX_STAT_DONE = 1 → ∃ t, exec .umbMboxReleased s = .next t ∧ free t
        ∧ s.Logs t .UMB_MBOX_RELEASED (objMaster (s.f F.UMB_MBOX_STAT_OWNER)) [])
    ∧ (s.f F.UMB_MBOX_STAT_DONE = 0 → exec .umbMboxReleased s = .next s)
    -- operations
    ∧ (∀ (key sl type dir : Fin 256) (perm mask : Fin 65536) (life seq n pub tkey total offset tick dst timeout addr most expiry : Nat) (sig : Bool)
        (bytes : List (BitVec 8)) (c : ImgCheck) (value : Word),
      let ops : List (Instr × Nat × Option Nat × List Nat) :=
        [(.closeSession, 0x02, none, [0, 1, 2, 3]), (.logRead seq n, 0x10, some 0, [0, 1, 2, 3]), (.keySet sl mask pub, 0x20, some 6, [0, 1, 3]),
         (.trigkeySet tkey, 0x21, some 6, [1, 3]), (.updBegin type total, 0x30, some 5, [1, 2, 3]), (.updData offset bytes, 0x31, some 5, [1, 2, 3]),
         (.updEnd c, 0x32, some 5, [1, 2, 3]), (.activate type tick, 0x33, some 5, [1, 2, 3]), (.imageCommit type, 0x34, some 5, [1, 2, 3]),
         (.lcChange dst timeout, 0x40, none, [0, 1, 2, 3]), (.fenceWrite addr value, 0x50, some 8, [3]), (.restepAuth dir most expiry, 0x60, some 4, [2, 3])]
      (s.umb.down = true ∨ s.umb.inq = [] → (∀ o ∈ ops, exec o.1 s = .next s) ∧ exec (.openSession key perm life sig) s = .next s)
      ∧ ∀ y rest, s.umb.down = false → s.umb.inq = y :: rest →
        let head (op result : Nat) (data : List Word) : Word := BitVec.ofNat 32 (op + result * 256 + 4 * data.length * 65536)
        let reply (t : State) (op result : Nat) (data : List Word) : Prop := t.umb.inq = rest
          ∧ (∀ k, y.via = some k → busy → s.f F.UMB_MBOX_STAT_OWNER = k → t.f F.UMB_MBOX_STAT_DONE = 1 ∧ t.rd 0x1C020 = head op result data)
          ∧ ∀ z, t.sess y.session = some z → z.kept.head? = some (y.mseq, responseWords y.session y.mseq 1 0 (head op result data :: data))
        let gives (i : Instr) (op result : Nat) (data : List Word) (f : State → Prop) : Prop := ∃ t, exec i s = .next t ∧ reply t op result data ∧ f t
        let same (t : State) : Prop := t.lc = s.lc ∧ t.umb.keys = s.umb.keys ∧ t.umb.upd = s.umb.upd ∧ t.umb.act = s.umb.act
          ∧ (∀ a, a / 0x100000 = 0x13 → t.rd a = s.rd a)
        let code := if y.session = 0 then s.openCode y.via key perm life sig else (3, 0)
        (code.1 ≠ 0 → gives (.openSession key perm life sig) 0x01 code.1 [] same)
        ∧ (code.1 = 0 → s.sess 0 = none → ∃ t x, exec (.openSession key perm life sig) s = .next t ∧ t.umb.inq = rest ∧ t.umb.sessions = s.umb.sessions ++ [x]
            ∧ x.id ≠ 0 ∧ x.perm = code.2 ∧ x.key = key.val ∧ x.high = none ∧ x.kept = [])
        ∧ (∀ o ∈ ops,
            (s.lc = 4 → o.2.1 ≠ 0x10 → gives o.1 o.2.1 2 [] same)
            ∧ (s.lc ≠ 4 → s.sess y.session = none → gives o.1 o.2.1 0x21 [] same)
            ∧ ∀ x b, s.lc ≠ 4 → s.sess y.session = some x → (o.2.2.1 = some b → x.can b = false → gives o.1 o.2.1 1 [] same)
              ∧ ((∀ p, o.2.2.1 = some p → x.can p = true) → s.lc ∉ o.2.2.2 → gives o.1 o.2.1 2 [] same))
        ∧ (let pages := (s.umb.pages.filter fun p => decide (seq ≤ p.seq) && decide (p.seq < seq + n)).flatMap pageWords;
          s.lc = 4 ∨ (∃ x, s.sess y.session = some x ∧ x.can 0 = true ∧ s.lc < 4) →
            (1 ≤ n → n ≤ 28 → gives (.logRead seq n) 0x10 0 pages fun t => t.umb.pages = s.umb.pages ∧ t.umb.keys = s.umb.keys) ∧ (n = 0 ∨ 28 < n → gives (.logRead seq n) 0x10 3 [] same))
        ∧ ∀ x, s.sess y.session = some x →
          let may (p : Nat) (l : List Nat) : Prop := x.can p = true ∧ s.lc ∈ l
          (s.lc < 4 → gives .closeSession 0x02 0 [] fun t => t.sess x.id = none)
          ∧ (may 6 [0, 1, 3] → (7 < sl.val → gives (.keySet sl mask pub) 0x20 3 [] same)
              ∧ (sl.val ≤ 7 → gives (.keySet sl mask pub) 0x20 0 [] fun t => t.opKey sl = (if pub = 0 then none else some (mask.val, pub))
                  ∧ ∀ k, k ≠ sl.val → t.opKey k = s.opKey k))
          ∧ (may 6 [1, 3] → gives (.trigkeySet tkey) 0x21 0 [] fun t => t.umb.trigKey = some tkey)
          ∧ (may 5 [1, 2, 3] →
              let typed : Prop := type.val = 1 ∨ type.val = 2
              let slot := (slotsOf type).find? fun k => s.f (slotF k) != 4 && s.f (slotF k) != 3
              (¬typed → gives (.updBegin type total) 0x30 3 [] same ∧ gives (.activate type tick) 0x33 3 [] same ∧ gives (.imageCommit type) 0x34 3 [] same)
              ∧ (typed → s.umb.upd ≠ none → gives (.updBegin type total) 0x30 4 [] same)
              ∧ (typed → s.umb.upd = none → slot = none → gives (.updBegin type total) 0x30 2 [] same)
              ∧ (∀ k, typed → s.umb.upd = none → slot = some k → gives (.updBegin type total) 0x30 0 [] fun t => t.f (slotF k) = 1
                  ∧ t.umb.upd = some { via := y.via, session := y.session, type := type, slot := k, total := total, count := 0, data := [] })
              ∧ (s.umb.upd = none → gives (.updData offset bytes) 0x31 2 [] same ∧ gives (.updEnd c) 0x32 2 [] same)
              ∧ (∀ u, s.umb.upd = some u → u.ownedBy y = false → gives (.updData offset bytes) 0x31 2 [] same ∧ gives (.updEnd c) 0x32 2 [] same)
              ∧ (∀ u, s.umb.upd = some u → u.ownedBy y = true →
                  (offset ≠ u.count ∨ u.total < u.count + bytes.length → gives (.updData offset bytes) 0x31 3 [] same)
                  ∧ (offset = u.count → u.count + bytes.length ≤ u.total → gives (.updData offset bytes) 0x31 0 [] fun t =>
                      ∃ v, t.umb.upd = some v ∧ v.count = u.count + bytes.length ∧ v.data.reverse.flatten = u.data.reverse.flatten ++ bytes.map (·.toNat))
                  ∧ (let r := s.imgCode u.type u.data.reverse.flatten c;
                    gives (.updEnd c) 0x32 r [] fun t => t.umb.upd = none ∧ t.f (slotF u.slot) = if r = 0 then 2 else 5))
              ∧ (typed → s.slotIn type 2 = none → gives (.activate type tick) 0x33 2 [] same)
              ∧ (∀ k, typed → s.slotIn type 2 = some k →
                  let trial : Prop := s.slotIn 1 3 ≠ none ∨ s.slotIn 2 3 ≠ none
                  let far : Prop := tick = 0 ∨ leadOk s.tick.num tick = true
                  (trial → gives (.activate type tick) 0x33 4 [] same)
                  ∧ (¬trial → ¬far → gives (.activate type tick) 0x33 5 [] same)
                  ∧ (¬trial → far → (s.hdr k).svn < s.f (svnF type) → gives (.activate type tick) 0x33 0x15 [] same)
                  ∧ (¬trial → far → s.f (svnF type) ≤ (s.hdr k).svn → gives (.activate type tick) 0x33 0 [] fun t =>
                      t.umb.act = some (type.val, if tick = 0 then s.tick.num + 2 else tick)))
              ∧ (typed → s.slotIn type 3 = none ∨ (type.val = 2 ∧ s.umb.healthy = false) → gives (.imageCommit type) 0x34 2 [] same)
              ∧ (∀ k, typed → s.slotIn type 3 = some k → (type.val = 2 → s.umb.healthy = true) → (s.hdr k).svn < 256 →
                  gives (.imageCommit type) 0x34 0 [] fun t => t.f (slotF k) = 4 ∧ t.f (svnF type) = max (s.f (svnF type)) (s.hdr k).svn
                    ∧ ∀ a, s.slotIn type 4 = some a → t.f (slotF a) = 2))
          ∧ (s.lc < 4 → let r := s.lcCode x dst timeout
              (r ≠ 0 → gives (.lcChange dst timeout) 0x40 r [] same)
              ∧ (r = 0 → dst ≠ 4 → gives (.lcChange dst timeout) 0x40 0 [] fun t => t.lc = dst
                  ∧ s.Logs t .LC_CHANGED 0 [(s.lc : Int), (dst : Int), (x.key : Int)])
              ∧ (r = 0 → dst = 4 → ∃ t, exec (.lcChange dst timeout) s = .next t ∧ t.lc = 4 ∧ t.umb.held = true ∧ t.umb.sessions = [] ∧ t.umb.keys = []
                  ∧ t.umb.devKey = false ∧ t.tick = State.reset.tick ∧ t.kiln = State.reset.kiln))
          ∧ (may 8 [3] → (fenceRange addr value = false → gives (.fenceWrite addr value) 0x50 3 [] same)
              ∧ (fenceRange addr value = true → gives (.fenceWrite addr value) 0x50 0 [] fun t =>
                  ∃ r i, findRow regRowsFNC addr = some (r, i) ∧ t.rd addr = value &&& BitVec.ofNat 32 r.rof))
          ∧ (may 4 [2, 3] → let bad : Prop := most = 0 ∨ s.f F.FNC_STEP_MAX < most ∨ expiry < 3 ∨ 1920000 < expiry ∨ 1 < dir.val
              (bad → gives (.restepAuth dir most expiry) 0x60 3 [] same)
              ∧ (¬bad → gives (.restepAuth dir most expiry) 0x60 0 [] fun t => t.f F.PTP_RESTEP_AUTH_VALID = 1 ∧ t.f F.PTP_RESTEP_AUTH_DIR = dir
                  ∧ t.f F.PTP_RESTEP_AUTH_MAX = most
                  ∧ t.f64 F.PTP_RESTEP_EXP_LO_TICK F.PTP_RESTEP_EXP_HI_TICK = (s.tick.num + expiry) % 18446744073709551616)))
    -- what Umber does by itself
    ∧ (∀ id, (s.sess id = none → exec (.sessionExpiry id) s = .next s)
        ∧ (s.sess id ≠ none → ∃ t, exec (.sessionExpiry id) s = .next t ∧ t.umb.sessions = s.umb.sessions.filter (fun x => x.id != id)))
    ∧ (s.umb.upd = none → exec .updateAbandoned s = .next s)
    ∧ (∀ u, s.umb.upd = some u → ∃ t, exec .updateAbandoned s = .next t ∧ t.umb.upd = none ∧ t.f (slotF u.slot) = 0
        ∧ s.Logs t .UPDATE_ABANDONED 0 [(u.type : Int)])
    ∧ (s.lc ≠ 3 → exec .serviceTimeout s = .next s)
    ∧ (s.lc = 3 → ∃ t, exec .serviceTimeout s = .next t ∧ t.lc = 2 ∧ t.umb.sessions = s.umb.sessions.filter fun x => !x.can 8)
    ∧ (s.slotIn 1 3 = none → exec .umberTrialTimeout s = .next s)
    ∧ (∀ k, s.slotIn 1 3 = some k → ∃ t, exec .umberTrialTimeout s = .next t ∧ t.f (slotF k) = 5 ∧ t.umb.down = false ∧ t.f F.UMB_STAT_LOG_READY = 0
        ∧ s.Logs t .UPDATE_REVERTED 0 [1])
    ∧ (s.umb.down = false → exec .umberRestartDone s = .next s)
    ∧ (s.umb.down = true → ∃ t, exec .umberRestartDone s = .next t ∧ t.umb.down = false ∧ t.f F.UMB_STAT_LOG_READY = 0
        ∧ ∀ k, s.slotIn 1 3 = some k → t.f F.UMB_VER_U_VERSION = (s.hdr k).version % 4294967296)

/-! ### Clocks, resets and domains (R492, R496, R520 to R534) -/

/-- R492 to R534: clocks, resets and domains. Model's choices it rests on: log entries 19, 105, 106, 107. -/
def Obligations.ClocksResetsAndDomainsAct : Prop :=
  ∀ (s : State) (m : Master),
    let others (t : State) (l : List Nat) : Prop := ∀ k, k < 32 → k ∉ l → t.inReset k = s.inReset k
    let fresh (t : State) : Prop := t.tick = State.reset.tick ∧ t.kiln = State.reset.kiln ∧ t.front = State.reset.front ∧ t.flk = [] ∧ t.ptn = State.reset.ptn
      ∧ t.ptp = State.reset.ptp ∧ t.edg = State.reset.edg ∧ t.knd = State.reset.knd ∧ t.qmg = State.reset.qmg ∧ t.prs = State.reset.prs
      ∧ t.crd = State.reset.crd ∧ t.pending = s.pending
    let regs (t : State) : Prop := Memory.wf s.mem = true → (∀ a, a / 0x100000 = 0x13 → a ≠ Reg.FNC_HIT → t.rd a = s.rd a)
      ∧ ∀ a r i, a < 0x1300000 → a / 0x10000 ≠ 1 → a ≠ Reg.STK_STAT → a ∉ recordRegs → rowOf a = some (r, i) → r.rwl = 0 → t.rd a = resetWord a
    (s.f F.CLK_STAT_XREF_OK = 0 → exec .xrefLost s = .next s)
    ∧ (s.f F.CLK_STAT_XREF_OK = 1 → exec .xrefOk s = .next s)
    ∧ (s.f F.CLK_STAT_REF_OK = 0 → exec .refclkLost s = .next s)
    ∧ (s.f F.CLK_STAT_REF_OK = 1 → exec .refclkOk s = .next s)
    ∧ (s.f F.CLK_STAT_UXTAL_OK = 0 → exec .uxtalLost s = .next s)
    ∧ (s.f F.CLK_STAT_XREF_OK = 1 → ∃ t, exec .xrefLost s = .next t ∧ t.f F.CLK_STAT_XREF_OK = 0 ∧ t.f F.CLK_STAT_CORE_HOLD = 1 ∧ s.RegsBut t [Reg.CLK_STAT] ∧ s.Logs t .XREF_LOST 0 [])
    ∧ (s.f F.CLK_STAT_XREF_OK = 0 → ∃ t, exec .xrefOk s = .next t ∧ t.f F.CLK_STAT_XREF_OK = 1 ∧ t.f F.CLK_STAT_CORE_HOLD = 0 ∧ s.RegsBut t [Reg.CLK_STAT] ∧ s.Logs t .XREF_OK 0 [])
    ∧ (s.f F.CLK_STAT_REF_OK = 1 → ∃ t, exec .refclkLost s = .next t ∧ t.f F.CLK_STAT_REF_OK = 0 ∧ ((∀ l, l < 16 → s.laneState l < 2) → s.Joins t .REFCLK_LOST 0 []
        ∧ s.RegsBut t [Reg.CLK_STAT]))
    ∧ (s.f F.CLK_STAT_REF_OK = 0 → ∃ t, exec .refclkOk s = .next t ∧ t.f F.CLK_STAT_REF_OK = 1 ∧ s.RegsBut t [Reg.CLK_STAT] ∧ s.Joins t .REFCLK_OK 0 [])
    ∧ (s.f F.CLK_STAT_UXTAL_OK = 1 → ∃ t, exec .uxtalLost s = .next t ∧ t.f F.CLK_STAT_UXTAL_OK = 0 ∧ t.f F.CLK_STAT_UMB_RC = 1 ∧ s.RegsBut t [Reg.CLK_STAT] ∧ s.Logs t .UXTAL_LOST 0 [])
    ∧ (∃ t, exec .uxtalOk s = .next t ∧ t.f F.CLK_STAT_UXTAL_OK = 1 ∧ t.f F.CLK_STAT_UMB_RC = 0 ∧ s.RegsBut t [Reg.CLK_STAT] ∧ t.hub = s.hub ∧ t.umb = s.umb)
    ∧ (s.f F.CLK_STAT_SMP_LOCK = 0 → exec .smpUnlock s = .next s ∧ exec (.domainReset .smp) s = .next s)
    ∧ (s.f F.CLK_STAT_SMP_LOCK = 1 →
        ∃ t, exec .smpUnlock s = .next t ∧ exec (.domainReset .smp) s = .next t ∧ (t.f F.CLK_STAT_SMP_LOCK = 0 ∧ t.inReset 1 = true ∧ others t [1]
            ∧ s.Enters t .SMP_UNLOCK 0 [] ∧ (s.inReset 1 = false → ∀ k ∈ t.front.convs, k.ch < 96 → k.delivered = true)))
    ∧ (∃ t, exec .smpLock s = .next t ∧ t.f F.CLK_STAT_SMP_LOCK = 1 ∧ t.inReset 1 = false ∧ others t [1])
    -- hub resets
    ∧ (∀ (c : HubResetCause) (sel25 compat : Bool),
        (s.umb.held = true → exec (.hubReset c sel25 compat) s = .next s)
        ∧ (s.umb.held = false → ∃ t, exec (.hubReset c sel25 compat) s = .next t ∧ fresh t ∧ regs t ∧ t.spi.compat = compat
            ∧ (t.rd Reg.RST_CAUSE).getLsbD (causeBit c) = true ∧ t.f F.STK_STAT_CAUSE = 1 ∧ t.f F.CLK_STAT_SMP_LOCK = 0
            ∧ t.f F.CLK_STAT_XREF_25 = b2n sel25 ∧ t.f F.CLK_STAT_XREF_OK = s.f F.CLK_STAT_XREF_OK
            ∧ (Memory.wf s.mem = true → s.umb.recordOk = true → t.f F.UMB_BOOT_BOOT = (s.f F.UMB_BOOT_BOOT + 1) % 4294967296)
            ∧ t.umb.inq = s.umb.inq ∧ t.umb.keys = s.umb.keys ∧ s.Logs t .HUB_RESET 0 [(causeBit c : Int)]))
    ∧ (∀ sel25 compat : Bool,
        (s.umb.thermal = true → exec (.thermalTrip sel25 compat) s = .next s)
        ∧ (s.umb.thermal = false → ∃ t, exec (.thermalTrip sel25 compat) s = .next t ∧ fresh t ∧ t.umb.thermal = true
            ∧ (t.rd Reg.RST_CAUSE).getLsbD 2 = true ∧ s.Logs t .THERMAL_TRIP 0 [])
        ∧ (∃ t, exec (.umbRst sel25 compat) s = .next t ∧ fresh t ∧ t.umb.sessions = [] ∧ t.umb.inq = [] ∧ t.umb.upd = none ∧ t.f F.UMB_STAT_LOG_READY = 0
            ∧ t.f F.UMB_STAT_SESSIONS = 0 ∧ (Memory.wf s.mem = true → t.lc = s.lc) ∧ t.umb.keys = s.umb.keys ∧ t.f F.STK_STAT_CAUSE = 1)
        ∧ ∀ refOk : Bool, ∃ t, exec (.powerUp refOk sel25 compat) s = .next t ∧ fresh t ∧ t.umb.sessions = [] ∧ t.umb.inq = [] ∧ t.umb.upd = none
            ∧ t.umb.thermal = false ∧ t.f F.UMB_STAT_LOG_READY = 0 ∧ (t.rd Reg.RST_CAUSE).getLsbD 0 = true
            ∧ t.f F.CLK_STAT_XREF_OK = 1 ∧ t.f F.CLK_STAT_REF_OK = b2n refOk ∧ t.f F.CLK_STAT_UXTAL_OK = 1
            ∧ (Memory.wf s.mem = true → t.lc = s.lc ∧ (s.lc = 0 → t.umb.devKey = true)))
    ∧ ((∀ k, k < 8 → s.fs (F.UMB_SENSs_VALUE k) < 105 * 16) → exec .thermalRelease s = .next { s with umb.thermal := false })
    ∧ ((∃ k, k < 8 ∧ 105 * 16 ≤ s.fs (F.UMB_SENSs_VALUE k)) → exec .thermalRelease s = .next s)
    -- domains
    ∧ (let enters (d : Domain) (bit : Nat) (f : State → Prop) : Prop := ∃ t, exec (.domainReset d) s = .next t ∧ t.inReset bit = true ∧ others t [bit] ∧ f t;
      (∀ l : Fin 16, enters (.lane l) (16 + l) fun t => s.Joins t .DOM_RESET 0 [((16 + l.val : Nat) : Int), (Config.resetCause 0 : Int)]
          ∧ s.RegsBut t [Reg.RST_DOM])
      ∧ (∀ u : Fin 2, enters (.up u) (8 + u) fun t => s.Joins t .DOM_RESET 0 [((8 + u.val : Nat) : Int), (Config.resetCause 0 : Int)]
          ∧ s.RegsBut t [Reg.RST_DOM])
      ∧ enters .slt 10 (fun t => tabGet (fun _ => []) t.hub.txq 18 = [] ∧ s.RegsBut t [Reg.RST_DOM])
      ∧ enters .ddr 6 (fun t => t.f F.QMG_BL_STAT_READY = 0 ∧ ∀ x ∈ t.qmg.xfers, x.2 = true)
      ∧ enters .pcie 7 (fun _ => True)
      ∧ (∀ t : Fin 4, (s.tile t).down = false → enters (.tile t) (2 + t) fun u => (u.tile t).down = true
          ∧ ∀ k ∈ u.front.convs, k.ch / 24 = t.val → k.delivered = true)
      ∧ (∀ t : Fin 4, (s.tile t).down = true → exec (.domainReset (.tile t)) s = .next s)
      ∧ ∃ t, exec (.domainReset .stk) s = .next t ∧ exec (.stokerRestart .fault) s = .next t)
    ∧ (let leaves (d : Domain) (bit : Nat) : Prop := ∃ t, exec (.domainResetRelease d) s = .next t ∧ t.inReset bit = false ∧ others t [bit];
      leaves .stk 0 ∧ leaves .ddr 6 ∧ leaves .pcie 7 ∧ leaves .slt 10 ∧ (∀ u : Fin 2, leaves (.up u) (8 + u)) ∧ (∀ l : Fin 16, leaves (.lane l) (16 + l))
      ∧ (∀ t : Fin 4, (s.tile t).down = true → leaves (.tile t) (2 + t)) ∧ (s.f F.CLK_STAT_SMP_LOCK = 1 → leaves .smp 1)
      ∧ (∀ t : Fin 4, (s.tile t).down = false → exec (.domainResetRelease (.tile t)) s = .next s)
      ∧ (s.f F.CLK_STAT_SMP_LOCK = 0 → exec (.domainResetRelease .smp) s = .next s))
    ∧ ∀ (slt pcie ddr : Bool) (up : Fin 4), ∃ t, exec (.rstReq m slt pcie ddr up) s = .next t
        ∧ ∀ k, k < 32 → t.inReset k = (s.inReset k || (slt && k == 10) || (pcie && k == 7) || (ddr && k == 6)
            || (up.val.testBit 0 && k == 8) || (up.val.testBit 1 && k == 9))
end

