-- ==== Sys2Proof/Laws/Tab.lean ====
section
/-!
SUPPORT. What reading a sparse table after a write gives, and that every write keeps the canonical form.
-/
namespace Sys2Proof.Machine

open Sys2Proof

variable {α : Type} {d : Nat → α}

@[simp] theorem tabGet_nil (a : Nat) : tabGet d [] a = d a := rfl

theorem tabGet_erase_same (t : Tab α) (a : Nat) : tabGet d (tabErase t a) a = d a := by
  induction t with
  | nil => rfl
  | cons x r ih =>
    obtain ⟨k, v⟩ := x
    by_cases h : k = a
    · simp [tabErase, h, ih]
    · simp [tabErase, h, tabGet, ih, Ne.symm h]

theorem tabGet_erase_ne (t : Tab α) {a b : Nat} (h : b ≠ a) : tabGet d (tabErase t a) b = tabGet d t b := by
  induction t with
  | nil => rfl
  | cons x r ih =>
    obtain ⟨k, v⟩ := x
    by_cases hk : k = a
    · subst hk; simp [tabErase, tabGet, ih, h]
    · simp [tabErase, hk, tabGet, ih]

theorem tabGet_insert_ne (t : Tab α) {a b : Nat} (v : α) (h : b ≠ a) :
    tabGet d (tabInsert t a v) b = tabGet d t b := by
  induction t with
  | nil => simp [tabInsert, tabGet, h]
  | cons x r ih =>
    obtain ⟨k, w⟩ := x
    by_cases hk : a < k
    · simp [tabInsert, hk, tabGet, h]
    · simp [tabInsert, hk, tabGet, ih]

theorem tabGet_insert_erase (t : Tab α) (a : Nat) (v : α) : tabGet d (tabInsert (tabErase t a) a v) a = v := by
  induction t with
  | nil => simp [tabErase, tabInsert, tabGet]
  | cons x r ih =>
    obtain ⟨k, w⟩ := x
    by_cases h : k = a
    · simp [tabErase, h, ih]
    · by_cases hk : a < k
      · simp [tabErase, h, tabInsert, hk, tabGet]
      · simp [tabErase, h, tabInsert, hk, tabGet, ih, Ne.symm h]

variable [DecidableEq α]

/-- A key reads as what was last written to it. -/
@[simp] theorem tabGet_tabSet_same (t : Tab α) (a : Nat) (v : α) : tabGet d (tabSet d t a v) a = v := by
  unfold tabSet
  split
  · next h => rw [tabGet_erase_same, h]
  · exact tabGet_insert_erase t a v

/-- A write leaves every other key alone. -/
theorem tabGet_tabSet_ne (t : Tab α) {a b : Nat} (v : α) (h : b ≠ a) :
    tabGet d (tabSet d t a v) b = tabGet d t b := by
  unfold tabSet
  split
  · exact tabGet_erase_ne t h
  · rw [tabGet_insert_ne _ v h, tabGet_erase_ne t h]

/-- Reading after a write. -/
theorem tabGet_tabSet (t : Tab α) (a b : Nat) (v : α) :
    tabGet d (tabSet d t a v) b = if b = a then v else tabGet d t b := by
  split
  · next h => subst h; exact tabGet_tabSet_same t b v
  · next h => exact tabGet_tabSet_ne t v h

/-! ### The canonical form -/

omit [DecidableEq α] in
theorem tabSorted_cons {k : Nat} {v : α} {r : Tab α} :
    tabSorted ((k, v) :: r) = true ↔ (∀ x ∈ r.head?, k < x.1) ∧ tabSorted r = true := by
  cases r with
  | nil => simp [tabSorted]
  | cons x r => obtain ⟨l, w⟩ := x; simp [tabSorted]

omit [DecidableEq α] in
theorem tabSorted_lt {k : Nat} {v : α} {r : Tab α} (h : tabSorted ((k, v) :: r) = true) : ∀ x ∈ r, k < x.1 := by
  induction r generalizing k v with
  | nil => simp
  | cons y r ih =>
    obtain ⟨l, w⟩ := y
    rw [tabSorted_cons] at h
    have h1 : k < l := h.1 (l, w) (by simp)
    intro x hx
    rcases List.mem_cons.1 hx with rfl | hx
    · exact h1
    · exact lt_trans h1 (ih h.2 x hx)

omit [DecidableEq α] in
theorem tabSorted_mk {k : Nat} {v : α} {r : Tab α} (h1 : ∀ x ∈ r, k < x.1) (h2 : tabSorted r = true) :
    tabSorted ((k, v) :: r) = true := by
  rw [tabSorted_cons]
  refine ⟨fun x hx => h1 x ?_, h2⟩
  exact List.mem_of_mem_head? hx

omit [DecidableEq α] in
theorem mem_tabErase {t : Tab α} {a : Nat} {x : Nat × α} : x ∈ tabErase t a ↔ x ∈ t ∧ x.1 ≠ a := by
  induction t with
  | nil => simp [tabErase]
  | cons y r ih =>
    obtain ⟨k, v⟩ := y
    by_cases h : k = a
    · subst h
      simp only [tabErase, if_true, ih, List.mem_cons]
      constructor
      · rintro ⟨h1, h2⟩; exact ⟨.inr h1, h2⟩
      · rintro ⟨rfl | h1, h2⟩
        · exact absurd rfl h2
        · exact ⟨h1, h2⟩
    · simp only [tabErase, h, if_false, List.mem_cons, ih]
      constructor
      · rintro (rfl | ⟨h1, h2⟩)
        · exact ⟨.inl rfl, h⟩
        · exact ⟨.inr h1, h2⟩
      · rintro ⟨rfl | h1, h2⟩
        · exact .inl rfl
        · exact .inr ⟨h1, h2⟩

omit [DecidableEq α] in
theorem tabSorted_erase {t : Tab α} (a : Nat) (h : tabSorted t = true) : tabSorted (tabErase t a) = true := by
  induction t with
  | nil => rfl
  | cons y r ih =>
    obtain ⟨k, v⟩ := y
    have h2 := (tabSorted_cons.1 h).2
    by_cases hk : k = a
    · simp [tabErase, hk, ih h2]
    · simp only [tabErase, hk, if_false]
      exact tabSorted_mk (fun x hx => tabSorted_lt h x (mem_tabErase.1 hx).1) (ih h2)

omit [DecidableEq α] in
theorem mem_tabInsert {t : Tab α} {a : Nat} {v : α} {x : Nat × α} : x ∈ tabInsert t a v ↔ x = (a, v) ∨ x ∈ t := by
  induction t with
  | nil => simp [tabInsert]
  | cons y r ih =>
    obtain ⟨k, w⟩ := y
    by_cases h : a < k
    · simp [tabInsert, h]
    · simp [tabInsert, h, ih]; tauto

omit [DecidableEq α] in
theorem tabSorted_insert {t : Tab α} {a : Nat} {v : α} (h : tabSorted t = true) (ha : ∀ x ∈ t, x.1 ≠ a) :
    tabSorted (tabInsert t a v) = true := by
  induction t with
  | nil => rfl
  | cons y r ih =>
    obtain ⟨k, w⟩ := y
    by_cases hk : a < k
    · simp only [tabInsert, hk, if_true]
      refine tabSorted_mk (fun x hx => ?_) h
      rcases List.mem_cons.1 hx with rfl | hx
      · exact hk
      · exact lt_trans hk (tabSorted_lt h x hx)
    · simp only [tabInsert, hk, if_false]
      have hne : k ≠ a := ha (k, w) (by simp)
      refine tabSorted_mk (fun x hx => ?_) (ih (tabSorted_cons.1 h).2 fun x hx => ha x (by simp [hx]))
      rcases mem_tabInsert.1 hx with rfl | hx
      · simp only; omega
      · exact tabSorted_lt h x hx

theorem tabSparse_iff {t : Tab α} : tabSparse d t = true ↔ ∀ x ∈ t, x.2 ≠ d x.1 := by
  induction t with
  | nil => simp [tabSparse]
  | cons y r ih => obtain ⟨k, v⟩ := y; simp [tabSparse, ih]

/-- A write keeps the canonical form. -/
theorem tabWf_tabSet {t : Tab α} (h : tabWf d t = true) (a : Nat) (v : α) : tabWf d (tabSet d t a v) = true := by
  simp only [tabWf, Bool.and_eq_true] at h ⊢
  unfold tabSet
  split
  · refine ⟨tabSorted_erase a h.1, tabSparse_iff.2 fun x hx => ?_⟩
    exact tabSparse_iff.1 h.2 x (mem_tabErase.1 hx).1
  · next hv =>
    refine ⟨tabSorted_insert (tabSorted_erase a h.1) fun x hx => (mem_tabErase.1 hx).2, tabSparse_iff.2 fun x hx => ?_⟩
    rcases mem_tabInsert.1 hx with rfl | hx
    · exact hv
    · exact tabSparse_iff.1 h.2 x (mem_tabErase.1 hx).1

end Sys2Proof.Machine
end

