-- ==== Sys2Proof/Laws/Mem.lean ====
section
/-!
SUPPORT. The register space: reading a register or a field after a write, and the canonical form.
-/
namespace Sys2Proof.Machine

open Sys2Proof

/-! ### Words -/

@[simp] theorem State.rd_wr_same (s : State) (a : Nat) (w : Word) : (s.wr a w).rd a = w := by simp [State.wr, State.rd]

theorem State.rd_wr_ne (s : State) {a b : Nat} (w : Word) (h : b ≠ a) : (s.wr a w).rd b = s.rd b := by
  simp [State.wr, State.rd, tabGet_tabSet_ne, h]

theorem State.rd_wr (s : State) (a b : Nat) (w : Word) : (s.wr a w).rd b = if b = a then w else s.rd b := by
  simp [State.wr, State.rd, tabGet_tabSet]

/-- Every store keeps the canonical form of the register space. -/
theorem State.wr_wf {s : State} (h : Memory.wf s.mem = true) (a : Nat) (w : Word) : Memory.wf (s.wr a w).mem = true :=
  tabWf_tabSet h a w

theorem reset_memory_wf : Memory.wf State.reset.mem = true := rfl

/-! ### Fields -/

theorem fieldOf_testBit (w : Word) (hi lo i : Nat) :
    (fieldOf w hi lo).testBit i = (decide (i < hi + 1 - lo) && w.toNat.testBit (lo + i)) := by
  simp [fieldOf, Nat.testBit_mod_two_pow, Nat.testBit_shiftRight]

/-- A word as its bits above, in and below a field. -/
theorem word_split (w hi lo : Nat) (h : lo ≤ hi) :
    w = 2 ^ lo * (2 ^ (hi + 1 - lo) * (w / 2 ^ (hi + 1)) + (w >>> lo) % 2 ^ (hi + 1 - lo)) + w % 2 ^ lo := by
  have e : 2 ^ (hi + 1) = 2 ^ lo * 2 ^ (hi + 1 - lo) := by rw [← Nat.pow_add]; congr 1; omega
  rw [e, ← Nat.div_div_eq_div_mul, Nat.shiftRight_eq_div_pow, Nat.div_add_mod, Nat.div_add_mod]

theorem setField_nat (w : Word) {hi lo : Nat} (v : Nat) (h : lo ≤ hi) (h2 : hi < 32) :
    (setField w hi lo v).toNat =
      2 ^ lo * (2 ^ (hi + 1 - lo) * (w.toNat / 2 ^ (hi + 1)) + v % 2 ^ (hi + 1 - lo)) + w.toNat % 2 ^ lo := by
  have hs := word_split w.toNat hi lo h
  have hw := w.isLt
  have e : (2 : Nat) ^ 32 = 2 ^ (31 - hi) * (2 ^ lo * 2 ^ (hi + 1 - lo)) := by
    rw [← Nat.pow_add, ← Nat.pow_add]; congr 1; omega
  have e1 : (2 : Nat) ^ (hi + 1) = 2 ^ lo * 2 ^ (hi + 1 - lo) := by rw [← Nat.pow_add]; congr 1; omega
  have hl : w.toNat % 2 ^ lo < 2 ^ lo := Nat.mod_lt _ (by positivity)
  have hv : v % 2 ^ (hi + 1 - lo) < 2 ^ (hi + 1 - lo) := Nat.mod_lt _ (by positivity)
  have hq : w.toNat / 2 ^ (hi + 1) < 2 ^ (31 - hi) := by
    rw [Nat.div_lt_iff_lt_mul (by positivity), e1, ← e]; exact hw
  have hlt : 2 ^ lo * (2 ^ (hi + 1 - lo) * (w.toNat / 2 ^ (hi + 1)) + v % 2 ^ (hi + 1 - lo)) + w.toNat % 2 ^ lo
      < 2 ^ 32 := by
    rw [e]
    have a0 := Nat.mul_le_mul_right (2 ^ (hi + 1 - lo)) (Nat.succ_le_of_lt hq)
    have a1 : 2 ^ (hi + 1 - lo) * (w.toNat / 2 ^ (hi + 1)) + v % 2 ^ (hi + 1 - lo) + 1
        ≤ 2 ^ (31 - hi) * 2 ^ (hi + 1 - lo) := by rw [Nat.succ_mul] at a0; linarith
    have a2 := Nat.mul_le_mul_left (2 ^ lo) a1
    rw [Nat.mul_add, Nat.mul_one] at a2
    have a3 : 2 ^ lo * (2 ^ (31 - hi) * 2 ^ (hi + 1 - lo)) = 2 ^ (31 - hi) * (2 ^ lo * 2 ^ (hi + 1 - lo)) := by ring
    omega
  have hN : w.toNat - fieldOf w hi lo * 2 ^ lo + v % 2 ^ (hi + 1 - lo) * 2 ^ lo =
      2 ^ lo * (2 ^ (hi + 1 - lo) * (w.toNat / 2 ^ (hi + 1)) + v % 2 ^ (hi + 1 - lo)) + w.toNat % 2 ^ lo := by
    have hf : fieldOf w hi lo * 2 ^ lo ≤ w.toNat := by
      have a := Nat.mul_le_mul_left (2 ^ lo)
        (Nat.le_add_left (w.toNat >>> lo % 2 ^ (hi + 1 - lo)) (2 ^ (hi + 1 - lo) * (w.toNat / 2 ^ (hi + 1))))
      unfold fieldOf; rw [Nat.mul_comm]; omega
    have : w.toNat - fieldOf w hi lo * 2 ^ lo
        = 2 ^ lo * (2 ^ (hi + 1 - lo) * (w.toNat / 2 ^ (hi + 1))) + w.toNat % 2 ^ lo := by
      apply Nat.sub_eq_of_eq_add
      unfold fieldOf
      conv_lhs => rw [hs]
      ring
    rw [this]; ring
  unfold setField
  rw [hN, BitVec.toNat_ofNat, Nat.mod_eq_of_lt hlt]

theorem setField_testBit (w : Word) {hi lo : Nat} (v : Nat) (h : lo ≤ hi) (h2 : hi < 32) (i : Nat) :
    (setField w hi lo v).toNat.testBit i =
      if lo ≤ i ∧ i ≤ hi then v.testBit (i - lo) else w.toNat.testBit i := by
  rw [setField_nat w v h h2, Nat.testBit_two_pow_mul_add _ (Nat.mod_lt _ (by positivity)),
    Nat.testBit_two_pow_mul_add _ (Nat.mod_lt _ (by positivity))]
  by_cases h1 : i < lo
  · rw [if_pos h1, if_neg (by omega), Nat.testBit_mod_two_pow]; simp [h1]
  · rw [if_neg h1]
    by_cases h3 : i ≤ hi
    · rw [if_pos (by omega), if_pos (by omega), Nat.testBit_mod_two_pow]
      simp; omega
    · rw [if_neg (by omega), if_neg (by omega), Nat.testBit_div_two_pow]
      congr 1; omega

/-- A field reads as what was written to it. -/
theorem fieldOf_setField_same (w : Word) {hi lo : Nat} (v : Nat) (h : lo ≤ hi) (h2 : hi < 32) :
    fieldOf (setField w hi lo v) hi lo = v % 2 ^ (hi + 1 - lo) := by
  apply Nat.eq_of_testBit_eq
  intro i
  rw [fieldOf_testBit, setField_testBit w v h h2, Nat.testBit_mod_two_pow]
  by_cases hi' : i < hi + 1 - lo
  · rw [if_pos (by omega)]; simp
  · simp [hi']

/-- Writing a field leaves the other fields of its register alone. -/
theorem fieldOf_setField_ne (w : Word) {hi lo hi' lo' : Nat} (v : Nat) (h : lo ≤ hi) (h2 : hi < 32)
    (hd : hi' < lo ∨ hi < lo') : fieldOf (setField w hi lo v) hi' lo' = fieldOf w hi' lo' := by
  apply Nat.eq_of_testBit_eq
  intro i
  rw [fieldOf_testBit, fieldOf_testBit, setField_testBit w v h h2]
  by_cases hi'' : i < hi' + 1 - lo'
  · rw [if_neg (by omega)]
  · simp [hi'']

/-- A field lies in its word. -/
def fieldOk (x : RegField) : Prop := x.lo ≤ x.hi ∧ x.hi < 32

theorem State.f_wf_same (s : State) {x : RegField} (h : fieldOk x) (v : Nat) :
    (s.wf x v).f x = v % 2 ^ (x.hi + 1 - x.lo) := by
  simp [State.f, State.wf, fieldOf_setField_same _ v h.1 h.2]

/-- Two fields that share no bit of one register. -/
def fieldsApart (x y : RegField) : Prop := x.addr ≠ y.addr ∨ x.hi < y.lo ∨ y.hi < x.lo

theorem State.f_wf_ne (s : State) {x y : RegField} (h : fieldOk y) (hd : fieldsApart x y) (v : Nat) : (s.wf y v).f x = s.f x := by
  unfold State.f State.wf
  rw [State.rd_wr]
  split
  · next e =>
    rcases hd with hd | hd
    · exact absurd e hd
    · rw [fieldOf_setField_ne _ v h.1 h.2 hd, e]
  · rfl

theorem State.f_wr_ne (s : State) {x : RegField} {a : Nat} (w : Word) (h : x.addr ≠ a) : (s.wr a w).f x = s.f x := by
  simp [State.f, State.rd_wr_ne, h]

theorem State.rd_wf_ne (s : State) {x : RegField} {a : Nat} (v : Nat) (h : a ≠ x.addr) : (s.wf x v).rd a = s.rd a := by
  simp [State.wf, State.rd_wr_ne, h]

theorem State.wf_wf {s : State} (h : Memory.wf s.mem = true) (x : RegField) (v : Nat) : Memory.wf (s.wf x v).mem = true :=
  State.wr_wf h _ _

theorem fieldOf_lt (w : Word) (hi lo : Nat) : fieldOf w hi lo < 2 ^ (hi + 1 - lo) := Nat.mod_lt _ (by positivity)

theorem State.f_lt (s : State) (x : RegField) : s.f x < 2 ^ (x.hi + 1 - x.lo) := fieldOf_lt _ _ _

end Sys2Proof.Machine
end

