-- ==== Sys2Proof/Laws/Events.lean ====
section
/-!
SUPPORT. What recording an event does: it joins the hardware queue while there is room (R21, R548), touches four registers of the hub
and Umber's log, and nothing else of the state.
-/
namespace Sys2Proof.Machine

open Sys2Proof

/-- The addresses of the registers that recording an event may write. -/
def eventRegs : List Nat := [Reg.HUB_EVQ_STAT, Reg.HUB_EVQ_OVF, Reg.HUB_INT_RAW, Reg.UMB_LOG_LOST]

/-- `t` differs from `s` at most where recording an event writes. -/
structure Records (s t : State) : Prop where
  rd : ∀ a, a ∉ eventRegs → t.rd a = s.rd a
  rest : { t with mem := s.mem, hub := s.hub, umb := s.umb } = s
  hub : { t.hub with evq := s.hub.evq, evOver := s.hub.evOver, evOverCount := s.hub.evOverCount } = s.hub

theorem Records.rfl' {s : State} : Records s s := ⟨fun _ _ => rfl, rfl, rfl⟩

theorem Records.trans {s t u : State} (h : Records s t) (k : Records t u) : Records s u := by
  refine ⟨fun a ha => (k.rd a ha).trans (h.rd a ha), ?_, ?_⟩
  · have h1 := h.rest; have h2 := k.rest; rw [← h2] at h1; exact h1
  · have h1 := h.hub; have h2 := k.hub; rw [← h2] at h1; exact h1

theorem Records.tick {s t : State} (h : Records s t) : t.tick = s.tick := by
  have e := congrArg State.tick h.rest; exact e
theorem Records.kiln {s t : State} (h : Records s t) : t.kiln = s.kiln := by
  have e := congrArg State.kiln h.rest; exact e
theorem Records.front {s t : State} (h : Records s t) : t.front = s.front := by
  have e := congrArg State.front h.rest; exact e
theorem Records.flk {s t : State} (h : Records s t) : t.flk = s.flk := by
  have e := congrArg State.flk h.rest; exact e
theorem Records.ptn {s t : State} (h : Records s t) : t.ptn = s.ptn := by
  have e := congrArg State.ptn h.rest; exact e
theorem Records.ptp {s t : State} (h : Records s t) : t.ptp = s.ptp := by
  have e := congrArg State.ptp h.rest; exact e
theorem Records.edg {s t : State} (h : Records s t) : t.edg = s.edg := by
  have e := congrArg State.edg h.rest; exact e
theorem Records.knd {s t : State} (h : Records s t) : t.knd = s.knd := by
  have e := congrArg State.knd h.rest; exact e
theorem Records.qmg {s t : State} (h : Records s t) : t.qmg = s.qmg := by
  have e := congrArg State.qmg h.rest; exact e
theorem Records.prs {s t : State} (h : Records s t) : t.prs = s.prs := by
  have e := congrArg State.prs h.rest; exact e
theorem Records.crd {s t : State} (h : Records s t) : t.crd = s.crd := by
  have e := congrArg State.crd h.rest; exact e
theorem Records.upl {s t : State} (h : Records s t) : t.upl = s.upl := by
  have e := congrArg State.upl h.rest; exact e
theorem Records.spi {s t : State} (h : Records s t) : t.spi = s.spi := by
  have e := congrArg State.spi h.rest; exact e
theorem Records.pending {s t : State} (h : Records s t) : t.pending = s.pending := by
  have e := congrArg State.pending h.rest; exact e

theorem Records.wf {s t : State} (h : Records s t) (x : RegField) (v : Nat) (hx : x.addr ∈ eventRegs) : Records s (t.wf x v) := by
  refine h.trans ⟨fun a ha => State.rd_wf_ne _ _ fun e => ha (e ▸ hx), rfl, rfl⟩

theorem Records.peak {s t : State} (h : Records s t) (x : RegField) (v : Nat) (hx : x.addr ∈ eventRegs) : Records s (t.peak x v) := by
  exact h.wf x _ hx

theorem Records.log {s t : State} (h : Records s t) (e : Event) : Records s (t.logRecord e) := by
  refine h.trans ?_
  unfold State.logRecord
  dsimp only
  split
  · split <;> exact ⟨fun _ _ => rfl, rfl, rfl⟩
  · exact ⟨fun a ha => State.rd_wf_ne _ _ fun e => ha (by rw [e]; decide), rfl, rfl⟩

theorem Records.latch {s t : State} (h : Records s t) (n : EvName) : Records s (t.latchFor n) := by
  unfold State.latchFor
  split
  · next x e => exact h.wf x 1 (by revert e; cases n <;> simp [eventLatch] <;> rintro rfl <;> decide)
  · exact h

theorem Records.present {s t : State} (h : Records s t) (e : Event) : Records s (t.present e) := by
  have h1 := h.latch e.name
  unfold State.present
  generalize t.latchFor e.name = x at h1 ⊢
  dsimp only
  split
  · have h2 : Records s { x with hub.evq := x.hub.evq ++ [e], hub.evOver := false, hub.evOverCount := 0 } :=
      h1.trans ⟨fun _ _ => rfl, rfl, rfl⟩
    exact Records.peak (Records.wf h2 F.HUB_EVQ_STAT_DEPTH _ (by decide)) F.HUB_EVQ_STAT_PEAK _ (by decide)
  · have h2 : Records s { x with hub.evOver := true, hub.evOverCount := x.hub.evOverCount + 1 } := h1.trans ⟨fun _ _ => rfl, rfl, rfl⟩
    have h3 := (h2.log { e with direct := true }).wf F.HUB_EVQ_OVF_DIRECT
    split
    · exact Records.log (Records.wf (Records.wf (h3 _ (by decide)) F.HUB_EVQ_OVF_EPISODES _ (by decide)) F.HUB_INT_RAW_EVQ _ (by decide)) _
    · exact h3 _ (by decide)

/-- Recording an event writes nothing but the event registers and Umber's log. -/
theorem emit_records (s : State) (n : EvName) (obj : Nat) (d : List Int) : Records s (s.emit n obj d) :=
  Records.rfl'.present _

theorem emitFrom_records (s : State) (n : EvName) (k obj : Nat) (d : List Int) : Records s (s.emitFrom n k obj d) :=
  Records.rfl'.present _

theorem umberEvent_records (s : State) (n : EvName) (obj : Nat) (d : List Int) : Records s (s.umberEvent n obj d) :=
  Records.log (Records.rfl'.latch n) _

theorem rd_emit (s : State) (n : EvName) (obj : Nat) (d : List Int) {a : Nat} (h : a ∉ eventRegs) : (s.emit n obj d).rd a = s.rd a :=
  (emit_records s n obj d).rd a h

theorem f_emit (s : State) (n : EvName) (obj : Nat) (d : List Int) {x : RegField} (h : x.addr ∉ eventRegs) :
    (s.emit n obj d).f x = s.f x := by unfold State.f; rw [rd_emit s n obj d h]

theorem rd_umberEvent (s : State) (n : EvName) (obj : Nat) (d : List Int) {a : Nat} (h : a ∉ eventRegs) :
    (s.umberEvent n obj d).rd a = s.rd a := (umberEvent_records s n obj d).rd a h

theorem f_umberEvent (s : State) (n : EvName) (obj : Nat) (d : List Int) {x : RegField} (h : x.addr ∉ eventRegs) :
    (s.umberEvent n obj d).f x = s.f x := by unfold State.f; rw [rd_umberEvent s n obj d h]

theorem latchFor_hub (s : State) (n : EvName) : (s.latchFor n).hub = s.hub := by unfold State.latchFor; split <;> rfl

/-- While the hardware queue has room, an event joins it at the end. -/
theorem emit_evq (s : State) (n : EvName) (obj : Nat) (d : List Int) (h : evqDepth s.hub.evq + eventEntries n ≤ 4096) :
    (s.emit n obj d).hub.evq = s.hub.evq ++ [s.mkEvent n (eventBlock n) obj d] := by
  unfold State.emit State.present
  have e : (s.mkEvent n (eventBlock n) obj d).name = n := rfl
  rw [e]
  dsimp only
  rw [latchFor_hub, if_pos h]
  rfl

end Sys2Proof.Machine
end

