-- ==== Sys2Proof/Laws/Keeps.lean ====
section
/-!
SUPPORT. What every operation of the hub keeps: the queue of commands, the canonical form of the register space, the capacities of
the event queue (R21), the gap buffer (R455) and the scheduler (R49), and, for all but a few, the tick number. One lemma per operation
follows in the KeepsOps files, one per meaning in KeepsExec.
-/
namespace Sys2Proof.Machine

open Sys2Proof

/-- `t` comes from `s` with the queue untouched, and as safe as `s`; with `b` true, in the same tick. -/
structure Keeps (b : Bool) (s t : State) : Prop where
  pending : t.pending = s.pending
  mem : Memory.wf s.mem = true → Memory.wf t.mem = true
  evq : evqDepth s.hub.evq ≤ 4096 → evqDepth t.hub.evq ≤ 4096
  gaps : s.hub.gaps.length ≤ 16384 → t.hub.gaps.length ≤ 16384
  items : s.ordinary.length ≤ 1024 → t.ordinary.length ≤ 1024
  num : b = true → t.tick.num = s.tick.num

variable {b : Bool} {s0 s t : State}

theorem Keeps.rfl' : Keeps b s s := ⟨rfl, id, id, id, id, fun _ => rfl⟩
theorem Keeps.trans (h : Keeps b s0 s) (k : Keeps b s t) : Keeps b s0 t :=
  ⟨k.pending.trans h.pending, k.mem ∘ h.mem, k.evq ∘ h.evq, k.gaps ∘ h.gaps, k.items ∘ h.items, fun x => (k.num x).trans (h.num x)⟩
theorem Keeps.set (h : Keeps b s0 s) {k : TickSt} {u : HubSt} (hk : b = true → k.num = s.tick.num) (hi : k.items = s.tick.items)
    (he : u.evq = s.hub.evq) (hg : u.gaps = s.hub.gaps) {a d e f g i j l m n o p q} :
    Keeps b s0 (State.mk s.mem k a u d e f g i j l m n o p q s.pending) :=
  ⟨h.pending, h.mem, he ▸ h.evq, hg ▸ h.gaps, by simpa [State.ordinary, hi] using h.items, fun hb => (hk hb).trans (h.num hb)⟩

theorem Keeps.any (h : Keeps b s0 s) {k : TickSt} {u : HubSt} (hk : b = true → k.num = s.tick.num)
    (hi : s.ordinary.length ≤ 1024 → (k.items.filter fun i => !i.late).length ≤ 1024)
    (he : evqDepth s.hub.evq ≤ 4096 → evqDepth u.evq ≤ 4096) (hg : s.hub.gaps.length ≤ 16384 → u.gaps.length ≤ 16384)
    {a d e f g i j l m n o p q} :
    Keeps b s0 (State.mk s.mem k a u d e f g i j l m n o p q s.pending) :=
  ⟨h.pending, h.mem, fun x => he (h.evq x), fun x => hg (h.gaps x), fun x => hi (h.items x), fun hb => (hk hb).trans (h.num hb)⟩
theorem Keeps.ite {c : Prop} [Decidable c] {x y : State} (hx : Keeps b s0 x) (hy : Keeps b s0 y) : Keeps b s0 (if c then x else y) := by
  split <;> assumption
theorem Keeps.ite1 {α} {c : Prop} [Decidable c] {x y : State × α} (hx : Keeps b s0 x.1) (hy : Keeps b s0 y.1) : Keeps b s0 (if c then x else y).1 := by
  split <;> assumption
theorem Keeps.ite2 {α} {c : Prop} [Decidable c] {x y : α × State} (hx : Keeps b s0 x.2) (hy : Keeps b s0 y.2) : Keeps b s0 (if c then x else y).2 := by
  split <;> assumption
theorem Keeps.ite22 {α β} {c : Prop} [Decidable c] {x y : α × β × State} (hx : Keeps b s0 x.2.2) (hy : Keeps b s0 y.2.2) : Keeps b s0 (if c then x else y).2.2 := by
  split <;> assumption
theorem wr_keeps (a w) (h : Keeps b s0 s) : Keeps b s0 (s.wr a w) := ⟨h.pending, fun x => State.wr_wf (h.mem x) _ _, h.evq, h.gaps, h.items, h.num⟩
theorem Keeps.foldl {α} {f : State → α → State} (hf : ∀ x a, Keeps b s0 x → Keeps b s0 (f x a)) (l : List α) (h : Keeps b s0 s) :
   Keeps b s0 (l.foldl f s) := by
  induction l generalizing s with
  | nil => exact h
  | cons x r ih => exact ih (hf _ _ h)
theorem Keeps.foldl1 {α β} {f : State × β → α → State × β} (hf : ∀ x a, Keeps b s0 x.1 → Keeps b s0 (f x a).1) (l : List α) {x : State × β} (h : Keeps b s0 x.1) :
   Keeps b s0 (l.foldl f x).1 := by
  induction l generalizing x with
  | nil => exact h
  | cons y r ih => exact ih (hf _ _ h)
theorem Keeps.foldl2 {α β} {f : β × State → α → β × State} (hf : ∀ x a, Keeps b s0 x.2 → Keeps b s0 (f x a).2) (l : List α) {x : β × State} (h : Keeps b s0 x.2) :
   Keeps b s0 (l.foldl f x).2 := by
  induction l generalizing x with
  | nil => exact h
  | cons y r ih => exact ih (hf _ _ h)
theorem Keeps.forNat {f : State → Nat → State} (n : Nat) (hf : ∀ x a, Keeps b s0 x → Keeps b s0 (f x a)) (h : Keeps b s0 s) :
   Keeps b s0 (forNat n f s) := Keeps.foldl hf _ h

/-- A meaning's answer keeps what `Keeps` names when it is a next state. -/
def Keeps.out (b : Bool) (s : State) : Ans → Prop
  | .next t => Keeps b s t
  | _ => True

theorem Keeps.next (h : Keeps b s0 s) : Keeps.out b s0 (.next s) := h

end Sys2Proof.Machine
end

