-- ==== Sys2Proof/Laws/KeepsOps1.lean ====
section
/-!
SUPPORT. What the operations keep, part 1 of 5: one lemma each, in the order in which the operations call one another.
-/
namespace Sys2Proof.Machine

open Sys2Proof

variable {b : Bool} {s0 s t : State}

theorem wf_keeps (x v) (h : Keeps b s0 s) : Keeps b s0 (State.wf s x v) := by
  unfold State.wf
  with_reducible repeat' first | assumption | apply wr_keeps

theorem wb_keeps (x b') (h : Keeps b s0 s) : Keeps b s0 (State.wb s x b') := by
  unfold State.wb
  with_reducible repeat' first | assumption | apply wf_keeps

theorem peak_keeps (x n) (h : Keeps b s0 s) : Keeps b s0 (State.peak s x n) := by
  unfold State.peak
  with_reducible repeat' first | assumption | apply wf_keeps

theorem bumpWrap_keeps (x n) (h : Keeps b s0 s) : Keeps b s0 (State.bumpWrap s x n) := by
  unfold State.bumpWrap
  with_reducible repeat' first | assumption | apply wf_keeps

theorem wfs_keeps (x v) (h : Keeps b s0 s) : Keeps b s0 (State.wfs s x v) := by
  unfold State.wfs
  with_reducible repeat' first | assumption | apply wf_keeps

theorem wf64_keeps (lo hi v) (h : Keeps b s0 s) : Keeps b s0 (State.wf64 s lo hi v) := by
  unfold State.wf64
  with_reducible repeat' first | assumption | apply wf_keeps

theorem bump_keeps (x n) (h : Keeps b s0 s) : Keeps b s0 (State.bump s x n) := by
  unfold State.bump
  with_reducible repeat' first | assumption | apply wf_keeps

theorem latchFor_keeps (n) (h : Keeps b s0 s) : Keeps b s0 (State.latchFor s n) := by
  unfold State.latchFor
  with_reducible repeat' first | assumption | apply wf_keeps | split

theorem logRecord_keeps (e) (h : Keeps b s0 s) : Keeps b s0 (State.logRecord s e) := by
  unfold State.logRecord
  with_reducible repeat' first | assumption | intro _ | apply bump_keeps | apply Keeps.ite | apply Keeps.ite1 | apply Keeps.ite2 | apply Keeps.ite22 | rfl | dsimp only | apply Keeps.set

theorem umberEvent_keeps (n obj detail) (h : Keeps b s0 s) : Keeps b s0 (State.umberEvent s n obj detail) := by
  unfold State.umberEvent
  with_reducible repeat' first | assumption | apply latchFor_keeps | apply logRecord_keeps

theorem present_keeps (e) (h : Keeps b s0 s) : Keeps b s0 (s.present e) := by
  unfold State.present
  dsimp only
  split
  · next hd =>
    apply peak_keeps
    apply wf_keeps
    apply Keeps.any (latchFor_keeps e.name h)
    · intro _; rfl
    · exact id
    · intro _; simpa [evqDepth] using hd
    · exact id
  · with_reducible repeat' first | assumption | intro _ | apply latchFor_keeps | apply wf_keeps | apply bump_keeps | apply logRecord_keeps | apply Keeps.ite | apply Keeps.ite1 | apply Keeps.ite2 | apply Keeps.ite22 | rfl | apply Keeps.foldl | apply Keeps.foldl1 | apply Keeps.foldl2 | apply Keeps.forNat | split | dsimp only | apply Keeps.set

theorem emitFrom_keeps (n block obj detail) (h : Keeps b s0 s) : Keeps b s0 (State.emitFrom s n block obj detail) := by
  unfold State.emitFrom
  with_reducible repeat' first | assumption | apply present_keeps

theorem clockPass_keeps (n) (h : Keeps b s0 s) : Keeps b s0 (State.clockPass s n) := by
  unfold State.clockPass
  with_reducible repeat' first | assumption | intro _ | rfl | dsimp only | apply Keeps.set

theorem atCycle_keeps (c) (h : Keeps b s0 s) : Keeps b s0 (State.atCycle s c) := by
  unfold State.atCycle
  with_reducible repeat' first | assumption | intro _ | apply clockPass_keeps | apply Keeps.ite | apply Keeps.ite1 | apply Keeps.ite2 | apply Keeps.ite22 | rfl | dsimp only | apply Keeps.set

theorem fenceHit_keeps (bit) (h : Keeps b s0 s) : Keeps b s0 (State.fenceHit s bit) := by
  unfold State.fenceHit
  with_reducible repeat' first | assumption | apply wf_keeps

theorem txHold_keeps (l) (h : Keeps b s0 s) : Keeps b s0 (State.txHold s l) := by
  unfold State.txHold
  with_reducible repeat' first | assumption | intro _ | apply wf_keeps | apply umberEvent_keeps | apply fenceHit_keeps | apply Keeps.ite | apply Keeps.ite1 | apply Keeps.ite2 | apply Keeps.ite22 | rfl | split | dsimp only | apply Keeps.set

theorem send_keeps (k port data) (h : Keeps b s0 s) : Keeps b s0 (State.send s k port data) := by
  unfold State.send
  with_reducible repeat' first | assumption | intro _ | rfl | dsimp only | apply Keeps.set

theorem unhold_keeps (h') (h : Keeps b s0 s) : Keeps b s0 (State.unhold s h') := by
  unfold State.unhold
  with_reducible repeat' first | assumption | intro _ | apply wr_keeps | apply Keeps.ite | apply Keeps.ite1 | apply Keeps.ite2 | apply Keeps.ite22 | rfl | dsimp only | apply Keeps.set

theorem idle_keeps (h : Keeps b s0 s) : Keeps b s0 (State.idle s) := by
  unfold State.idle
  with_reducible repeat' first | assumption | intro _ | apply clockPass_keeps | apply Keeps.ite | apply Keeps.ite1 | apply Keeps.ite2 | apply Keeps.ite22 | rfl | dsimp only | apply Keeps.set

theorem hold_keeps (due addr data mask master) (h : Keeps b s0 s) : Keeps b s0 (State.hold s due addr data mask master) := by
  unfold State.hold
  with_reducible repeat' first | assumption | intro _ | apply wr_keeps | rfl | dsimp only | apply Keeps.set

theorem txLeave_keeps (i) (h : Keeps b s0 s) : Keeps b s0 (State.txLeave s i) := by
  unfold State.txLeave
  with_reducible repeat' first | assumption | intro _ | apply Keeps.ite | apply Keeps.ite1 | apply Keeps.ite2 | apply Keeps.ite22 | rfl | apply Keeps.foldl | apply Keeps.foldl1 | apply Keeps.foldl2 | dsimp only | apply Keeps.set

theorem txDrain_keeps (l : List TxItem) (h : Keeps b s0 s) : Keeps b s0 (s.txDrain l).1 := by
  induction l generalizing s with
  | nil => exact h
  | cons x r ih =>
    unfold State.txDrain
    apply Keeps.ite1
    · exact ih (txLeave_keeps _ h)
    · exact Keeps.foldl (fun s l hs => txHold_keeps l hs) _ h

theorem setNow_keeps (addr data mask) (h : Keeps b s0 s) : Keeps b s0 (State.setNow s addr data mask) := by
  unfold State.setNow
  with_reducible repeat' first | assumption | intro _ | apply wr_keeps | rfl | split | dsimp only | apply Keeps.set

theorem free_keeps (h : Keeps b s0 s) : Keeps b s0 (State.free s).2 := by
  unfold State.free
  with_reducible repeat' first | assumption | intro _ | rfl | dsimp only | apply Keeps.set

theorem txPump_keeps (l) (h : Keeps b s0 s) : Keeps b s0 (State.txPump s l) := by
  unfold State.txPump
  with_reducible repeat' first | assumption | intro _ | apply txDrain_keeps | apply wf_keeps | apply Keeps.ite | apply Keeps.ite1 | apply Keeps.ite2 | apply Keeps.ite22 | rfl | dsimp only | apply Keeps.set

theorem domRelease_keeps (bit) (h : Keeps b s0 s) : Keeps b s0 (State.domRelease s bit) := by
  unfold State.domRelease
  with_reducible repeat' first | assumption | apply wr_keeps

theorem emit_keeps (n obj detail) (h : Keeps b s0 s) : Keeps b s0 (State.emit s n obj detail) := by
  unfold State.emit
  with_reducible repeat' first | assumption | apply present_keeps

theorem domReset_keeps (bit cause) (h : Keeps b s0 s) : Keeps b s0 (State.domReset s bit cause) := by
  unfold State.domReset
  with_reducible repeat' first | assumption | apply emit_keeps | apply wr_keeps

theorem condNote_keeps (h : Keeps b s0 s) : Keeps b s0 (State.condNote s) := by
  unfold State.condNote
  with_reducible repeat' first | assumption | intro _ | apply Keeps.ite | apply Keeps.ite1 | apply Keeps.ite2 | apply Keeps.ite22 | rfl | dsimp only | apply Keeps.set

theorem txSend_keeps (l front l') (h : Keeps b s0 s) : Keeps b s0 (State.txSend s l front l') := by
  unfold State.txSend
  with_reducible repeat' first | assumption | intro _ | apply txPump_keeps | apply Keeps.ite | apply Keeps.ite1 | apply Keeps.ite2 | apply Keeps.ite22 | rfl | dsimp only | apply Keeps.set

theorem showPins_keeps (h : Keeps b s0 s) : Keeps b s0 (State.showPins s) := by
  unfold State.showPins
  with_reducible repeat' first | assumption | apply wf_keeps

theorem control_keeps (op arg0 arg1 arg2) (h : Keeps b s0 s) : Keeps b s0 (State.control s op arg0 arg1 arg2) := by
  unfold State.control
  with_reducible repeat' first | assumption | intro _ | rfl | dsimp only | apply Keeps.set

theorem setPin_keeps (p q first last) (h : Keeps b s0 s) : Keeps b s0 (State.setPin s p q first last) := by
  unfold State.setPin
  with_reducible repeat' first | assumption | apply wf_keeps | apply wf64_keeps | apply showPins_keeps

theorem addPin_keeps (q first last) (h : Keeps b s0 s) : Keeps b s0 (State.addPin s q first last) := by
  unfold State.addPin
  with_reducible repeat' first | assumption | apply control_keeps | apply setPin_keeps | apply emit_keeps | split

theorem schedule_keeps (m t addr data mask lateOk) (h : Keeps b s0 s) : Keeps b s0 (s.schedule m t addr data mask lateOk).2 := by
  unfold State.schedule
  dsimp only
  split
  · next hc =>
    dsimp only
    apply Keeps.any h
    · intro _; rfl
    · intro hi
      change (s.tick.items.filter _).length ≤ 1024 at hi
      rw [List.filter_append, List.length_append]
      unfold State.schedCode at hc
      cases hl : leadOk s.tick.num t
      · simpa using hi
      · simp only [hl, if_true] at hc
        by_cases hx : 1024 ≤ s.ordinary.length
        · simp [hx] at hc; split at hc <;> (try omega); split at hc <;> (try omega); split at hc <;> omega
        · change ¬ 1024 ≤ (s.tick.items.filter _).length at hx
          simp; omega
    · exact id
    · exact id
  · exact h

theorem schedResult_keeps (m code) (h : Keeps b s0 s) : Keeps b s0 (State.schedResult s m code) := by
  unfold State.schedResult
  with_reducible repeat' first | assumption | apply wf_keeps | apply Keeps.ite

theorem schedCommit_keeps (m lateOk both) (h : Keeps b s0 s) : Keeps b s0 (State.schedCommit s m lateOk both) := by
  unfold State.schedCommit
  with_reducible repeat' first | assumption | apply schedResult_keeps | apply schedule_keeps | apply Keeps.ite

theorem itemsFilter_keeps (p : SchedItem → Bool) (h : Keeps b s0 s) : Keeps b s0 { s with tick.items := s.tick.items.filter p } := by
  apply Keeps.any h
  · intro _; rfl
  · intro hi; exact le_trans (List.Sublist.length_le (List.Sublist.filter _ List.filter_sublist)) hi
  · exact id
  · exact id

theorem schedCancel_keeps (m both) (h : Keeps b s0 s) : Keeps b s0 (s.schedCancel m both) := by
  unfold State.schedCancel
  dsimp only
  with_reducible repeat' first | assumption | intro _ | apply schedResult_keeps | apply Keeps.ite | exact itemsFilter_keeps _ h

theorem schedCmd_keeps (m w) (h : Keeps b s0 s) : Keeps b s0 (State.schedCmd s m w) := by
  unfold State.schedCmd
  with_reducible repeat' first | assumption | apply schedCommit_keeps | apply schedCancel_keeps | apply Keeps.ite

theorem sticky_keeps (h' code) (h : Keeps b s0 s) : Keeps b s0 (State.sticky s h' code) := by
  unfold State.sticky
  with_reducible repeat' first | assumption | apply wr_keeps

theorem setHearth_keeps (h' x) (h : Keeps b s0 s) : Keeps b s0 (State.setHearth s h' x) := by
  unfold State.setHearth
  with_reducible repeat' first | assumption | intro _ | rfl | dsimp only | apply Keeps.set

theorem faultAt_keeps (h' code pc) (h : Keeps b s0 s) : Keeps b s0 (State.faultAt s h' code pc) := by
  unfold State.faultAt
  with_reducible repeat' first | assumption | apply sticky_keeps | apply setHearth_keeps

theorem setBank_keeps (b' x) (h : Keeps b s0 s) : Keeps b s0 (State.setBank s b' x) := by
  unfold State.setBank
  with_reducible repeat' first | assumption | intro _ | rfl | dsimp only | apply Keeps.set

theorem tramWrite_keeps (i v) (h : Keeps b s0 s) : Keeps b s0 (State.tramWrite s i v) := by
  unfold State.tramWrite
  with_reducible repeat' first | assumption | intro _ | apply wr_keeps | rfl | dsimp only | apply Keeps.set

theorem issue_keeps (n p c) {f : State → Hearth → State × Hearth} (hf : ∀ x, Keeps b s0 (f s x).1) (h : Keeps b s0 s) : Keeps b s0 (s.issue n p c f) := by
  unfold State.issue
  with_reducible repeat' first | assumption | intro _ | apply hf | apply setHearth_keeps | apply Keeps.ite

theorem issueH_keeps (n p c) {f : Hearth → Hearth} (h : Keeps b s0 s) : Keeps b s0 (s.issueH n p c f) := issue_keeps n p c (fun _ => h) h

theorem tramCount_keeps (i) (h : Keeps b s0 s) : Keeps b s0 (State.tramCount s i) := by
  unfold State.tramCount
  with_reducible repeat' first | assumption | apply bump_keeps | apply Keeps.ite

theorem freeWords_keeps (n) (h : Keeps b s0 s) : Keeps b s0 (s.freeWords n).2 := by
  induction n generalizing s with
  | zero => exact h
  | succ n ih => exact ih (free_keeps h)

theorem prpFrame_keeps (k vals head data) (h : Keeps b s0 s) : Keeps b s0 (State.prpFrame s k vals head data).2 := by
  unfold State.prpFrame
  with_reducible repeat' first | assumption | intro _ | rfl | dsimp only | apply Keeps.set

theorem udpFrame_keeps (k vals d data) (h : Keeps b s0 s) : Keeps b s0 (State.udpFrame s k vals d data).2 := by
  unfold State.udpFrame
  with_reducible repeat' first | assumption | apply freeWords_keeps | apply prpFrame_keeps

theorem uplinkSend_keeps (k vals d data) (h : Keeps b s0 s) : Keeps b s0 (State.uplinkSend s k vals d data) := by
  unfold State.uplinkSend
  with_reducible repeat' first | assumption | apply udpFrame_keeps | apply txSend_keeps | apply Keeps.ite

theorem hostSend_keeps (k words) (h : Keeps b s0 s) : Keeps b s0 (State.hostSend s k words) := by
  unfold State.hostSend
  with_reducible repeat' first | assumption | apply freeWords_keeps | apply uplinkSend_keeps

theorem ptpOut_keeps (k u vals type corr seq ctl body) (h : Keeps b s0 s) : Keeps b s0 (State.ptpOut s k u vals type corr seq ctl body) := by
  unfold State.ptpOut
  with_reducible repeat' first | assumption | intro _ | apply freeWords_keeps | apply Keeps.ite | apply Keeps.ite1 | apply Keeps.ite2 | apply Keeps.ite22 | rfl | split | dsimp only | apply Keeps.set

theorem laneOut_keeps (k l data bs) (h : Keeps b s0 s) : Keeps b s0 (State.laneOut s k l data bs).2 := by
  unfold State.laneOut
  with_reducible repeat' first | assumption | apply free_keeps

theorem frameSend_keeps (l data head payload) (h : Keeps b s0 s) : Keeps b s0 (State.frameSend s l data head payload) := by
  unfold State.frameSend
  with_reducible repeat' first | assumption | apply laneOut_keeps | apply txSend_keeps

theorem slateSend_keeps (data payload) (h : Keeps b s0 s) : Keeps b s0 (State.slateSend s data payload) := by
  unfold State.slateSend
  with_reducible repeat' first | assumption | apply txSend_keeps

theorem blocksOut_keeps (k l data bs) (h : Keeps b s0 s) : Keeps b s0 (State.blocksOut s k l data bs) := by
  unfold State.blocksOut
  with_reducible repeat' first | assumption | intro _ | apply laneOut_keeps | rfl | dsimp only | apply Keeps.set

theorem mirrorSend_keeps (rtype m data) (h : Keeps b s0 s) : Keeps b s0 (State.mirrorSend s rtype m data) := by
  unfold State.mirrorSend
  with_reducible repeat' first | assumption | apply slateSend_keeps

theorem gapMarks_keeps (g) (h : Keeps b s0 s) : Keeps b s0 (State.gapMarks s g) := by
  unfold State.gapMarks
  with_reducible repeat' first | assumption | intro _ | rfl | dsimp only | apply Keeps.set

theorem setGpe_keeps (c) (h : Keeps b s0 s) : Keeps b s0 (State.setGpe s c) := by
  unfold State.setGpe
  with_reducible repeat' first | assumption | intro _ | rfl | dsimp only | apply Keeps.set

theorem gpeReach_keeps (c p) (h : Keeps b s0 s) : Keeps b s0 (State.gpeReach s c p) := by
  unfold State.gpeReach
  with_reducible repeat' first | assumption | intro _ | apply setGpe_keeps | apply Keeps.ite | apply Keeps.ite1 | apply Keeps.ite2 | apply Keeps.ite22 | rfl | dsimp only | apply Keeps.set

theorem mirror_keeps (rtype data) (h : Keeps b s0 s) : Keeps b s0 (State.mirror s rtype data) := by
  unfold State.mirror
  with_reducible repeat' first | assumption | intro _ | apply mirrorSend_keeps | apply Keeps.ite | apply Keeps.ite1 | apply Keeps.ite2 | apply Keeps.ite22 | rfl | dsimp only | apply Keeps.set

theorem gpeAwait_keeps (c p) (h : Keeps b s0 s) : Keeps b s0 (State.gpeAwait s c p) := by
  unfold State.gpeAwait
  with_reducible repeat' first | assumption | intro _ | rfl | dsimp only | apply Keeps.set

theorem gapGpe_keeps (g) (h : Keeps b s0 s) : Keeps b s0 (State.gapGpe s g) := by
  unfold State.gapGpe
  with_reducible repeat' first | assumption | apply gpeAwait_keeps | apply setGpe_keeps | apply Keeps.ite

theorem gapExtend_length {g : Gap} {l l' : List Gap} (e : s.gapExtend g l = some l') : l'.length = l.length := by
  induction l generalizing l' with
  | nil => cases e
  | cons p r ih =>
    unfold State.gapExtend at e
    dsimp only at e
    generalize (if g.queueWide then p.queueWide && p.queue == g.queue else !p.queueWide && p.ch == g.ch) = m at e
    cases m
    · obtain ⟨m, hm, rfl⟩ := Option.map_eq_some_iff.1 e
      rw [List.length_cons, List.length_cons, ih hm]
    · by_cases hf : s.gapFollows p g
      · rw [if_pos rfl, if_pos hf] at e; cases e; rfl
      · rw [if_pos rfl, if_neg hf] at e; cases e

theorem gapHeld_keeps (g) (h : Keeps b s0 s) : Keeps b s0 (s.gapHeld g) := by
  unfold State.gapHeld
  have h1 : Keeps b s0 (s.gapMarks g) := by
    with_reducible repeat' first | assumption | intro _ | apply gapMarks_keeps
  dsimp only
  generalize s.gapMarks g = x at h1 ⊢
  split
  · next hl =>
    split
    all_goals
      apply Keeps.any h1
      · intro _; rfl
      · exact id
      · exact id
      · intro _; rw [List.length_append, List.length_singleton]; omega
  · split
    · next e =>
      apply Keeps.any h1
      · intro _; rfl
      · exact id
      · exact id
      · intro hg; have := gapExtend_length e; rw [List.length_reverse] at this ⊢; omega
    · with_reducible repeat' first | assumption | intro _ | apply emit_keeps | apply Keeps.ite | apply Keeps.ite1 | apply Keeps.ite2 | apply Keeps.ite22 | rfl | apply Keeps.foldl | apply Keeps.foldl1 | apply Keeps.foldl2 | apply Keeps.forNat | split | dsimp only | apply Keeps.set

theorem gap_keeps (g) (h : Keeps b s0 s) : Keeps b s0 (State.gap s g) := by
  unfold State.gap
  with_reducible repeat' first | assumption | apply gapHeld_keeps | apply gapGpe_keeps

theorem envExceeded_keeps (c addr master) (h : Keeps b s0 s) : Keeps b s0 (State.envExceeded s c addr master) := by
  unfold State.envExceeded
  with_reducible repeat' first | assumption | apply emit_keeps

theorem takeGpe_keeps (c) (h : Keeps b s0 s) : Keeps b s0 (State.takeGpe s c).2 := by
  unfold State.takeGpe
  with_reducible repeat' first | assumption | intro _ | rfl | dsimp only | apply Keeps.set

theorem cmReset_keeps (c) (h : Keeps b s0 s) : Keeps b s0 (State.cmReset s c) := by
  unfold State.cmReset
  with_reducible repeat' first | assumption | intro _ | rfl | dsimp only | apply Keeps.set

theorem corrStart_keeps (c) (h : Keeps b s0 s) : Keeps b s0 (State.corrStart s c) := by
  unfold State.corrStart
  with_reducible repeat' first | assumption | intro _ | rfl | dsimp only | apply Keeps.set

theorem excComply_keeps (d force) (h : Keeps b s0 s) : Keeps b s0 (State.excComply s d force) := by
  unfold State.excComply
  with_reducible repeat' first | assumption | intro _ | apply wb_keeps | apply emit_keeps | apply Keeps.ite | apply Keeps.ite1 | apply Keeps.ite2 | apply Keeps.ite22 | rfl | dsimp only | apply Keeps.set

theorem sessConfig_keeps (l) (h : Keeps b s0 s) : Keeps b s0 (State.sessConfig s l) := by
  unfold State.sessConfig
  with_reducible repeat' first | assumption | intro _ | apply Keeps.ite | apply Keeps.ite1 | apply Keeps.ite2 | apply Keeps.ite22 | rfl | dsimp only | apply Keeps.set

theorem rampTo_keeps (d target) (h : Keeps b s0 s) : Keeps b s0 (State.rampTo s d target) := by
  unfold State.rampTo
  with_reducible repeat' first | assumption | intro _ | apply Keeps.ite | apply Keeps.ite1 | apply Keeps.ite2 | apply Keeps.ite22 | rfl | dsimp only | apply Keeps.set

theorem calRefresh_keeps (c t') (h : Keeps b s0 s) : Keeps b s0 (State.calRefresh s c t') := by
  unfold State.calRefresh
  with_reducible repeat' first | assumption | intro _ | apply wb_keeps | apply wfs_keeps | apply Keeps.ite | apply Keeps.ite1 | apply Keeps.ite2 | apply Keeps.ite22 | rfl | split | dsimp only | apply Keeps.set

theorem driverSet_keeps (d) (h : Keeps b s0 s) : Keeps b s0 (State.driverSet s d) := by
  unfold State.driverSet
  with_reducible repeat' first | assumption | apply wb_keeps | apply rampTo_keeps

theorem exTaken_keeps (d old new) (h : Keeps b s0 s) : Keeps b s0 (State.exTaken s d old new) := by
  unfold State.exTaken
  with_reducible repeat' first | assumption | intro _ | apply wf_keeps | apply sessConfig_keeps | apply driverSet_keeps | apply emit_keeps | apply fenceHit_keeps | apply Keeps.ite | apply Keeps.ite1 | apply Keeps.ite2 | apply Keeps.ite22 | rfl | dsimp only | apply Keeps.set

theorem linTaken_keeps (c old new) (h : Keeps b s0 s) : Keeps b s0 (State.linTaken s c old new) := by
  unfold State.linTaken
  with_reducible repeat' first | assumption | intro _ | apply Keeps.ite | apply Keeps.ite1 | apply Keeps.ite2 | apply Keeps.ite22 | rfl | dsimp only | apply Keeps.set

theorem supply_keeps (x w) (h : Keeps b s0 s) : Keeps b s0 (State.supply s x w) := by
  unfold State.supply
  with_reducible repeat' first | assumption | intro _ | apply Keeps.ite | apply Keeps.ite1 | apply Keeps.ite2 | apply Keeps.ite22 | rfl | dsimp only | apply Keeps.set

theorem cmClear_keeps (c) (h : Keeps b s0 s) : Keeps b s0 (State.cmClear s c) := by
  unfold State.cmClear
  with_reducible repeat' first | assumption | apply emit_keeps | apply wf_keeps | apply Keeps.ite

theorem settle_keeps (c ns) (h : Keeps b s0 s) : Keeps b s0 (State.settle s c ns) := by
  unfold State.settle
  with_reducible repeat' first | assumption | intro _ | apply cmClear_keeps | apply cmReset_keeps | apply wf_keeps | rfl | dsimp only | apply Keeps.set

theorem cfgTaken_keeps (c old new) (h : Keeps b s0 s) : Keeps b s0 (State.cfgTaken s c old new) := by
  unfold State.cfgTaken
  with_reducible repeat' first | assumption | intro _ | apply sessConfig_keeps | apply settle_keeps | apply corrStart_keeps | apply wr_keeps | apply wf_keeps | apply calRefresh_keeps | apply Keeps.ite | apply Keeps.ite1 | apply Keeps.ite2 | apply Keeps.ite22 | rfl | dsimp only | apply Keeps.set

theorem cmCheck_keeps (c mv) (h : Keeps b s0 s) : Keeps b s0 (State.cmCheck s c mv) := by
  unfold State.cmCheck
  with_reducible repeat' first | assumption | intro _ | apply emit_keeps | apply bump_keeps | apply wf_keeps | apply cmClear_keeps | apply Keeps.ite | apply Keeps.ite1 | apply Keeps.ite2 | apply Keeps.ite22 | rfl | dsimp only | apply Keeps.set

theorem utSelect_keeps (m due sel) (h : Keeps b s0 s) : Keeps b s0 (State.utSelect s m due sel) := by
  unfold State.utSelect
  with_reducible repeat' first | assumption | apply hold_keeps | apply emit_keeps | apply Keeps.ite

theorem tiaSwitch_keeps (c tia) (h : Keeps b s0 s) : Keeps b s0 (State.tiaSwitch s c tia) := by
  unfold State.tiaSwitch
  with_reducible repeat' first | assumption | apply setNow_keeps | apply emit_keeps | apply cfgTaken_keeps

theorem setTile_keeps (t' x) (h : Keeps b s0 s) : Keeps b s0 (State.setTile s t' x) := by
  unfold State.setTile
  with_reducible repeat' first | assumption | intro _ | rfl | dsimp only | apply Keeps.set

theorem coreState_keeps (n p v) (h : Keeps b s0 s) : Keeps b s0 (State.coreState s n p v) := by
  unfold State.coreState
  with_reducible repeat' first | assumption | apply wf_keeps

theorem setDuty_keeps (d x) (h : Keeps b s0 s) : Keeps b s0 (State.setDuty s d x) := by
  unfold State.setDuty
  with_reducible repeat' first | assumption | intro _ | rfl | dsimp only | apply Keeps.set

theorem setVisit_keeps (n x) (h : Keeps b s0 s) : Keeps b s0 (State.setVisit s n x) := by
  unfold State.setVisit
  with_reducible repeat' first | assumption | intro _ | rfl | dsimp only | apply Keeps.set

theorem handOver_keeps (n k v) (h : Keeps b s0 s) : Keeps b s0 (State.handOver s n k v) := by
  unfold State.handOver
  with_reducible repeat' first | assumption | intro _ | apply wf_keeps | apply coreState_keeps | apply setDuty_keeps | apply setVisit_keeps | apply Keeps.ite | apply Keeps.ite1 | apply Keeps.ite2 | apply Keeps.ite22 | rfl | apply Keeps.foldl | apply Keeps.foldl1 | apply Keeps.foldl2 | split | dsimp only | apply Keeps.set

theorem visitResult_keeps (n r) (h : Keeps b s0 s) : Keeps b s0 (State.visitResult s n r) := by
  unfold State.visitResult
  with_reducible repeat' first | assumption | apply wf_keeps

theorem setRun_keeps (t' x) (h : Keeps b s0 s) : Keeps b s0 (State.setRun s t' x) := by
  unfold State.setRun
  with_reducible repeat' first | assumption | intro _ | rfl | dsimp only | apply Keeps.set

theorem startRun_keeps (n p) (h : Keeps b s0 s) : Keeps b s0 (State.startRun s n p) := by
  unfold State.startRun
  with_reducible repeat' first | assumption | apply coreState_keeps | apply setRun_keeps

theorem tryRun_keeps (n p) (h : Keeps b s0 s) : Keeps b s0 (State.tryRun s n p) := by
  unfold State.tryRun
  with_reducible repeat' first | assumption | apply startRun_keeps | apply Keeps.ite

theorem visitPass_keeps (n k tm v) (h : Keeps b s0 s) : Keeps b s0 (State.visitPass s n k tm v) := by
  unfold State.visitPass
  with_reducible repeat' first | assumption | intro _ | apply emit_keeps | apply handOver_keeps | apply visitResult_keeps | apply tryRun_keeps | apply Keeps.ite | apply Keeps.ite1 | apply Keeps.ite2 | apply Keeps.ite22 | rfl | dsimp only | apply Keeps.set

theorem endVisit_keeps (n r) (h : Keeps b s0 s) : Keeps b s0 (State.endVisit s n r) := by
  unfold State.endVisit
  with_reducible repeat' first | assumption | apply coreState_keeps | apply visitResult_keeps | apply wf_keeps | apply setVisit_keeps

theorem visitFail_keeps (n k) (h : Keeps b s0 s) : Keeps b s0 (State.visitFail s n k) := by
  unfold State.visitFail
  with_reducible repeat' first | assumption | apply endVisit_keeps | apply wf_keeps | apply setDuty_keeps | apply emit_keeps

theorem visitBoundary_keeps (n t') (h : Keeps b s0 s) : Keeps b s0 (State.visitBoundary s n t') := by
  unfold State.visitBoundary
  with_reducible repeat' first | assumption | apply tryRun_keeps | apply endVisit_keeps | apply handOver_keeps | apply visitPass_keeps | apply visitFail_keeps | apply Keeps.ite | split

theorem unrequest_keeps (n p) (h : Keeps b s0 s) : Keeps b s0 (State.unrequest s n p) := by
  unfold State.unrequest
  with_reducible repeat' first | assumption | intro _ | apply wf_keeps | apply Keeps.ite | apply Keeps.ite1 | apply Keeps.ite2 | apply Keeps.ite22 | rfl | dsimp only | apply Keeps.set

theorem visitCancel_keeps (n) (h : Keeps b s0 s) : Keeps b s0 (State.visitCancel s n) := by
  unfold State.visitCancel
  with_reducible repeat' first | assumption | apply setVisit_keeps | apply visitResult_keeps | apply unrequest_keeps | apply Keeps.ite | split

theorem request_keeps (r) (h : Keeps b s0 s) : Keeps b s0 (State.request s r) := by
  unfold State.request
  with_reducible repeat' first | assumption | intro _ | apply wf_keeps | apply Keeps.ite | apply Keeps.ite1 | apply Keeps.ite2 | apply Keeps.ite22 | rfl | split | dsimp only | apply Keeps.set

theorem tempTrigger_keeps (h : Keeps b s0 s) : Keeps b s0 (State.tempTrigger s) := by
  unfold State.tempTrigger
  with_reducible repeat' first | assumption | intro _ | apply request_keeps | apply Keeps.ite | apply Keeps.foldl

theorem setCore_keeps (q x) (h : Keeps b s0 s) : Keeps b s0 (State.setCore s q x) := by
  unfold State.setCore
  with_reducible repeat' first | assumption | intro _ | rfl | dsimp only | apply Keeps.set

theorem estDrop_keeps (q) (h : Keeps b s0 s) : Keeps b s0 (State.estDrop s q) := by
  unfold State.estDrop
  with_reducible repeat' first | assumption | apply setCore_keeps | apply Keeps.ite

theorem estFeed_keeps (x bad) (h : Keeps b s0 s) : Keeps b s0 (State.estFeed s x bad) := by
  unfold State.estFeed
  with_reducible repeat' first | assumption | apply estDrop_keeps | apply setCore_keeps | apply Keeps.ite

theorem visitBegin_keeps (t') (h : Keeps b s0 s) : Keeps b s0 (State.visitBegin s t') := by
  unfold State.visitBegin
  with_reducible repeat' first | assumption | apply unrequest_keeps | apply setVisit_keeps | apply wf_keeps | apply coreState_keeps | apply startRun_keeps | apply Keeps.ite | split

theorem estimate_keeps (q b') (h : Keeps b s0 s) : Keeps b s0 (State.estimate s q b') := by
  unfold State.estimate
  with_reducible repeat' first | assumption | intro _ | apply bumpWrap_keeps | apply emit_keeps | apply wf_keeps | apply request_keeps | apply setCore_keeps | apply Keeps.ite | apply Keeps.ite1 | apply Keeps.ite2 | apply Keeps.ite22 | rfl | split | dsimp only

theorem matchCheck_keeps (n) (h : Keeps b s0 s) : Keeps b s0 (State.matchCheck s n) := by
  unfold State.matchCheck
  with_reducible repeat' first | assumption | intro _ | apply wf_keeps | apply wfs_keeps | apply setVisit_keeps | apply Keeps.ite | apply Keeps.foldl | split

theorem putMis_keeps (q ofs gain skew) (h : Keeps b s0 s) : Keeps b s0 (State.putMis s q ofs gain skew) := by
  unfold State.putMis
  with_reducible repeat' first | assumption | apply setNow_keeps

theorem visitDoubt_keeps (n r v) (h : Keeps b s0 s) : Keeps b s0 (State.visitDoubt s n r v) := by
  unfold State.visitDoubt
  with_reducible repeat' first | assumption | apply endVisit_keeps | apply setVisit_keeps | apply Keeps.ite

theorem visitsDown_keeps (t') (h : Keeps b s0 s) : Keeps b s0 (State.visitsDown s t') := by
  unfold State.visitsDown
  with_reducible repeat' first | assumption | intro _ | apply visitDoubt_keeps | apply setRun_keeps | apply Keeps.ite | apply Keeps.foldl | split

theorem shadowConv_keeps (p c inst next y rec' ovl) (h : Keeps b s0 s) : Keeps b s0 (s.shadowConv p c inst next y rec' ovl).2 := by
  unfold State.shadowConv
  split
  · with_reducible apply setCore_keeps
    with_reducible apply Keeps.set h
    · intro _; rfl
    · rfl
    · rfl
    · rfl
  · exact h

theorem convertAt_keeps (c d sec j inst next input ovr spare) (h : Keeps b s0 s) :
    Keeps b s0 (s.convertAt c d sec j inst next input ovr spare) := by
  unfold State.convertAt
  dsimp only
  with_reducible apply Keeps.set
  · with_reducible apply wb_keeps
    with_reducible apply shadowConv_keeps
    have h1 (k) : Keeps b s0 (s.setCore (3 * (d / 2) + s.holder (d / 2) (d % 2)) k) := setCore_keeps _ _ h
    with_reducible apply Keeps.ite (h1 _)
    with_reducible apply Keeps.set (h1 _)
    · intro _; rfl
    · rfl
    · rfl
    · rfl
  · intro _; rfl
  · rfl
  · rfl
  · rfl

theorem convert_keeps (c j old input ovr spare) (h : Keeps b s0 s) : Keeps b s0 (State.convert s c j old input ovr spare) := by
  unfold State.convert
  with_reducible repeat' first | assumption | apply convertAt_keeps | apply Keeps.ite

theorem estBoundary_keeps (q) (h : Keeps b s0 s) : Keeps b s0 (State.estBoundary s q) := by
  unfold State.estBoundary
  with_reducible repeat' first | assumption | intro _ | apply putMis_keeps | apply setCore_keeps | apply Keeps.ite | apply Keeps.ite1 | apply Keeps.ite2 | apply Keeps.ite22 | rfl | split

theorem coreCalDone_keeps (t' m0 m1 ovl) (h : Keeps b s0 s) : Keeps b s0 (State.coreCalDone s t' m0 m1 ovl) := by
  unfold State.coreCalDone
  with_reducible repeat' first | assumption | apply setVisit_keeps | apply setRun_keeps | apply wf_keeps | apply bumpWrap_keeps | apply wfs_keeps | apply wr_keeps | apply putMis_keeps | apply wf64_keeps | apply setCore_keeps | apply coreState_keeps | apply emit_keeps | apply visitResult_keeps | apply bump_keeps | apply Keeps.ite | split

theorem estBlock_keeps (q) (h : Keeps b s0 s) : Keeps b s0 (State.estBlock s q) := by
  unfold State.estBlock
  with_reducible repeat' first | assumption | apply setCore_keeps | apply estimate_keeps | apply Keeps.ite | split

theorem scanTaken_keeps (d old new) (h : Keeps b s0 s) : Keeps b s0 (State.scanTaken s d old new) := by
  unfold State.scanTaken
  with_reducible repeat' first | assumption | intro _ | apply setDuty_keeps | apply sessConfig_keeps | apply visitDoubt_keeps | apply Keeps.ite | apply Keeps.ite1 | apply Keeps.ite2 | apply Keeps.ite22 | rfl | split | dsimp only

theorem visitWrite_keeps (n w) (h : Keeps b s0 s) : Keeps b s0 (State.visitWrite s n w) := by
  unfold State.visitWrite
  with_reducible repeat' first | assumption | apply request_keeps | apply visitCancel_keeps | apply Keeps.ite

theorem calRecord_keeps (c t' cert temp trace) (h : Keeps b s0 s) : Keeps b s0 (State.calRecord s c t' cert temp trace) := by
  unfold State.calRecord
  with_reducible repeat' first | assumption | intro _ | apply wr_keeps | apply wf_keeps | apply wf64_keeps | apply Keeps.ite | apply Keeps.foldl

theorem applyPair_keeps (c t' g b') (h : Keeps b s0 s) : Keeps b s0 (State.applyPair s c t' g b') := by
  unfold State.applyPair
  with_reducible repeat' first | assumption | intro _ | apply calRefresh_keeps | apply Keeps.ite | apply Keeps.ite1 | apply Keeps.ite2 | apply Keeps.ite22 | rfl | dsimp only | apply Keeps.set

theorem keepRemote_keeps (c t' g b') (h : Keeps b s0 s) : Keeps b s0 (State.keepRemote s c t' g b') := by
  unfold State.keepRemote
  with_reducible repeat' first | assumption | intro _ | apply mirror_keeps | apply Keeps.ite | apply Keeps.ite1 | apply Keeps.ite2 | apply Keeps.ite22 | rfl | dsimp only | apply Keeps.set

theorem sessionEnd_keeps (t' x forced) (h : Keeps b s0 s) : Keeps b s0 (State.sessionEnd s t' x forced) := by
  unfold State.sessionEnd
  with_reducible repeat' first | assumption | intro _ | apply wf_keeps | apply calRecord_keeps | apply applyPair_keeps | apply keepRemote_keeps | apply emit_keeps | apply Keeps.ite | apply Keeps.ite1 | apply Keeps.ite2 | apply Keeps.ite22 | rfl | apply Keeps.foldl | apply Keeps.foldl1 | apply Keeps.foldl2 | split | dsimp only | apply Keeps.set

theorem senseBoundary_keeps (h : Keeps b s0 s) : Keeps b s0 (State.senseBoundary s) := by
  unfold State.senseBoundary
  with_reducible repeat' first | assumption | intro _ | rfl | apply Keeps.foldl | apply Keeps.foldl1 | apply Keeps.foldl2 | dsimp only | apply Keeps.set

theorem calEnding_keeps (reason) (h : Keeps b s0 s) : Keeps b s0 (State.calEnding s reason) := by
  unfold State.calEnding
  with_reducible repeat' first | assumption | intro _ | apply wf_keeps | rfl | dsimp only | apply Keeps.set

theorem calLoad_keeps (c t') (h : Keeps b s0 s) : Keeps b s0 (State.calLoad s c t') := by
  unfold State.calLoad
  with_reducible repeat' first | assumption | apply emit_keeps | apply calRecord_keeps | apply keepRemote_keeps | apply applyPair_keeps | apply Keeps.ite

theorem slewsCut_keeps (t') (h : Keeps b s0 s) : Keeps b s0 (State.slewsCut s t') := by
  unfold State.slewsCut
  with_reducible repeat' first | assumption | intro _ | apply Keeps.ite | apply Keeps.ite1 | apply Keeps.ite2 | apply Keeps.ite22 | rfl | dsimp only | apply Keeps.set

theorem calCompute_keeps (span y) (h : Keeps b s0 s) : Keeps b s0 (State.calCompute s span y).2 := by
  unfold State.calCompute
  with_reducible repeat' first | assumption | intro _ | apply free_keeps | apply wf_keeps | apply wfs_keeps | apply Keeps.ite | apply Keeps.ite1 | apply Keeps.ite2

theorem calAbort_keeps (h : Keeps b s0 s) : Keeps b s0 (State.calAbort s) := by
  unfold State.calAbort
  with_reducible repeat' first | assumption | apply emit_keeps | apply calEnding_keeps | apply Keeps.ite

theorem calComputeAll_keeps (sp) (l : List SessCh) (h : Keeps b s0 s) : Keeps b s0 (s.calComputeAll sp l).2 := by
  induction l generalizing s with
  | nil => exact h
  | cons x r ih => exact ih (calCompute_keeps _ _ h)

theorem startFull_keeps (first) (h : Keeps b s0 s) : Keeps b s0 (State.startFull s first) := by
  unfold State.startFull
  with_reducible repeat' first | assumption | intro _ | apply wf_keeps | apply emit_keeps | apply Keeps.ite | apply Keeps.ite1 | apply Keeps.ite2 | apply Keeps.ite22 | rfl | split | dsimp only | apply Keeps.set

theorem startZero_keeps (first) (h : Keeps b s0 s) : Keeps b s0 (State.startZero s first) := by
  unfold State.startZero
  with_reducible repeat' first | assumption | intro _ | apply emit_keeps | apply wf_keeps | apply Keeps.ite | apply Keeps.ite1 | apply Keeps.ite2 | apply Keeps.ite22 | rfl | apply Keeps.foldl | apply Keeps.foldl1 | apply Keeps.foldl2 | dsimp only | apply Keeps.set

theorem calBoundary_keeps (t') (h : Keeps b s0 s) : Keeps b s0 (State.calBoundary s t') := by
  unfold State.calBoundary
  with_reducible repeat' first | assumption | intro _ | apply sessionEnd_keeps | apply emit_keeps | apply Keeps.ite | apply Keeps.ite1 | apply Keeps.ite2 | apply Keeps.ite22 | rfl | split | dsimp only | apply Keeps.set

theorem senseCycle_keeps (t' l) (h : Keeps b s0 s) : Keeps b s0 (State.senseCycle s t' l) := by
  unfold State.senseCycle
  with_reducible repeat' first | assumption | intro _ | apply wf_keeps | apply wb_keeps | apply emit_keeps | apply setRun_keeps | apply Keeps.ite | apply Keeps.ite1 | apply Keeps.ite2 | apply Keeps.ite22 | rfl | apply Keeps.foldl | apply Keeps.foldl1 | apply Keeps.foldl2 | split | dsimp only | apply Keeps.set

theorem calPhaseEnd_keeps (h : Keeps b s0 s) : Keeps b s0 (State.calPhaseEnd s) := by
  unfold State.calPhaseEnd
  with_reducible repeat' first | assumption | intro _ | apply wf_keeps | apply calComputeAll_keeps | apply Keeps.ite | apply Keeps.ite1 | apply Keeps.ite2 | apply Keeps.ite22 | rfl | split | dsimp only | apply Keeps.set

theorem calFinish_keeps (h : Keeps b s0 s) : Keeps b s0 (State.calFinish s) := by
  unfold State.calFinish
  with_reducible repeat' first | assumption | apply calEnding_keeps | apply emit_keeps | apply calAbort_keeps | apply Keeps.ite

theorem sessValue_keeps (c t' v ovl cmf) (h : Keeps b s0 s) : Keeps b s0 (State.sessValue s c t' v ovl cmf) := by
  unfold State.sessValue
  with_reducible repeat' first | assumption | intro _ | apply Keeps.ite | apply Keeps.ite1 | apply Keeps.ite2 | apply Keeps.ite22 | rfl | split | dsimp only | apply Keeps.set

theorem calCmd_keeps (timed w) (h : Keeps b s0 s) : Keeps b s0 (State.calCmd s timed w) := by
  unfold State.calCmd
  with_reducible repeat' first | assumption | apply emit_keeps | apply startZero_keeps | apply startFull_keeps | apply calFinish_keeps | apply calAbort_keeps | apply Keeps.ite

theorem setPath_keeps (c p) (h : Keeps b s0 s) : Keeps b s0 (State.setPath s c p) := by
  unfold State.setPath
  with_reducible repeat' first | assumption | intro _ | rfl | dsimp only | apply Keeps.set

theorem delayGap_keeps (c k out) (h : Keeps b s0 s) : Keeps b s0 (State.delayGap s c k out) := by
  unfold State.delayGap
  with_reducible repeat' first | assumption | intro _ | apply gap_keeps | apply gapHeld_keeps | apply setPath_keeps | apply Keeps.ite | apply Keeps.ite1 | apply Keeps.ite2 | apply Keeps.ite22 | rfl | split

theorem showFilling_keeps (c) (h : Keeps b s0 s) : Keeps b s0 (State.showFilling s c) := by
  unfold State.showFilling
  with_reducible repeat' first | assumption | apply wb_keeps

theorem codeRealign_keeps (t' c k) (h : Keeps b s0 s) : Keeps b s0 (State.codeRealign s t' c k) := by
  unfold State.codeRealign
  with_reducible repeat' first | assumption | intro _ | apply Keeps.ite | apply Keeps.ite1 | apply Keeps.ite2 | apply Keeps.ite22 | rfl | dsimp only | apply Keeps.set

theorem setDet_keeps (d x) (h : Keeps b s0 s) : Keeps b s0 (State.setDet s d x) := by
  unfold State.setDet
  with_reducible repeat' first | assumption | intro _ | rfl | dsimp only | apply Keeps.set

theorem detTaken_keeps (d) (h : Keeps b s0 s) : Keeps b s0 (State.detTaken s d) := by
  unfold State.detTaken
  with_reducible repeat' first | assumption | intro _ | apply setDet_keeps | apply Keeps.ite | apply Keeps.ite1 | apply Keeps.ite2 | apply Keeps.ite22 | rfl | dsimp only | apply Keeps.set

theorem envZero_keeps (c) (h : Keeps b s0 s) : Keeps b s0 (State.envZero s c) := by
  unfold State.envZero
  with_reducible repeat' first | assumption | intro _ | apply Keeps.ite | apply Keeps.ite1 | apply Keeps.ite2 | apply Keeps.ite22 | rfl | dsimp only | apply Keeps.set

theorem showRho_keeps (c) (h : Keeps b s0 s) : Keeps b s0 (State.showRho s c) := by
  unfold State.showRho
  with_reducible repeat' first | assumption | apply wf64_keeps

theorem gdChange_keeps (c) (h : Keeps b s0 s) : Keeps b s0 (State.gdChange s c) := by
  unfold State.gdChange
  with_reducible repeat' first | assumption | apply showRho_keeps | apply emit_keeps

theorem chrSwapDecide_keeps (b') (h : Keeps b s0 s) : Keeps b s0 (State.chrSwapDecide s b') := by
  unfold State.chrSwapDecide
  with_reducible repeat' first | assumption | intro _ | apply emit_keeps | apply wf_keeps | apply bump_keeps | apply bumpWrap_keeps | apply gdChange_keeps | apply Keeps.ite | apply Keeps.foldl

theorem chrSwapBoundary_keeps (t') (h : Keeps b s0 s) : Keeps b s0 (State.chrSwapBoundary s t') := by
  unfold State.chrSwapBoundary
  with_reducible repeat' first | assumption | intro _ | apply emit_keeps | apply chrSwapDecide_keeps | apply wf_keeps | rfl | apply Keeps.foldl | apply Keeps.foldl1 | apply Keeps.foldl2 | split | dsimp only | apply Keeps.set

theorem restartGap_keeps (c p sec idx r) (h : Keeps b s0 s) : Keeps b s0 (State.restartGap s c p sec idx r) := by
  unfold State.restartGap
  with_reducible repeat' first | assumption | apply gap_keeps | apply Keeps.ite | split

theorem feedDets_keeps (c tap t' v st) (h : Keeps b s0 s) : Keeps b s0 (State.feedDets s c tap t' v st) := by
  unfold State.feedDets
  with_reducible repeat' first | assumption | intro _ | apply setDet_keeps | apply Keeps.ite | apply Keeps.foldl

theorem emitWord_keeps (c t' y extra seq) (h : Keeps b s0 s) : Keeps b s0 (State.emitWord s c t' y extra seq) := by
  unfold State.emitWord
  with_reducible repeat' first | assumption | intro _ | apply restartGap_keeps | apply takeGpe_keeps | apply bump_keeps | apply setPath_keeps | apply feedDets_keeps | apply Keeps.ite | apply Keeps.ite1 | apply Keeps.ite2 | apply Keeps.ite22 | rfl | dsimp only | apply Keeps.set

theorem feedLate_keeps (c t' x r3 seq w) (h : Keeps b s0 s) : Keeps b s0 (State.feedLate s c t' x r3 seq w) := by
  unfold State.feedLate
  with_reducible repeat' first | assumption | intro _ | apply setPath_keeps | apply emitWord_keeps | apply Keeps.ite | apply Keeps.ite1 | apply Keeps.ite2 | apply Keeps.ite22 | rfl | apply Keeps.foldl | apply Keeps.foldl1 | apply Keeps.foldl2 | split | dsimp only

theorem codeBoundary_keeps (t') (h : Keeps b s0 s) : Keeps b s0 (State.codeBoundary s t') := by
  unfold State.codeBoundary
  with_reducible repeat' first | assumption | intro _ | apply codeRealign_keeps | apply tiaSwitch_keeps | apply Keeps.ite | apply Keeps.ite1 | apply Keeps.ite2 | apply Keeps.ite22 | rfl | apply Keeps.foldl | apply Keeps.foldl1 | apply Keeps.foldl2 | split | dsimp only | apply Keeps.set

theorem chrRes_keeps (code detail) (h : Keeps b s0 s) : Keeps b s0 (State.chrRes s code detail) := by
  unfold State.chrRes
  with_reducible repeat' first | assumption | apply wf_keeps

theorem codeEnd_keeps (c) (h : Keeps b s0 s) : Keeps b s0 (State.codeEnd s c) := by
  unfold State.codeEnd
  with_reducible repeat' first | assumption | intro _ | apply wf_keeps | apply wr_keeps | apply emitWord_keeps | apply setPath_keeps | apply Keeps.ite | apply Keeps.ite1 | apply Keeps.ite2 | apply Keeps.ite22 | rfl | split | dsimp only | apply Keeps.set

theorem histWord_keeps (c t' inst w rate grid seq) (h : Keeps b s0 s) : Keeps b s0 (State.histWord s c t' inst w rate grid seq) := by
  unfold State.histWord
  with_reducible repeat' first | assumption | intro _ | apply Keeps.ite | apply Keeps.ite1 | apply Keeps.ite2 | apply Keeps.ite22 | rfl | dsimp only | apply Keeps.set

theorem feedHist_keeps (c t' x r1 y) (h : Keeps b s0 s) : Keeps b s0 (State.feedHist s c t' x r1 y) := by
  unfold State.feedHist
  with_reducible repeat' first | assumption | intro _ | apply setPath_keeps | apply histWord_keeps | apply Keeps.ite | apply Keeps.ite1 | apply Keeps.ite2 | apply Keeps.ite22 | rfl | split | dsimp only

theorem feedFrom2_keeps (c t' x r3 seq w) (h : Keeps b s0 s) : Keeps b s0 (State.feedFrom2 s c t' x r3 seq w) := by
  unfold State.feedFrom2
  with_reducible repeat' first | assumption | intro _ | apply setPath_keeps | apply feedLate_keeps | rfl | split | dsimp only

theorem feedLocal_keeps (c t' sec j v inv st) (h : Keeps b s0 s) : Keeps b s0 (State.feedLocal s c t' sec j v inv st) := by
  unfold State.feedLocal
  with_reducible repeat' first | assumption | intro _ | apply setPath_keeps | apply feedDets_keeps | apply feedHist_keeps | apply feedFrom2_keeps | apply Keeps.ite | apply Keeps.ite1 | apply Keeps.ite2 | apply Keeps.ite22 | rfl | split | dsimp only

theorem feedRemote_keeps (t' r) (h : Keeps b s0 s) : Keeps b s0 (State.feedRemote s t' r) := by
  unfold State.feedRemote
  with_reducible repeat' first | assumption | apply setGpe_keeps | apply sessValue_keeps | apply histWord_keeps | apply feedDets_keeps | apply setPath_keeps | apply feedFrom2_keeps | apply Keeps.ite

theorem sealDone_keeps (b') (h : Keeps b s0 s) : Keeps b s0 (State.sealDone s b') := by
  unfold State.sealDone
  with_reducible repeat' first | assumption | apply chrRes_keeps | apply wf_keeps | apply Keeps.ite

theorem delayStep_keeps (c out d) (h : Keeps b s0 s) : Keeps b s0 (State.delayStep s c out d) := by
  unfold State.delayStep
  with_reducible repeat' first | assumption | apply setPath_keeps | apply delayGap_keeps | apply Keeps.ite

theorem chrTaken_keeps (c o oldRate) (h : Keeps b s0 s) : Keeps b s0 (State.chrTaken s c o oldRate) := by
  unfold State.chrTaken
  with_reducible repeat' first | assumption | intro _ | apply envZero_keeps | apply setPath_keeps | apply delayStep_keeps | apply wb_keeps | apply gdChange_keeps | apply showRho_keeps | apply Keeps.ite | apply Keeps.ite1 | apply Keeps.ite2 | apply Keeps.ite22 | rfl | dsimp only | apply Keeps.set

theorem chrSeal_keeps (b') (h : Keeps b s0 s) : Keeps b s0 (State.chrSeal s b') := by
  unfold State.chrSeal
  with_reducible repeat' first | assumption | apply chrRes_keeps | apply wf_keeps | apply Keeps.ite

theorem detEnd_keeps (d) (h : Keeps b s0 s) : Keeps b s0 (State.detEnd s d) := by
  unfold State.detEnd
  with_reducible repeat' first | assumption | intro _ | apply setDet_keeps | apply Keeps.ite | apply Keeps.ite1 | apply Keeps.ite2 | apply Keeps.ite22 | rfl | split | dsimp only | apply Keeps.set

theorem chrEdit_keeps (b') (h : Keeps b s0 s) : Keeps b s0 (State.chrEdit s b') := by
  unfold State.chrEdit
  with_reducible repeat' first | assumption | apply chrRes_keeps | apply wf_keeps | apply Keeps.ite

theorem chrCtrl_keeps (w) (h : Keeps b s0 s) : Keeps b s0 (State.chrCtrl s w) := by
  unfold State.chrCtrl
  with_reducible repeat' first | assumption | apply chrEdit_keeps | apply chrSeal_keeps | apply Keeps.ite

theorem detBoundary_keeps (t') (h : Keeps b s0 s) : Keeps b s0 (State.detBoundary s t') := by
  unfold State.detBoundary
  with_reducible repeat' first | assumption | intro _ | apply setDet_keeps | apply Keeps.ite | apply Keeps.foldl | split

theorem feedCode_keeps (c inst x ovl st) (h : Keeps b s0 s) : Keeps b s0 (State.feedCode s c inst x ovl st) := by
  unfold State.feedCode
  with_reducible repeat' first | assumption | intro _ | apply Keeps.ite | apply Keeps.ite1 | apply Keeps.ite2 | apply Keeps.ite22 | rfl | split | dsimp only | apply Keeps.set

theorem chrJudge_keeps (c) (h : Keeps b s0 s) : Keeps b s0 (State.chrJudge s c) := by
  unfold State.chrJudge
  with_reducible repeat' first | assumption | apply wb_keeps | apply emit_keeps | apply setPath_keeps | apply showRho_keeps | apply envZero_keeps | apply Keeps.ite

theorem chrBankWrite_keeps (b' i w master) (h : Keeps b s0 s) : Keeps b s0 (State.chrBankWrite s b' i w master) := by
  unfold State.chrBankWrite
  with_reducible repeat' first | assumption | apply wr_keeps | apply emit_keeps | apply Keeps.ite

theorem chrSwapRequest_keeps (b') (h : Keeps b s0 s) : Keeps b s0 (State.chrSwapRequest s b') := by
  unfold State.chrSwapRequest
  with_reducible repeat' first | assumption | intro _ | apply chrSwapDecide_keeps | apply wf_keeps | apply Keeps.ite | apply Keeps.ite1 | apply Keeps.ite2 | apply Keeps.ite22 | rfl | dsimp only | apply Keeps.set

theorem takeCells_keeps (have' n) (h : Keeps b s0 s) : Keeps b s0 (State.takeCells s have' n).2 := by
  unfold State.takeCells
  with_reducible repeat' first | assumption | intro _ | apply wf_keeps | apply Keeps.ite | apply Keeps.ite1 | apply Keeps.ite2 | apply Keeps.ite22 | rfl | split | dsimp only | apply Keeps.set

theorem showDepth_keeps (q) (h : Keeps b s0 s) : Keeps b s0 (State.showDepth s q) := by
  unfold State.showDepth
  with_reducible repeat' first | assumption | apply wb_keeps | apply wf_keeps

theorem showQueue_keeps (q rise) (h : Keeps b s0 s) : Keeps b s0 (State.showQueue s q rise) := by
  unfold State.showQueue
  with_reducible repeat' first | assumption | apply showDepth_keeps | apply emit_keeps | apply wr_keeps | apply wf_keeps | apply Keeps.ite

theorem setQueue_keeps (q x) (h : Keeps b s0 s) : Keeps b s0 (State.setQueue s q x) := by
  unfold State.setQueue
  with_reducible repeat' first | assumption | intro _ | rfl | dsimp only | apply Keeps.set

theorem link_keeps (q words ranges banks) (h : Keeps b s0 s) : Keeps b s0 (State.link s q words ranges banks) := by
  unfold State.link
  with_reducible repeat' first | assumption | apply showQueue_keeps | apply bumpWrap_keeps | apply setQueue_keeps

theorem linkWhole_keeps (q ws) (h : Keeps b s0 s) : Keeps b s0 (State.linkWhole s q ws) := by
  unfold State.linkWhole
  with_reducible repeat' first | assumption | apply takeCells_keeps | apply link_keeps

theorem flushDone_keeps (q) (h : Keeps b s0 s) : Keeps b s0 (State.flushDone s q) := by
  unfold State.flushDone
  with_reducible repeat' first | assumption | intro _ | apply setQueue_keeps | apply wf_keeps | apply emit_keeps | apply Keeps.ite | apply Keeps.ite1 | apply Keeps.ite2 | apply Keeps.ite22 | rfl | split | dsimp only

theorem giveCells_keeps (l) (h : Keeps b s0 s) : Keeps b s0 (State.giveCells s l) := by
  unfold State.giveCells
  with_reducible repeat' first | assumption | intro _ | apply wf_keeps | rfl | apply Keeps.foldl | apply Keeps.foldl1 | apply Keeps.foldl2 | dsimp only | apply Keeps.set

end Sys2Proof.Machine
end

