-- ==== Sys2Proof/Laws/KeepsOps2.lean ====
section
/-!
SUPPORT. What the operations keep, part 2 of 5: one lemma each, in the order in which the operations call one another.
-/
namespace Sys2Proof.Machine

open Sys2Proof

variable {b : Bool} {s0 s t : State}

theorem showFull_keeps (h : Keeps b s0 s) : Keeps b s0 (State.showFull s) := by
  unfold State.showFull
  with_reducible repeat' first | assumption | apply emit_keeps | apply wf_keeps | apply Keeps.ite

theorem freeItem_keeps (q id) (h : Keeps b s0 s) : Keeps b s0 (State.freeItem s q id) := by
  unfold State.freeItem
  with_reducible repeat' first | assumption | intro _ | apply setQueue_keeps | apply wf_keeps | apply giveCells_keeps | apply showQueue_keeps | apply showFull_keeps | rfl | split | dsimp only

theorem finishItem_keeps (q) (h : Keeps b s0 s) : Keeps b s0 (State.finishItem s q) := by
  unfold State.finishItem
  with_reducible repeat' first | assumption | apply freeItem_keeps | apply Keeps.ite | split

theorem starve_keeps (r b') (h : Keeps b s0 s) : Keeps b s0 (State.starve s r b') := by
  unfold State.starve
  with_reducible repeat' first | assumption | apply emit_keeps | apply wf_keeps | apply Keeps.ite

theorem groupGap_keeps (q cause tick g) (h : Keeps b s0 s) : Keeps b s0 (State.groupGap s q cause tick g) := by
  unfold State.groupGap
  with_reducible repeat' first | assumption | apply gap_keeps | apply Keeps.ite

theorem ingress_keeps (q tick gs) (h : Keeps b s0 s) : Keeps b s0 (State.ingress s q tick gs) := by
  unfold State.ingress
  with_reducible repeat' first | assumption | intro _ | apply groupGap_keeps | apply linkWhole_keeps | apply Keeps.ite | apply Keeps.foldl

theorem xferDone_keeps (q fill) (h : Keeps b s0 s) : Keeps b s0 (State.xferDone s q fill) := by
  unfold State.xferDone
  with_reducible repeat' first | assumption | intro _ | apply giveCells_keeps | apply setQueue_keeps | apply wf_keeps | apply showDepth_keeps | apply showFull_keeps | apply Keeps.ite | apply Keeps.ite1 | apply Keeps.ite2 | apply Keeps.ite22 | rfl | dsimp only | apply Keeps.set

theorem rangeGap_keeps (q cause r) (h : Keeps b s0 s) : Keeps b s0 (State.rangeGap s q cause r) := by
  unfold State.rangeGap
  with_reducible repeat' first | assumption | intro _ | apply gap_keeps | rfl | dsimp only | apply Keeps.set

theorem gpeInQueue_keeps (q c n old) (h : Keeps b s0 s) : Keeps b s0 (State.gpeInQueue s q c n old) := by
  unfold State.gpeInQueue
  with_reducible repeat' first | assumption | intro _ | apply setQueue_keeps | rfl | split | dsimp only | apply Keeps.set

theorem itemGaps_keeps (q cause i) (h : Keeps b s0 s) : Keeps b s0 (State.itemGaps s q cause i) := by
  unfold State.itemGaps
  with_reducible repeat' first | assumption | intro _ | apply rangeGap_keeps | apply gpeInQueue_keeps | apply groupGap_keeps | apply Keeps.foldl | split

theorem flushQueue_keeps (q force) (h : Keeps b s0 s) : Keeps b s0 (State.flushQueue s q force) := by
  unfold State.flushQueue
  with_reducible repeat' first | assumption | intro _ | apply xferDone_keeps | apply itemGaps_keeps | apply freeItem_keeps | apply setQueue_keeps | apply giveCells_keeps | apply wf_keeps | apply flushDone_keeps | apply Keeps.ite | apply Keeps.foldl

theorem disableQueue_keeps (q) (h : Keeps b s0 s) : Keeps b s0 (State.disableQueue s q) := by
  unfold State.disableQueue
  with_reducible repeat' first | assumption | apply wf_keeps | apply flushQueue_keeps | apply Keeps.ite

theorem histSet_keeps (mib) (h : Keeps b s0 s) : Keeps b s0 (State.histSet s mib) := by
  unfold State.histSet
  with_reducible repeat' first | assumption | intro _ | apply emit_keeps | apply wf_keeps | apply Keeps.ite | apply Keeps.foldl

theorem loseMiddle_keeps (q) (h : Keeps b s0 s) : Keeps b s0 (State.loseMiddle s q) := by
  unfold State.loseMiddle
  with_reducible repeat' first | assumption | intro _ | apply showQueue_keeps | apply giveCells_keeps | apply setQueue_keeps | apply itemGaps_keeps | apply Keeps.ite | apply Keeps.foldl

theorem dropMarked_keeps (q p words banks) (h : Keeps b s0 s) : Keeps b s0 (State.dropMarked s q p words banks) := by
  unfold State.dropMarked
  with_reducible repeat' first | assumption | apply flushDone_keeps | apply giveCells_keeps | apply setQueue_keeps

theorem putWord_keeps (p q w eop) (h : Keeps b s0 s) : Keeps b s0 (State.putWord s p q w eop).2 := by
  unfold State.putWord
  with_reducible repeat' first | assumption | intro _ | apply setQueue_keeps | apply bump_keeps | apply giveCells_keeps | apply flushDone_keeps | apply takeCells_keeps | apply dropMarked_keeps | apply link_keeps | apply Keeps.ite | apply Keeps.ite1 | apply Keeps.ite2 | apply Keeps.ite22 | rfl | split | dsimp only

theorem beginItem_keeps (q) (h : Keeps b s0 s) : Keeps b s0 (State.beginItem s q) := by
  unfold State.beginItem
  with_reducible repeat' first | assumption | intro _ | apply wf_keeps | apply setQueue_keeps | rfl | split | dsimp only

theorem setWin_keeps (n x) (h : Keeps b s0 s) : Keeps b s0 (State.setWin s n x) := by
  unfold State.setWin
  with_reducible repeat' first | assumption | intro _ | rfl | dsimp only | apply Keeps.set

theorem winRead_keeps (n) (h : Keeps b s0 s) : Keeps b s0 (State.winRead s n).2 := by
  unfold State.winRead
  with_reducible repeat' first | assumption | apply wf_keeps | apply beginItem_keeps | apply freeItem_keeps | apply setWin_keeps | apply Keeps.ite | split

theorem winBind_keeps (n q en) (h : Keeps b s0 s) : Keeps b s0 (State.winBind s n q en) := by
  unfold State.winBind
  with_reducible repeat' first | assumption | apply emit_keeps | apply freeItem_keeps | apply setWin_keeps | apply wf_keeps | apply Keeps.ite | split

theorem divideRing_keeps (old new) (h : Keeps b s0 s) : Keeps b s0 (State.divideRing s old new) := by
  unfold State.divideRing
  with_reducible repeat' first | assumption | intro _ | apply Keeps.ite | apply Keeps.ite1 | apply Keeps.ite2 | apply Keeps.ite22 | rfl | apply Keeps.foldl | apply Keeps.foldl1 | apply Keeps.foldl2 | dsimp only | apply Keeps.set

theorem itemReady_keeps (q single double) (h : Keeps b s0 s) : Keeps b s0 (State.itemReady s q single double) := by
  unfold State.itemReady
  with_reducible repeat' first | assumption | intro _ | apply bump_keeps | apply freeItem_keeps | apply itemGaps_keeps | apply emit_keeps | apply setQueue_keeps | apply Keeps.ite | apply Keeps.ite1 | apply Keeps.ite2 | apply Keeps.ite22 | rfl | split | dsimp only | apply Keeps.set

theorem putPacket_keeps (q ws) (h : Keeps b s0 s) : Keeps b s0 (State.putPacket s q ws).2 := by
  unfold State.putPacket
  with_reducible repeat' first | assumption | intro _ | apply bump_keeps | apply linkWhole_keeps | apply Keeps.ite | apply Keeps.ite1 | apply Keeps.ite2

theorem bankDecision_keeps (b' req) (h : Keeps b s0 s) : Keeps b s0 (State.bankDecision s b' req) := by
  unfold State.bankDecision
  with_reducible repeat' first | assumption | intro _ | apply bumpWrap_keeps | apply wf_keeps | apply Keeps.ite | apply Keeps.ite1 | apply Keeps.ite2 | apply Keeps.ite22 | rfl | apply Keeps.foldl | apply Keeps.foldl1 | apply Keeps.foldl2 | split | dsimp only | apply Keeps.set

theorem setPartner_keeps (p x) (h : Keeps b s0 s) : Keeps b s0 (State.setPartner s p x) := by
  unfold State.setPartner
  with_reducible repeat' first | assumption | intro _ | apply wf_keeps | rfl | dsimp only | apply Keeps.set

theorem nextCseq_keeps (h : Keeps b s0 s) : Keeps b s0 (State.nextCseq s).2 := by
  unfold State.nextCseq
  with_reducible repeat' first | assumption | intro _ | rfl | dsimp only | apply Keeps.set

theorem nodeFrame_keeps (lane type pos vals payload) (h : Keeps b s0 s) : Keeps b s0 (State.nodeFrame s lane type pos vals payload) := by
  unfold State.nodeFrame
  with_reducible repeat' first | assumption | intro _ | apply frameSend_keeps | rfl | dsimp only | apply Keeps.set

theorem sendCommand_keeps (lane pos cseq op ch tick arg0 arg1) (h : Keeps b s0 s) : Keeps b s0 (State.sendCommand s lane pos cseq op ch tick arg0 arg1) := by
  unfold State.sendCommand
  with_reducible repeat' first | assumption | apply nodeFrame_keeps

theorem refuse_keeps (p ch reason) (h : Keeps b s0 s) : Keeps b s0 (State.refuse s p ch reason) := by
  unfold State.refuse
  with_reducible repeat' first | assumption | apply setPartner_keeps | apply nextCseq_keeps | apply sendCommand_keeps | apply Keeps.ite | split

theorem nodeCfg_keeps (x serial state tick base) (h : Keeps b s0 s) : Keeps b s0 (State.nodeCfg s x serial state tick base) := by
  unfold State.nodeCfg
  with_reducible repeat' first | assumption | apply mirror_keeps

theorem setSlot_keeps (c x) (h : Keeps b s0 s) : Keeps b s0 (State.setSlot s c x) := by
  unfold State.setSlot
  with_reducible repeat' first | assumption | intro _ | rfl | dsimp only | apply Keeps.set

theorem command_keeps (x t') (h : Keeps b s0 s) : Keeps b s0 (State.command s x t') := by
  unfold State.command
  with_reducible repeat' first | assumption | intro _ | apply nextCseq_keeps | apply sendCommand_keeps | apply wr_keeps | apply wf_keeps | apply setSlot_keeps | apply Keeps.ite | apply Keeps.ite1 | apply Keeps.ite2 | apply Keeps.ite22 | rfl | split | dsimp only | apply Keeps.set

theorem sendChange_keeps (x) (h : Keeps b s0 s) : Keeps b s0 (State.sendChange s x) := by
  unfold State.sendChange
  with_reducible repeat' first | assumption | apply command_keeps

theorem change_keeps (x serial) (h : Keeps b s0 s) : Keeps b s0 (State.change s x serial) := by
  unfold State.change
  with_reducible repeat' first | assumption | intro _ | apply nodeCfg_keeps | apply sendChange_keeps | apply emit_keeps | apply Keeps.ite | apply Keeps.ite1 | apply Keeps.ite2 | apply Keeps.ite22 | rfl | dsimp only | apply Keeps.set

theorem offer_keeps (p d) (h : Keeps b s0 s) : Keeps b s0 (State.offer s p d) := by
  unfold State.offer
  with_reducible repeat' first | assumption | apply refuse_keeps | apply change_keeps | apply envExceeded_keeps | apply Keeps.ite | split

theorem offerAll_keeps (h : Keeps b s0 s) : Keeps b s0 (State.offerAll s) := by
  unfold State.offerAll
  with_reducible repeat' first | assumption | intro _ | apply offer_keeps | apply Keeps.foldl | split

theorem unrefuse_keeps (h : Keeps b s0 s) : Keeps b s0 (State.unrefuse s) := by
  unfold State.unrefuse
  with_reducible repeat' first | assumption | intro _ | rfl | dsimp only | apply Keeps.set

theorem retryJoins_keeps (h : Keeps b s0 s) : Keeps b s0 (State.retryJoins s) := by
  unfold State.retryJoins
  with_reducible repeat' first | assumption | apply offerAll_keeps | apply unrefuse_keeps

theorem slotDrop_keeps (c) (h : Keeps b s0 s) : Keeps b s0 (State.slotDrop s c) := by
  unfold State.slotDrop
  with_reducible repeat' first | assumption | apply wr_keeps | apply wf_keeps | apply setSlot_keeps

theorem remoteGap_keeps (c cause seq n) (h : Keeps b s0 s) : Keeps b s0 (State.remoteGap s c cause seq n) := by
  unfold State.remoteGap
  with_reducible repeat' first | assumption | apply gap_keeps

theorem partnerLost_keeps (p x) (h : Keeps b s0 s) : Keeps b s0 (State.partnerLost s p x) := by
  unfold State.partnerLost
  with_reducible repeat' first | assumption | intro _ | apply emit_keeps | apply setPartner_keeps | apply retryJoins_keeps | apply slotDrop_keeps | apply remoteGap_keeps | apply setSlot_keeps | apply wf_keeps | apply Keeps.ite | apply Keeps.ite1 | apply Keeps.ite2 | apply Keeps.ite22 | rfl | apply Keeps.foldl | apply Keeps.foldl1 | apply Keeps.foldl2 | split | dsimp only | apply Keeps.set

theorem frameIn_keeps (f) (h : Keeps b s0 s) : Keeps b s0 (State.frameIn s f).2 := by
  unfold State.frameIn
  with_reducible repeat' first | assumption | intro _ | apply bump_keeps | apply setSlot_keeps | apply wf64_keeps | apply setPartner_keeps | apply Keeps.ite | apply Keeps.ite1 | apply Keeps.ite2 | apply Keeps.ite22 | rfl | apply Keeps.foldl | apply Keeps.foldl1 | apply Keeps.foldl2 | split | dsimp only

theorem sawEpoch_keeps (p epoch) (h : Keeps b s0 s) : Keeps b s0 (State.sawEpoch s p epoch) := by
  unfold State.sawEpoch
  with_reducible repeat' first | assumption | intro _ | apply setPartner_keeps | apply Keeps.ite | apply Keeps.ite1 | apply Keeps.ite2 | apply Keeps.ite22 | rfl | split | dsimp only | apply Keeps.set

theorem calShow_keeps (c e) (h : Keeps b s0 s) : Keeps b s0 (State.calShow s c e) := by
  unfold State.calShow
  with_reducible repeat' first | assumption | intro _ | apply wf_keeps | apply wr_keeps | apply calRefresh_keeps | rfl | apply Keeps.foldl | apply Keeps.foldl1 | apply Keeps.foldl2 | split | dsimp only | apply Keeps.set

theorem joinNow_keeps (c) (h : Keeps b s0 s) : Keeps b s0 (State.joinNow s c) := by
  unfold State.joinNow
  with_reducible repeat' first | assumption | intro _ | apply setSlot_keeps | apply calShow_keeps | apply chrJudge_keeps | apply showRho_keeps | apply wb_keeps | apply envZero_keeps | apply setPath_keeps | rfl | dsimp only | apply Keeps.set

theorem attachNow_keeps (x p base) (h : Keeps b s0 s) : Keeps b s0 (State.attachNow s x p base) := by
  unfold State.attachNow
  with_reducible repeat' first | assumption | intro _ | apply wr_keeps | apply wf_keeps | apply setSlot_keeps | apply joinNow_keeps | apply Keeps.ite | apply Keeps.ite1 | apply Keeps.ite2 | apply Keeps.ite22 | rfl | dsimp only | apply Keeps.set

theorem attach_keeps (x p base) (h : Keeps b s0 s) : Keeps b s0 (State.attach s x p base) := by
  unfold State.attach
  with_reducible repeat' first | assumption | apply setSlot_keeps | apply attachNow_keeps | apply Keeps.ite

theorem replyIn_keeps (f epoch cseq result value) (h : Keeps b s0 s) : Keeps b s0 (State.replyIn s f epoch cseq result value) := by
  unfold State.replyIn
  with_reducible repeat' first | assumption | intro _ | apply frameIn_keeps | apply sawEpoch_keeps | apply nodeCfg_keeps | apply attach_keeps | apply setSlot_keeps | apply sendChange_keeps | apply unrefuse_keeps | apply slotDrop_keeps | apply setPartner_keeps | apply offerAll_keeps | apply Keeps.ite | apply Keeps.ite1 | apply Keeps.ite2 | apply Keeps.ite22 | rfl | split | dsimp only | apply Keeps.set

theorem setLane_keeps (l x) (h : Keeps b s0 s) : Keeps b s0 (State.setLane s l x) := by
  unfold State.setLane
  with_reducible repeat' first | assumption | intro _ | rfl | dsimp only | apply Keeps.set

theorem peerSilent_keeps (h : Keeps b s0 s) : Keeps b s0 (State.peerSilent s) := by
  unfold State.peerSilent
  with_reducible repeat' first | assumption | intro _ | apply emit_keeps | apply Keeps.ite | apply Keeps.ite1 | apply Keeps.ite2 | apply Keeps.ite22 | rfl | dsimp only | apply Keeps.set

theorem mirrorLag_keeps (mseq) (h : Keeps b s0 s) : Keeps b s0 (State.mirrorLag s mseq) := by
  unfold State.mirrorLag
  with_reducible repeat' first | assumption | intro _ | apply sendChange_keeps | apply emit_keeps | apply Keeps.ite | apply Keeps.ite1 | apply Keeps.ite2 | apply Keeps.ite22 | rfl | split | dsimp only | apply Keeps.set

theorem partnerNumber_keeps (serial) (h : Keeps b s0 s) : Keeps b s0 (State.partnerNumber s serial).2 := by
  unfold State.partnerNumber
  with_reducible repeat' first | assumption | intro _ | apply emit_keeps | apply Keeps.ite | apply Keeps.ite1 | apply Keeps.ite2 | apply Keeps.ite22 | rfl | apply Keeps.foldl | apply Keeps.foldl1 | apply Keeps.foldl2 | split | dsimp only

theorem markLink_keeps (x) (h : Keeps b s0 s) : Keeps b s0 (State.markLink s x) := by
  unfold State.markLink
  with_reducible repeat' first | assumption | intro _ | apply setSlot_keeps | apply Keeps.foldl

theorem laneRelock_keeps (l) (h : Keeps b s0 s) : Keeps b s0 (State.laneRelock s l) := by
  unfold State.laneRelock
  with_reducible repeat' first | assumption | intro _ | apply markLink_keeps | apply setPartner_keeps | apply Keeps.ite | apply Keeps.foldl | split

theorem yieldSteward_keeps (h : Keeps b s0 s) : Keeps b s0 (State.yieldSteward s) := by
  unfold State.yieldSteward
  with_reducible repeat' first | assumption | intro _ | apply emit_keeps | apply wf_keeps | rfl | dsimp only | apply Keeps.set

theorem slotSet_keeps (m c ncfg w) (h : Keeps b s0 s) : Keeps b s0 (State.slotSet s m c ncfg w) := by
  unfold State.slotSet
  with_reducible repeat' first | assumption | apply wr_keeps | apply emit_keeps | apply envExceeded_keeps | apply change_keeps | apply Keeps.ite

theorem showRoutes_keeps (l) (h : Keeps b s0 s) : Keeps b s0 (State.showRoutes s l) := by
  unfold State.showRoutes
  with_reducible repeat' first | assumption | intro _ | apply setPartner_keeps | apply Keeps.ite | apply Keeps.foldl | split

theorem ptnTake_keeps (h : Keeps b s0 s) : Keeps b s0 (State.ptnTake s) := by
  unfold State.ptnTake
  with_reducible repeat' first | assumption | intro _ | rfl | dsimp only | apply Keeps.set

theorem routeEnd_keeps (p l) (h : Keeps b s0 s) : Keeps b s0 (State.routeEnd s p l) := by
  unfold State.routeEnd
  with_reducible repeat' first | assumption | apply markLink_keeps | apply setPartner_keeps | apply partnerLost_keeps | apply Keeps.ite | split

theorem sendJoin_keeps (c) (h : Keeps b s0 s) : Keeps b s0 (State.sendJoin s c) := by
  unfold State.sendJoin
  with_reducible repeat' first | assumption | intro _ | apply sendChange_keeps | apply emit_keeps | apply Keeps.ite | apply Keeps.ite1 | apply Keeps.ite2 | apply Keeps.ite22 | rfl | split | dsimp only | apply Keeps.set

theorem becomeSteward_keeps (h : Keeps b s0 s) : Keeps b s0 (State.becomeSteward s) := by
  unfold State.becomeSteward
  with_reducible repeat' first | assumption | intro _ | apply wf_keeps | apply nextCseq_keeps | apply sendCommand_keeps | apply emit_keeps | apply offerAll_keeps | apply mirror_keeps | apply Keeps.ite | apply Keeps.ite1 | apply Keeps.ite2 | apply Keeps.ite22 | rfl | apply Keeps.foldl | apply Keeps.foldl1 | apply Keeps.foldl2 | split | dsimp only | apply Keeps.set

theorem searchedAll_keeps (h : Keeps b s0 s) : Keeps b s0 (State.searchedAll s) := by
  unfold State.searchedAll
  with_reducible repeat' first | assumption | apply becomeSteward_keeps | apply Keeps.ite

theorem takeSilence_keeps (h : Keeps b s0 s) : Keeps b s0 (State.takeSilence s) := by
  unfold State.takeSilence
  with_reducible repeat' first | assumption | apply becomeSteward_keeps | apply peerSilent_keeps | apply Keeps.ite

theorem slateChanges_keeps (h : Keeps b s0 s) : Keeps b s0 (State.slateChanges s) := by
  unfold State.slateChanges
  with_reducible repeat' first | assumption | intro _ | apply sendChange_keeps | rfl | apply Keeps.foldl | apply Keeps.foldl1 | apply Keeps.foldl2 | dsimp only | apply Keeps.set

theorem slotFree_keeps (c) (h : Keeps b s0 s) : Keeps b s0 (State.slotFree s c) := by
  unfold State.slotFree
  with_reducible repeat' first | assumption | intro _ | apply slotDrop_keeps | apply calShow_keeps | apply wf_keeps | rfl | dsimp only | apply Keeps.set

theorem sendBeat_keeps (take) (h : Keeps b s0 s) : Keeps b s0 (State.sendBeat s take) := by
  unfold State.sendBeat
  with_reducible repeat' first | assumption | apply slateSend_keeps

theorem laneGone_keeps (l) (h : Keeps b s0 s) : Keeps b s0 (State.laneGone s l) := by
  unfold State.laneGone
  with_reducible repeat' first | assumption | intro _ | apply setLane_keeps | apply routeEnd_keeps | apply Keeps.foldl

theorem leaveNow_keeps (c) (h : Keeps b s0 s) : Keeps b s0 (State.leaveNow s c) := by
  unfold State.leaveNow
  with_reducible repeat' first | assumption | apply slotFree_keeps | apply attachNow_keeps | apply retryJoins_keeps | split

theorem nodeReport_keeps (f r) (h : Keeps b s0 s) : Keeps b s0 (State.nodeReport s f r) := by
  unfold State.nodeReport
  with_reducible repeat' first | assumption | intro _ | apply frameIn_keeps | apply sawEpoch_keeps | apply emitFrom_keeps | rfl | split | dsimp only

theorem noteBeat_keeps (b') (h : Keeps b s0 s) : Keeps b s0 (State.noteBeat s b') := by
  unfold State.noteBeat
  with_reducible repeat' first | assumption | intro _ | apply wf_keeps | apply wb_keeps | apply emit_keeps | apply Keeps.ite | apply Keeps.ite1 | apply Keeps.ite2 | apply Keeps.ite22 | rfl | dsimp only | apply Keeps.set

theorem slateBeats_keeps (pair beats) (h : Keeps b s0 s) : Keeps b s0 (State.slateBeats s pair beats) := by
  unfold State.slateBeats
  with_reducible repeat' first | assumption | intro _ | apply bump_keeps | apply wf_keeps | apply peerSilent_keeps | apply noteBeat_keeps | apply Keeps.ite | apply Keeps.foldl

theorem slateBoundary_keeps (h : Keeps b s0 s) : Keeps b s0 (State.slateBoundary s) := by
  unfold State.slateBoundary
  with_reducible repeat' first | assumption | intro _ | apply slateBeats_keeps | apply becomeSteward_keeps | apply slateChanges_keeps | apply yieldSteward_keeps | apply sendBeat_keeps | apply Keeps.ite | apply Keeps.ite1 | apply Keeps.ite2 | apply Keeps.ite22 | rfl | dsimp only | apply Keeps.set

theorem nodeInfo_keeps (f serial model two epoch chans) (h : Keeps b s0 s) : Keeps b s0 (State.nodeInfo s f serial model two epoch chans) := by
  unfold State.nodeInfo
  with_reducible repeat' first | assumption | intro _ | apply frameIn_keeps | apply partnerNumber_keeps | apply nextCseq_keeps | apply sendCommand_keeps | apply emit_keeps | apply wf64_keeps | apply setPartner_keeps | apply sawEpoch_keeps | apply offer_keeps | apply Keeps.ite | apply Keeps.ite1 | apply Keeps.ite2 | apply Keeps.ite22 | rfl | apply Keeps.foldl | apply Keeps.foldl1 | apply Keeps.foldl2 | split | dsimp only

theorem sendLeave_keeps (c lead) (h : Keeps b s0 s) : Keeps b s0 (State.sendLeave s c lead) := by
  unfold State.sendLeave
  with_reducible repeat' first | assumption | apply change_keeps | apply Keeps.ite

theorem gpeWord_keeps (c) (h : Keeps b s0 s) : Keeps b s0 (State.gpeWord s c).2 := by
  unfold State.gpeWord
  with_reducible repeat' first | assumption | intro _ | rfl | dsimp only | apply Keeps.set

theorem setTakes_keeps (c t' w) (h : Keeps b s0 s) : Keeps b s0 (State.setTakes s c t' w) := by
  unfold State.setTakes
  with_reducible repeat' first | assumption | intro _ | apply wr_keeps | apply sessConfig_keeps | apply setSlot_keeps | apply showRho_keeps | apply chrJudge_keeps | apply Keeps.ite | apply Keeps.ite1 | apply Keeps.ite2 | apply Keeps.ite22 | rfl | split | dsimp only | apply Keeps.set

theorem joinBoundary_keeps (t') (h : Keeps b s0 s) : Keeps b s0 (State.joinBoundary s t') := by
  unfold State.joinBoundary
  with_reducible repeat' first | assumption | intro _ | apply setTakes_keeps | apply leaveNow_keeps | apply joinNow_keeps | apply Keeps.ite | apply Keeps.ite1 | apply Keeps.ite2 | apply Keeps.ite22 | rfl | apply Keeps.foldl | apply Keeps.foldl1 | apply Keeps.foldl2 | split | dsimp only

theorem ptnCtrl_keeps (h : Keeps b s0 s) : Keeps b s0 (State.ptnCtrl s) := by
  unfold State.ptnCtrl
  with_reducible repeat' first | assumption | intro _ | apply searchedAll_keeps | apply Keeps.ite | apply Keeps.ite1 | apply Keeps.ite2 | apply Keeps.ite22 | rfl | dsimp only | apply Keeps.set

theorem wordIn_keeps (c t' seq w) (h : Keeps b s0 s) : Keeps b s0 (State.wordIn s c t' seq w) := by
  unfold State.wordIn
  with_reducible repeat' first | assumption | intro _ | apply bump_keeps | apply setSlot_keeps | apply remoteGap_keeps | apply wr_keeps | apply gpeWord_keeps | apply Keeps.ite | apply Keeps.ite1 | apply Keeps.ite2 | apply Keeps.ite22 | rfl | split | dsimp only | apply Keeps.set

theorem samplesIn_keeps (f t' epoch gs) (h : Keeps b s0 s) : Keeps b s0 (State.samplesIn s f t' epoch gs) := by
  unfold State.samplesIn
  with_reducible repeat' first | assumption | intro _ | apply frameIn_keeps | apply sawEpoch_keeps | apply wordIn_keeps | apply Keeps.ite | apply Keeps.ite1 | apply Keeps.ite2 | apply Keeps.ite22 | rfl | apply Keeps.foldl | apply Keeps.foldl1 | apply Keeps.foldl2 | split | dsimp only

theorem retryCommand_keeps (cseq) (h : Keeps b s0 s) : Keeps b s0 (State.retryCommand s cseq) := by
  unfold State.retryCommand
  with_reducible repeat' first | assumption | intro _ | apply sendCommand_keeps | apply emit_keeps | apply retryJoins_keeps | apply slotDrop_keeps | apply Keeps.ite | apply Keeps.ite1 | apply Keeps.ite2 | apply Keeps.ite22 | rfl | split | dsimp only | apply Keeps.set

theorem discover_keeps (l long) (h : Keeps b s0 s) : Keeps b s0 (State.discover s l long) := by
  unfold State.discover
  with_reducible repeat' first | assumption | apply emit_keeps | apply searchedAll_keeps | apply nodeFrame_keeps | apply setLane_keeps | apply Keeps.ite

theorem setTrig_keeps (u x) (h : Keeps b s0 s) : Keeps b s0 (State.setTrig s u x) := by
  unfold State.setTrig
  with_reducible repeat' first | assumption | intro _ | rfl | dsimp only | apply Keeps.set

theorem nextSseq_keeps (h : Keeps b s0 s) : Keeps b s0 (State.nextSseq s).2 := by
  unfold State.nextSseq
  with_reducible repeat' first | assumption | intro _ | rfl | dsimp only | apply Keeps.set

theorem trigSend_keeps (k vals body) (h : Keeps b s0 s) : Keeps b s0 (State.trigSend s k vals body) := by
  unfold State.trigSend
  with_reducible repeat' first | assumption | apply uplinkSend_keeps

theorem sendArm_keeps (u tick op) (h : Keeps b s0 s) : Keeps b s0 (State.sendArm s u tick op) := by
  unfold State.sendArm
  with_reducible repeat' first | assumption | apply nextSseq_keeps | apply trigSend_keeps

theorem disarmCmd_keeps (u send) (h : Keeps b s0 s) : Keeps b s0 (State.disarmCmd s u send) := by
  unfold State.disarmCmd
  with_reducible repeat' first | assumption | apply setTrig_keeps | apply sendArm_keeps | apply Keeps.ite

theorem trigRes_keeps (u code) (h : Keeps b s0 s) : Keeps b s0 (State.trigRes s u code) := by
  unfold State.trigRes
  with_reducible repeat' first | assumption | apply wf_keeps

theorem mirrorTrig_keeps (u st) (h : Keeps b s0 s) : Keeps b s0 (State.mirrorTrig s u st) := by
  unfold State.mirrorTrig
  with_reducible repeat' first | assumption | apply mirror_keeps | apply Keeps.ite

theorem toTrig_keeps (u st) (h : Keeps b s0 s) : Keeps b s0 (State.toTrig s u st) := by
  unfold State.toTrig
  with_reducible repeat' first | assumption | apply wf_keeps | apply mirrorTrig_keeps | apply Keeps.ite

theorem armFrom_keeps (u tick pre post) (h : Keeps b s0 s) : Keeps b s0 (State.armFrom s u tick pre post) := by
  unfold State.armFrom
  with_reducible repeat' first | assumption | apply trigRes_keeps | apply schedule_keeps | apply wf_keeps | apply toTrig_keeps | apply setTrig_keeps | apply Keeps.ite

theorem ignore_keeps (u) (h : Keeps b s0 s) : Keeps b s0 (State.ignore s u) := by
  unfold State.ignore
  with_reducible repeat' first | assumption | apply bump_keeps

theorem sendFire_keeps (u time cause) (h : Keeps b s0 s) : Keeps b s0 (State.sendFire s u time cause) := by
  unfold State.sendFire
  with_reducible repeat' first | assumption | apply nextSseq_keeps | apply trigSend_keeps

theorem fire_keeps (u time cause net) (h : Keeps b s0 s) : Keeps b s0 (State.fire s u time cause net) := by
  unfold State.fire
  with_reducible repeat' first | assumption | apply ignore_keeps | apply setTrig_keeps | apply toTrig_keeps | apply sendFire_keeps | apply Keeps.ite

theorem armMirror_keeps (netid st armTick pre post tf orig) (h : Keeps b s0 s) : Keeps b s0 (State.armMirror s netid st armTick pre post tf orig) := by
  unfold State.armMirror
  with_reducible repeat' first | assumption | intro _ | apply disarmCmd_keeps | apply armFrom_keeps | apply fire_keeps | apply Keeps.ite | apply Keeps.foldl

theorem skewApply_keeps (h : Keeps b s0 s) : Keeps b s0 (State.skewApply s) := by
  unfold State.skewApply
  with_reducible repeat' first | assumption | intro _ | apply Keeps.ite | apply Keeps.ite1 | apply Keeps.ite2 | apply Keeps.ite22 | rfl | dsimp only | apply Keeps.set

theorem putCapture_keeps (u ws) (h : Keeps b s0 s) : Keeps b s0 (State.putCapture s u ws).2 := by
  unfold State.putCapture
  with_reducible repeat' first | assumption | intro _ | apply putPacket_keeps | apply Keeps.ite | apply Keeps.ite1 | apply Keeps.ite2

theorem raiseK_keeps (u x) (h : Keeps b s0 s) : Keeps b s0 (State.raiseK s u x).1 := by
  unfold State.raiseK
  with_reducible repeat' first | assumption | intro _ | apply wf_keeps | apply Keeps.ite | apply Keeps.ite1

theorem badWord_keeps (c w) (h : Keeps b s0 s) : Keeps b s0 (State.badWord s c w) := by
  unfold State.badWord
  with_reducible repeat' first | assumption | apply gap_keeps

theorem maskTest_keeps (u x e n w) (h : Keeps b s0 s) : Keeps b s0 (State.maskTest s u x e n w).1 := by
  unfold State.maskTest
  with_reducible repeat' first | assumption | intro _ | apply emit_keeps | apply fire_keeps | apply Keeps.ite | apply Keeps.ite1

theorem copyWord_keeps (u a w) (h : Keeps b s0 s) : Keeps b s0 (State.copyWord s u a w).1 := by
  unfold State.copyWord
  with_reducible repeat' first | assumption | intro _ | apply maskTest_keeps | apply Keeps.ite | apply Keeps.ite1 | apply Keeps.ite2 | apply Keeps.ite22 | rfl | split | dsimp only

theorem copyChan_keeps (u x c bad) (h : Keeps b s0 s) : Keeps b s0 (State.copyChan s u x c bad).1 := by
  unfold State.copyChan
  with_reducible repeat' first | assumption | intro _ | apply badWord_keeps | apply copyWord_keeps | apply Keeps.ite | apply Keeps.ite1 | apply Keeps.ite2 | apply Keeps.ite22 | rfl | apply Keeps.foldl | apply Keeps.foldl1

theorem copyChans_keeps (u bad l x) (h : Keeps b s0 s) : Keeps b s0 (s.copyChans u bad l x).1 := by
  induction l generalizing s x with
  | nil => exact h
  | cons c r ih =>
    unfold State.copyChans
    split
    · exact ih _ h
    · exact ih _ (copyChan_keeps _ _ _ _ h)

theorem writeSegs_keeps (u x n) (h : Keeps b s0 s) : Keeps b s0 (s.writeSegs u x n).2.1 := by
  induction n generalizing s x with
  | zero => exact h
  | succ k ih =>
    unfold State.writeSegs
    dsimp only
    split
    · exact h
    · split
      · split
        · exact ih _ (putCapture_keeps _ _ h)
        · exact putCapture_keeps _ _ h
      · exact h

theorem truncGap_keeps (u x ch g0 inst g r) (h : Keeps b s0 s) : Keeps b s0 (State.truncGap s u x ch g0 inst g r) := by
  unfold State.truncGap
  with_reducible repeat' first | assumption | apply gap_keeps | apply Keeps.ite

theorem truncChan_keeps (u x c) (h : Keeps b s0 s) : Keeps b s0 (State.truncChan s u x c) := by
  unfold State.truncChan
  with_reducible repeat' first | assumption | apply truncGap_keeps | split

theorem endCapture_keeps (u x trunc) (h : Keeps b s0 s) : Keeps b s0 (State.endCapture s u x trunc) := by
  unfold State.endCapture
  with_reducible repeat' first | assumption | apply putCapture_keeps | apply emit_keeps | apply bumpWrap_keeps | apply setTrig_keeps | apply addPin_keeps | apply toTrig_keeps | apply Keeps.ite

theorem truncate_keeps (u x) (h : Keeps b s0 s) : Keeps b s0 (State.truncate s u x) := by
  unfold State.truncate
  with_reducible repeat' first | assumption | intro _ | apply writeSegs_keeps | apply truncChan_keeps | apply emit_keeps | apply endCapture_keeps | apply Keeps.foldl

theorem captureCopy_keeps (u bad) (h : Keeps b s0 s) : Keeps b s0 (State.captureCopy s u bad) := by
  unfold State.captureCopy
  with_reducible repeat' first | assumption | apply raiseK_keeps | apply copyChans_keeps | apply writeSegs_keeps | apply setTrig_keeps | apply truncate_keeps | apply Keeps.ite | split

theorem startCapture_keeps (u b') (h : Keeps b s0 s) : Keeps b s0 (State.startCapture s u b') := by
  unfold State.startCapture
  with_reducible repeat' first | assumption | intro _ | apply wf_keeps | apply wr_keeps | apply emit_keeps | apply toTrig_keeps | apply setTrig_keeps | apply putCapture_keeps | apply captureCopy_keeps | apply truncate_keeps | apply Keeps.ite | apply Keeps.ite1 | apply Keeps.ite2 | apply Keeps.ite22 | rfl | dsimp only | apply Keeps.set

theorem kndFrame_keeps (f) (h : Keeps b s0 s) : Keeps b s0 (State.kndFrame s f).2 := by
  unfold State.kndFrame
  with_reducible repeat' first | assumption | intro _ | apply bumpWrap_keeps | apply bump_keeps | apply Keeps.ite | apply Keeps.ite1 | apply Keeps.ite2 | apply Keeps.ite22 | rfl | split | dsimp only | apply Keeps.set

theorem captureTruncate_keeps (u) (h : Keeps b s0 s) : Keeps b s0 (State.captureTruncate s u) := by
  unfold State.captureTruncate
  with_reducible repeat' first | assumption | apply truncate_keeps | apply Keeps.ite | split

theorem fireFrom_keeps (u armTick time sender cause) (h : Keeps b s0 s) : Keeps b s0 (State.fireFrom s u armTick time sender cause) := by
  unfold State.fireFrom
  with_reducible repeat' first | assumption | apply ignore_keeps | apply emit_keeps | apply fire_keeps | apply Keeps.ite

theorem fireFrame_keeps (f time cause) (h : Keeps b s0 s) : Keeps b s0 (State.fireFrame s f time cause) := by
  unfold State.fireFrame
  with_reducible repeat' first | assumption | intro _ | apply kndFrame_keeps | apply fireFrom_keeps | apply Keeps.ite | apply Keeps.foldl

theorem disarmNow_keeps (u) (h : Keeps b s0 s) : Keeps b s0 (s.disarmNow u) := by
  unfold State.disarmNow
  have h1 := trigRes_keeps u 5 h
  dsimp only
  generalize s.trigRes u 5 = x at h1 ⊢
  have h2 := itemsFilter_keeps (fun i => i.addr != armAddr u) h1
  with_reducible repeat' first | assumption | intro _ | apply setTrig_keeps | apply toTrig_keeps | apply Keeps.ite

theorem armCmd_keeps (m u lateOk send) (h : Keeps b s0 s) : Keeps b s0 (State.armCmd s m u lateOk send) := by
  unfold State.armCmd
  with_reducible repeat' first | assumption | apply emit_keeps | apply trigRes_keeps | apply schedule_keeps | apply setTrig_keeps | apply toTrig_keeps | apply sendArm_keeps | apply Keeps.ite

theorem armFrame_keeps (f pre post disarm) (h : Keeps b s0 s) : Keeps b s0 (State.armFrame s f pre post disarm) := by
  unfold State.armFrame
  with_reducible repeat' first | assumption | intro _ | apply kndFrame_keeps | apply disarmCmd_keeps | apply armFrom_keeps | apply Keeps.ite | apply Keeps.foldl

theorem skewStart_keeps (h : Keeps b s0 s) : Keeps b s0 (State.skewStart s) := by
  unfold State.skewStart
  with_reducible repeat' first | assumption | intro _ | apply wf_keeps | apply Keeps.ite | apply Keeps.ite1 | apply Keeps.ite2 | apply Keeps.ite22 | rfl | split | dsimp only | apply Keeps.set

theorem skewSet_keeps (on) (h : Keeps b s0 s) : Keeps b s0 (State.skewSet s on) := by
  unfold State.skewSet
  with_reducible repeat' first | assumption | intro _ | apply command_keeps | apply nodeCfg_keeps | apply Keeps.ite | apply Keeps.foldl | split

theorem skewTake_keeps (c e) (h : Keeps b s0 s) : Keeps b s0 (State.skewTake s c e) := by
  unfold State.skewTake
  with_reducible repeat' first | assumption | intro _ | apply emit_keeps | apply gdChange_keeps | apply delayStep_keeps | apply Keeps.ite | apply Keeps.ite1 | apply Keeps.ite2 | apply Keeps.ite22 | rfl | dsimp only | apply Keeps.set

theorem skewBoundary_keeps (t') (h : Keeps b s0 s) : Keeps b s0 (State.skewBoundary s t') := by
  unfold State.skewBoundary
  with_reducible repeat' first | assumption | intro _ | apply skewSet_keeps | apply wf64_keeps | apply wf_keeps | apply Keeps.ite | apply Keeps.ite1 | apply Keeps.ite2 | apply Keeps.ite22 | rfl | split | dsimp only | apply Keeps.set

theorem disarmBoundary_keeps (t') (h : Keeps b s0 s) : Keeps b s0 (State.disarmBoundary s t') := by
  unfold State.disarmBoundary
  with_reducible repeat' first | assumption | intro _ | apply disarmNow_keeps | apply Keeps.ite | apply Keeps.foldl | split

theorem setCond_keeps (n x) (h : Keeps b s0 s) : Keeps b s0 (State.setCond s n x) := by
  unfold State.setCond
  with_reducible repeat' first | assumption | intro _ | rfl | dsimp only | apply Keeps.set

theorem condTaken_keeps (n) (h : Keeps b s0 s) : Keeps b s0 (State.condTaken s n) := by
  unfold State.condTaken
  with_reducible repeat' first | assumption | apply setCond_keeps

theorem condWord_keeps (n w inst) (h : Keeps b s0 s) : Keeps b s0 (State.condWord s n w inst) := by
  unfold State.condWord
  with_reducible repeat' first | assumption | intro _ | apply setCond_keeps | apply fire_keeps | apply Keeps.ite | apply Keeps.ite1 | apply Keeps.ite2 | apply Keeps.ite22 | rfl | split | dsimp only

theorem captureEnd_keeps (u) (h : Keeps b s0 s) : Keeps b s0 (State.captureEnd s u) := by
  unfold State.captureEnd
  with_reducible repeat' first | assumption | apply copyChans_keeps | apply writeSegs_keeps | apply endCapture_keeps | apply truncate_keeps | apply Keeps.ite | split

theorem condRelease_keeps (hist made) (h : Keeps b s0 s) : Keeps b s0 (State.condRelease s hist made) := by
  unfold State.condRelease
  with_reducible repeat' first | assumption | intro _ | apply condWord_keeps | apply Keeps.ite | apply Keeps.foldl

theorem skewDone_keeps (h : Keeps b s0 s) : Keeps b s0 (State.skewDone s) := by
  unfold State.skewDone
  with_reducible repeat' first | assumption | intro _ | apply wr_keeps | apply skewSet_keeps | apply wf_keeps | apply emit_keeps | apply Keeps.ite | apply Keeps.ite1 | apply Keeps.ite2 | apply Keeps.ite22 | rfl | apply Keeps.foldl | apply Keeps.foldl1 | apply Keeps.foldl2 | split | dsimp only | apply Keeps.set

theorem applyBoundary_keeps (t') (h : Keeps b s0 s) : Keeps b s0 (State.applyBoundary s t') := by
  unfold State.applyBoundary
  with_reducible repeat' first | assumption | intro _ | apply wr_keeps | apply skewTake_keeps | apply wf_keeps | apply Keeps.ite | apply Keeps.ite1 | apply Keeps.ite2 | apply Keeps.ite22 | rfl | apply Keeps.foldl | apply Keeps.foldl1 | apply Keeps.foldl2 | split | dsimp only | apply Keeps.set

theorem pulseOut_keeps (b') (h : Keeps b s0 s) : Keeps b s0 (State.pulseOut s b') := by
  unfold State.pulseOut
  with_reducible repeat' first | assumption | apply send_keeps

theorem skewPulse_keeps (h : Keeps b s0 s) : Keeps b s0 (State.skewPulse s) := by
  unfold State.skewPulse
  with_reducible repeat' first | assumption | intro _ | apply pulseOut_keeps | apply Keeps.ite | apply Keeps.ite1 | apply Keeps.ite2 | apply Keeps.ite22 | rfl | split | dsimp only | apply Keeps.set

theorem skewStop_keeps (h : Keeps b s0 s) : Keeps b s0 (State.skewStop s) := by
  unfold State.skewStop
  with_reducible repeat' first | assumption | intro _ | apply skewSet_keeps | apply wf_keeps | apply Keeps.ite | apply Keeps.ite1 | apply Keeps.ite2 | apply Keeps.ite22 | rfl | split | dsimp only | apply Keeps.set

theorem settleEnd_keeps (u) (h : Keeps b s0 s) : Keeps b s0 (State.settleEnd s u) := by
  unfold State.settleEnd
  with_reducible repeat' first | assumption | intro _ | apply toTrig_keeps | apply setTrig_keeps | apply emit_keeps | apply startCapture_keeps | apply Keeps.ite | apply Keeps.ite1 | apply Keeps.ite2 | apply Keeps.ite22 | rfl | split | dsimp only

theorem skewCmd_keeps (w) (h : Keeps b s0 s) : Keeps b s0 (State.skewCmd s w) := by
  unfold State.skewCmd
  with_reducible repeat' first | assumption | apply skewStop_keeps | apply skewApply_keeps | apply skewStart_keeps | apply Keeps.ite

theorem trigCmd_keeps (m u w) (h : Keeps b s0 s) : Keeps b s0 (State.trigCmd s m u w) := by
  unfold State.trigCmd
  with_reducible repeat' first | assumption | apply disarmCmd_keeps | apply armCmd_keeps | apply Keeps.ite

theorem armNow_keeps (u) (h : Keeps b s0 s) : Keeps b s0 (State.armNow s u) := by
  unfold State.armNow
  with_reducible repeat' first | assumption | intro _ | apply emit_keeps | apply toTrig_keeps | apply setTrig_keeps | apply Keeps.ite | apply Keeps.foldl

theorem setInterval_keeps (i x) (h : Keeps b s0 s) : Keeps b s0 (State.setInterval s i x) := by
  unfold State.setInterval
  with_reducible repeat' first | assumption | intro _ | rfl | dsimp only | apply Keeps.set

theorem putRecord_keeps (q ws) (h : Keeps b s0 s) : Keeps b s0 (State.putRecord s q ws).2 := by
  unfold State.putRecord
  with_reducible repeat' first | assumption | intro _ | apply putPacket_keeps | apply bump_keeps | apply emit_keeps | apply Keeps.ite | apply Keeps.ite1 | apply Keeps.ite2 | apply Keeps.ite22 | rfl | dsimp only | apply Keeps.set

theorem skewEdge_keeps (e stamp) (h : Keeps b s0 s) : Keeps b s0 (State.skewEdge s e stamp) := by
  unfold State.skewEdge
  with_reducible repeat' first | assumption | intro _ | apply Keeps.ite | apply Keeps.ite1 | apply Keeps.ite2 | apply Keeps.ite22 | rfl | split | dsimp only | apply Keeps.set

theorem setGroup_keeps (g x) (h : Keeps b s0 s) : Keeps b s0 (State.setGroup s g x) := by
  unfold State.setGroup
  with_reducible repeat' first | assumption | intro _ | rfl | dsimp only | apply Keeps.set

theorem groupReport_keeps (g o extra) (h : Keeps b s0 s) : Keeps b s0 (State.groupReport s g o extra) := by
  unfold State.groupReport
  with_reducible repeat' first | assumption | intro _ | apply putRecord_keeps | apply bumpWrap_keeps | apply setGroup_keeps | apply fire_keeps | apply Keeps.ite

theorem groupClose_keeps (g o extra at') (h : Keeps b s0 s) : Keeps b s0 (State.groupClose s g o extra at') := by
  unfold State.groupClose
  with_reducible repeat' first | assumption | apply groupReport_keeps | apply bump_keeps | apply setGroup_keeps | apply Keeps.ite

theorem groupEdge_keeps (u e) (h : Keeps b s0 s) : Keeps b s0 (State.groupEdge s u e) := by
  unfold State.groupEdge
  with_reducible repeat' first | assumption | intro _ | apply groupClose_keeps | apply setGroup_keeps | apply Keeps.ite | apply Keeps.ite1 | apply Keeps.ite2 | apply Keeps.ite22 | rfl | apply Keeps.foldl | apply Keeps.foldl1 | apply Keeps.foldl2 | split | dsimp only

theorem setEdgeSrc_keeps (e x) (h : Keeps b s0 s) : Keeps b s0 (State.setEdgeSrc s e x) := by
  unfold State.setEdgeSrc
  with_reducible repeat' first | assumption | intro _ | rfl | dsimp only | apply Keeps.set

theorem intervalClose_keeps (i st value flags timeout) (h : Keeps b s0 s) : Keeps b s0 (State.intervalClose s i st value flags timeout) := by
  unfold State.intervalClose
  with_reducible repeat' first | assumption | apply putRecord_keeps | apply setInterval_keeps | apply setNow_keeps | apply Keeps.ite

theorem intervalEdge_keeps (u e) (h : Keeps b s0 s) : Keeps b s0 (State.intervalEdge s u e) := by
  unfold State.intervalEdge
  with_reducible repeat' first | assumption | intro _ | apply setInterval_keeps | apply intervalClose_keeps | apply Keeps.ite | apply Keeps.ite1 | apply Keeps.ite2 | apply Keeps.ite22 | rfl | split | dsimp only

theorem releaseOne_keeps (h : Keeps b s0 s) : Keeps b s0 (State.releaseOne s) := by
  unfold State.releaseOne
  with_reducible repeat' first | assumption | intro _ | apply putRecord_keeps | apply setEdgeSrc_keeps | apply intervalEdge_keeps | apply groupEdge_keeps | apply Keeps.ite | apply Keeps.ite1 | apply Keeps.ite2 | apply Keeps.ite22 | rfl | apply Keeps.foldl | apply Keeps.foldl1 | apply Keeps.foldl2 | split | dsimp only | apply Keeps.set

theorem edgeLost_keeps (e) (h : Keeps b s0 s) : Keeps b s0 (State.edgeLost s e) := by
  unfold State.edgeLost
  with_reducible repeat' first | assumption | intro _ | apply setGroup_keeps | apply Keeps.ite | apply Keeps.foldl

theorem edgeArrival_keeps (e rise m) (h : Keeps b s0 s) : Keeps b s0 (State.edgeArrival s e rise m) := by
  unfold State.edgeArrival
  with_reducible repeat' first | assumption | intro _ | apply setEdgeSrc_keeps | apply bump_keeps | apply bumpWrap_keeps | apply emit_keeps | apply edgeLost_keeps | apply peak_keeps | apply skewEdge_keeps | apply Keeps.ite | apply Keeps.ite1 | apply Keeps.ite2 | apply Keeps.ite22 | rfl | split | dsimp only | apply Keeps.set

theorem intervalCut_keeps (i) (h : Keeps b s0 s) : Keeps b s0 (State.intervalCut s i) := by
  unfold State.intervalCut
  with_reducible repeat' first | assumption | apply intervalClose_keeps | split

theorem edgCut_keeps (h : Keeps b s0 s) : Keeps b s0 (State.edgCut s) := by
  unfold State.edgCut
  with_reducible repeat' first | assumption | intro _ | apply releaseOne_keeps | apply groupClose_keeps | apply emit_keeps | apply bump_keeps | apply intervalCut_keeps | apply Keeps.foldl | apply Keeps.forNat | split

theorem groupTimeout_keeps (g) (h : Keeps b s0 s) : Keeps b s0 (State.groupTimeout s g) := by
  unfold State.groupTimeout
  with_reducible repeat' first | assumption | apply groupClose_keeps | apply Keeps.ite | split

theorem groupLatch_keeps (g) (h : Keeps b s0 s) : Keeps b s0 (State.groupLatch s g) := by
  unfold State.groupLatch
  with_reducible repeat' first | assumption | intro _ | apply wf_keeps | apply wr_keeps | apply Keeps.ite | apply Keeps.ite1 | apply Keeps.ite2 | apply Keeps.ite22 | rfl | apply Keeps.foldl | apply Keeps.foldl1 | apply Keeps.foldl2 | split | dsimp only

theorem intervalLatch_keeps (i) (h : Keeps b s0 s) : Keeps b s0 (State.intervalLatch s i) := by
  unfold State.intervalLatch
  with_reducible repeat' first | assumption | apply wb_keeps | apply wf64_keeps | apply wf_keeps | split

theorem edgLatch_keeps (h : Keeps b s0 s) : Keeps b s0 (State.edgLatch s) := by
  unfold State.edgLatch
  with_reducible repeat' first | assumption | intro _ | apply groupLatch_keeps | apply intervalLatch_keeps | apply Keeps.foldl

theorem groupHoldoffEnd_keeps (g) (h : Keeps b s0 s) : Keeps b s0 (State.groupHoldoffEnd s g) := by
  unfold State.groupHoldoffEnd
  with_reducible repeat' first | assumption | apply setGroup_keeps | apply Keeps.ite

theorem intervalTimeout_keeps (i) (h : Keeps b s0 s) : Keeps b s0 (State.intervalTimeout s i) := by
  unfold State.intervalTimeout
  with_reducible repeat' first | assumption | apply intervalCut_keeps | apply Keeps.ite | split

theorem edgTurn_keeps (h : Keeps b s0 s) : Keeps b s0 (State.edgTurn s) := by
  unfold State.edgTurn
  with_reducible repeat' first | assumption | intro _ | rfl | dsimp only | apply Keeps.set

theorem edgeRelease_keeps (h : Keeps b s0 s) : Keeps b s0 (State.edgeRelease s) := by
  unfold State.edgeRelease
  with_reducible repeat' first | assumption | apply releaseOne_keeps | apply Keeps.ite | split

theorem unwritten_keeps (a) (h : Keeps b s0 s) : Keeps b s0 (State.unwritten s a) := by
  unfold State.unwritten
  with_reducible repeat' first | assumption | intro _ | apply wr_keeps | apply Keeps.ite | apply Keeps.ite1 | apply Keeps.ite2 | apply Keeps.ite22 | rfl | apply Keeps.foldl | apply Keeps.foldl1 | apply Keeps.foldl2 | dsimp only | apply Keeps.set

theorem showRhos_keeps (d) (h : Keeps b s0 s) : Keeps b s0 (State.showRhos s d) := by
  unfold State.showRhos
  with_reducible repeat' first | assumption | intro _ | apply showRho_keeps | apply Keeps.foldl

theorem landCfg_keeps (c a m) {f : State → State} (hf : Keeps b s0 (f s)) : Keeps b s0 (s.landCfg c a m f) := by
  unfold State.landCfg
  with_reducible repeat' first | assumption | intro _ | apply cfgTaken_keeps | apply setNow_keeps | apply emit_keeps | apply Keeps.ite | apply Keeps.ite1 | apply Keeps.ite2 | apply Keeps.ite22 | rfl | apply Keeps.foldl | apply Keeps.foldl1 | apply Keeps.foldl2 | apply Keeps.forNat | split | dsimp only | apply Keeps.set

theorem landPath_keeps (c a) {f : State → State} (h : Keeps b s0 s) (hf : Keeps b s0 (f s)) : Keeps b s0 (s.landPath c a f) := by
  unfold State.landPath
  dsimp only
  apply Keeps.ite
  · exact chrTaken_keeps _ _ _ hf
  · exact emit_keeps _ _ _ (unwritten_keeps _ h)

theorem land_keeps (a m) {f : State → State} (h : Keeps b s0 s) (hf : Keeps b s0 (f s)) : Keeps b s0 (s.land a m f) := by
  unfold State.land
  with_reducible repeat' first | assumption | intro _ | apply landCfg_keeps | apply linTaken_keeps | apply exTaken_keeps | apply cmReset_keeps | apply gdChange_keeps | apply scanTaken_keeps | apply showRhos_keeps | apply showRho_keeps | apply landPath_keeps | apply detTaken_keeps | apply condTaken_keeps | apply Keeps.ite | apply Keeps.ite1 | apply Keeps.ite2 | apply Keeps.ite22 | rfl | apply Keeps.foldl | apply Keeps.foldl1 | apply Keeps.foldl2 | apply Keeps.forNat | split

theorem landNow_keeps (a data mask m) (h : Keeps b s0 s) : Keeps b s0 (s.landNow a data mask m) := by
  unfold State.landNow
  with_reducible repeat' first | assumption | intro _ | apply land_keeps | apply setNow_keeps | apply hold_keeps | apply Keeps.ite

theorem landHeld_keeps (p) (h : Keeps b s0 s) : Keeps b s0 (s.landHeld p) := by
  unfold State.landHeld
  with_reducible repeat' first | assumption | intro _ | apply land_keeps | apply unhold_keeps | apply Keeps.ite | apply Keeps.ite1 | apply Keeps.ite2 | apply Keeps.ite22 | rfl | apply Keeps.foldl | apply Keeps.foldl1 | apply Keeps.foldl2 | apply Keeps.forNat | split | dsimp only | apply Keeps.set

theorem dropCopy_keeps (c) (h : Keeps b s0 s) : Keeps b s0 (State.dropCopy s c) := by
  unfold State.dropCopy
  with_reducible repeat' first | assumption | apply setQueue_keeps | apply dropMarked_keeps | apply giveCells_keeps | apply Keeps.ite | split

theorem holdItem_keeps (e q cfg cells i) (h : Keeps b s0 s) : Keeps b s0 (State.holdItem s e q cfg cells i) := by
  unfold State.holdItem
  with_reducible repeat' first | assumption | intro _ | apply Keeps.ite | apply Keeps.ite1 | apply Keeps.ite2 | apply Keeps.ite22 | rfl | split | dsimp only | apply Keeps.set

theorem showPress_keeps (h : Keeps b s0 s) : Keeps b s0 (State.showPress s) := by
  unfold State.showPress
  with_reducible repeat' first | assumption | intro _ | apply wf_keeps | apply Keeps.ite | apply Keeps.foldl | split

theorem pumpInf_keeps (h : Keeps b s0 s) : Keeps b s0 (State.pumpInf s) := by
  unfold State.pumpInf
  with_reducible repeat' first | assumption | intro _ | apply Keeps.ite | apply Keeps.ite1 | apply Keeps.ite2 | apply Keeps.ite22 | rfl | apply Keeps.foldl | apply Keeps.foldl1 | apply Keeps.foldl2 | split | dsimp only | apply Keeps.set

theorem writeBriq_keeps {x t} (e : s.writeBriq x = some t) (h : Keeps b s0 s) : Keeps b s0 t := by
  unfold State.writeBriq at e
  dsimp only at e
  generalize briqWords _ _ x = ws at e
  revert e
  generalize x.copies = l
  induction l generalizing s with
  | nil => intro e; cases e; exact h
  | cons c r ih =>
    intro e
    rw [List.foldl_cons] at e
    dsimp only at e
    by_cases hr : s.refuses c.1 0 ws.length
    · rw [if_pos hr] at e
      exfalso; clear ih h
      induction r with
      | nil => cases e
      | cons _ _ ih => exact ih e
    · rw [if_neg hr] at e
      exact ih (setQueue_keeps _ _ (takeCells_keeps _ _ h)) e

theorem pumpOut_keeps (h : Keeps b s0 s) : Keeps b s0 s.pumpOut := by
  unfold State.pumpOut
  with_reducible repeat' first | assumption | intro _ | (refine writeBriq_keeps (by assumption) ?_) | apply Keeps.ite | apply Keeps.ite1 | apply Keeps.ite2 | apply Keeps.ite22 | rfl | apply Keeps.foldl | apply Keeps.foldl1 | apply Keeps.foldl2 | apply Keeps.forNat | split | dsimp only | apply Keeps.set

theorem pressPump_keeps (h : Keeps b s0 s) : Keeps b s0 (State.pressPump s) := by
  unfold State.pressPump
  with_reducible repeat' first | assumption | apply showPress_keeps | apply pumpInf_keeps | apply pumpOut_keeps

theorem closeCtx_keeps (x) (h : Keeps b s0 s) : Keeps b s0 (State.closeCtx s x) := by
  unfold State.closeCtx
  with_reducible repeat' first | assumption | intro _ | rfl | dsimp only | apply Keeps.set

theorem closeQueueCtx_keeps (q) (h : Keeps b s0 s) : Keeps b s0 (State.closeQueueCtx s q) := by
  unfold State.closeQueueCtx
  with_reducible repeat' first | assumption | apply pressPump_keeps | apply closeCtx_keeps | split

theorem pressCfg_keeps (q out w) (h : Keeps b s0 s) : Keeps b s0 (State.pressCfg s q out w) := by
  unfold State.pressCfg
  with_reducible repeat' first | assumption | intro _ | apply emit_keeps | apply closeQueueCtx_keeps | apply wr_keeps | apply Keeps.ite | apply Keeps.ite1 | apply Keeps.ite2 | apply Keeps.ite22 | rfl | dsimp only | apply Keeps.set

theorem freeHeld_keeps (l) (h : Keeps b s0 s) : Keeps b s0 (State.freeHeld s l) := by
  unfold State.freeHeld
  with_reducible repeat' first | assumption | apply giveCells_keeps

theorem engineFault_keeps (b') (h : Keeps b s0 s) : Keeps b s0 (State.engineFault s b') := by
  unfold State.engineFault
  with_reducible repeat' first | assumption | intro _ | apply freeHeld_keeps | apply rangeGap_keeps | apply emit_keeps | apply wf_keeps | apply Keeps.ite | apply Keeps.ite1 | apply Keeps.ite2 | apply Keeps.ite22 | rfl | apply Keeps.foldl | apply Keeps.foldl1 | apply Keeps.foldl2 | split | dsimp only | apply Keeps.set

theorem linkCopy_keeps (b' c) (h : Keeps b s0 s) : Keeps b s0 (State.linkCopy s b' c) := by
  unfold State.linkCopy
  with_reducible repeat' first | assumption | intro _ | apply rangeGap_keeps | apply setQueue_keeps | apply dropMarked_keeps | apply link_keeps | apply Keeps.ite | apply Keeps.foldl | split

theorem countKib_keeps (reg old bytes) (h : Keeps b s0 s) : Keeps b s0 (State.countKib s reg old bytes) := by
  unfold State.countKib
  with_reducible repeat' first | assumption | apply wr_keeps

end Sys2Proof.Machine
end

