-- ==== Sys2Proof/Laws/KeepsOps3.lean ====
section
/-!
SUPPORT. What the operations keep, part 3 of 5: one lemma each, in the order in which the operations call one another.
-/
namespace Sys2Proof.Machine

open Sys2Proof

variable {b : Bool} {s0 s t : State}

theorem verifyPass_keeps (b') (h : Keeps b s0 s) : Keeps b s0 (State.verifyPass s b') := by
  unfold State.verifyPass
  with_reducible repeat' first | assumption | intro _ | apply linkCopy_keeps | apply countKib_keeps | apply bumpWrap_keeps | apply freeHeld_keeps | rfl | apply Keeps.foldl | apply Keeps.foldl1 | apply Keeps.foldl2 | dsimp only | apply Keeps.set

theorem linkPassed_keeps (h : Keeps b s0 s) : Keeps b s0 (State.linkPassed s) := by
  unfold State.linkPassed
  with_reducible repeat' first | assumption | intro _ | apply verifyPass_keeps | apply Keeps.ite | apply Keeps.ite1 | apply Keeps.ite2 | apply Keeps.ite22 | rfl | apply Keeps.foldl | apply Keeps.foldl1 | apply Keeps.foldl2 | dsimp only | apply Keeps.set

theorem consumeItem_keeps (q i) (h : Keeps b s0 s) : Keeps b s0 (State.consumeItem s q i).2 := by
  unfold State.consumeItem
  with_reducible repeat' first | assumption | apply showQueue_keeps | apply setQueue_keeps

theorem takeInto_keeps (e q i) (h : Keeps b s0 s) : Keeps b s0 (State.takeInto s e q i) := by
  unfold State.takeInto
  with_reducible repeat' first | assumption | intro _ | apply consumeItem_keeps | apply wf_keeps | apply countKib_keeps | apply holdItem_keeps | rfl | dsimp only | apply Keeps.set

theorem pressTake_keeps (e) (h : Keeps b s0 s) : Keeps b s0 (State.pressTake s e) := by
  unfold State.pressTake
  with_reducible repeat' first | assumption | intro _ | apply pressPump_keeps | apply emit_keeps | apply freeItem_keeps | apply closeCtx_keeps | apply pumpOut_keeps | apply takeInto_keeps | apply Keeps.ite | apply Keeps.ite1 | apply Keeps.ite2 | apply Keeps.ite22 | rfl | apply Keeps.foldl | apply Keeps.foldl1 | apply Keeps.foldl2 | split | dsimp only | apply Keeps.set

theorem verifyFail_keeps (i b' code) (h : Keeps b s0 s) : Keeps b s0 (State.verifyFail s i b' code) := by
  unfold State.verifyFail
  with_reducible repeat' first | assumption | intro _ | apply dropCopy_keeps | apply bump_keeps | apply wf_keeps | apply emit_keeps | apply engineFault_keeps | apply Keeps.ite | apply Keeps.ite1 | apply Keeps.ite2 | apply Keeps.ite22 | rfl | apply Keeps.foldl | apply Keeps.foldl1 | apply Keeps.foldl2 | dsimp only | apply Keeps.set

theorem pressStop_keeps (h : Keeps b s0 s) : Keeps b s0 (State.pressStop s) := by
  unfold State.pressStop
  with_reducible repeat' first | assumption | intro _ | apply pressPump_keeps | apply closeCtx_keeps | apply Keeps.ite | apply Keeps.foldl

theorem putAll_keeps {q l t} (e : s.putAll q l = some t) (h : Keeps b s0 s) : Keeps b s0 t := by
  induction l generalizing s with
  | nil => cases e; exact h
  | cons p r ih =>
    unfold State.putAll at e
    split at e
    · cases e
    · exact ih e (linkWhole_keeps _ _ h)

theorem verifyDone_keeps (i code) (h : Keeps b s0 s) : Keeps b s0 (State.verifyDone s i code) := by
  unfold State.verifyDone
  with_reducible repeat' first | assumption | intro _ | apply bumpWrap_keeps | apply pressPump_keeps | apply verifyFail_keeps | apply linkPassed_keeps | apply Keeps.ite | apply Keeps.ite1 | apply Keeps.ite2 | apply Keeps.ite22 | rfl | split | dsimp only | apply Keeps.set

theorem ageClose_keeps (q) (h : Keeps b s0 s) : Keeps b s0 (State.ageClose s q) := by
  unfold State.ageClose
  with_reducible repeat' first | assumption | apply pressPump_keeps | apply closeCtx_keeps | apply Keeps.ite | split

theorem retrievalDone_keeps (i) (h : Keeps b s0 s) : Keeps b s0 (s.retrievalDone i).2 := by
  unfold State.retrievalDone
  with_reducible repeat' first | assumption | intro _ | (refine putAll_keeps (by assumption) ?_) | apply wf_keeps | apply bump_keeps | apply bumpWrap_keeps | apply emit_keeps | apply pressPump_keeps | apply Keeps.ite | apply Keeps.ite1 | apply Keeps.ite2 | apply Keeps.ite22 | rfl | apply Keeps.foldl | apply Keeps.foldl1 | apply Keeps.foldl2 | apply Keeps.forNat | split | dsimp only | apply Keeps.set

theorem bookWrite_keeps (ctrl nsid lba abn vals) (h : Keeps b s0 s) : Keeps b s0 (State.bookWrite s ctrl nsid lba abn vals) := by
  unfold State.bookWrite
  with_reducible repeat' first | assumption | apply send_keeps | apply emit_keeps | apply bump_keeps | apply fenceHit_keeps | apply Keeps.ite

theorem setExt_keeps (x v) (h : Keeps b s0 s) : Keeps b s0 (State.setExt s x v) := by
  unfold State.setExt
  with_reducible repeat' first | assumption | intro _ | rfl | dsimp only | apply Keeps.set

theorem showExt_keeps (x) (h : Keeps b s0 s) : Keeps b s0 (State.showExt s x) := by
  unfold State.showExt
  with_reducible repeat' first | assumption | apply wf_keeps

theorem openSeg_keeps (x g) (h : Keeps b s0 s) : Keeps b s0 (State.openSeg s x g) := by
  unfold State.openSeg
  with_reducible repeat' first | assumption | intro _ | apply setExt_keeps | apply showExt_keeps | rfl | dsimp only | apply Keeps.set

theorem expire_keeps (x g) (h : Keeps b s0 s) : Keeps b s0 (State.expire s x g) := by
  unfold State.expire
  with_reducible repeat' first | assumption | intro _ | apply control_keeps | rfl | dsimp only | apply Keeps.set

theorem allocate_keeps {ok r t} (e : s.allocate ok r = some t) (h : Keeps b s0 s) : Keeps b s0 t := by
  unfold State.allocate at e
  split at e
  · cases e; exact openSeg_keeps _ _ h
  · split at e
    · cases e
    · split at e
      · split at e
        · cases e; exact openSeg_keeps _ _ (expire_keeps _ _ h)
        · cases e
      · cases e

theorem sendWrite_keeps (ctrl nsid lba bytes) (h : Keeps b s0 s) : Keeps b s0 (State.sendWrite s ctrl nsid lba bytes) := by
  unfold State.sendWrite
  with_reducible repeat' first | assumption | apply send_keeps

theorem setCtrl_keeps (n x) (h : Keeps b s0 s) : Keeps b s0 (State.setCtrl s n x) := by
  unfold State.setCtrl
  with_reducible repeat' first | assumption | intro _ | rfl | dsimp only | apply Keeps.set

theorem shareQueues_keeps (h : Keeps b s0 s) : Keeps b s0 (State.shareQueues s) := by
  unfold State.shareQueues
  with_reducible repeat' first | assumption | intro _ | apply wf_keeps | apply Keeps.ite | apply Keeps.foldl

theorem ctrlFail_keeps (n) (h : Keeps b s0 s) : Keeps b s0 (State.ctrlFail s n) := by
  unfold State.ctrlFail
  with_reducible repeat' first | assumption | intro _ | apply emit_keeps | apply wf_keeps | apply control_keeps | apply shareQueues_keeps | rfl | apply Keeps.foldl | apply Keeps.foldl1 | apply Keeps.foldl2 | dsimp only | apply Keeps.set

theorem cmdFail_keeps (n) (h : Keeps b s0 s) : Keeps b s0 (State.cmdFail s n) := by
  unfold State.cmdFail
  with_reducible repeat' first | assumption | apply setCtrl_keeps | apply ctrlFail_keeps | apply Keeps.ite

theorem writeFail_keeps (w status) (h : Keeps b s0 s) : Keeps b s0 (State.writeFail s w status) := by
  unfold State.writeFail
  with_reducible repeat' first | assumption | intro _ | apply emit_keeps | apply bump_keeps | apply cmdFail_keeps | rfl | dsimp only | apply Keeps.set

theorem issueWrite_keeps (u o) (h : Keeps b s0 s) : Keeps b s0 (State.issueWrite s u o) := by
  unfold State.issueWrite
  with_reducible repeat' first | assumption | intro _ | apply sendWrite_keeps | apply writeFail_keeps | apply emit_keeps | apply fenceHit_keeps | apply Keeps.ite | apply Keeps.ite1 | apply Keeps.ite2 | apply Keeps.ite22 | rfl | dsimp only | apply Keeps.set

theorem holdUnit_keeps (u) (h : Keeps b s0 s) : Keeps b s0 (State.holdUnit s u) := by
  unfold State.holdUnit
  with_reducible repeat' first | assumption | intro _ | rfl | dsimp only | apply Keeps.set

theorem closeUnit_keeps (o) (h : Keeps b s0 s) : Keeps b s0 (State.closeUnit s o) := by
  unfold State.closeUnit
  with_reducible repeat' first | assumption | intro _ | apply issueWrite_keeps | apply holdUnit_keeps | apply Keeps.ite | apply Keeps.ite1 | apply Keeps.ite2 | apply Keeps.ite22 | rfl | split | dsimp only | apply Keeps.set

theorem segFor_keeps {n k o} (e : s.segFor n k = some o) (h : Keeps b s0 s) : Keeps b s0 o.2 := by
  induction k generalizing s with
  | zero => cases e
  | succ k ih =>
    unfold State.segFor at e
    dsimp only at e
    revert e
    repeat' split
    all_goals intro e
    all_goals first
      | exact ih e (allocate_keeps (by assumption) h)
      | exact ih e (closeUnit_keeps _ h)
      | exact ih e (Keeps.set (closeUnit_keeps _ h) (fun _ => rfl) rfl rfl rfl)
      | (injection e with e; subst e; exact h)
      | cases e

theorem showCord_keeps (h : Keeps b s0 s) : Keeps b s0 (State.showCord s) := by
  unfold State.showCord
  with_reducible repeat' first | assumption | apply wf_keeps | apply wb_keeps | apply emit_keeps | apply Keeps.ite

theorem placeUnit_keeps {u a t} (e : s.placeUnit u a = some t) (h : Keeps b s0 s) : Keeps b s0 t := by
  have hs : ∀ (ok : Nat → Bool) (n : Nat) (x : State), Keeps b s0 x → (x.roomySeg ok n).map (fun o => x.issueWrite u o) = some t → Keeps b s0 t := by
    intro ok n x hx e
    simp only [Option.map_eq_some_iff] at e
    obtain ⟨o, _, rfl⟩ := e
    exact issueWrite_keeps _ _ hx
  unfold State.placeUnit at e
  dsimp only at e
  split at e
  · next y hy =>
    cases e
    obtain ⟨ok, _, hk⟩ := List.exists_of_findSome?_eq_some hy
    split at hk
    · cases hk; exact issueWrite_keeps _ _ h
    · split at hk
      · next ha => exact hs _ _ _ (allocate_keeps ha h) hk
      · cases hk
  · split at e
    · next ha => exact hs _ _ _ (allocate_keeps ha h) e
    · cases e

theorem pumpWrites_keeps (h : Keeps b s0 s) : Keeps b s0 (State.pumpWrites s) := by
  unfold State.pumpWrites
  with_reducible repeat' first | assumption | intro _ | (refine placeUnit_keeps (by assumption) ?_) | rfl | apply Keeps.foldl | apply Keeps.foldl1 | apply Keeps.foldl2 | split | dsimp only | apply Keeps.set

theorem newUnit_keeps (kind items ctl) (h : Keeps b s0 s) : Keeps b s0 (State.newUnit s kind items ctl).2 := by
  unfold State.newUnit
  with_reducible repeat' first | assumption | intro _ | rfl | dsimp only | apply Keeps.set

theorem closeBlocks_keeps (all) (h : Keeps b s0 s) : Keeps b s0 (State.closeBlocks s all) := by
  unfold State.closeBlocks
  with_reducible repeat' first | assumption | intro _ | apply newUnit_keeps | apply holdUnit_keeps | apply Keeps.ite | apply Keeps.ite1 | apply Keeps.ite2 | apply Keeps.ite22 | rfl | dsimp only | apply Keeps.set

theorem cordPump_keeps (h : Keeps b s0 s) : Keeps b s0 (State.cordPump s) := by
  unfold State.cordPump
  with_reducible repeat' first | assumption | apply showCord_keeps | apply pumpWrites_keeps | apply closeBlocks_keeps

theorem releasePin_keeps (p) (h : Keeps b s0 s) : Keeps b s0 (State.releasePin s p) := by
  unfold State.releasePin
  with_reducible repeat' first | assumption | apply control_keeps | apply cordPump_keeps | apply showPins_keeps | apply wf_keeps | apply Keeps.ite

theorem initCtrl_keeps (n c) (h : Keeps b s0 s) : Keeps b s0 (State.initCtrl s n c) := by
  unfold State.initCtrl
  with_reducible repeat' first | assumption | intro _ | apply emit_keeps | apply wf_keeps | apply setCtrl_keeps | apply shareQueues_keeps | apply Keeps.ite | apply Keeps.foldl

theorem recoverExt_keeps (e) (h : Keeps b s0 s) : Keeps b s0 (State.recoverExt s e) := by
  unfold State.recoverExt
  with_reducible repeat' first | assumption | apply setExt_keeps | apply wf_keeps | apply wf64_keeps

theorem sendRead_keeps (what ctrl nsid lba n) (h : Keeps b s0 s) : Keeps b s0 (State.sendRead s what ctrl nsid lba n) := by
  unfold State.sendRead
  with_reducible repeat' first | assumption | intro _ | apply send_keeps | rfl | dsimp only | apply Keeps.set

theorem pumpJobs_keeps (h : Keeps b s0 s) : Keeps b s0 (State.pumpJobs s) := by
  unfold State.pumpJobs
  with_reducible repeat' first | assumption | intro _ | apply sendRead_keeps | apply Keeps.ite | apply Keeps.ite1 | apply Keeps.ite2 | apply Keeps.ite22 | rfl | apply Keeps.foldl | apply Keeps.foldl1 | apply Keeps.foldl2 | split | dsimp only | apply Keeps.set

theorem jobGo_keeps (m kind strict q) (h : Keeps b s0 s) : Keeps b s0 (State.jobGo s m kind strict q) := by
  unfold State.jobGo
  with_reducible repeat' first | assumption | intro _ | apply wf_keeps | apply showCord_keeps | apply pumpJobs_keeps | apply Keeps.ite | apply Keeps.ite1 | apply Keeps.ite2 | apply Keeps.ite22 | rfl | dsimp only | apply Keeps.set

theorem archiveLate_keeps (h : Keeps b s0 s) : Keeps b s0 (State.archiveLate s) := by
  unfold State.archiveLate
  with_reducible repeat' first | assumption | intro _ | apply showCord_keeps | rfl | split | dsimp only | apply Keeps.set

theorem extRes_keeps (code x) (h : Keeps b s0 s) : Keeps b s0 (State.extRes s code x) := by
  unfold State.extRes
  with_reducible repeat' first | assumption | apply wf_keeps

theorem checkpoint_keeps (iepoch) (h : Keeps b s0 s) : Keeps b s0 (State.checkpoint s iepoch) := by
  unfold State.checkpoint
  with_reducible repeat' first | assumption | intro _ | apply bookWrite_keeps | apply setExt_keeps | rfl | apply Keeps.foldl | apply Keeps.foldl1 | apply Keeps.foldl2 | dsimp only | apply Keeps.set

theorem directory_keeps (changed) (h : Keeps b s0 s) : Keeps b s0 (State.directory s changed) := by
  unfold State.directory
  with_reducible repeat' first | assumption | intro _ | apply send_keeps | apply Keeps.foldl | split

theorem epochFinish_keeps (e) (h : Keeps b s0 s) : Keeps b s0 (State.epochFinish s e) := by
  unfold State.epochFinish
  with_reducible repeat' first | assumption | intro _ | apply showExt_keeps | apply control_keeps | apply wf_keeps | apply setExt_keeps | apply wr_keeps | apply directory_keeps | apply cordPump_keeps | apply checkpoint_keeps | apply Keeps.ite | apply Keeps.ite1 | apply Keeps.ite2 | apply Keeps.ite22 | rfl | apply Keeps.foldl | apply Keeps.foldl1 | apply Keeps.foldl2 | dsimp only | apply Keeps.set

theorem epochGo_keeps (h : Keeps b s0 s) : Keeps b s0 (State.epochGo s) := by
  unfold State.epochGo
  with_reducible repeat' first | assumption | intro _ | apply epochFinish_keeps | apply sendRead_keeps | apply Keeps.ite | apply Keeps.foldl | split

theorem freeUnit_keeps (u) (h : Keeps b s0 s) : Keeps b s0 (State.freeUnit s u) := by
  unfold State.freeUnit
  with_reducible repeat' first | assumption | apply giveCells_keeps

theorem writeOk_keeps (w) (h : Keeps b s0 s) : Keeps b s0 (State.writeOk s w) := by
  unfold State.writeOk
  with_reducible repeat' first | assumption | intro _ | apply setCtrl_keeps | apply freeUnit_keeps | rfl | split | dsimp only | apply Keeps.set

theorem writeComplete_keeps (id status) (h : Keeps b s0 s) : Keeps b s0 (State.writeComplete s id status) := by
  unfold State.writeComplete
  with_reducible repeat' first | assumption | apply showCord_keeps | apply epochGo_keeps | apply cordPump_keeps | apply writeOk_keeps | apply writeFail_keeps | apply Keeps.ite | split

theorem extRemove_keeps (x) (h : Keeps b s0 s) : Keeps b s0 (State.extRemove s x) := by
  unfold State.extRemove
  with_reducible repeat' first | assumption | intro _ | apply extRes_keeps | apply closeUnit_keeps | apply cordPump_keeps | apply wf_keeps | apply Keeps.ite | apply Keeps.ite1 | apply Keeps.ite2 | apply Keeps.ite22 | rfl | apply Keeps.foldl | apply Keeps.foldl1 | apply Keeps.foldl2 | dsimp only | apply Keeps.set

theorem recover_keeps (r) (h : Keeps b s0 s) : Keeps b s0 (State.recover s r) := by
  unfold State.recover
  with_reducible repeat' first | assumption | intro _ | apply recoverExt_keeps | apply showExt_keeps | apply setExt_keeps | apply setPin_keeps | apply cordPump_keeps | apply wf_keeps | apply Keeps.ite | apply Keeps.ite1 | apply Keeps.ite2 | apply Keeps.ite22 | rfl | apply Keeps.foldl | apply Keeps.foldl1 | apply Keeps.foldl2 | split | dsimp only | apply Keeps.set

theorem extAdd_keeps (a) (h : Keeps b s0 s) : Keeps b s0 (State.extAdd s a) := by
  unfold State.extAdd
  with_reducible repeat' first | assumption | intro _ | apply extRes_keeps | apply sendRead_keeps | apply Keeps.ite | apply Keeps.ite1 | apply Keeps.ite2 | apply Keeps.ite22 | rfl | dsimp only | apply Keeps.set

theorem pumpReady_keeps (h : Keeps b s0 s) : Keeps b s0 (State.pumpReady s) := by
  unfold State.pumpReady
  with_reducible repeat' first | assumption | intro _ | (refine putAll_keeps (by assumption) ?_) | rfl | apply Keeps.foldl | apply Keeps.foldl1 | apply Keeps.foldl2 | split | dsimp only | apply Keeps.set

theorem extPend_keeps (x a keep) (h : Keeps b s0 s) : Keeps b s0 (State.extPend s x a keep) := by
  unfold State.extPend
  with_reducible repeat' first | assumption | apply setExt_keeps | apply wf_keeps | apply wf64_keeps | apply extRes_keeps | apply showExt_keeps

theorem addLabel_keeps (r) (h : Keeps b s0 s) : Keeps b s0 (State.addLabel s r) := by
  unfold State.addLabel
  with_reducible repeat' first | assumption | intro _ | apply extRes_keeps | apply extPend_keeps | apply bookWrite_keeps | apply Keeps.ite | apply Keeps.ite1 | apply Keeps.ite2 | apply Keeps.ite22 | rfl | split | dsimp only | apply Keeps.set

theorem ctrlRetry_keeps (n c) (h : Keeps b s0 s) : Keeps b s0 (State.ctrlRetry s n c) := by
  unfold State.ctrlRetry
  with_reducible repeat' first | assumption | intro _ | apply initCtrl_keeps | apply cordPump_keeps | apply setExt_keeps | apply Keeps.ite | apply Keeps.foldl

theorem jobFail_keeps (j) (h : Keeps b s0 s) : Keeps b s0 (State.jobFail s j) := by
  unfold State.jobFail
  with_reducible repeat' first | assumption | intro _ | apply bump_keeps | apply pumpReady_keeps | apply Keeps.ite | apply Keeps.ite1 | apply Keeps.ite2 | apply Keeps.ite22 | rfl | dsimp only | apply Keeps.set

theorem extDo_keeps (c) (h : Keeps b s0 s) : Keeps b s0 (State.extDo s c) := by
  unfold State.extDo
  with_reducible repeat' first | assumption | apply showCord_keeps | apply extAdd_keeps | apply extRemove_keeps | split

theorem extResume_keeps (h : Keeps b s0 s) : Keeps b s0 (State.extResume s) := by
  unfold State.extResume
  with_reducible repeat' first | assumption | intro _ | apply extDo_keeps | apply Keeps.ite | apply Keeps.ite1 | apply Keeps.ite2 | apply Keeps.ite22 | rfl | apply Keeps.foldl | apply Keeps.foldl1 | apply Keeps.foldl2 | dsimp only | apply Keeps.set

theorem epochTurn_keeps (h : Keeps b s0 s) : Keeps b s0 (State.epochTurn s) := by
  unfold State.epochTurn
  with_reducible repeat' first | assumption | intro _ | rfl | dsimp only | apply Keeps.set

theorem jobRead_keeps (j l) (h : Keeps b s0 s) : Keeps b s0 (State.jobRead s j l) := by
  unfold State.jobRead
  with_reducible repeat' first | assumption | intro _ | apply pressPump_keeps | apply pumpReady_keeps | apply Keeps.ite | apply Keeps.ite1 | apply Keeps.ite2 | apply Keeps.ite22 | rfl | dsimp only | apply Keeps.set

theorem epochEnd_keeps (h : Keeps b s0 s) : Keeps b s0 (State.epochEnd s) := by
  unfold State.epochEnd
  with_reducible repeat' first | assumption | intro _ | apply epochTurn_keeps | apply closeUnit_keeps | apply closeBlocks_keeps | apply showCord_keeps | apply epochGo_keeps | apply cordPump_keeps | apply Keeps.ite | apply Keeps.ite1 | apply Keeps.ite2 | apply Keeps.ite22 | rfl | apply Keeps.foldl | apply Keeps.foldl1 | apply Keeps.foldl2 | apply Keeps.forNat | dsimp only | apply Keeps.set

theorem unitVoid_keeps (w) (h : Keeps b s0 s) : Keeps b s0 (State.unitVoid s w) := by
  unfold State.unitVoid
  with_reducible repeat' first | assumption | intro _ | apply control_keeps | apply gap_keeps | rfl | apply Keeps.foldl | apply Keeps.foldl1 | apply Keeps.foldl2 | dsimp only | apply Keeps.set

theorem extTake_keeps (c) (h : Keeps b s0 s) : Keeps b s0 (State.extTake s c) := by
  unfold State.extTake
  with_reducible repeat' first | assumption | intro _ | apply extDo_keeps | apply Keeps.ite | apply Keeps.ite1 | apply Keeps.ite2 | apply Keeps.ite22 | rfl | dsimp only | apply Keeps.set

theorem extCmd_keeps (w) (h : Keeps b s0 s) : Keeps b s0 (State.extCmd s w) := by
  unfold State.extCmd
  with_reducible repeat' first | assumption | apply extTake_keeps | apply Keeps.ite

theorem readComplete_keeps (id r) (h : Keeps b s0 s) : Keeps b s0 (State.readComplete s id r) := by
  unfold State.readComplete
  with_reducible repeat' first | assumption | intro _ | apply cmdFail_keeps | apply setCtrl_keeps | apply addLabel_keeps | apply unitVoid_keeps | apply epochGo_keeps | apply jobRead_keeps | apply jobFail_keeps | apply cordPump_keeps | apply pumpJobs_keeps | apply Keeps.ite | apply Keeps.ite1 | apply Keeps.ite2 | apply Keeps.ite22 | rfl | split | dsimp only | apply Keeps.set

theorem cordTake_keeps (h : Keeps b s0 s) : Keeps b s0 (State.cordTake s) := by
  unfold State.cordTake
  with_reducible repeat' first | assumption | intro _ | apply cordPump_keeps | apply consumeItem_keeps | apply emit_keeps | apply freeItem_keeps | (refine segFor_keeps (by assumption) ?_) | apply newUnit_keeps | apply Keeps.ite | apply Keeps.ite1 | apply Keeps.ite2 | apply Keeps.ite22 | rfl | split | dsimp only | apply Keeps.set

theorem laneClear_keeps (l) (h : Keeps b s0 s) : Keeps b s0 (State.laneClear s l) := by
  unfold State.laneClear
  with_reducible repeat' first | assumption | apply wf_keeps | apply setLane_keeps

theorem laneRest_keeps (l) (h : Keeps b s0 s) : Keeps b s0 (State.laneRest s l) := by
  unfold State.laneRest
  with_reducible repeat' first | assumption | apply laneGone_keeps | apply wf_keeps | apply laneClear_keeps

theorem laneLeave_keeps (l) (h : Keeps b s0 s) : Keeps b s0 (State.laneLeave s l) := by
  unfold State.laneLeave
  with_reducible repeat' first | assumption | apply laneRest_keeps | apply laneClear_keeps | apply Keeps.ite

theorem laneSend_keeps (l kind d) (h : Keeps b s0 s) : Keeps b s0 (State.laneSend s l kind d) := by
  unfold State.laneSend
  with_reducible repeat' first | assumption | apply send_keeps

theorem toTrain_keeps (l) (h : Keeps b s0 s) : Keeps b s0 (State.toTrain s l) := by
  unfold State.toTrain
  with_reducible repeat' first | assumption | apply setLane_keeps | apply laneSend_keeps | apply wf_keeps

theorem refShow_keeps (s0' l) (h : Keeps b s0 s) : Keeps b s0 (State.refShow s s0' l) := by
  unfold State.refShow
  with_reducible repeat' first | assumption | apply laneSend_keeps | apply Keeps.ite

theorem toDetect_keeps (l) (h : Keeps b s0 s) : Keeps b s0 (State.toDetect s l) := by
  unfold State.toDetect
  with_reducible repeat' first | assumption | apply domReset_keeps | apply laneLeave_keeps | apply refShow_keeps | apply setLane_keeps | apply laneSend_keeps | apply wf_keeps

theorem relightDone_keeps (l) (h : Keeps b s0 s) : Keeps b s0 (State.relightDone s l) := by
  unfold State.relightDone
  with_reducible repeat' first | assumption | apply toTrain_keeps | apply laneLeave_keeps | apply toDetect_keeps | apply Keeps.ite

theorem laneTx_keeps (l w) (h : Keeps b s0 s) : Keeps b s0 (State.laneTx s l w) := by
  unfold State.laneTx
  with_reducible repeat' first | assumption | apply wr_keeps | apply emit_keeps | apply Keeps.ite

theorem ctrlSend_keeps (l kind b') (h : Keeps b s0 s) : Keeps b s0 (State.ctrlSend s l kind b') := by
  unfold State.ctrlSend
  with_reducible repeat' first | assumption | apply blocksOut_keeps

theorem lpExit_keeps (l) (h : Keeps b s0 s) : Keeps b s0 (State.lpExit s l) := by
  unfold State.lpExit
  with_reducible repeat' first | assumption | apply setLane_keeps | apply laneSend_keeps | apply wf_keeps | apply Keeps.ite | split

theorem lpBlockIn_keeps (l mode ack) (h : Keeps b s0 s) : Keeps b s0 (State.lpBlockIn s l mode ack) := by
  unfold State.lpBlockIn
  with_reducible repeat' first | assumption | apply laneSend_keeps | apply ctrlSend_keeps | apply laneRest_keeps | apply wf_keeps | apply lpExit_keeps | apply Keeps.ite

theorem blockUnlock_keeps (l) (h : Keeps b s0 s) : Keeps b s0 (State.blockUnlock s l) := by
  unfold State.blockUnlock
  with_reducible repeat' first | assumption | apply setLane_keeps | apply wf_keeps

theorem laneFail_keeps (l cause) (h : Keeps b s0 s) : Keeps b s0 (State.laneFail s l cause) := by
  unfold State.laneFail
  with_reducible repeat' first | assumption | apply wf_keeps | apply bump_keeps | apply emit_keeps | apply setLane_keeps | apply toDetect_keeps

theorem relockMark_keeps (l) (h : Keeps b s0 s) : Keeps b s0 (
    let s := (s.bump (F.FLK_ERR_LOCK_LOSS l) 1).wf (F.FLK_STAT_RELOCK l) 1
    (s.setLane l { s.lane l with lostAt := s.tick.clock }).laneRelock l) := by
  with_reducible apply laneRelock_keeps
  with_reducible apply setLane_keeps
  with_reducible apply wf_keeps
  with_reducible apply bump_keeps
  exact h

theorem blockLost_keeps (l) (h : Keeps b s0 s) : Keeps b s0 (s.blockLost l) := by
  unfold State.blockLost
  have h1 := blockUnlock_keeps l h
  generalize s.blockUnlock l = x at h1 ⊢
  show Keeps b s0 (match x.laneState l with
    | 5 => x.laneFail l 0x0A
    | 6 => _
    | _ => x)
  split
  · exact laneFail_keeps _ _ h1
  · exact relockMark_keeps l h1
  · exact h1

theorem setHop_keeps (l x) (h : Keeps b s0 s) : Keeps b s0 (State.setHop s l x) := by
  unfold State.setHop
  with_reducible repeat' first | assumption | intro _ | rfl | dsimp only | apply Keeps.set

theorem hopStart_keeps (l) (h : Keeps b s0 s) : Keeps b s0 (State.hopStart s l) := by
  unfold State.hopStart
  with_reducible repeat' first | assumption | apply setHop_keeps | apply wf_keeps

theorem laneUp_keeps (l) (h : Keeps b s0 s) : Keeps b s0 (State.laneUp s l) := by
  unfold State.laneUp
  with_reducible repeat' first | assumption | apply wf64_keeps | apply wf_keeps | apply hopStart_keeps | apply setLane_keeps

theorem laneDown_keeps (l cause) (h : Keeps b s0 s) : Keeps b s0 (State.laneDown s l cause) := by
  unfold State.laneDown
  with_reducible repeat' first | assumption | apply wf_keeps | apply emit_keeps

theorem laneOff_keeps (l) (h : Keeps b s0 s) : Keeps b s0 (State.laneOff s l) := by
  unfold State.laneOff
  with_reducible repeat' first | assumption | apply laneSend_keeps | apply wf_keeps | apply domReset_keeps | apply laneLeave_keeps | apply setLane_keeps | apply laneDown_keeps | apply Keeps.ite

theorem laneFailIn_keeps (l st cause) (h : Keeps b s0 s) : Keeps b s0 (State.laneFailIn s l st cause) := by
  unfold State.laneFailIn
  with_reducible repeat' first | assumption | apply laneFail_keeps | apply Keeps.ite

theorem capsTry_keeps (l) (h : Keeps b s0 s) : Keeps b s0 (State.capsTry s l) := by
  unfold State.capsTry
  with_reducible repeat' first | assumption | apply emit_keeps | apply laneUp_keeps | apply Keeps.ite

theorem capsIn_keeps (l version rates flags) (h : Keeps b s0 s) : Keeps b s0 (State.capsIn s l version rates flags) := by
  unfold State.capsIn
  with_reducible repeat' first | assumption | apply wf_keeps | apply laneFail_keeps | apply capsTry_keeps | apply setLane_keeps | apply Keeps.ite

theorem laneDrop_keeps (l cause) (h : Keeps b s0 s) : Keeps b s0 (State.laneDrop s l cause) := by
  unfold State.laneDrop
  with_reducible repeat' first | assumption | apply laneDown_keeps | apply toDetect_keeps | apply setLane_keeps

theorem wakeFar_keeps (l) (h : Keeps b s0 s) : Keeps b s0 (State.wakeFar s l) := by
  unfold State.wakeFar
  with_reducible repeat' first | assumption | apply lpExit_keeps | apply emit_keeps | apply wf_keeps | apply Keeps.ite

theorem lpRefuse_keeps (l reason) (h : Keeps b s0 s) : Keeps b s0 (State.lpRefuse s l reason) := by
  unfold State.lpRefuse
  with_reducible repeat' first | assumption | apply emit_keeps | apply wf_keeps

theorem lpRequest_keeps (l mode) (h : Keeps b s0 s) : Keeps b s0 (State.lpRequest s l mode) := by
  unfold State.lpRequest
  with_reducible repeat' first | assumption | apply lpRefuse_keeps | apply ctrlSend_keeps | apply setLane_keeps | apply Keeps.ite

theorem clearFails_keeps (l) (h : Keeps b s0 s) : Keeps b s0 (State.clearFails s l) := by
  unfold State.clearFails
  with_reducible repeat' first | assumption | apply wf_keeps | apply setLane_keeps

theorem trainingFrame_keeps (l f adapted want) (h : Keeps b s0 s) : Keeps b s0 (State.trainingFrame s l f adapted want) := by
  unfold State.trainingFrame
  with_reducible repeat' first | assumption | apply setLane_keeps | apply Keeps.ite

theorem laneHoldEnd_keeps (l) (h : Keeps b s0 s) : Keeps b s0 (State.laneHoldEnd s l) := by
  unfold State.laneHoldEnd
  with_reducible repeat' first | assumption | apply setLane_keeps | apply wf_keeps | apply toTrain_keeps | apply Keeps.ite

theorem lanesRefLost_keeps (h : Keeps b s0 s) : Keeps b s0 (State.lanesRefLost s) := by
  unfold State.lanesRefLost
  with_reducible repeat' first | assumption | intro _ | apply laneDrop_keeps | apply wf_keeps | apply toDetect_keeps | apply Keeps.ite | apply Keeps.foldl

theorem blockLock_keeps (l) (h : Keeps b s0 s) : Keeps b s0 (State.blockLock s l) := by
  unfold State.blockLock
  with_reducible repeat' first | assumption | apply setLane_keeps | apply wf_keeps

theorem detectWindow_keeps (l seen) (h : Keeps b s0 s) : Keeps b s0 (State.detectWindow s l seen) := by
  unfold State.detectWindow
  with_reducible repeat' first | assumption | apply laneSend_keeps | apply setLane_keeps | apply wb_keeps | apply toTrain_keeps | apply Keeps.ite

theorem trainDone_keeps (l) (h : Keeps b s0 s) : Keeps b s0 (State.trainDone s l) := by
  unfold State.trainDone
  with_reducible repeat' first | assumption | apply laneSend_keeps | apply wf_keeps | apply wr_keeps | apply Keeps.ite

theorem laneRetrain_keeps (l) (h : Keeps b s0 s) : Keeps b s0 (State.laneRetrain s l) := by
  unfold State.laneRetrain
  with_reducible repeat' first | assumption | apply setLane_keeps | apply clearFails_keeps | apply toDetect_keeps | apply laneDown_keeps | apply Keeps.ite

theorem laneCtrl_keeps (l w) (h : Keeps b s0 s) : Keeps b s0 (State.laneCtrl s l w) := by
  unfold State.laneCtrl
  with_reducible repeat' first | assumption | intro _ | apply refShow_keeps | apply wr_keeps | apply laneOff_keeps | apply setLane_keeps | apply lpRefuse_keeps | apply toDetect_keeps | apply wf_keeps | apply laneRetrain_keeps | apply lpExit_keeps | apply lpRequest_keeps | apply Keeps.ite | apply Keeps.ite1 | apply Keeps.ite2 | apply Keeps.ite22 | rfl | split | dsimp only

theorem capsStart_keeps (l) (h : Keeps b s0 s) : Keeps b s0 ((s.wf (F.FLK_STAT_STATE l) 5).setLane l
    { s.lane l with capsGot := false, capsAck := false, capsSent := 0 }) := by
  with_reducible apply setLane_keeps
  with_reducible apply wf_keeps
  exact h

theorem relockEnd_keeps (l n) (h : Keeps b s0 s) : Keeps b s0 (((s.wf (F.FLK_STAT_RELOCK l) 0).showRoutes l).emit
    .LANE_RELOCK (objLink l) n) := by
  with_reducible apply emit_keeps
  with_reducible apply showRoutes_keeps
  with_reducible apply wf_keeps
  exact h

theorem blockLocked_keeps (l) (h : Keeps b s0 s) : Keeps b s0 (s.blockLocked l) := by
  unfold State.blockLocked
  have h1 := blockLock_keeps l h
  generalize s.blockLock l = x at h1 ⊢
  show Keeps b s0 (match x.laneState l with
    | 4 => _
    | 6 => if _ then _ else x
    | 7 => x.laneUp l
    | _ => x)
  split
  · exact capsStart_keeps l h1
  · exact Keeps.ite (relockEnd_keeps l _ h1) h1
  · exact laneUp_keeps _ h1
  · exact h1

theorem relockTimeout_keeps (l) (h : Keeps b s0 s) : Keeps b s0 (State.relockTimeout s l) := by
  unfold State.relockTimeout
  with_reducible repeat' first | assumption | apply laneDrop_keeps | apply setLane_keeps | apply Keeps.ite

theorem capsSend_keeps (l) (h : Keeps b s0 s) : Keeps b s0 (State.capsSend s l) := by
  unfold State.capsSend
  with_reducible repeat' first | assumption | apply ctrlSend_keeps | apply capsTry_keeps | apply setLane_keeps | apply Keeps.ite

theorem laneField_keeps (l x v) (h : Keeps b s0 s) : Keeps b s0 (State.laneField s l x v) := by
  unfold State.laneField
  with_reducible repeat' first | assumption | apply laneCtrl_keeps

theorem blockIn_keeps (l hdr) (h : Keeps b s0 s) : Keeps b s0 (State.blockIn s l hdr) := by
  unfold State.blockIn
  with_reducible repeat' first | assumption | apply setLane_keeps | apply bump_keeps | apply blockLost_keeps | apply blockLocked_keeps | apply Keeps.ite

theorem lossOfSignal_keeps (l) (h : Keeps b s0 s) : Keeps b s0 (State.lossOfSignal s l) := by
  unfold State.lossOfSignal
  with_reducible repeat' first | assumption | apply wf_keeps | apply laneDrop_keeps | apply clearFails_keeps | apply laneFail_keeps | apply Keeps.ite

theorem setPort_keeps (u x) (h : Keeps b s0 s) : Keeps b s0 (State.setPort s u x) := by
  unfold State.setPort
  with_reducible repeat' first | assumption | intro _ | rfl | dsimp only | apply Keeps.set

theorem clearOffs_keeps (h : Keeps b s0 s) : Keeps b s0 (State.clearOffs s) := by
  unfold State.clearOffs
  with_reducible repeat' first | assumption | apply setPort_keeps

theorem portsStep_keeps (d) (h : Keeps b s0 s) : Keeps b s0 (State.portsStep s d) := by
  unfold State.portsStep
  with_reducible repeat' first | assumption | apply setPort_keeps

theorem setOfs_keeps (v) (h : Keeps b s0 s) : Keeps b s0 (State.setOfs s v) := by
  unfold State.setOfs
  with_reducible repeat' first | assumption | apply wf64_keeps

theorem countOfs_keeps (o) (h : Keeps b s0 s) : Keeps b s0 (State.countOfs s o) := by
  unfold State.countOfs
  with_reducible repeat' first | assumption | intro _ | apply Keeps.ite | apply Keeps.ite1 | apply Keeps.ite2 | apply Keeps.ite22 | rfl | dsimp only | apply Keeps.set

theorem loopTake_keeps (o) (h : Keeps b s0 s) : Keeps b s0 (State.loopTake s o) := by
  unfold State.loopTake
  with_reducible repeat' first | assumption | intro _ | apply setOfs_keeps | apply Keeps.ite | apply Keeps.ite1 | apply Keeps.ite2 | apply Keeps.ite22 | rfl | dsimp only | apply Keeps.set

theorem timeOffset_keeps (h : Keeps b s0 s) : Keeps b s0 (State.timeOffset s) := by
  unfold State.timeOffset
  with_reducible repeat' first | assumption | apply emit_keeps

theorem showPort_keeps (u) (h : Keeps b s0 s) : Keeps b s0 (State.showPort s u) := by
  unfold State.showPort
  with_reducible repeat' first | assumption | apply wf64_keeps | apply wf_keeps

theorem showPorts_keeps (h : Keeps b s0 s) : Keeps b s0 (State.showPorts s) := by
  unfold State.showPorts
  with_reducible repeat' first | assumption | apply showPort_keeps

theorem servoEnter_keeps (new cause) (h : Keeps b s0 s) : Keeps b s0 (State.servoEnter s new cause) := by
  unfold State.servoEnter
  with_reducible repeat' first | assumption | intro _ | apply timeOffset_keeps | apply wf_keeps | apply emit_keeps | apply showPorts_keeps | apply condNote_keeps | apply Keeps.ite | apply Keeps.ite1 | apply Keeps.ite2 | apply Keeps.ite22 | rfl | dsimp only | apply Keeps.set

theorem acquire_keeps (u o) (h : Keeps b s0 s) : Keeps b s0 (State.acquire s u o) := by
  unfold State.acquire
  with_reducible repeat' first | assumption | intro _ | apply emit_keeps | apply clearOffs_keeps | apply portsStep_keeps | apply setOfs_keeps | apply wf_keeps | apply countOfs_keeps | apply loopTake_keeps | apply servoEnter_keeps | apply Keeps.ite | apply Keeps.ite1 | apply Keeps.ite2 | apply Keeps.ite22 | rfl | split | dsimp only | apply Keeps.set

theorem servoTake_keeps (u o) (h : Keeps b s0 s) : Keeps b s0 (State.servoTake s u o) := by
  unfold State.servoTake
  with_reducible repeat' first | assumption | intro _ | apply acquire_keeps | apply countOfs_keeps | apply loopTake_keeps | apply servoEnter_keeps | apply setOfs_keeps | apply Keeps.ite | apply Keeps.ite1 | apply Keeps.ite2 | apply Keeps.ite22 | rfl | split | dsimp only | apply Keeps.set

theorem restepRefuse_keeps (code) (h : Keeps b s0 s) : Keeps b s0 (State.restepRefuse s code) := by
  unfold State.restepRefuse
  with_reducible repeat' first | assumption | apply wf_keeps | apply fenceHit_keeps | apply Keeps.ite

theorem restepCmd_keeps (go mode cancel) (h : Keeps b s0 s) : Keeps b s0 (State.restepCmd s go mode cancel) := by
  unfold State.restepCmd
  with_reducible repeat' first | assumption | intro _ | apply emit_keeps | apply wf_keeps | apply restepRefuse_keeps | apply Keeps.ite | apply Keeps.ite1 | apply Keeps.ite2 | apply Keeps.ite22 | rfl | dsimp only | apply Keeps.set

theorem reqSend_keeps (u egress) (h : Keeps b s0 s) : Keeps b s0 (State.reqSend s u egress) := by
  unfold State.reqSend
  with_reducible repeat' first | assumption | apply setPort_keeps | apply ptpOut_keeps | apply Keeps.ite

theorem toHoldover_keeps (cause) (h : Keeps b s0 s) : Keeps b s0 (State.toHoldover s cause) := by
  unfold State.toHoldover
  with_reducible repeat' first | assumption | apply servoEnter_keeps | apply clearOffs_keeps | apply wfs_keeps | apply Keeps.ite

theorem select_keeps (cause) (h : Keeps b s0 s) : Keeps b s0 (State.select s cause) := by
  unfold State.select
  with_reducible repeat' first | assumption | intro _ | apply wb_keeps | apply wf_keeps | apply acquire_keeps | apply servoEnter_keeps | apply clearOffs_keeps | apply toHoldover_keeps | apply emit_keeps | apply showPorts_keeps | apply Keeps.ite | apply Keeps.ite1 | apply Keeps.ite2 | apply Keeps.ite22 | rfl | split | dsimp only | apply Keeps.set

theorem foreignSet_keeps (u l) (h : Keeps b s0 s) : Keeps b s0 (State.foreignSet s u l) := by
  unfold State.foreignSet
  with_reducible repeat' first | assumption | apply setPort_keeps

theorem announceTimeout_keeps (u) (h : Keeps b s0 s) : Keeps b s0 (State.announceTimeout s u) := by
  unfold State.announceTimeout
  with_reducible repeat' first | assumption | intro _ | apply select_keeps | apply foreignSet_keeps | rfl | split | dsimp only

theorem ptpIn_keeps (u p) {f : State → State} (hf : Keeps b s0 (f s)) (h : Keeps b s0 s) : Keeps b s0 (s.ptpIn u p f) := by
  unfold State.ptpIn
  with_reducible repeat' first | assumption | intro _ | apply bump_keeps | apply Keeps.ite

theorem setMpd_keeps (u d) (h : Keeps b s0 s) : Keeps b s0 (State.setMpd s u d) := by
  unfold State.setMpd
  with_reducible repeat' first | assumption | apply wf_keeps | apply setPort_keeps

theorem delayResp_keeps (u src seq receipt corr) (h : Keeps b s0 s) : Keeps b s0 (State.delayResp s u src seq receipt corr) := by
  unfold State.delayResp
  with_reducible repeat' first | assumption | intro _ | apply setMpd_keeps | apply setPort_keeps | apply Keeps.ite | apply Keeps.ite1 | apply Keeps.ite2 | apply Keeps.ite22 | rfl | split | dsimp only

theorem markerSend_keeps (l vals bs) (h : Keeps b s0 s) : Keeps b s0 (State.markerSend s l vals bs) := by
  unfold State.markerSend
  with_reducible repeat' first | assumption | apply blocksOut_keeps

theorem timeMarkers_keeps (h : Keeps b s0 s) : Keeps b s0 (State.timeMarkers s) := by
  unfold State.timeMarkers
  with_reducible repeat' first | assumption | intro _ | apply free_keeps | apply markerSend_keeps | rfl | apply Keeps.foldl | apply Keeps.foldl1 | apply Keeps.foldl2 | dsimp only | apply Keeps.set

theorem hopPublish_keeps (l) (h : Keeps b s0 s) : Keeps b s0 (State.hopPublish s l) := by
  unfold State.hopPublish
  with_reducible repeat' first | assumption | intro _ | apply wf_keeps | apply emit_keeps | apply markerSend_keeps | apply setHop_keeps | apply offerAll_keeps | apply setLane_keeps | apply Keeps.ite

theorem probeTimeout_keeps (l seq) (h : Keeps b s0 s) : Keeps b s0 (State.probeTimeout s l seq) := by
  unfold State.probeTimeout
  with_reducible repeat' first | assumption | apply setHop_keeps | apply emit_keeps | apply hopPublish_keeps | apply Keeps.ite

theorem pdelayResp_keeps (u seq turn corr stamp) (h : Keeps b s0 s) : Keeps b s0 (State.pdelayResp s u seq turn corr stamp) := by
  unfold State.pdelayResp
  with_reducible repeat' first | assumption | intro _ | apply setMpd_keeps | apply setPort_keeps | apply Keeps.ite | apply Keeps.ite1 | apply Keeps.ite2 | apply Keeps.ite22 | rfl | split | dsimp only

theorem ptpCtrl_keeps (w) (h : Keeps b s0 s) : Keeps b s0 (State.ptpCtrl s w) := by
  unfold State.ptpCtrl
  with_reducible repeat' first | assumption | intro _ | apply emit_keeps | apply wr_keeps | apply servoEnter_keeps | apply toHoldover_keeps | apply wf_keeps | apply showPorts_keeps | apply Keeps.ite | apply Keeps.ite1 | apply Keeps.ite2 | apply Keeps.ite22 | rfl | dsimp only | apply Keeps.set

theorem measure_keeps (u origin corr t2) (h : Keeps b s0 s) : Keeps b s0 (State.measure s u origin corr t2) := by
  unfold State.measure
  with_reducible repeat' first | assumption | intro _ | apply setPort_keeps | apply showPort_keeps | apply servoTake_keeps | apply Keeps.ite | apply Keeps.ite1 | apply Keeps.ite2 | apply Keeps.ite22 | rfl | split | dsimp only

theorem syncIn_keeps (u src seq two origin corr stamp) (h : Keeps b s0 s) : Keeps b s0 (State.syncIn s u src seq two origin corr stamp) := by
  unfold State.syncIn
  with_reducible repeat' first | assumption | apply bumpWrap_keeps | apply setPort_keeps | apply measure_keeps | apply Keeps.ite

theorem servoTick_keeps (h : Keeps b s0 s) : Keeps b s0 (State.servoTick s) := by
  unfold State.servoTick
  with_reducible repeat' first | assumption | intro _ | apply wfs_keeps | apply emit_keeps | apply fenceHit_keeps | apply Keeps.ite | apply Keeps.ite1 | apply Keeps.ite2 | apply Keeps.ite22 | rfl | dsimp only | apply Keeps.set

theorem announceIn_keeps (u a) (h : Keeps b s0 s) : Keeps b s0 (State.announceIn s u a) := by
  unfold State.announceIn
  with_reducible repeat' first | assumption | apply select_keeps | apply foreignSet_keeps

theorem followUpTimeout_keeps (u seq) (h : Keeps b s0 s) : Keeps b s0 (State.followUpTimeout s u seq) := by
  unfold State.followUpTimeout
  with_reducible repeat' first | assumption | apply bump_keeps | apply setPort_keeps | apply Keeps.ite

theorem followUp_keeps (u src seq origin corr) (h : Keeps b s0 s) : Keeps b s0 (State.followUp s u src seq origin corr) := by
  unfold State.followUp
  with_reducible repeat' first | assumption | intro _ | apply measure_keeps | apply setPort_keeps | rfl | split | dsimp only

theorem echoIn_keeps (l seq arrive turn) (h : Keeps b s0 s) : Keeps b s0 (State.echoIn s l seq arrive turn) := by
  unfold State.echoIn
  with_reducible repeat' first | assumption | intro _ | apply hopPublish_keeps | apply setHop_keeps | apply Keeps.ite | apply Keeps.ite1 | apply Keeps.ite2 | apply Keeps.ite22 | rfl | split | dsimp only

theorem portCompare_keeps (h : Keeps b s0 s) : Keeps b s0 (State.portCompare s) := by
  unfold State.portCompare
  with_reducible repeat' first | assumption | intro _ | apply emit_keeps | apply Keeps.ite | apply Keeps.ite1 | apply Keeps.ite2 | apply Keeps.ite22 | rfl | split | dsimp only | apply Keeps.set

theorem pdelayReq_keeps (u seq ingress egress) (h : Keeps b s0 s) : Keeps b s0 (State.pdelayReq s u seq ingress egress) := by
  unfold State.pdelayReq
  with_reducible repeat' first | assumption | apply freeWords_keeps | apply ptpOut_keeps

theorem probeSend_keeps (l depart) (h : Keeps b s0 s) : Keeps b s0 (State.probeSend s l depart) := by
  unfold State.probeSend
  with_reducible repeat' first | assumption | apply markerSend_keeps | apply setHop_keeps | apply Keeps.ite

theorem launchResult_keeps (m code k) (h : Keeps b s0 s) : Keeps b s0 (State.launchResult s m code k) := by
  unfold State.launchResult
  with_reducible repeat' first | assumption | apply wf_keeps

theorem setLslot_keeps (k x) (h : Keeps b s0 s) : Keeps b s0 (State.setLslot s k x) := by
  unfold State.setLslot
  with_reducible repeat' first | assumption | intro _ | rfl | dsimp only | apply Keeps.set

theorem launchCancel_keeps (m k) (h : Keeps b s0 s) : Keeps b s0 (State.launchCancel s m k) := by
  unfold State.launchCancel
  with_reducible repeat' first | assumption | apply launchResult_keeps | apply setLslot_keeps | apply Keeps.ite | split

theorem reasmNote_keeps (h : Keeps b s0 s) : Keeps b s0 (State.reasmNote s) := by
  unfold State.reasmNote
  with_reducible repeat' first | assumption | intro _ | apply emit_keeps | apply Keeps.ite | apply Keeps.ite1 | apply Keeps.ite2 | apply Keeps.ite22 | rfl | dsimp only | apply Keeps.set

theorem showUplinks_keeps (h : Keeps b s0 s) : Keeps b s0 (State.showUplinks s) := by
  unfold State.showUplinks
  with_reducible repeat' first | assumption | intro _ | apply emit_keeps | apply wb_keeps | apply Keeps.ite | apply Keeps.ite1 | apply Keeps.ite2 | apply Keeps.ite22 | rfl | dsimp only | apply Keeps.set

theorem portCfg_keeps (u w) (h : Keeps b s0 s) : Keeps b s0 (State.portCfg s u w) := by
  unfold State.portCfg
  with_reducible repeat' first | assumption | apply wr_keeps | apply showUplinks_keeps | apply domReset_keeps | apply domRelease_keeps | apply Keeps.ite

theorem launchCommit_keeps (m lateOk cancel) (h : Keeps b s0 s) : Keeps b s0 (State.launchCommit s m lateOk cancel) := by
  unfold State.launchCommit
  with_reducible repeat' first | assumption | apply launchResult_keeps | apply setLslot_keeps | apply Keeps.ite | split

theorem uplinkQueue_keeps (addr w master) (h : Keeps b s0 s) : Keeps b s0 (State.uplinkQueue s addr w master) := by
  unfold State.uplinkQueue
  with_reducible repeat' first | assumption | apply emit_keeps | apply wr_keeps | apply Keeps.ite

theorem streamFrame_keeps (d head words) (h : Keeps b s0 s) : Keeps b s0 (State.streamFrame s d head words).2 := by
  unfold State.streamFrame
  with_reducible repeat' first | assumption | apply udpFrame_keeps

theorem prpAccept_keeps (u src seq) (h : Keeps b s0 s) : Keeps b s0 (State.prpAccept s u src seq).2 := by
  unfold State.prpAccept
  with_reducible repeat' first | assumption | intro _ | apply bump_keeps | apply emit_keeps | apply Keeps.ite | apply Keeps.ite1 | apply Keeps.ite2 | apply Keeps.ite22 | rfl | split | dsimp only | apply Keeps.set

theorem fragments_keeps (k d kind flags q iseq len ws no off) (h : Keeps b s0 s) :
    Keeps b s0 (s.fragments k d kind flags q iseq len ws no off).2 := by
  induction k generalizing s flags ws no off with
  | zero => exact h
  | succ k ih =>
    unfold State.fragments
    dsimp only
    split
    · with_reducible apply streamFrame_keeps; exact h
    · apply ih; with_reducible apply streamFrame_keeps; exact h

theorem sendItem_keeps (q m flags front) (h : Keeps b s0 s) : Keeps b s0 (State.sendItem s q m flags front) := by
  unfold State.sendItem
  with_reducible repeat' first | assumption | intro _ | apply fragments_keeps | apply freeItem_keeps | apply showUplinks_keeps | apply txSend_keeps | apply Keeps.ite | apply Keeps.ite1 | apply Keeps.ite2 | apply Keeps.ite22 | rfl | apply Keeps.foldl | apply Keeps.foldl1 | apply Keeps.foldl2 | split | dsimp only | apply Keeps.set

theorem streamSend_keeps (h : Keeps b s0 s) : Keeps b s0 (State.streamSend s) := by
  unfold State.streamSend
  with_reducible repeat' first | assumption | apply txPump_keeps | apply sendItem_keeps | apply Keeps.ite | split

theorem linkChange_keeps (u link fit) (h : Keeps b s0 s) : Keeps b s0 (State.linkChange s u link fit) := by
  unfold State.linkChange
  with_reducible repeat' first | assumption | apply wb_keeps | apply showUplinks_keeps | apply domReset_keeps | apply domRelease_keeps | apply Keeps.ite

theorem launchStep_keeps (old new) (h : Keeps b s0 s) : Keeps b s0 (State.launchStep s old new) := by
  unfold State.launchStep
  with_reducible repeat' first | assumption | intro _ | apply setLslot_keeps | apply launchResult_keeps | apply Keeps.ite | apply Keeps.foldl | split

theorem streamWrite_keeps (m w master) (h : Keeps b s0 s) : Keeps b s0 (State.streamWrite s m w master) := by
  unfold State.streamWrite
  with_reducible repeat' first | assumption | apply emit_keeps | apply showUplinks_keeps | apply wr_keeps | apply Keeps.ite

theorem streamPort_keeps (m w master) (h : Keeps b s0 s) : Keeps b s0 (State.streamPort s m w master).2 := by
  unfold State.streamPort
  with_reducible repeat' first | assumption | apply streamWrite_keeps | apply emit_keeps | apply Keeps.ite

theorem launchReport_keeps (k x empty capped iseq e0 e1) (h : Keeps b s0 s) : Keeps b s0 (State.launchReport s k x empty capped iseq e0 e1) := by
  unfold State.launchReport
  with_reducible repeat' first | assumption | apply putPacket_keeps | apply Keeps.ite

theorem fragIn_keeps (id off len more) (h : Keeps b s0 s) : Keeps b s0 (State.fragIn s id off len more) := by
  unfold State.fragIn
  with_reducible repeat' first | assumption | intro _ | apply reasmNote_keeps | apply Keeps.ite | apply Keeps.ite1 | apply Keeps.ite2 | apply Keeps.ite22 | rfl | dsimp only | apply Keeps.set

theorem stackSend_keeps (k mac vals) (h : Keeps b s0 s) : Keeps b s0 (State.stackSend s k mac vals) := by
  unfold State.stackSend
  with_reducible repeat' first | assumption | intro _ | apply prpFrame_keeps | apply txSend_keeps | apply Keeps.ite | apply Keeps.ite1 | apply Keeps.ite2 | apply Keeps.ite22 | rfl | dsimp only | apply Keeps.set

theorem uplinkIn_keeps (u src tr kind) (h : Keeps b s0 s) : Keeps b s0 (State.uplinkIn s u src tr kind) := by
  unfold State.uplinkIn
  with_reducible repeat' first | assumption | intro _ | apply prpAccept_keeps | apply bump_keeps | apply fragIn_keeps | apply stackSend_keeps | apply Keeps.ite | apply Keeps.ite1 | apply Keeps.ite2 | apply Keeps.ite22 | rfl | split | dsimp only | apply Keeps.set

theorem groupJoin_keeps (h : Keeps b s0 s) : Keeps b s0 (State.groupJoin s) := by
  unfold State.groupJoin
  with_reducible repeat' first | assumption | apply stackSend_keeps

theorem launchCmd_keeps (m w) (h : Keeps b s0 s) : Keeps b s0 (State.launchCmd s m w) := by
  unfold State.launchCmd
  with_reducible repeat' first | assumption | apply launchCommit_keeps | apply launchCancel_keeps | apply Keeps.ite

theorem launch_keeps (k e0 e1) (h : Keeps b s0 s) : Keeps b s0 (State.launch s k e0 e1) := by
  unfold State.launch
  with_reducible repeat' first | assumption | apply sendItem_keeps | apply setLslot_keeps | apply emit_keeps | apply launchReport_keeps | apply Keeps.ite | split

theorem mboxAnswer_keeps (words) (h : Keeps b s0 s) : Keeps b s0 (State.mboxAnswer s words) := by
  unfold State.mboxAnswer
  with_reducible repeat' first | assumption | intro _ | apply wr_keeps | apply wf_keeps | apply Keeps.foldl

theorem eraseSector_keeps (sector) (h : Keeps b s0 s) : Keeps b s0 (State.eraseSector s sector) := by
  unfold State.eraseSector
  with_reducible repeat' first | assumption | intro _ | rfl | dsimp only | apply Keeps.set

theorem setSess_keeps (x) (h : Keeps b s0 s) : Keeps b s0 (State.setSess s x) := by
  unfold State.setSess
  with_reducible repeat' first | assumption | intro _ | apply Keeps.ite | apply Keeps.ite1 | apply Keeps.ite2 | apply Keeps.ite22 | rfl | dsimp only | apply Keeps.set

theorem setSessions_keeps (l) (h : Keeps b s0 s) : Keeps b s0 (State.setSessions s l) := by
  unfold State.setSessions
  with_reducible repeat' first | assumption | intro _ | apply wf_keeps | rfl | dsimp only | apply Keeps.set

theorem endSessions_keeps (p) (h : Keeps b s0 s) : Keeps b s0 (State.endSessions s p) := by
  unfold State.endSessions
  with_reducible repeat' first | assumption | apply setSessions_keeps

theorem mboxWait_keeps (m session mseq) (h : Keeps b s0 s) : Keeps b s0 (State.mboxWait s m session mseq) := by
  unfold State.mboxWait
  with_reducible repeat' first | assumption | intro _ | rfl | dsimp only | apply Keeps.set

theorem mboxTake_keeps (m session mseq fits) (h : Keeps b s0 s) : Keeps b s0 (State.mboxTake s m session mseq fits) := by
  unfold State.mboxTake
  with_reducible repeat' first | assumption | apply mboxWait_keeps | apply mboxAnswer_keeps | apply Keeps.ite

theorem mboxFree_keeps (h : Keeps b s0 s) : Keeps b s0 (State.mboxFree s) := by
  unfold State.mboxFree
  with_reducible repeat' first | assumption | apply wr_keeps

theorem authFail_keeps (session) (h : Keeps b s0 s) : Keeps b s0 (State.authFail s session) := by
  unfold State.authFail
  with_reducible repeat' first | assumption | intro _ | apply bump_keeps | apply emit_keeps | apply Keeps.ite | apply Keeps.ite1 | apply Keeps.ite2 | apply Keeps.ite22 | rfl | dsimp only | apply Keeps.set

theorem admitMsg_keeps (session mseq tagOk) (h : Keeps b s0 s) : Keeps b s0 (State.admitMsg s session mseq tagOk).2 := by
  unfold State.admitMsg
  with_reducible repeat' first | assumption | apply authFail_keeps | apply bump_keeps | apply setSess_keeps | apply Keeps.ite | split

end Sys2Proof.Machine
end

