-- ==== Sys2Proof/Laws/KeepsOps4.lean ====
section
/-!
SUPPORT. What the operations keep, part 4 of 5: one lemma each, in the order in which the operations call one another.
-/
namespace Sys2Proof.Machine

open Sys2Proof

variable {b : Bool} {s0 s t : State}

theorem mboxJudge_keeps (m session mseq) (h : Keeps b s0 s) : Keeps b s0 (s.mboxJudge m session mseq) := by
  have h1 := admitMsg_keeps session mseq true h
  unfold State.mboxJudge
  generalize s.admitMsg session mseq true = x at h1 ⊢
  obtain ⟨a, y⟩ := x
  cases a
  · exact mboxFree_keeps h1
  · exact mboxAnswer_keeps _ h1
  · exact mboxWait_keeps _ _ _ h1

theorem submitCheck_keeps (m len) (h : Keeps b s0 s) : Keeps b s0 (State.submitCheck s m len) := by
  unfold State.submitCheck
  with_reducible repeat' first | assumption | apply mboxTake_keeps | apply mboxFree_keeps | apply authFail_keeps | apply mboxJudge_keeps | apply Keeps.ite

theorem umbAnswer_keeps (via words) (h : Keeps b s0 s) : Keeps b s0 (State.umbAnswer s via words) := by
  unfold State.umbAnswer
  with_reducible repeat' first | assumption | apply mboxAnswer_keeps | apply hostSend_keeps | apply Keeps.ite | split

theorem mboxRead_keeps (m) (h : Keeps b s0 s) : Keeps b s0 (State.mboxRead s m).2 := by
  unfold State.mboxRead
  with_reducible repeat' first | assumption | apply mboxFree_keeps | apply Keeps.ite

theorem pageStart_keeps (h : Keeps b s0 s) : Keeps b s0 (State.pageStart s) := by
  unfold State.pageStart
  with_reducible repeat' first | assumption | intro _ | apply Keeps.ite | apply Keeps.ite1 | apply Keeps.ite2 | apply Keeps.ite22 | rfl | dsimp only | apply Keeps.set

theorem sensJudge_keeps (k v lo hi) (h : Keeps b s0 s) : Keeps b s0 (State.sensJudge s k v lo hi) := by
  unfold State.sensJudge
  with_reducible repeat' first | assumption | intro _ | apply umberEvent_keeps | apply Keeps.ite | apply Keeps.ite1 | apply Keeps.ite2 | apply Keeps.ite22 | rfl | dsimp only | apply Keeps.set

theorem sensSample_keeps (k v ack) (h : Keeps b s0 s) : Keeps b s0 (State.sensSample s k v ack) := by
  unfold State.sensSample
  with_reducible repeat' first | assumption | intro _ | apply sensJudge_keeps | apply wfs_keeps | apply wf_keeps | apply umberEvent_keeps | apply Keeps.ite | apply Keeps.ite1 | apply Keeps.ite2 | apply Keeps.ite22 | rfl | dsimp only | apply Keeps.set

theorem freshId_keeps (h : Keeps b s0 s) : Keeps b s0 (State.freshId s).2 := by
  unfold State.freshId
  with_reducible repeat' first | assumption | apply free_keeps

theorem keep_keeps (session mseq words) (h : Keeps b s0 s) : Keeps b s0 (State.keep s session mseq words) := by
  unfold State.keep
  with_reducible repeat' first | assumption | apply setSess_keeps | split

theorem umbReply_keeps (m op result data) (h : Keeps b s0 s) : Keeps b s0 (State.umbReply s m op result data) := by
  unfold State.umbReply
  with_reducible repeat' first | assumption | apply umbAnswer_keeps | apply keep_keeps

theorem umbOpen_keeps (key perm life sigOk) (h : Keeps b s0 s) : Keeps b s0 (State.umbOpen s key perm life sigOk) := by
  unfold State.umbOpen
  with_reducible repeat' first | assumption | intro _ | apply umbReply_keeps | apply freshId_keeps | apply setSessions_keeps | apply freeWords_keeps | apply Keeps.ite | apply Keeps.ite1 | apply Keeps.ite2 | apply Keeps.ite22 | rfl | split | dsimp only | apply Keeps.set

theorem logRecover_keeps (found) (h : Keeps b s0 s) : Keeps b s0 (State.logRecover s found) := by
  unfold State.logRecover
  with_reducible repeat' first | assumption | intro _ | apply wf64_keeps | apply eraseSector_keeps | apply umberEvent_keeps | apply wf_keeps | apply Keeps.ite | apply Keeps.ite1 | apply Keeps.ite2 | apply Keeps.ite22 | rfl | apply Keeps.foldl | apply Keeps.foldl1 | apply Keeps.foldl2 | split | dsimp only | apply Keeps.set

theorem fenceTake_keeps (a w) (h : Keeps b s0 s) : Keeps b s0 (State.fenceTake s a w) := by
  unfold State.fenceTake
  with_reducible repeat' first | assumption | apply wr_keeps | apply driverSet_keeps | apply emit_keeps | apply fenceHit_keeps | apply wfs_keeps | apply Keeps.ite

theorem pageCommit_keeps (h : Keeps b s0 s) : Keeps b s0 (State.pageCommit s) := by
  unfold State.pageCommit
  with_reducible repeat' first | assumption | intro _ | apply eraseSector_keeps | apply wf64_keeps | apply Keeps.ite | apply Keeps.ite1 | apply Keeps.ite2 | apply Keeps.ite22 | rfl | split | dsimp only | apply Keeps.set

theorem revert_keeps (type) (h : Keeps b s0 s) : Keeps b s0 (State.revert s type) := by
  unfold State.revert
  with_reducible repeat' first | assumption | intro _ | apply wf_keeps | apply umberEvent_keeps | apply Keeps.ite | apply Keeps.ite1 | apply Keeps.ite2 | apply Keeps.ite22 | rfl | split | dsimp only | apply Keeps.set

theorem submit_keeps (m len) (h : Keeps b s0 s) : Keeps b s0 (State.submit s m len) := by
  unfold State.submit
  with_reducible repeat' first | assumption | apply umberEvent_keeps | apply submitCheck_keeps | apply wf_keeps | apply mboxFree_keeps | apply Keeps.ite

theorem umbOp_keeps (op perm st) {f : UMsg → Sess → State → OpAns} (hf : ∀ m x t, Keeps b s0 t → Keeps b s0 (f m x t).2.2) (h : Keeps b s0 s) :
    Keeps b s0 (s.umbOp op perm st f) := by
  unfold State.umbOp
  with_reducible repeat' first | assumption | intro _ | apply hf | apply umbReply_keeps | apply Keeps.ite | apply Keeps.ite1 | apply Keeps.ite2 | apply Keeps.ite22 | rfl | apply Keeps.foldl | apply Keeps.foldl1 | apply Keeps.foldl2 | apply Keeps.forNat | split | dsimp only | apply Keeps.set

theorem sltReset_keeps (cause) (h : Keeps b s0 s) : Keeps b s0 (State.sltReset s cause) := by
  unfold State.sltReset
  with_reducible repeat' first | assumption | intro _ | apply domReset_keeps | rfl | dsimp only | apply Keeps.set

theorem pcieReset_keeps (cause) (h : Keeps b s0 s) : Keeps b s0 (State.pcieReset s cause) := by
  unfold State.pcieReset
  with_reducible repeat' first | assumption | intro _ | apply writeComplete_keeps | apply readComplete_keeps | apply domReset_keeps | apply Keeps.foldl | split

theorem ddrReset_keeps (cause) (h : Keeps b s0 s) : Keeps b s0 (State.ddrReset s cause) := by
  unfold State.ddrReset
  with_reducible repeat' first | assumption | intro _ | apply wf_keeps | apply domReset_keeps | rfl | dsimp only | apply Keeps.set

theorem rstReq_keeps (w) (h : Keeps b s0 s) : Keeps b s0 (State.rstReq s w) := by
  unfold State.rstReq
  with_reducible repeat' first | assumption | apply sltReset_keeps | apply domReset_keeps | apply pcieReset_keeps | apply ddrReset_keeps | apply Keeps.ite

theorem tileGaps_keeps (t' cause lo hi) (h : Keeps b s0 s) : Keeps b s0 (State.tileGaps s t' cause lo hi) := by
  unfold State.tileGaps
  with_reducible repeat' first | assumption | intro _ | apply gap_keeps | apply bump_keeps | apply Keeps.ite | apply Keeps.foldl | split

theorem tileResume_keeps (t') (h : Keeps b s0 s) : Keeps b s0 (State.tileResume s t') := by
  unfold State.tileResume
  with_reducible repeat' first | assumption | apply setTile_keeps | apply tileGaps_keeps | apply Keeps.ite | split

theorem tileDrop_keeps (t') (h : Keeps b s0 s) : Keeps b s0 (State.tileDrop s t') := by
  unfold State.tileDrop
  with_reducible repeat' first | assumption | intro _ | apply setTile_keeps | apply Keeps.ite | apply Keeps.ite1 | apply Keeps.ite2 | apply Keeps.ite22 | rfl | apply Keeps.foldl | apply Keeps.foldl1 | apply Keeps.foldl2 | split | dsimp only | apply Keeps.set

theorem tileDrivers_keeps (t' stop) (h : Keeps b s0 s) : Keeps b s0 (State.tileDrivers s t' stop) := by
  unfold State.tileDrivers
  with_reducible repeat' first | assumption | intro _ | apply driverSet_keeps | rfl | apply Keeps.foldl | apply Keeps.foldl1 | apply Keeps.foldl2 | dsimp only | apply Keeps.set

theorem smpRelease_keeps (h : Keeps b s0 s) : Keeps b s0 (State.smpRelease s) := by
  unfold State.smpRelease
  with_reducible repeat' first | assumption | intro _ | apply tileResume_keeps | apply domRelease_keeps | apply Keeps.ite | apply Keeps.foldl

theorem tileReset_keeps (t' cause) (h : Keeps b s0 s) : Keeps b s0 (State.tileReset s t' cause) := by
  unfold State.tileReset
  with_reducible repeat' first | assumption | apply domReset_keeps | apply setTile_keeps | apply tileDrop_keeps | apply Keeps.ite

theorem tileRelease_keeps (t') (h : Keeps b s0 s) : Keeps b s0 (State.tileRelease s t') := by
  unfold State.tileRelease
  with_reducible repeat' first | assumption | apply domRelease_keeps | apply setTile_keeps | apply tileResume_keeps | apply Keeps.ite

theorem smpReset_keeps (cause) (h : Keeps b s0 s) : Keeps b s0 (State.smpReset s cause) := by
  unfold State.smpReset
  with_reducible repeat' first | assumption | intro _ | apply domReset_keeps | apply tileDrop_keeps | apply Keeps.ite | apply Keeps.foldl

theorem tileUnmark_keeps (t') (h : Keeps b s0 s) : Keeps b s0 (State.tileUnmark s t') := by
  unfold State.tileUnmark
  with_reducible repeat' first | assumption | intro _ | apply tileGaps_keeps | apply setTile_keeps | apply gpeAwait_keeps | apply landHeld_keeps | apply emit_keeps | apply tileDrivers_keeps | apply Keeps.ite | apply Keeps.foldl

theorem tileMark_keeps (t') (h : Keeps b s0 s) : Keeps b s0 (State.tileMark s t') := by
  unfold State.tileMark
  with_reducible repeat' first | assumption | apply tileGaps_keeps | apply setTile_keeps | apply emit_keeps | apply visitsDown_keeps | apply tileDrivers_keeps | apply Keeps.ite | split

theorem pairTake_keeps (x r s0') (h : Keeps b s0 s) : Keeps b s0 (State.pairTake s x r s0') := by
  unfold State.pairTake
  with_reducible repeat' first | assumption | intro _ | apply setVisit_keeps | apply Keeps.ite | apply Keeps.ite1 | apply Keeps.ite2 | apply Keeps.ite22 | rfl | split | dsimp only

theorem stageConv_keeps (s0' x) (h : Keeps b s0 s) : Keeps b s0 (State.stageConv s s0' x) := by
  unfold State.stageConv
  with_reducible repeat' first | assumption | intro _ | apply wb_keeps | apply gpeReach_keeps | apply pairTake_keeps | apply sessValue_keeps | apply estFeed_keeps | apply feedCode_keeps | apply feedLocal_keeps | apply Keeps.ite | apply Keeps.ite1 | apply Keeps.ite2 | apply Keeps.ite22 | rfl | dsimp only | apply Keeps.set

theorem writeDet_keeps (x) (h : Keeps b s0 s) : Keeps b s0 (s.writeDet x).1 := by
  unfold State.writeDet
  with_reducible repeat' first | assumption | intro _ | apply wr_keeps | apply wf_keeps | apply bumpWrap_keeps | apply Keeps.ite | apply Keeps.ite1

theorem writeChannel_keeps (c ws) (h : Keeps b s0 s) : Keeps b s0 (s.writeChannel c ws).1 := by
  unfold State.writeChannel
  with_reducible repeat' first | assumption | intro _ | apply supply_keeps | apply Keeps.ite | apply Keeps.ite1 | apply Keeps.ite2 | apply Keeps.ite22 | rfl | apply Keeps.foldl | apply Keeps.foldl1 | apply Keeps.foldl2 | apply Keeps.forNat | split | dsimp only | apply Keeps.set

theorem releaseWords_keeps (h : Keeps b s0 s) : Keeps b s0 (State.releaseWords s) := by
  unfold State.releaseWords
  with_reducible repeat' first | assumption | intro _ | apply condRelease_keeps | apply writeChannel_keeps | apply writeDet_keeps | apply ingress_keeps | rfl | apply Keeps.foldl | apply Keeps.foldl1 | apply Keeps.foldl2 | dsimp only | apply Keeps.set

theorem lossGaps_keeps (cause l) (h : Keeps b s0 s) : Keeps b s0 (State.lossGaps s cause l) := by
  unfold State.lossGaps
  with_reducible repeat' first | assumption | intro _ | apply gap_keeps | apply Keeps.foldl

theorem tileFrame_keeps (t' n ok) (h : Keeps b s0 s) : Keeps b s0 (State.tileFrame s t' n ok) := by
  unfold State.tileFrame
  with_reducible repeat' first | assumption | intro _ | apply lossGaps_keeps | apply setTile_keeps | apply Keeps.ite | apply Keeps.ite1 | apply Keeps.ite2 | apply Keeps.ite22 | rfl | dsimp only | apply Keeps.set

theorem senseShow_keeps (m v l c) (h : Keeps b s0 s) : Keeps b s0 (State.senseShow s m v l c) := by
  unfold State.senseShow
  with_reducible repeat' first | assumption | intro _ | apply wfs_keeps | apply wb_keeps | apply emit_keeps | apply Keeps.ite | apply Keeps.ite1 | apply Keeps.ite2 | apply Keeps.ite22 | rfl | dsimp only | apply Keeps.set

theorem driverShow_keeps (m d) (h : Keeps b s0 s) : Keeps b s0 (State.driverShow s m d) := by
  unfold State.driverShow
  with_reducible repeat' first | assumption | apply wf_keeps

theorem fillStaging_keeps (t' c) (h : Keeps b s0 s) : Keeps b s0 (State.fillStaging s t' c) := by
  unfold State.fillStaging
  with_reducible repeat' first | assumption | intro _ | apply Keeps.ite | apply Keeps.ite1 | apply Keeps.ite2 | apply Keeps.ite22 | rfl | dsimp only | apply Keeps.set

theorem overlapTick_keeps (t' n) (h : Keeps b s0 s) : Keeps b s0 (State.overlapTick s t' n) := by
  unfold State.overlapTick
  with_reducible repeat' first | assumption | apply setVisit_keeps | apply endVisit_keeps | apply Keeps.ite | split

theorem stoppedGap_keeps (t' c) (h : Keeps b s0 s) : Keeps b s0 (State.stoppedGap s t' c) := by
  unfold State.stoppedGap
  with_reducible repeat' first | assumption | apply gap_keeps | apply Keeps.ite

theorem stagingClose_keeps (m) (h : Keeps b s0 s) : Keeps b s0 (State.stagingClose s m) := by
  unfold State.stagingClose
  with_reducible repeat' first | assumption | intro _ | apply releaseWords_keeps | apply atCycle_keeps | apply lossGaps_keeps | apply estDrop_keeps | apply senseShow_keeps | apply driverShow_keeps | apply stageConv_keeps | apply fillStaging_keeps | apply overlapTick_keeps | apply feedRemote_keeps | apply stoppedGap_keeps | apply edgLatch_keeps | apply Keeps.ite | apply Keeps.ite1 | apply Keeps.ite2 | apply Keeps.ite22 | rfl | apply Keeps.foldl | apply Keeps.foldl1 | apply Keeps.foldl2 | apply Keeps.forNat | dsimp only | apply Keeps.set

theorem hearthParity_keeps (h') (h : Keeps b s0 s) : Keeps b s0 (State.hearthParity s h') := by
  unfold State.hearthParity
  with_reducible repeat' first | assumption | apply emit_keeps | apply setHearth_keeps | apply Keeps.ite

theorem faultNow_keeps (h' code x) (h : Keeps b s0 s) : Keeps b s0 (faultNow s h' code x).1 := by
  unfold faultNow
  with_reducible repeat' first | assumption | apply sticky_keeps

theorem readView_keeps (h' view d c i x) (h : Keeps b s0 s) : Keeps b s0 (readView h' view d c i s x).1 := by
  unfold readView
  with_reducible repeat' first | assumption | intro _ | apply faultNow_keeps | apply Keeps.ite | apply Keeps.ite1

theorem issueTram_keeps (n p c a i) {f : State → Hearth → Nat → State × Hearth} (hf : ∀ x k, Keeps b s0 (f s x k).1) (h : Keeps b s0 s) :
    Keeps b s0 (s.issueTram n p c a i f) := by
  unfold State.issueTram
  exact issue_keeps _ _ _ (fun x => hf x _) h

theorem swapDecide_keeps (b') (h : Keeps b s0 s) : Keeps b s0 (State.swapDecide s b') := by
  unfold State.swapDecide
  with_reducible repeat' first | assumption | intro _ | apply emit_keeps | apply wf_keeps | apply bump_keeps | apply wf64_keeps | apply bumpWrap_keeps | apply tramWrite_keeps | apply retryJoins_keeps | apply divideRing_keeps | apply Keeps.ite | apply Keeps.foldl

theorem swapLast_keeps (l) (h : Keeps b s0 s) : Keeps b s0 (State.swapLast s l) := by
  unfold State.swapLast
  with_reducible repeat' first | assumption | intro _ | apply swapDecide_keeps | apply emit_keeps | apply Keeps.foldl | split

theorem swapBoundary_keeps (t') (h : Keeps b s0 s) : Keeps b s0 (State.swapBoundary s t') := by
  unfold State.swapBoundary
  with_reducible repeat' first | assumption | intro _ | apply swapLast_keeps | rfl | dsimp only | apply Keeps.set

theorem loadEnd_keeps (code detail) (h : Keeps b s0 s) : Keeps b s0 (State.loadEnd s code detail) := by
  unfold State.loadEnd
  with_reducible repeat' first | assumption | intro _ | apply wr_keeps | apply wf_keeps | rfl | dsimp only | apply Keeps.set

theorem showBounds_keeps (h : Keeps b s0 s) : Keeps b s0 (State.showBounds s) := by
  unfold State.showBounds
  with_reducible repeat' first | assumption | intro _ | apply wf_keeps | apply Keeps.forNat

theorem loadRefuse_keeps (v) (h : Keeps b s0 s) : Keeps b s0 (State.loadRefuse s v) := by
  unfold State.loadRefuse
  with_reducible repeat' first | assumption | apply free_keeps | apply loadEnd_keeps | apply wf_keeps | apply setBank_keeps | apply emit_keeps | split

theorem loadCheckDone_keeps (h : Keeps b s0 s) : Keeps b s0 (State.loadCheckDone s) := by
  unfold State.loadCheckDone
  with_reducible repeat' first | assumption | apply showBounds_keeps | apply loadRefuse_keeps | apply setBank_keeps | apply wf_keeps | apply loadEnd_keeps | apply Keeps.ite

theorem loadData_keeps (m w) (h : Keeps b s0 s) : Keeps b s0 (State.loadData s m w) := by
  unfold State.loadData
  with_reducible repeat' first | assumption | intro _ | apply emit_keeps | apply loadRefuse_keeps | apply wf_keeps | apply Keeps.ite | apply Keeps.ite1 | apply Keeps.ite2 | apply Keeps.ite22 | rfl | dsimp only | apply Keeps.set

theorem wipeBank_keeps (b' st) (h : Keeps b s0 s) : Keeps b s0 (State.wipeBank s b' st) := by
  unfold State.wipeBank
  with_reducible repeat' first | assumption | intro _ | apply wr_keeps | apply wf_keeps | apply setBank_keeps | apply Keeps.forNat

theorem loadAbandon_keeps (code) (h : Keeps b s0 s) : Keeps b s0 (State.loadAbandon s code) := by
  unfold State.loadAbandon
  with_reducible repeat' first | assumption | apply emit_keeps | apply loadEnd_keeps | apply wipeBank_keeps

theorem loadAbort_keeps (m) (h : Keeps b s0 s) : Keeps b s0 (State.loadAbort s m) := by
  unfold State.loadAbort
  with_reducible repeat' first | assumption | apply loadAbandon_keeps | apply Keeps.ite

theorem loadStart_keeps (m b' abort) (h : Keeps b s0 s) : Keeps b s0 (State.loadStart s m b' abort) := by
  unfold State.loadStart
  with_reducible repeat' first | assumption | intro _ | apply emit_keeps | apply wipeBank_keeps | apply wf_keeps | apply Keeps.ite | apply Keeps.ite1 | apply Keeps.ite2 | apply Keeps.ite22 | rfl | dsimp only | apply Keeps.set

theorem loadCtrl_keeps (m w) (h : Keeps b s0 s) : Keeps b s0 (State.loadCtrl s m w) := by
  unfold State.loadCtrl
  with_reducible repeat' first | assumption | apply loadStart_keeps | apply loadAbort_keeps | apply Keeps.ite

theorem swapRequest_keeps (b') (h : Keeps b s0 s) : Keeps b s0 (State.swapRequest s b') := by
  unfold State.swapRequest
  with_reducible repeat' first | assumption | intro _ | apply swapDecide_keeps | apply Keeps.ite | apply Keeps.ite1 | apply Keeps.ite2 | apply Keeps.ite22 | rfl | dsimp only | apply Keeps.set

theorem stopNow_keeps (h : Keeps b s0 s) : Keeps b s0 s.stopNow := by
  unfold State.stopNow
  have h1 : Keeps b s0 (s.tick.items.foldl (fun s i => s.emit .SCHED_DROPPED 0 [(i.seq : Int)]) s) :=
    Keeps.foldl (fun x i hx => emit_keeps _ _ _ hx) _ h
  generalize s.tick.items.foldl (fun s i => s.emit .SCHED_DROPPED 0 [(i.seq : Int)]) s = x at h1 ⊢
  dsimp only
  have h2 : Keeps b s0 (match x.front.session with
    | some y => x.sessionEnd x.tick.num y (some 0x05)
    | none => x) := by
    split
    · exact sessionEnd_keeps _ _ _ h1
    · exact h1
  have h3 := pressStop_keeps h2
  generalize (match x.front.session with
    | some y => x.sessionEnd x.tick.num y (some 0x05)
    | none => x).pressStop = z at h3 ⊢
  have h4 : Keeps b s0 (if z.ticking then
      { z with tick.stopTick := z.tick.jump.getD (z.tick.num + 1) - 1,
               tick.stopEnd := boundaryClock z.rate (z.tick.jump.getD (z.tick.num + 1)), tick.stopped := z.activeList }
    else z) := by
    apply Keeps.ite _ h3
    apply Keeps.set h3
    · intro _; rfl
    · rfl
    · rfl
    · rfl
  apply Keeps.any (wf_keeps F.KLN_TICK_CTRL_RUN 0 (wf_keeps F.KLN_TICK_STATE_STATE 3 h4))
  · intro _; rfl
  · intro _; exact Nat.zero_le _
  · exact id
  · exact id

theorem runClear_keeps (h : Keeps b s0 s) : Keeps b s0 (State.runClear s) := by
  unfold State.runClear
  with_reducible repeat' first | assumption | apply wf_keeps | apply stopNow_keeps | apply Keeps.ite

theorem idleGap_keeps (cause lo hi t0 t1 c) (h : Keeps b s0 s) : Keeps b s0 (State.idleGap s cause lo hi t0 t1 c) := by
  unfold State.idleGap
  with_reducible repeat' first | assumption | apply gap_keeps | apply setSlot_keeps | apply Keeps.ite | split

theorem rateSet_keeps (n) (h : Keeps b s0 s) : Keeps b s0 (State.rateSet s n) := by
  unfold State.rateSet
  with_reducible repeat' first | assumption | apply emit_keeps | apply wf_keeps | apply Keeps.ite

theorem runStart_keeps (h : Keeps b s0 s) : Keeps b s0 (State.runStart s) := by
  unfold State.runStart
  with_reducible repeat' first | assumption | apply emit_keeps | apply wf_keeps | apply condNote_keeps | apply Keeps.ite

theorem tickCtrlWrite_keeps (n run) (h : Keeps b s0 s) : Keeps b s0 (State.tickCtrlWrite s n run) := by
  unfold State.tickCtrlWrite
  with_reducible repeat' first | assumption | apply rateSet_keeps | apply runStart_keeps | apply runClear_keeps | apply Keeps.ite

theorem store_keeps (x w) (h : Keeps b s0 s) : Keeps b s0 (State.store s x w) := by
  unfold State.store
  with_reducible repeat' first | assumption | intro _ | apply hold_keeps | apply landNow_keeps | apply wr_keeps | apply Keeps.ite | apply Keeps.ite1 | apply Keeps.ite2 | apply Keeps.ite22 | rfl | split | dsimp only | apply Keeps.set

theorem wrGpio_keeps (x) (h : Keeps b s0 s) : Keeps b s0 (State.wrGpio s x) := by
  unfold State.wrGpio
  with_reducible repeat' first | assumption | apply wr_keeps | apply store_keeps | apply Keeps.ite

theorem wrUpl_keeps (x) (h : Keeps b s0 s) : Keeps b s0 (State.wrUpl s x) := by
  unfold State.wrUpl
  with_reducible repeat' first | assumption | apply showUplinks_keeps | apply store_keeps | apply groupJoin_keeps | apply portCfg_keeps | apply streamPort_keeps | apply streamWrite_keeps | apply uplinkQueue_keeps | apply launchCmd_keeps | apply Keeps.ite

theorem storeEnv_keeps (x w l) (h : Keeps b s0 s) : Keeps b s0 (State.storeEnv s x w l) := by
  unfold State.storeEnv
  with_reducible repeat' first | assumption | apply wr_keeps | apply envExceeded_keeps | apply store_keeps | split

theorem wrScan_keeps (x d) (h : Keeps b s0 s) : Keeps b s0 (State.wrScan s x d) := by
  unfold State.wrScan
  with_reducible repeat' first | assumption | apply emit_keeps | apply storeEnv_keeps | apply Keeps.ite

theorem wrCnv_keeps (x) (h : Keeps b s0 s) : Keeps b s0 (State.wrCnv s x) := by
  unfold State.wrCnv
  with_reducible repeat' first | assumption | apply wrScan_keeps | apply visitWrite_keeps | apply store_keeps | apply Keeps.ite

theorem wrKnd_keeps (x) (h : Keeps b s0 s) : Keeps b s0 (State.wrKnd s x) := by
  unfold State.wrKnd
  with_reducible repeat' first | assumption | apply trigCmd_keeps | apply skewCmd_keeps | apply emit_keeps | apply store_keeps | apply Keeps.ite

theorem wrPath_keeps (x) (h : Keeps b s0 s) : Keeps b s0 (State.wrPath s x) := by
  unfold State.wrPath
  with_reducible repeat' first | assumption | apply wr_keeps | apply emit_keeps | apply storeEnv_keeps | apply Keeps.ite

theorem wrAfeCfg_keeps (x) (h : Keeps b s0 s) : Keeps b s0 (State.wrAfeCfg s x) := by
  unfold State.wrAfeCfg
  with_reducible repeat' first | assumption | apply emit_keeps | apply storeEnv_keeps | apply store_keeps | apply Keeps.ite

theorem wrPtn_keeps (x) (h : Keeps b s0 s) : Keeps b s0 (State.wrPtn s x) := by
  unfold State.wrPtn
  with_reducible repeat' first | assumption | apply ptnCtrl_keeps | apply store_keeps | apply ptnTake_keeps | apply slotSet_keeps | apply wb_keeps | apply Keeps.ite

theorem wrEdg_keeps (x) (h : Keeps b s0 s) : Keeps b s0 (State.wrEdg s x) := by
  unfold State.wrEdg
  with_reducible repeat' first | assumption | apply emit_keeps | apply store_keeps | apply Keeps.ite

theorem wrCrd_keeps (x) (h : Keeps b s0 s) : Keeps b s0 (State.wrCrd s x) := by
  unfold State.wrCrd
  with_reducible repeat' first | assumption | apply showCord_keeps | apply store_keeps | apply extCmd_keeps | apply releasePin_keeps | apply jobGo_keeps | apply emit_keeps | apply Keeps.ite

theorem wrQueue_keeps (x) (h : Keeps b s0 s) : Keeps b s0 (State.wrQueue s x) := by
  unfold State.wrQueue
  with_reducible repeat' first | assumption | apply emit_keeps | apply wr_keeps | apply disableQueue_keeps | apply Keeps.ite

theorem wrQmg_keeps (x) (h : Keeps b s0 s) : Keeps b s0 (State.wrQmg s x) := by
  unfold State.wrQmg
  with_reducible repeat' first | assumption | apply wrQueue_keeps | apply emit_keeps | apply flushQueue_keeps | apply winBind_keeps | apply histSet_keeps | apply store_keeps | apply Keeps.ite

theorem umbAbsent_keeps (h : Keeps b s0 s) : Keeps b s0 (State.umbAbsent s) := by
  unfold State.umbAbsent
  with_reducible repeat' first | assumption | intro _ | apply emit_keeps | apply Keeps.ite | apply Keeps.ite1 | apply Keeps.ite2 | apply Keeps.ite22 | rfl | dsimp only | apply Keeps.set

theorem wrAfe_keeps (x) (h : Keeps b s0 s) : Keeps b s0 (State.wrAfe s x) := by
  unfold State.wrAfe
  with_reducible repeat' first | assumption | apply store_keeps | apply emit_keeps | apply wrAfeCfg_keeps | apply storeEnv_keeps | apply utSelect_keeps | apply Keeps.ite | split

theorem wrKln_keeps (x) (h : Keeps b s0 s) : Keeps b s0 (State.wrKln s x) := by
  unfold State.wrKln
  with_reducible repeat' first | assumption | intro _ | apply tickCtrlWrite_keeps | apply schedCmd_keeps | apply loadCtrl_keeps | apply loadData_keeps | apply swapRequest_keeps | apply store_keeps | apply Keeps.ite | apply Keeps.ite1 | apply Keeps.ite2 | apply Keeps.ite22 | rfl | split | dsimp only | apply Keeps.set

theorem wrWindow_keeps (m a data mask) (h : Keeps b s0 s) : Keeps b s0 (State.wrWindow s m a data mask) := by
  unfold State.wrWindow
  with_reducible repeat' first | assumption | apply tramWrite_keeps | apply emit_keeps | apply chrBankWrite_keeps | apply wr_keeps | apply Keeps.ite

theorem wrCal_keeps (x) (h : Keeps b s0 s) : Keeps b s0 (State.wrCal s x) := by
  unfold State.wrCal
  with_reducible repeat' first | assumption | apply store_keeps | apply emit_keeps | apply calCmd_keeps | apply calLoad_keeps | apply Keeps.ite

theorem wrDet_keeps (x) (h : Keeps b s0 s) : Keeps b s0 (State.wrDet s x) := by
  unfold State.wrDet
  with_reducible repeat' first | assumption | apply emit_keeps | apply storeEnv_keeps | apply store_keeps | apply Keeps.ite

theorem wrChr_keeps (x) (h : Keeps b s0 s) : Keeps b s0 (State.wrChr s x) := by
  unfold State.wrChr
  with_reducible repeat' first | assumption | intro _ | apply chrCtrl_keeps | apply chrSwapRequest_keeps | apply wrPath_keeps | apply wrDet_keeps | apply store_keeps | apply Keeps.ite | apply Keeps.ite1 | apply Keeps.ite2 | apply Keeps.ite22 | rfl | split | dsimp only | apply Keeps.set

theorem wrFlk_keeps (x) (h : Keeps b s0 s) : Keeps b s0 (State.wrFlk s x) := by
  unfold State.wrFlk
  with_reducible repeat' first | assumption | apply laneCtrl_keeps | apply laneTx_keeps | apply store_keeps | apply Keeps.ite

theorem wrPtp_keeps (x) (h : Keeps b s0 s) : Keeps b s0 (State.wrPtp s x) := by
  unfold State.wrPtp
  with_reducible repeat' first | assumption | apply ptpCtrl_keeps | apply restepCmd_keeps | apply store_keeps | apply select_keeps | apply setPort_keeps | apply showPort_keeps | apply Keeps.ite

theorem wrBlock_keeps (x) (h : Keeps b s0 s) : Keeps b s0 (State.wrBlock s x) := by
  unfold State.wrBlock
  with_reducible repeat' first | assumption | apply submit_keeps | apply store_keeps | apply wrKln_keeps | apply wrAfe_keeps | apply wrCnv_keeps | apply wrCal_keeps | apply wrChr_keeps | apply wrFlk_keeps | apply wrPtn_keeps | apply wrPtp_keeps | apply wrEdg_keeps | apply wrKnd_keeps | apply wrQmg_keeps | apply pressCfg_keeps | apply wrCrd_keeps | apply wrUpl_keeps | apply wrGpio_keeps | apply rstReq_keeps | apply Keeps.ite | split

theorem busError_keeps (m a write) (h : Keeps b s0 s) : Keeps b s0 (State.busError s m a write) := by
  unfold State.busError
  with_reducible repeat' first | assumption | intro _ | apply wr_keeps | apply emitFrom_keeps | apply Keeps.ite | apply Keeps.ite1 | apply Keeps.ite2 | apply Keeps.ite22 | rfl | dsimp only | apply Keeps.set

theorem busWrite_keeps (m a data mask due) (h : Keeps b s0 s) : Keeps b s0 (State.busWrite s m a data mask due) := by
  unfold State.busWrite
  with_reducible repeat' first | assumption | apply busError_keeps | apply umbAbsent_keeps | apply wrWindow_keeps | apply emitFrom_keeps | apply wrBlock_keeps | apply Keeps.ite | split

theorem hostWrite_keeps (m a data) (h : Keeps b s0 s) : Keeps b s0 (State.hostWrite s m a data) := by
  unfold State.hostWrite
  with_reducible repeat' first | assumption | apply busWrite_keeps

theorem latchTick_keeps (m) (h : Keeps b s0 s) : Keeps b s0 (State.latchTick s m) := by
  unfold State.latchTick
  with_reducible repeat' first | assumption | apply wr_keeps

theorem tramBusRead_keeps (m i) (h : Keeps b s0 s) : Keeps b s0 (State.tramBusRead s m i).2 := by
  unfold State.tramBusRead
  with_reducible repeat' first | assumption | apply tramCount_keeps | apply emit_keeps | apply Keeps.ite

theorem rdWindow_keeps (m a) (h : Keeps b s0 s) : Keeps b s0 (State.rdWindow s m a).2 := by
  unfold State.rdWindow
  with_reducible repeat' first | assumption | intro _ | apply tramBusRead_keeps | apply Keeps.ite | apply Keeps.ite1 | apply Keeps.ite2

theorem latchNow_keeps (m) (h : Keeps b s0 s) : Keeps b s0 (State.latchNow s m) := by
  unfold State.latchNow
  with_reducible repeat' first | assumption | apply wr_keeps

theorem pinsIn_keeps (h : Keeps b s0 s) : Keeps b s0 (State.pinsIn s).2 := by
  unfold State.pinsIn
  with_reducible repeat' first | assumption | intro _ | apply Keeps.ite | apply Keeps.ite1 | apply Keeps.ite2 | apply Keeps.ite22 | rfl | apply Keeps.foldl | apply Keeps.foldl1 | apply Keeps.foldl2 | split | dsimp only | apply Keeps.set

theorem refPpm_keeps (h : Keeps b s0 s) : Keeps b s0 (State.refPpm s).2 := by
  unfold State.refPpm
  with_reducible repeat' first | assumption | apply free_keeps

theorem busRead_keeps (m a) (h : Keeps b s0 s) : Keeps b s0 (State.busRead s m a).2 := by
  unfold State.busRead
  with_reducible repeat' first | assumption | apply busError_keeps | apply umbAbsent_keeps | apply rdWindow_keeps | apply latchTick_keeps | apply latchNow_keeps | apply winRead_keeps | apply mboxRead_keeps | apply pinsIn_keeps | apply refPpm_keeps | apply Keeps.ite | split

theorem hostRead_keeps (m a) (h : Keeps b s0 s) : Keeps b s0 (State.hostRead s m a) := by
  unfold State.hostRead
  with_reducible repeat' first | assumption | intro _ | apply busRead_keeps | rfl | dsimp only | apply Keeps.set

theorem tramUpset_keeps (i e) (h : Keeps b s0 s) : Keeps b s0 (State.tramUpset s i e) := by
  unfold State.tramUpset
  with_reducible repeat' first | assumption | intro _ | apply Keeps.ite | apply Keeps.ite1 | apply Keeps.ite2 | apply Keeps.ite22 | rfl | split | dsimp only | apply Keeps.set

theorem hcpWrites_keeps (st l a k) (h : Keeps b s0 s) : Keeps b s0 (s.hcpWrites st l a k).2.2 := by
  induction l generalizing s a k with
  | nil => exact h
  | cons w r ih =>
    unfold State.hcpWrites
    dsimp only
    split
    · exact hostWrite_keeps _ _ _ h
    · exact ih _ _ (hostWrite_keeps _ _ _ h)

theorem fifoReads_keeps (a n l) (h : Keeps b s0 s) : Keeps b s0 (s.fifoReads a n l).2.2 := by
  induction n generalizing s l with
  | zero => exact h
  | succ n ih =>
    unfold State.fifoReads
    dsimp only
    split
    · split
      · exact h
      · exact ih _ (busRead_keeps _ _ h)
    · split
      · exact busRead_keeps _ _ h
      · exact ih _ (busRead_keeps _ _ h)

theorem noticeSend_keeps (h : Keeps b s0 s) : Keeps b s0 (State.noticeSend s) := by
  unfold State.noticeSend
  with_reducible repeat' first | assumption | intro _ | apply hostSend_keeps | apply Keeps.ite | apply Keeps.ite1 | apply Keeps.ite2 | apply Keeps.ite22 | rfl | apply Keeps.foldl | apply Keeps.foldl1 | apply Keeps.foldl2 | dsimp only | apply Keeps.set

theorem hcpSend_keeps (words) (h : Keeps b s0 s) : Keeps b s0 (State.hcpSend s words) := by
  unfold State.hcpSend
  with_reducible repeat' first | assumption | apply hostSend_keeps

theorem hcpAnswer_keeps (x status) (h : Keeps b s0 s) : Keeps b s0 (State.hcpAnswer s x status) := by
  unfold State.hcpAnswer
  with_reducible repeat' first | assumption | apply hcpSend_keeps | apply keep_keeps

theorem hcpPump_keeps (h : Keeps b s0 s) : Keeps b s0 (State.hcpPump s) := by
  unfold State.hcpPump
  with_reducible repeat' first | assumption | intro _ | apply hcpAnswer_keeps | apply Keeps.ite | apply Keeps.ite1 | apply Keeps.ite2 | apply Keeps.ite22 | rfl | split | dsimp only | apply Keeps.set

theorem hcpAccept_keeps (session mseq ty) (h : Keeps b s0 s) : Keeps b s0 (State.hcpAccept s session mseq ty) := by
  unfold State.hcpAccept
  with_reducible repeat' first | assumption | intro _ | apply hcpPump_keeps | apply Keeps.ite | apply Keeps.ite1 | apply Keeps.ite2 | apply Keeps.ite22 | rfl | split | dsimp only | apply Keeps.set

theorem hcpSched_keeps (tick addr data mask lateOk) (h : Keeps b s0 s) : Keeps b s0 (State.hcpSched s tick addr data mask lateOk).2.2.2 := by
  unfold State.hcpSched
  with_reducible repeat' first | assumption | apply wf64_keeps | apply wf_keeps | apply wr_keeps | apply schedCommit_keeps

theorem opDone_keeps (op result stop count data) (h : Keeps b s0 s) : Keeps b s0 (State.opDone s op result stop count data) := by
  unfold State.opDone
  with_reducible repeat' first | assumption | intro _ | apply hcpPump_keeps | rfl | split | dsimp only | apply Keeps.set

theorem hcpReads_keeps (st n a l) (h : Keeps b s0 s) : Keeps b s0 (s.hcpReads st n a l).2.2 := by
  induction n generalizing s a l with
  | zero => exact h
  | succ n ih =>
    unfold State.hcpReads
    dsimp only
    split
    · exact busRead_keeps _ _ h
    · exact ih _ _ (busRead_keeps _ _ h)

theorem hcpOp_keeps (op a st ps) {f : State → Nat × Nat × List Word × State} (hf : Keeps b s0 (f s).2.2.2) (h : Keeps b s0 s) :
    Keeps b s0 (s.hcpOp op a st ps f) := by
  unfold State.hcpOp
  with_reducible repeat' first | assumption | intro _ | apply opDone_keeps | apply Keeps.ite | apply Keeps.ite1 | apply Keeps.ite2 | apply Keeps.ite22 | rfl | apply Keeps.foldl | apply Keeps.foldl1 | apply Keeps.foldl2 | apply Keeps.forNat | split

theorem hcpMessage_keeps (a m t f y) (h : Keeps b s0 s) : Keeps b s0 (s.hcpMessage a m t f y) := by
  have hm := admitMsg_keeps a m true h
  unfold State.hcpMessage
  dsimp only
  with_reducible repeat' first | assumption | intro _ | apply hcpSend_keeps | apply authFail_keeps | apply hcpAccept_keeps | (next e => rw [e] at hm; exact hm) | apply Keeps.ite | apply Keeps.ite1 | apply Keeps.ite2 | apply Keeps.ite22 | rfl | apply Keeps.foldl | apply Keeps.foldl1 | apply Keeps.foldl2 | apply Keeps.forNat | split

theorem stokerStop_keeps (c) (h : Keeps b s0 s) : Keeps b s0 (State.stokerStop s c) := by
  unfold State.stokerStop
  with_reducible repeat' first | assumption | intro _ | apply bump_keeps | apply wf_keeps | apply domReset_keeps | apply mboxFree_keeps | apply loadAbandon_keeps | apply Keeps.ite | apply Keeps.ite1 | apply Keeps.ite2 | apply Keeps.ite22 | rfl | split | dsimp only | apply Keeps.set

theorem stokerRestart_keeps (c) (h : Keeps b s0 s) : Keeps b s0 (State.stokerRestart s c) := by
  unfold State.stokerRestart
  with_reducible repeat' first | assumption | apply stokerStop_keeps | apply revert_keeps | apply Keeps.ite

theorem gapForward_keeps (h : Keeps b s0 s) : Keeps b s0 s.gapForward := by
  unfold State.gapForward
  split
  · exact h
  · next g _ hg =>
    have hp : ∀ (x : State) (d : Bool) (q : Nat), Keeps b s0 x → Keeps b s0 (if d then (true, x) else x.putPacket q (gapWords g)).2 :=
      fun x d q hx => Keeps.ite2 hx (putPacket_keeps _ _ hx)
    dsimp only
    refine Keeps.ite h ?_
    have hy := hp _ (!s.flag F.UPL_GAPQ_EN || s.hub.gapUplinked) (s.f F.UPL_GAPQ_Q)
      (hp s (!s.flag F.CRD_GAPQ_EN || s.hub.gapArchived) (s.f F.CRD_GAPQ_Q) h)
    apply Keeps.ite
    · apply wf_keeps
      apply Keeps.any hy
      · intro _; rfl
      · exact id
      · exact id
      · intro hl; rw [List.length_drop]; omega
    · apply Keeps.set hy
      · intro _; rfl
      · rfl
      · rfl
      · rfl

theorem evWrite_keeps (up ws) (h : Keeps b s0 s) : Keeps b s0 (State.evWrite s up ws) := by
  unfold State.evWrite
  with_reducible repeat' first | assumption | intro _ | apply putPacket_keeps | apply Keeps.ite | apply Keeps.ite1 | apply Keeps.ite2 | apply Keeps.ite22 | rfl | split | dsimp only | apply Keeps.set

theorem toHost_keeps (e) (h : Keeps b s0 s) : Keeps b s0 (State.toHost s e) := by
  unfold State.toHost
  with_reducible repeat' first | assumption | intro _ | apply evWrite_keeps | apply logRecord_keeps | apply wf_keeps | apply Keeps.ite | apply Keeps.foldl

theorem stormEnd_keeps (n) (h : Keeps b s0 s) : Keeps b s0 (State.stormEnd s n) := by
  unfold State.stormEnd
  with_reducible repeat' first | assumption | intro _ | apply toHost_keeps | apply Keeps.ite | apply Keeps.ite1 | apply Keeps.ite2 | apply Keeps.ite22 | rfl | split | dsimp only | apply Keeps.set

theorem stokerRunning_keeps (h : Keeps b s0 s) : Keeps b s0 (State.stokerRunning s) := by
  unfold State.stokerRunning
  with_reducible repeat' first | assumption | intro _ | apply wf_keeps | apply domRelease_keeps | apply hcpAnswer_keeps | apply Keeps.ite | apply Keeps.ite1 | apply Keeps.ite2 | apply Keeps.ite22 | rfl | apply Keeps.foldl | apply Keeps.foldl1 | apply Keeps.foldl2 | dsimp only | apply Keeps.set

theorem stormTake_keeps (e) (h : Keeps b s0 s) : Keeps b s0 (State.stormTake s e).2 := by
  unfold State.stormTake
  with_reducible repeat' first | assumption | intro _ | apply toHost_keeps | apply Keeps.ite | apply Keeps.ite1 | apply Keeps.ite2 | apply Keeps.ite22 | rfl | split | dsimp only | apply Keeps.set

theorem trialLost_keeps (h : Keeps b s0 s) : Keeps b s0 (State.trialLost s) := by
  unfold State.trialLost
  with_reducible repeat' first | assumption | apply revert_keeps | apply stokerStop_keeps | apply Keeps.ite

theorem stokerRelease_keeps (h : Keeps b s0 s) : Keeps b s0 (State.stokerRelease s) := by
  unfold State.stokerRelease
  with_reducible repeat' first | assumption | intro _ | apply wf_keeps | apply domRelease_keeps | apply Keeps.ite | apply Keeps.ite1 | apply Keeps.ite2 | apply Keeps.ite22 | rfl | split | dsimp only | apply Keeps.set

theorem evRetry_keeps (h : Keeps b s0 s) : Keeps b s0 (State.evRetry s) := by
  unfold State.evRetry
  with_reducible repeat' first | assumption | intro _ | apply evWrite_keeps | rfl | apply Keeps.foldl | apply Keeps.foldl1 | apply Keeps.foldl2 | dsimp only | apply Keeps.set

theorem forwardEvent_keeps (h : Keeps b s0 s) : Keeps b s0 s.forwardEvent := by
  unfold State.forwardEvent
  split
  · exact h
  · have h1 := evRetry_keeps h
    dsimp only
    generalize s.evRetry = x at h1 ⊢
    split
    · next e r _ hq =>
      have h2 : Keeps b s0 { x with hub.evq := r } := by
        apply Keeps.any h1
        · intro _; rfl
        · exact id
        · intro he; rw [hq] at he; simp only [evqDepth, List.map_cons, List.sum_cons] at he ⊢; omega
        · exact id
      with_reducible repeat' first | assumption | intro _ | apply stormTake_keeps | apply toHost_keeps | apply wf_keeps | apply evWrite_keeps | apply Keeps.ite | apply Keeps.ite1 | apply Keeps.ite2 | apply Keeps.ite22 | rfl | apply Keeps.foldl
    · exact h1

theorem spisOut_keeps (compat status l) (h : Keeps b s0 s) : Keeps b s0 (State.spisOut s compat status l) := by
  unfold State.spisOut
  with_reducible repeat' first | assumption | apply send_keeps

theorem spisWord_keeps (l) (h : Keeps b s0 s) : Keeps b s0 (State.spisWord s l).2 := by
  unfold State.spisWord
  with_reducible repeat' first | assumption | intro _ | apply Keeps.ite | apply Keeps.ite1 | apply Keeps.ite2 | apply Keeps.ite22 | rfl | split | dsimp only | apply Keeps.set

theorem spisStep_keeps (h : Keeps b s0 s) : Keeps b s0 (State.spisStep s) := by
  unfold State.spisStep
  with_reducible repeat' first | assumption | intro _ | apply Keeps.ite | apply Keeps.ite1 | apply Keeps.ite2 | apply Keeps.ite22 | rfl | dsimp only | apply Keeps.set

theorem spisDrain_keeps (h : Keeps b s0 s) : Keeps b s0 (State.spisDrain s) := by
  unfold State.spisDrain
  with_reducible repeat' first | assumption | intro _ | apply hostWrite_keeps | rfl | apply Keeps.foldl | apply Keeps.foldl1 | apply Keeps.foldl2 | dsimp only | apply Keeps.set

theorem spisIssue_keeps (slow x w) (h : Keeps b s0 s) : Keeps b s0 (State.spisIssue s slow x w).1 := by
  unfold State.spisIssue
  with_reducible repeat' first | assumption | intro _ | apply spisStep_keeps | apply hostWrite_keeps | apply spisDrain_keeps | apply Keeps.ite | apply Keeps.ite1 | apply Keeps.ite2 | apply Keeps.ite22 | rfl | dsimp only | apply Keeps.set

theorem spisByte_keeps (slow x a b') (h : Keeps b s0 s) : Keeps b s0 (State.spisByte s slow x a b').1 := by
  unfold State.spisByte
  with_reducible repeat' first | assumption | intro _ | apply spisWord_keeps | apply spisIssue_keeps | apply Keeps.ite | apply Keeps.ite1 | apply Keeps.ite2 | apply Keeps.ite22 | rfl | dsimp only | apply Keeps.set

theorem spisLate_keeps (h : Keeps b s0 s) : Keeps b s0 (State.spisLate s) := by
  unfold State.spisLate
  with_reducible repeat' first | assumption | intro _ | apply busRead_keeps | rfl | split | dsimp only | apply Keeps.set

theorem spisReady_keeps {k x} (e : s.spisReady k = some x) (h : Keeps b s0 s) : Keeps b s0 x.2 := by
  unfold State.spisReady at e
  split at e
  · cases e
  · split at e
    · cases e; exact h.set (fun _ => rfl) rfl rfl rfl
    · split at e
      · split at e
        · cases e; exact h
        · cases e
      · cases e

theorem spisFall_keeps (h : Keeps b s0 s) : Keeps b s0 (State.spisFall s) := by
  unfold State.spisFall
  with_reducible repeat' first | assumption | intro _ | apply busRead_keeps | apply Keeps.ite | apply Keeps.ite1 | apply Keeps.ite2 | apply Keeps.ite22 | rfl | split | dsimp only | apply Keeps.set

theorem spisPut_keeps (sl l a x) (h : Keeps b s0 s) : Keeps b s0 (s.spisPut sl l a x).1 := by
  induction l generalizing s a x with
  | nil => exact h
  | cons y r ih => exact ih _ _ (spisByte_keeps _ _ _ _ h)

theorem spisWrite_keeps (a bytes slow) (h : Keeps b s0 s) : Keeps b s0 (State.spisWrite s a bytes slow) := by
  unfold State.spisWrite
  with_reducible repeat' first | assumption | intro _ | apply spisFall_keeps | apply spisDrain_keeps | apply spisPut_keeps | apply spisOut_keeps | apply Keeps.ite | apply Keeps.ite1 | apply Keeps.ite2 | apply Keeps.ite22 | rfl | split | dsimp only | apply Keeps.set

theorem spisDeliver_keeps (k w) (h : Keeps b s0 s) : Keeps b s0 (State.spisDeliver s k w) := by
  unfold State.spisDeliver
  with_reducible repeat' first | assumption | intro _ | apply Keeps.ite | apply Keeps.ite1 | apply Keeps.ite2 | apply Keeps.ite22 | rfl | dsimp only | apply Keeps.set

theorem spisRepeat_keeps (k) (h : Keeps b s0 s) : Keeps b s0 (State.spisRepeat s k) := by
  unfold State.spisRepeat
  with_reducible repeat' first | assumption | intro _ | apply Keeps.ite | apply Keeps.ite1 | apply Keeps.ite2 | apply Keeps.ite22 | rfl | dsimp only | apply Keeps.set

theorem spisSlot_keeps (k late) (h : Keeps b s0 s) : Keeps b s0 (State.spisSlot s k late).2 := by
  unfold State.spisSlot
  with_reducible repeat' first | assumption | intro _ | (refine spisReady_keeps (by assumption) ?_) | apply spisDeliver_keeps | apply spisLate_keeps | apply spisRepeat_keeps | apply busRead_keeps | apply Keeps.ite | apply Keeps.ite1 | apply Keeps.ite2 | apply Keeps.ite22 | rfl | split | dsimp only | apply Keeps.set

theorem spisBytes_keeps (lt n a k on l) (h : Keeps b s0 s) : Keeps b s0 (s.spisBytes lt n a k on l).2 := by
  induction n generalizing s a k on l with
  | zero => exact h
  | succ n ih =>
    unfold State.spisBytes
    dsimp only
    with_reducible repeat' first | assumption | intro _ | apply ih | apply spisSlot_keeps | apply spisStep_keeps | split

theorem spisRead_keeps (a n late) (h : Keeps b s0 s) : Keeps b s0 (State.spisRead s a n late) := by
  unfold State.spisRead
  with_reducible repeat' first | assumption | apply spisFall_keeps | apply spisDrain_keeps | apply spisBytes_keeps | apply spisOut_keeps

theorem portWrite_keeps (h' pc p off data) (h : Keeps b s0 s) : Keeps b s0 (State.portWrite s h' pc p off data) := by
  unfold State.portWrite
  with_reducible repeat' first | assumption | apply faultAt_keeps | apply busWrite_keeps | apply Keeps.ite | split

theorem postRoute_keeps (h' pc c q) (h : Keeps b s0 s) : Keeps b s0 (State.postRoute s h' pc c q) := by
  unfold State.postRoute
  with_reducible repeat' first | assumption | intro _ | apply faultAt_keeps | apply Keeps.ite | apply Keeps.ite1 | apply Keeps.ite2 | apply Keeps.ite22 | rfl | dsimp only | apply Keeps.set

theorem postEnq_keeps (h' pc q v eop) (h : Keeps b s0 s) : Keeps b s0 (State.postEnq s h' pc q v eop) := by
  unfold State.postEnq
  with_reducible repeat' first | assumption | apply faultAt_keeps | apply setQueue_keeps | apply putWord_keeps | apply Keeps.ite

theorem postFire_keeps (h' pc u c i mode) (h : Keeps b s0 s) : Keeps b s0 (State.postFire s h' pc u c i mode) := by
  unfold State.postFire
  with_reducible repeat' first | assumption | apply faultAt_keeps | apply fire_keeps | apply Keeps.ite | split

theorem postPins_keeps (h' pc m v o) (h : Keeps b s0 s) : Keeps b s0 (State.postPins s h' pc m v o) := by
  unfold State.postPins
  with_reducible repeat' first | assumption | intro _ | apply faultAt_keeps | apply Keeps.ite | apply Keeps.ite1 | apply Keeps.ite2 | apply Keeps.ite22 | rfl | dsimp only | apply Keeps.set

theorem postSpix_keeps (h' pc d m) (h : Keeps b s0 s) : Keeps b s0 (State.postSpix s h' pc d m) := by
  unfold State.postSpix
  with_reducible repeat' first | assumption | intro _ | apply faultAt_keeps | apply tramCount_keeps | apply tramWrite_keeps | apply bump_keeps | apply Keeps.ite | apply Keeps.ite1 | apply Keeps.ite2 | apply Keeps.ite22 | rfl | apply Keeps.forNat | dsimp only | apply Keeps.set

theorem postSig_keeps (h' pc imm) (h : Keeps b s0 s) : Keeps b s0 (State.postSig s h' pc imm) := by
  unfold State.postSig
  with_reducible repeat' first | assumption | apply faultAt_keeps | apply emit_keeps | apply setHearth_keeps | apply Keeps.ite

theorem postedAct_keeps (h' e) (h : Keeps b s0 s) : Keeps b s0 (State.postedAct s h' e) := by
  unfold State.postedAct
  with_reducible repeat' first | assumption | apply portWrite_keeps | apply postRoute_keeps | apply postEnq_keeps | apply postFire_keeps | apply postPins_keeps | apply postSpix_keeps | apply postSig_keeps | split

theorem drainOne_keeps (h') (h : Keeps b s0 s) : Keeps b s0 (State.drainOne s h') := by
  unfold State.drainOne
  with_reducible repeat' first | assumption | apply postedAct_keeps | apply setHearth_keeps | split

theorem pinChange_keeps (c) (h : Keeps b s0 s) : Keeps b s0 (State.pinChange s c) := by
  unfold State.pinChange
  with_reducible repeat' first | assumption | intro _ | apply wr_keeps

theorem pinsUpTo_keeps (cyc) (h : Keeps b s0 s) : Keeps b s0 (State.pinsUpTo s cyc) := by
  unfold State.pinsUpTo
  with_reducible repeat' first | assumption | intro _ | apply pinChange_keeps | rfl | apply Keeps.foldl | apply Keeps.foldl1 | apply Keeps.foldl2 | dsimp only | apply Keeps.set

theorem post_keeps (h' p op) (h : Keeps b s0 s) : Keeps b s0 (State.post s h' p op) := by
  unfold State.post
  with_reducible repeat' first | assumption | apply setHearth_keeps | apply Keeps.ite

theorem spimTick_keeps (t') (h : Keeps b s0 s) : Keeps b s0 (State.spimTick s t') := by
  unfold State.spimTick
  with_reducible repeat' first | assumption | intro _ | rfl | dsimp only | apply Keeps.set

theorem readOut_keeps (n p) {f : State → Hearth → State × Hearth} (hf : ∀ t x, Keeps b s0 t → Keeps b s0 (f t x).1) (h : Keeps b s0 s) : Keeps b s0 (s.readOut n p f) := by
  unfold State.readOut
  with_reducible repeat' first | assumption | intro _ | apply hf | apply setHearth_keeps | apply drainAll_keeps | apply Keeps.ite

theorem pinsLast_keeps (h : Keeps b s0 s) : Keeps b s0 (State.pinsLast s) := by
  unfold State.pinsLast
  with_reducible repeat' first | assumption | intro _ | apply pinChange_keeps | rfl | apply Keeps.foldl | apply Keeps.foldl1 | apply Keeps.foldl2 | dsimp only | apply Keeps.set

theorem spimSelect_keeps (m w1 active) (h : Keeps b s0 s) : Keeps b s0 (State.spimSelect s m w1 active) := by
  unfold State.spimSelect
  with_reducible repeat' first | assumption | apply wr_keeps | apply Keeps.ite

theorem tramSetByte_keeps (i j v) (h : Keeps b s0 s) : Keeps b s0 (State.tramSetByte s i j v) := by
  unfold State.tramSetByte
  with_reducible repeat' first | assumption | apply tramWrite_keeps

theorem spimEnd_keeps (m rx) (h : Keeps b s0 s) : Keeps b s0 (State.spimEnd s m rx) := by
  unfold State.spimEnd
  with_reducible repeat' first | assumption | intro _ | apply spimSelect_keeps | apply tramSetByte_keeps | apply tramWrite_keeps | apply bumpWrap_keeps | apply Keeps.ite | apply Keeps.ite1 | apply Keeps.ite2 | apply Keeps.ite22 | rfl | apply Keeps.forNat | split | dsimp only | apply Keeps.set

theorem spimStart_keeps (m cyc) (h : Keeps b s0 s) : Keeps b s0 (State.spimStart s m cyc) := by
  unfold State.spimStart
  with_reducible repeat' first | assumption | intro _ | apply bump_keeps | apply tramCount_keeps | apply send_keeps | apply spimSelect_keeps | apply Keeps.ite | apply Keeps.ite1 | apply Keeps.ite2 | apply Keeps.ite22 | rfl | apply Keeps.forNat | split | dsimp only | apply Keeps.set

theorem hearthAbort_keeps (h') (h : Keeps b s0 s) : Keeps b s0 (State.hearthAbort s h') := by
  unfold State.hearthAbort
  with_reducible repeat' first | assumption | apply setHearth_keeps | apply Keeps.ite

theorem drainFrom_keeps (c) (h : Keeps b s0 s) : Keeps b s0 (State.drainFrom s c) := by
  unfold State.drainFrom
  with_reducible repeat' first | assumption | intro _ | apply drainOne_keeps | apply Keeps.forNat

theorem hearthClear_keeps (h') (h : Keeps b s0 s) : Keeps b s0 (State.hearthClear s h') := by
  unfold State.hearthClear
  with_reducible repeat' first | assumption | apply setHearth_keeps

theorem hearthShow_keeps (h') (h : Keeps b s0 s) : Keeps b s0 (State.hearthShow s h') := by
  unfold State.hearthShow
  with_reducible repeat' first | assumption | apply peak_keeps | apply wf_keeps | apply setHearth_keeps | apply emit_keeps | apply Keeps.ite

theorem tailGuard_keeps (h : Keeps b s0 s) : Keeps b s0 (State.tailGuard s) := by
  unfold State.tailGuard
  with_reducible repeat' first | assumption | intro _ | apply atCycle_keeps | apply hearthAbort_keeps | apply emit_keeps | apply drainFrom_keeps | apply hearthClear_keeps | apply hearthShow_keeps | apply Keeps.ite | apply Keeps.ite1 | apply Keeps.ite2 | apply Keeps.ite22 | rfl | apply Keeps.foldl | apply Keeps.foldl1 | apply Keeps.foldl2 | dsimp only | apply Keeps.set

theorem tickStop_keeps (h : Keeps b s0 s) : Keeps b s0 (State.tickStop s) := by
  unfold State.tickStop
  with_reducible repeat' first | assumption | apply stopNow_keeps | apply pinsLast_keeps | apply tailGuard_keeps | apply wf_keeps | apply Keeps.ite

theorem itemApply_keeps (t i) (h : Keeps b s0 s) : Keeps b s0 (s.itemApply t i) := by
  unfold State.itemApply
  have h1 : Keeps b s0 { s with tick.items := s.tick.items.erase i } := by
    apply Keeps.any h
    · intro _; rfl
    · intro hi; exact le_trans (List.Sublist.length_le (List.Sublist.filter _ List.erase_sublist)) hi
    · exact id
    · exact id
  generalize ({ s with tick.items := s.tick.items.erase i } : State) = x at h1 ⊢
  with_reducible repeat' first | assumption | intro _ | apply armNow_keeps | apply busWrite_keeps | apply emit_keeps | apply Keeps.ite

theorem boundaryRows_keeps (t') (h : Keeps b s0 s) : Keeps b s0 (State.boundaryRows s t') := by
  unfold State.boundaryRows
  with_reducible repeat' first | assumption | intro _ | apply landHeld_keeps | apply calBoundary_keeps | apply itemApply_keeps | apply chrSwapBoundary_keeps | apply swapBoundary_keeps | apply disarmBoundary_keeps | apply joinBoundary_keeps | apply Keeps.foldl

theorem tickHead_keeps (t) (h : Keeps false s0 s) : Keeps false s0 (s.tickHead t) := by
  unfold State.tickHead
  apply Keeps.set (pinsLast_keeps h)
  · intro e; cases e
  · rfl
  · rfl
  · rfl

theorem boundaryBlocks_keeps (t') (h : Keeps b s0 s) : Keeps b s0 (State.boundaryBlocks s t') := by
  unfold State.boundaryBlocks
  with_reducible repeat' first | assumption | intro _ | apply senseBoundary_keeps | apply calBoundary_keeps | apply estBoundary_keeps | apply visitBoundary_keeps | apply calRefresh_keeps | apply detBoundary_keeps | apply codeBoundary_keeps | apply applyBoundary_keeps | apply skewBoundary_keeps | apply showFilling_keeps | apply chrJudge_keeps | apply Keeps.foldl | apply Keeps.forNat

theorem noticeForget_keeps (h : Keeps b s0 s) : Keeps b s0 (State.noticeForget s) := by
  unfold State.noticeForget
  with_reducible repeat' first | assumption | intro _ | rfl | dsimp only | apply Keeps.set

theorem boundaryRetry_keeps (h : Keeps b s0 s) : Keeps b s0 (State.boundaryRetry s) := by
  unfold State.boundaryRetry
  with_reducible repeat' first | assumption | intro _ | apply extResume_keeps | apply evRetry_keeps | apply epochEnd_keeps | apply pumpReady_keeps | apply cordPump_keeps | apply pressPump_keeps | apply spisDrain_keeps | apply txPump_keeps | apply Keeps.ite | apply Keeps.ite1 | apply Keeps.ite2 | apply Keeps.ite22 | rfl | apply Keeps.forNat | dsimp only | apply Keeps.set

theorem activation_keeps (t') (h : Keeps b s0 s) : Keeps b s0 (State.activation s t') := by
  unfold State.activation
  with_reducible repeat' first | assumption | intro _ | apply stokerRestart_keeps | apply pageCommit_keeps | apply wf_keeps | apply Keeps.ite | apply Keeps.ite1 | apply Keeps.ite2 | apply Keeps.ite22 | rfl | split | dsimp only | apply Keeps.set

theorem boundary_keeps (t) (h : Keeps false s0 s) : Keeps false s0 (s.boundary t) := by
  unfold State.boundary
  have h1 := boundaryRows_keeps t (tickHead_keeps t h)
  generalize (s.tickHead t).boundaryRows t = x at h1 ⊢
  have h2 := servoTick_keeps (boundaryBlocks_keeps t h1)
  have h3 := timeMarkers_keeps (slateBoundary_keeps h2)
  exact noticeForget_keeps (boundaryRetry_keeps (activation_keeps t h3))

theorem kilnStart_keeps (h : Keeps b s0 s) : Keeps b s0 (State.kilnStart s) := by
  unfold State.kilnStart
  with_reducible repeat' first | assumption | intro _ | apply setHearth_keeps | apply atCycle_keeps | apply Keeps.ite | apply Keeps.ite1 | apply Keeps.ite2 | apply Keeps.ite22 | rfl | apply Keeps.foldl | apply Keeps.foldl1 | apply Keeps.foldl2 | dsimp only | apply Keeps.set

theorem generatorStart_keeps (h : Keeps false s0 s) : Keeps false s0 (State.generatorStart s) := by
  unfold State.generatorStart
  with_reducible repeat' first | assumption | intro _ | apply idleGap_keeps | apply boundary_keeps | apply wf_keeps | apply slewsCut_keeps | apply Keeps.ite | apply Keeps.ite1 | apply Keeps.ite2 | apply Keeps.ite22 | rfl | apply Keeps.foldl | apply Keeps.foldl1 | apply Keeps.foldl2 | dsimp only | apply Keeps.set

theorem tickBoundary_keeps (h : Keeps false s0 s) : Keeps false s0 (State.tickBoundary s) := by
  unfold State.tickBoundary
  with_reducible repeat' first | assumption | apply tailGuard_keeps | apply stopNow_keeps | apply pinsLast_keeps | apply boundary_keeps | apply Keeps.ite

end Sys2Proof.Machine
end

