-- ==== Sys2Proof/Laws/KeepsOps5.lean ====
section
/-!
SUPPORT. What the operations keep, part 5 of 5: one lemma each, in the order in which the operations call one another.
-/
namespace Sys2Proof.Machine

open Sys2Proof

variable {b : Bool} {s0 s t : State}

theorem makeDeviceKey_keeps (h : Keeps b s0 s) : Keeps b s0 (State.makeDeviceKey s) := by
  unfold State.makeDeviceKey
  with_reducible repeat' first | assumption | intro _ | apply freeWords_keeps | apply wr_keeps | apply Keeps.ite | apply Keeps.ite1 | apply Keeps.ite2 | apply Keeps.ite22 | rfl | apply Keeps.foldl | apply Keeps.foldl1 | apply Keeps.foldl2 | dsimp only | apply Keeps.set

theorem umberHubReset_keeps (h : Keeps b s0 s) : Keeps b s0 (State.umberHubReset s) := by
  unfold State.umberHubReset
  with_reducible repeat' first | assumption | intro _ | apply mboxFree_keeps | apply wf_keeps | apply Keeps.ite | apply Keeps.ite1 | apply Keeps.ite2 | apply Keeps.ite22 | rfl | split | dsimp only | apply Keeps.set

theorem foldl_tabSet_wf (f : Nat × Word → Word) (l : List (Nat × Word)) {m : Tab Word} (h : Memory.wf m = true) :
    Memory.wf (l.foldl (fun m e => tabSet resetWord m e.1 (f e)) m) = true := by
  induction l generalizing m with
  | nil => exact h
  | cons x r ih => exact ih (tabWf_tabSet h _ _)

theorem umberReset_keeps (h : Keeps b s0 s) : Keeps b s0 s.umberReset := by
  unfold State.umberReset
  apply revert_keeps
  apply wf_keeps
  apply wf_keeps
  exact ⟨h.pending, fun _ => foldl_tabSet_wf (fun e => if decide (0x10000 ≤ e.1) && decide (e.1 < 0x20000) && !umberKept e.1 then resetWord e.1 else e.2) _ rfl, h.evq, h.gaps, h.items, h.num⟩

theorem bootNext_keeps (h : Keeps b s0 s) : Keeps b s0 (State.bootNext s) := by
  unfold State.bootNext
  with_reducible repeat' first | assumption | intro _ | apply wf_keeps | apply Keeps.ite | apply Keeps.ite1 | apply Keeps.ite2 | apply Keeps.ite22 | rfl | dsimp only | apply Keeps.set

theorem hubClear_keeps (p q) (h : Keeps false s0 s) : Keeps false s0 (s.hubClear p q) := by
  unfold State.hubClear
  apply wr_keeps
  exact ⟨h.pending, fun _ => foldl_tabSet_wf (fun e => survivor e.1 e.2) _ rfl, fun _ => by simp [State.reset, evqDepth],
    fun _ => by simp [State.reset], fun _ => by simp [State.reset, State.ordinary], fun e => by cases e⟩

theorem hubRestart_keeps (sel25 compat) (h : Keeps false s0 s) : Keeps false s0 (State.hubRestart s sel25 compat) := by
  unfold State.hubRestart
  with_reducible repeat' first | assumption | apply wf_keeps | apply bootNext_keeps | apply hubClear_keeps | apply umberHubReset_keeps

theorem domainRelease_keeps (d) (h : Keeps b s0 s) : Keeps b s0 (State.domainRelease s d) := by
  unfold State.domainRelease
  with_reducible repeat' first | assumption | apply domRelease_keeps | apply tileRelease_keeps | apply smpRelease_keeps | apply Keeps.ite | split

theorem hubReset_keeps (c sel25 compat) (h : Keeps false s0 s) : Keeps false s0 (State.hubReset s c sel25 compat) := by
  unfold State.hubReset
  with_reducible repeat' first | assumption | apply hubRestart_keeps | apply umberEvent_keeps | apply wr_keeps

theorem domainReset_keeps (d) (h : Keeps b s0 s) : Keeps b s0 (State.domainReset s d) := by
  unfold State.domainReset
  with_reducible repeat' first | assumption | apply stokerRestart_keeps | apply tileReset_keeps | apply smpReset_keeps | apply condNote_keeps | apply emit_keeps | apply wf_keeps | apply domReset_keeps | apply sltReset_keeps | apply pcieReset_keeps | apply ddrReset_keeps | apply Keeps.ite | split

theorem thermalTrip_keeps (sel25 compat) (h : Keeps false s0 s) : Keeps false s0 (State.thermalTrip s sel25 compat) := by
  unfold State.thermalTrip
  with_reducible repeat' first | assumption | intro _ | apply hubReset_keeps | apply umberEvent_keeps | apply Keeps.ite | apply Keeps.ite1 | apply Keeps.ite2 | apply Keeps.ite22 | rfl | dsimp only | apply Keeps.set

theorem powerUp_keeps (refOk sel25 compat) (h : Keeps false s0 s) : Keeps false s0 (State.powerUp s refOk sel25 compat) := by
  unfold State.powerUp
  with_reducible repeat' first | assumption | intro _ | apply hubReset_keeps | apply makeDeviceKey_keeps | apply umberReset_keeps | apply wr_keeps | rfl | dsimp only | apply Keeps.set

theorem retire_keeps (h : Keeps false s0 s) : Keeps false s0 (State.retire s) := by
  unfold State.retire
  with_reducible repeat' first | assumption | intro _ | apply umberHubReset_keeps | apply endSessions_keeps | apply hubClear_keeps | rfl | dsimp only | apply Keeps.set

theorem lcWipe_keeps (x old dst) (h : Keeps false s0 s) : Keeps false s0 (State.lcWipe s x old dst) := by
  unfold State.lcWipe
  with_reducible repeat' first | assumption | intro _ | apply retire_keeps | apply endSessions_keeps | apply Keeps.ite | apply Keeps.ite1 | apply Keeps.ite2 | apply Keeps.ite22 | rfl | dsimp only | apply Keeps.set

theorem lcChange_keeps (dst timeout) (h : Keeps false s0 s) : Keeps false s0 (State.lcChange s dst timeout) := by
  unfold State.lcChange
  with_reducible repeat' first | assumption | intro _ | apply umbOp_keeps | apply umberEvent_keeps | apply wf_keeps | apply lcWipe_keeps | apply Keeps.ite | apply Keeps.ite1 | apply Keeps.ite2 | apply Keeps.ite22

theorem serviceTimeout_keeps (h : Keeps b s0 s) : Keeps b s0 (State.serviceTimeout s) := by
  unfold State.serviceTimeout
  with_reducible repeat' first | assumption | apply free_keeps | apply endSessions_keeps | apply umberEvent_keeps | apply wf_keeps | apply Keeps.ite

theorem mirrorNode_keeps (serial ch state rate ncfg tick base) (h : Keeps b s0 s) : Keeps b s0 (State.mirrorNode s serial ch state rate ncfg tick base) := by
  unfold State.mirrorNode
  with_reducible repeat' first | assumption | intro _ | apply setSlot_keeps | apply wr_keeps | apply envExceeded_keeps | apply emit_keeps | apply attach_keeps | apply wf_keeps | apply Keeps.ite | apply Keeps.ite1 | apply Keeps.ite2 | apply Keeps.ite22 | rfl | split | dsimp only | apply Keeps.set

theorem mirrorAll_keeps (h : Keeps b s0 s) : Keeps b s0 (State.mirrorAll s) := by
  unfold State.mirrorAll
  with_reducible repeat' first | assumption | intro _ | apply mirror_keeps | apply mirrorTrig_keeps | apply Keeps.ite | apply Keeps.foldl

theorem slateUp_keeps (h : Keeps b s0 s) : Keeps b s0 (State.slateUp s) := by
  unfold State.slateUp
  with_reducible repeat' first | assumption | intro _ | apply wf_keeps | apply mirrorAll_keeps | apply Keeps.ite | apply Keeps.ite1 | apply Keeps.ite2 | apply Keeps.ite22 | rfl | dsimp only | apply Keeps.set

theorem mirrorCoeff_keeps (serial ch g b' record tick) (h : Keeps b s0 s) : Keeps b s0 (State.mirrorCoeff s serial ch g b' record tick) := by
  unfold State.mirrorCoeff
  with_reducible repeat' first | assumption | intro _ | apply wr_keeps | apply applyPair_keeps | apply wf_keeps | rfl | apply Keeps.foldl | apply Keeps.foldl1 | apply Keeps.foldl2 | split | dsimp only | apply Keeps.set

theorem syncEnd_keeps (h : Keeps b s0 s) : Keeps b s0 (State.syncEnd s) := by
  unfold State.syncEnd
  with_reducible repeat' first | assumption | intro _ | apply leaveNow_keeps | apply emit_keeps | apply wf_keeps | apply Keeps.ite | apply Keeps.ite1 | apply Keeps.ite2 | apply Keeps.ite22 | rfl | apply Keeps.foldl | apply Keeps.foldl1 | apply Keeps.foldl2 | dsimp only | apply Keeps.set

theorem mirrorApply_keeps (r) (h : Keeps b s0 s) : Keeps b s0 (State.mirrorApply s r) := by
  unfold State.mirrorApply
  with_reducible repeat' first | assumption | intro _ | apply mirrorNode_keeps | apply mirrorCoeff_keeps | apply armMirror_keeps | apply wf_keeps | apply syncEnd_keeps | rfl | split | dsimp only | apply Keeps.set

theorem mirrorRecord_keeps (mseq r) (h : Keeps b s0 s) : Keeps b s0 (State.mirrorRecord s mseq r) := by
  unfold State.mirrorRecord
  with_reducible repeat' first | assumption | intro _ | apply mirrorApply_keeps | apply Keeps.ite | apply Keeps.ite1 | apply Keeps.ite2 | apply Keeps.ite22 | rfl | dsimp only | apply Keeps.set

theorem holdResume_keeps (h : Keeps false s0 s) : Keeps false s0 (State.holdResume s) := by
  unfold State.holdResume
  with_reducible repeat' first | assumption | apply boundary_keeps | apply wf_keeps | apply Keeps.ite

theorem holdGap_keeps (lo hi c) (h : Keeps b s0 s) : Keeps b s0 (State.holdGap lo hi s c) := by
  unfold State.holdGap
  with_reducible repeat' first | assumption | apply gap_keeps | apply Keeps.ite | split

theorem restepTicks_keeps (old step) (h : Keeps b s0 s) : Keeps b s0 (State.restepTicks s old step) := by
  unfold State.restepTicks
  with_reducible repeat' first | assumption | intro _ | apply launchStep_keeps | apply idleGap_keeps | apply holdGap_keeps | apply wf_keeps | apply Keeps.ite | apply Keeps.ite1 | apply Keeps.ite2 | apply Keeps.ite22 | rfl | apply Keeps.foldl | apply Keeps.foldl1 | apply Keeps.foldl2 | dsimp only | apply Keeps.set

theorem restepApply_keeps (h : Keeps b s0 s) : Keeps b s0 (State.restepApply s) := by
  unfold State.restepApply
  with_reducible repeat' first | assumption | intro _ | apply pinsLast_keeps | apply tailGuard_keeps | apply emit_keeps | apply restepRefuse_keeps | apply edgCut_keeps | apply portsStep_keeps | apply setOfs_keeps | apply restepTicks_keeps | apply wf64_keeps | apply wf_keeps | apply servoEnter_keeps | apply timeOffset_keeps | apply Keeps.ite | apply Keeps.ite1 | apply Keeps.ite2 | apply Keeps.ite22 | rfl | dsimp only | apply Keeps.set

theorem restServo_keeps (h : Keeps b s0 s) : Keeps b s0 (State.restServo s) := by
  unfold State.restServo
  with_reducible repeat' first | assumption | intro _ | apply servoTick_keeps | apply Keeps.ite | apply Keeps.ite1 | apply Keeps.ite2 | apply Keeps.ite22 | rfl | dsimp only | apply Keeps.set

end Sys2Proof.Machine
end

