-- ==== Sys2Proof/Laws/KeepsExec.lean ====
section
/-!
SUPPORT. What the meanings keep: one lemma per command.
-/
namespace Sys2Proof.Machine

open Sys2Proof

variable {b : Bool} {s0 s t : State}

theorem execSettleEnd_keeps (c) (h : Keeps b s0 s) : Keeps.out b s0 (execSettleEnd c s) := by
  unfold execSettleEnd
  apply Keeps.next
  with_reducible repeat' first | assumption | apply wf_keeps | apply Keeps.ite

theorem execExcitationRailMove_keeps (d high) (h : Keeps b s0 s) : Keeps.out b s0 (execExcitationRailMove d high s) := by
  unfold execExcitationRailMove
  apply Keeps.next
  with_reducible repeat' first | assumption | intro _ | rfl | dsimp only | apply Keeps.set

theorem execExcComply_keeps (x) (h : Keeps b s0 s) : Keeps.out b s0 (execExcComply x s) := by
  unfold execExcComply
  apply Keeps.next
  with_reducible repeat' first | assumption | apply excComply_keeps

theorem execExcLimit_keeps (d) (h : Keeps b s0 s) : Keeps.out b s0 (execExcLimit d s) := by
  unfold execExcLimit
  apply Keeps.next
  with_reducible repeat' first | assumption | intro _ | apply emit_keeps | apply fenceHit_keeps | apply wf_keeps | apply Keeps.ite | apply Keeps.ite1 | apply Keeps.ite2 | apply Keeps.ite22 | rfl | dsimp only | apply Keeps.set

theorem execExcLimitEnd_keeps (d) (h : Keeps b s0 s) : Keeps.out b s0 (execExcLimitEnd d s) := by
  unfold execExcLimitEnd
  apply Keeps.next
  with_reducible repeat' first | assumption | intro _ | apply emit_keeps | apply wf_keeps | apply Keeps.ite | apply Keeps.ite1 | apply Keeps.ite2 | apply Keeps.ite22 | rfl | dsimp only | apply Keeps.set

theorem execUtSelect_keeps (m sel) (h : Keeps b s0 s) : Keeps.out b s0 (execUtSelect m sel s) := by
  unfold execUtSelect
  apply Keeps.next
  with_reducible repeat' first | assumption | apply utSelect_keeps

theorem execCmCheck_keeps (c mv) (h : Keeps b s0 s) : Keeps.out b s0 (execCmCheck c mv s) := by
  unfold execCmCheck
  apply Keeps.next
  with_reducible repeat' first | assumption | apply cmCheck_keeps

theorem execCoreStartUp_keeps (q) (h : Keeps b s0 s) : Keeps.out b s0 (execCoreStartUp q s) := by
  unfold execCoreStartUp
  apply Keeps.next
  with_reducible repeat' first | assumption | apply setCore_keeps | apply Keeps.ite

theorem execVisitRetry_keeps (n duty) (h : Keeps b s0 s) : Keeps.out b s0 (execVisitRetry n duty s) := by
  unfold execVisitRetry
  apply Keeps.next
  with_reducible repeat' first | assumption | apply request_keeps | apply Keeps.ite

theorem execMatchCheck_keeps (n) (h : Keeps b s0 s) : Keeps.out b s0 (execMatchCheck n s) := by
  unfold execMatchCheck
  apply Keeps.next
  with_reducible repeat' first | assumption | apply matchCheck_keeps

theorem execCoreRunRetry_keeps (n) (h : Keeps b s0 s) : Keeps.out b s0 (execCoreRunRetry n s) := by
  unfold execCoreRunRetry
  apply Keeps.next
  with_reducible repeat' first | assumption | apply request_keeps | apply Keeps.ite

theorem execSpareRunRequest_keeps (x0 n) (h : Keeps b s0 s) : Keeps.out b s0 (execSpareRunRequest x0 n s) := by
  unfold execSpareRunRequest
  apply Keeps.next
  with_reducible repeat' first | assumption | apply request_keeps

theorem execEstimatorBlock_keeps (tile cluster core) (h : Keeps b s0 s) : Keeps.out b s0 (execEstimatorBlock tile cluster core s) := by
  unfold execEstimatorBlock
  apply Keeps.next
  with_reducible repeat' first | assumption | apply estBlock_keeps

theorem execVisitRequest_keeps (x0 n duty force) (h : Keeps b s0 s) : Keeps.out b s0 (execVisitRequest x0 n duty force s) := by
  unfold execVisitRequest
  apply Keeps.next
  with_reducible repeat' first | assumption | apply request_keeps

theorem execVisitBegin_keeps (t') (h : Keeps b s0 s) : Keeps.out b s0 (execVisitBegin t' s) := by
  unfold execVisitBegin
  apply Keeps.next
  with_reducible repeat' first | assumption | apply visitBegin_keeps

theorem execShadowShort_keeps (n) (h : Keeps b s0 s) : Keeps.out b s0 (execShadowShort n s) := by
  unfold execShadowShort
  apply Keeps.next
  with_reducible repeat' first | assumption | apply setVisit_keeps | apply Keeps.ite | split

theorem execConversion_keeps (c j old input ovr spare) (h : Keeps b s0 s) : Keeps.out b s0 (execConversion c j old input ovr spare s) := by
  unfold execConversion
  apply Keeps.next
  with_reducible repeat' first | assumption | apply convert_keeps

theorem execVisitCancel_keeps (x0 n) (h : Keeps b s0 s) : Keeps.out b s0 (execVisitCancel x0 n s) := by
  unfold execVisitCancel
  apply Keeps.next
  with_reducible repeat' first | assumption | apply visitCancel_keeps

theorem execCoreCalDone_keeps (t' m0 m1 ovl) (h : Keeps b s0 s) : Keeps.out b s0 (execCoreCalDone t' m0 m1 ovl s) := by
  unfold execCoreCalDone
  apply Keeps.next
  with_reducible repeat' first | assumption | apply coreCalDone_keeps

theorem execTempTriggerEval_keeps (h : Keeps b s0 s) : Keeps.out b s0 (execTempTriggerEval s) := by
  unfold execTempTriggerEval
  apply Keeps.next
  with_reducible repeat' first | assumption | apply tempTrigger_keeps

theorem execRotationRequest_keeps (n) (h : Keeps b s0 s) : Keeps.out b s0 (execRotationRequest n s) := by
  unfold execRotationRequest
  apply Keeps.next
  with_reducible repeat' first | assumption | intro _ | apply request_keeps | apply Keeps.ite | apply Keeps.ite1 | apply Keeps.ite2 | apply Keeps.ite22 | rfl | dsimp only | apply Keeps.set

theorem execLoad_keeps (x0 c) (h : Keeps b s0 s) : Keeps.out b s0 (execLoad x0 c s) := by
  unfold execLoad
  apply Keeps.next
  with_reducible repeat' first | assumption | apply calLoad_keeps

theorem execFinish_keeps (x0) (h : Keeps b s0 s) : Keeps.out b s0 (execFinish x0 s) := by
  unfold execFinish
  apply Keeps.next
  with_reducible repeat' first | assumption | apply calFinish_keeps

theorem execCalSysTimeout_keeps (h : Keeps b s0 s) : Keeps.out b s0 (execCalSysTimeout s) := by
  unfold execCalSysTimeout
  apply Keeps.next
  with_reducible repeat' first | assumption | apply calEnding_keeps | apply Keeps.ite

theorem execStartFull_keeps (x0) (h : Keeps b s0 s) : Keeps.out b s0 (execStartFull x0 s) := by
  unfold execStartFull
  apply Keeps.next
  with_reducible repeat' first | assumption | apply startFull_keeps

theorem execSenseRefCycleEnd_keeps (t' means) (h : Keeps b s0 s) : Keeps.out b s0 (execSenseRefCycleEnd t' means s) := by
  unfold execSenseRefCycleEnd
  apply Keeps.next
  with_reducible repeat' first | assumption | apply senseCycle_keeps

theorem execCalPhaseEnd_keeps (h : Keeps b s0 s) : Keeps.out b s0 (execCalPhaseEnd s) := by
  unfold execCalPhaseEnd
  apply Keeps.next
  with_reducible repeat' first | assumption | apply calPhaseEnd_keeps

theorem execStartZero_keeps (x0) (h : Keeps b s0 s) : Keeps.out b s0 (execStartZero x0 s) := by
  unfold execStartZero
  apply Keeps.next
  with_reducible repeat' first | assumption | apply startZero_keeps

theorem execAbort_keeps (x0) (h : Keeps b s0 s) : Keeps.out b s0 (execAbort x0 s) := by
  unfold execAbort
  apply Keeps.next
  with_reducible repeat' first | assumption | apply calAbort_keeps

theorem execChrBankWrite_keeps (m bank off data) (h : Keeps b s0 s) : Keeps.out b s0 (execChrBankWrite m bank off data s) := by
  unfold execChrBankWrite
  apply Keeps.next
  with_reducible repeat' first | assumption | apply chrBankWrite_keeps

theorem execChrBankSealDone_keeps (bank) (h : Keeps b s0 s) : Keeps.out b s0 (execChrBankSealDone bank s) := by
  unfold execChrBankSealDone
  apply Keeps.next
  with_reducible repeat' first | assumption | apply sealDone_keeps

theorem execSeal_keeps (x0 bank) (h : Keeps b s0 s) : Keeps.out b s0 (execSeal x0 bank s) := by
  unfold execSeal
  apply Keeps.next
  with_reducible repeat' first | assumption | apply chrSeal_keeps

theorem execCodePeriodEnd_keeps (c) (h : Keeps b s0 s) : Keeps.out b s0 (execCodePeriodEnd c s) := by
  unfold execCodePeriodEnd
  apply Keeps.next
  with_reducible repeat' first | assumption | apply codeEnd_keeps

theorem execEdit_keeps (x0 bank) (h : Keeps b s0 s) : Keeps.out b s0 (execEdit x0 bank s) := by
  unfold execEdit
  apply Keeps.next
  with_reducible repeat' first | assumption | apply chrEdit_keeps

theorem execChrSwapRequest_keeps (x0 bank) (h : Keeps b s0 s) : Keeps.out b s0 (execChrSwapRequest x0 bank s) := by
  unfold execChrSwapRequest
  apply Keeps.next
  with_reducible repeat' first | assumption | apply chrSwapRequest_keeps

theorem execDetectorWindowEnd_keeps (d) (h : Keeps b s0 s) : Keeps.out b s0 (execDetectorWindowEnd d s) := by
  unfold execDetectorWindowEnd
  apply Keeps.next
  with_reducible repeat' first | assumption | apply detEnd_keeps

theorem execItemReady_keeps (q single double) (h : Keeps b s0 s) : Keeps.out b s0 (execItemReady q single double s) := by
  unfold execItemReady
  apply Keeps.next
  with_reducible repeat' first | assumption | apply itemReady_keeps

theorem execBankDecision_keeps (b' req) (h : Keeps b s0 s) : Keeps.out b s0 (execBankDecision b' req s) := by
  unfold execBankDecision
  apply Keeps.next
  with_reducible repeat' first | assumption | apply bankDecision_keeps

theorem execQueueFlush_keeps (x0 q force) (h : Keeps b s0 s) : Keeps.out b s0 (execQueueFlush x0 q force s) := by
  unfold execQueueFlush
  apply Keeps.next
  with_reducible repeat' first | assumption | apply flushQueue_keeps

theorem execSpill_keeps (q) (h : Keeps b s0 s) : Keeps.out b s0 (execSpill q s) := by
  unfold execSpill
  apply Keeps.next
  with_reducible repeat' first | assumption | intro _ | apply showFull_keeps | apply wf_keeps | apply Keeps.ite | apply Keeps.ite1 | apply Keeps.ite2 | apply Keeps.ite22 | rfl | dsimp only | apply Keeps.set

theorem execHostWindowRead_keeps (x0 n) (h : Keeps b s0 s) : Keeps.out b s0 (execHostWindowRead x0 n s) := by
  unfold execHostWindowRead
  apply Keeps.next
  with_reducible repeat' first | assumption | intro _ | apply winRead_keeps | rfl | dsimp only | apply Keeps.set

theorem execBacklogTrained_keeps (intact) (h : Keeps b s0 s) : Keeps.out b s0 (execBacklogTrained intact s) := by
  unfold execBacklogTrained
  apply Keeps.next
  with_reducible repeat' first | assumption | intro _ | apply wf_keeps | apply loseMiddle_keeps | apply showFull_keeps | apply Keeps.ite | apply Keeps.ite1 | apply Keeps.ite2 | apply Keeps.ite22 | rfl | apply Keeps.foldl | apply Keeps.foldl1 | apply Keeps.foldl2 | dsimp only | apply Keeps.set

theorem execBlockTransferDone_keeps (q fill) (h : Keeps b s0 s) : Keeps.out b s0 (execBlockTransferDone q fill s) := by
  unfold execBlockTransferDone
  apply Keeps.next
  with_reducible repeat' first | assumption | apply xferDone_keeps

theorem execStarvation_keeps (r b') (h : Keeps b s0 s) : Keeps.out b s0 (execStarvation r b' s) := by
  unfold execStarvation
  apply Keeps.next
  with_reducible repeat' first | assumption | apply starve_keeps

theorem execHistSet_keeps (x0 mib) (h : Keeps b s0 s) : Keeps.out b s0 (execHistSet x0 mib s) := by
  unfold execHistSet
  apply Keeps.next
  with_reducible repeat' first | assumption | apply histSet_keeps

theorem execFill_keeps (q) (h : Keeps b s0 s) : Keeps.out b s0 (execFill q s) := by
  unfold execFill
  apply Keeps.next
  with_reducible repeat' first | assumption | intro _ | apply takeCells_keeps | apply Keeps.ite | apply Keeps.ite1 | apply Keeps.ite2 | apply Keeps.ite22 | rfl | dsimp only | apply Keeps.set

theorem execHostWindowBind_keeps (x0 n q en) (h : Keeps b s0 s) : Keeps.out b s0 (execHostWindowBind x0 n q en s) := by
  unfold execHostWindowBind
  apply Keeps.next
  with_reducible repeat' first | assumption | apply winBind_keeps

theorem execQueueDisable_keeps (x0 q) (h : Keeps b s0 s) : Keeps.out b s0 (execQueueDisable x0 q s) := by
  unfold execQueueDisable
  apply Keeps.next
  with_reducible repeat' first | assumption | apply disableQueue_keeps

theorem execDiscoverSend_keeps (l long) (h : Keeps b s0 s) : Keeps.out b s0 (execDiscoverSend l long s) := by
  unfold execDiscoverSend
  apply Keeps.next
  with_reducible repeat' first | assumption | apply discover_keeps

theorem execMirrorLag_keeps (mseq) (h : Keeps b s0 s) : Keeps.out b s0 (execMirrorLag mseq s) := by
  unfold execMirrorLag
  apply Keeps.next
  with_reducible repeat' first | assumption | apply mirrorLag_keeps

theorem execLeave_keeps (sl lead) (h : Keeps b s0 s) : Keeps.out b s0 (execLeave sl lead s) := by
  unfold execLeave
  apply Keeps.next
  with_reducible repeat' first | assumption | apply sendLeave_keeps

theorem execSlotSet_keeps (m sl ncfg data) (h : Keeps b s0 s) : Keeps.out b s0 (execSlotSet m sl ncfg data s) := by
  unfold execSlotSet
  apply Keeps.next
  with_reducible repeat' first | assumption | apply slotSet_keeps

theorem execReply_keeps (f epoch cseq result value) (h : Keeps b s0 s) : Keeps.out b s0 (execReply f epoch cseq result value s) := by
  unfold execReply
  apply Keeps.next
  with_reducible repeat' first | assumption | apply replyIn_keeps

theorem execNodeInfo_keeps (f serial model twoPorts epoch chans) (h : Keeps b s0 s) : Keeps.out b s0 (execNodeInfo f serial model twoPorts epoch chans s) := by
  unfold execNodeInfo
  apply Keeps.next
  with_reducible repeat' first | assumption | apply nodeInfo_keeps

theorem execReport_keeps (f r) (h : Keeps b s0 s) : Keeps.out b s0 (execReport f r s) := by
  unfold execReport
  apply Keeps.next
  with_reducible repeat' first | assumption | apply nodeReport_keeps

theorem execStewardTakeSilence_keeps (h : Keeps b s0 s) : Keeps.out b s0 (execStewardTakeSilence s) := by
  unfold execStewardTakeSilence
  apply Keeps.next
  with_reducible repeat' first | assumption | apply takeSilence_keeps

theorem execTake_keeps (x0) (h : Keeps b s0 s) : Keeps.out b s0 (execTake x0 s) := by
  unfold execTake
  apply Keeps.next
  with_reducible repeat' first | assumption | apply ptnTake_keeps

theorem execHeartbeat_keeps (b') (h : Keeps b s0 s) : Keeps.out b s0 (execHeartbeat b' s) := by
  unfold execHeartbeat
  apply Keeps.next
  with_reducible repeat' first | assumption | intro _ | rfl | dsimp only | apply Keeps.set

theorem execMirrorResend_keeps (h : Keeps b s0 s) : Keeps.out b s0 (execMirrorResend s) := by
  unfold execMirrorResend
  apply Keeps.next
  with_reducible repeat' first | assumption | intro _ | apply mirrorSend_keeps | apply Keeps.ite | apply Keeps.foldl

theorem execRouteExpiry_keeps (p l) (h : Keeps b s0 s) : Keeps.out b s0 (execRouteExpiry p l s) := by
  unfold execRouteExpiry
  apply Keeps.next
  with_reducible repeat' first | assumption | apply routeEnd_keeps

theorem execSamples_keeps (f tick epoch groups) (h : Keeps b s0 s) : Keeps.out b s0 (execSamples f tick epoch groups s) := by
  unfold execSamples
  apply Keeps.next
  with_reducible repeat' first | assumption | apply samplesIn_keeps

theorem execJoin_keeps (sl) (h : Keeps b s0 s) : Keeps.out b s0 (execJoin sl s) := by
  unfold execJoin
  apply Keeps.next
  with_reducible repeat' first | assumption | apply sendJoin_keeps

theorem execNodeBoundFrame_keeps (l) (h : Keeps b s0 s) : Keeps.out b s0 (execNodeBoundFrame l s) := by
  unfold execNodeBoundFrame
  apply Keeps.next
  with_reducible repeat' first | assumption | apply bump_keeps | apply Keeps.ite

theorem execCommandRetry_keeps (cseq) (h : Keeps b s0 s) : Keeps.out b s0 (execCommandRetry cseq s) := by
  unfold execCommandRetry
  apply Keeps.next
  with_reducible repeat' first | assumption | apply retryCommand_keeps

theorem execSkewAbort_keeps (x0) (h : Keeps b s0 s) : Keeps.out b s0 (execSkewAbort x0 s) := by
  unfold execSkewAbort
  apply Keeps.next
  with_reducible repeat' first | assumption | apply skewStop_keeps

theorem execSettleIntervalEnd_keeps (u) (h : Keeps b s0 s) : Keeps.out b s0 (execSettleIntervalEnd u s) := by
  unfold execSettleIntervalEnd
  apply Keeps.next
  with_reducible repeat' first | assumption | apply settleEnd_keeps

theorem execCaptureCopy_keeps (u bad) (h : Keeps b s0 s) : Keeps.out b s0 (execCaptureCopy u bad s) := by
  unfold execCaptureCopy
  apply Keeps.next
  with_reducible repeat' first | assumption | apply captureCopy_keeps

theorem execFireRequest_keeps (u time cause) (h : Keeps b s0 s) : Keeps.out b s0 (execFireRequest u time cause s) := by
  unfold execFireRequest
  apply Keeps.next
  with_reducible repeat' first | assumption | apply fire_keeps

theorem execFireFrame_keeps (f time cause) (h : Keeps b s0 s) : Keeps.out b s0 (execFireFrame f time cause s) := by
  unfold execFireFrame
  apply Keeps.next
  with_reducible repeat' first | assumption | apply fireFrame_keeps

theorem execSkewPulse_keeps (h : Keeps b s0 s) : Keeps.out b s0 (execSkewPulse s) := by
  unfold execSkewPulse
  apply Keeps.next
  with_reducible repeat' first | assumption | apply skewPulse_keeps

theorem execCaptureTruncate_keeps (u) (h : Keeps b s0 s) : Keeps.out b s0 (execCaptureTruncate u s) := by
  unfold execCaptureTruncate
  apply Keeps.next
  with_reducible repeat' first | assumption | apply captureTruncate_keeps

theorem execDisarm_keeps (x0 u send) (h : Keeps b s0 s) : Keeps.out b s0 (execDisarm x0 u send s) := by
  unfold execDisarm
  apply Keeps.next
  with_reducible repeat' first | assumption | apply disarmCmd_keeps

theorem execArmFrame_keeps (f pre post disarm) (h : Keeps b s0 s) : Keeps.out b s0 (execArmFrame f pre post disarm s) := by
  unfold execArmFrame
  apply Keeps.next
  with_reducible repeat' first | assumption | apply armFrame_keeps

theorem execStart_keeps (x0) (h : Keeps b s0 s) : Keeps.out b s0 (execStart x0 s) := by
  unfold execStart
  apply Keeps.next
  with_reducible repeat' first | assumption | apply skewStart_keeps

theorem execCaptureEnd_keeps (u) (h : Keeps b s0 s) : Keeps.out b s0 (execCaptureEnd u s) := by
  unfold execCaptureEnd
  apply Keeps.next
  with_reducible repeat' first | assumption | apply captureEnd_keeps

theorem execSkewRunDone_keeps (h : Keeps b s0 s) : Keeps.out b s0 (execSkewRunDone s) := by
  unfold execSkewRunDone
  apply Keeps.next
  with_reducible repeat' first | assumption | apply skewDone_keeps

theorem execApply_keeps (x0) (h : Keeps b s0 s) : Keeps.out b s0 (execApply x0 s) := by
  unfold execApply
  apply Keeps.next
  with_reducible repeat' first | assumption | apply skewApply_keeps

theorem execArm_keeps (m u lateOk send) (h : Keeps b s0 s) : Keeps.out b s0 (execArm m u lateOk send s) := by
  unfold execArm
  apply Keeps.next
  with_reducible repeat' first | assumption | apply armCmd_keeps

theorem execGroupWindowTimeout_keeps (g) (h : Keeps b s0 s) : Keeps.out b s0 (execGroupWindowTimeout g s) := by
  unfold execGroupWindowTimeout
  apply Keeps.next
  with_reducible repeat' first | assumption | apply groupTimeout_keeps

theorem execEdgeRelease_keeps (h : Keeps b s0 s) : Keeps.out b s0 (execEdgeRelease s) := by
  unfold execEdgeRelease
  apply Keeps.next
  with_reducible repeat' first | assumption | apply edgeRelease_keeps

theorem execGroupHoldoffEnd_keeps (g) (h : Keeps b s0 s) : Keeps.out b s0 (execGroupHoldoffEnd g s) := by
  unfold execGroupHoldoffEnd
  apply Keeps.next
  with_reducible repeat' first | assumption | apply groupHoldoffEnd_keeps

theorem execEdgeArrival_keeps (sr rise e) (h : Keeps b s0 s) : Keeps.out b s0 (execEdgeArrival sr rise e s) := by
  unfold execEdgeArrival
  apply Keeps.next
  with_reducible repeat' first | assumption | apply edgeArrival_keeps

theorem execIntervalTimeout_keeps (i) (h : Keeps b s0 s) : Keeps.out b s0 (execIntervalTimeout i s) := by
  unfold execIntervalTimeout
  apply Keeps.next
  with_reducible repeat' first | assumption | apply intervalTimeout_keeps

theorem execVerifyDone_keeps (i code) (h : Keeps b s0 s) : Keeps.out b s0 (execVerifyDone i code s) := by
  unfold execVerifyDone
  apply Keeps.next
  with_reducible repeat' first | assumption | apply verifyDone_keeps

theorem execBriquetteAgeClose_keeps (q) (h : Keeps b s0 s) : Keeps.out b s0 (execBriquetteAgeClose q s) := by
  unfold execBriquetteAgeClose
  apply Keeps.next
  with_reducible repeat' first | assumption | apply ageClose_keeps

theorem execPressTakeItem_keeps (e) (h : Keeps b s0 s) : Keeps.out b s0 (execPressTakeItem e s) := by
  unfold execPressTakeItem
  apply Keeps.next
  with_reducible repeat' first | assumption | apply pressTake_keeps

theorem execCordRecovery_keeps (r) (h : Keeps b s0 s) : Keeps.out b s0 (execCordRecovery r s) := by
  unfold execCordRecovery
  apply Keeps.next
  with_reducible repeat' first | assumption | apply recover_keeps

theorem execWriteTimeout_keeps (id) (h : Keeps b s0 s) : Keeps.out b s0 (execWriteTimeout id s) := by
  unfold execWriteTimeout
  apply Keeps.next
  with_reducible repeat' first | assumption | apply writeComplete_keeps | apply send_keeps | split

theorem execRetrievalDone_keeps (i) (h : Keeps b s0 s) : Keeps.out b s0 (execRetrievalDone i s) := by
  unfold execRetrievalDone
  apply Keeps.next
  with_reducible repeat' first | assumption | apply retrievalDone_keeps

theorem execControllerRetry_keeps (n c) (h : Keeps b s0 s) : Keeps.out b s0 (execControllerRetry n c s) := by
  unfold execControllerRetry
  apply Keeps.next
  with_reducible repeat' first | assumption | apply ctrlRetry_keeps

theorem execControllerInit_keeps (n c) (h : Keeps b s0 s) : Keeps.out b s0 (execControllerInit n c s) := by
  unfold execControllerInit
  apply Keeps.next
  with_reducible repeat' first | assumption | apply wf_keeps | apply showCord_keeps | apply initCtrl_keeps | apply Keeps.ite

theorem execReadComplete_keeps (id r) (h : Keeps b s0 s) : Keeps.out b s0 (execReadComplete id r s) := by
  unfold execReadComplete
  apply Keeps.next
  with_reducible repeat' first | assumption | apply readComplete_keeps

theorem execJobSubmit_keeps (m kind strict q) (h : Keeps b s0 s) : Keeps.out b s0 (execJobSubmit m kind strict q s) := by
  unfold execJobSubmit
  apply Keeps.next
  with_reducible repeat' first | assumption | apply jobGo_keeps

theorem execControllerFailed_keeps (n) (h : Keeps b s0 s) : Keeps.out b s0 (execControllerFailed n s) := by
  unfold execControllerFailed
  apply Keeps.next
  with_reducible repeat' first | assumption | apply cordPump_keeps | apply ctrlFail_keeps | apply Keeps.ite

theorem execEpochEnd_keeps (h : Keeps b s0 s) : Keeps.out b s0 (execEpochEnd s) := by
  unfold execEpochEnd
  apply Keeps.next
  with_reducible repeat' first | assumption | apply epochEnd_keeps

theorem execUnitAgeClose_keeps (id) (h : Keeps b s0 s) : Keeps.out b s0 (execUnitAgeClose id s) := by
  unfold execUnitAgeClose
  apply Keeps.next
  with_reducible repeat' first | assumption | apply cordPump_keeps | apply closeUnit_keeps | split

theorem execCordTakeItem_keeps (h : Keeps b s0 s) : Keeps.out b s0 (execCordTakeItem s) := by
  unfold execCordTakeItem
  apply Keeps.next
  with_reducible repeat' first | assumption | apply cordTake_keeps

theorem execWriteComplete_keeps (id status) (h : Keeps b s0 s) : Keeps.out b s0 (execWriteComplete id status s) := by
  unfold execWriteComplete
  apply Keeps.next
  with_reducible repeat' first | assumption | apply writeComplete_keeps

theorem execRemove_keeps (x0 x) (h : Keeps b s0 s) : Keeps.out b s0 (execRemove x0 x s) := by
  unfold execRemove
  apply Keeps.next
  with_reducible repeat' first | assumption | apply extTake_keeps

theorem execRelease_keeps (x0 p) (h : Keeps b s0 s) : Keeps.out b s0 (execRelease x0 p s) := by
  unfold execRelease
  apply Keeps.next
  with_reducible repeat' first | assumption | apply releasePin_keeps

theorem execArchiveDown_keeps (h : Keeps b s0 s) : Keeps.out b s0 (execArchiveDown s) := by
  unfold execArchiveDown
  apply Keeps.next
  with_reducible repeat' first | assumption | apply archiveLate_keeps

theorem execAdd_keeps (x0 format) (h : Keeps b s0 s) : Keeps.out b s0 (execAdd x0 format s) := by
  unfold execAdd
  apply Keeps.next
  with_reducible repeat' first | assumption | apply extTake_keeps

theorem execFarAbsent_keeps (l) (h : Keeps b s0 s) : Keeps.out b s0 (execFarAbsent l s) := by
  unfold execFarAbsent
  apply Keeps.next
  with_reducible repeat' first | assumption | apply clearFails_keeps | apply Keeps.ite

theorem execBitlockTimeout_keeps (l) (h : Keeps b s0 s) : Keeps.out b s0 (execBitlockTimeout l s) := by
  unfold execBitlockTimeout
  apply Keeps.next
  with_reducible repeat' first | assumption | apply laneFailIn_keeps

theorem execCapsTimeout_keeps (l) (h : Keeps b s0 s) : Keeps.out b s0 (execCapsTimeout l s) := by
  unfold execCapsTimeout
  apply Keeps.next
  with_reducible repeat' first | assumption | apply laneFailIn_keeps

theorem execRelockTimeout_keeps (l) (h : Keeps b s0 s) : Keeps.out b s0 (execRelockTimeout l s) := by
  unfold execRelockTimeout
  apply Keeps.next
  with_reducible repeat' first | assumption | apply relockTimeout_keeps

theorem execLaneLpWake_keeps (x0 l) (h : Keeps b s0 s) : Keeps.out b s0 (execLaneLpWake x0 l s) := by
  unfold execLaneLpWake
  apply Keeps.next
  with_reducible repeat' first | assumption | apply laneField_keeps

theorem execTrainDone_keeps (l) (h : Keeps b s0 s) : Keeps.out b s0 (execTrainDone l s) := by
  unfold execTrainDone
  apply Keeps.next
  with_reducible repeat' first | assumption | apply trainDone_keeps

theorem execBitlockMeasure_keeps (l ppb) (h : Keeps b s0 s) : Keeps.out b s0 (execBitlockMeasure l ppb s) := by
  unfold execBitlockMeasure
  apply Keeps.next
  with_reducible repeat' first | assumption | apply laneFail_keeps | apply setLane_keeps | apply wf_keeps | apply Keeps.ite

theorem execDetectWindow_keeps (l seen) (h : Keeps b s0 s) : Keeps.out b s0 (execDetectWindow l seen s) := by
  unfold execDetectWindow
  apply Keeps.next
  with_reducible repeat' first | assumption | apply detectWindow_keeps

theorem execLossOfSignal_keeps (l) (h : Keeps b s0 s) : Keeps.out b s0 (execLossOfSignal l s) := by
  unfold execLossOfSignal
  apply Keeps.next
  with_reducible repeat' first | assumption | apply lossOfSignal_keeps

theorem execRetrain_keeps (x0 l) (h : Keeps b s0 s) : Keeps.out b s0 (execRetrain x0 l s) := by
  unfold execRetrain
  apply Keeps.next
  with_reducible repeat' first | assumption | apply laneField_keeps

theorem execTrainTimeout_keeps (l) (h : Keeps b s0 s) : Keeps.out b s0 (execTrainTimeout l s) := by
  unfold execTrainTimeout
  apply Keeps.next
  with_reducible repeat' first | assumption | apply laneFailIn_keeps

theorem execBlockReceived_keeps (l hdr) (h : Keeps b s0 s) : Keeps.out b s0 (execBlockReceived l hdr s) := by
  unfold execBlockReceived
  apply Keeps.next
  with_reducible repeat' first | assumption | apply blockIn_keeps

theorem execLpBlock_keeps (l mode ack) (h : Keeps b s0 s) : Keeps.out b s0 (execLpBlock l mode ack s) := by
  unfold execLpBlock
  apply Keeps.next
  with_reducible repeat' first | assumption | apply lpBlockIn_keeps

theorem execCapsBlock_keeps (l version rates flags) (h : Keeps b s0 s) : Keeps.out b s0 (execCapsBlock l version rates flags s) := by
  unfold execCapsBlock
  apply Keeps.next
  with_reducible repeat' first | assumption | apply capsIn_keeps

theorem execHoldEnd_keeps (l) (h : Keeps b s0 s) : Keeps.out b s0 (execHoldEnd l s) := by
  unfold execHoldEnd
  apply Keeps.next
  with_reducible repeat' first | assumption | apply laneHoldEnd_keeps

theorem execRelightDone_keeps (l) (h : Keeps b s0 s) : Keeps.out b s0 (execRelightDone l s) := by
  unfold execRelightDone
  apply Keeps.next
  with_reducible repeat' first | assumption | apply relightDone_keeps

theorem execBlockLockTimeout_keeps (l) (h : Keeps b s0 s) : Keeps.out b s0 (execBlockLockTimeout l s) := by
  unfold execBlockLockTimeout
  apply Keeps.next
  with_reducible repeat' first | assumption | apply laneFailIn_keeps

theorem execLaneLpRequest_keeps (x0 l smoulder) (h : Keeps b s0 s) : Keeps.out b s0 (execLaneLpRequest x0 l smoulder s) := by
  unfold execLaneLpRequest
  apply Keeps.next
  with_reducible repeat' first | assumption | apply laneField_keeps

theorem execTrainingFrame_keeps (l f adapted want) (h : Keeps b s0 s) : Keeps.out b s0 (execTrainingFrame l f adapted want s) := by
  unfold execTrainingFrame
  apply Keeps.next
  with_reducible repeat' first | assumption | apply trainingFrame_keeps

theorem execWakeFail_keeps (l) (h : Keeps b s0 s) : Keeps.out b s0 (execWakeFail l s) := by
  unfold execWakeFail
  apply Keeps.next
  with_reducible repeat' first | assumption | apply laneFail_keeps | apply Keeps.ite

theorem execLaneWakeFar_keeps (l) (h : Keeps b s0 s) : Keeps.out b s0 (execLaneWakeFar l s) := by
  unfold execLaneWakeFar
  apply Keeps.next
  with_reducible repeat' first | assumption | apply wakeFar_keeps

theorem execLpNoack_keeps (l) (h : Keeps b s0 s) : Keeps.out b s0 (execLpNoack l s) := by
  unfold execLpNoack
  apply Keeps.next
  with_reducible repeat' first | assumption | apply lpRefuse_keeps | apply setLane_keeps | apply Keeps.ite

theorem execCapsSend_keeps (l) (h : Keeps b s0 s) : Keeps.out b s0 (execCapsSend l s) := by
  unfold execCapsSend
  apply Keeps.next
  with_reducible repeat' first | assumption | apply capsSend_keeps

theorem execLaneDisable_keeps (x0 l) (h : Keeps b s0 s) : Keeps.out b s0 (execLaneDisable x0 l s) := by
  unfold execLaneDisable
  apply Keeps.next
  with_reducible repeat' first | assumption | apply laneField_keeps

theorem execFailsClearActive_keeps (l) (h : Keeps b s0 s) : Keeps.out b s0 (execFailsClearActive l s) := by
  unfold execFailsClearActive
  apply Keeps.next
  with_reducible repeat' first | assumption | apply clearFails_keeps | apply Keeps.ite

theorem execPtpSync_keeps (u h' src seq twoStep origin corr stamp) (h : Keeps b s0 s) : Keeps.out b s0 (execPtpSync u h' src seq twoStep origin corr stamp s) := by
  unfold execPtpSync
  apply Keeps.next
  with_reducible repeat' first | assumption | apply ptpIn_keeps | apply syncIn_keeps

theorem execPortCompare_keeps (h : Keeps b s0 s) : Keeps.out b s0 (execPortCompare s) := by
  unfold execPortCompare
  apply Keeps.next
  with_reducible repeat' first | assumption | apply portCompare_keeps

theorem execPtpFollowUp_keeps (u h' src seq origin corr) (h : Keeps b s0 s) : Keeps.out b s0 (execPtpFollowUp u h' src seq origin corr s) := by
  unfold execPtpFollowUp
  apply Keeps.next
  with_reducible repeat' first | assumption | apply ptpIn_keeps | apply followUp_keeps

theorem execProbeTimeout_keeps (l seq) (h : Keeps b s0 s) : Keeps.out b s0 (execProbeTimeout l seq s) := by
  unfold execProbeTimeout
  apply Keeps.next
  with_reducible repeat' first | assumption | apply probeTimeout_keeps

theorem execEcho_keeps (l seq arrive turn) (h : Keeps b s0 s) : Keeps.out b s0 (execEcho l seq arrive turn s) := by
  unfold execEcho
  apply Keeps.next
  with_reducible repeat' first | assumption | apply echoIn_keeps

theorem execSyncTimeout_keeps (h : Keeps b s0 s) : Keeps.out b s0 (execSyncTimeout s) := by
  unfold execSyncTimeout
  apply Keeps.next
  with_reducible repeat' first | assumption | apply toHoldover_keeps | apply Keeps.ite

theorem execRestepAuthExpiry_keeps (h : Keeps b s0 s) : Keeps.out b s0 (execRestepAuthExpiry s) := by
  unfold execRestepAuthExpiry
  apply Keeps.next
  with_reducible repeat' first | assumption | apply wf_keeps | apply Keeps.ite

theorem execGo_keeps (x0 mode cancel) (h : Keeps b s0 s) : Keeps.out b s0 (execGo x0 mode cancel s) := by
  unfold execGo
  apply Keeps.next
  with_reducible repeat' first | assumption | apply restepCmd_keeps

theorem execPtpReqSend_keeps (u egress) (h : Keeps b s0 s) : Keeps.out b s0 (execPtpReqSend u egress s) := by
  unfold execPtpReqSend
  apply Keeps.next
  with_reducible repeat' first | assumption | apply reqSend_keeps

theorem execFollowUpTimeout_keeps (u seq) (h : Keeps b s0 s) : Keeps.out b s0 (execFollowUpTimeout u seq s) := by
  unfold execFollowUpTimeout
  apply Keeps.next
  with_reducible repeat' first | assumption | apply followUpTimeout_keeps

theorem execCancel_keeps (x0) (h : Keeps b s0 s) : Keeps.out b s0 (execCancel x0 s) := by
  unfold execCancel
  apply Keeps.next
  with_reducible repeat' first | assumption | apply restepCmd_keeps

theorem execPtpPdelayResp_keeps (u h' seq turn corr stamp) (h : Keeps b s0 s) : Keeps.out b s0 (execPtpPdelayResp u h' seq turn corr stamp s) := by
  unfold execPtpPdelayResp
  apply Keeps.next
  with_reducible repeat' first | assumption | apply ptpIn_keeps | apply pdelayResp_keeps

theorem execPtpPdelayReq_keeps (u h' seq ingress egress) (h : Keeps b s0 s) : Keeps.out b s0 (execPtpPdelayReq u h' seq ingress egress s) := by
  unfold execPtpPdelayReq
  apply Keeps.next
  with_reducible repeat' first | assumption | apply ptpIn_keeps | apply pdelayReq_keeps

theorem execServoUpdateTimeout_keeps (h : Keeps b s0 s) : Keeps.out b s0 (execServoUpdateTimeout s) := by
  unfold execServoUpdateTimeout
  apply Keeps.next
  with_reducible repeat' first | assumption | apply toHoldover_keeps

theorem execPtpAnnounce_keeps (u h' a) (h : Keeps b s0 s) : Keeps.out b s0 (execPtpAnnounce u h' a s) := by
  unfold execPtpAnnounce
  apply Keeps.next
  with_reducible repeat' first | assumption | apply ptpIn_keeps | apply announceIn_keeps

theorem execAnnounceTimeout_keeps (u) (h : Keeps b s0 s) : Keeps.out b s0 (execAnnounceTimeout u s) := by
  unfold execAnnounceTimeout
  apply Keeps.next
  with_reducible repeat' first | assumption | apply announceTimeout_keeps

theorem execProbeSend_keeps (l depart) (h : Keeps b s0 s) : Keeps.out b s0 (execProbeSend l depart s) := by
  unfold execProbeSend
  apply Keeps.next
  with_reducible repeat' first | assumption | apply probeSend_keeps

theorem execPtpDelayResp_keeps (u h' src seq receipt corr) (h : Keeps b s0 s) : Keeps.out b s0 (execPtpDelayResp u h' src seq receipt corr s) := by
  unfold execPtpDelayResp
  apply Keeps.next
  with_reducible repeat' first | assumption | apply ptpIn_keeps | apply delayResp_keeps

theorem execTimeOffset_keeps (h : Keeps b s0 s) : Keeps.out b s0 (execTimeOffset s) := by
  unfold execTimeOffset
  apply Keeps.next
  with_reducible repeat' first | assumption | apply timeOffset_keeps | apply Keeps.ite

theorem execFrameReceive_keeps (u src tr kind) (h : Keeps b s0 s) : Keeps.out b s0 (execFrameReceive u src tr kind s) := by
  unfold execFrameReceive
  apply Keeps.next
  with_reducible repeat' first | assumption | apply uplinkIn_keeps

theorem execPrpSupervision_keeps (h : Keeps b s0 s) : Keeps.out b s0 (execPrpSupervision s) := by
  unfold execPrpSupervision
  apply Keeps.next
  with_reducible repeat' first | assumption | intro _ | apply prpFrame_keeps | apply txSend_keeps | apply Keeps.ite | apply Keeps.ite1 | apply Keeps.ite2 | apply Keeps.ite22 | rfl | dsimp only | apply Keeps.set

theorem execStreamSend_keeps (h : Keeps b s0 s) : Keeps.out b s0 (execStreamSend s) := by
  unfold execStreamSend
  apply Keeps.next
  with_reducible repeat' first | assumption | apply streamSend_keeps

theorem execLaunchCancel_keeps (m sl) (h : Keeps b s0 s) : Keeps.out b s0 (execLaunchCancel m sl s) := by
  unfold execLaunchCancel
  apply Keeps.next
  with_reducible repeat' first | assumption | apply launchCancel_keeps

theorem execCommit_keeps (m lateOk cancel) (h : Keeps b s0 s) : Keeps.out b s0 (execCommit m lateOk cancel s) := by
  unfold execCommit
  apply Keeps.next
  with_reducible repeat' first | assumption | apply launchCommit_keeps

theorem execHcpReassembly_keeps (id) (h : Keeps b s0 s) : Keeps.out b s0 (execHcpReassembly id s) := by
  unfold execHcpReassembly
  apply Keeps.next
  with_reducible repeat' first | assumption | intro _ | apply reasmNote_keeps | apply Keeps.ite | apply Keeps.ite1 | apply Keeps.ite2 | apply Keeps.ite22 | rfl | dsimp only | apply Keeps.set

theorem execUplinkLinkChange_keeps (u link fit) (h : Keeps b s0 s) : Keeps.out b s0 (execUplinkLinkChange u link fit s) := by
  unfold execUplinkLinkChange
  apply Keeps.next
  with_reducible repeat' first | assumption | apply linkChange_keeps

theorem execUplinkStall_keeps (q) (h : Keeps b s0 s) : Keeps.out b s0 (execUplinkStall q s) := by
  unfold execUplinkStall
  apply Keeps.next
  with_reducible repeat' first | assumption | intro _ | apply showUplinks_keeps | apply Keeps.ite | apply Keeps.ite1 | apply Keeps.ite2 | apply Keeps.ite22 | rfl | dsimp only | apply Keeps.set

theorem execLaunchSlot_keeps (sl e0 e1) (h : Keeps b s0 s) : Keeps.out b s0 (execLaunchSlot sl e0 e1 s) := by
  unfold execLaunchSlot
  apply Keeps.next
  with_reducible repeat' first | assumption | apply launch_keeps

theorem execUpdateAbandoned_keeps (h : Keeps b s0 s) : Keeps.out b s0 (execUpdateAbandoned s) := by
  unfold execUpdateAbandoned
  apply Keeps.next
  with_reducible repeat' first | assumption | intro _ | apply umberEvent_keeps | apply wf_keeps | rfl | split | dsimp only | apply Keeps.set

theorem execLogRead_keeps (seq n) (h : Keeps b s0 s) : Keeps.out b s0 (execLogRead seq n s) := by
  unfold execLogRead
  apply Keeps.next
  with_reducible repeat' first | assumption | intro _ | apply umbOp_keeps | apply Keeps.ite | apply Keeps.ite1 | apply Keeps.ite2 | apply Keeps.ite22

theorem execLogRecovery_keeps (found) (h : Keeps b s0 s) : Keeps.out b s0 (execLogRecovery found s) := by
  unfold execLogRecovery
  apply Keeps.next
  with_reducible repeat' first | assumption | apply logRecover_keeps

theorem execCloseSession_keeps (h : Keeps b s0 s) : Keeps.out b s0 (execCloseSession s) := by
  unfold execCloseSession
  apply Keeps.next
  with_reducible repeat' first | assumption | intro _ | apply umbOp_keeps | apply endSessions_keeps

theorem execUmbMboxReleased_keeps (h : Keeps b s0 s) : Keeps.out b s0 (execUmbMboxReleased s) := by
  unfold execUmbMboxReleased
  apply Keeps.next
  with_reducible repeat' first | assumption | apply umberEvent_keeps | apply mboxFree_keeps | apply Keeps.ite

theorem execUmberRestartDone_keeps (h : Keeps b s0 s) : Keeps.out b s0 (execUmberRestartDone s) := by
  unfold execUmberRestartDone
  apply Keeps.next
  with_reducible repeat' first | assumption | intro _ | apply wf_keeps | apply Keeps.ite | apply Keeps.ite1 | apply Keeps.ite2 | apply Keeps.ite22 | rfl | split | dsimp only | apply Keeps.set

theorem execUpdEnd_keeps (c) (h : Keeps b s0 s) : Keeps.out b s0 (execUpdEnd c s) := by
  unfold execUpdEnd
  apply Keeps.next
  with_reducible repeat' first | assumption | intro _ | apply umbOp_keeps | apply wf_keeps | apply Keeps.ite | apply Keeps.ite1 | apply Keeps.ite2 | apply Keeps.ite22 | rfl | split | dsimp only | apply Keeps.set

theorem execImageCommit_keeps (type) (h : Keeps b s0 s) : Keeps.out b s0 (execImageCommit type s) := by
  unfold execImageCommit
  apply Keeps.next
  with_reducible repeat' first | assumption | intro _ | apply umbOp_keeps | apply wf_keeps | apply Keeps.ite | apply Keeps.ite1 | apply Keeps.ite2 | apply Keeps.ite22 | rfl | split | dsimp only | apply Keeps.set

theorem execTrigkeySet_keeps (key) (h : Keeps b s0 s) : Keeps.out b s0 (execTrigkeySet key s) := by
  unfold execTrigkeySet
  apply Keeps.next
  with_reducible repeat' first | assumption | intro _ | apply umbOp_keeps | rfl | dsimp only | apply Keeps.set

theorem execRestepAuth_keeps (dir most expiry) (h : Keeps b s0 s) : Keeps.out b s0 (execRestepAuth dir most expiry s) := by
  unfold execRestepAuth
  apply Keeps.next
  with_reducible repeat' first | assumption | intro _ | apply umbOp_keeps | apply wf64_keeps | apply wf_keeps | apply Keeps.ite | apply Keeps.ite1 | apply Keeps.ite2 | apply Keeps.ite22

theorem execSensorSample_keeps (k v ack) (h : Keeps b s0 s) : Keeps.out b s0 (execSensorSample k v ack s) := by
  unfold execSensorSample
  apply Keeps.next
  with_reducible repeat' first | assumption | apply sensSample_keeps

theorem execLogPageCommit_keeps (h : Keeps b s0 s) : Keeps.out b s0 (execLogPageCommit s) := by
  unfold execLogPageCommit
  apply Keeps.next
  with_reducible repeat' first | assumption | apply pageCommit_keeps

theorem execKeySet_keeps (sl mask pub) (h : Keeps b s0 s) : Keeps.out b s0 (execKeySet sl mask pub s) := by
  unfold execKeySet
  apply Keeps.next
  with_reducible repeat' first | assumption | intro _ | apply umbOp_keeps | apply Keeps.ite | apply Keeps.ite1 | apply Keeps.ite2 | apply Keeps.ite22 | rfl | dsimp only | apply Keeps.set

theorem execLogPageStart_keeps (h : Keeps b s0 s) : Keeps.out b s0 (execLogPageStart s) := by
  unfold execLogPageStart
  apply Keeps.next
  with_reducible repeat' first | assumption | apply pageStart_keeps

theorem execUmberTrialTimeout_keeps (h : Keeps b s0 s) : Keeps.out b s0 (execUmberTrialTimeout s) := by
  unfold execUmberTrialTimeout
  apply Keeps.next
  with_reducible repeat' first | assumption | intro _ | apply wf_keeps | apply revert_keeps | apply Keeps.ite | apply Keeps.ite1 | apply Keeps.ite2 | apply Keeps.ite22 | rfl | dsimp only | apply Keeps.set

theorem execFenceWrite_keeps (addr value) (h : Keeps b s0 s) : Keeps.out b s0 (execFenceWrite addr value s) := by
  unfold execFenceWrite
  apply Keeps.next
  with_reducible repeat' first | assumption | intro _ | apply umbOp_keeps | apply umberEvent_keeps | apply fenceTake_keeps | apply Keeps.ite | apply Keeps.ite1 | apply Keeps.ite2 | apply Keeps.ite22

theorem execOpenSession_keeps (key perm life sigOk) (h : Keeps b s0 s) : Keeps.out b s0 (execOpenSession key perm life sigOk s) := by
  unfold execOpenSession
  apply Keeps.next
  with_reducible repeat' first | assumption | apply umbOpen_keeps

theorem execUpdData_keeps (offset bytes) (h : Keeps b s0 s) : Keeps.out b s0 (execUpdData offset bytes s) := by
  unfold execUpdData
  apply Keeps.next
  with_reducible repeat' first | assumption | intro _ | apply umbOp_keeps | apply Keeps.ite | apply Keeps.ite1 | apply Keeps.ite2 | apply Keeps.ite22 | rfl | split | dsimp only | apply Keeps.set

theorem execSubmit_keeps (m len) (h : Keeps b s0 s) : Keeps.out b s0 (execSubmit m len s) := by
  unfold execSubmit
  apply Keeps.next
  with_reducible repeat' first | assumption | apply submit_keeps

theorem execSessionExpiry_keeps (id) (h : Keeps b s0 s) : Keeps.out b s0 (execSessionExpiry id s) := by
  unfold execSessionExpiry
  apply Keeps.next
  with_reducible repeat' first | assumption | apply endSessions_keeps | apply Keeps.ite

theorem execHealthReport_keeps (h : Keeps b s0 s) : Keeps.out b s0 (execHealthReport s) := by
  unfold execHealthReport
  apply Keeps.next
  with_reducible repeat' first | assumption | intro _ | apply Keeps.ite | apply Keeps.ite1 | apply Keeps.ite2 | apply Keeps.ite22 | rfl | dsimp only | apply Keeps.set

theorem execMailboxRlenRead_keeps (m) (h : Keeps b s0 s) : Keeps.out b s0 (execMailboxRlenRead m s) := by
  unfold execMailboxRlenRead
  apply Keeps.next
  with_reducible repeat' first | assumption | intro _ | apply mboxRead_keeps | rfl | dsimp only | apply Keeps.set

theorem execUpdBegin_keeps (type total) (h : Keeps b s0 s) : Keeps.out b s0 (execUpdBegin type total s) := by
  unfold execUpdBegin
  apply Keeps.next
  with_reducible repeat' first | assumption | intro _ | apply umbOp_keeps | apply wf_keeps | apply Keeps.ite | apply Keeps.ite1 | apply Keeps.ite2 | apply Keeps.ite22 | rfl | split | dsimp only | apply Keeps.set

theorem execActivate_keeps (type tick) (h : Keeps b s0 s) : Keeps.out b s0 (execActivate type tick s) := by
  unfold execActivate
  apply Keeps.next
  with_reducible repeat' first | assumption | intro _ | apply umbOp_keeps | apply Keeps.ite | apply Keeps.ite1 | apply Keeps.ite2 | apply Keeps.ite22 | rfl | split | dsimp only | apply Keeps.set

theorem execTileUp_keeps (t') (h : Keeps b s0 s) : Keeps.out b s0 (execTileUp t' s) := by
  unfold execTileUp
  apply Keeps.next
  with_reducible repeat' first | assumption | apply tileUnmark_keeps

theorem execRstReq_keeps (x0 slt pcie ddr up) (h : Keeps b s0 s) : Keeps.out b s0 (execRstReq x0 slt pcie ddr up s) := by
  unfold execRstReq
  apply Keeps.next
  with_reducible repeat' first | assumption | apply rstReq_keeps

theorem execTileDown_keeps (t') (h : Keeps b s0 s) : Keeps.out b s0 (execTileDown t' s) := by
  unfold execTileDown
  apply Keeps.next
  with_reducible repeat' first | assumption | apply tileMark_keeps

theorem execSmpUnlock_keeps (h : Keeps b s0 s) : Keeps.out b s0 (execSmpUnlock s) := by
  unfold execSmpUnlock
  apply Keeps.next
  with_reducible repeat' first | assumption | apply smpReset_keeps | apply condNote_keeps | apply emit_keeps | apply wf_keeps | apply Keeps.ite

theorem execSmpLock_keeps (h : Keeps b s0 s) : Keeps.out b s0 (execSmpLock s) := by
  unfold execSmpLock
  apply Keeps.next
  with_reducible repeat' first | assumption | apply smpRelease_keeps | apply condNote_keeps | apply wf_keeps

theorem execStagingClose_keeps (meas) (h : Keeps b s0 s) : Keeps.out b s0 (execStagingClose meas s) := by
  unfold execStagingClose
  apply Keeps.next
  with_reducible repeat' first | assumption | apply stagingClose_keeps

theorem execTileLinkFrame_keeps (t' n ok) (h : Keeps b s0 s) : Keeps.out b s0 (execTileLinkFrame t' n ok s) := by
  unfold execTileLinkFrame
  apply Keeps.next
  with_reducible repeat' first | assumption | apply tileFrame_keeps

theorem execLda_keeps (h' p a m n) (h : Keeps b s0 s) : Keeps.out b s0 (execLda h' p a m n s) := by
  unfold execLda
  apply Keeps.next
  with_reducible repeat' first | assumption | apply issueH_keeps

theorem execSwd_keeps (h' p d a b' fn) (h : Keeps b s0 s) : Keeps.out b s0 (execSwd h' p d a b' fn s) := by
  unfold execSwd
  apply Keeps.next
  with_reducible repeat' first | assumption | apply issueH_keeps

theorem execFlop_keeps (h' p f a b' fn) (h : Keeps b s0 s) : Keeps.out b s0 (execFlop h' p f a b' fn s) := by
  unfold execFlop
  apply Keeps.next
  with_reducible repeat' first | assumption | apply issueH_keeps

theorem execKilnParity_keeps (h') (h : Keeps b s0 s) : Keeps.out b s0 (execKilnParity h' s) := by
  unfold execKilnParity
  apply Keeps.next
  with_reducible repeat' first | assumption | apply hearthParity_keeps

theorem execXori_keeps (h' p d a imm) (h : Keeps b s0 s) : Keeps.out b s0 (execXori h' p d a imm s) := by
  unfold execXori
  apply Keeps.next
  with_reducible repeat' first | assumption | apply issueH_keeps

theorem execLd64_keeps (h' p a b' imm) (h : Keeps b s0 s) : Keeps.out b s0 (execLd64 h' p a b' imm s) := by
  unfold execLd64
  apply Keeps.next
  with_reducible repeat' first | assumption | intro _ | apply issueTram_keeps | apply faultNow_keeps | apply tramCount_keeps | apply Keeps.ite | apply Keeps.ite1

theorem execCmpi_keeps (h' p f a imm c) (h : Keeps b s0 s) : Keeps.out b s0 (execCmpi h' p f a imm c s) := by
  unfold execCmpi
  apply Keeps.next
  with_reducible repeat' first | assumption | apply issueH_keeps

theorem execStrd_keeps (h' p d c i) (h : Keeps b s0 s) : Keeps.out b s0 (execStrd h' p d c i s) := by
  unfold execStrd
  apply Keeps.next
  with_reducible repeat' first | assumption | intro _ | apply issue_keeps | apply readView_keeps

theorem execSt64_keeps (h' p a b' imm) (h : Keeps b s0 s) : Keeps.out b s0 (execSt64 h' p a b' imm s) := by
  unfold execSt64
  apply Keeps.next
  with_reducible repeat' first | assumption | intro _ | apply issueTram_keeps | apply faultNow_keeps | apply tramWrite_keeps | apply Keeps.ite | apply Keeps.ite1

theorem execRep_keeps (h' p count len) (h : Keeps b s0 s) : Keeps.out b s0 (execRep h' p count len s) := by
  unfold execRep
  apply Keeps.next
  with_reducible repeat' first | assumption | apply setHearth_keeps | apply Keeps.ite

theorem execSrai_keeps (h' p d a sh) (h : Keeps b s0 s) : Keeps.out b s0 (execSrai h' p d a sh s) := by
  unfold execSrai
  apply Keeps.next
  with_reducible repeat' first | assumption | apply issueH_keeps

theorem execSt_keeps (h' p t' a imm) (h : Keeps b s0 s) : Keeps.out b s0 (execSt h' p t' a imm s) := by
  unfold execSt
  apply Keeps.next
  with_reducible repeat' first | assumption | intro _ | apply issueTram_keeps | apply faultNow_keeps | apply tramWrite_keeps | apply Keeps.ite | apply Keeps.ite1

theorem execMva_keeps (h' p d a sh rnd) (h : Keeps b s0 s) : Keeps.out b s0 (execMva h' p d a sh rnd s) := by
  unfold execMva
  apply Keeps.next
  with_reducible repeat' first | assumption | apply issueH_keeps

theorem execShri_keeps (h' p d a sh) (h : Keeps b s0 s) : Keeps.out b s0 (execShri h' p d a sh s) := by
  unfold execShri
  apply Keeps.next
  with_reducible repeat' first | assumption | apply issueH_keeps

theorem execSkip_keeps (h' p n) (h : Keeps b s0 s) : Keeps.out b s0 (execSkip h' p n s) := by
  unfold execSkip
  apply Keeps.next
  with_reducible repeat' first | assumption | apply setHearth_keeps | apply Keeps.ite

theorem execBr_keeps (h' p off) (h : Keeps b s0 s) : Keeps.out b s0 (execBr h' p off s) := by
  unfold execBr
  apply Keeps.next
  with_reducible repeat' first | assumption | apply setHearth_keeps | apply Keeps.ite

theorem execAddi_keeps (h' p d a imm) (h : Keeps b s0 s) : Keeps.out b s0 (execAddi h' p d a imm s) := by
  unfold execAddi
  apply Keeps.next
  with_reducible repeat' first | assumption | apply issueH_keeps

theorem execAndi_keeps (h' p d a imm) (h : Keeps b s0 s) : Keeps.out b s0 (execAndi h' p d a imm s) := by
  unfold execAndi
  apply Keeps.next
  with_reducible repeat' first | assumption | apply issueH_keeps

theorem execEndTick_keeps (h' p) (h : Keeps b s0 s) : Keeps.out b s0 (execEndTick h' p s) := by
  unfold execEndTick
  apply Keeps.next
  with_reducible repeat' first | assumption | apply setHearth_keeps | apply Keeps.ite

theorem execLdi_keeps (h' p d hi imm) (h : Keeps b s0 s) : Keeps.out b s0 (execLdi h' p d hi imm s) := by
  unfold execLdi
  apply Keeps.next
  with_reducible repeat' first | assumption | apply issueH_keeps

theorem execTstb_keeps (h' p f a bit) (h : Keeps b s0 s) : Keeps.out b s0 (execTstb h' p f a bit s) := by
  unfold execTstb
  apply Keeps.next
  with_reducible repeat' first | assumption | apply issueH_keeps

theorem execLd_keeps (h' p d a imm) (h : Keeps b s0 s) : Keeps.out b s0 (execLd h' p d a imm s) := by
  unfold execLd
  apply Keeps.next
  with_reducible repeat' first | assumption | intro _ | apply issueTram_keeps | apply faultNow_keeps | apply tramCount_keeps | apply Keeps.ite | apply Keeps.ite1

theorem execScnt_keeps (h' p d c view) (h : Keeps b s0 s) : Keeps.out b s0 (execScnt h' p d c view s) := by
  unfold execScnt
  apply Keeps.next
  with_reducible repeat' first | assumption | intro _ | apply issue_keeps | apply faultNow_keeps | apply Keeps.ite | apply Keeps.ite1

theorem execMul_keeps (h' p a m n u) (h : Keeps b s0 s) : Keeps.out b s0 (execMul h' p a m n u s) := by
  unfold execMul
  apply Keeps.next
  with_reducible repeat' first | assumption | apply issueH_keeps

theorem execShli_keeps (h' p d a sh) (h : Keeps b s0 s) : Keeps.out b s0 (execShli h' p d a sh s) := by
  unfold execShli
  apply Keeps.next
  with_reducible repeat' first | assumption | apply issueH_keeps

theorem execSchd_keeps (h' p d a b' off) (h : Keeps b s0 s) : Keeps.out b s0 (execSchd h' p d a b' off s) := by
  unfold execSchd
  apply Keeps.next
  with_reducible repeat' first | assumption | intro _ | apply issue_keeps | apply schedule_keeps

theorem execOri_keeps (h' p d a imm) (h : Keeps b s0 s) : Keeps.out b s0 (execOri h' p d a imm s) := by
  unfold execOri
  apply Keeps.next
  with_reducible repeat' first | assumption | apply issueH_keeps

theorem execAlu_keeps (h' p d a b' fn) (h : Keeps b s0 s) : Keeps.out b s0 (execAlu h' p d a b' fn s) := by
  unfold execAlu
  apply Keeps.next
  with_reducible repeat' first | assumption | apply issueH_keeps

theorem execNop_keeps (h' p) (h : Keeps b s0 s) : Keeps.out b s0 (execNop h' p s) := by
  unfold execNop
  apply Keeps.next
  with_reducible repeat' first | assumption | apply issueH_keeps

theorem execWaitc_keeps (h' p cyc) (h : Keeps b s0 s) : Keeps.out b s0 (execWaitc h' p cyc s) := by
  unfold execWaitc
  apply Keeps.next
  with_reducible repeat' first | assumption | apply setHearth_keeps | apply Keeps.ite

theorem execGets_keeps (h' p d sel) (h : Keeps b s0 s) : Keeps.out b s0 (execGets h' p d sel s) := by
  unfold execGets
  apply Keeps.next
  with_reducible repeat' first | assumption | intro _ | apply issue_keeps

theorem execClra_keeps (h' p a) (h : Keeps b s0 s) : Keeps.out b s0 (execClra h' p a s) := by
  unfold execClra
  apply Keeps.next
  with_reducible repeat' first | assumption | apply issueH_keeps

theorem execSrd_keeps (h' p d c i) (h : Keeps b s0 s) : Keeps.out b s0 (execSrd h' p d c i s) := by
  unfold execSrd
  apply Keeps.next
  with_reducible repeat' first | assumption | intro _ | apply issue_keeps | apply readView_keeps

theorem execCmp_keeps (h' p f a b' c) (h : Keeps b s0 s) : Keeps.out b s0 (execCmp h' p f a b' c s) := by
  unfold execCmp
  apply Keeps.next
  with_reducible repeat' first | assumption | apply issueH_keeps

theorem execMac_keeps (h' p a m n u neg) (h : Keeps b s0 s) : Keeps.out b s0 (execMac h' p a m n u neg s) := by
  unfold execMac
  apply Keeps.next
  with_reducible repeat' first | assumption | apply issueH_keeps

theorem execLoadCheckDone_keeps (h : Keeps b s0 s) : Keeps.out b s0 (execLoadCheckDone s) := by
  unfold execLoadCheckDone
  apply Keeps.next
  with_reducible repeat' first | assumption | apply loadCheckDone_keeps

theorem execLoadAbort_keeps (m) (h : Keeps b s0 s) : Keeps.out b s0 (execLoadAbort m s) := by
  unfold execLoadAbort
  apply Keeps.next
  with_reducible repeat' first | assumption | apply loadAbort_keeps

theorem execBankWrite_keeps (m x1 x2) (h : Keeps b s0 s) : Keeps.out b s0 (execBankWrite m x1 x2 s) := by
  unfold execBankWrite
  apply Keeps.next
  with_reducible repeat' first | assumption | apply emit_keeps

theorem execLoadData_keeps (m data) (h : Keeps b s0 s) : Keeps.out b s0 (execLoadData m data s) := by
  unfold execLoadData
  apply Keeps.next
  with_reducible repeat' first | assumption | apply loadData_keeps

theorem execSwapRequest_keeps (x0 bank) (h : Keeps b s0 s) : Keeps.out b s0 (execSwapRequest x0 bank s) := by
  unfold execSwapRequest
  apply Keeps.next
  with_reducible repeat' first | assumption | apply swapRequest_keeps

theorem execLoadStart_keeps (m bank abort) (h : Keeps b s0 s) : Keeps.out b s0 (execLoadStart m bank abort s) := by
  unfold execLoadStart
  apply Keeps.next
  with_reducible repeat' first | assumption | apply loadStart_keeps

theorem execLoadTimeout_keeps (h : Keeps b s0 s) : Keeps.out b s0 (execLoadTimeout s) := by
  unfold execLoadTimeout
  apply Keeps.next
  with_reducible repeat' first | assumption | apply loadAbandon_keeps | apply Keeps.ite

theorem execSchedCommit_keeps (m lateOk cancel) (h : Keeps b s0 s) : Keeps.out b s0 (execSchedCommit m lateOk cancel s) := by
  unfold execSchedCommit
  apply Keeps.next
  with_reducible repeat' first | assumption | apply schedCommit_keeps

theorem execSchedCancel_keeps (m) (h : Keeps b s0 s) : Keeps.out b s0 (execSchedCancel m s) := by
  unfold execSchedCancel
  apply Keeps.next
  with_reducible repeat' first | assumption | apply schedCancel_keeps

theorem execTickRateSet_keeps (x0 rate run) (h : Keeps b s0 s) : Keeps.out b s0 (execTickRateSet x0 rate run s) := by
  unfold execTickRateSet
  apply Keeps.next
  with_reducible repeat' first | assumption | apply tickCtrlWrite_keeps

theorem execTickRunStart_keeps (x0) (h : Keeps b s0 s) : Keeps.out b s0 (execTickRunStart x0 s) := by
  unfold execTickRunStart
  apply Keeps.next
  with_reducible repeat' first | assumption | apply runStart_keeps

theorem execRegisterWrite_keeps (m addr data) (h : Keeps b s0 s) : Keeps.out b s0 (execRegisterWrite m addr data s) := by
  unfold execRegisterWrite
  apply Keeps.next
  with_reducible repeat' first | assumption | apply hostWrite_keeps

theorem execBusAddrAccess_keeps (m addr write) (h : Keeps b s0 s) : Keeps.out b s0 (execBusAddrAccess m addr write s) := by
  unfold execBusAddrAccess
  apply Keeps.next
  with_reducible repeat' first | assumption | intro _ | apply busError_keeps | apply Keeps.ite | apply Keeps.ite1 | apply Keeps.ite2 | apply Keeps.ite22 | rfl | dsimp only | apply Keeps.set

theorem execTramBusRead_keeps (m w) (h : Keeps b s0 s) : Keeps.out b s0 (execTramBusRead m w s) := by
  unfold execTramBusRead
  apply Keeps.next
  with_reducible repeat' first | assumption | apply hostRead_keeps | apply tramUpset_keeps

theorem execTickLoRead_keeps (m now) (h : Keeps b s0 s) : Keeps.out b s0 (execTickLoRead m now s) := by
  unfold execTickLoRead
  apply Keeps.next
  with_reducible repeat' first | assumption | apply hostRead_keeps

theorem execNotice_keeps (h : Keeps b s0 s) : Keeps.out b s0 (execNotice s) := by
  unfold execNotice
  apply Keeps.next
  with_reducible repeat' first | assumption | apply noticeSend_keeps

theorem execHcpMessage_keeps (session mseq tagOk fits ty) (h : Keeps b s0 s) : Keeps.out b s0 (execHcpMessage session mseq tagOk fits ty s) := by
  unfold execHcpMessage
  apply Keeps.next
  with_reducible repeat' first | assumption | apply hcpMessage_keeps

theorem execRead_keeps (addr n stop) (h : Keeps b s0 s) : Keeps.out b s0 (execRead addr n stop s) := by
  unfold execRead
  apply Keeps.next
  with_reducible repeat' first | assumption | apply hcpOp_keeps | apply hcpReads_keeps

theorem execSched_keeps (tick addr data mask lateOk stop) (h : Keeps b s0 s) : Keeps.out b s0 (execSched tick addr data mask lateOk stop s) := by
  unfold execSched
  apply Keeps.next
  with_reducible repeat' first | assumption | apply hcpOp_keeps | apply hcpSched_keeps

theorem execFifoWrite_keeps (addr data stop) (h : Keeps b s0 s) : Keeps.out b s0 (execFifoWrite addr data stop s) := by
  unfold execFifoWrite
  apply Keeps.next
  with_reducible repeat' first | assumption | apply hcpOp_keeps | apply hcpWrites_keeps

theorem execWrite_keeps (addr data stop) (h : Keeps b s0 s) : Keeps.out b s0 (execWrite addr data stop s) := by
  unfold execWrite
  apply Keeps.next
  with_reducible repeat' first | assumption | apply hcpOp_keeps | apply hcpWrites_keeps

theorem execFifoRead_keeps (addr n stop) (h : Keeps b s0 s) : Keeps.out b s0 (execFifoRead addr n stop s) := by
  unfold execFifoRead
  apply Keeps.next
  with_reducible repeat' first | assumption | apply hcpOp_keeps | apply fifoReads_keeps

theorem execStokerRelease_keeps (h : Keeps b s0 s) : Keeps.out b s0 (execStokerRelease s) := by
  unfold execStokerRelease
  apply Keeps.next
  with_reducible repeat' first | assumption | apply stokerRelease_keeps

theorem execEventRecord_keeps (n obj detail) (h : Keeps b s0 s) : Keeps.out b s0 (execEventRecord n obj detail s) := by
  unfold execEventRecord
  apply Keeps.next
  with_reducible repeat' first | assumption | apply emit_keeps

theorem execGapForward_keeps (h : Keeps b s0 s) : Keeps.out b s0 (execGapForward s) := by
  unfold execGapForward
  apply Keeps.next
  with_reducible repeat' first | assumption | apply gapForward_keeps

theorem execCommonCauseEnd_keeps (n) (h : Keeps b s0 s) : Keeps.out b s0 (execCommonCauseEnd n s) := by
  unfold execCommonCauseEnd
  apply Keeps.next
  with_reducible repeat' first | assumption | apply stormEnd_keeps

theorem execStokerForwardEvent_keeps (h : Keeps b s0 s) : Keeps.out b s0 (execStokerForwardEvent s) := by
  unfold execStokerForwardEvent
  apply Keeps.next
  with_reducible repeat' first | assumption | apply forwardEvent_keeps

theorem execStokerRunning_keeps (h : Keeps b s0 s) : Keeps.out b s0 (execStokerRunning s) := by
  unfold execStokerRunning
  apply Keeps.next
  with_reducible repeat' first | assumption | apply stokerRunning_keeps

theorem execStokerRestart_keeps (c) (h : Keeps b s0 s) : Keeps.out b s0 (execStokerRestart c s) := by
  unfold execStokerRestart
  apply Keeps.next
  with_reducible repeat' first | assumption | apply stokerRestart_keeps

theorem execUpdateReverted_keeps (h : Keeps b s0 s) : Keeps.out b s0 (execUpdateReverted s) := by
  unfold execUpdateReverted
  apply Keeps.next
  with_reducible repeat' first | assumption | apply trialLost_keeps

theorem execSpisRead_keeps (a n late) (h : Keeps b s0 s) : Keeps.out b s0 (execSpisRead a n late s) := by
  unfold execSpisRead
  apply Keeps.next
  with_reducible repeat' first | assumption | apply spisRead_keeps

theorem execSpisFetchDone_keeps (h : Keeps b s0 s) : Keeps.out b s0 (execSpisFetchDone s) := by
  unfold execSpisFetchDone
  apply Keeps.next
  with_reducible repeat' first | assumption | apply spisLate_keeps | apply spisDrain_keeps

theorem execSpisWrite_keeps (a bytes slow) (h : Keeps b s0 s) : Keeps.out b s0 (execSpisWrite a bytes slow s) := by
  unfold execSpisWrite
  apply Keeps.next
  with_reducible repeat' first | assumption | apply spisWrite_keeps

theorem execSig_keeps (h' p imm) (h : Keeps b s0 s) : Keeps.out b s0 (execSig h' p imm s) := by
  unfold execSig
  apply Keeps.next
  with_reducible repeat' first | assumption | apply post_keeps

theorem execPinsApply_keeps (cyc) (h : Keeps b s0 s) : Keeps.out b s0 (execPinsApply cyc s) := by
  unfold execPinsApply
  apply Keeps.next
  with_reducible repeat' first | assumption | apply pinsUpTo_keeps

theorem execHpw_keeps (h' p port k t' off) (h : Keeps b s0 s) : Keeps.out b s0 (execHpw h' p port k t' off s) := by
  unfold execHpw
  apply Keeps.next
  with_reducible repeat' first | assumption | apply post_keeps

theorem execPins_keeps (h' p m v o) (h : Keeps b s0 s) : Keeps.out b s0 (execPins h' p m v o s) := by
  unfold execPins
  apply Keeps.next
  with_reducible repeat' first | assumption | apply post_keeps

theorem execSpix_keeps (h' p k m) (h : Keeps b s0 s) : Keeps.out b s0 (execSpix h' p k m s) := by
  unfold execSpix
  apply Keeps.next
  with_reducible repeat' first | assumption | apply post_keeps

theorem execQdep_keeps (h' p d q) (h : Keeps b s0 s) : Keeps.out b s0 (execQdep h' p d q s) := by
  unfold execQdep
  apply Keeps.next
  with_reducible repeat' first | assumption | intro _ | apply readOut_keeps | apply faultNow_keeps | apply Keeps.ite | apply Keeps.ite1

theorem execEnq_keeps (h' p q v eop) (h : Keeps b s0 s) : Keeps.out b s0 (execEnq h' p q v eop s) := by
  unfold execEnq
  apply Keeps.next
  with_reducible repeat' first | assumption | apply post_keeps

theorem execRoute_keeps (h' p c q) (h : Keeps b s0 s) : Keeps.out b s0 (execRoute h' p c q s) := by
  unfold execRoute
  apply Keeps.next
  with_reducible repeat' first | assumption | apply post_keeps

theorem execPostedDrain_keeps (h') (h : Keeps b s0 s) : Keeps.out b s0 (execPostedDrain h' s) := by
  unfold execPostedDrain
  apply Keeps.next
  with_reducible repeat' first | assumption | apply drainOne_keeps

theorem execHpr_keeps (h' p d port k off) (h : Keeps b s0 s) : Keeps.out b s0 (execHpr h' p d port k off s) := by
  unfold execHpr
  apply Keeps.next
  with_reducible repeat' first | assumption | intro _ | apply readOut_keeps | apply faultNow_keeps | apply busRead_keeps | rfl | split | dsimp only

theorem execFire_keeps (h' p u c i mode) (h : Keeps b s0 s) : Keeps.out b s0 (execFire h' p u c i mode s) := by
  unfold execFire
  apply Keeps.next
  with_reducible repeat' first | assumption | apply post_keeps

theorem execSpimTransaction_keeps (m cyc) (h : Keeps b s0 s) : Keeps.out b s0 (execSpimTransaction m cyc s) := by
  unfold execSpimTransaction
  apply Keeps.next
  with_reducible repeat' first | assumption | apply spimStart_keeps

theorem execSpimTransactionEnd_keeps (m rx) (h : Keeps b s0 s) : Keeps.out b s0 (execSpimTransactionEnd m rx s) := by
  unfold execSpimTransactionEnd
  apply Keeps.next
  with_reducible repeat' first | assumption | apply spimEnd_keeps

theorem execTickStop_keeps (h : Keeps b s0 s) : Keeps.out b s0 (execTickStop s) := by
  unfold execTickStop
  apply Keeps.next
  with_reducible repeat' first | assumption | apply tickStop_keeps

theorem execTickBoundary_keeps (h : Keeps false s0 s) : Keeps.out false s0 (execTickBoundary s) := by
  unfold execTickBoundary
  apply Keeps.next
  with_reducible repeat' first | assumption | apply tickBoundary_keeps

theorem execTickGeneratorStart_keeps (h : Keeps false s0 s) : Keeps.out false s0 (execTickGeneratorStart s) := by
  unfold execTickGeneratorStart
  apply Keeps.next
  with_reducible repeat' first | assumption | apply generatorStart_keeps

theorem execTailGuard_keeps (h : Keeps b s0 s) : Keeps.out b s0 (execTailGuard s) := by
  unfold execTailGuard
  apply Keeps.next
  with_reducible repeat' first | assumption | apply tailGuard_keeps

theorem execKilnTickStart_keeps (h : Keeps b s0 s) : Keeps.out b s0 (execKilnTickStart s) := by
  unfold execKilnTickStart
  apply Keeps.next
  with_reducible repeat' first | assumption | apply kilnStart_keeps

theorem execDomainResetRelease_keeps (d) (h : Keeps b s0 s) : Keeps.out b s0 (execDomainResetRelease d s) := by
  unfold execDomainResetRelease
  apply Keeps.next
  with_reducible repeat' first | assumption | apply domainRelease_keeps

theorem execXrefOk_keeps (h : Keeps b s0 s) : Keeps.out b s0 (execXrefOk s) := by
  unfold execXrefOk
  apply Keeps.next
  with_reducible repeat' first | assumption | apply umberEvent_keeps | apply wf_keeps | apply Keeps.ite

theorem execHubReset_keeps (c sel25 compat) (h : Keeps false s0 s) : Keeps.out false s0 (execHubReset c sel25 compat s) := by
  unfold execHubReset
  apply Keeps.next
  with_reducible repeat' first | assumption | apply hubReset_keeps | apply Keeps.ite

theorem execUxtalLost_keeps (h : Keeps b s0 s) : Keeps.out b s0 (execUxtalLost s) := by
  unfold execUxtalLost
  apply Keeps.next
  with_reducible repeat' first | assumption | apply umberEvent_keeps | apply wf_keeps | apply Keeps.ite

theorem execPowerUp_keeps (refOk sel25 compat) (h : Keeps false s0 s) : Keeps.out false s0 (execPowerUp refOk sel25 compat s) := by
  unfold execPowerUp
  apply Keeps.next
  with_reducible repeat' first | assumption | apply powerUp_keeps

theorem execUmbRst_keeps (sel25 compat) (h : Keeps false s0 s) : Keeps.out false s0 (execUmbRst sel25 compat s) := by
  unfold execUmbRst
  apply Keeps.next
  with_reducible repeat' first | assumption | apply hubRestart_keeps | apply umberReset_keeps

theorem execRefclkOk_keeps (h : Keeps b s0 s) : Keeps.out b s0 (execRefclkOk s) := by
  unfold execRefclkOk
  apply Keeps.next
  with_reducible repeat' first | assumption | apply emit_keeps | apply wf_keeps | apply Keeps.ite

theorem execDomainReset_keeps (d) (h : Keeps b s0 s) : Keeps.out b s0 (execDomainReset d s) := by
  unfold execDomainReset
  apply Keeps.next
  with_reducible repeat' first | assumption | apply domainReset_keeps

theorem execThermalTrip_keeps (sel25 compat) (h : Keeps false s0 s) : Keeps.out false s0 (execThermalTrip sel25 compat s) := by
  unfold execThermalTrip
  apply Keeps.next
  with_reducible repeat' first | assumption | apply thermalTrip_keeps

theorem execRefclkLost_keeps (h : Keeps b s0 s) : Keeps.out b s0 (execRefclkLost s) := by
  unfold execRefclkLost
  apply Keeps.next
  with_reducible repeat' first | assumption | apply emit_keeps | apply lanesRefLost_keeps | apply wf_keeps | apply Keeps.ite

theorem execThermalRelease_keeps (h : Keeps b s0 s) : Keeps.out b s0 (execThermalRelease s) := by
  unfold execThermalRelease
  apply Keeps.next
  with_reducible repeat' first | assumption | intro _ | apply Keeps.ite | apply Keeps.ite1 | apply Keeps.ite2 | apply Keeps.ite22 | rfl | dsimp only | apply Keeps.set

theorem execXrefLost_keeps (h : Keeps b s0 s) : Keeps.out b s0 (execXrefLost s) := by
  unfold execXrefLost
  apply Keeps.next
  with_reducible repeat' first | assumption | apply umberEvent_keeps | apply wf_keeps | apply Keeps.ite

theorem execUxtalOk_keeps (h : Keeps b s0 s) : Keeps.out b s0 (execUxtalOk s) := by
  unfold execUxtalOk
  apply Keeps.next
  with_reducible repeat' first | assumption | apply wf_keeps

theorem execLcChange_keeps (dst timeout) (h : Keeps false s0 s) : Keeps.out false s0 (execLcChange dst timeout s) := by
  unfold execLcChange
  apply Keeps.next
  with_reducible repeat' first | assumption | apply lcChange_keeps

theorem execServiceTimeout_keeps (h : Keeps b s0 s) : Keeps.out b s0 (execServiceTimeout s) := by
  unfold execServiceTimeout
  apply Keeps.next
  with_reducible repeat' first | assumption | apply serviceTimeout_keeps

theorem execSlateUp_keeps (h : Keeps b s0 s) : Keeps.out b s0 (execSlateUp s) := by
  unfold execSlateUp
  apply Keeps.next
  with_reducible repeat' first | assumption | apply slateUp_keeps

theorem execMirrorRecord_keeps (mseq r) (h : Keeps b s0 s) : Keeps.out b s0 (execMirrorRecord mseq r s) := by
  unfold execMirrorRecord
  apply Keeps.next
  with_reducible repeat' first | assumption | apply mirrorRecord_keeps

theorem execHoldResume_keeps (h : Keeps false s0 s) : Keeps.out false s0 (execHoldResume s) := by
  unfold execHoldResume
  apply Keeps.next
  with_reducible repeat' first | assumption | apply holdResume_keeps

theorem execRestepApply_keeps (h : Keeps b s0 s) : Keeps.out b s0 (execRestepApply s) := by
  unfold execRestepApply
  apply Keeps.next
  with_reducible repeat' first | assumption | apply restepApply_keeps

/-- Every Kiln instruction keeps them, on whichever hearth. -/
theorem kinstr_keeps (n : Fin 4) (i : KInstr) (h : Keeps b s0 s) : Keeps.out b s0 (exec (i.command n) s) := by
  obtain ⟨p, o⟩ := i
  cases o
  case nop => exact execNop_keeps (h := h) ..
  case br => exact execBr_keeps (h := h) ..
  case skip => exact execSkip_keeps (h := h) ..
  case rep => exact execRep_keeps (h := h) ..
  case waitc => exact execWaitc_keeps (h := h) ..
  case endTick => exact execEndTick_keeps (h := h) ..
  case ldi => exact execLdi_keeps (h := h) ..
  case gets => exact execGets_keeps (h := h) ..
  case alu => exact execAlu_keeps (h := h) ..
  case addi => exact execAddi_keeps (h := h) ..
  case andi => exact execAndi_keeps (h := h) ..
  case ori => exact execOri_keeps (h := h) ..
  case xori => exact execXori_keeps (h := h) ..
  case shli => exact execShli_keeps (h := h) ..
  case shri => exact execShri_keeps (h := h) ..
  case srai => exact execSrai_keeps (h := h) ..
  case mul => exact execMul_keeps (h := h) ..
  case mac => exact execMac_keeps (h := h) ..
  case clra => exact execClra_keeps (h := h) ..
  case lda => exact execLda_keeps (h := h) ..
  case mva => exact execMva_keeps (h := h) ..
  case cmp => exact execCmp_keeps (h := h) ..
  case cmpi => exact execCmpi_keeps (h := h) ..
  case flop => exact execFlop_keeps (h := h) ..
  case tstb => exact execTstb_keeps (h := h) ..
  case swd => exact execSwd_keeps (h := h) ..
  case ld => exact execLd_keeps (h := h) ..
  case st => exact execSt_keeps (h := h) ..
  case ld64 => exact execLd64_keeps (h := h) ..
  case st64 => exact execSt64_keeps (h := h) ..
  case scnt => exact execScnt_keeps (h := h) ..
  case srd => exact execSrd_keeps (h := h) ..
  case strd => exact execStrd_keeps (h := h) ..
  case route => exact execRoute_keeps (h := h) ..
  case enq => exact execEnq_keeps (h := h) ..
  case qdep => exact execQdep_keeps (h := h) ..
  case schd => exact execSchd_keeps (h := h) ..
  case fire => exact execFire_keeps (h := h) ..
  case pins => exact execPins_keeps (h := h) ..
  case spix => exact execSpix_keeps (h := h) ..
  case sig => exact execSig_keeps (h := h) ..
  case hpw => exact execHpw_keeps (h := h) ..
  case hpr => exact execHpr_keeps (h := h) ..

theorem hearthStep_keeps (n : Fin 4) (h : Keeps b s0 s) : Keeps b s0 (s.hearthStep n) := by
  unfold State.hearthStep
  dsimp only
  split
  · exact h
  · split
    · exact hearthParity_keeps _ h
    · split
      · exact h
      · next i _ =>
        have h1 := kinstr_keeps n i h
        split
        · exact h
        · split
          · next t e => rw [e] at h1; exact h1
          · exact h

theorem tickCycle_keeps (h : Keeps b s0 s) : Keeps b s0 s.tickCycle := by
  unfold State.tickCycle
  exact Keeps.foldl (fun _ n hx => hearthStep_keeps n hx) _
    (Keeps.foldl (fun _ n hx => hearthStep_keeps n hx) _ (pinsUpTo_keeps _ (drainOne_keeps _ h)))

/-- A core cycle without a command keeps them, the tick number among them. -/
theorem coreCycle_keeps (h : Keeps b s0 s) : Keeps b s0 s.coreCycle := by
  unfold State.coreCycle
  exact restServo_keeps (idle_keeps (Keeps.ite h (tickCycle_keeps h)))

end Sys2Proof.Machine
end

