-- ==== Sys2Proof/Laws/State.lean ====
section
/-!
SUPPORT. What the updates of the state leave alone, one lemma per field per update.
-/
namespace Sys2Proof.Machine

open Sys2Proof

variable (s : State)

/-! ### A word of the register space -/

@[simp] theorem State.wr_hub (a : Nat) (w : Word) : (s.wr a w).hub = s.hub := rfl
@[simp] theorem State.wr_umb (a : Nat) (w : Word) : (s.wr a w).umb = s.umb := rfl
@[simp] theorem State.wr_tick (a : Nat) (w : Word) : (s.wr a w).tick = s.tick := rfl
@[simp] theorem State.wr_kiln (a : Nat) (w : Word) : (s.wr a w).kiln = s.kiln := rfl
@[simp] theorem State.wr_front (a : Nat) (w : Word) : (s.wr a w).front = s.front := rfl
@[simp] theorem State.wr_flk (a : Nat) (w : Word) : (s.wr a w).flk = s.flk := rfl
@[simp] theorem State.wr_ptn (a : Nat) (w : Word) : (s.wr a w).ptn = s.ptn := rfl
@[simp] theorem State.wr_ptp (a : Nat) (w : Word) : (s.wr a w).ptp = s.ptp := rfl
@[simp] theorem State.wr_edg (a : Nat) (w : Word) : (s.wr a w).edg = s.edg := rfl
@[simp] theorem State.wr_knd (a : Nat) (w : Word) : (s.wr a w).knd = s.knd := rfl
@[simp] theorem State.wr_qmg (a : Nat) (w : Word) : (s.wr a w).qmg = s.qmg := rfl
@[simp] theorem State.wr_prs (a : Nat) (w : Word) : (s.wr a w).prs = s.prs := rfl
@[simp] theorem State.wr_crd (a : Nat) (w : Word) : (s.wr a w).crd = s.crd := rfl
@[simp] theorem State.wr_upl (a : Nat) (w : Word) : (s.wr a w).upl = s.upl := rfl
@[simp] theorem State.wr_spi (a : Nat) (w : Word) : (s.wr a w).spi = s.spi := rfl
@[simp] theorem State.wr_pending (a : Nat) (w : Word) : (s.wr a w).pending = s.pending := rfl

/-! ### A field of a register -/

@[simp] theorem State.wf_hub (x : RegField) (v : Nat) : (s.wf x v).hub = s.hub := rfl
@[simp] theorem State.wf_umb (x : RegField) (v : Nat) : (s.wf x v).umb = s.umb := rfl
@[simp] theorem State.wf_tick (x : RegField) (v : Nat) : (s.wf x v).tick = s.tick := rfl
@[simp] theorem State.wf_kiln (x : RegField) (v : Nat) : (s.wf x v).kiln = s.kiln := rfl
@[simp] theorem State.wf_front (x : RegField) (v : Nat) : (s.wf x v).front = s.front := rfl
@[simp] theorem State.wf_flk (x : RegField) (v : Nat) : (s.wf x v).flk = s.flk := rfl
@[simp] theorem State.wf_ptn (x : RegField) (v : Nat) : (s.wf x v).ptn = s.ptn := rfl
@[simp] theorem State.wf_ptp (x : RegField) (v : Nat) : (s.wf x v).ptp = s.ptp := rfl
@[simp] theorem State.wf_edg (x : RegField) (v : Nat) : (s.wf x v).edg = s.edg := rfl
@[simp] theorem State.wf_knd (x : RegField) (v : Nat) : (s.wf x v).knd = s.knd := rfl
@[simp] theorem State.wf_qmg (x : RegField) (v : Nat) : (s.wf x v).qmg = s.qmg := rfl
@[simp] theorem State.wf_prs (x : RegField) (v : Nat) : (s.wf x v).prs = s.prs := rfl
@[simp] theorem State.wf_crd (x : RegField) (v : Nat) : (s.wf x v).crd = s.crd := rfl
@[simp] theorem State.wf_upl (x : RegField) (v : Nat) : (s.wf x v).upl = s.upl := rfl
@[simp] theorem State.wf_spi (x : RegField) (v : Nat) : (s.wf x v).spi = s.spi := rfl
@[simp] theorem State.wf_pending (x : RegField) (v : Nat) : (s.wf x v).pending = s.pending := rfl

/-! ### A hearth -/

@[simp] theorem State.hearth_wr (a : Nat) (w : Word) (h : Nat) : (s.wr a w).hearth h = s.hearth h := rfl
@[simp] theorem State.setHearth_mem (h : Nat) (x : Hearth) : (s.setHearth h x).mem = s.mem := rfl
@[simp] theorem State.setHearth_hub (h : Nat) (x : Hearth) : (s.setHearth h x).hub = s.hub := rfl
@[simp] theorem State.setHearth_umb (h : Nat) (x : Hearth) : (s.setHearth h x).umb = s.umb := rfl
@[simp] theorem State.setHearth_tick (h : Nat) (x : Hearth) : (s.setHearth h x).tick = s.tick := rfl
@[simp] theorem State.setHearth_front (h : Nat) (x : Hearth) : (s.setHearth h x).front = s.front := rfl
@[simp] theorem State.setHearth_flk (h : Nat) (x : Hearth) : (s.setHearth h x).flk = s.flk := rfl
@[simp] theorem State.setHearth_ptn (h : Nat) (x : Hearth) : (s.setHearth h x).ptn = s.ptn := rfl
@[simp] theorem State.setHearth_ptp (h : Nat) (x : Hearth) : (s.setHearth h x).ptp = s.ptp := rfl
@[simp] theorem State.setHearth_edg (h : Nat) (x : Hearth) : (s.setHearth h x).edg = s.edg := rfl
@[simp] theorem State.setHearth_knd (h : Nat) (x : Hearth) : (s.setHearth h x).knd = s.knd := rfl
@[simp] theorem State.setHearth_qmg (h : Nat) (x : Hearth) : (s.setHearth h x).qmg = s.qmg := rfl
@[simp] theorem State.setHearth_prs (h : Nat) (x : Hearth) : (s.setHearth h x).prs = s.prs := rfl
@[simp] theorem State.setHearth_crd (h : Nat) (x : Hearth) : (s.setHearth h x).crd = s.crd := rfl
@[simp] theorem State.setHearth_upl (h : Nat) (x : Hearth) : (s.setHearth h x).upl = s.upl := rfl
@[simp] theorem State.setHearth_spi (h : Nat) (x : Hearth) : (s.setHearth h x).spi = s.spi := rfl
@[simp] theorem State.setHearth_pending (h : Nat) (x : Hearth) : (s.setHearth h x).pending = s.pending := rfl

@[simp] theorem State.rd_setHearth (h : Nat) (x : Hearth) (a : Nat) : (s.setHearth h x).rd a = s.rd a := rfl
@[simp] theorem State.f_setHearth (h : Nat) (x : Hearth) (y : RegField) : (s.setHearth h x).f y = s.f y := rfl

@[simp] theorem State.hearth_setHearth_same (h : Nat) (x : Hearth) : (s.setHearth h x).hearth h = x := by
  simp [State.hearth, State.setHearth]

theorem State.hearth_setHearth_ne {g h : Nat} (x : Hearth) (e : g ≠ h) : (s.setHearth h x).hearth g = s.hearth g := by
  simp [State.hearth, State.setHearth, tabGet_tabSet_ne, e]

/-! ### An event -/

@[simp] theorem emit_tick (n : EvName) (o : Nat) (d : List Int) : (s.emit n o d).tick = s.tick := (congrArg State.tick (emit_records s n o d).rest :)
@[simp] theorem emit_kiln (n : EvName) (o : Nat) (d : List Int) : (s.emit n o d).kiln = s.kiln := (congrArg State.kiln (emit_records s n o d).rest :)
@[simp] theorem emit_front (n : EvName) (o : Nat) (d : List Int) : (s.emit n o d).front = s.front := (congrArg State.front (emit_records s n o d).rest :)
@[simp] theorem emit_flk (n : EvName) (o : Nat) (d : List Int) : (s.emit n o d).flk = s.flk := (congrArg State.flk (emit_records s n o d).rest :)
@[simp] theorem emit_ptn (n : EvName) (o : Nat) (d : List Int) : (s.emit n o d).ptn = s.ptn := (congrArg State.ptn (emit_records s n o d).rest :)
@[simp] theorem emit_ptp (n : EvName) (o : Nat) (d : List Int) : (s.emit n o d).ptp = s.ptp := (congrArg State.ptp (emit_records s n o d).rest :)
@[simp] theorem emit_edg (n : EvName) (o : Nat) (d : List Int) : (s.emit n o d).edg = s.edg := (congrArg State.edg (emit_records s n o d).rest :)
@[simp] theorem emit_knd (n : EvName) (o : Nat) (d : List Int) : (s.emit n o d).knd = s.knd := (congrArg State.knd (emit_records s n o d).rest :)
@[simp] theorem emit_qmg (n : EvName) (o : Nat) (d : List Int) : (s.emit n o d).qmg = s.qmg := (congrArg State.qmg (emit_records s n o d).rest :)
@[simp] theorem emit_prs (n : EvName) (o : Nat) (d : List Int) : (s.emit n o d).prs = s.prs := (congrArg State.prs (emit_records s n o d).rest :)
@[simp] theorem emit_crd (n : EvName) (o : Nat) (d : List Int) : (s.emit n o d).crd = s.crd := (congrArg State.crd (emit_records s n o d).rest :)
@[simp] theorem emit_upl (n : EvName) (o : Nat) (d : List Int) : (s.emit n o d).upl = s.upl := (congrArg State.upl (emit_records s n o d).rest :)
@[simp] theorem emit_spi (n : EvName) (o : Nat) (d : List Int) : (s.emit n o d).spi = s.spi := (congrArg State.spi (emit_records s n o d).rest :)
@[simp] theorem emit_pending (n : EvName) (o : Nat) (d : List Int) : (s.emit n o d).pending = s.pending := (congrArg State.pending (emit_records s n o d).rest :)
@[simp] theorem umberEvent_tick (n : EvName) (o : Nat) (d : List Int) : (s.umberEvent n o d).tick = s.tick := (congrArg State.tick (umberEvent_records s n o d).rest :)
@[simp] theorem umberEvent_kiln (n : EvName) (o : Nat) (d : List Int) : (s.umberEvent n o d).kiln = s.kiln := (congrArg State.kiln (umberEvent_records s n o d).rest :)
@[simp] theorem umberEvent_front (n : EvName) (o : Nat) (d : List Int) : (s.umberEvent n o d).front = s.front := (congrArg State.front (umberEvent_records s n o d).rest :)
@[simp] theorem umberEvent_flk (n : EvName) (o : Nat) (d : List Int) : (s.umberEvent n o d).flk = s.flk := (congrArg State.flk (umberEvent_records s n o d).rest :)
@[simp] theorem umberEvent_ptn (n : EvName) (o : Nat) (d : List Int) : (s.umberEvent n o d).ptn = s.ptn := (congrArg State.ptn (umberEvent_records s n o d).rest :)
@[simp] theorem umberEvent_ptp (n : EvName) (o : Nat) (d : List Int) : (s.umberEvent n o d).ptp = s.ptp := (congrArg State.ptp (umberEvent_records s n o d).rest :)
@[simp] theorem umberEvent_edg (n : EvName) (o : Nat) (d : List Int) : (s.umberEvent n o d).edg = s.edg := (congrArg State.edg (umberEvent_records s n o d).rest :)
@[simp] theorem umberEvent_knd (n : EvName) (o : Nat) (d : List Int) : (s.umberEvent n o d).knd = s.knd := (congrArg State.knd (umberEvent_records s n o d).rest :)
@[simp] theorem umberEvent_qmg (n : EvName) (o : Nat) (d : List Int) : (s.umberEvent n o d).qmg = s.qmg := (congrArg State.qmg (umberEvent_records s n o d).rest :)
@[simp] theorem umberEvent_prs (n : EvName) (o : Nat) (d : List Int) : (s.umberEvent n o d).prs = s.prs := (congrArg State.prs (umberEvent_records s n o d).rest :)
@[simp] theorem umberEvent_crd (n : EvName) (o : Nat) (d : List Int) : (s.umberEvent n o d).crd = s.crd := (congrArg State.crd (umberEvent_records s n o d).rest :)
@[simp] theorem umberEvent_upl (n : EvName) (o : Nat) (d : List Int) : (s.umberEvent n o d).upl = s.upl := (congrArg State.upl (umberEvent_records s n o d).rest :)
@[simp] theorem umberEvent_spi (n : EvName) (o : Nat) (d : List Int) : (s.umberEvent n o d).spi = s.spi := (congrArg State.spi (umberEvent_records s n o d).rest :)
@[simp] theorem umberEvent_pending (n : EvName) (o : Nat) (d : List Int) : (s.umberEvent n o d).pending = s.pending := (congrArg State.pending (umberEvent_records s n o d).rest :)

/-! ### Hearth registers -/

variable (x : Hearth)

@[simp] theorem Hearth.kr_zero : x.kr 0 = 0#32 := rfl
@[simp] theorem Hearth.fr_zero : x.fr 0 = true := rfl
@[simp] theorem Hearth.kw_zero (v : Word) : x.kw 0 v = x := rfl
@[simp] theorem Hearth.fw_zero (v : Bool) : x.fw 0 v = x := rfl

theorem Hearth.kr_kw (n m : Nat) (v : Word) : (x.kw n v).kr m = if m = n ∧ n ≠ 0 then v else x.kr m := by
  unfold Hearth.kw Hearth.kr
  by_cases hn : n = 0 <;> by_cases hm : m = 0 <;> by_cases e : m = n <;> simp_all [tabGet_tabSet]

theorem Hearth.ar_aw (n m : Nat) (v : Acc) : (x.aw n v).ar m = if m = n then v else x.ar m := by
  simp [Hearth.aw, Hearth.ar, tabGet_tabSet]

theorem Hearth.fr_fw (n m : Nat) (v : Bool) : (x.fw n v).fr m = if m = n ∧ n ≠ 0 then v else x.fr m := by
  unfold Hearth.fw Hearth.fr
  by_cases hn : n = 0 <;> by_cases hm : m = 0 <;> by_cases e : m = n <;> simp_all [tabGet_tabSet]

@[simp] theorem Hearth.ar_kw (n : Nat) (v : Word) (m : Nat) : (x.kw n v).ar m = x.ar m := by unfold Hearth.kw; split <;> rfl
@[simp] theorem Hearth.fr_kw (n : Nat) (v : Word) (m : Nat) : (x.kw n v).fr m = x.fr m := by unfold Hearth.kw; split <;> rfl
@[simp] theorem Hearth.sat_kw (n : Nat) (v : Word) : (x.kw n v).sat = x.sat := by unfold Hearth.kw; split <;> rfl
@[simp] theorem Hearth.running_kw (n : Nat) (v : Word) : (x.kw n v).running = x.running := by unfold Hearth.kw; split <;> rfl
@[simp] theorem Hearth.posted_kw (n : Nat) (v : Word) : (x.kw n v).posted = x.posted := by unfold Hearth.kw; split <;> rfl
@[simp] theorem Hearth.cyc_kw (n : Nat) (v : Word) : (x.kw n v).cyc = x.cyc := by unfold Hearth.kw; split <;> rfl
@[simp] theorem Hearth.pc_kw (n : Nat) (v : Word) : (x.kw n v).pc = x.pc := by unfold Hearth.kw; split <;> rfl
@[simp] theorem Hearth.reps_kw (n : Nat) (v : Word) : (x.kw n v).reps = x.reps := by unfold Hearth.kw; split <;> rfl
@[simp] theorem Hearth.faultCount_kw (n : Nat) (v : Word) : (x.kw n v).faultCount = x.faultCount := by unfold Hearth.kw; split <;> rfl
@[simp] theorem Hearth.faultCode_kw (n : Nat) (v : Word) : (x.kw n v).faultCode = x.faultCode := by unfold Hearth.kw; split <;> rfl
@[simp] theorem Hearth.faultPc_kw (n : Nat) (v : Word) : (x.kw n v).faultPc = x.faultPc := by unfold Hearth.kw; split <;> rfl
@[simp] theorem Hearth.signalled_kw (n : Nat) (v : Word) : (x.kw n v).signalled = x.signalled := by unfold Hearth.kw; split <;> rfl
@[simp] theorem Hearth.used_kw (n : Nat) (v : Word) : (x.kw n v).used = x.used := by unfold Hearth.kw; split <;> rfl
@[simp] theorem Hearth.lastFault_kw (n : Nat) (v : Word) : (x.kw n v).lastFault = x.lastFault := by unfold Hearth.kw; split <;> rfl
@[simp] theorem Hearth.suppressed_kw (n : Nat) (v : Word) : (x.kw n v).suppressed = x.suppressed := by unfold Hearth.kw; split <;> rfl
@[simp] theorem Hearth.kr_aw (n : Nat) (v : Acc) (m : Nat) : (x.aw n v).kr m = x.kr m := rfl
@[simp] theorem Hearth.fr_aw (n : Nat) (v : Acc) (m : Nat) : (x.aw n v).fr m = x.fr m := rfl
@[simp] theorem Hearth.sat_aw (n : Nat) (v : Acc) : (x.aw n v).sat = x.sat := rfl
@[simp] theorem Hearth.running_aw (n : Nat) (v : Acc) : (x.aw n v).running = x.running := rfl
@[simp] theorem Hearth.posted_aw (n : Nat) (v : Acc) : (x.aw n v).posted = x.posted := rfl
@[simp] theorem Hearth.cyc_aw (n : Nat) (v : Acc) : (x.aw n v).cyc = x.cyc := rfl
@[simp] theorem Hearth.pc_aw (n : Nat) (v : Acc) : (x.aw n v).pc = x.pc := rfl
@[simp] theorem Hearth.reps_aw (n : Nat) (v : Acc) : (x.aw n v).reps = x.reps := rfl
@[simp] theorem Hearth.faultCount_aw (n : Nat) (v : Acc) : (x.aw n v).faultCount = x.faultCount := rfl
@[simp] theorem Hearth.faultCode_aw (n : Nat) (v : Acc) : (x.aw n v).faultCode = x.faultCode := rfl
@[simp] theorem Hearth.faultPc_aw (n : Nat) (v : Acc) : (x.aw n v).faultPc = x.faultPc := rfl
@[simp] theorem Hearth.signalled_aw (n : Nat) (v : Acc) : (x.aw n v).signalled = x.signalled := rfl
@[simp] theorem Hearth.used_aw (n : Nat) (v : Acc) : (x.aw n v).used = x.used := rfl
@[simp] theorem Hearth.lastFault_aw (n : Nat) (v : Acc) : (x.aw n v).lastFault = x.lastFault := rfl
@[simp] theorem Hearth.suppressed_aw (n : Nat) (v : Acc) : (x.aw n v).suppressed = x.suppressed := rfl
@[simp] theorem Hearth.kr_fw (n : Nat) (v : Bool) (m : Nat) : (x.fw n v).kr m = x.kr m := by unfold Hearth.fw; split <;> rfl
@[simp] theorem Hearth.ar_fw (n : Nat) (v : Bool) (m : Nat) : (x.fw n v).ar m = x.ar m := by unfold Hearth.fw; split <;> rfl
@[simp] theorem Hearth.sat_fw (n : Nat) (v : Bool) : (x.fw n v).sat = x.sat := by unfold Hearth.fw; split <;> rfl
@[simp] theorem Hearth.running_fw (n : Nat) (v : Bool) : (x.fw n v).running = x.running := by unfold Hearth.fw; split <;> rfl
@[simp] theorem Hearth.posted_fw (n : Nat) (v : Bool) : (x.fw n v).posted = x.posted := by unfold Hearth.fw; split <;> rfl
@[simp] theorem Hearth.cyc_fw (n : Nat) (v : Bool) : (x.fw n v).cyc = x.cyc := by unfold Hearth.fw; split <;> rfl
@[simp] theorem Hearth.pc_fw (n : Nat) (v : Bool) : (x.fw n v).pc = x.pc := by unfold Hearth.fw; split <;> rfl
@[simp] theorem Hearth.reps_fw (n : Nat) (v : Bool) : (x.fw n v).reps = x.reps := by unfold Hearth.fw; split <;> rfl
@[simp] theorem Hearth.faultCount_fw (n : Nat) (v : Bool) : (x.fw n v).faultCount = x.faultCount := by unfold Hearth.fw; split <;> rfl
@[simp] theorem Hearth.faultCode_fw (n : Nat) (v : Bool) : (x.fw n v).faultCode = x.faultCode := by unfold Hearth.fw; split <;> rfl
@[simp] theorem Hearth.faultPc_fw (n : Nat) (v : Bool) : (x.fw n v).faultPc = x.faultPc := by unfold Hearth.fw; split <;> rfl
@[simp] theorem Hearth.signalled_fw (n : Nat) (v : Bool) : (x.fw n v).signalled = x.signalled := by unfold Hearth.fw; split <;> rfl
@[simp] theorem Hearth.used_fw (n : Nat) (v : Bool) : (x.fw n v).used = x.used := by unfold Hearth.fw; split <;> rfl
@[simp] theorem Hearth.lastFault_fw (n : Nat) (v : Bool) : (x.fw n v).lastFault = x.lastFault := by unfold Hearth.fw; split <;> rfl
@[simp] theorem Hearth.suppressed_fw (n : Nat) (v : Bool) : (x.fw n v).suppressed = x.suppressed := by unfold Hearth.fw; split <;> rfl
@[simp] theorem Hearth.kr_satIf (v : Bool) (m : Nat) : (x.satIf v).kr m = x.kr m := rfl
@[simp] theorem Hearth.ar_satIf (v : Bool) (m : Nat) : (x.satIf v).ar m = x.ar m := rfl
@[simp] theorem Hearth.fr_satIf (v : Bool) (m : Nat) : (x.satIf v).fr m = x.fr m := rfl
@[simp] theorem Hearth.running_satIf (v : Bool) : (x.satIf v).running = x.running := rfl
@[simp] theorem Hearth.posted_satIf (v : Bool) : (x.satIf v).posted = x.posted := rfl
@[simp] theorem Hearth.cyc_satIf (v : Bool) : (x.satIf v).cyc = x.cyc := rfl
@[simp] theorem Hearth.pc_satIf (v : Bool) : (x.satIf v).pc = x.pc := rfl
@[simp] theorem Hearth.reps_satIf (v : Bool) : (x.satIf v).reps = x.reps := rfl
@[simp] theorem Hearth.faultCount_satIf (v : Bool) : (x.satIf v).faultCount = x.faultCount := rfl
@[simp] theorem Hearth.faultCode_satIf (v : Bool) : (x.satIf v).faultCode = x.faultCode := rfl
@[simp] theorem Hearth.faultPc_satIf (v : Bool) : (x.satIf v).faultPc = x.faultPc := rfl
@[simp] theorem Hearth.signalled_satIf (v : Bool) : (x.satIf v).signalled = x.signalled := rfl
@[simp] theorem Hearth.used_satIf (v : Bool) : (x.satIf v).used = x.used := rfl
@[simp] theorem Hearth.lastFault_satIf (v : Bool) : (x.satIf v).lastFault = x.lastFault := rfl
@[simp] theorem Hearth.suppressed_satIf (v : Bool) : (x.satIf v).suppressed = x.suppressed := rfl
@[simp] theorem Hearth.kr_go (n v : Nat) (m : Nat) : (x.go n v).kr m = x.kr m := rfl
@[simp] theorem Hearth.ar_go (n v : Nat) (m : Nat) : (x.go n v).ar m = x.ar m := rfl
@[simp] theorem Hearth.fr_go (n v : Nat) (m : Nat) : (x.go n v).fr m = x.fr m := rfl
@[simp] theorem Hearth.sat_go (n v : Nat) : (x.go n v).sat = x.sat := rfl
@[simp] theorem Hearth.running_go (n v : Nat) : (x.go n v).running = x.running := rfl
@[simp] theorem Hearth.posted_go (n v : Nat) : (x.go n v).posted = x.posted := rfl
@[simp] theorem Hearth.faultCount_go (n v : Nat) : (x.go n v).faultCount = x.faultCount := rfl
@[simp] theorem Hearth.faultCode_go (n v : Nat) : (x.go n v).faultCode = x.faultCode := rfl
@[simp] theorem Hearth.faultPc_go (n v : Nat) : (x.go n v).faultPc = x.faultPc := rfl
@[simp] theorem Hearth.signalled_go (n v : Nat) : (x.go n v).signalled = x.signalled := rfl
@[simp] theorem Hearth.used_go (n v : Nat) : (x.go n v).used = x.used := rfl
@[simp] theorem Hearth.lastFault_go (n v : Nat) : (x.go n v).lastFault = x.lastFault := rfl
@[simp] theorem Hearth.suppressed_go (n v : Nat) : (x.go n v).suppressed = x.suppressed := rfl
@[simp] theorem Hearth.kr_next (v : Nat) (m : Nat) : (x.next v).kr m = x.kr m := rfl
@[simp] theorem Hearth.ar_next (v : Nat) (m : Nat) : (x.next v).ar m = x.ar m := rfl
@[simp] theorem Hearth.fr_next (v : Nat) (m : Nat) : (x.next v).fr m = x.fr m := rfl
@[simp] theorem Hearth.sat_next (v : Nat) : (x.next v).sat = x.sat := rfl
@[simp] theorem Hearth.running_next (v : Nat) : (x.next v).running = x.running := rfl
@[simp] theorem Hearth.posted_next (v : Nat) : (x.next v).posted = x.posted := rfl
@[simp] theorem Hearth.faultCount_next (v : Nat) : (x.next v).faultCount = x.faultCount := rfl
@[simp] theorem Hearth.faultCode_next (v : Nat) : (x.next v).faultCode = x.faultCode := rfl
@[simp] theorem Hearth.faultPc_next (v : Nat) : (x.next v).faultPc = x.faultPc := rfl
@[simp] theorem Hearth.signalled_next (v : Nat) : (x.next v).signalled = x.signalled := rfl
@[simp] theorem Hearth.used_next (v : Nat) : (x.next v).used = x.used := rfl
@[simp] theorem Hearth.lastFault_next (v : Nat) : (x.next v).lastFault = x.lastFault := rfl
@[simp] theorem Hearth.suppressed_next (v : Nat) : (x.next v).suppressed = x.suppressed := rfl
@[simp] theorem Hearth.kr_fault (n v : Nat) (m : Nat) : (x.fault n v).kr m = x.kr m := rfl
@[simp] theorem Hearth.ar_fault (n v : Nat) (m : Nat) : (x.fault n v).ar m = x.ar m := rfl
@[simp] theorem Hearth.fr_fault (n v : Nat) (m : Nat) : (x.fault n v).fr m = x.fr m := rfl
@[simp] theorem Hearth.sat_fault (n v : Nat) : (x.fault n v).sat = x.sat := rfl
@[simp] theorem Hearth.running_fault (n v : Nat) : (x.fault n v).running = x.running := rfl
@[simp] theorem Hearth.posted_fault (n v : Nat) : (x.fault n v).posted = x.posted := rfl
@[simp] theorem Hearth.cyc_fault (n v : Nat) : (x.fault n v).cyc = x.cyc := rfl
@[simp] theorem Hearth.pc_fault (n v : Nat) : (x.fault n v).pc = x.pc := rfl
@[simp] theorem Hearth.reps_fault (n v : Nat) : (x.fault n v).reps = x.reps := rfl
@[simp] theorem Hearth.signalled_fault (n v : Nat) : (x.fault n v).signalled = x.signalled := rfl
@[simp] theorem Hearth.used_fault (n v : Nat) : (x.fault n v).used = x.used := rfl
@[simp] theorem Hearth.lastFault_fault (n v : Nat) : (x.fault n v).lastFault = x.lastFault := rfl
@[simp] theorem Hearth.suppressed_fault (n v : Nat) : (x.fault n v).suppressed = x.suppressed := rfl

@[simp] theorem Hearth.cyc_next (c : Nat) : (x.next c).cyc = x.cyc + c := rfl

end Sys2Proof.Machine
end

