-- ==== Sys2Proof/WellFormed.lean ====
section
/-!
DEFINITION. Well-formed commands: every operand lies in the range that its field, register or message gives it. The meanings are total and do
not ask for it; what no hardware could send is named here once.
-/
namespace Sys2Proof

/-- A number of at most `n` bits. -/
def inBits (n v : Nat) : Bool := decide (v < 2 ^ n)

/-- A signed number of `n` bits. -/
def inBitsS (n : Nat) (v : Int) : Bool := decide (-(2 ^ (n - 1) : Nat) ≤ v) && decide (v < (2 ^ (n - 1) : Nat))

/-- The position in a field frame's header (R279): one byte. -/
def FrameIn.wf (f : FrameIn) : Bool := inBits 8 f.pos

/-- A channel group of a SAMPLES frame (R279). -/
def SampleGroup.wf (g : SampleGroup) : Bool := inBits 16 g.ch && inBits 32 g.seq && decide (1 ≤ g.words.length)

/-- The fields of an ARM or FIRE frame (R364, R366). -/
def KndFrame.wf (f : KndFrame) : Bool := inBits 8 f.version && inBits 32 f.netid && inBits 32 f.sender && inBits 32 f.sseq && inBits 64 f.armTick

/-- A command is well-formed. -/
def Instr.wf : Instr → Bool
  | .tickBoundary => true
  | .stagingClose meas => decide (meas.iout.length ≤ 24) && decide (meas.vout.length ≤ 24) && decide (meas.sense.length ≤ 96)
  | .kilnTickStart => true
  | .tailGuard => true
  | .kilnParity _ => true
  | .nop _ _ => true
  | .br _ _ off => (KOp.br off).wf
  | .skip _ _ n => (KOp.skip n).wf
  | .rep _ _ count len => (KOp.rep count len).wf
  | .waitc _ _ cyc => (KOp.waitc cyc).wf
  | .endTick _ _ => true
  | .ldi _ _ _ _ _ => true
  | .gets _ _ d sel => (KOp.gets d sel).wf
  | .alu _ _ d s t fn => (KOp.alu d s t fn).wf
  | .addi _ _ _ _ _ => true
  | .andi _ _ _ _ _ => true
  | .ori _ _ _ _ _ => true
  | .xori _ _ _ _ _ => true
  | .shli _ _ _ _ _ => true
  | .shri _ _ _ _ _ => true
  | .srai _ _ _ _ _ => true
  | .mul _ _ _ _ _ _ => true
  | .mac _ _ _ _ _ _ _ => true
  | .clra _ _ _ => true
  | .lda _ _ _ _ _ => true
  | .mva _ _ _ _ _ _ => true
  | .cmp _ _ _ _ _ _ => true
  | .cmpi _ _ _ _ _ _ => true
  | .flop _ _ f a b fn => (KOp.flop f a b fn).wf
  | .tstb _ _ _ _ _ => true
  | .swd _ _ d s t fn => (KOp.swd d s t fn).wf
  | .ld _ _ _ _ _ => true
  | .st _ _ _ _ _ => true
  | .ld64 _ _ _ _ _ => true
  | .st64 _ _ _ _ _ => true
  | .scnt _ _ _ _ _ => true
  | .srd _ _ _ _ _ => true
  | .strd _ _ _ _ _ => true
  | .route _ _ _ _ => true
  | .enq _ _ _ _ _ => true
  | .qdep _ _ _ _ => true
  | .schd _ _ _ _ _ _ => true
  | .fire _ _ u c i mode => (KOp.fire u c i mode).wf
  | .pins _ _ _ _ _ => true
  | .spix _ _ _ _ => true
  | .sig _ _ _ => true
  | .hpw _ _ _ _ _ _ => true
  | .hpr _ _ _ _ _ _ => true
  | .postedDrain _ => true
  | .pinsApply cyc => inBits 20 cyc
  | .registerWrite _ addr _ => inBits 32 addr
  | .busAddrAccess _ addr _ => inBits 32 addr
  | .tickLoRead _ _ => true
  | .tramBusRead _ _ => true
  | .tickRateSet _ rate _ => inBits 17 rate
  | .tickRunStart _ => true
  | .tickStop => true
  | .tickGeneratorStart => true
  | .schedCommit _ _ _ => true
  | .schedCancel _ => true
  | .loadStart _ _ _ => true
  | .loadAbort _ => true
  | .loadData _ _ => true
  | .loadTimeout => true
  | .loadCheckDone => true
  | .bankWrite _ _ _ => true
  | .swapRequest _ _ => true
  | .tileLinkFrame _ n _ => decide (n ≤ 24 * 10240)
  | .tileDown _ => true
  | .tileUp _ => true
  | .stokerRestart _ => true
  | .eventRecord _ obj detail => inBits 16 obj && decide (detail.length ≤ 16)
  | .stokerForwardEvent => true
  | .commonCauseEnd _ => true
  | .gapForward => true
  | .settleEnd _ => true
  | .cmCheck _ mv => inBitsS 32 mv
  | .excComply x => inBitsS 32 x.force
  | .excLimit _ => true
  | .excLimitEnd _ => true
  | .utSelect _ _ => true
  | .codePeriodEnd _ => true
  | .conversion _ j _ input ovr spare => inBits 32 j && inBitsS 64 input && ovr.all (inBits 96) && spare.all (inBitsS 64)
  | .coreStartUp _ => true
  | .estimatorBlock _ _ _ => true
  | .visitRequest _ _ _ _ => true
  | .spareRunRequest _ _ => true
  | .visitCancel _ _ => true
  | .rotationRequest _ => true
  | .tempTriggerEval => true
  | .visitBegin _ => true
  | .matchCheck _ => true
  | .shadowShort _ => true
  | .visitRetry _ _ => true
  | .coreCalDone _ _ _ _ => true
  | .coreRunRetry _ => true
  | .senseRefCycleEnd _ means => decide (means.length ≤ 24)
  | .startZero _ => true
  | .startFull _ => true
  | .finish _ => true
  | .abort _ => true
  | .calPhaseEnd => true
  | .calSysTimeout => true
  | .load _ _ => true
  | .edit _ _ => true
  | .seal _ _ => true
  | .chrBankSealDone _ => true
  | .chrBankWrite _ _ _ _ => true
  | .chrSwapRequest _ _ => true
  | .detectorWindowEnd _ => true
  | .excitationRailMove _ _ => true
  | .queueFlush _ _ _ => true
  | .queueDisable _ _ => true
  | .hostWindowBind _ _ _ _ => true
  | .hostWindowRead _ _ => true
  | .itemReady _ single _ => inBits 16 single
  | .spill _ => true
  | .fill _ => true
  | .blockTransferDone _ _ => true
  | .backlogTrained _ => true
  | .histSet _ _ => true
  | .starvation _ _ => true
  | .bankDecision _ _ => true
  | .laneDisable _ _ => true
  | .retrain _ _ => true
  | .laneLpRequest _ _ _ => true
  | .laneLpWake _ _ => true
  | .detectWindow _ _ => true
  | .trainingFrame _ _ _ _ => true
  | .trainTimeout _ => true
  | .trainDone _ => true
  | .bitlockMeasure _ ppb => inBitsS 32 ppb
  | .bitlockTimeout _ => true
  | .blockReceived _ _ => true
  | .blockLockTimeout _ => true
  | .capsBlock _ _ _ _ => true
  | .capsSend _ => true
  | .capsTimeout _ => true
  | .lossOfSignal _ => true
  | .relockTimeout _ => true
  | .holdEnd _ => true
  | .failsClearActive _ => true
  | .farAbsent _ => true
  | .lpBlock _ _ _ => true
  | .lpNoack _ => true
  | .wakeFail _ => true
  | .laneWakeFar _ => true
  | .relightDone _ => true
  | .discoverSend _ _ => true
  | .nodeInfo f serial model _ epoch chans => f.wf && inBits 32 serial && inBits 16 model && inBits 32 epoch && decide (chans.length ≤ 64)
  | .samples f tick epoch groups => f.wf && inBits 64 tick && inBits 32 epoch && groups.all SampleGroup.wf
  | .report f _ => f.wf
  | .reply f epoch cseq _ value => f.wf && inBits 32 epoch && inBits 32 cseq && inBits 32 value
  | .nodeBoundFrame _ => true
  | .routeExpiry _ _ => true
  | .commandRetry cseq => inBits 32 cseq
  | .join _ => true
  | .leave _ lead => inBits 64 lead
  | .slotSet _ _ _ _ => true
  | .mirrorLag mseq => inBits 32 mseq
  | .heartbeat _ => true
  | .stewardTakeSilence => true
  | .take _ => true
  | .mirrorResend => true
  | .slateUp => true
  | .ptpSync _ _ src seq _ _ _ _ => inBits 80 src && inBits 16 seq
  | .ptpFollowUp _ _ src seq _ _ => inBits 80 src && inBits 16 seq
  | .ptpAnnounce _ _ _ => true
  | .ptpDelayResp _ _ src seq _ _ => inBits 80 src && inBits 16 seq
  | .ptpPdelayReq _ _ seq _ _ => inBits 16 seq
  | .ptpPdelayResp _ _ seq _ _ _ => inBits 16 seq
  | .ptpReqSend _ _ => true
  | .followUpTimeout _ seq => inBits 16 seq
  | .announceTimeout _ => true
  | .syncTimeout => true
  | .servoUpdateTimeout => true
  | .portCompare => true
  | .timeOffset => true
  | .go _ _ _ => true
  | .cancel _ => true
  | .restepApply => true
  | .holdResume => true
  | .restepAuthExpiry => true
  | .probeSend _ _ => true
  | .echo _ seq _ _ => inBits 8 seq
  | .probeTimeout _ seq => inBits 8 seq
  | .mirrorRecord mseq _ => inBits 32 mseq
  | .edgeArrival _ _ _ => true
  | .edgeRelease => true
  | .intervalTimeout _ => true
  | .groupWindowTimeout _ => true
  | .groupHoldoffEnd _ => true
  | .arm _ _ _ _ => true
  | .disarm _ _ _ => true
  | .fireRequest _ time _ => inBits 96 time
  | .settleIntervalEnd _ => true
  | .armFrame f pre post _ => f.wf && inBits 32 pre && inBits 32 post
  | .fireFrame f time _ => f.wf && inBits 96 time
  | .captureCopy _ bad => bad.all fun x => decide (x.1 < 4192)
  | .captureTruncate _ => true
  | .captureEnd _ => true
  | .start _ => true
  | .apply _ => true
  | .skewAbort _ => true
  | .skewPulse => true
  | .skewRunDone => true
  | .pressTakeItem _ => true
  | .briquetteAgeClose _ => true
  | .verifyDone _ _ => true
  | .retrievalDone _ => true
  | .controllerInit _ _ => true
  | .cordRecovery _ => true
  | .cordTakeItem => true
  | .unitAgeClose _ => true
  | .writeComplete _ _ => true
  | .writeTimeout _ => true
  | .epochEnd => true
  | .add _ _ => true
  | .remove _ _ => true
  | .controllerFailed _ => true
  | .controllerRetry _ _ => true
  | .release _ _ => true
  | .jobSubmit _ _ _ _ => true
  | .readComplete _ _ => true
  | .archiveDown => true
  | .streamSend => true
  | .commit _ _ _ => true
  | .launchCancel _ _ => true
  | .launchSlot _ e0 e1 => inBits 96 e0 && inBits 96 e1
  | .uplinkLinkChange _ _ _ => true
  | .uplinkStall _ => true
  | .prpSupervision => true
  | .frameReceive _ src _ _ => inBits 48 src
  | .hcpMessage session mseq _ _ _ => inBits 32 session && inBits 64 mseq
  | .read addr _ _ => inBits 32 addr
  | .write addr data _ => inBits 32 addr && decide (1 ≤ data.length) && decide (data.length ≤ 256)
  | .fifoWrite addr data _ => inBits 32 addr && decide (1 ≤ data.length) && decide (data.length ≤ 256)
  | .fifoRead addr _ _ => inBits 32 addr
  | .sched tick addr _ _ _ _ => inBits 64 tick && inBits 32 addr
  | .hcpReassembly id => inBits 32 id
  | .notice => true
  | .spisRead _ _ _ => true
  | .spisWrite _ bytes _ => decide (1 ≤ bytes.length)
  | .spisFetchDone => true
  | .spimTransaction _ cyc => inBits 20 cyc
  | .spimTransactionEnd _ rx => decide (rx.length ≤ 1024)
  | .sensorSample _ v _ => inBitsS 16 v
  | .thermalTrip _ _ => true
  | .thermalRelease => true
  | .logPageStart => true
  | .logPageCommit => true
  | .logRecovery _ => true
  | .submit _ _ => true
  | .mailboxRlenRead _ => true
  | .umbMboxReleased => true
  | .openSession _ _ life _ => inBits 32 life
  | .closeSession => true
  | .logRead seq n => inBits 64 seq && inBits 32 n
  | .keySet _ _ pub => inBits 776 pub
  | .trigkeySet key => inBits 256 key
  | .updBegin _ total => inBits 32 total
  | .updData offset bytes => inBits 32 offset && decide (bytes.length ≤ 8184)
  | .updEnd _ => true
  | .activate _ tick => inBits 64 tick
  | .imageCommit _ => true
  | .lcChange dst timeout => inBits 8 dst && inBits 32 timeout
  | .fenceWrite addr _ => inBits 32 addr
  | .restepAuth _ most expiry => inBits 32 most && inBits 64 expiry
  | .sessionExpiry id => inBits 32 id
  | .updateAbandoned => true
  | .serviceTimeout => true
  | .stokerRelease => true
  | .healthReport => true
  | .updateReverted => true
  | .umberTrialTimeout => true
  | .umberRestartDone => true
  | .xrefLost => true
  | .xrefOk => true
  | .refclkLost => true
  | .refclkOk => true
  | .uxtalLost => true
  | .uxtalOk => true
  | .smpUnlock => true
  | .smpLock => true
  | .powerUp _ _ _ => true
  | .hubReset _ _ _ => true
  | .umbRst _ _ => true
  | .domainReset _ => true
  | .domainResetRelease _ => true
  | .rstReq _ _ _ _ _ => true
  | .stokerRunning => true

end Sys2Proof
end

