-- ==== Sys2Proof/Tests/Slice0.lean ====
section
/-!
SUPPORT. Tests of the model's own: ill-formed commands that WellFormed refuses, words decoded by hand, single steps whose results the spec
states, and for every claim with hypotheses a state and operands that meet them (`wit_`), clause by clause, at the boundary of a range
where there is one.
-/
namespace Sys2Proof.Tests

set_option Elab.async false

open Sys2Proof Sys2Proof.Machine

/-! ### Small states -/

/-- The hub after reset with some register words. -/
def withRegs (l : List (Nat × Word)) : State := l.foldl (fun s p => s.wr p.1 p.2) State.reset

/-- The hub after reset with some fields. -/
def withFields (l : List (RegField × Nat)) : State := l.foldl (fun s p => s.wf p.1 p.2) State.reset

/-- A predicate that holds, and one that never holds. -/
def pT : Pred := ⟨0, false⟩
def pF : Pred := ⟨0, true⟩

/-- A running hearth with K registers. -/
def hk (k : List (Nat × Word)) : Hearth := { hearth0 with running := true, pc := 7, k := k }

/-- The hub after reset with hearth 0 as given. -/
def withHearth (x : Hearth) : State := State.reset.setHearth 0 x

/-- An event and a queue of `n` of them. -/
def ev0 : Event := { name := .ACCESS_LOCKED, block := 0, obj := 0, detail := [], sec := 0, ns := 0, tick := 0, noTime := true, direct := false, umber := false }
def withEvents (n : Nat) : State := { State.reset with hub.evq := List.replicate n ev0 }

/-- A tick that runs, with a program. -/
def running : State := withFields [(F.KLN_TICK_STATE_STATE, 1), (F.KLN_BANK_STAT_ACTIVE_VALID, 1)]

/-- Any event finds room in the queue and in the log after reset: the premise of every claim that a record joins. -/
theorem wit_room (n : EvName) : evqDepth State.reset.hub.evq + eventEntries n ≤ 4096 ∧ evqDepth State.reset.umb.logBuf + eventEntries n ≤ State.reset.logRoom := by
  have h : eventEntries n ≤ 2 := by unfold eventEntries; split <;> (try split) <;> omega
  have r : State.reset.logRoom = 16384 := by decide
  have e : evqDepth State.reset.hub.evq = 0 ∧ evqDepth State.reset.umb.logBuf = 0 := by decide
  omega

/-! ### Witnesses: the block as a whole and Kiln -/


theorem wit_OnlyBoundariesAndResetsMoveTheTick : exec (.nop 0 pT) State.reset = .next State.reset := rfl

theorem wit_StepKeepsTheHubSafe : (Memory.wf State.reset.mem = true ∧ evqDepth State.reset.hub.evq ≤ 4096 ∧ State.reset.hub.gaps.length ≤ 16384
    ∧ State.reset.ordinary.length ≤ 1024) ∧ ∃ t, step (State.reset.withQueue [.nop 0 pT]) = .next t := ⟨by decide, _, rfl⟩

theorem wit_RecordedEventJoinsTheQueue :
    evqDepth (withEvents 3).hub.evq + eventEntries .ACCESS_LOCKED ≤ 4096
      ∧ evqDepth (withEvents 4095).hub.evq + eventEntries .ACCESS_LOCKED = 4096
      ∧ 4096 < evqDepth (withEvents 4096).hub.evq + eventEntries .ACCESS_LOCKED
      ∧ Reg.KLN_TICK_CTRL ∉ [Reg.HUB_EVQ_STAT, Reg.HUB_EVQ_OVF, Reg.HUB_INT_RAW, Reg.UMB_LOG_LOST] := by decide +kernel

/-- A running hearth whose predicate holds: the premise of every claim about an instruction of Kiln. -/
theorem wit_KlnRuns : (withHearth (hk [(1, 5#32)])).Runs 0 pT := ⟨by decide, by decide⟩

theorem wit_KlnRegisterInstructions : (withHearth (hk [])).Runs 0 pT ∧ (0x010 + 3 : Nat) = 0x013 := ⟨⟨by decide, by decide⟩, rfl⟩

theorem wit_KlnControlFlow :
    ((withHearth (hk [])).hearth 0).running = true ∧ ((withHearth (hk [])).hearth 0).holds pT = true ∧ ((withHearth (hk [])).hearth 0).holds pF = false
      ∧ (5 : Nat) ≠ 3 + 1 ∧ ((4 : Nat) = 3 + 1 ∧ (0 : Nat) < 1) ∧ ((4 : Nat) = 3 + 1 ∧ (0 : Nat) = 0) := by decide

theorem wit_KlnFalsePredicateHasNoEffect :
    ((withHearth (hk [])).hearth 0).running = true ∧ ((withHearth (hk [])).hearth 0).holds (⟨pF, .nop⟩ : KInstr).pred = false := by decide

/-- Words of tick RAM that hearth 0 reaches, at the ends of its own and of the shared part, and those it does not. -/
theorem wit_KlnMemoryViewAndScheduleInstructions :
    let mine (i : Nat) : Prop := i < 0x10000 ∧ (0x8000 ≤ i ∨ (0x2000 * 0 ≤ i ∧ i < 0x2000 * (0 + 1)))
    let at' (k : Word) (imm : BitVec 12) : Nat := (((withHearth (hk [(1, k)])).hearth 0).kr 1).toNat + imm.toNat
    let bad (i : Nat) : State := { withHearth (hk [(1, 0x8000#32)]) with kiln.tramDouble := [i] }
    let one (i : Nat) : State := { withHearth (hk [(1, 0x8000#32)]) with kiln.tramSingle := [i] }
    ((mine (at' 0x1000#32 0xFFF#12) ∧ at' 0x1000#32 0xFFF#12 = 0x1FFF) ∧ mine (at' 0x8000#32 0#12) ∧ mine (at' 0xF000#32 0xFFF#12))
      ∧ (¬mine (at' 0x2000#32 0#12) ∧ ¬mine (at' 0x7000#32 0xFFF#12) ∧ ¬mine (at' 0xF001#32 0xFFF#12))
      ∧ (mine 0xFFFE ∧ 0xFFFE % 2 = 0 ∧ 0xFFFE ∉ State.reset.kiln.tramDouble ∧ 0xFFFF ∉ State.reset.kiln.tramSingle)
      ∧ (mine 0x1FFF ∧ 0x1FFF % 2 = 1)
      ∧ (mine 0x8000 ∧ 0x8000 ∉ (one 0x8000).kiln.tramDouble ∧ 0x8000 ∈ (one 0x8000).kiln.tramSingle)
      ∧ (mine 0x8000 ∧ 0x8000 ∈ (bad 0x8000).kiln.tramDouble)
      ∧ ((0x105F#32 : Word).toNat ≤ 4191 ∧ 4191 < (0x1060#32 : Word).toNat) := by decide

/-- The answers of `schd`: no time, too near, full and accepted. -/
theorem wit_KlnScheduleAnswers :
    let s := (withFields [(F.KLN_TICK_STATE_STATE, 1)]).setHearth 0 (hk [])
    let item : SchedItem := { seq := 0, tick := 9, due := 9, addr := 0, data := 0#32, mask := 0#32, late := false, master := 5 }
    let f : State := { s with tick.items := List.replicate 1024 item }
    (State.reset.genState ≠ 1 ∧ State.reset.genState ≠ 2) ∧ (s.genState = 1 ∧ schedTargetBad 0x400000 = false ∧ (2 : Nat) < 3)
      ∧ (s.genState = 1 ∧ schedTargetBad 0x1300000 = true)
      ∧ (f.genState = 1 ∧ 1024 ≤ f.ordinary.length ∧ ¬(3 : Nat) < 3) ∧ (s.ordinary.length < 1024 ∧ ¬(3 : Nat) < 3) := by decide +kernel

theorem wit_KlnWordsRoundTrip : (KOp.nop).wf = true ∧ kdecode 0#32 = some ⟨pT, .nop⟩ := by decide

/-- A posted buffer with one place left, and one that is full. -/
theorem wit_KlnPostedInstructionsEnter :
    let x (n : Nat) : Hearth := { hk [] with posted := List.replicate n ⟨3, .sig 1⟩ }
    (withHearth (x 15)).Runs 0 pT ∧ ((withHearth (x 15)).hearth 0).posted.length < 16 ∧ (withHearth (x 16)).Runs 0 pT
      ∧ ((withHearth (x 16)).hearth 0).posted.length = 16 :=
  ⟨⟨by decide, by decide⟩, by decide, ⟨by decide, by decide⟩, by decide⟩

/-- A state whose hearth 0 holds one posted entry. -/
def posted (s : State) (op : Posted) : State := s.setHearth 0 { hk [] with posted := [⟨3, op⟩] }

theorem wit_KlnPostedEntriesDrain_route :
    ((withHearth (hk [])).hearth 0).posted = []
      ∧ ((posted State.reset (.route 0x105F#32 0xFFF#32)).Oldest 0 3 (.route 0x105F#32 0xFFF#32) ∧ (0x105F#32 : Word).toNat ≤ 4191
          ∧ (0xFFF#32 : Word).toNat ≤ 4095)
      ∧ ((posted State.reset (.route 0x1060#32 0#32)).Oldest 0 3 (.route 0x1060#32 0#32) ∧ 4191 < (0x1060#32 : Word).toNat)
      ∧ ((posted State.reset (.route 0#32 0x1000#32)).Oldest 0 3 (.route 0#32 0x1000#32) ∧ (0#32 : Word).toNat ≤ 4191 ∧ 4095 < (0x1000#32 : Word).toNat
          ∧ 0x1000#32 ≠ (0xFFFFFFFF#32 : Word)) := by
  refine ⟨by decide, ⟨?_, by decide⟩, ⟨?_, by decide⟩, ⟨?_, by decide⟩⟩ <;> (unfold State.Oldest; decide)

theorem wit_KlnPostedEntriesDrain_pins :
    let s (n o : Nat) : State := { posted State.reset (.pins 1#32 1#32 (BitVec.ofNat 32 o)) with kiln.pinsNext := List.replicate n ⟨1#32, 1#32, 0⟩ }
    ((s 15 24999).Oldest 0 3 (.pins 1#32 1#32 24999#32) ∧ (24999#32 : Word).toNat < (s 15 24999).cycles ∧ (s 15 24999).kiln.pinsNext.length < 16)
      ∧ ((s 0 25000).Oldest 0 3 (.pins 1#32 1#32 25000#32) ∧ (s 0 25000).cycles ≤ (25000#32 : Word).toNat)
      ∧ ((s 16 0).Oldest 0 3 (.pins 1#32 1#32 0#32) ∧ (0#32 : Word).toNat < (s 16 0).cycles ∧ 16 ≤ (s 16 0).kiln.pinsNext.length) := by
  refine ⟨⟨?_, by decide⟩, ⟨?_, by decide⟩, ⟨?_, by decide⟩⟩ <;> (unfold State.Oldest; decide)

theorem wit_KlnPostedEntriesDrain_sig :
    let s : State := posted State.reset (.sig 9)
    let u : State := State.reset.setHearth 0 { hk [] with posted := [⟨3, .sig 9⟩], signalled := true }
    let c : List PinChange := [⟨1#32, 1#32, 4⟩, ⟨2#32, 0#32, 5⟩]
    (s.Oldest 0 3 (.sig 9) ∧ (s.hearth 0).signalled = false) ∧ (u.Oldest 0 3 (.sig 9) ∧ (u.hearth 0).signalled = true)
      ∧ (({ State.reset with kiln.pinsNow := c }).kiln.pinsNow = [⟨1#32, 1#32, 4⟩, ⟨2#32, 0#32, 5⟩] ∧ (4 : Nat) ≤ 5 ∧ (5 : Nat) ≤ 5) := by
  refine ⟨⟨?_, by decide⟩, ⟨?_, by decide⟩, by decide⟩ <;> (unfold State.Oldest; decide)

/-- Pins that Kiln drives, and pins it does not. -/
theorem wit_KlnPinsOfKiln :
    let s := withFields [(F.GPIO_PINn_CFG_OWNER 31, 1), (F.GPIO_PINn_CFG_DIR 31, 1)]
    (s.ef (F.GPIO_PINn_CFG_OWNER 31) = 1 ∧ s.ef (F.GPIO_PINn_CFG_DIR 31) = 1) ∧ ¬(s.ef (F.GPIO_PINn_CFG_OWNER 0) = 1 ∧ s.ef (F.GPIO_PINn_CFG_DIR 0) = 1) := by
  decide

/-- An enabled queue with room. -/
def qOn (q : Nat) : State := withFields [(F.QMG_Qq_CFG_EN q, 1), (F.QMG_Qq_LIMIT_LIMIT q, 100)]

theorem wit_KlnPostedEntriesDrain_enq :
    let s (q : Nat) : State := posted (qOn 4095) (.enq (BitVec.ofNat 32 q) 1#32 false)
    ((s 4095).Oldest 0 3 (.enq 4095#32 1#32 false) ∧ (4095#32 : Word).toNat ≤ 4095 ∧ (((s 4095).queue 4095).pkt (.hearth 0)).isNone
        ∧ (s 4095).hearthOpens 0 < 8 ∧ (s 4095).refuses 4095 0 1 = false)
      ∧ ((s 4096).Oldest 0 3 (.enq 4096#32 1#32 false) ∧ 4095 < (4096#32 : Word).toNat) := by
  refine ⟨⟨?_, by decide⟩, ⟨?_, by decide⟩⟩ <;> (unfold State.Oldest; decide)

theorem wit_KlnPostedEntriesDrain_fire :
    let s (u c i : Nat) (m : FireMode) : State := posted State.reset (.fire (BitVec.ofNat 32 u) (BitVec.ofNat 32 c) (BitVec.ofNat 32 i) m)
    ((s 63 0 0 .boundaryPlus).Oldest 0 3 (.fire 63#32 0#32 0#32 .boundaryPlus) ∧ (63#32 : Word).toNat < 64)
      ∧ ((s 0 4192 0 .stagingEntry).Oldest 0 3 (.fire 0#32 4192#32 0#32 .stagingEntry) ∧ 4191 < (4192#32 : Word).toNat)
      ∧ ((s 64 4191 0 .stagingEntry).Oldest 0 3 (.fire 64#32 4191#32 0#32 .stagingEntry) ∧ (4191#32 : Word).toNat ≤ 4191 ∧ 63 < (64#32 : Word).toNat)
      ∧ ((s 64 0 0 .boundaryPlus).Oldest 0 3 (.fire 64#32 0#32 0#32 .boundaryPlus) ∧ 63 < (64#32 : Word).toNat)
      ∧ ((s 63 4191 0 .stagingEntry).Oldest 0 3 (.fire 63#32 4191#32 0#32 .stagingEntry)
          ∧ ((s 63 4191 0 .stagingEntry).viewOf .staging (4191#32 : Word).toNat).length ≤ (0#32 : Word).toNat) := by
  refine ⟨⟨?_, by decide⟩, ⟨?_, by decide⟩, ⟨?_, by decide⟩, ⟨?_, by decide⟩, ⟨?_, by decide⟩⟩ <;> (unfold State.Oldest; decide)

theorem wit_KlnPostedEntriesDrain_ports :
    let x (d : Nat) : State := posted State.reset (.spix (BitVec.ofNat 32 d) 1)
    let w (off port : Nat) : State := posted State.reset (.hpw off port 1#32)
    ((x 0x10000).Oldest 0 3 (.spix 0x10000#32 1) ∧ 0x10000 ≤ (0x10000#32 : Word).toNat)
      ∧ ((x 0x2000).Oldest 0 3 (.spix 0x2000#32 1) ∧ (0x2000#32 : Word).toNat < 0x8000 ∧ (0x2000#32 : Word).toNat / 0x2000 ≠ 0)
      ∧ ((w 0x40000 0).Oldest 0 3 (.hpw 0x40000 0 1#32) ∧ 0x3FFFF < 0x40000) ∧ ((w 0x100000 9).Oldest 0 3 (.hpw 0x100000 9 1#32) ∧ 0xFFFFF < 0x100000)
      ∧ ((w 0x3FFFE 0).Oldest 0 3 (.hpw 0x3FFFE 0 1#32) ∧ 0x3FFFE ≤ 0x3FFFF ∧ 0x3FFFE % 4 ≠ 0) := by
  refine ⟨⟨?_, by decide⟩, ⟨?_, by decide⟩, ⟨?_, by decide⟩, ⟨?_, by decide⟩, ⟨?_, by decide⟩⟩ <;> (unfold State.Oldest; decide)

theorem wit_KlnWaitingReads :
    let q (k : Word) : Nat := (((withHearth (hk [(1, k)])).hearth 0).kr 1).toNat
    let full : State := withHearth { hk [] with posted := [⟨3, .sig 1⟩] }
    (withHearth (hk [(1, 4095#32)])).Runs 0 pT ∧ ((withHearth (hk [(1, 4095#32)])).hearth 0).posted = []
      ∧ (full.Runs 0 pT ∧ (full.hearth 0).posted ≠ []) ∧ q 4095#32 ≤ 4095 ∧ 4095 < q 4096#32
      ∧ (q 0x3FFFC#32 ≤ 0x3FFFF ∧ q 0x3FFFC#32 % 4 = 0) ∧ 0x3FFFF < q 0x40000#32 ∧ (q 0x3FFFD#32 ≤ 0x3FFFF ∧ q 0x3FFFD#32 % 4 ≠ 0) :=
  ⟨⟨by decide, by decide⟩, by decide, ⟨⟨by decide, by decide⟩, by decide⟩, by decide⟩

theorem wit_KlnParityStopsTheHearth : ((withHearth (hk [])).hearth 0).running = true ∧ ((withHearth (hk [])).hearth 0).posted = [] := by decide

theorem wit_KlnTailGuardClearsHearths :
    (running.genState = 1 ∧ running.tick.inTail = false) ∧ (running.kiln.started = false ∧ running.bankValid = true)
      ∧ (State.reset.genState ≠ 1 ∧ State.reset.bankValid = false) := by decide

/-! ### Witnesses: the tick, the bus and the loader -/

/-- The hub with its generator stopped. -/
def stopped : State := withFields [(F.KLN_TICK_STATE_STATE, 3), (F.KLN_TICK_CTRL_RUN, 0)]

/-- An idle hub whose count of cycles is and is not at its last. -/
theorem wit_EmptyQueueIsOneCoreCycle :
    let s (n : Nat) : State := { stopped with tick.rest := n }
    (stopped.pending = [] ∧ stopped.genState ≠ 1) ∧ (s 24998).tick.rest + 1 < (s 24998).cycles ∧ ¬(s 24999).tick.rest + 1 < (s 24999).cycles := by decide +kernel

/-- The rates at the ends of the range, and numbers just outside it. -/
theorem wit_TickValidRates :
    validRate 1000 = true ∧ validRate 100000 = true ∧ validRate 999 = false ∧ validRate 48000 = false ∧ validRate 131071 = false
      ∧ running.genState = 1 ∧ stopped.genState = 3 := by decide +kernel

theorem wit_TickNumbersAndSeconds :
    (validRate 1000 = true ∧ 999 < 1000) ∧ (validRate 32000 = true ∧ validRate 100000 = true) ∧ (validRate 100000 = true ∧ 0 < 1) := by decide +kernel

theorem wit_TickBoundaryCommand :
    let r := withFields [(F.KLN_TICK_STATE_STATE, 1), (F.KLN_TICK_CTRL_RUN, 1)]
    let d := withFields [(F.KLN_TICK_STATE_STATE, 1), (F.KLN_TICK_CTRL_RUN, 0)]
    (r.genState = 1 ∧ r.tailGuard.f F.KLN_TICK_CTRL_RUN = 1) ∧ (d.genState = 1 ∧ d.tailGuard.f F.KLN_TICK_CTRL_RUN = 0)
      ∧ (stopped.genState ≠ 1 ∧ stopped.genState = 3) ∧ (r.genState ≠ 3 ∧ r.tick.stagingClosed = false)
      ∧ ({ r with tick.stagingClosed := true }).tick.stagingClosed = true := by decide +kernel

theorem wit_TickRateRunAndStart :
    let g : State := { withFields [(F.CLK_STAT_SMP_LOCK, 1)] with tick.firstLock := true }
    let o : State := withFields [(F.KLN_TICK_STATE_STATE, 3), (F.KLN_BANK_STAT_ACTIVE_VALID, 1), (F.KLN_Bb_DECLn_DECL 0 0, 30000)]
    (g.genState = 0 ∧ g.f F.KLN_TICK_CTRL_RUN = 1 ∧ g.tick.firstLock = true ∧ g.f F.CLK_STAT_SMP_LOCK = 1 ∧ g.umb.held = false ∧ g.umb.thermal = false)
      ∧ stopped.genState ≠ 0
      ∧ (validRate 100000 = true ∧ stopped.genState = 3 ∧ 100000 ≠ stopped.rate ∧ 100000 < 131072) ∧ (validRate 1000 = true ∧ g.genState = 0)
      ∧ (running.genState = 1 ∧ 1000 ≠ running.rate) ∧ (48000 ≠ stopped.rate ∧ validRate 48000 = false)
      ∧ stopped.overBudget = false ∧ (o.genState = 3 ∧ o.overBudget = true) ∧ running.genState ≠ 3 := by decide +kernel

/-- A tick is running and Umber has staged an item. -/
def staged (lo addr : Nat) : State :=
  withFields [(F.KLN_TICK_STATE_STATE, 1), (privF 4 F.KLN_SCHED_TICK_LO_TICK, lo), (privF 4 F.KLN_SCHED_ADDR_ADDR, addr / 4)]

/-- Targets three ticks ahead, two ahead, and beyond the far limit; a forbidden address; a queue that is full. -/
theorem wit_SchedulerDecidesACommit :
    let T (s : State) : Nat := s.f (privF 4 F.KLN_SCHED_TICK_LO_TICK) + s.f (privF 4 F.KLN_SCHED_TICK_HI_TICK) * 2 ^ 32
    let far := (staged 1 0x400000).wf (privF 4 F.KLN_SCHED_TICK_HI_TICK) 1
    (T (staged 3 0x400000) = (staged 3 0x400000).tick.num + 3) ∧ (T (staged 2 0x400000) < (staged 2 0x400000).tick.num + 3)
      ∧ far.tick.num + 2 ^ 32 < T far ∧ (staged 3 0x13FFFFC).f (privF 4 F.KLN_SCHED_ADDR_ADDR) * 4 = 0x13FFFFC
      ∧ (State.reset.genState ≠ 1 ∧ State.reset.genState ≠ 2) := by decide +kernel

theorem wit_SchedulerCancelsUnderTheLeadRule :
    let item (t : Nat) : SchedItem := { seq := 9, tick := t, due := t, addr := 0, data := 0#32, mask := 0#32, late := false, master := 4 }
    let s (t : Nat) : State := { withRegs [(priv 4 Reg.KLN_SCHED_DATA, 9#32)] with tick.items := [item t] }
    (∀ i ∈ State.reset.tick.items, i.seq ≠ 0)
      ∧ (item 3 ∈ (s 3).tick.items ∧ ((s 3).rd (priv 4 Reg.KLN_SCHED_DATA)).toNat = (item 3).seq ∧ (∀ j ∈ (s 3).tick.items, j.seq = 9 → j = item 3)
          ∧ (s 3).tick.num + 3 ≤ (item 3).tick)
      ∧ (item 2 ∈ (s 2).tick.items ∧ (item 2).tick < (s 2).tick.num + 3) := by decide +kernel

/-! ### Witnesses: the bus -/

theorem wit_BusWriteObeysAccessCodes :
    (∃ r i, rowOf 0x100 = some (r, i) ∧ r.w1c ≠ 0) ∧ (∃ r i, rowOf 0x1300000 = some (r, i)) ∧ State.reset.umb.thermal = false ∧ State.reset.umb.held = false
      ∧ State.reset.f F.UMB_STAT_LC ≤ 1 ∧ ¬(withFields [(F.UMB_STAT_LC, 2)]).f F.UMB_STAT_LC ≤ 1 := by
  refine ⟨⟨_, _, rfl, ?_⟩, ⟨_, _, rfl⟩, ?_⟩ <;> decide +kernel

theorem wit_BusErrorsAndLatches :
    State.reset.umb.thermal = false ∧ State.reset.umb.held = false
      ∧ (0x30000 % 4 = 0 ∧ 0x30000 ≤ 0x30000 ∧ 0x30000 < 0x100000) ∧ (0xFFFFFFFC % 4 = 0 ∧ 0x1500000 ≤ 0xFFFFFFFC)
      ∧ tabGet (fun _ => 0) State.reset.hub.busErrTick 4 ≠ State.reset.tick.num + 1
      ∧ tabGet (fun _ => 0) ({ State.reset with hub.busErrTick := [(4, 1)] }).hub.busErrTick 4 = State.reset.tick.num + 1
      ∧ 65535 ∉ State.reset.kiln.tramDouble ∧ 65535 ∈ ({ State.reset with kiln.tramDouble := [65535] }).kiln.tramDouble := by decide +kernel

/-! ### Witnesses: the loader -/

/-- A load by Umber (master 4) with a phase and the words received. -/
def loadAt (phase : Nat) (image : List Word) : State :=
  { withFields [(F.KLN_LOAD_STAT_PHASE, phase), (F.KLN_LOAD_STAT_OWNER, 4)] with kiln.image := image }

/-- The first 15 words of the header of an image of one word, `end`, with every entry point 0 and every bound 1. -/
def header15 : List Word := [0x4B494C46#32, 1#32, 32000#32, 7#32, 0#32, 0#32, 1#32, 1#32, 1#32, 1#32, 1#32, 0#32, 0#32, 0#32, 72#32]

/-- The image whole. Its checks were computed outside the model, from the polynomial of the spec. -/
def image18 : List Word := header15 ++ [0xF01238CB#32, 0x14000000#32, 0x9FA31BB7#32]

theorem wit_LoaderCommandsAct :
    let o : State := withFields [(F.KLN_LOAD_STAT_PHASE, 1), (F.KLN_LOAD_STAT_OWNER, 3)]
    let n : State := { State.reset with kiln.strayNoted := [4] }
    State.reset.bankState 0 ≠ 4 ∧ (withFields [(bankStateF 1, 4)]).bankState 1 = 4
      ∧ ((o.f F.KLN_LOAD_STAT_PHASE = 1) ∧ o.f F.KLN_LOAD_STAT_OWNER ≠ masterCode .umber)
      ∧ ¬(State.reset.f F.KLN_LOAD_STAT_PHASE = 1 ∨ State.reset.f F.KLN_LOAD_STAT_PHASE = 2)
      ∧ ((loadAt 1 []).f F.KLN_LOAD_STAT_PHASE = 1 ∧ (loadAt 1 []).f F.KLN_LOAD_STAT_OWNER = masterCode .umber ∧ (loadAt 1 []).kiln.loadBank < 2)
      ∧ (loadAt 1 (header15.take 14)).kiln.image.length < 15
      ∧ masterCode .umber ∉ State.reset.kiln.strayNoted ∧ masterCode .umber ∈ n.kiln.strayNoted := by decide +kernel

/-- An image that passes every check, a word that makes one fail, and a header that is refused at its 16th word. -/
theorem wit_LoaderAdmitsOrRefuses :
    ((loadAt 2 image18).f F.KLN_LOAD_STAT_PHASE = 2 ∧ (loadAt 2 image18).imageCode.1 = 0 ∧ (loadAt 2 image18).headerCode = 0)
      ∧ (loadAt 2 (image18.take 17 ++ [0#32])).imageCode.1 = 0x07
      ∧ ((loadAt 1 header15).kiln.image.length = 15 ∧ (loadAt 1 (header15 ++ [0#32])).headerCode = 0x03)
      ∧ (loadAt 2 image18).f F.KLN_LOAD_STAT_OWNER = masterCode .umber ∧ (loadAt 2 image18).kiln.loadBank < 2 := by decide +kernel

theorem wit_SwapRequestIsDecided :
    let r : State := { withFields [(bankStateF 1, 3), (F.KLN_Bb_RATE_RATE 1, 32000)] with kiln.banks := [(1, { bank0 with loaded := true, seed := [(65535, 5#32)] })] }
    running.genState = 1 ∧ (running.kiln.swaps = [] ∧ running.kiln.swapsNow = []) ∧ (State.reset.genState ≠ 1 ∧ State.reset.bankState 0 ≠ 4 ∧ State.reset.bankState 0 ≠ 3)
      ∧ (r.genState ≠ 1 ∧ r.genState ≠ 2 ∧ r.bankState 1 = 3 ∧ r.f (F.KLN_Bb_RATE_RATE 1) = r.rate ∧ r.envFits 1 = true 
          ∧ (r.bank 1).seed = [(65535, 5#32)] ∧ 65535 < 65536) := by decide +kernel
/-! ### Witnesses: the front ends, tiles and Stoker -/

/-- An enabled channel whose window is 1,000 mV wide on both sides, and an enabled driver. -/
def afe : State :=
  withFields [(F.AFE_CH_CFG_MODE 95, 1), (F.AFE_CH_CM_CM_HI 95, 10), (F.AFE_CH_CM_CM_LO 95, 0xF6), (F.AFE_CH_CM_DEB_ON 95, 1), (F.AFE_CH_CM_DEB_OFF 95, 1),
    (F.AFE_CH_STAT_SETTLING 95, 0), (F.AFE_EX_CTRL_EN 23, 1), (F.AFE_EX_CTRL_REMOTE 23, 1)]

/-- Each side of the window and its edges, a count that declares or clears and one that does not. -/
theorem wit_FrontEndCommandsAct_window :
    (State.reset.ef (F.AFE_CH_CFG_MODE 0) = 0)
      ∧ (afe.ef (F.AFE_CH_CFG_MODE 95) ≠ 0 ∧ afe.f (F.AFE_CH_STAT_SETTLING 95) = 0)
      ∧ (afe.efs (F.AFE_CH_CM_CM_HI 95) * 100 < 1001 ∧ ¬afe.efs (F.AFE_CH_CM_CM_HI 95) * 100 < 1000)
      ∧ ((-1001 : Int) < afe.efs (F.AFE_CH_CM_CM_LO 95) * 100 ∧ ¬(-1000 : Int) < afe.efs (F.AFE_CH_CM_CM_LO 95) * 100)
      ∧ (afe.f (F.AFE_CH_STAT_CMF 95) = 0 ∧ max 1 (afe.ef (F.AFE_CH_CM_DEB_ON 95)) ≤ 0 + 1)
      ∧ (let d := afe.wf (F.AFE_CH_CM_DEB_ON 95) 2; 0 + 1 < max 1 (d.ef (F.AFE_CH_CM_DEB_ON 95)))
      ∧ (let d := { afe.wf (F.AFE_CH_STAT_CMF 95) 1 with front.cmIn := [(95, 63)] }
         d.f (F.AFE_CH_STAT_CMF 95) = 1 ∧ max 1 (d.ef (F.AFE_CH_CM_DEB_OFF 95)) * 64 ≤ tabGet (fun _ => 0) d.front.cmIn 95 + 1)
      ∧ 0 + 1 < max 1 (afe.ef (F.AFE_CH_CM_DEB_OFF 95)) * 64 := by decide +kernel

theorem wit_FrontEndCommandsAct_drivers :
    (afe.ef (F.AFE_EX_CTRL_EN 23) = 1 ∧ afe.ef (F.AFE_EX_CTRL_REMOTE 23) = 1 ∧ afe.f (F.AFE_EX_STAT_COMPLY 23) = 0 ∧ afe.f (F.AFE_EX_STAT_LIMIT 23) = 0)
      ∧ (afe.wf (F.AFE_EX_STAT_COMPLY 23) 1).f (F.AFE_EX_STAT_COMPLY 23) = 1
      ∧ (let d := { afe.wf (F.AFE_EX_STAT_LIMIT 23) 1 with front.limitAt := [(23, some 5)] }
         d.f (F.AFE_EX_STAT_LIMIT 23) = 1 ∧ tabGet (fun _ => none) d.front.limitAt 23 = some 5) := by decide +kernel

/-- A table of two rising points is good, one of two equal points and one of a single point are not. -/
theorem wit_FrontEndCommandsAct_tables :
    (let d := withFields [(F.AFE_UT_N1_N, 2), (F.AFE_UT_X1_X 1, 1)]
     d.f F.AFE_UT_CTRL_SEL ≠ 1 ∧ d.f F.AFE_UT_CTRL_SEL = 0 ∧ 2 ≤ d.utN 1 ∧ d.utN 1 ≤ 1024 ∧ d.utX 1 0 < d.utX 1 1)
      ∧ (let d := withFields [(F.AFE_UT_N1_N, 2)]; d.utN 1 = 2 ∧ ¬d.utX 1 0 < d.utX 1 1) ∧ (withFields [(F.AFE_UT_N1_N, 1)]).utN 1 < 2 := by decide +kernel

theorem wit_FrontEndCommandsAct_code :
    let d : State := { State.reset with front.corrs := [(95, some { period := 32, start := 0, chips := [], or := 0, tia := none })] }
    (∃ k, tabGet (fun _ => none) d.front.corrs 95 = some k) ∧ d.pathRuns 95 = false := ⟨⟨_, rfl⟩, by decide +kernel⟩

theorem wit_TileLinkCommandsAct :
    let d (x : TileSt) : State := State.reset.setTile 3 x
    (State.reset.tile 3).down = false ∧ (State.reset.tile 3).retrying = false ∧ (State.reset.tile 3).marked = false
      ∧ ((d { tile0 with retrying := true }).tile 3).retrying = true
      ∧ (((d { tile0 with down := true }).tile 3).down = true ∧ ((d { tile0 with down := true }).tile 3).marked = false
          ∧ ((d { tile0 with down := true }).tile 3).lossFrom = none ∧ ∀ k < 3, (d { tile0 with down := true }).visit (3 * 3 + k) = none)
      ∧ (((d { tile0 with marked := true }).tile 3).marked = true ∧ ((d { tile0 with marked := true }).tile 3).down = false
          ∧ (d { tile0 with marked := true }).tick.held = [] ∧ (d { tile0 with marked := true }).hub.gaps.length + 24 ≤ 16384) := by decide +kernel

/-- Stoker up, with one record in the queue. -/
def evUp (o : Nat) (st : List Storm) : State :=
  { withFields [(F.STK_STAT_STATE, 2)] with hub.evq := [{ ev0 with obj := o, tick := 63 }], hub.storms := st }

/-- A window of a type, with `n` origins. -/
def storm (n : Nat) (held : Bool) : Storm :=
  { name := .ACCESS_LOCKED, block := 0, first := objChannel 0, origins := (List.range n).map objChannel, count := n, lanes := 0, last := 0, opened := 63, holding := held }

theorem wit_StokerForwardsEventsAndGaps :
    let up := evUp (objChannel 95) [storm 7 false]
    State.reset.f F.STK_STAT_STATE < 2
      ∧ (2 ≤ up.f F.STK_STAT_STATE ∧ up.hub.evHeld = [] ∧ up.hub.evq ≠ [] ∧ up.f F.UPL_EVQ_EN = 0 ∧ up.f F.CRD_EVQ_EN = 0 ∧ up.umb.lostOpen = false
          ∧ evqDepth up.umb.logBuf + 2 ≤ up.logRoom)
      ∧ stormOrigin (objChannel 95) = true ∧ stormOrigin 0 = false ∧ stormOrigin (objPartner 511) = true ∧ stormOrigin (objPartner 512) = false
      ∧ (evUp (objChannel 95) []).hub.storms = [] ∧ (63 ≤ (storm 7 false).opened)
      ∧ 8 ≤ ((storm 7 false).origins ++ [objChannel 95]).length ∧ ((storm 6 false).origins ++ [objChannel 95]).length < 8
      ∧ (up.hub.storms.find? fun x => x.name == .ACCESS_LOCKED) = some (storm 7 false)
      ∧ ((evUp 0 [storm 8 true]).hub.storms.find? fun y => y.name == .ACCESS_LOCKED && y.holding) = some (storm 8 true) := by decide +kernel

/-- A gap record. -/
def gapRec : Gap :=
  { ch := 0, cause := .tickStop, queueWide := false, conv := false, merged := false, inexact := false, queue := 0, firstTick := 0, lastTick := 0, firstSec := 0,
    firstIdx := 0, lastSec := 0, lastIdx := 0, seq := 0, count := 1 }

/-- One gap record waits: its queue admits it, or refuses it for being off. -/
theorem wit_StokerForwardsEventsAndGaps_gaps :
    let d (l : List (RegField × Nat)) : State := { withFields ((F.STK_STAT_STATE, 2) :: (F.UPL_GAPQ_Q, 4095) :: (F.CRD_GAPQ_Q, 4094) :: l) with hub.gaps := [gapRec] }
    let on (q : Nat) : List (RegField × Nat) := [(F.QMG_Qq_CFG_EN q, 1), (F.QMG_Qq_LIMIT_LIMIT q, 100)]
    ((d []).hub.gapArchived = false ∧ (d []).hub.gapUplinked = false ∧ (d []).f F.UPL_GAPQ_EN = 0 ∧ (d []).f F.CRD_GAPQ_EN = 0)
      ∧ ((d ((F.UPL_GAPQ_EN, 1) :: on 4095)).refuses 4095 0 12 = false ∧ (d ((F.UPL_GAPQ_EN, 1) :: on 4095)).f F.UPL_GAPQ_EN = 1)
      ∧ ((d ((F.UPL_GAPQ_EN, 1) :: (F.CRD_GAPQ_EN, 1) :: on 4095)).refuses 4094 0 12 = true
          ∧ (d ((F.UPL_GAPQ_EN, 1) :: (F.CRD_GAPQ_EN, 1) :: on 4095)).refuses 4095 0 12 = false) := by decide +kernel

theorem wit_StokerRestartsAlone :
    let t : State := { withFields [(slotF 2, 3)] with umb.trialUp := true }
    (State.reset.f F.KLN_LOAD_STAT_OWNER ≠ 3 ∧ State.reset.umb.trialUp = false)
      ∧ (State.reset.f F.STK_STAT_STATE < 2 ∧ State.reset.umb.thermal = false ∧ State.reset.umb.held = false ∧ State.reset.umb.copying = false ∧ State.reset.upl.runs = [])
      ∧ ({ State.reset with umb.copying := true }).umb.copying = true
      ∧ (t.umb.trialUp = true ∧ t.slotIn 2 3 = some 2 ∧ t.f F.KLN_LOAD_STAT_OWNER ≠ 3) := by decide +kernel

/-! ### Witnesses: converters -/

/-- Duty A of cluster 0 scans channel 0 at 1,000 frames a second in a running tick. -/
def scanning : State := withFields [(F.KLN_TICK_STATE_STATE, 1), (F.AFE_CH_CFG_MODE 0, 1)]

theorem wit_ConversionsAndEstimator_conversion :
    let w : Word := 0x100003E8#32
    let s := scanning.wr (scanReg 0) w
    let hi := boundaryClock s.rate (s.tick.num + 1)
    let off := (frameStart (scanRate w) 0 + 80 * scanRank (scanMask w) 0) * 81920
    s.genState = 1 ∧ scanOn (s.eff (scanReg (dutyOf 0))) 0 = true ∧ 0 < scanRate w ∧ boundaryClock s.rate 0 ≤ off ∧ off < hi
      ∧ (s.duty 0).since ≤ frameStart (scanRate w) 0 * 81920 ∧ s.tileConverts 0 off = true ∧ s.visit 0 = none
      ∧ (s.core (s.holder 0 0)).last = none ∧ (s.nextInst 0 0 w false 0 0 off).isSome = true
      ∧ ((withFields [(F.AFE_CH_CFG_MODE 0, 3), (F.AFE_CH_CFG_TIA 0, 2)]).ef (F.AFE_CH_CFG_MODE 0) = 3 ∧ s.ef (F.AFE_CH_CFG_MODE 0) = 1)
      ∧ (State.reset.core 35).up = false ∧ ((State.reset.setCore 35 { State.reset.core 35 with up := true }).core 35).up = true
      ∧ State.reset.genState ≠ 1 := by decide +kernel

/-- Blocks that are wide enough and in range, too narrow, and out of range. -/
theorem wit_ConversionsAndEstimator_estimator :
    let up : State := { (withFields [(F.CNV_Pp_EST_EN 0 0, 1), (F.CNV_Pp_EST_FROZEN 0 0, 0)]).wr (scanReg 0) 0x100F4240#32 with
      tick.force := [(Reg.CNV_Pp_MIS_OFS 0 0, some 0#32)] }
    let b (q : Nat) (s1 : Int) : BlockSums :=
      { n := 1048576, n0 := 524288, s0 := 0, q0 := q, n1 := 524288, s1 := s1, q1 := q, na := 0, da := 0, nb := 0, db := 0, prev := none }
    let done (x : BlockSums) : State := up.setCore 0 { up.core 0 with full := some x }
    let all (x : BlockSums) : Int := 2 * 524288 * ((x.q0 + x.q1 : Nat) : Int) - (x.s0 + x.s1) * (x.s0 + x.s1)
    (up.core 0).full = none ∧ ((done (b 0 0)).core 0).full = some (b 0 0) ∧ (done (b 0 0)).estRuns 0 = true
      ∧ (State.reset.setCore 0 { up.core 0 with full := some (b 0 0) }).estRuns 0 = false ∧ all (b 0 0) < 18446744073709551616 ∧ all (b 8796093022208 0) = 18446744073709551616
      ∧ ((up.efs (F.CNV_Pp_MIS_OFS_OFS 0 0) + rdiv (16 * ((b 8796093022208 0).s1 - 0) - 0 * 524288) (16 * 524288)).natAbs ≤ 1024)
      ∧ 18446744073709551616 ≤ all (b 17592186044416 (1025 * 524288)) ∧ 1024 < (0 + rdiv (16 * (1025 * 524288 - 0) - 0) (16 * 524288)).natAbs := by decide +kernel
/-! ### Witnesses: visits, calibration and Charcoal -/

/-- A visit of cluster 11 with the overlap tick and verdict given. -/
def visiting (duty : Option Nat) (tm : Option Nat) (verdict : Option Bool) : State :=
  State.reset.setVisit 11 (some { duty := duty, force := false, core := 0, spare := 2, ts := 2, tm := tm, verdict := verdict, forced := false, stopping := none, doubt := none, chans := [], pairs := [] })

theorem wit_VisitsTakeTheirCourse_requests :
    let q : State := { State.reset with front.reqs := [{ cls := 3, cluster := 11, duty := some 1, force := false }] }
    let none' : State := { State.reset with front.reqs := [] }
    let auto := { withFields [(F.CNV_ROT_CTRL_AUTO, 1)] with front.reqs := [] }
    ((∃ r ∈ State.reset.front.reqs, r.cluster = 11 ∧ r.duty = none) ∧ ¬∃ r ∈ State.reset.front.reqs, r.cluster = 11 ∧ r.duty = some 1)
      ∧ (∃ r ∈ q.front.reqs, r.cluster = 11 ∧ r.duty = some 1) ∧ (¬∃ r ∈ none'.front.reqs, r.cluster = 11 ∧ r.duty = none)
      ∧ (withFields [(F.CNV_ROT_CTRL_AUTO, 0)]).f F.CNV_ROT_CTRL_AUTO = 0 ∧ (auto.f F.CNV_ROT_CTRL_AUTO = 1 ∧ auto.front.reqs = [])
      ∧ (let d := withFields [(F.CNV_ROT_CTRL_AUTO, 1)]; d.f F.CNV_ROT_CTRL_AUTO = 1 ∧ ∃ r ∈ d.front.reqs, r.cluster = 11)
      ∧ (State.reset.spareOf 11 < 3 ∧ (State.reset.core (3 * 11 + State.reset.spareOf 11)).ran = false ∧ State.reset.visit 11 = none
          ∧ State.reset.f (F.CNV_Pp_STATE_STATE 11 (State.reset.spareOf 11)) ≠ 5) := by decide +kernel

/-- No failed attempt, two of them, three of them; a core refused before, and one that is FAULTY. -/
theorem wit_VisitsTakeTheirCourse_retries :
    let fails (n : Nat) : State := State.reset.setDuty (2 * 11 + 1) { duty0 with fails := n }
    let core (r st : Nat) : State := { withFields [(F.CNV_Pp_STATE_REFUSALS 11 (State.reset.spareOf 11), r), (F.CNV_Pp_STATE_STATE 11 (State.reset.spareOf 11), st)] with front.reqs := [] }
    (State.reset.duty (2 * 11 + 1)).fails = 0 ∧ (1 ≤ ((fails 2).duty (2 * 11 + 1)).fails ∧ ((fails 2).duty (2 * 11 + 1)).fails < 3) ∧ 3 ≤ ((fails 3).duty (2 * 11 + 1)).fails
      ∧ State.reset.f (F.CNV_Pp_STATE_REFUSALS 11 (State.reset.spareOf 11)) = 0
      ∧ ((core 1 2).f (F.CNV_Pp_STATE_REFUSALS 11 ((core 1 2).spareOf 11)) ≠ 0 ∧ (core 1 2).f (F.CNV_Pp_STATE_STATE 11 ((core 1 2).spareOf 11)) ≠ 5
          ∧ (core 1 2).front.reqs = [])
      ∧ (core 3 5).f (F.CNV_Pp_STATE_STATE 11 ((core 3 5).spareOf 11)) = 5 := by decide +kernel

theorem wit_VisitsTakeTheirCourse_visits :
    ((visiting (some 1) none none).visit 11).isSome = true ∧ ((visiting (some 1) (some 4) none).visit 11).isSome = true ∧ ((visiting none none none).visit 11).isSome = true
      ∧ ((visiting (some 1) (some 4) (some true)).visit 11).isSome = true
      ∧ ((visiting (some 1) (some 4) none).visit 11).map (·.chans) = some [] ∧ State.reset.visit 11 = none := by decide +kernel

/-- A tile with Stoker up and its reference good: the spare's run may begin. -/
theorem wit_VisitsTakeTheirCourse_begin :
    let s := withFields [(F.STK_STAT_STATE, 2), (F.CAL_REF_STAT_REF_OK 3, 1)]
    (2 ≤ s.f F.STK_STAT_STATE ∧ s.nextReq 3 = some { cls := 1, cluster := 9, duty := none, force := false } ∧ s.spareOf 9 < 3)
      ∧ State.reset.f F.STK_STAT_STATE < 2 := by decide +kernel

/-- A run whose readings are those of an ideal core ends without a failed check, one whose reference fell does not. -/
theorem wit_VisitsTakeTheirCourse_run :
    let r (fell : Bool) : CoreRun := { core := 35, vfs := 2500000, vmid := 0, refFell := fell }
    let s : State := State.reset.setRun 3 (some (r false))
    State.reset.coreRun 3 = none ∧ s.coreRun 3 = some (r false) ∧ (r false).core < 36
      ∧ (∀ m0 m1, s.coreCode (r true) m0 m1 false = 0x21) ∧ s.f (F.CNV_Pp_STATE_REFUSALS 11 2) + 1 < 3 := by
  refine ⟨by decide +kernel, by decide +kernel, by decide +kernel, fun _ _ => rfl, by decide +kernel⟩

/-- A channel of a session, its full average one LSB from its zero. -/
def sessCh : SessCh :=
  { ch := 95, ez := 0, ef := 0, win := 0, nlim := 0, g0 := 268435456, b0 := 0, zero := { n := 1, sum := 0, sq := 0 }, full := { n := 1, sum := 256, sq := 65536 },
    bad := false, config := false, gap := false, ovl := false, cmf := false, reason := none, g1 := 0, b1 := 0, temp := 0 }

/-- A session in phase `ph` with that channel. -/
def session (ph : Nat) (begun : Bool) : State :=
  { withFields [(F.CAL_SYS_STAT_PHASE, ph)] with
    front.session := some { span := false, settle := 0, avg := 1, cert := [], chans := [sessCh], start := 0, begun := begun, sysOn := true, zeroFrom := none, fullFrom := none, delayed := false, ending := none } }

theorem wit_CalibrationCommandsAct_session :
    State.reset.f F.CAL_SYS_STAT_PHASE = 0 ∧ State.reset.steward = false
      ∧ (let d := withFields [(F.CAL_CH_CTRL_ARM 4191, 1), (F.CAL_CH_CTRL_ARM 95, 1)]; 4191 ∈ d.armedList ∧ 96 ≤ 4191 ∧ 95 ∈ d.armedList)
      ∧ (∀ ph : Fin 5, (session (ph + 1) true).f F.CAL_SYS_STAT_PHASE = ph + 1)
      ∧ (∀ y ∈ ((session 3 true).front.session.map (·.chans)).getD [], y.full.mean ≠ y.zero.mean)
      ∧ State.reset.front.session = none
      ∧ (let late : State := { session 3 true with tick.num := 2 }; 0 + 0 + 1 < late.tick.num ∧ late.f F.CAL_SYS_STAT_PHASE = 3)
      ∧ (let at' : State := { session 1 true with tick.num := 1 }; 0 + 0 + 1 = at'.tick.num ∧ at'.tick.stagingClosed = false) := by decide +kernel

/-- A pair at the ends of its range, one just outside it, a channel of the session, and a slot with nothing attached. -/
theorem wit_CalibrationCommandsAct_load :
    let g (v : Nat) : Nat := (withFields [(F.CAL_CH_LGAIN_G 95, v)]).f (F.CAL_CH_LGAIN_G 95)
    g 134217728 = 134217728 ∧ g 536870912 = 536870912 ∧ g 134217727 = 134217727
      ∧ (withFields [(F.CAL_CH_LOFS_B 95, 0x80000000)]).fs (F.CAL_CH_LOFS_B 95) = -2147483648 ∧ (withFields [(F.CAL_CH_LOFS_B 95, 0x80000001)]).fs (F.CAL_CH_LOFS_B 95) = -2147483647
      ∧ State.reset.remoteCh 4191 = none ∧ (State.reset.genState ≠ 1 ∧ State.reset.genState ≠ 2) ∧ running.genState = 1 := by decide +kernel

/-- 24 readings of a reference that is right, and of one that is not. -/
theorem wit_CalibrationCommandsAct_reference :
    let l : List SenseMeas := List.replicate 24 { zero := 0, mid := 1000000, plus := 2000000, minus := -2000000 }
    let s := withFields [(F.CAL_REF_VFS_VFS 3, 2000), (F.CAL_REF_VMID_VMID 3, 1000)]
    let vfs : Int := (s.f (F.CAL_REF_VFS_VFS 3) * 1000 : Nat)
    (24 ≤ l.length ∧ refAgrees vfs (s.f (F.CAL_REF_VMID_VMID 3) * 1000 : Nat) (l.take 24) = true)
      ∧ (∀ x ∈ l.take 24, (senseFit vfs x).1.natAbs ≤ 20000000 ∧ (senseFit vfs x).2.natAbs ≤ 167772) ∧ tabGet (fun _ => none) s.front.senseCal 95 = none
      ∧ ¬24 ≤ (l.take 23).length ∧ s.f (F.CAL_REF_STAT_REF_OK 3) = 0 ∧ (s.wf (F.CAL_REF_STAT_REF_OK 3) 1).f (F.CAL_REF_STAT_REF_OK 3) = 1 := by decide +kernel

/-- Coefficient banks in every state, a swap that is refused and one that is made. -/
theorem wit_CharcoalCommandsAct :
    (∀ v : Fin 6, (withFields [(chrStateF 1, v)]).f (chrStateF 1) = v) ∧ (running.genState = 1 ∧ State.reset.genState ≠ 1 ∧ State.reset.genState ≠ 2)
      ∧ (State.reset.chrSwapCode 1).1 = 1 ∧ ((withFields [(chrStateF 1, 3)]).chrSwapCode 1).1 = 0 := by decide +kernel

/-- A detector with a window of 4 ticks, whole and begun too late. -/
theorem wit_CharcoalCommandsAct_detector :
    let y (since : Nat) : DetWin := { start := since, n := 4, sum := 4, sq := 4, max := 1, min := 1, or := 0, excl := 0, env := 0 }
    let x (since : Nat) : Det := { wins := [y since], since := since, env := 0, gaps := [(since + 3, since + 5)] }
    let s (since : Nat) : State :=
      { withFields [(F.CHR_DET_CFG_EN 511, 1), (F.CHR_DET_WIN_WIN 511, 4)] with front.dets := [(511, some (x since))], tick.num := 8, tick.stagingClosed := true }
    (State.reset.ef (F.CHR_DET_CFG_EN 511) = 0 ∧ tabGet (fun _ => none) State.reset.front.dets 511 = none)
      ∧ (tabGet (fun _ => none) (s 4).front.dets 511 = some (x 4) ∧ (s 4).ef (F.CHR_DET_CFG_EN 511) = 1 ∧ (s 4).detWin 511 = 4
          ∧ (x 4).since + 4 ≤ (s 4).tick.num ∧ (s 4).tick.stagingClosed = true)
      ∧ (s 5).tick.num < (x 5).since + 4 := by decide +kernel
/-! ### Witnesses: lanes and partners -/

/-- Lane 15 in a state, with other fields. -/
def laneAt (st : Nat) (l : List (RegField × Nat)) : State := withFields ((F.FLK_STAT_STATE 15, st) :: l)

theorem wit_LanesBringUp_states :
    (∀ st : Fin 10, (laneAt st []).f (F.FLK_STAT_STATE 15) = st.val)
      ∧ (let d := laneAt 1 [(F.CLK_STAT_REF_OK, 1)]; d.f (F.FLK_STAT_HOLDOFF 15) = 0 ∧ d.f F.CLK_STAT_REF_OK = 1 ∧ (d.lane 15).seen + 1 < 3)
      ∧ 3 ≤ (((laneAt 1 []).setLane 15 { lane0 with seen := 2 }).lane 15).seen + 1
      ∧ (laneAt 1 [(F.FLK_STAT_HOLDOFF 15, 1)]).f (F.FLK_STAT_HOLDOFF 15) = 1
      ∧ (laneAt 6 [(F.FLK_STAT_RELOCK 15, 1)]).f (F.FLK_STAT_RELOCK 15) = 1 ∧ (laneAt 6 []).f (F.FLK_STAT_RELOCK 15) = 0
      ∧ (laneAt 5 [(F.FLK_STAT_BLOCK_LOCK 15, 1)]).f (F.FLK_STAT_BLOCK_LOCK 15) = 1 ∧ (laneAt 5 []).f (F.FLK_STAT_BLOCK_LOCK 15) = 0
      ∧ (laneAt 1 [(F.FLK_STAT_FAR_SEEN 15, 1)]).f (F.FLK_STAT_FAR_SEEN 15) = 1 ∧ (laneAt 1 []).f (F.FLK_STAT_FAR_SEEN 15) = 0 := by decide +kernel

theorem wit_LanesBringUp_lane :
    let d (x : LaneSt) : LaneSt := ((laneAt 5 []).setLane 15 x).lane 15
    tapsOk { pre := 0, main := 64, post := 0 } = true ∧ tapsOk { pre := 16, main := 40, post := 8 } = true ∧ tapsOk { pre := 16, main := 32, post := 1 } = false
      ∧ tapsOk (tapsOf (State.reset.rd (Reg.FLK_TX_INIT 15))) = true
      ∧ (d lane0).frameLock = false ∧ (d { lane0 with frameLock := true }).frameLock = true ∧ (d lane0).trained = false ∧ (d { lane0 with trained := true }).trained = true
      ∧ (d { lane0 with valid := 62 }).valid < 63 ∧ 63 ≤ (d { lane0 with valid := 63 }).valid
      ∧ ((true :: (d { lane0 with window := List.replicate 15 true }).window).take 64).length = 16
      ∧ ((true :: (d { lane0 with window := List.replicate 14 true }).window).take 64).length < 16
      ∧ ((d { lane0 with capsAck := true, capsSent := 8 }).capsAck = true ∧ 8 ≤ (d { lane0 with capsAck := true, capsSent := 8 }).capsSent)
      ∧ ((d { lane0 with capsGot := true, capsAck := true, capsSent := 7 }).capsGot = true ∧ 7 ≤ (d { lane0 with capsGot := true, capsAck := true, capsSent := 7 }).capsSent)
      ∧ (d { lane0 with waking := true }).waking = true ∧ (d lane0).waking = false := by decide +kernel

theorem wit_LanesRestAndWake :
    let on := laneAt 6 [(F.FLK_CTRL_EN 15, 1), (F.FLK_CTRL_REF_EN 15, 1)]
    let busy : State := { on.wf (F.PTN_SLs_STAT_STATE 4191) 2 with
      ptn.slots := [(4191, some slot0)], ptn.partners := [(0, some ⟨7, 0, true, 0, [{ lane := 15, pos := 0, last := 0, live := true }], 0, [], []⟩)] }
    (on.f (F.FLK_CTRL_EN 15) = 1 ∧ on.f (F.FLK_CTRL_REF_EN 15) = 1 ∧ on.f (F.FLK_CTRL_RETRAIN 15) = 0 ∧ on.f (F.FLK_STAT_STATE 15) = 6 ∧ (on.lane 15).lpEntry = none
        ∧ on.laneBusy 15 = false) ∧ busy.laneBusy 15 = true
      ∧ ((on.setLane 15 { lane0 with lpEntry := some 2 }).lane 15).lpEntry = some (2 : Fin 4).val ∧ on.f (F.FLK_STAT_RELOCK 15) = 0
      ∧ ((laneAt 0 [(F.FLK_CTRL_EN 15, 0), (F.FLK_CTRL_REF_EN 15, 1)]).f (F.FLK_CTRL_EN 15) = 0)
      ∧ ((on.setLane 15 { lane0 with lpEntry := some 1, lpWake := true }).lane 15).lpWake = true := by decide +kernel

/-- A hub whose lane 15 is up, with partner 511 behind it and a slot of it in a state. -/
def nodePartner : Partner :=
  { serial := 7, model := 0, present := true, absent := 0, routes := [{ lane := 15, pos := 3, last := 0, live := true }], epoch := 0, chans := [], refused := [] }
def field (slotState : Nat) (l : List (RegField × Nat)) : State :=
  { (laneAt 6 ((F.PTN_CTRL_EN, 1) :: (F.PTN_CTRL_AUTO_JOIN, 0) :: (F.PTN_SLs_STAT_STATE 4191, slotState) :: (F.PTN_SLs_STAT_PARTNER 4191, 511) :: l)).wr (Reg.PTN_SLs_ID 4191) 7#32 with
    ptn.partners := [(511, some nodePartner)], ptn.slots := [(4191, some slot0)] }
def fromNode : FrameIn := { lane := 15, pos := 3, ok := true }
/-- A change of that slot. -/
def change (op : Nat) : Change :=
  { op := op, partner := 511, slot := 4191, ch := 0, arg0 := 1000, arg1 := 0#32, rateReg := none, ncfgReg := none, tick := 40, mseq := 1, cseq := 9, repeats := 3 }

theorem wit_NodeFramesAct :
    let sent (op : Nat) : State := { field (if op = 1 then 1 else 2) [] with ptn.sentCmds := [change op] }
    (State.reset.f F.PTN_CTRL_EN = 0 ∨ State.reset.laneLive 15 = false)
      ∧ ((field 2 []).f F.PTN_CTRL_EN = 1 ∧ (field 2 []).laneLive 15 = true)
      ∧ (let d := (field 2 []).setLane 15 { lane0 with hopDone := true }; d.f F.PTN_CTRL_EN = 1 ∧ d.laneState 15 = 6 ∧ (d.lane 15).hopDone = true)
      ∧ ((field 2 []).f F.PTN_CTRL_AUTO_JOIN = 0 ∧ ((field 2 []).partnerNumber 8).1 = some 0 ∧ (field 2 []).partner 0 = none)
      ∧ ((field 2 []).partnerNumber 8 = (some 0, field 2 []))
      ∧ ((field 2 []).partnerNumber 7 = (some 511, field 2 []) ∧ newRoutes nodePartner.routes 15 4 0 true = none)
      ∧ ((field 2 []).partnerAt 15 3 = some 511 ∧ (field 2 []).partner 511 = some nodePartner)
      ∧ ((field 2 []).slotOf 7 0 = some 4191 ∧ 2 ≤ (field 2 []).slotState 4191 ∧ ((field 2 []).slot 4191).rebase = none)
      ∧ ((field 2 []).tick.num ≤ 0 + 2 ∧ 0 + 2 < ({ field 2 [] with tick.num := 3 }).tick.num)
      ∧ (let live := field 2 [(F.KLN_TICK_STATE_STATE, 1)]; live.genState = 1 ∧ (field 2 []).genState ≠ 1 ∧ (field 2 []).genState ≠ 2 ∧ live.laneLive 15 = true)
      ∧ ((sent 1).ptn.sentCmds.find? fun y => y.cseq == 9 && y.partner == 511) = some (change 1)
      ∧ ((sent 1).slotState 4191 = 1 ∧ (sent 1).tick.num < (change 1).tick ∧ (sent 3).ptn.sentCmds = [change 3]) := by decide +kernel

theorem wit_PartnerChangesAct :
    let two : Partner := { nodePartner with routes := nodePartner.routes ++ [{ lane := 0, pos := 0, last := 0, live := true }] }
    let s (st : Nat) (pair : Nat) (w : List Change) : State := { field st [(F.PTN_STEW_STEWARD, 1), (F.PTN_CTRL_PAIR, pair), (F.PTN_STEW_SLATE_UP, 1)] with ptn.waiting := w }
    let m (w : List MirrorRec) : State := { s 0 1 [change 1] with hub.mirrorOut := w }
    (State.reset.partner 511 = none ∧ (field 2 []).partner 511 = some nodePartner ∧ (nodePartner.routes.any fun r => r.lane == 15 && r.live) = true
        ∧ nodePartner.present = true ∧ ((field 0 []).slotsOfPartner 8 = []) ∧ ({ field 0 [] with ptn.slots := [] }).slotsOfPartner 7 = [])
      ∧ ((two.routes.map fun (r : Route) => if r.lane = 15 then { r with live := false } else r).any (·.live)) = true
      ∧ (∀ x ∈ State.reset.ptn.sentCmds, x.cseq ≠ 9) ∧ ({ change 1 with repeats := 2 }).repeats < 3 ∧ 3 ≤ (change 3).repeats
      ∧ (State.reset.ptn.waiting.find? fun x => x.op == 1 && x.slot == 4191) = none
      ∧ (((s 0 0 [change 1]).ptn.waiting.find? fun x => x.op == 1 && x.slot == 4191) = some (change 1) ∧ (s 0 0 [change 1]).steward = true
          ∧ (s 0 0 [change 1]).mirrored (change 1) = true ∧ (s 0 0 [change 1]).slotState 4191 ≠ 3)
      ∧ ((m [⟨1, 4, []⟩]).mirrored (change 1) = false ∧ (m [⟨1, 4, []⟩]).f F.PTN_STEW_SLATE_UP = 1)
      ∧ ((s 2 0 []).steward = true ∧ (s 2 0 []).slotState 4191 = 2 ∧ (s 2 0 []).f F.PTN_CTRL_PAIR = 0 ∧ (s 2 0 []).partner ((s 2 0 []).f (F.PTN_SLs_STAT_PARTNER 4191)) ≠ none)
      ∧ ((s 2 1 []).f F.PTN_CTRL_PAIR = 1 ∧ (field 2 []).steward = false ∧ 2 ≤ (field 2 []).slotState 4191 ∧ (s 1 0 []).slotState 4191 < 2)
      ∧ ((m [⟨1, 4, []⟩]).ptn.waiting.find? fun x => x.mseq == 1 && !(m [⟨1, 4, []⟩]).mirrored x) = some (change 1) := by decide +kernel

/-- The same hub with a demand record of slot 96 in the active bank: a remote channel of 1,000 words a second on lane 15. -/
def enveloped (l : List (RegField × Nat)) : State :=
  (field 2 ([(F.KLN_BANK_STAT_ACTIVE_VALID, 1), (F.PTN_STEW_STEWARD, 1), (F.PTN_SLs_STAT_STATE 96, 2), (F.PTN_SLs_STAT_PARTNER 96, 511)] ++ l)).setBank 0
    { bank0 with loaded := true, demands := [{ source := 96, kind := 1, flags := 0, inRate := 1000, outRate := 0, taps := 0, detect := 0, lane := 15 }] }

/-- A rate of an attached slot at its record's bound, and one above it; a route on a lane that sleeps. -/
theorem wit_PartnerChangesAct_rates :
    let s := enveloped [(F.PTN_CTRL_PAIR, 0)]
    (s.slotState 96 = 2 ∧ s.steward = true ∧ s.f F.PTN_CTRL_PAIR = 0 ∧ s.partner (s.f (F.PTN_SLs_STAT_PARTNER 96)) = some nodePartner)
      ∧ s.slotFits 96 1000 15 = true ∧ s.slotFits 96 1001 15 = false ∧ s.slotFits 96 1000 14 = false
      ∧ ((laneAt 7 []).laneState 15 = 7 ∧ (laneAt 8 []).laneState 15 = 8 ∧ (laneAt 1 []).laneState 15 = 1) := by decide +kernel

/-- A channel that fits the first slot, reserved for it; a setting other than the one asked for; an attached channel. -/
theorem wit_StewardshipAndMirrorAct_records :
    let s := (enveloped [(F.PTN_STEW_STEWARD, 0), (F.PTN_CTRL_PAIR, 1), (F.PTN_SLs_STAT_STATE 96, 0), (F.PTN_SLs_RESCH_EN 96, 1), (F.PTN_SLs_RESCH_NODE_CH 96, 5)]).wr
      (Reg.PTN_SLs_RES 96) 7#32
    let j : State := (enveloped []).setSlot 4191 (some { slot0 with joined := true, rate := 1000 })
    (s.steward = false ∧ s.f F.PTN_CTRL_PAIR = 1 ∧ s.slotOf 7 5 = none ∧ s.chooseSlot 7 5 = some 96 ∧ s.slotState 96 = 0
        ∧ s.slotFits 96 1000 nodePartner.home.1 = true ∧ s.tick.num < 1)
      ∧ (j.slotState 4191 = 2 ∧ (j.slot 4191).joined = true ∧ j.slotAsked 4191 ≠ (999, 0#32)) ∧ (s.slotOf 7 0 = some 4191)
      ∧ (State.reset.netTrigs 0 = [] ∧ (withFields [(F.KND_TRu_CFG_NET 63, 1), (F.KND_TRu_CFG_NETID 63, 65535)]).netTrigs 65535 = [63]) := by decide +kernel

/-- A heartbeat of a steward of a higher epoch at the hub's own rate; TAKE without a heartbeat; enough silence, noted before. -/
theorem wit_StewardshipAndMirrorAct_boundary :
    let p (st : Nat) : State := field 2 [(F.PTN_CTRL_PAIR, 1), (F.PTN_STEW_STEWARD, st)]
    let b : Beat := { steward := true, role := false, synced := true, take := false, rate := 32000, tick := 9, epoch := 5, ack := 0, serial := 1 }
    let q : State := { field 2 [(F.PTN_CTRL_PAIR, 1), (F.PTN_STEW_SILENT, 128)] with ptn.silentNoted := true }
    ((p 1).f F.PTN_CTRL_PAIR = 1 ∧ (p 1).ptn.take = false ∧ (p 1).steward = true ∧ b.rate = (p 1).rate ∧ b.steward = true ∧ (p 1).f F.PTN_EPOCH_EPOCH < b.epoch)
      ∧ ((p 0).f F.PTN_CTRL_EN = 1 ∧ (p 0).steward = false ∧ (p 0).ptn.beats = [] ∧ (p 0).ptn.stop = false)
      ∧ (q.silenceNeeded ≤ q.f F.PTN_STEW_SILENT ∧ q.ptn.silentNoted = true) := by decide +kernel

theorem wit_StewardshipAndMirrorAct :
    let p (l : List (RegField × Nat)) : State := field 2 ((F.PTN_CTRL_PAIR, 1) :: l)
    let d := p [(F.PTN_STEW_SILENT, 128)]
    (d.f F.PTN_CTRL_EN = 1 ∧ d.f F.PTN_CTRL_PAIR = 1 ∧ d.steward = false ∧ d.silenceNeeded ≤ d.f F.PTN_STEW_SILENT ∧ d.f F.PTN_CTRL_AUTO_JOIN = 0)
      ∧ ((p []).f F.PTN_STEW_SILENT < (p []).silenceNeeded) ∧ State.reset.f F.PTN_CTRL_PAIR = 0
      ∧ ((p []).steward = false ∧ 1 = ((p []).ptn.applied + 1) % 2 ^ 32 ∧ 0 = (({ p [] with ptn.applied := 2 ^ 32 - 1 }).ptn.applied + 1) % 2 ^ 32)
      ∧ ({ p [] with ptn.syncing := some [(7, 0)] }).ptn.syncing = some [(7, 0)]
      ∧ (∀ c ∈ (p []).usedSlots, (p []).slotState c ≠ 0 → (((p []).rd (Reg.PTN_SLs_ID c)).toNat, (p []).f (F.PTN_SLs_STAT_NODE_CH c)) ∈ [(7, 0)])
      ∧ ((p []).partnerOf 7 = some 511 ∧ (p []).partner 511 = some nodePartner ∧ (p []).slotOf 7 0 = some 4191)
      ∧ (p [(F.PTN_STEW_STEWARD, 1)]).steward = true := by decide +kernel
/-! ### Witnesses: network time -/

/-- A port that runs PTP, the profile and the servo's state given, with a best master. -/
def ann0 : Announce := { prio1 := 128, cls := 6, acc := 0, var := 0, prio2 := 128, gm := 9, steps := 0, src := 5 }
def ptpAt (servo profile : Nat) (x : PortSt) : State :=
  { (withFields [(F.STK_STAT_STATE, 2), (F.PTP_CTRL_EN, 1), (F.PTP_Un_CFG_EN 1, 1), (F.PTP_CTRL_PROFILE, profile), (F.PTP_SERVO_STAT_STATE, servo), (F.PTP_SERVO_CFG_QUAL, 1)]).setPort 1 x with
    ptp.sel := some (1, ann0) }
def best1 : PortSt := { port0 with best := some ann0, foreign := [{ ann := ann0, count := 2 }] }
/-- The header that port 1 takes with its settings after reset. -/
def hdr1 : PtpHdr :=
  { transport := State.reset.f (F.PTP_Un_CFG_TRANSPORT 1), domain := State.reset.f F.PTP_CTRL_DOMAIN, sdoMaj := State.reset.f F.PTP_CTRL_SDO_MAJ,
    sdoMin := State.reset.f F.PTP_CTRL_SDO_MIN, vid := none, major := 2, minor := 1, known := true }

theorem wit_PtpMessagesAct_match :
    State.reset.portOn 1 = false ∧ (2 ≤ (ptpAt 1 0 best1).f F.STK_STAT_STATE ∧ ¬2 ≤ State.reset.f F.STK_STAT_STATE)
      ∧ ((ptpAt 1 0 best1).portOn 1 = true ∧ (ptpAt 1 0 best1).ptpMatch 1 hdr1 = true)
      ∧ (ptpAt 1 0 best1).ptpMatch 1 { hdr1 with minor := 2 } = false ∧ (ptpAt 1 0 best1).fromBest 1 5 = true ∧ (ptpAt 1 0 best1).fromBest 1 6 = false := by
  decide +kernel

/-- A measurement that steps the clock, one that joins a port's list without a selected master, and one that leaves LOCKED. -/
theorem wit_PtpMessagesAct_sync :
    let d (servo : Nat) : State := ptpAt servo 0 { best1 with mpd := some 0 }
    let n : State := { d 0 with ptp.sel := none }
    ((d 1).port 1).mpd = some 0 ∧ n.ptp.sel = none ∧ ((d 1).ptp.sel = some (1, ann0) ∧ (d 1).f F.PTP_SERVO_STAT_STATE = 1 ∧ (d 1).f F.PTP_SERVO_STAT_STEPPED = 0
        ∧ (d 1).qual ≤ (((5 : Int) :: ((d 1).port 1).offs).take 255).length)
      ∧ ((d 2).f F.PTP_SERVO_STAT_STATE = 2 ∧ (d 2).lockThr < ((d 2).lockThr + 1 : Int).natAbs ∧ (d 2).qual ≤ (d 2).ptp.beyond + 1) := by decide +kernel

/-- A servo in ACQUIRE before its first step, and one that has stepped. -/
theorem wit_PtpMessagesAct_steady :
    ((ptpAt 1 0 best1).f F.PTP_SERVO_STAT_STATE = 1 ∧ ((ptpAt 1 0 best1).wf F.PTP_SERVO_STAT_STEPPED 1).f F.PTP_SERVO_STAT_STEPPED = 1)
      ∧ (ptpAt 2 0 best1).f F.PTP_SERVO_STAT_STATE ≠ 1 := by decide +kernel

theorem wit_PtpMessagesAct_answers :
    let w : SyncWait := { src := 5, seq := 65535, t2 := 0, corr := 0 }
    let x : PortSt := { best1 with syncs := [w], reqs := [(65535, 0)], ms := some 0 }
    (x.syncs.find? fun w => w.seq == 65535 && w.src == 5) = some w ∧ (∀ w ∈ x.syncs, ¬(w.seq = 0 ∧ w.src = 5)) ∧ (∃ w ∈ x.syncs, w.seq = 65535)
      ∧ ((x.reqs.find? fun r => r.1 == 65535) = some (65535, 0) ∧ x.ms = some 0 ∧ (ptpAt 2 0 x).fromBest 1 5 = true ∧ (ptpAt 2 0 x).f F.PTP_CTRL_PROFILE = 0)
      ∧ (ptpAt 2 1 x).f F.PTP_CTRL_PROFILE = 1 := by decide +kernel

theorem wit_PtpMessagesAct_announce :
    let fresh : State := { ptpAt 0 0 { port0 with foreign := [{ ann := ann0, count := 1 }] } with ptp.sel := none }
    (bestOf [{ ann := ann0, count := 2 }] ≠ none ∧ (fresh.port 0).best = none ∧ fresh.ptp.sel = none ∧ fresh.f F.PTP_SERVO_STAT_STATE = 0)
      ∧ State.reset.port 1 = port0 ∧ port0.best = none
      ∧ (best1.best = some ann0 ∧ (ptpAt 2 0 best1).ptp.sel = some (1, ann0) ∧ ((ptpAt 2 0 best1).port 0).best = none
          ∧ bestOf (best1.foreign.filter fun m => m.ann.src != ann0.src) = none ∧ (ptpAt 2 0 best1).f F.PTP_SERVO_STAT_STATE = 2) := by decide +kernel

/-- Two ports whose masters are one grandmaster's, with offsets just within and just beyond four times the threshold. -/
theorem wit_PtpMessagesAct_compare :
    let d (w : Int) : State := (ptpAt 2 0 { best1 with offs := [w] }).setPort 0 { best1 with offs := [0] }
    let thr : Int := 4 * ((d 0).lockThr : Nat)
    ((d thr).port 0).best = some ann0 ∧ ((d thr).port 1).best = some ann0 ∧ ((d thr).port 0).offs = [0] ∧ ((d thr).port 1).offs = [thr]
      ∧ ¬4 * (d 0).lockThr < (0 - thr).natAbs ∧ 4 * (d 0).lockThr < (0 - (thr + 1)).natAbs
      ∧ (ptpAt 3 0 best1).f F.PTP_SERVO_STAT_STATE = 3 := by decide +kernel

/-- A generator that runs its armed tick, authorised or not, and one that is held. -/
theorem wit_RestepsAndProbesAct :
    let a (v : Nat) : State := withFields [(F.KLN_TICK_STATE_STATE, 1), (F.PTP_RESTEP_STAT_RESULT, 1), (F.PTP_RESTEP_AUTH_VALID, v), (F.PTP_SERVO_STAT_STATE, 2)]
    ((a 1).f F.PTP_RESTEP_STAT_RESULT = 1 ∧ (a 1).genState = 1 ∧ (a 1).tick.num = (a 1).restepTick)
      ∧ ((a 0).tailGuard.pinsLast.restepCheck (a 0).tailGuard.pinsLast.restepStep = 3) ∧ ((a 1).tailGuard.pinsLast.restepCheck (a 1).tailGuard.pinsLast.restepStep = 0)
      ∧ State.reset.f F.PTP_RESTEP_STAT_RESULT ≠ 1 ∧ (let d := (a 1).wf F.PTP_RESTEP_TICK_LO_TICK 2; d.tick.num + 2 ≤ d.restepTick)
      ∧ (let d := (a 1).wf F.PTP_RESTEP_TICK_LO_TICK 1; d.restepTick < d.tick.num + 2)
      ∧ (withFields [(F.KLN_TICK_STATE_STATE, 2)]).genState = 2 ∧ State.reset.genState ≠ 2
      ∧ (State.reset.restepExp ≤ State.reset.tick.num ∧ (let d := State.reset.wf F.PTP_RESTEP_EXP_LO_TICK 1; d.tick.num < d.restepExp)) := by decide +kernel

theorem wit_RestepsAndProbesAct_hops :
    let x : HopSt := { out := [(255, 0)], results := [], sent := 64, seq := 0, dropped := 15, published := true }
    let s : State := { laneAt 6 [] with ptp.hops := [(15, x)] }
    s.laneState 15 = 6 ∧ State.reset.laneState 15 ≠ 6 ∧ s.hop 15 = x ∧ (x.out.find? fun p => p.1 == 255) = some (255, 0) ∧ (∀ p ∈ x.out, p.1 ≠ 0)
      ∧ (x.published = true ∧ x.dropped = 15 ∧ 64 ≤ x.sent) := by decide +kernel

/-! ### Witnesses: the edge timer and Kindling -/

/-- The edge timer on, with source 15 taking rising edges, in a running tick. -/
def edges (l : List (RegField × Nat)) : State :=
  withFields ((F.EDG_CTRL_EN, 1) :: (F.EDG_Ss_CFG_EN 15, 1) :: (F.EDG_Ss_CFG_POL 15, 0) :: (F.KLN_TICK_STATE_STATE, 1) :: l)

/-- Edges taken and not; at the least distance and closer; with an interpolator free and with none; with credit and without. -/
theorem wit_EdgesAreTimed_arrival :
    let s := edges []
    let x (c : Nat) (b : Nat) : EdgeSrc := { edgeSrc0 with last := some 0, credit := c, interps := [{ interp0 with busy := b }, { interp0 with busy := b }] }
    (s.edgeOn 15 = true ∧ s.edgeTaken 15 true = true ∧ s.edgeTaken 15 false = false ∧ s.genState = 1 ∧ State.reset.edgeOn 15 = false)
      ∧ (0 + 196608 ≤ ((196608 : Nat) : Int) - 0 * 2560 ∧ ¬(0 : Int) + 196608 ≤ ((196607 : Nat) : Int) - 0 * 2560)
      ∧ (x 0 196608).interps[0]? = some { interp0 with busy := 196608 } ∧ (196608 : Int) ≤ ((196608 : Nat) : Int) - 0 * 2560 ∧ ¬(196609 : Int) ≤ ((196608 : Nat) : Int) - 0 * 2560
      ∧ (let c : EdgeSrc := { edgeSrc0 with comp := some 0 }
         c.comp = some 0 ∧ (0 : Int) + 65536000 * (s.ef (F.AFE_CH_AE_LOCKOUT 95) : Nat) ≤ ((65536000 * 65535 : Nat) : Int) - 0 * 2560)
      ∧ secUnits ≤ (refill (x secUnits 0) (s.edgeInRate 15) s.tick.clock).credit ∧ ¬secUnits ≤ (refill (x (secUnits - 1) 0) (s.edgeInRate 15) s.tick.clock).credit := by
  decide +kernel

def stamp (src : Nat) (at' : Int) (stream : Bool) (units : List (Nat × Bool × Bool)) (groups : List (Nat × List Nat)) : Stamp :=
  { at' := at', src := src, rise := true, flags := 0, stream := stream, queue := 4095, units := units, groups := groups }

/-- A state at clock `c`, in 2^-16 ns. -/
def atClock (s : State) (c : Nat) : State := { s with tick.clock := c }

theorem wit_EdgesAreTimed_release :
    let s := edges [(F.EDG_Ii_CFG_EN 15, 1), (F.EDG_Ii_CFG_START 15, 15), (F.EDG_Ii_CFG_STOP 15, 15), (F.EDG_Ii_CFG_SPOL 15, 0), (F.EDG_Ii_CFG_PPOL 15, 0), (F.EDG_Gg_CFG_EN 31, 1)]
    let e := stamp 15 5 true [] []
    let q (s : State) (e : Stamp) (c : Nat) : State := { atClock s c with edg.fifo := [e] }
    State.reset.edg.fifo = []
      ∧ ((q s e 3276804).edg.fifo = e :: [] ∧ ((q s e 3276804).tick.clock : Int) < e.at' + 3276800 ∧ e.at' + 3276800 ≤ ((q s e 3276805).tick.clock : Int))
      ∧ (e.stream = true ∧ e.queue < 4096 ∧ 4096 ≤ ({ e with queue := 4096 } : Stamp).queue ∧ (State.reset.putPacket 4095 (recordHead 15 1 0 5)).1 = false)
      ∧ ((s.interval 15).start = none ∧ s.ef (F.EDG_Ii_CFG_EN 15) = 1 ∧ (stamp 15 5 false [(15, true, false)] []).units = [(15, true, false)]
          ∧ (s.edgeUnits 15 true).1 = [(15, true, true)])
      ∧ (let d := s.setInterval 15 { interval0 with start := some (stamp 15 0 false [] []) }
         (d.interval 15).start = some (stamp 15 0 false [] []) ∧ (stamp 15 5 false [(15, true, true)] []).units = [(15, true, true)]
         ∧ (5 : Int) ≤ 0 + d.intervalTO 15 ∧ (0 : Int) < 5) := by decide +kernel

/-- 50 ns before and at the time from which no edge at 5 can still be released, with a stamp at 5 or 6 in the FIFO. -/
theorem wit_EdgesAreTimed_past :
    let past (s : State) (t : Int) : Prop := t + 3276800 ≤ (s.tick.clock : Int) ∧ ∀ e ∈ s.edg.fifo, t < e.at'
    let d (c : Nat) (f : Int) : State :=
      { atClock ((edges []).setInterval 15 { interval0 with start := some (stamp 15 (5 - (edges []).intervalTO 15) false [] []) }) c with edg.fifo := [stamp 15 f false [] []] }
    let o : Nat × List (Option Stamp) := (0, [some (stamp 15 5 false [] [])])
    let g (c : Nat) (f : Int) : State := { atClock ((edges []).setGroup 31 { group0 with open' := some o }) c with edg.fifo := [stamp 15 f false [] []] }
    let h (c : Nat) : State := atClock ((edges []).setGroup 31 { group0 with holdoff := some 5, holding := true }) c
    (((d 3276805 6).interval 15).start = some (stamp 15 (5 - (d 0 0).intervalTO 15) false [] []) ∧ past (d 3276805 6) (5 - (d 0 0).intervalTO 15 + (d 3276805 6).intervalTO 15))
      ∧ ¬past (d 3276804 6) (5 - (d 0 0).intervalTO 15 + (d 3276804 6).intervalTO 15) ∧ ¬past (d 3276805 5) (5 - (d 0 0).intervalTO 15 + (d 3276805 5).intervalTO 15)
      ∧ (((g 65539276805 65536000006).group 31).open' = some o ∧ past (g 65539276805 65536000006) (groupT0 o + (g 65539276805 65536000006).groupWin 31)
          ∧ ¬past (g 65539276804 65536000006) (groupT0 o + (g 65539276804 65536000006).groupWin 31)
          ∧ ¬past (g 65539276805 65536000005) (groupT0 o + (g 65539276805 65536000005).groupWin 31))
      ∧ (((h 5).group 31).holdoff = some 5 ∧ (5 : Int) ≤ ((h 5).tick.clock : Int) ∧ ((h 4).tick.clock : Int) < 5) := by decide +kernel

theorem wit_EdgesAreTimed_groups :
    let s := edges [(F.EDG_Gg_CFG_EN 31, 1)]
    let g : State := (s.wr (Reg.EDG_Gg_MEM0 31) 0xFFFF0E0F#32).wr (Reg.EDG_Gg_MEM1 31) 0xFFFFFFFF#32
    let o (l : List (Option Stamp)) : GroupSt := { group0 with open' := some (0, l) }
    ((g.group 31).open' = none ∧ (g.group 31).holdoff = none ∧ g.ef (F.EDG_Gg_CFG_EN 31) = 1 ∧ g.memberOf 31 15 = [0] ∧ 1 ∈ g.members 31
        ∧ (g.edgeUnits 15 true).2 = [(31, [0])] ∧ 1 ∉ [0] ∧ (stamp 15 5 false [] [(31, [0, 7])]).groups = [(31, 0 :: [7])] ∧ ∀ i ∈ [7], 0 < i)
      ∧ ((g.setGroup 31 (o [some (stamp 15 0 false [] []), none])).group 31).open' = some (0, [some (stamp 15 0 false [] []), none])
      ∧ min (max 1 (g.ef (F.EDG_Gg_CFG_MINHIT 31))) (g.members 31).length ≤ ([some (stamp 15 0 false [] []), none].filter (·.isSome)).length
      ∧ (let d := g.wf (F.EDG_Gg_CFG_MINHIT 31) 2
         ([some (stamp 15 0 false [] []), none].filter (·.isSome)).length < min (max 1 (d.ef (F.EDG_Gg_CFG_MINHIT 31))) (d.members 31).length) := by decide +kernel
/-! ### Witnesses: Kindling, queues and Press -/

/-- Trigger 63 in a state, with what it keeps. -/
def trigger (st : Nat) (x : TrigSt) (l : List (RegField × Nat)) : State :=
  (withFields ((F.KND_CTRL_EN, 1) :: (F.KND_TRu_CFG_EN 63, 1) :: (F.KND_TRu_STAT_STATE 63, st) :: (F.KLN_TICK_STATE_STATE, 1) :: l)).setTrig 63 x

/-- The fire time before which a fire is stale lies 400 ms back; a trigger asked 3 ticks ahead is taken, one 2 ahead is not. -/
theorem wit_TriggersAct_local :
    let code (t : Nat) : Nat :=
      let s := trigger 0 trig0 [(F.KND_TRu_ARM_LO_TICK 63, t)]
      (s.schedule (masterCode .stoker) (s.armTick 63) (armAddr 63) 0#32 0xFFFFFFFF#32 false).1
    let s (clock : Nat) : State := { trigger 3 { trig0 with best := some (0, 7, .kiln), settleEnd := 5 } [] with tick.num := clock }
    (State.reset.trigState 63 = 0 ∧ State.reset.f (F.KND_TRu_CFG_EN 63) = 0) ∧ ((trigger 0 trig0 []).trigState 63 = 0 ∧ (trigger 0 trig0 []).f (F.KND_TRu_CFG_EN 63) = 1)
      ∧ code 3 = 0 ∧ code 2 ≠ 0
      ∧ ((trigger 2 trig0 []).f F.KND_CTRL_EN = 1 ∧ (trigger 2 trig0 []).trigState 63 = 2 ∧ ¬0 < boundaryClock (trigger 2 trig0 []).rate trig0.armTick ∧ trig0.prevEnd = none)
      ∧ 0 < boundaryClock (trigger 2 trig0 []).rate 1
      ∧ ((trigger 3 { trig0 with best := some (9, 7, .mask) } []).trigState 63 = 3 ∧ ((trigger 3 { trig0 with best := some (9, 7, .mask) } []).trig 63).best = some (9, 7, .mask))
      ∧ (¬0 + 26214400000000 < boundaryClock (s 12800).rate (s 12800).tick.num ∧ 0 + 26214400000000 < boundaryClock (s 12801).rate (s 12801).tick.num)
      ∧ ((s 4).tick.num < ((s 4).trig 63).settleEnd ∧ ((s 5).trig 63).settleEnd ≤ (s 5).tick.num ∧ ((s 5).trig 63).best ≠ none ∧ (s 5).trigState 63 = 3)
      ∧ (((s 5).trig 63).set = [] ∧ 4096 ≤ ((((s 5).wr (Reg.KND_TRu_Q 63) 4096#32)).rd (Reg.KND_TRu_Q 63)).toNat) := by decide +kernel

/-- Frames of another hub for trigger 63: a good one, one too old, and one of this hub. -/
theorem wit_TriggersAct_frames :
    let f (sender n : Nat) : KndFrame := { tagOk := true, version := 1, netid := 255, sender := sender, sseq := n, armTick := 3 }
    let s (st : Nat) (x : TrigSt) : State := trigger st x [(F.KND_TRu_CFG_NET 63, 1), (F.KND_TRu_CFG_NETID 63, 255)]
    let seen : State := { s 2 trig0 with knd.sseqIn := [(5, some 9)] }
    (f (State.reset.serial + 1) 0).sender ≠ State.reset.serial ∧ (f State.reset.serial 0).sender = State.reset.serial
      ∧ tabGet (fun _ => none) (s 2 trig0).knd.sseqIn 5 = none
      ∧ (tabGet (fun _ => none) seen.knd.sseqIn 5 = some 9 ∧ (10 + 2 ^ 32 - 9) % 2 ^ 32 < 2 ^ 31 ∧ (9 + 2 ^ 32 - 9) % 2 ^ 32 = 0)
      ∧ (s 2 trig0).netTrigs 255 = [63]
      ∧ ((s 0 trig0).schedule 0 3 (armAddr 63) 0#32 0xFFFFFFFF#32 false).1 = 0
      ∧ (f 5 0).armTick ≠ ((s 2 trig0).trig 63).armTick
      ∧ ((f 5 0).armTick = ((s 2 { trig0 with armTick := 3 }).trig 63).armTick ∧ boundaryClock (s 2 trig0).rate 3 ≤ 6144000000)
      ∧ ((s 4 trig0).trigState 63 = 4 ∧ (s 5 trig0).trigState 63 = 5) := by
  refine ⟨Nat.succ_ne_self _, rfl, ?_⟩
  decide +kernel

def capture (k : Nat) (kAt : Option Nat) (done : Bool) : Capture :=
  { id := 1, tf := 0, orig := 0, cause := .kiln, lo := 0, hi := 65536, k := k, kAt := kAt, chans := [⟨⟨95, false, 0⟩, 0, 0, none, 0, none, false, done⟩], closed := [],
    absent := 0, words := 0, fail := none }

theorem wit_TriggersAct_captures :
    let s (y : Capture) (q : Nat) (l : List (RegField × Nat)) : State := (trigger 4 { trig0 with cap := some y } l).wr (Reg.KND_TRu_Q 63) (BitVec.ofNat 32 q)
    let o : State := { s (capture 4 (some 0) false) 4095 [(F.QMG_Qq_STAT_DEEP 4095, 1)] with tick.clock := ms10 }
    (State.reset.trig 63).cap = none ∧ ((s (capture 0 none false) 4096 []).trig 63).cap = some (capture 0 none false)
      ∧ 4096 ≤ ((s (capture 0 none false) 4096 []).rd (Reg.KND_TRu_Q 63)).toNat
      ∧ ((capture 4 (some 0) false).k = 4 ∧ 0 + ms10 ≤ o.tick.clock ∧ o.outruns 63 (capture 4 (some 0) false) = true)
      ∧ ((o.trig 63).stopAfter = false ∧ ((trigger 4 { trig0 with cap := some (capture 4 (some 0) false), stopAfter := true } []).trig 63).stopAfter = true
          ∧ ({ capture 4 (some 0) false with fail := some (95, 0, 0) } : Capture).fail ≠ none)
      ∧ (∀ c ∈ (capture 0 none true).chans, c.done = true) ∧ (s (capture 0 none false) 4096 []).windowIn (capture 0 none false) = false := by decide +kernel

theorem wit_SkewRunsAct :
    let r (n : Nat) (high : Bool) (ts : Option Nat) : SkewRun := { earliest := 3, ts := ts, pulses := n, high := high, chans := [], bad := [], srcs := [], seen := [] }
    let np : Nat := max 1 ((withFields [(F.KND_SK_CFG_NP, 255)]).f F.KND_SK_CFG_NP)
    State.reset.knd.run = none ∧ State.reset.front.session = none ∧ ({ State.reset with knd.run := some (r 0 false none) }).knd.run ≠ none
      ∧ (let d := { session 1 true with mem := (((session 1 true).wf F.KND_SK_SEL_CLUSTERS 0xFFF).wf (F.AFE_CH_CFG_MODE 95) 1).mem }; ∀ y ∈ ((d.front.session.map (·.chans)).getD []), d.skewChan y.ch = true)
      ∧ (withFields [(F.KND_SK_STAT_PHASE, 3)]).f F.KND_SK_STAT_PHASE = 3 ∧ State.reset.f F.KND_SK_STAT_PHASE ≠ 3
      ∧ ((r 0 false none).ts = none ∧ (r 254 false (some 3)).ts ≠ none ∧ (r 254 false (some 3)).pulses < np ∧ np ≤ (r 255 false (some 3)).pulses)
      ∧ (let rise (j : Nat) : Nat := boundaryClock State.reset.rate 3 + j * ms10 + 131072000000
         let c (n : Nat) : State := { State.reset with tick.clock := n }
         (rise 254 ≤ (c (rise 254)).tick.clock ∧ (c (rise 254 - 1)).tick.clock < rise 254)
           ∧ ((r 255 true (some 3)).high = true ∧ rise ((r 255 true (some 3)).pulses - 1) + ms5 ≤ (c (rise 254 + ms5)).tick.clock
               ∧ (c (rise 254 + ms5 - 1)).tick.clock < rise 254 + ms5)
           ∧ (rise 255 ≤ (c (rise 255)).tick.clock ∧ (c (rise 255 - 1)).tick.clock < rise 255)) := by decide +kernel

def item (id n : Nat) (ready : Bool) : Item := { id := id, words := List.replicate n 0#32, ranges := [], ready := ready, begun := false, at' := 1, linked := 0, banks := List.replicate (cellsOf n) 15 }
/-- The same item with `a` cells in the pool, `k` in the backlog store and `b` in the pool behind them. -/
def spread (a k b : Nat) : Item := { item 1 1 true with banks := List.replicate a 15 ++ List.replicate k 16 ++ List.replicate b 0 }
/-- Queue 4095 with what it holds. -/
def queueOf (x : Queue) (l : List (RegField × Nat)) : State := (withFields ((F.QMG_Qq_CFG_EN 4095, 1) :: (F.QMG_Qq_LIMIT_LIMIT 4095, 0x1000) :: l)).setQueue 4095 x

theorem wit_QueuesAndBanksAct_queues :
    let o (d : Bool) : OpenPkt := { prod := .hearth 0, words := [0#32], ranges := [], banks := [0], marked := false, dropping := d }
    ((State.reset.queue 4095).opens = [] ∧ (State.reset.queue 4095).items = [] ∧ (State.reset.queue 4095).flush = none ∧ (∀ b, (4095, b) ∉ State.reset.qmg.xfers))
      ∧ (∃ p ∈ ((queueOf { queue0 with opens := [o false] } []).queue 4095).opens, p.dropping = false)
      ∧ State.reset.f (F.QMG_Qq_CFG_EN 4095) = 0 ∧ (queueOf queue0 []).f (F.QMG_Qq_CFG_EN 4095) = 1
      ∧ (∀ i ∈ (State.reset.queue 4095).items, i.ready = true)
      ∧ (let d := queueOf { queue0 with items := [item 1 32 false] } []
         (d.backlogUp = false ∧ (withFields [(F.QMG_BL_STAT_FULL, 1), (F.QMG_BL_STAT_FREE_BLK, 1)]).f F.QMG_BL_STAT_FULL = 1
             ∧ 0 < (withFields [(F.QMG_BL_STAT_FREE_BLK, 1)]).f F.QMG_BL_STAT_FREE_BLK)
           ∧ (d.queue 4095).items.find? (fun y => !y.ready) = some (item 1 32 false) ∧ 16 ∉ (item 1 32 false).banks ∧ d.f (F.QMG_Qq_STAT_DEEP 4095) = 0)
      ∧ 16 ∈ (spread 64 32 0).banks := by decide +kernel

theorem wit_QueuesAndBanksAct_windows :
    let w (k q : Nat) (x : Queue) : State := queueOf x [(F.QMG_Qq_CFG_CONS 4095, 9), (F.QMG_HWn_CFG_EN k, 1), (F.QMG_HWn_CFG_Q k, q)]
    State.reset.consumer 4095 ≠ 9 ∧ ((w 15 4095 queue0).consumer 4095 = 9 ∧ (w 15 4095 queue0).winOn 15 = true ∧ (w 15 4095 queue0).winQueue 15 = 4095)
      ∧ (let d := (w 15 4095 queue0).setWin 15 { win0 with item := some 1 }
         (d.win 15).item = some 1 ∧ d.winOn 15 = true ∧ ((w 15 4095 queue0).win 15).item = none ∧ State.reset.winOn 15 = false)
      ∧ (∀ k : Fin 16, k ≠ 15 → (w 15 4095 queue0).winOn k = false) ∧ (w 15 4094 queue0).winQueue 15 ≠ 4095
      ∧ State.reset.winWords 15 = [] ∧ (w 15 4095 { queue0 with items := [item 1 1 true] }).winWords 15 = [0#32] := by decide +kernel

/-- A queue with a tail to spill, one whose head runs low, transfers of both kinds, and the sizes of the history. -/
theorem wit_QueuesAndBanksAct_backlog :
    let up : List (RegField × Nat) := [(F.QMG_BL_CFG_EN, 1), (F.QMG_BL_CFG_SIZE, 8), (F.QMG_BL_STAT_READY, 1), (F.QMG_SPILL_EN, 1), (F.QMG_Qq_CFG_SPILL 4095, 1), (F.QMG_Qq_CFG_POOLMAX 4095, 1),
      (F.QMG_BL_STAT_FREE_BLK, 1), (F.QMG_POOL_FREE, 32)]
    let sp := queueOf { queue0 with items := [spread 96 0 0] } up
    let fi := queueOf { queue0 with items := [spread 63 32 0] } up
    (sp.wantsSpill 4095 = true ∧ sp.qmg.xfers.length < 8 ∧ 0 < sp.f F.QMG_BL_STAT_FREE_BLK ∧ ∀ e ∈ sp.qmg.queues, sp.wantsFill e.1 = false)
      ∧ State.reset.wantsSpill 4095 = false ∧ State.reset.wantsFill 4095 = false
      ∧ (fi.wantsFill 4095 = true ∧ fi.f F.QMG_SPILL_EN = 1 ∧ fi.qmg.xfers = [] ∧ 32 ≤ fi.f F.QMG_POOL_FREE)
      ∧ (let d : State := { fi with qmg.xfers := [(4095, true)], qmg.fills := [(4095, List.replicate 32 7)] }
         (4095, true) ∈ d.qmg.xfers ∧ (d.queue 4095).items.flatMap (·.banks) = List.replicate 63 15 ++ List.replicate 32 16 ++ [] ∧ 16 ∉ List.replicate 63 15
           ∧ (tabGet (fun _ => []) d.qmg.fills 4095).length = 32 ∧ 16 ∉ tabGet (fun _ => []) d.qmg.fills 4095)
      ∧ (let d (k : Nat) : State := { queueOf { queue0 with items := [spread 64 k 32] } up with qmg.xfers := [(4095, false)] }
         (4095, false) ∈ (d 0).qmg.xfers ∧ ((d 32).queue 4095).items.flatMap (·.banks) = List.replicate 64 15 ++ List.replicate 32 16 ++ List.replicate 32 0
           ∧ ((d 0).queue 4095).items.flatMap (·.banks) = List.replicate 64 15 ++ List.replicate 0 16 ++ List.replicate 32 0
           ∧ (List.replicate 64 15).length = 64 ∧ 32 ≤ (List.replicate 32 0).length ∧ 16 ∉ List.replicate 64 15 ∧ 16 ∉ List.replicate 32 0)
      ∧ (State.reset.f F.QMG_BL_CFG_EN = 0 ∧ sp.f F.QMG_BL_CFG_EN = 1)
      ∧ (sp.f F.QMG_BL_CFG_SIZE * 1024 ≤ 8192 ∧ 8191 < sp.f F.QMG_BL_CFG_SIZE * 1024 ∧ sp.ticking = false ∧ sp.bankValid = false ∧ running.ticking = true) := by decide +kernel

theorem wit_QueuesAndBanksAct_arbiter :
    let s (y : ArbBank) : State := { withFields [(F.ARB_RQr_STARVE_LIMIT 15, 5), (F.ARB_RQr_CFG_BURST 15, 4)] with qmg.banks := [(15, some y)] }
    let y (beats : Nat) : ArbBank := { owner := some 15, beats := beats, ptr := 0, waits := [(15, 6)] }
    (((s (y 3)).arb 15).owner = some 15 ∧ (0xFFFF#16).getLsbD 15 = true ∧ ((s (y 3)).arb 15).beats < max 1 ((s (y 3)).f (F.ARB_RQr_CFG_BURST 15)))
      ∧ (max 1 ((s (y 4)).f (F.ARB_RQr_CFG_BURST 15)) ≤ ((s (y 4)).arb 15).beats ∧ 0xFFFF#16 ≠ (0#16))
      ∧ (0 < (s (y 3)).f (F.ARB_RQr_STARVE_LIMIT 15) ∧ (s (y 3)).f (F.ARB_RQr_STARVE_LIMIT 15) < tabGet (fun _ => 0) ((s (y 3)).arb 15).waits 15
          ∧ ((s (y 3)).f F.ARB_STARVE_FLAG).testBit 15 = false) := by decide +kernel

/-- Press with an item of `n` words ready for engine 3, which serves queue 4095, with a Briquette open in it or none. -/
def pressed (n : Nat) (c : List Ctx) : State :=
  { queueOf { queue0 with items := [item 1 n true] } [(F.PRS_CTRL_EN, 1), (F.QMG_Qq_CFG_CONS 4095, 4), (F.PRS_Qq_OUT_EN1 4095, 1)] with prs.ctxs := c }
/-- A Briquette of queue 4095 with a TARGET of 1,024 bytes. -/
def openCtx : Ctx := { engine := 3, queue := 4095, cfg := 0x100#32, out := 0x8000#32, bseq := 0, since := 0, items := [], marks := [] }

theorem wit_PressTakesVerifiesRetrieves_take :
    (State.reset.f F.PRS_CTRL_EN = 0) ∧ ((pressed 1 []).f F.PRS_CTRL_EN = 1 ∧ (pressed 1 []).engFaulty 3 = false ∧ (pressed 1 []).prs.closed = [])
      ∧ (pressed 1 []).readyItem 4095 = some (item 1 1 true) ∧ (pressed 1 []).engOf 4095 = some 3 ∧ (pressed 1 []).f (F.PRS_Qq_OUT_EN1 4095) = 1
      ∧ (pressed 1 [openCtx]).prs.ctxs.find? (fun y => y.queue == 4095) = some openCtx
      ∧ ((pressed 1 [openCtx]).tick.num < openCtx.since + max 1 (fieldOf openCtx.cfg 31 16)
          ∧ openCtx.since + max 1 (fieldOf openCtx.cfg 31 16) ≤ ({ pressed 1 [openCtx] with tick.num := 1 } : State).tick.num)
      ∧ ((pressed 1 []).f (F.QMG_Qq_STAT_DEEP 4095) = 0 ∧ (pressed 1 []).backlogUp = false ∧ 16 ∉ (item 1 1 true).banks
          ∧ 0 < (withFields [(F.QMG_BL_STAT_FREE_BLK, 1)]).f F.QMG_BL_STAT_FREE_BLK)
      ∧ ((openCtx.items.map fun h => 4 * h.words.length).sum + 4 * 256 ≤ pTarget openCtx.cfg ∧ pTarget openCtx.cfg < (openCtx.items.map fun h => 4 * h.words.length).sum + 4 * 257)
      ∧ (item 1 57345 true).words.length = 57345 ∧ ((pressed 1 []).prs.ctxs.filter fun y => y.engine == 3).length < 16 :=
  ⟨by decide +kernel, by decide +kernel, by decide +kernel, by decide +kernel, by decide +kernel, by decide +kernel, by decide +kernel, by decide +kernel, by decide +kernel, List.length_replicate .., by decide +kernel⟩

theorem wit_PressTakesVerifiesRetrieves_order : (pressed 1 []).readyQueues 3 = [(4095, item 1 1 true)] := by
  have h : ((pressed 1 []).qmg.queues.filterMap fun q => if (pressed 1 []).engOf q.1 == some 3 then ((pressed 1 []).readyItem q.1).map fun i => (q.1, i) else none)
      = [(4095, item 1 1 true)] := by decide +kernel
  unfold State.readyQueues
  rw [h]
  simp

/-- A Briquette in verification, its copy open in queue 0, and a retrieval of an empty one. -/
theorem wit_PressTakesVerifiesRetrieves_inflaters :
    let b : Briq := { id := 9, engine := 3, queue := 4095, cfg := 0x100#32, out := 0x8000#32, bseq := 0, redo := false, passed := false, items := [] }
    let o : OpenPkt := { prod := .press 18, words := [0#32], ranges := [], banks := [0], marked := false, dropping := false }
    let s : State := { State.reset.setQueue 0 { queue0 with opens := [o] } with prs.vers := [b], prs.infs := [(1, some (.verify 9))] }
    let j : RetrJob := { words := [], dest := 4095, strict := true, tag := 0 }
    let x := checkBriq j.words
    (tabGet (fun _ => none) s.prs.infs 1 = some (.verify 9) ∧ s.prs.vers.find? (fun y => y.id == 9) = some b ∧ s.prs.closed = [] ∧ b.engine < 4 ∧ (b.copies.map (·.1)).Nodup
        ∧ (s.queue 0).pkt (.press 18) = some o ∧ b.copies = [(0, .press 18)])
      ∧ ((s.prs.vers.map (·.id)).Nodup ∧ (∀ y ∈ s.prs.vers, y.passed = false) ∧ (∀ y ∈ s.prs.vers, y.queue = b.queue → b.id ≤ y.id))
      ∧ (let two : State := { s with prs.vers := [b, { b with id := 8 }] }
         (two.prs.vers.map (·.id)).Nodup ∧ two.prs.vers.find? (fun y => y.id == 9) = some b ∧ ¬∀ y ∈ two.prs.vers, y.queue = b.queue → b.id ≤ y.id)
      ∧ (tabGet (fun _ => none) State.reset.prs.infs 1 = none)
      ∧ State.reset.putAll 4095 [resultRecord x 0] = none ∧ ((queueOf queue0 []).putAll 4095 [resultRecord x 0]).isSome = true := by decide +kernel
/-! ### Witnesses: the archive -/

def ctrlInfo (mdts : Nat) : CtrlInfo :=
  { sgl := true, mdts := mdts, ready := true, queues := 1, mqes := 64, sncrc := 0#32, namespaces := [⟨1, true⟩], intact := [8191] }
/-- The archive on and recovered, with controller 3 LIVE and extent 8191 in a state, its first 3 segments free. -/
def archive (st : Nat) (l : List (RegField × Nat)) : State :=
  { withFields ([(F.CRD_CTRL_EN, 1), (F.STK_STAT_STATE, 2), (F.CRD_Cn_STAT_STATE 3, 2), (F.CRD_Xx_STAT_STATE 8191, st), (F.CRD_Xx_STAT_CTRL 8191, 3), (F.CRD_Xx_LEN_LEN 8191, 65536)] ++ l) with
    crd.ctrls := [(3, some { ctrl0 with nsids := [1] })], crd.exts := [(8191, some { ext0 with nsid := 1 })], crd.recovered := true }
def unit7 (kind : UnitKind) (failed : Option Nat) : CUnit := { id := 7, kind := kind, items := [], ctl := [], since := 0, epoch := 0, turn := 0, failed := failed, late := false }

theorem wit_ArchiveTakesAndWrites_controllers :
    (State.reset.crd.recovered = false ∧ State.reset.crd.held = [] ∧ State.reset.crd.gaps.length < 83 ∧ State.reset.crd.events.length < 125 ∧ State.reset.crd.control.length < 126)
      ∧ (refuseReason (ctrlInfo 0) = 0 ∧ refuseReason (ctrlInfo 512) = 0 ∧ refuseReason (ctrlInfo 511) = 2)
      ∧ (let d := withFields [(F.STK_STAT_STATE, 2)]; d.crd.recovered = false ∧ d.stokerUp = true) ∧ State.reset.stokerUp = false
      ∧ (([⟨8191, 3, 1, 0, 65536, 5⟩] : List DirExt).map (·.ext)).Nodup ∧ (∀ e ∈ ([⟨8191, 3, 1, 0, 65536, 5⟩] : List DirExt), e.ext < 8192 ∧ e.state < 6) := by decide +kernel

/-- An item for the archive's gap queue, for its event queue, and for the open unit of a segment. -/
theorem wit_ArchiveTakesAndWrites_items :
    let s (l : List (RegField × Nat)) : State :=
      { (archive 2 ((F.QMG_Qq_CFG_CONS 4095, 5) :: l)).setQueue 4095 { queue0 with items := [item 1 32 true] } with
        crd.opens := [{ ext := 8191, seg := 1, next := 16382, unit := some (unit7 .data none) }] }
    (archive 2 []).f F.CRD_CTRL_EN = 1 ∧ State.reset.f F.CRD_CTRL_EN = 0
      ∧ ((s []).cordFull = false ∧ (s []).cordNext = some (4095, item 1 32 true) ∧ (s []).crd.held = [] ∧ (s []).f F.CRD_GAPQ_EN = 0 ∧ (s []).f F.CRD_EVQ_EN = 0)
      ∧ ((s []).roomySeg (fun _ => true) 0 = some { ext := 8191, seg := 1, next := 16382, unit := some (unit7 .data none) } ∧ (s []).crd.writes = []
          ∧ 16382 + blocksWith { ext := 8191, seg := 1, next := 16382, unit := some (unit7 .data none) } 32 = 16384 ∧ unitFits (unit7 .data none) 32 = true)
      ∧ ((s [(F.CRD_GAPQ_EN, 1), (F.CRD_GAPQ_Q, 4095)]).f F.CRD_GAPQ_EN = 1 ∧ (s [(F.CRD_GAPQ_EN, 1), (F.CRD_GAPQ_Q, 4095)]).f F.CRD_GAPQ_Q = 4095)
      ∧ ((s [(F.CRD_EVQ_EN, 1), (F.CRD_EVQ_Q, 4095)]).f F.CRD_EVQ_EN = 1 ∧ (s [(F.CRD_EVQ_EN, 1), (F.CRD_EVQ_Q, 4095)]).f F.CRD_EVQ_Q = 4095) := by decide +kernel

/-- A unit that is written inside the fence and one outside it; Writes on their way; an epoch that ends at once and one that waits. -/
theorem wit_ArchiveTakesAndWrites_writes :
    let o : OpenSeg := { ext := 8191, seg := 1, next := 0, unit := some (unit7 .data none) }
    let w : CWrite := { unit := unit7 .data none, ctrl := 3, ext := 8191, seg := 1, abn := abnOf 8191 1 0 }
    let s (l : List (RegField × Nat)) : State := { archive 2 l with crd.opens := [o] }
    let fenced := (((s [(F.FNC_SRr_CFG_V 63, 1), (F.FNC_SRr_LEN_LO_LEN 63, 65536)]).wr (Reg.FNC_SRr_SN 63) 0#32).wr (Reg.FNC_SRr_NSID 63) 1#32)
    let f : State := { archive 4 [] with crd.writes := [w], crd.order := [(8191, 1)] }
    (∀ o ∈ State.reset.crd.opens, o.unit = none) ∧ ((s []).crd.opens = [o] ∧ (s []).crd.writes = [])
      ∧ (let d : State := { s [(F.CRD_Cn_STAT_SQ 3, 1)] with tick.num := (s []).f F.CRD_UNIT_CFG_UNIT_AGE }
         d.ctrlSpace (d.f (F.CRD_Xx_STAT_CTRL 8191)) = true ∧ (unit7 .data none).since + max 1 (d.f F.CRD_UNIT_CFG_UNIT_AGE) ≤ d.tick.num
           ∧ ¬(unit7 .data none).since + max 1 ((s []).f F.CRD_UNIT_CFG_UNIT_AGE) ≤ (s []).tick.num)
      ∧ (s []).storageOk 3 1 16384 1 = false ∧ fenced.storageOk 3 1 16384 1 = true
      ∧ ((f.crd.writes.find? fun x => x.unit.id == 7) = some w ∧ f.crd.ending = none ∧ f.crd.held = [] ∧ (f.ctrl 3).fails < 15) ∧ (∀ x ∈ f.extList ++ f.crd.opens.map (·.ext) ++ f.crd.order.map (·.1), f.extState x ≠ 2)
      ∧ ((archive 2 []).f F.CRD_CTRL_EN = 1 ∧ (archive 2 []).crd.recovered = true ∧ (archive 2 []).stokerUp = true ∧ (archive 2 []).crd.opens = [] ∧ (archive 2 []).crd.writes = []
          ∧ (archive 2 []).crd.written = [] ∧ (archive 2 []).crd.exts.length < 126)
      ∧ (let d (n : Nat) : State := { archive 2 [] with tick.num := n }
         ((archive 2 []).crd.epoch + 1) * (archive 2 []).crd.epochLen ≤ (d 32000).tick.num ∧ (d 31999).tick.num < ((archive 2 []).crd.epoch + 1) * (archive 2 []).crd.epochLen)
      ∧ ((archive 2 [(F.STK_STAT_STATE, 0)]).stokerUp = false) ∧ (∃ w ∈ f.crd.writes, w.unit.turn ≤ f.crd.turn)
      ∧ (let d : State := { archive 2 [(F.CRD_STAT_HEALTHY, 1)] with crd.held := [(unit7 .data (some 0), none)] }
         d.f F.CRD_STAT_HEALTHY = 1 ∧ d.unitsOut = [unit7 .data (some 0)] ∧ 0 + ms100 ≤ ({ d with tick.clock := ms100 } : State).tick.clock
           ∧ ¬0 + ms100 ≤ ({ d with tick.clock := ms100 - 1 } : State).tick.clock) := by decide +kernel

theorem wit_ExtentsPinsAndJobs_add :
    let s (n len : Nat) (l : List (RegField × Nat)) : State := archive 4 ([(F.CRD_EXT_NS_CTRL, 3), (F.CRD_EXT_NS_NSID, n), (F.CRD_EXT_LEN_LEN, len)] ++ l)
    let fenced := ((s 1 32768 [(F.FNC_SRr_CFG_V 63, 1), (F.FNC_SRr_LEN_LO_LEN 63, 65536), (F.FNC_SRr_LBA_LO_LBA 63, 0), (F.CRD_EXT_LBA_LO_LBA, 16384)]).wr (Reg.FNC_SRr_SN 63) 0#32).wr (Reg.FNC_SRr_NSID 63) 1#32
    ((archive 1 []).stokerUp = true ∧ State.reset.stokerUp = false) ∧ ((archive 1 []).extBusy = true ∧ (archive 4 []).extBusy = false) ∧ (3 ∈ (s 1 0 []).liveCtrls ∧ 1 ∈ ((s 1 0 []).ctrl 3).nsids ∧ 2 ∉ ((s 2 0 []).ctrl 3).nsids)
      ∧ (s 1 16384 []).badShape 3 1 0 16384 = true ∧ (s 1 32768 []).badShape 3 1 0 32768 = false ∧ (s 1 32768 []).storageOk 3 1 0 32768 = false
      ∧ (fenced.badShape 3 1 16384 32768 = false ∧ fenced.storageOk 3 1 16384 32768 = true ∧ fenced.freeExt = some 0) := by decide +kernel

theorem wit_ExtentsPinsAndJobs_extents :
    (∀ st : Fin 6, (archive st []).extState 8191 = st) ∧ ((archive 2 []).extBusy = false ∧ (archive 1 []).extBusy = true ∧ (archive 3 []).extBusy = true)
      ∧ (archive 2 []).crd.opens = [] ∧ (archive 2 []).f (F.CRD_Cn_STAT_STATE 3) = 2 ∧ (archive 5 [(F.CRD_Cn_STAT_STATE 3, 4)]).f (F.CRD_Cn_STAT_STATE 3) = 4
      ∧ 8191 ∈ (archive 2 []).extList ∧ (archive 2 []).f (F.CRD_Xx_STAT_CTRL 8191) = 3 ∧ (∀ e ∈ (archive 2 []).crd.exts, e.1 < 8192)
      ∧ 8191 ∈ (ctrlInfo 0).intact
      ∧ ((archive 2 [(F.CRD_PINp_Q_V 255, 1)]).f (F.CRD_PINp_Q_V 255) = 1 ∧ State.reset.f (F.CRD_PINp_Q_V 255) = 0) := by decide +kernel

/-- Jobs of every answer, and Reads of every kind. -/
theorem wit_ExtentsPinsAndJobs_jobs :
    let loc := 8191 * 2 ^ 28
    let s (st : Nat) (l : List (RegField × Nat)) : State := archive st ((F.QMG_Qq_CFG_EN 4095, 1) :: l)
    let j : Job := { num := 0, kind := 0, strict := false, queue := 4095, loc := loc, len := 1, tries := 1 }
    let w : Written := { id := 7, turn := 0, abn := 0, entries := [] }
    let r (x : ReadFor) : State := { archive 5 [] with crd.reads := [(9, x)], crd.adding := some { ctrl := 3, nsid := 1, lba := 0, len := 32768, format := false } }
    let fails (x : ReadFor) : Nat := ((r x).ctrl ((r x).readCtrl x)).fails
    ((s 2 []).jobCheck 0 loc 128 4095 = 0 ∧ (s 2 []).jobCheck 0 loc 129 4095 = 2 ∧ (s 4 []).jobCheck 0 loc 1 4095 = 3 ∧ (s 2 []).jobCheck 1 loc 1 4095 = 4)
      ∧ ((s 2 []).crd.jobs = [] ∧ (s 2 []).crd.jobNum < 16777216)
      ∧ ((r .label).crd.reads.find? fun x => x.1 == 9) = some (9, .label) ∧ (r .label).crd.adding ≠ none ∧ (r .label).freeExt = some 0 ∧ (r .label).extState 8191 = 5
      ∧ ((r (.back w)).crd.reads.find? fun x => x.1 == 9) = some (9, .back w) ∧ ((r (.job j)).crd.reads.find? fun x => x.1 == 9) = some (9, .job j) ∧ j.tries < 2
      ∧ (fails (.back w) < 15 ∧ fails (.job j) < 15 ∧ (r (.back w)).crd.ending = none ∧ (r (.job j)).crd.jobs = [])
      ∧ ((r .label).crd.reads.find? fun x => x.1 == 8) = none := by decide +kernel

/-- Controller 3 LIVE, a provisioned range of it, and an ADD inside the range that nothing else holds; unused ranges are written out. -/
def addInside : State :=
  { ((withFields [(F.CRD_CTRL_EN, 1), (F.STK_STAT_STATE, 2), (F.CRD_Cn_STAT_STATE 3, 2), (F.CRD_EXT_NS_CTRL, 3), (F.CRD_EXT_NS_NSID, 1), (F.CRD_EXT_LEN_LEN, 32768), (F.CRD_EXT_LBA_LO_LBA, 16384),
      (F.FNC_SRr_CFG_V 0, 1), (F.FNC_SRr_LEN_LO_LEN 0, 65536)]).wr (Reg.FNC_SRr_SN 0) 0#32).wr (Reg.FNC_SRr_NSID 0) 1#32 with crd.ctrls := [(3, some { ctrl0 with nsids := [1] })] }
def noRanges : Tab Word :=
  ((List.range 63).map fun r => ((F.FNC_SRr_CFG_V (r + 1)).addr, 0#32)) ++
    [((F.CRD_Cn_STAT_STATE 0).addr, 0#32), ((F.CRD_Cn_STAT_STATE 1).addr, 0#32), ((F.CRD_Cn_STAT_STATE 2).addr, 0#32), (F.CRD_EXT_LBA_HI_LBA.addr, 0#32),
     (Reg.FNC_SRr_SN 0, 0#32), ((F.FNC_SRr_LBA_LO_LBA 0).addr, 0#32), ((F.FNC_SRr_LBA_HI_LBA 0).addr, 0#32), ((F.FNC_SRr_LEN_HI_LEN 0).addr, 0#32)]

/-- The same with every extent number RETIRED. -/
def crowded : State := { addInside with mem := addInside.mem ++ noRanges ++ (List.range 8192).map fun x => ((F.CRD_Xx_STAT_STATE x).addr, 0x80000000#32) }

theorem tabGet_back {α : Type} (d : Nat → α) (r : Tab α) (a : Nat) : ∀ l : Tab α, (∀ e ∈ l, e.1 ≠ a) → tabGet d (l ++ r) a = tabGet d r a
  | [], _ => rfl
  | (k, v) :: l, h => by
    have h1 : ¬a = k := fun e => h (k, v) (by simp) e.symm
    have h2 : ∀ e ∈ l, e.1 ≠ a := fun e m => h e (by simp [m])
    simpa [tabGet, h1] using tabGet_back d r a l h2

theorem tabGet_all {α : Type} (d : Nat → α) (g : Nat → Nat) (w : α) (x : Nat) : ∀ l : List Nat, x ∈ l → tabGet d (l.map fun y => (g y, w)) (g x) = w
  | [], h => absurd h List.not_mem_nil
  | y :: l, h => by
    by_cases e : g x = g y
    · simp [tabGet, e]
    · have : x ∈ l := by
        rcases List.mem_cons.mp h with rfl | h
        · exact absurd rfl e
        · exact h
      simpa [tabGet, e] using tabGet_all d g w x l this

theorem wit_ExtentsPinsAndJobs_no_number : crowded.freeExt = none := by
  have k : ∀ e ∈ addInside.mem ++ noRanges, e.1 < 0x1010000 ∨ 0x1030000 ≤ e.1 := by decide +kernel
  unfold State.freeExt
  rw [List.find?_eq_none]
  intro x hx
  have b : x < 8192 := List.mem_range.mp hx
  have a : ∀ e ∈ addInside.mem ++ noRanges, e.1 ≠ (F.CRD_Xx_STAT_STATE x).addr := by
    intro e m
    have h1 := k e m
    have h2 : (F.CRD_Xx_STAT_STATE x).addr = 0x1010000 + 0x10 * x := rfl
    omega
  have h : crowded.rd (F.CRD_Xx_STAT_STATE x).addr = 0x80000000#32 :=
    (tabGet_back _ _ _ _ a).trans (tabGet_all _ (fun x => (F.CRD_Xx_STAT_STATE x).addr) _ x _ hx)
  have e : crowded.extState x = 4 := by
    unfold State.extState State.f
    rw [h]
    rfl
  simp [e]

theorem wit_ExtentsPinsAndJobs_no_number_add :
    (!crowded.extBusy && crowded.liveCtrls.contains 3 && (crowded.ctrl 3).nsids.contains 1 && !crowded.badShape 3 1 16384 32768
      && crowded.storageOk 3 1 16384 32768) = true := by decide +kernel
/-! ### Witnesses: uplinks and the Hub Control Protocol -/

/-- Uplinks on, both links up, with stream 255 of queue 4095. -/
def uplinks (l : List (RegField × Nat)) : State :=
  withFields ([(F.UPL_CTRL_EN, 1), (F.UPL_CTRL_MTU, 1500), (F.UPL_Un_CFG_EN 1, 1), (F.UPL_Un_STAT_LINK 1, 1), (F.UPL_STREAM_EN 255, 1), (F.UPL_STREAM_Q 255, 4095), (F.QMG_Qq_CFG_CONS 4095, 6),
    (F.STK_STAT_STATE, 2)] ++ l)
def withItem (s : State) : State := s.setQueue 4095 { queue0 with items := [item 1 4 true] }

theorem wit_Uplinks_streams :
    (withFields [(F.UPL_CTRL_EN, 0)]).f F.UPL_CTRL_EN = 0 ∧ (uplinks []).f F.UPL_CTRL_EN = 1
      ∧ (let d : State := { uplinks [] with hub.txq := [(16, [⟨[16], 64, []⟩])], hub.credit := [(16, some (0, 0))], hub.heldAt := [(16, some 0)] }; tabGet (fun _ => []) (d.txPump 16).hub.txq 16 ≠ [])
      ∧ (tabGet (fun _ => []) (uplinks []).hub.txq 16 = [] ∧ (uplinks []).nextStream = none)
      ∧ ((withItem (uplinks [])).nextStream = some (255, 4095) ∧ (withItem (uplinks [])).streamKind 4095 = 1 ∧ (withItem (uplinks [])).readyItem 4095 = some (item 1 4 true)) := by
  decide +kernel

/-- Launches just in time and just late, with slots free and none; a slot that is first of its queue, with an item and without. -/
theorem wit_Uplinks_launches :
    let s (servo : Nat) : State := uplinks [(F.UPL_STREAM_LAUNCH 255, 1), (F.PTP_SERVO_STAT_STATE, servo), (privF (masterCode .hcp) F.UPL_LCH_Q_Q, 4095)]
    let x (late : Bool) : LaunchSlot := { queue := 4095, time := launchLead, lateOk := true, late := late, master := 1 }
    let one (late : Bool) : State := { s 2 with upl.slots := [(63, some (x late))] }
    let all : State := { s 2 with upl.slots := (List.range 64).map fun n => (n, some (x false)) }
    ((s 2).f (privF (masterCode .hcp) F.UPL_LCH_Q_Q) = 4095 ∧ (s 2).streamOf 4095 = some 255 ∧ (s 2).f (F.UPL_STREAM_LAUNCH 255) = 1 ∧ 1 < (s 2).servo ∧ (s 1).servo ≤ 1)
      ∧ (uplinks []).f (F.UPL_STREAM_LAUNCH 255) = 0
      ∧ ((List.range 64).find? fun n => ((s 2).lslot n).isNone) = some 0 ∧ ((List.range 64).find? fun n => (all.lslot n).isNone) = none
      ∧ ((s 2).lslot 63 = none ∧ (one false).lslot 63 = some (x false) ∧ (x false).time < (1 : Nat) + launchLead ∧ 0 + launchLead ≤ (x false).time)
      ∧ ((one false).slotFirst 63 (x false) = true ∧ (one false).slotFirst 63 { x false with time := launchLead + 1 } = false)
      ∧ ((x true).late = true ∧ ¬(x false).time ≤ ({ one false with tick.clock := launchLead - 1 } : State).tick.clock
          ∧ (x false).time ≤ ({ one false with tick.clock := launchLead } : State).tick.clock)
      ∧ ((one false).readyItem 4095 = none ∧ (withItem (one true)).readyItem 4095 = some (item 1 4 true) ∧ (x true).late = true) := by decide +kernel

theorem wit_Uplinks_receive :
    let t0 : Trailer := { seq := 9, lan := 0xA, sizeOk := true }
    let s : State := { uplinks [] with upl.nodes := [⟨5, 0, [(9, 0, 0)]⟩], upl.reasm := [⟨65535, [], none⟩] }
    (s.uplinkOn 1 = true ∧ s.uplinkOn 0 = false ∧ s.f (F.UPL_Un_STAT_LINK 1) = 1)
      ∧ (s.upl.nodes.find? (fun n => n.mac == 5) = some ⟨5, 0, [(9, 0, 0)]⟩ ∧ s.tick.clock ≤ 0 + prpWindow ∧ t0.seq = 9 ∧ t0.sizeOk = true ∧ t0.lan = 10)
      ∧ (∀ x ∈ s.upl.reasm, x.id ≠ 0) ∧ (∃ x ∈ s.upl.reasm, x.id = 65535) ∧ s.upl.reasmAt ≠ some (s.tick.clock / secUnits)
      ∧ ((withItem (uplinks [])).stalls 4095 = true ∧ State.reset.stalls 4095 = false)
      ∧ (uplinks [(F.UPL_HEALTH_HEALTHY, 1)]).f F.UPL_HEALTH_HEALTHY = 1 := by decide +kernel

/-- A session with every permission. -/
def sess (high : Option Nat) (kept : List (Nat × List Word)) : Sess := { id := 1, perm := 0x3FF, key := 0, bench := false, high := high, taken := [], kept := kept }
def talking (high : Option Nat) (kept : List (Nat × List Word)) : State := { uplinks [] with umb.sessions := [sess high kept] }

theorem wit_Uplinks_messages :
    (State.reset.stokerUp = false) ∧ ((talking none []).stokerUp = true ∧ (talking none []).f F.UPL_CTRL_EN = 1)
      ∧ ((talking none []).sess 0 = none ∧ (talking none []).sess 2 = none ∧ (talking none []).sess 1 = some (sess none []) ∧ (sess none []).high = none)
      ∧ ((talking (some 4) []).sess 1 = some (sess (some 4) []) ∧ (4 : Nat) < 5)
      ∧ (talking none []).umb.down = false ∧ ({ talking none [] with umb.down := true }).umb.down = true ∧ (talking none []).upl.runs = []
      ∧ (sess (some 4) []).kept.find? (fun k => k.1 == 4) = none ∧ (sess (some 4) [(4, [])]).kept.find? (fun k => k.1 == 4) ≠ none
      ∧ tabGet (fun _ => none) (talking none []).upl.authFail 2 ≠ some ((talking none []).tick.clock / secUnits) := by decide +kernel

/-- A request under way: with operations left, with one left, stopped, of a session with and without permission. -/
theorem wit_Uplinks_operations :
    let x (left : Nat) (stopped : Bool) : HcpRun := { session := 1, mseq := 5, nops := 2, left := left, stopped := stopped, body := [] }
    let s (r : HcpRun) : State := { talking none [] with upl.runs := [r] }
    let no : State := { s (x 2 false) with umb.sessions := [{ sess none [] with perm := 0 }] }
    ((s (x 2 false)).upl.runs = [x 2 false] ∧ (s (x 2 false)).stokerUp = true ∧ 1 < (x 2 false).left ∧ (x 1 true).left = 1 ∧ (x 1 true).stopped = true ∧ (s (x 1 true)).sess 1 = some (sess none []))
      ∧ (∀ b ∈ writePerms 0x10 4 1, (s (x 2 false)).sessCan 1 b = true) ∧ writePerms Reg.KLN_LOAD_CTRL 4 1 = [1, 2]
      ∧ (no.sessCan 1 0 = false ∧ no.sessCan 1 1 = false) ∧ (0x11 % 4 ≠ 0 ∧ 0x10 % 4 = 0)
      ∧ ((s (x 2 false)).hcpReads 4 256 0x10 []).2.2.upl.runs = [x 2 false] ∧ ((s (x 2 false)).hcpWrites 4 [5#32] 0x10 0).2.2.upl.runs = [x 2 false]
      ∧ ((s (x 2 false)).hcpWrites 0 [5#32] 0x10 0).2.2.upl.runs = [x 2 false] ∧ ((s (x 2 false)).fifoReads 0x10 256 []).2.2.upl.runs = [x 2 false]
      ∧ winData (Reg.QMG_HWn_DATA 15) = some 15 ∧ (s (x 2 false)).winWords 15 = [] := by decide +kernel

theorem wit_Uplinks_notice :
    let s := ((uplinks [(F.HUB_INT_RAW_LOAD, 1)]).wr Reg.HUB_INT_EN 0xFFFFFFFF#32)
    ((s.intSum.toNat &&& (0xFFFFFFFF - s.hub.notified)) ≠ 0 ∧ s.upl.noticeTick ≠ some s.tick.num ∧ s.stokerUp = true ∧ s.upl.noticeSeq < 18446744073709551616)
      ∧ ¬State.reset.stokerUp = true := by decide +kernel

/-! ### Witnesses: the SPI ports, sensors and the log -/

theorem wit_SpiPortsSensorsAndLogAct_slave :
    (State.reset.spi.compat = false ∧ State.reset.spi.waits = [] ∧ State.reset.spi.kept = [] ∧ State.reset.spi.late = none ∧ State.reset.spi.wptr < 4294967296)
      ∧ (let d : State := { State.reset with spi.late := some 0x10 }; d.spi.waits = [] ∧ d.spi.late = some 0x10)
      ∧ ((7 : Fin 128).val < 8 ∧ 11 < (12 : Fin 128).val ∧ 8 ≤ (8 : Fin 128).val ∧ (10 : Fin 128).val < 11 ∧ (2 : Fin 128).val ∉ [0, 1, 4, 5, 6, 7, 8, 9, 10, 11, 0x11])
      ∧ (let d (n : Nat) : State := { State.reset with spi.waits := List.replicate n (0x10, 0#32) }; (d 15).spi.waits.length < 16 ∧ 16 ≤ (d 16).spi.waits.length) := by decide +kernel

/-- A transaction with OFFSET 5: due at cycle 5 of its tick, not at 4. -/
theorem wit_SpiPortsSensorsAndLogAct_masters :
    let x : SpimTx := { hearth := 0, kd := 65527, w0 := 5#32, w1 := 0#32, w2 := 0#32, w3 := 0#32, tick := some 0 }
    let s : State := { State.reset with spi.queue := [(1, [x])] }
    let r : State := { State.reset with spi.run := [(1, some { tx := x, cyc := 5, tick := 0, late := false })] }
    (tabGet (fun _ => none) s.spi.run 1 = none ∧ spimFirst ((tabGet (fun _ => []) s.spi.queue 1).filter fun x => x.tick.isSome) = some x ∧ x.offset = 5
        ∧ (s.tick.num - x.tick.getD 0) * s.cycles + 4 < x.offset ∧ x.offset ≤ (s.tick.num - x.tick.getD 0) * s.cycles + 5)
      ∧ (let d (c : Nat) : State := { s with spi.rest := [(1, (0, c))] }
         (tabGet (fun _ => (0, 0)) (d 5).spi.rest 1).2 ≤ ((d 5).tick.num - (tabGet (fun _ => (0, 0)) (d 5).spi.rest 1).1) * (d 5).cycles + 5
           ∧ ¬(tabGet (fun _ => (0, 0)) (d 6).spi.rest 1).2 ≤ ((d 6).tick.num - (tabGet (fun _ => (0, 0)) (d 6).spi.rest 1).1) * (d 6).cycles + 5)
      ∧ (tabGet (fun _ => none) r.spi.run 1 ≠ none ∧ x.kd < 65528) ∧ spimFirst (tabGet (fun _ => []) State.reset.spi.queue 1) = none := by decide +kernel

/-- Sensor 37 on, with readings at and beyond its limits, after 2 outside and after 99 inside. -/
theorem wit_SpiPortsSensorsAndLogAct_sensors :
    let s : State := { withFields [(F.UMB_I2Ce_CFG_EN 15, 1), (F.UMB_I2Ce_CFG_LEN2 15, 1), (F.UMB_I2Ce_CFG_SIGNED 15, 1), (F.UMB_I2Ce_LIM_LO 15, 0x8000), (F.UMB_I2Ce_LIM_HI 15, 100)] with
      umb.sens := [(37, some { out := 2, inn := 0, bad := false })], umb.nack := [] }
    let b : State := { s with umb.sens := [(37, some { out := 0, inn := 99, bad := true })], umb.nack := [15] }
    (State.reset.f (F.UMB_I2Ce_CFG_EN 15) = 0 ∧ s.f (F.UMB_I2Ce_CFG_EN 15) = 1 ∧ s.f (F.UMB_I2Ce_CFG_LEN2 15) = 1 ∧ s.f (F.UMB_I2Ce_CFG_SIGNED 15) = 1)
      ∧ (s.fs (F.UMB_I2Ce_LIM_LO 15) = -32768 ∧ s.fs (F.UMB_I2Ce_LIM_HI 15) = 100 ∧ signedOf 16 (bitsOf 16 100) = 100 ∧ signedOf 16 (bitsOf 16 101) = 101)
      ∧ (tabGet (fun _ => none) s.umb.sens 37 = some { out := 2, inn := 0, bad := false } ∧ 15 ∉ s.umb.nack)
      ∧ (tabGet (fun _ => none) b.umb.sens 37 = some { out := 0, inn := 99, bad := true } ∧ 100 ≤ 99 + 1 ∧ 15 ∈ b.umb.nack) := by decide +kernel

/-- A log with a record to write, a page under way at the start and inside of a sector, and a page that a power collapse left. -/
theorem wit_SpiPortsSensorsAndLogAct_log :
    let p (n : Nat) : LogPage := { pos := n, seq := 9, recs := [ev0] }
    let s : State := { withFields [(F.UMB_STAT_LOG_READY, 1)] with umb.logBuf := [ev0] }
    (s.umb.writing = none ∧ s.umb.down = false ∧ s.f F.UMB_STAT_LOG_READY = 1) ∧ State.reset.f F.UMB_STAT_LOG_READY = 0
      ∧ (({ s with umb.writing := some (p 245759) }).umb.writing = some (p 245759) ∧ (p 245759).pos % 16 ≠ 0 ∧ (p 16).pos % 16 = 0)
      ∧ (({ State.reset with umb.broken := some (p 245759) }).umb.broken = some (p 245759) ∧ (p 245759).pos < 245760) := by decide +kernel

theorem wit_SpiPortsSensorsAndLogAct_page (n : EvName) : pageFill [{ ev0 with name := n }] 7 ≠ [] := by
  have h : eventEntries n ≤ 2 := by unfold eventEntries; split <;> (try split) <;> omega
  have h7 : eventEntries n ≤ 7 := by omega
  simp [pageFill, h7]
/-! ### Witnesses: Umber, clocks and resets -/

/-- Umber in a life-cycle state, with session 1 open and a message of it in front. -/
def umberAt (lc : Nat) (perm : Nat) (l : List (RegField × Nat)) : State :=
  { withFields ((F.UMB_STAT_LC, lc) :: l) with
    umb.sessions := [{ id := 1, perm := perm, key := 0, bench := true, high := none, taken := [], kept := [] }],
    umb.inq := [{ via := none, session := 1, mseq := 5 }] }

/-- A request of 16 words with a correct TAG: the tag is the one the model leaves open. -/
def request16 : List Word := [0x50434857#32, 0x0301#32, 1#32, 5#32, 0#32, 0x10000#32, 0#32, 0#32]
def submitted : State :=
  { State.reset with
    mem := ((List.range 8).map fun i => (0x18000 + 4 * i, request16.getD i 0#32)) ++ ((List.range 8).map fun i => (0x18020 + 4 * i, Config.tag 1 request16 i)),
    umb.sessions := [sess none []] }

theorem wit_UmberOperationsAct_message :
    submitted.umb.down = false ∧ submitted.f F.UMB_MBOX_STAT_BUSY = 0 ∧ (submitted.reqWord 2).toNat = 1 ∧ submitted.lc ≠ 4 ∧ submitted.sess 1 = some (sess none [])
      ∧ submitted.reqWord 0 = 0x50434857#32 ∧ fieldOf (submitted.reqWord 1) 15 0 = 0x0301 ∧ fieldOf (submitted.reqWord 5) 15 0 + 64 = 64 ∧ fieldOf (submitted.reqWord 5) 31 16 = 1
      ∧ (List.range 8).map submitted.reqWord = request16 := by decide +kernel

theorem wit_UmberOperationsAct_tag :
    ((List.range 8).map fun i => submitted.reqWord (16 - 8 + i)) = ((List.range 8).map fun i => Config.tag 1 ((List.range (16 - 8)).map submitted.reqWord) i) := by
  have h : (List.range (16 - 8)).map submitted.reqWord = request16 := by decide +kernel
  rw [h]
  rfl

theorem wit_UmberOperationsAct_mailbox :
    let s (o d : Nat) : State := withFields [(F.UMB_MBOX_STAT_BUSY, 1), (F.UMB_MBOX_STAT_OWNER, o), (F.UMB_MBOX_STAT_DONE, d)]
    ((s 4 0).f F.UMB_MBOX_STAT_BUSY = 1 ∧ (s 4 0).f F.UMB_MBOX_STAT_OWNER ≠ masterCode .hcp ∧ (s 1 1).f F.UMB_MBOX_STAT_OWNER = masterCode .hcp ∧ (s 1 1).f F.UMB_MBOX_STAT_DONE = 1
        ∧ (s 1 0).f F.UMB_MBOX_STAT_DONE = 0)
      ∧ ({ State.reset with umb.down := true }).umb.down = true ∧ State.reset.umb.inq = [] ∧ State.reset.sess 1 = none := by decide +kernel

/-- An OPEN that is granted and some that are not. -/
theorem wit_UmberOperationsAct_open :
    let s (lc : Nat) : State := withFields [(F.UMB_STAT_LC, lc)]
    ((s 0).openCode (some 1) 0xFF 1 60 true).1 = 0 ∧ ((s 0).openCode none 0xFF 1 60 true).1 = 0x20 ∧ ((s 0).openCode (some 1) 0 1 60 true).1 = 2
      ∧ ((s 0).openCode (some 1) 0xFF 1 59 true).1 = 3 ∧ ((s 0).openCode (some 1) 0xFF 1 86401 true).1 = 3 ∧ (s 0).sess 0 = none := by decide +kernel

/-- Sessions with and without permission, every life-cycle state, keys, log reads, fence values and restep authorisations at the ends of their ranges. -/
theorem wit_UmberOperationsAct_common :
    (∀ lc : Fin 5, (umberAt lc 0x3FF []).lc = lc) ∧ ((umberAt 1 0x3FF []).umb.down = false ∧ (umberAt 1 0x3FF []).umb.inq ≠ [])
      ∧ (∀ b < 10, ((umberAt 1 0x3FF []).umb.sessions.all fun x => x.can b) = true) ∧ (∀ b < 10, ((umberAt 1 0 []).umb.sessions.all fun x => !x.can b) = true)
      ∧ ((umberAt 1 0x3FF []).sess 1).isSome = true ∧ ((umberAt 1 0x3FF []).sess 2) = none
      ∧ (fenceRange 0x1300100 (0x01F40001#32) = true ∧ fenceRange 0x1300100 0x01F30001#32 = false ∧ fenceRange 0x1300100 0x01F40000#32 = false)  := by decide +kernel

theorem wit_UmberOperationsAct_updates :
    let u : Upd := { via := none, session := 1, type := 2, slot := 3, total := 4, count := 0, data := [] }
    let s (l : List (RegField × Nat)) (x : Option Upd) : State := { umberAt 1 0x3FF l with umb.upd := x }
    let y : UMsg := { via := none, session := 1, mseq := 5 }
    ((s [] none).umb.upd = none ∧ (slotsOf 2).find? (fun k => (s [] none).f (slotF k) != 4 && (s [] none).f (slotF k) != 3) = some 2)
      ∧ ((slotsOf 2).find? (fun k => (s [(slotF 2, 4), (slotF 3, 3)] none).f (slotF k) != 4 && (s [(slotF 2, 4), (slotF 3, 3)] none).f (slotF k) != 3) = none)
      ∧ (u.ownedBy y = true ∧ u.ownedBy { y with session := 2 } = false ∧ (0 : Nat) = u.count ∧ u.count + 4 ≤ u.total ∧ u.total < u.count + 5)
      ∧ ((s [] none).slotIn 2 2 = none ∧ (s [(slotF 3, 2)] none).slotIn 2 2 = some 3 ∧ (s [(slotF 3, 2)] none).slotIn 1 3 = none ∧ (s [(slotF 3, 2)] none).slotIn 2 3 = none)
      ∧ ((s [(slotF 0, 3)] none).slotIn 1 3 = some 0 ∧ leadOk 0 3 = true ∧ leadOk 0 2 = false)
      ∧ (((s [(slotF 3, 2), (svnF 2, 1)] none).hdr 3).svn < (s [(slotF 3, 2), (svnF 2, 1)] none).f (svnF 2) ∧ (s [] none).f (svnF 2) ≤ ((s [] none).hdr 3).svn)
      ∧ ((s [] none).umb.healthy = false ∧ (let d : State := { s [(slotF 3, 3), (slotF 2, 4)] none with umb.healthy := true }
          d.slotIn 2 3 = some 3 ∧ d.umb.healthy = true ∧ (d.hdr 3).svn < 256 ∧ d.slotIn 2 4 = some 2)) := by decide +kernel

/-- Life-cycle changes that are made, to RETIRED too, and that are not. -/
theorem wit_UmberOperationsAct_lifecycle :
    let x (perm : Nat) : Sess := { id := 1, perm := perm, key := 0, bench := true, high := none, taken := [], kept := [] }
    let s (lc : Nat) : State := umberAt lc 0x3FF []
    (s 2).lcCode (x 0x80) 3 60 = 0 ∧ (s 2).lcCode (x 0x80) 3 59 = 3 ∧ (s 2).lcCode (x 0x80) 3 86401 = 3 ∧ (s 2).lcCode (x 0x200) 4 0 = 0 ∧ (s 2).lcCode (x 0) 4 0 = 1
      ∧ (s 2).lcCode (x 0x80) 0 60 = 2 ∧ (s 3).lc = 3 ∧ (s 2).lc ≠ 3 := by decide +kernel

/-- Clock flags lost and there, and die sensors at and below 105 °C. -/
theorem wit_ClocksResetsAndDomainsAct_clocks :
    let fl : List RegField := [F.CLK_STAT_XREF_OK, F.CLK_STAT_REF_OK, F.CLK_STAT_UXTAL_OK]
    let d (v : Nat) : State := withFields [(F.UMB_SENSs_VALUE 7, v)]
    (∀ x ∈ fl, (withFields [(x, 0)]).f x = 0 ∧ (withFields [(x, 1)]).f x = 1)
      ∧ (∀ k : Fin 8, (d 1679).fs (F.UMB_SENSs_VALUE k) < 105 * 16) ∧ 105 * 16 ≤ (d 1680).fs (F.UMB_SENSs_VALUE 7) := by decide +kernel

theorem wit_ClocksResetsAndDomainsAct :
    let s := withFields [(F.CLK_STAT_SMP_LOCK, 1)]
    let d : State := { State.reset with umb.held := true, umb.thermal := true }
    (∀ l : Fin 16, State.reset.laneState l < 2) ∧ State.reset.f F.CLK_STAT_SMP_LOCK = 0 ∧ (s.f F.CLK_STAT_SMP_LOCK = 1 ∧ (s.wf F.CLK_STAT_SMP_LOCK 1).f F.CLK_STAT_SMP_LOCK = 1)
      ∧ (let t := s.wr Reg.RST_DOM 0#32; t.inReset 1 = false)
      ∧ (State.reset.umb.held = false ∧ State.reset.umb.thermal = false ∧ d.umb.held = true ∧ d.umb.thermal = true) ∧ Memory.wf s.mem = true
      ∧ ({ State.reset with umb.recordOk := true }).umb.recordOk = true
      ∧ (∃ r i, rowOf Reg.HUB_INT_EN = some (r, i) ∧ r.rwl = 0) ∧ (0x13FFFFC / 0x100000 = 0x13 ∧ Reg.HUB_INT_EN / 0x10000 ≠ 1)
      ∧ ((State.reset.tile 3).down = false ∧ ((State.reset.setTile 3 { tile0 with down := true }).tile 3).down = true) := by
  refine ⟨by decide +kernel, by decide +kernel, by decide +kernel, by decide +kernel, by decide +kernel, by decide +kernel, rfl, ⟨_, _, rfl, by decide +kernel⟩, by decide +kernel, by decide +kernel⟩
/-! ### Words of Kiln instructions, written bit by bit from the formats of R81 and R82 and the opcode map of R83 -/

theorem test_decode_control_words :
    kdecode 0b00000000000000000000000000000000#32 = some ⟨pT, .nop⟩
      ∧ kdecode 0b00000101010000001111111111111110#32 = some ⟨⟨2, true⟩, .br 0xFFFE⟩
      ∧ kdecode 0b00001011100000000000001111111111#32 = some ⟨⟨7, false⟩, .skip 1023⟩
      ∧ kdecode 0b00001100001111111111110000000011#32 = some ⟨pT, .rep 4095 3⟩
      ∧ kdecode 0b00010000000011111111111111111111#32 = some ⟨pT, .waitc 0xFFFFF⟩
      ∧ kdecode 0b00010100000000000000000000000000#32 = some ⟨pT, .endTick⟩ := by decide +kernel

theorem test_decode_move_and_accumulator_words :
    kdecode 0b00100000000001111000000000000001#32 = some ⟨pT, .ldi 3 true 0x8001#16⟩
      ∧ kdecode 0b00100100000010000000000000010011#32 = some ⟨pT, .gets 4 0x13⟩
      ∧ kdecode 0b00101000000010100010000001001111#32 = some ⟨pT, .mva 5 2 15 true⟩
      ∧ kdecode 0b00101100000001100000000000000000#32 = some ⟨pT, .clra 3⟩
      ∧ kdecode 0b00110000000000100110001110000000#32 = some ⟨pT, .lda 1 6 7⟩
      ∧ kdecode 0b01100000000001001000010010000001#32 = some ⟨pT, .mul 2 8 9 true⟩
      ∧ kdecode 0b01100100000000001010010110000010#32 = some ⟨pT, .mac 0 10 11 false true⟩ := by decide +kernel

theorem test_decode_arithmetic_words :
    kdecode 0b01000000000000100010000110000001#32 = some ⟨pT, .alu 1 2 3 .sub⟩
      ∧ kdecode 0b01000000000000100010000000001110#32 = some ⟨pT, .alu 1 2 0 .abs⟩
      ∧ kdecode 0b01000100001111111110111111111111#32 = some ⟨pT, .addi 31 30 0xFFF#12⟩
      ∧ kdecode 0b01001000000000100010100000000000#32 = some ⟨pT, .andi 1 2 0x800#12⟩
      ∧ kdecode 0b01001100000000100010000000000001#32 = some ⟨pT, .ori 1 2 1#12⟩
      ∧ kdecode 0b01010000000000100010000000000011#32 = some ⟨pT, .xori 1 2 3#12⟩
      ∧ kdecode 0b01010100000000100010000000011111#32 = some ⟨pT, .shli 1 2 31⟩
      ∧ kdecode 0b01011000000000100010000000010000#32 = some ⟨pT, .shri 1 2 16⟩
      ∧ kdecode 0b01011100000000100010000000000001#32 = some ⟨pT, .srai 1 2 1⟩
      ∧ kdecode 0b01101100000000100010000000000001#32 = some ⟨pT, .swd 1 2 0 .stat⟩
      ∧ kdecode 0b01101100000000100010000110000010#32 = some ⟨pT, .swd 1 2 3 .pack⟩ := by decide +kernel

theorem test_decode_flag_words :
    kdecode 0b10000000000011100001000100000110#32 = some ⟨pT, .cmp 7 1 2 .ltu⟩
      ∧ kdecode 0b10000100001011000001110000000000#32 = some ⟨pT, .cmpi 4 3 0x400#11 .ge⟩
      ∧ kdecode 0b10001000000000100010000110000011#32 = some ⟨pT, .flop 1 2 3 .andn⟩
      ∧ kdecode 0b10001000000000100000000000000110#32 = some ⟨pT, .flop 1 0 0 .set⟩
      ∧ kdecode 0b10001100000011000101000000011111#32 = some ⟨pT, .tstb 6 5 31⟩ := by decide +kernel

theorem test_decode_memory_and_view_words :
    kdecode 0b10100000000000100010111111111111#32 = some ⟨pT, .ld 1 2 0xFFF#12⟩
      ∧ kdecode 0b10100100000001100100000000000101#32 = some ⟨pT, .st 3 4 5#12⟩
      ∧ kdecode 0b10101000000001100100000000000110#32 = some ⟨pT, .ld64 3 4 6#12⟩
      ∧ kdecode 0b10101100000001000100000000001000#32 = some ⟨pT, .st64 2 4 8#12⟩
      ∧ kdecode 0b11000000000000100010000000000001#32 = some ⟨pT, .scnt 1 2 .staging⟩
      ∧ kdecode 0b11000100000000100010000110000000#32 = some ⟨pT, .srd 1 2 3⟩
      ∧ kdecode 0b11001000000010000101001100000000#32 = some ⟨pT, .strd 4 5 6⟩ := by decide +kernel

theorem test_decode_output_words :
    kdecode 0b11010100000000001010101111001101#32 = some ⟨pT, .sig 0xABCD#16⟩
      ∧ kdecode 0b11011000000000100010000110000000#32 = some ⟨pT, .pins 1 2 3⟩
      ∧ kdecode 0b11011100000100100000000000000001#32 = some ⟨pT, .spix 9 1⟩
      ∧ kdecode 0b11100000001001000010001011111111#32 = some ⟨pT, .hpw 9 1 2 0xFF#8⟩
      ∧ kdecode 0b11100100000001110000010001111111#32 = some ⟨pT, .hpr 3 8 4 0x7F#8⟩
      ∧ kdecode 0b11101000000000000001000100000000#32 = some ⟨pT, .route 1 2⟩
      ∧ kdecode 0b11101100000000000001000100000001#32 = some ⟨pT, .enq 1 2 true⟩
      ∧ kdecode 0b11110000000001100100000000000000#32 = some ⟨pT, .qdep 3 4⟩
      ∧ kdecode 0b11110100000000100010000111111111#32 = some ⟨pT, .schd 1 2 3 127⟩
      ∧ kdecode 0b11111000000000100010000110000001#32 = some ⟨pT, .fire 1 2 3 .outputWord⟩
      ∧ kdecode 0b11111000000000100000000110000010#32 = some ⟨pT, .fire 1 0 3 .boundaryPlus⟩ := by decide +kernel

/-- R83: an unknown opcode, a bit in an unused field, an operand out of range. -/
theorem test_decode_refuses :
    [0b00011000000000000000000000000000#32,
      0b11111100000000000000000000000000#32,
      0b00000000000000000000000000000001#32,
      0b00000100000000010000000000000000#32,
      0b00001000000000000000000000000000#32,
      0b00001100000000000000000000000001#32,
      0b00001100000000000000010000000000#32,
      0b00100100000000100000000000001011#32,
      0b00101000000000100100000000000000#32,
      0b00101000000000100000000010000000#32,
      0b01000000000000100010000110001111#32,
      0b01000000000000100010000110001110#32,
      0b01100000000000100010000110000010#32,
      0b10000000000100000001000100000000#32,
      0b10001000000000100010000110000110#32,
      0b01010100000000100010000000100000#32,
      0b11100000001010000000000000000000#32,
      0b11111000000000100010000110000010#32,
      0b11111000000000100010000110000011#32,
      0b01101100000000100010000110000000#32].all (fun w => kdecode w == none) = true := by decide +kernel

/-! ### Ill-formed commands (WellFormed) -/

/-- A command within its ranges is well-formed. -/
theorem test_wf_accepts :
    (Instr.rep 0 pT 4095 1023).wf ∧ (Instr.pinsApply 0xFFFFF).wf ∧ (Instr.registerWrite .hcp 0xFFFFFFFF 0).wf
      ∧ (Instr.conversion 0 0 false (-524288) none none).wf ∧ (Instr.write 0 (List.replicate 256 0) false).wf := by decide +kernel

theorem test_wf_refuses_kiln_operands :
    ¬(Instr.br 0 pT 65536).wf ∧ ¬(Instr.skip 0 pT 0).wf ∧ ¬(Instr.skip 0 pT 1024).wf ∧ ¬(Instr.rep 0 pT 0 1).wf ∧ ¬(Instr.rep 0 pT 4096 1).wf ∧ ¬(Instr.rep 0 pT 1 0).wf
      ∧ ¬(Instr.rep 0 pT 1 1024).wf ∧ ¬(Instr.waitc 0 pT 0x100000).wf ∧ ¬(Instr.gets 0 pT 1 0xB).wf ∧ ¬(Instr.alu 0 pT 1 2 3 .abs).wf ∧ ¬(Instr.swd 0 pT 1 2 3 .data).wf
      ∧ ¬(Instr.flop 0 pT 1 0 3 .copy).wf ∧ ¬(Instr.flop 0 pT 1 2 0 .set).wf ∧ ¬(Instr.fire 0 pT 1 2 3 .boundaryPlus).wf := by decide

/-- Numbers wider than their field, signed and unsigned. -/
theorem test_wf_refuses_wide_numbers :
    ¬(Instr.pinsApply 0x100000).wf ∧ ¬(Instr.registerWrite .hcp 0x100000000 0).wf ∧ ¬(Instr.tickRateSet .hcp 0x20000 false).wf ∧ ¬(Instr.eventRecord .BUS_ADDR 0x10000 []).wf
      ∧ ¬(Instr.conversion 0 0 false (2 ^ 63) none none).wf ∧ ¬(Instr.conversion 0 0 false 0 (some (2 ^ 96)) none).wf ∧ ¬(Instr.conversion 0 0 false 0 none (some (-2 ^ 63 - 1))).wf
      ∧ ¬(Instr.bitlockMeasure 0 (2 ^ 31)).wf ∧ ¬(Instr.cmCheck 0 (-2147483649)).wf ∧ ¬(Instr.sensorSample 0 32768 true).wf ∧ ¬(Instr.sched (2 ^ 64) 0 0 0 false false).wf
      ∧ ¬(Instr.lcChange 256 0).wf ∧ ¬(Instr.trigkeySet (2 ^ 256)).wf := by decide +kernel

/-- Lists too long, and lists that may not be empty. -/
theorem test_wf_refuses_lengths :
    ¬(Instr.eventRecord .BUS_ADDR 0 (List.replicate 17 0)).wf ∧ ¬(Instr.tileLinkFrame 0 245761 true).wf ∧ ¬(Instr.write 0 [] false).wf
      ∧ ¬(Instr.fifoWrite 0 (List.replicate 257 0) false).wf ∧ ¬(Instr.spisWrite 0 [] false).wf ∧ ¬(Instr.senseRefCycleEnd 0 (List.replicate 25 ⟨0, 0, 0, 0⟩)).wf
      ∧ ¬(Instr.captureCopy 0 [(4192, 0)]).wf := by decide +kernel

theorem test_wf_refuses_frames :
    ¬(Instr.report ⟨0, 256, true⟩ (.epochNotice 0)).wf ∧ ¬(Instr.samples ⟨0, 0, true⟩ 0 0 [⟨0, 0, []⟩]).wf ∧ ¬(Instr.samples ⟨0, 0, true⟩ 0 0 [⟨65536, 0, [0]⟩]).wf
      ∧ ¬(Instr.armFrame ⟨true, 256, 0, 0, 0, 0⟩ 0 0 false).wf ∧ ¬(Instr.armFrame ⟨true, 0, 0, 2 ^ 32, 0, 0⟩ 0 0 false).wf ∧ ¬(Instr.fireFrame ⟨true, 0, 0, 0, 0, 2 ^ 64⟩ 0 .kiln).wf := by
  decide +kernel

/-! ### The spec's worked examples -/

/-- "Encodings from the example" (spec/03_kiln_instruction_set.md). -/
theorem test_example_encodings :
    kdecode 0x200A8480#32 = some ⟨pT, .ldi 5 false 0x8480#16⟩ ∧ kdecode 0x200B001E#32 = some ⟨pT, .ldi 5 true 0x001E#16⟩
      ∧ kdecode 0x0C004008#32 = some ⟨pT, .rep 16 8⟩ ∧ kdecode 0x80044284#32 = some ⟨pT, .cmp 2 4 5 .gt⟩
      ∧ kdecode 0xF90C1001#32 = some ⟨⟨2, false⟩, .fire 6 1 0 .outputWord⟩ := by decide +kernel

/-- The same example: the two `ldi` leave 0xFFFF_8480 and then 2,000,000 in K5. -/
theorem test_example_ldi :
    (match exec (.ldi 0 pT 5 false 0x8480#16) (withHearth (hk [])) with | .next t => (t.hearth 0).kr 5 | _ => 0) = 0xFFFF8480#32
      ∧ (match exec (.ldi 0 pT 5 true 0x001E#16) (withHearth (hk [(5, 0xFFFF8480#32)])) with | .next t => (t.hearth 0).kr 5 | _ => 0) = 2000000#32 := by
  decide +kernel

/-- Tick 12,345 of second 1,800,000,000 at the default rate starts 385,781,250 ns into that second (spec/02_tick.md). -/
theorem test_example_tick_instant :
    boundaryClock 32000 57600000012345 = (1800000000 * 1000000000 + 385781250) * 65536 := by decide +kernel

/-- C0.A's frames at F = 12,800 last 62,500 cycles; frames 625 to 937 of C10.A fall in tick 2 (spec/06_converters.md). -/
theorem test_example_frames :
    frameStart 12800 3 = 187500 ∧ frameStart 10000000 625 = 50000 ∧ frameStart 10000000 937 < 75000 ∧ 75000 ≤ frameStart 10000000 938 := by decide +kernel

/-- Outputs 1 to 3 of a resampler with L = 3 and M = 5 (spec/08_charcoal_filters.md). -/
theorem test_example_resampler : rsPos 3 5 1 = (1, 171) ∧ rsPos 3 5 2 = (3, 85) ∧ rsPos 3 5 3 = (5, 0) := by decide +kernel

/-- A full fragment over IPv4 makes a frame of 1,524 bytes, a header of 32 bytes included (spec/18_uplinks_and_host_ports.md). -/
theorem test_example_frame_bytes :
    let d : Dest := { mac := [1, 2, 3, 4, 5, 6], ip := [10, 0, 0, 1], port := 7 }
    (State.reset.udpFrame .stream [] d (List.replicate (32 + 1440) 0)).1.bytes = 1524 := by decide +kernel

/-- A bank's owner, the beats it has made, its ptr, and the hub with the level of KND as given. -/
def contest (knd : Nat) (o beats ptr : Nat) : State :=
  { State.reset.wf (F.ARB_RQr_CFG_LEVEL 11) knd with qmg.banks := tabSet (fun _ => none) State.reset.qmg.banks 5 (some ⟨some o, beats, ptr, []⟩) }

/-- Who owns bank 5 after the decision (`execBankDecision`'s) that sees the requests `l`. -/
def decided (s : State) (l : List Nat) : Option Nat := ((s.bankDecision 5 (BitVec.ofNat 16 (l.map (2 ^ ·)).sum)).arb 5).owner

/-- The contest on bank B5 (spec/15_arbitration.md): PRS1 4, KND 11, STK 14, SING 0. In cycle 102 KND at level 6 wins over PRS1, whose burst
has expired; in 104 it keeps the bank; in 105 SING wins; in 110 STK. Without the LEVEL write PRS1 wins in 102, and KND over STK in 103. -/
theorem test_example_contest :
    decided (contest 6 4 3 0) [4, 11, 14] = some 4 ∧ decided (contest 6 4 4 0) [4, 11, 14] = some 11 ∧ decided (contest 6 11 2 5) [11, 14] = some 11
      ∧ decided (contest 6 11 3 5) [0, 14] = some 0 ∧ decided (contest 6 0 5 12) [14] = some 14
      ∧ decided (contest 3 4 4 0) [4, 11, 14] = some 4 ∧ decided (contest 3 4 1 0) [11, 14] = some 11 := by decide +kernel

/-! ### Single steps -/

/-- R59: a write to K0 is discarded. -/
theorem test_k0_reads_zero :
    (match exec (.addi 0 pT 0 1 7#12) (withHearth (hk [(1, 5#32)])) with | .next t => ((t.hearth 0).kr 0, (t.hearth 0).pc) | _ => (9, 9)) = (0#32, 8) := by decide +kernel

/-- R89: `adds` clamps and sets SAT; `abs` of the most negative number is the largest. -/
theorem test_alu_saturates :
    (match exec (.alu 0 pT 3 1 1 .adds) (withHearth (hk [(1, 0x7FFFFFFF#32)])) with | .next t => ((t.hearth 0).kr 3, (t.hearth 0).sat) | _ => (0, false)) = (0x7FFFFFFF#32, true)
      ∧ (match exec (.alu 0 pT 3 1 0 .abs) (withHearth (hk [(1, 0x80000000#32)])) with | .next t => (t.hearth 0).kr 3 | _ => 0) = 0x7FFFFFFF#32 := by decide +kernel

/-- A step takes the command at the front and leaves the rest. -/
theorem test_step_takes_the_front :
    (match step (State.reset.withQueue [.pinsApply 0, .tailGuard]) with | .next t => t.pending | _ => []) = [.tailGuard] := by decide +kernel

end Sys2Proof.Tests
end

section
/-!
PROOFS. A register write under the access codes (R7 to R9): the word each code leaves, bit by bit, the one event of a discarded write, and
what a write to a register of the HUB and FNC blocks comes to.
-/
namespace Sys2Proof.Machine

open Sys2Proof

/-! ### The access codes, bit by bit -/

/-- The access codes of R8 that a row of the register tables keeps a mask for. -/
inductive AccCode where
  | rw | w1c | w1s | rwl | rof
  deriving DecidableEq

/-- Every access code. -/
def AccCode.all : List AccCode := [.rw, .w1c, .w1s, .rwl, .rof]

theorem AccCode.mem_all (c : AccCode) : c ∈ AccCode.all := by cases c <;> decide

/-- The bits of a register that carry an access code. -/
def codeMask (r : RegRow) : AccCode → Nat
  | .rw => r.rw
  | .w1c => r.w1c
  | .w1s => r.w1s
  | .rwl => r.rwl
  | .rof => r.rof

/-- No bit of the register carries two access codes. -/
def CodesApart (r : RegRow) : Prop := ∀ c ∈ AccCode.all, ∀ d ∈ AccCode.all, c ≠ d → codeMask r c &&& codeMask r d = 0

/-- A bit that carries one access code carries no other. -/
theorem CodesApart.testBit_codeMask {r : RegRow} (ha : CodesApart r) {c : AccCode} {k : Nat} (h : (codeMask r c).testBit k = true)
    (d : AccCode) : (codeMask r d).testBit k = decide (d = c) := by
  by_cases hdc : d = c
  · simp [hdc, h]
  · have hk := congrArg (·.testBit k) (ha d d.mem_all c c.mem_all hdc)
    simpa [hdc, h] using hk

theorem ones_getLsbD {k : Nat} (hk : k < 32) : (0xFFFFFFFF#32).getLsbD k = true := by
  rw [show 0xFFFFFFFF#32 = BitVec.allOnes 32 by decide, BitVec.getLsbD_allOnes]
  exact decide_eq_true hk

/-- The bits that a mask names and in which two words differ. -/
def Differs (mask : Nat) (old data : Word) : Prop := ∃ k < 32, mask.testBit k = true ∧ old.getLsbD k ≠ data.getLsbD k

/-- A whole word would change a field exactly when it differs there from what stands. -/
theorem changed_ones_iff (old data : Word) (mask : Nat) :
    changed old data 0xFFFFFFFF#32 (BitVec.ofNat 32 mask) = true ↔ Differs mask old data := by
  unfold changed
  rw [bne_iff_ne]
  constructor
  · intro h
    by_contra hd
    refine h (BitVec.eq_of_getLsbD_eq fun k hk => ?_)
    have hb : mask.testBit k = true → old.getLsbD k = data.getLsbD k := fun hm => by_contra fun hne => hd ⟨k, hk, hm, hne⟩
    rw [BitVec.getLsbD_and, BitVec.getLsbD_and, BitVec.getLsbD_xor, BitVec.getLsbD_ofNat 32 mask]
    cases hm : mask.testBit k
    · simp
    · simp [hb hm]
  · rintro ⟨k, hk, hm, hne⟩ h
    have hz : ((old ^^^ data) &&& 0xFFFFFFFF#32 &&& BitVec.ofNat 32 mask).getLsbD k = false := by rw [h]; exact BitVec.getLsbD_zero
    rw [BitVec.getLsbD_and, BitVec.getLsbD_and, BitVec.getLsbD_xor, ones_getLsbD hk, BitVec.getLsbD_ofNat 32 mask, hm] at hz
    exact hne (by simpa [hk] using hz)

theorem unlocked_iff (s : State) : s.unlocked = true ↔ s.f F.UMB_STAT_LC ≤ 1 := decide_eq_true_iff

/-- A bit of the word that a whole write leaves (R8). -/
theorem accWord_getLsbD (s : State) (r : RegRow) (old data : Word) {k : Nat} (hk : k < 32) :
    (s.accWord r old data 0xFFFFFFFF#32).getLsbD k =
      ((bif (codeMask r .rw).testBit k || (s.unlocked && (codeMask r .rwl).testBit k) then data.getLsbD k else old.getLsbD k)
          && !(data.getLsbD k && (codeMask r .w1c).testBit k)
        || (data.getLsbD k && (codeMask r .w1s).testBit k)) := by
  have hset : (if s.unlocked then BitVec.ofNat 32 r.rwl else 0#32).getLsbD k = (s.unlocked && r.rwl.testBit k) := by
    cases s.unlocked
    · simp
    · simp only [if_true, BitVec.getLsbD_ofNat, hk, decide_true, Bool.true_and]
  unfold State.accWord merge
  simp only [codeMask, BitVec.getLsbD_or, BitVec.getLsbD_and, BitVec.getLsbD_not, hset, ones_getLsbD hk, BitVec.getLsbD_ofNat, hk, decide_true,
    Bool.true_and, Bool.and_true]
  cases r.rw.testBit k || (s.unlocked && r.rwl.testBit k) <;> simp

section Codes
variable (s : State) {r : RegRow} (old data : Word) {k : Nat}

theorem accWord_rw (ha : CodesApart r) (hk : k < 32) (h : (codeMask r .rw).testBit k = true) :
    (s.accWord r old data 0xFFFFFFFF#32).getLsbD k = data.getLsbD k := by
  simp [accWord_getLsbD s r old data hk, ha.testBit_codeMask h]

theorem accWord_w1c (ha : CodesApart r) (hk : k < 32) (h : (codeMask r .w1c).testBit k = true) :
    (s.accWord r old data 0xFFFFFFFF#32).getLsbD k = (old.getLsbD k && !data.getLsbD k) := by
  simp [accWord_getLsbD s r old data hk, ha.testBit_codeMask h]

theorem accWord_w1s (ha : CodesApart r) (hk : k < 32) (h : (codeMask r .w1s).testBit k = true) :
    (s.accWord r old data 0xFFFFFFFF#32).getLsbD k = (old.getLsbD k || data.getLsbD k) := by
  simp [accWord_getLsbD s r old data hk, ha.testBit_codeMask h]

theorem accWord_rwl_unlocked (ha : CodesApart r) (hk : k < 32) (h : (codeMask r .rwl).testBit k = true) (hu : s.unlocked = true) :
    (s.accWord r old data 0xFFFFFFFF#32).getLsbD k = data.getLsbD k := by
  simp [accWord_getLsbD s r old data hk, ha.testBit_codeMask h, hu]

theorem accWord_rwl_locked (ha : CodesApart r) (hk : k < 32) (h : (codeMask r .rwl).testBit k = true) (hu : s.unlocked = false) :
    (s.accWord r old data 0xFFFFFFFF#32).getLsbD k = old.getLsbD k := by
  simp [accWord_getLsbD s r old data hk, ha.testBit_codeMask h, hu]

theorem accWord_rof (ha : CodesApart r) (hk : k < 32) (h : (codeMask r .rof).testBit k = true) :
    (s.accWord r old data 0xFFFFFFFF#32).getLsbD k = old.getLsbD k := by
  simp [accWord_getLsbD s r old data hk, ha.testBit_codeMask h]

/-- A bit without a code that a write acts through stays. -/
theorem accWord_uncoded (hk : k < 32) (hrw : (codeMask r .rw).testBit k = false) (hw1c : (codeMask r .w1c).testBit k = false)
    (hw1s : (codeMask r .w1s).testBit k = false) (hrwl : (codeMask r .rwl).testBit k = false) :
    (s.accWord r old data 0xFFFFFFFF#32).getLsbD k = old.getLsbD k := by
  simp [accWord_getLsbD s r old data hk, hrw, hw1c, hw1s, hrwl]

end Codes

/-! ### The event of a discarded write (R9) -/

theorem emitFrom_evq (s : State) (n : EvName) (block obj : Nat) (d : List Int) (h : evqDepth s.hub.evq + eventEntries n ≤ 4096) :
    (s.emitFrom n block obj d).hub.evq = s.hub.evq ++ [s.mkEvent n block obj d] := by
  have hname : (s.mkEvent n block obj d).name = n := rfl
  unfold State.emitFrom State.present
  dsimp only
  rw [hname, latchFor_hub, if_pos h]
  rfl

/-- The record that a write of a whole word leaves when it would change a field it may not set. -/
def State.noteDiscard (s : State) (r : RegRow) (m a : Nat) (data : Word) : State :=
  if hitsFence r (s.rd a) data 0xFFFFFFFF#32 then s.emitFrom .FENCE_WRITE (blockOf a) 0 [(a : Int), (m : Int)]
  else if s.hitsLock r (s.rd a) data 0xFFFFFFFF#32 then s.emitFrom .ACCESS_LOCKED (blockOf a) 0 [(a : Int), (m : Int)] else s

section Discard
variable (s : State) (r : RegRow) (m a : Nat) (data : Word)

theorem hitsFence_iff (old : Word) : hitsFence r old data 0xFFFFFFFF#32 = true ↔ Differs r.rof old data := changed_ones_iff old data r.rof

theorem hitsLock_iff (old : Word) :
    s.hitsLock r old data 0xFFFFFFFF#32 = true ↔ ¬s.f F.UMB_STAT_LC ≤ 1 ∧ Differs r.rwl old data := by
  unfold State.hitsLock
  rw [Bool.and_eq_true, Bool.not_eq_true', ← Bool.not_eq_true, unlocked_iff, changed_ones_iff]

theorem noteDiscard_fenced (h : Differs r.rof (s.rd a) data) :
    s.noteDiscard r m a data = s.emitFrom .FENCE_WRITE (blockOf a) 0 [(a : Int), (m : Int)] :=
  if_pos ((hitsFence_iff r data _).2 h)

theorem noteDiscard_locked (hf : ¬Differs r.rof (s.rd a) data) (hl : ¬s.f F.UMB_STAT_LC ≤ 1) (h : Differs r.rwl (s.rd a) data) :
    s.noteDiscard r m a data = s.emitFrom .ACCESS_LOCKED (blockOf a) 0 [(a : Int), (m : Int)] := by
  unfold State.noteDiscard
  rw [if_neg (mt (hitsFence_iff r data _).1 hf), if_pos ((hitsLock_iff s r data _).2 ⟨hl, h⟩)]

theorem noteDiscard_none (hf : ¬Differs r.rof (s.rd a) data) (hl : s.f F.UMB_STAT_LC ≤ 1 ∨ ¬Differs r.rwl (s.rd a) data) :
    s.noteDiscard r m a data = s := by
  have hlock : ¬(¬s.f F.UMB_STAT_LC ≤ 1 ∧ Differs r.rwl (s.rd a) data) := by
    rintro ⟨hn, hd⟩
    exact hl.elim hn fun hnd => hnd hd
  unfold State.noteDiscard
  rw [if_neg (mt (hitsFence_iff r data _).1 hf), if_neg (mt (hitsLock_iff s r data _).1 hlock)]

theorem noteDiscard_records : Records s (s.noteDiscard r m a data) := by
  unfold State.noteDiscard
  split
  · exact emitFrom_records ..
  · split
    · exact emitFrom_records ..
    · exact Records.rfl'

end Discard

/-- Recording an event leaves the lock of the RW-L fields, and with it the word that a write leaves. -/
theorem Records.accWord {s t : State} (h : Records s t) (r : RegRow) (old data mask : Word) :
    t.accWord r old data mask = s.accWord r old data mask := by
  have hu : t.unlocked = s.unlocked := by
    unfold State.unlocked State.f
    rw [h.rd F.UMB_STAT_LC.addr (by decide)]
  unfold State.accWord
  rw [hu]

/-! ### A write to the HUB or FNC block -/

theorem findRow_mem {l : List RegRow} {a i : Nat} {r : RegRow} (h : findRow l a = some (r, i)) : r ∈ l := by
  induction l with
  | nil => exact absurd h (by simp [findRow])
  | cons x xs ih =>
    unfold findRow at h
    split at h
    · split at h
      · obtain ⟨rfl, -⟩ := Prod.mk.inj (Option.some.inj h)
        exact List.mem_cons_self
      · exact List.mem_cons_of_mem _ (ih h)
    · exact List.mem_cons_of_mem _ (ih h)

/-- The address lies in the HUB or FNC block, where registers are (R537). -/
def InHubFnc (a : Nat) : Prop := a < 0x8000 ∨ (0x1300000 ≤ a ∧ a < 0x1400000)

theorem rowOf_mem_of_inHubFnc {a i : Nat} {r : RegRow} (h : InHubFnc a) (hr : rowOf a = some (r, i)) : r ∈ regRowsHUB ++ regRowsFNC := by
  have hlt : a < 0x100000000 := by unfold InHubFnc at h; omega
  rw [rowOf, Nat.mod_eq_of_lt hlt] at hr
  have hm := findRow_mem hr
  unfold blockRows at hm
  rcases h with h | ⟨hlo, hhi⟩
  · rw [if_pos (by omega), if_pos (by omega)] at hm
    exact List.mem_append_left _ hm
  · have hq : a / 0x100000 = 19 := by omega
    rw [if_neg (by omega), hq] at hm
    exact List.mem_append_right _ hm

/-- No register of the two blocks has a copy for each master, waits for a boundary, is checked by its block, or mixes codes in a bit. -/
theorem hubFnc_rows : ∀ r ∈ regRowsHUB ++ regRowsFNC,
    isPrivate r.base = false ∧ heldReg r.base = false ∧ (blockOf r.base = 0x00 ∨ blockOf r.base = 0x13) ∧ CodesApart r := by
  unfold CodesApart
  decide

/-- A register of a block without checks, which waits for no boundary, takes the word that the access codes leave. -/
theorem wrBlock_eq_wr (s : State) (x : Wr) (hb : blockOf x.base = 0x00 ∨ blockOf x.base = 0x13) (hh : heldReg x.base = false)
    (hw : s.afeWaits x.addr = false) : s.wrBlock x = s.wr x.addr x.new := by
  have hs : s.wrBlock x = s.store x x.new := by
    unfold State.wrBlock
    rcases hb with hb | hb <;> simp only [hb]
  rw [hs]
  simp [State.store, hh, hw]

/-- A write to a register of the two blocks: the event of a discarded write, then the word that the access codes leave. -/
theorem hostWrite_hubFnc (s : State) (m : Nat) {a i : Nat} (data : Word) {r : RegRow} (ha : a % 4 = 0) (hin : InHubFnc a)
    (hr : rowOf a = some (r, i)) (ht : s.umb.thermal = false) (hh : s.umb.held = false) :
    s.hostWrite m a data = (s.noteDiscard r m a data).wr a (s.accWord r (s.rd a) data 0xFFFFFFFF#32) := by
  obtain ⟨hpriv, hheld, hblk, -⟩ := hubFnc_rows r (rowOf_mem_of_inHubFnc hin hr)
  unfold InHubFnc at hin
  have hmap : (reserved a || stkDenied m a) = false := by
    simp only [reserved, stkDenied, Bool.or_eq_false_iff, Bool.and_eq_false_iff, decide_eq_false_iff_not]
    omega
  have hwaits : ∀ t : State, t.afeWaits a = false := by
    intro t
    simp only [State.afeWaits, Bool.and_eq_false_iff, decide_eq_false_iff_not]
    omega
  have humb : (s.umb.down && decide (0x10000 ≤ a) && decide (a < 0x20000)) = false := by
    simp only [Bool.and_eq_false_iff, decide_eq_false_iff_not]
    omega
  have hacc := (noteDiscard_records s r m a data).accWord r (s.rd a) data 0xFFFFFFFF#32
  unfold State.hostWrite State.busWrite
  rw [if_neg (by simp [ha, State.busDown, ht, hh]), hmap, humb, hr]
  simp only [hpriv, Bool.false_eq_true, if_false]
  rw [← hacc]
  exact wrBlock_eq_wr _ _ hblk hheld (hwaits _)

theorem exec_registerWrite (m : Master) (a : Nat) (data : Word) (s : State) :
    exec (.registerWrite m a data) s = .next (s.hostWrite (masterCode m) a data) := rfl

end Sys2Proof.Machine
end

section
open Sys2Proof Sys2Proof.Machine

/-- Settles O30: a write to a register of the two blocks is the event of a discarded write and the word of the access codes, read bit by bit. -/
theorem busWriteObeysAccessCodes : Obligations.BusWriteObeysAccessCodes := by
  unfold Obligations.BusWriteObeysAccessCodes
  intro s m a data r i ha hin hr ht hh
  dsimp only
  obtain ⟨-, -, -, hapart⟩ := hubFnc_rows r (rowOf_mem_of_inHubFnc hin hr)
  rw [exec_registerWrite, hostWrite_hubFnc s (masterCode m) data ha hin hr ht hh]
  refine ⟨_, rfl, ?_, ?_, ?_, ?_⟩
  · intro k hk
    rw [State.rd_wr_same]
    refine ⟨accWord_rw s _ data hapart hk, accWord_w1c s _ data hapart hk, accWord_w1s s _ data hapart hk, ?_, ?_,
      accWord_rof s _ data hapart hk, ?_⟩
    · exact fun h hopen => accWord_rwl_unlocked s _ data hapart hk h ((unlocked_iff s).2 hopen)
    · exact fun h hopen => accWord_rwl_locked s _ data hapart hk h (Bool.eq_false_iff.2 (mt (unlocked_iff s).1 hopen))
    · exact accWord_uncoded s _ data hk
  · intro hf hroom
    rw [State.wr_hub, noteDiscard_fenced s r _ a data hf]
    exact ⟨_, rfl, emitFrom_evq _ _ _ _ _ hroom⟩
  · intro hf hl hd hroom
    rw [State.wr_hub, noteDiscard_locked s r _ a data hf hl hd]
    exact ⟨_, rfl, emitFrom_evq _ _ _ _ _ hroom⟩
  · intro hf hl
    rw [noteDiscard_none s r _ a data hf hl]
    exact ⟨rfl, fun b hb => State.rd_wr_ne _ _ hb⟩

end

section
/-!
PROOFS. The hub's bounds (R21, R49, R455) as an invariant: every command keeps what `Keeps` names, and so every step keeps the hub safe.
-/
namespace Sys2Proof.Machine

open Sys2Proof

/-- The commands that emit a boundary (R30, R33, R38) or reset the hub with its tick number (R527). -/
def movesTick : Instr → Bool
  | .tickBoundary | .tickGeneratorStart | .holdResume | .hubReset .. | .powerUp .. | .umbRst .. | .thermalTrip .. | .lcChange .. => true
  | _ => false

/-- Every command keeps the queue behind it and the hub's bounds, and all but those of `movesTick` the tick number. -/
theorem exec_keeps (c : Instr) (s : State) : Keeps.out (!movesTick c) s (exec c s) :=
  have keep {b : Bool} : Keeps b s s := Keeps.rfl'
  match c with
  | .tickBoundary => execTickBoundary_keeps keep
  | .stagingClose meas => execStagingClose_keeps meas keep
  | .kilnTickStart => execKilnTickStart_keeps keep
  | .tailGuard => execTailGuard_keeps keep
  | .kilnParity h => execKilnParity_keeps h keep
  | .nop h p => execNop_keeps h p keep
  | .br h p off => execBr_keeps h p off keep
  | .skip h p n => execSkip_keeps h p n keep
  | .rep h p count len => execRep_keeps h p count len keep
  | .waitc h p cyc => execWaitc_keeps h p cyc keep
  | .endTick h p => execEndTick_keeps h p keep
  | .ldi h p d hi imm => execLdi_keeps h p d hi imm keep
  | .gets h p d sel => execGets_keeps h p d sel keep
  | .alu h p d sr t fn => execAlu_keeps h p d sr t fn keep
  | .addi h p d sr imm => execAddi_keeps h p d sr imm keep
  | .andi h p d sr imm => execAndi_keeps h p d sr imm keep
  | .ori h p d sr imm => execOri_keeps h p d sr imm keep
  | .xori h p d sr imm => execXori_keeps h p d sr imm keep
  | .shli h p d sr sh => execShli_keeps h p d sr sh keep
  | .shri h p d sr sh => execShri_keeps h p d sr sh keep
  | .srai h p d sr sh => execSrai_keeps h p d sr sh keep
  | .mul h p a sr t u => execMul_keeps h p a sr t u keep
  | .mac h p a sr t u neg => execMac_keeps h p a sr t u neg keep
  | .clra h p a => execClra_keeps h p a keep
  | .lda h p a sr t => execLda_keeps h p a sr t keep
  | .mva h p d a sh rnd => execMva_keeps h p d a sh rnd keep
  | .cmp h p f sr t c => execCmp_keeps h p f sr t c keep
  | .cmpi h p f sr imm c => execCmpi_keeps h p f sr imm c keep
  | .flop h p f a b fn => execFlop_keeps h p f a b fn keep
  | .tstb h p f sr bit => execTstb_keeps h p f sr bit keep
  | .swd h p d sr t fn => execSwd_keeps h p d sr t fn keep
  | .ld h p d sr imm => execLd_keeps h p d sr imm keep
  | .st h p t sr imm => execSt_keeps h p t sr imm keep
  | .ld64 h p a sr imm => execLd64_keeps h p a sr imm keep
  | .st64 h p a sr imm => execSt64_keeps h p a sr imm keep
  | .scnt h p d c view => execScnt_keeps h p d c view keep
  | .srd h p d c ix => execSrd_keeps h p d c ix keep
  | .strd h p d c ix => execStrd_keeps h p d c ix keep
  | .route h p c q => execRoute_keeps h p c q keep
  | .enq h p q v eop => execEnq_keeps h p q v eop keep
  | .qdep h p d q => execQdep_keeps h p d q keep
  | .schd h p d sr t off => execSchd_keeps h p d sr t off keep
  | .fire h p u c ix mode => execFire_keeps h p u c ix mode keep
  | .pins h p m v o => execPins_keeps h p m v o keep
  | .spix h p k m => execSpix_keeps h p k m keep
  | .sig h p imm => execSig_keeps h p imm keep
  | .hpw h p port sr t off => execHpw_keeps h p port sr t off keep
  | .hpr h p d port sr off => execHpr_keeps h p d port sr off keep
  | .postedDrain h => execPostedDrain_keeps h keep
  | .pinsApply cyc => execPinsApply_keeps cyc keep
  | .registerWrite m addr data => execRegisterWrite_keeps m addr data keep
  | .busAddrAccess m addr write => execBusAddrAccess_keeps m addr write keep
  | .tickLoRead m now => execTickLoRead_keeps m now keep
  | .tramBusRead m w => execTramBusRead_keeps m w keep
  | .tickRateSet m rate run => execTickRateSet_keeps m rate run keep
  | .tickRunStart m => execTickRunStart_keeps m keep
  | .tickStop => execTickStop_keeps keep
  | .tickGeneratorStart => execTickGeneratorStart_keeps keep
  | .schedCommit m lateOk cancel => execSchedCommit_keeps m lateOk cancel keep
  | .schedCancel m => execSchedCancel_keeps m keep
  | .loadStart m bank abort => execLoadStart_keeps m bank abort keep
  | .loadAbort m => execLoadAbort_keeps m keep
  | .loadData m data => execLoadData_keeps m data keep
  | .loadTimeout => execLoadTimeout_keeps keep
  | .loadCheckDone => execLoadCheckDone_keeps keep
  | .bankWrite m bank word => execBankWrite_keeps m bank word keep
  | .swapRequest m bank => execSwapRequest_keeps m bank keep
  | .tileLinkFrame t n ok => execTileLinkFrame_keeps t n ok keep
  | .tileDown t => execTileDown_keeps t keep
  | .tileUp t => execTileUp_keeps t keep
  | .stokerRestart cause => execStokerRestart_keeps cause keep
  | .eventRecord n obj detail => execEventRecord_keeps n obj detail keep
  | .stokerForwardEvent => execStokerForwardEvent_keeps keep
  | .commonCauseEnd n => execCommonCauseEnd_keeps n keep
  | .gapForward => execGapForward_keeps keep
  | .settleEnd c => execSettleEnd_keeps c keep
  | .cmCheck c mv => execCmCheck_keeps c mv keep
  | .excComply x => execExcComply_keeps x keep
  | .excLimit d => execExcLimit_keeps d keep
  | .excLimitEnd d => execExcLimitEnd_keeps d keep
  | .utSelect m sel => execUtSelect_keeps m sel keep
  | .codePeriodEnd c => execCodePeriodEnd_keeps c keep
  | .conversion c j old input ovr spare => execConversion_keeps c j old input ovr spare keep
  | .coreStartUp q => execCoreStartUp_keeps q keep
  | .estimatorBlock tile cluster core => execEstimatorBlock_keeps tile cluster core keep
  | .visitRequest m n duty force => execVisitRequest_keeps m n duty force keep
  | .spareRunRequest m n => execSpareRunRequest_keeps m n keep
  | .visitCancel m n => execVisitCancel_keeps m n keep
  | .rotationRequest n => execRotationRequest_keeps n keep
  | .tempTriggerEval => execTempTriggerEval_keeps keep
  | .visitBegin t => execVisitBegin_keeps t keep
  | .matchCheck n => execMatchCheck_keeps n keep
  | .shadowShort n => execShadowShort_keeps n keep
  | .visitRetry n duty => execVisitRetry_keeps n duty keep
  | .coreCalDone t m0 m1 ovl => execCoreCalDone_keeps t m0 m1 ovl keep
  | .coreRunRetry n => execCoreRunRetry_keeps n keep
  | .senseRefCycleEnd t means => execSenseRefCycleEnd_keeps t means keep
  | .startZero m => execStartZero_keeps m keep
  | .startFull m => execStartFull_keeps m keep
  | .finish m => execFinish_keeps m keep
  | .abort m => execAbort_keeps m keep
  | .calPhaseEnd => execCalPhaseEnd_keeps keep
  | .calSysTimeout => execCalSysTimeout_keeps keep
  | .load m c => execLoad_keeps m c keep
  | .edit m bank => execEdit_keeps m bank keep
  | .seal m bank => execSeal_keeps m bank keep
  | .chrBankSealDone bank => execChrBankSealDone_keeps bank keep
  | .chrBankWrite m bank off data => execChrBankWrite_keeps m bank off data keep
  | .chrSwapRequest m bank => execChrSwapRequest_keeps m bank keep
  | .detectorWindowEnd d => execDetectorWindowEnd_keeps d keep
  | .laneDisable m l => execLaneDisable_keeps m l keep
  | .retrain m l => execRetrain_keeps m l keep
  | .laneLpRequest m l smoulder => execLaneLpRequest_keeps m l smoulder keep
  | .laneLpWake m l => execLaneLpWake_keeps m l keep
  | .detectWindow l seen => execDetectWindow_keeps l seen keep
  | .trainingFrame l f adapted want => execTrainingFrame_keeps l f adapted want keep
  | .trainTimeout l => execTrainTimeout_keeps l keep
  | .bitlockMeasure l ppb => execBitlockMeasure_keeps l ppb keep
  | .bitlockTimeout l => execBitlockTimeout_keeps l keep
  | .blockReceived l hdr => execBlockReceived_keeps l hdr keep
  | .blockLockTimeout l => execBlockLockTimeout_keeps l keep
  | .capsBlock l version rates flags => execCapsBlock_keeps l version rates flags keep
  | .capsTimeout l => execCapsTimeout_keeps l keep
  | .lossOfSignal l => execLossOfSignal_keeps l keep
  | .relockTimeout l => execRelockTimeout_keeps l keep
  | .holdEnd l => execHoldEnd_keeps l keep
  | .failsClearActive l => execFailsClearActive_keeps l keep
  | .farAbsent l => execFarAbsent_keeps l keep
  | .lpBlock l mode ack => execLpBlock_keeps l mode ack keep
  | .lpNoack l => execLpNoack_keeps l keep
  | .wakeFail l => execWakeFail_keeps l keep
  | .laneWakeFar l => execLaneWakeFar_keeps l keep
  | .relightDone l => execRelightDone_keeps l keep
  | .discoverSend l long => execDiscoverSend_keeps l long keep
  | .nodeInfo f serial model twoPorts epoch chans => execNodeInfo_keeps f serial model twoPorts epoch chans keep
  | .samples f tick epoch groups => execSamples_keeps f tick epoch groups keep
  | .report f r => execReport_keeps f r keep
  | .reply f epoch cseq result value => execReply_keeps f epoch cseq result value keep
  | .routeExpiry p l => execRouteExpiry_keeps p l keep
  | .commandRetry cseq => execCommandRetry_keeps cseq keep
  | .join sl => execJoin_keeps sl keep
  | .leave sl lead => execLeave_keeps sl lead keep
  | .slotSet m sl ncfg data => execSlotSet_keeps m sl ncfg data keep
  | .mirrorLag mseq => execMirrorLag_keeps mseq keep
  | .heartbeat b => execHeartbeat_keeps b keep
  | .stewardTakeSilence => execStewardTakeSilence_keeps keep
  | .take m => execTake_keeps m keep
  | .mirrorRecord mseq r => execMirrorRecord_keeps mseq r keep
  | .mirrorResend => execMirrorResend_keeps keep
  | .slateUp => execSlateUp_keeps keep
  | .ptpSync u h src seq twoStep origin corr stamp => execPtpSync_keeps u h src seq twoStep origin corr stamp keep
  | .ptpFollowUp u h src seq origin corr => execPtpFollowUp_keeps u h src seq origin corr keep
  | .ptpAnnounce u h a => execPtpAnnounce_keeps u h a keep
  | .ptpDelayResp u h src seq receipt corr => execPtpDelayResp_keeps u h src seq receipt corr keep
  | .ptpPdelayReq u h seq ingress egress => execPtpPdelayReq_keeps u h seq ingress egress keep
  | .ptpPdelayResp u h seq turn corr stamp => execPtpPdelayResp_keeps u h seq turn corr stamp keep
  | .ptpReqSend u egress => execPtpReqSend_keeps u egress keep
  | .followUpTimeout u seq => execFollowUpTimeout_keeps u seq keep
  | .announceTimeout u => execAnnounceTimeout_keeps u keep
  | .syncTimeout => execSyncTimeout_keeps keep
  | .servoUpdateTimeout => execServoUpdateTimeout_keeps keep
  | .portCompare => execPortCompare_keeps keep
  | .timeOffset => execTimeOffset_keeps keep
  | .go m mode cancel => execGo_keeps m mode cancel keep
  | .cancel m => execCancel_keeps m keep
  | .restepApply => execRestepApply_keeps keep
  | .holdResume => execHoldResume_keeps keep
  | .restepAuthExpiry => execRestepAuthExpiry_keeps keep
  | .probeSend l depart => execProbeSend_keeps l depart keep
  | .echo l seq arrive turn => execEcho_keeps l seq arrive turn keep
  | .probeTimeout l seq => execProbeTimeout_keeps l seq keep
  | .edgeArrival sr rise e => execEdgeArrival_keeps sr rise e keep
  | .edgeRelease => execEdgeRelease_keeps keep
  | .intervalTimeout ix => execIntervalTimeout_keeps ix keep
  | .groupWindowTimeout g => execGroupWindowTimeout_keeps g keep
  | .groupHoldoffEnd g => execGroupHoldoffEnd_keeps g keep
  | .arm m u lateOk send => execArm_keeps m u lateOk send keep
  | .disarm m u send => execDisarm_keeps m u send keep
  | .fireRequest u time cause => execFireRequest_keeps u time cause keep
  | .settleIntervalEnd u => execSettleIntervalEnd_keeps u keep
  | .armFrame f pre post disarm => execArmFrame_keeps f pre post disarm keep
  | .fireFrame f time cause => execFireFrame_keeps f time cause keep
  | .captureCopy u bad => execCaptureCopy_keeps u bad keep
  | .captureTruncate u => execCaptureTruncate_keeps u keep
  | .captureEnd u => execCaptureEnd_keeps u keep
  | .start m => execStart_keeps m keep
  | .apply m => execApply_keeps m keep
  | .skewAbort m => execSkewAbort_keeps m keep
  | .skewPulse => execSkewPulse_keeps keep
  | .skewRunDone => execSkewRunDone_keeps keep
  | .queueFlush m q force => execQueueFlush_keeps m q force keep
  | .queueDisable m q => execQueueDisable_keeps m q keep
  | .hostWindowBind m n q en => execHostWindowBind_keeps m n q en keep
  | .hostWindowRead m n => execHostWindowRead_keeps m n keep
  | .itemReady q single double => execItemReady_keeps q single double keep
  | .spill q => execSpill_keeps q keep
  | .fill q => execFill_keeps q keep
  | .blockTransferDone q fill => execBlockTransferDone_keeps q fill keep
  | .backlogTrained intact => execBacklogTrained_keeps intact keep
  | .histSet m mib => execHistSet_keeps m mib keep
  | .starvation r b => execStarvation_keeps r b keep
  | .pressTakeItem e => execPressTakeItem_keeps e keep
  | .briquetteAgeClose q => execBriquetteAgeClose_keeps q keep
  | .verifyDone ix code => execVerifyDone_keeps ix code keep
  | .retrievalDone ix => execRetrievalDone_keeps ix keep
  | .controllerInit n c => execControllerInit_keeps n c keep
  | .cordRecovery r => execCordRecovery_keeps r keep
  | .cordTakeItem => execCordTakeItem_keeps keep
  | .unitAgeClose id => execUnitAgeClose_keeps id keep
  | .writeComplete id status => execWriteComplete_keeps id status keep
  | .writeTimeout id => execWriteTimeout_keeps id keep
  | .epochEnd => execEpochEnd_keeps keep
  | .add m format => execAdd_keeps m format keep
  | .remove m x => execRemove_keeps m x keep
  | .controllerFailed n => execControllerFailed_keeps n keep
  | .controllerRetry n c => execControllerRetry_keeps n c keep
  | .release m p => execRelease_keeps m p keep
  | .jobSubmit m kind strict q => execJobSubmit_keeps m kind strict q keep
  | .readComplete id r => execReadComplete_keeps id r keep
  | .streamSend => execStreamSend_keeps keep
  | .commit m lateOk cancel => execCommit_keeps m lateOk cancel keep
  | .launchCancel m sl => execLaunchCancel_keeps m sl keep
  | .launchSlot sl e0 e1 => execLaunchSlot_keeps sl e0 e1 keep
  | .uplinkLinkChange u link fit => execUplinkLinkChange_keeps u link fit keep
  | .uplinkStall q => execUplinkStall_keeps q keep
  | .prpSupervision => execPrpSupervision_keeps keep
  | .frameReceive u src tr kind => execFrameReceive_keeps u src tr kind keep
  | .hcpMessage session mseq tagOk fits ty => execHcpMessage_keeps session mseq tagOk fits ty keep
  | .read addr n stop => execRead_keeps addr n stop keep
  | .write addr data stop => execWrite_keeps addr data stop keep
  | .fifoWrite addr data stop => execFifoWrite_keeps addr data stop keep
  | .fifoRead addr n stop => execFifoRead_keeps addr n stop keep
  | .sched tick addr data mask lateOk stop => execSched_keeps tick addr data mask lateOk stop keep
  | .hcpReassembly id => execHcpReassembly_keeps id keep
  | .notice => execNotice_keeps keep
  | .spisRead a n late => execSpisRead_keeps a n late keep
  | .spisWrite a bytes slow => execSpisWrite_keeps a bytes slow keep
  | .spisFetchDone => execSpisFetchDone_keeps keep
  | .spimTransaction m cyc => execSpimTransaction_keeps m cyc keep
  | .spimTransactionEnd m rx => execSpimTransactionEnd_keeps m rx keep
  | .sensorSample k v ack => execSensorSample_keeps k v ack keep
  | .thermalTrip sel25 compat => execThermalTrip_keeps sel25 compat keep
  | .thermalRelease => execThermalRelease_keeps keep
  | .logPageStart => execLogPageStart_keeps keep
  | .logPageCommit => execLogPageCommit_keeps keep
  | .logRecovery found => execLogRecovery_keeps found keep
  | .submit m len => execSubmit_keeps m len keep
  | .mailboxRlenRead m => execMailboxRlenRead_keeps m keep
  | .umbMboxReleased => execUmbMboxReleased_keeps keep
  | .openSession key perm life sigOk => execOpenSession_keeps key perm life sigOk keep
  | .closeSession => execCloseSession_keeps keep
  | .logRead seq n => execLogRead_keeps seq n keep
  | .keySet sl mask pub => execKeySet_keeps sl mask pub keep
  | .trigkeySet key => execTrigkeySet_keeps key keep
  | .updBegin type total => execUpdBegin_keeps type total keep
  | .updData offset bytes => execUpdData_keeps offset bytes keep
  | .updEnd c => execUpdEnd_keeps c keep
  | .activate type tick => execActivate_keeps type tick keep
  | .imageCommit type => execImageCommit_keeps type keep
  | .lcChange dst timeout => execLcChange_keeps dst timeout keep
  | .fenceWrite addr value => execFenceWrite_keeps addr value keep
  | .restepAuth dir most expiry => execRestepAuth_keeps dir most expiry keep
  | .sessionExpiry id => execSessionExpiry_keeps id keep
  | .updateAbandoned => execUpdateAbandoned_keeps keep
  | .serviceTimeout => execServiceTimeout_keeps keep
  | .stokerRelease => execStokerRelease_keeps keep
  | .healthReport => execHealthReport_keeps keep
  | .updateReverted => execUpdateReverted_keeps keep
  | .umberTrialTimeout => execUmberTrialTimeout_keeps keep
  | .xrefLost => execXrefLost_keeps keep
  | .xrefOk => execXrefOk_keeps keep
  | .refclkLost => execRefclkLost_keeps keep
  | .refclkOk => execRefclkOk_keeps keep
  | .uxtalLost => execUxtalLost_keeps keep
  | .uxtalOk => execUxtalOk_keeps keep
  | .smpUnlock => execSmpUnlock_keeps keep
  | .smpLock => execSmpLock_keeps keep
  | .powerUp refOk sel25 compat => execPowerUp_keeps refOk sel25 compat keep
  | .hubReset cause sel25 compat => execHubReset_keeps cause sel25 compat keep
  | .umbRst sel25 compat => execUmbRst_keeps sel25 compat keep
  | .domainReset d => execDomainReset_keeps d keep
  | .domainResetRelease d => execDomainResetRelease_keeps d keep
  | .rstReq m slt pcie ddr up => execRstReq_keeps m slt pcie ddr up keep
  | .stokerRunning => execStokerRunning_keeps keep
  | .bankDecision b req => execBankDecision_keeps b req keep
  | .archiveDown => execArchiveDown_keeps keep
  | .nodeBoundFrame l => execNodeBoundFrame_keeps l keep
  | .trainDone l => execTrainDone_keeps l keep
  | .capsSend l => execCapsSend_keeps l keep
  | .umberRestartDone => execUmberRestartDone_keeps keep
  | .excitationRailMove d high => execExcitationRailMove_keeps d high keep
/-- What comes from a safe state with the bounds kept is safe. -/
theorem Keeps.safe {b : Bool} {s t : State} (h : Keeps b s t) (hs : s.safe) : t.safe := by
  obtain ⟨hmem, hevq, hgaps, hitems⟩ := hs
  exact ⟨h.mem hmem, h.evq hevq, h.gaps hgaps, h.items hitems⟩

theorem exec_keeps_safe {c : Instr} {s t : State} (hs : s.safe) (h : exec c s = .next t) : t.safe := by
  have k := exec_keeps c s
  rw [h] at k
  exact Keeps.safe k hs

theorem safe_withQueue (s : State) (q : List Instr) : (s.withQueue q).safe ↔ s.safe := Iff.rfl

theorem step_keeps_safe {s t : State} (hs : s.safe) (h : step s = .next t) : t.safe := by
  unfold step at h
  split at h
  · cases h
    exact (coreCycle_keeps (b := false) Keeps.rfl').safe hs
  · next rest _ => exact exec_keeps_safe ((safe_withQueue s rest).2 hs) h

theorem reset_safe : State.reset.safe :=
  ⟨reset_memory_wf, by decide, by decide, by decide⟩

end Sys2Proof.Machine
end

section
open Sys2Proof Sys2Proof.Machine

/-- Settles O5: the register space of reset is empty, and so are the event queue, the gap buffer and the scheduler. -/
theorem resetIsSafe : Obligations.ResetIsSafe := reset_safe

/-- Settles O6: every command, and the core cycle of an empty queue, keeps the bounds. -/
theorem stepKeepsTheHubSafe : Obligations.StepKeepsTheHubSafe :=
  fun _ _ hs h => step_keeps_safe hs h

end

section
/-!
PROOFS. Recording an event without room for it (R21): the queue stands, and HUB_EVQ_OVF.DIRECT counts the record.
-/
namespace Sys2Proof.Machine

open Sys2Proof

@[simp] theorem logRecord_hub (s : State) (e : Event) : (s.logRecord e).hub = s.hub := by
  unfold State.logRecord
  split
  · split <;> rfl
  · rfl

@[simp] theorem bump_hub (s : State) (x : RegField) (n : Nat) : (s.bump x n).hub = s.hub := rfl

/-- Umber's log has one register that it writes. -/
theorem rd_logRecord (s : State) (e : Event) {a : Nat} (h : a ≠ Reg.UMB_LOG_LOST) : (s.logRecord e).rd a = s.rd a := by
  unfold State.logRecord
  split
  · split <;> rfl
  · exact State.rd_wf_ne _ _ h

theorem f_logRecord (s : State) (e : Event) {x : RegField} (h : x.addr ≠ Reg.UMB_LOG_LOST) : (s.logRecord e).f x = s.f x := by
  unfold State.f
  rw [rd_logRecord s e h]

theorem rd_latchFor (s : State) (n : EvName) {a : Nat} (h : a ≠ Reg.HUB_INT_RAW) : (s.latchFor n).rd a = s.rd a := by
  unfold State.latchFor
  split
  · next x e =>
    have hx : x.addr = Reg.HUB_INT_RAW := by
      cases n <;> cases e <;> rfl
    exact State.rd_wf_ne _ _ (hx ▸ h)
  · rfl

theorem f_latchFor (s : State) (n : EvName) {x : RegField} (h : x.addr ≠ Reg.HUB_INT_RAW) : (s.latchFor n).f x = s.f x := by
  unfold State.f
  rw [rd_latchFor s n h]

/-- A saturating count keeps to its field. -/
theorem State.f_bump_same (s : State) {x : RegField} (h : fieldOk x) (n : Nat) : (s.bump x n).f x = min (s.f x + n) (fieldMax x) := by
  have hpos : 0 < 2 ^ (x.hi + 1 - x.lo) := by positivity
  have hlt : min (s.f x + n) (fieldMax x) < 2 ^ (x.hi + 1 - x.lo) := by
    unfold fieldMax
    omega
  unfold State.bump
  rw [State.f_wf_same s h, Nat.mod_eq_of_lt hlt]

/-- What a record that finds no room does (R21, R550): Umber's log takes it, DIRECT counts it, and the first of an episode opens it. -/
def State.passBy (s : State) (e : Event) : State :=
  let t := { s with hub.evOver := true, hub.evOverCount := s.hub.evOverCount + 1 }
  let u := (t.logRecord { e with direct := true }).bump F.HUB_EVQ_OVF_DIRECT 1
  if s.hub.evOver then u
  else
    let v := (u.bump F.HUB_EVQ_OVF_EPISODES 1).wf F.HUB_INT_RAW_EVQ 1
    v.logRecord { v.mkEvent .EVENT_OVERFLOW 0 0 [(v.hub.evOverCount : Nat)] with direct := true }

theorem present_of_full (s : State) (e : Event) (h : 4096 < evqDepth s.hub.evq + eventEntries e.name) :
    s.present e = (s.latchFor e.name).passBy e := by
  unfold State.present State.passBy
  dsimp only
  rw [latchFor_hub, if_neg (Nat.not_le.2 h)]
  cases s.hub.evOver <;> rfl

theorem passBy_evq (s : State) (e : Event) : (s.passBy e).hub.evq = s.hub.evq := by
  unfold State.passBy
  split
  · rw [bump_hub, logRecord_hub]
  · rw [logRecord_hub, State.wf_hub, bump_hub, bump_hub, logRecord_hub]

theorem f_bump_log (s : State) (e : Event) {x : RegField} (hx : fieldOk x) (hlog : x.addr ≠ Reg.UMB_LOG_LOST) :
    ((s.logRecord e).bump x 1).f x = min (s.f x + 1) (fieldMax x) := by
  rw [State.f_bump_same _ hx, f_logRecord _ _ hlog]

/-- DIRECT counts a record that finds no room, whether or not it opens an episode. -/
theorem passBy_direct (s : State) (e : Event) :
    (s.passBy e).f F.HUB_EVQ_OVF_DIRECT = min (s.f F.HUB_EVQ_OVF_DIRECT + 1) (fieldMax F.HUB_EVQ_OVF_DIRECT) := by
  have hok : fieldOk F.HUB_EVQ_OVF_DIRECT := ⟨by decide, by decide⟩
  have hlog : F.HUB_EVQ_OVF_DIRECT.addr ≠ Reg.UMB_LOG_LOST := by decide
  have hint : fieldsApart F.HUB_EVQ_OVF_DIRECT F.HUB_INT_RAW_EVQ := .inl (by decide)
  have hepi : fieldsApart F.HUB_EVQ_OVF_DIRECT F.HUB_EVQ_OVF_EPISODES := .inr (.inl (by decide))
  unfold State.passBy
  split
  · exact f_bump_log _ _ hok hlog
  · rw [f_logRecord _ _ hlog, State.f_wf_ne _ ⟨by decide, by decide⟩ hint]
    unfold State.bump
    rw [State.f_wf_ne _ ⟨by decide, by decide⟩ hepi]
    exact f_bump_log _ _ hok hlog

theorem emit_evq_full (s : State) (n : EvName) (obj : Nat) (d : List Int) (h : 4096 < evqDepth s.hub.evq + eventEntries n) :
    (s.emit n obj d).hub.evq = s.hub.evq := by
  unfold State.emit
  rw [present_of_full _ _ h, passBy_evq, latchFor_hub]

theorem emit_direct_full (s : State) (n : EvName) (obj : Nat) (d : List Int) (h : 4096 < evqDepth s.hub.evq + eventEntries n) :
    (s.emit n obj d).f F.HUB_EVQ_OVF_DIRECT = min (s.f F.HUB_EVQ_OVF_DIRECT + 1) (fieldMax F.HUB_EVQ_OVF_DIRECT) := by
  unfold State.emit
  rw [present_of_full _ _ h, passBy_direct, f_latchFor _ _ (by decide)]

end Sys2Proof.Machine
end

section
open Sys2Proof Sys2Proof.Machine

/-- Settles O8: a record joins at the end of the queue, or is counted past a full one, and writes the event registers alone. -/
theorem recordedEventJoinsTheQueue : Obligations.RecordedEventJoinsTheQueue := by
  unfold Obligations.RecordedEventJoinsTheQueue
  intro s n obj d
  refine ⟨fun room => ⟨s.mkEvent n (eventBlock n) obj d, rfl, rfl, rfl, emit_evq s n obj d room⟩, fun full => ⟨?_, ?_⟩, ?_⟩
  · exact emit_evq_full s n obj d full
  · exact emit_direct_full s n obj d full
  · exact fun a ha => rd_emit s n obj d ha

end

section
/-!
PROOFS. Restarts of Stoker (R13, R517, R518, R529): what its stop changes, one part at a time, and what the way back changes.
-/
namespace Sys2Proof.Machine

open Sys2Proof

/-! ### Recording and Umber's part of the state (R497, R500) -/

@[simp] theorem latchFor_umb (s : State) (n : EvName) : (s.latchFor n).umb = s.umb := by
  unfold State.latchFor
  split <;> rfl

@[simp] theorem logRecord_trialUp (s : State) (e : Event) : (s.logRecord e).umb.trialUp = s.umb.trialUp := by
  unfold State.logRecord
  split
  · split <;> rfl
  · rfl

@[simp] theorem passBy_trialUp (s : State) (e : Event) : (s.passBy e).umb.trialUp = s.umb.trialUp := by
  unfold State.passBy State.bump
  split
  · rw [State.wf_umb, logRecord_trialUp]
  · rw [logRecord_trialUp, State.wf_umb, State.wf_umb, State.wf_umb, logRecord_trialUp]

/-- What a record that finds room does (R21): it joins the queue, whose depth HUB_EVQ_STAT shows. -/
def State.enter (s : State) (e : Event) : State :=
  let t := { s with hub.evq := s.hub.evq ++ [e], hub.evOver := false, hub.evOverCount := 0 }
  (t.wf F.HUB_EVQ_STAT_DEPTH (evqDepth t.hub.evq)).peak F.HUB_EVQ_STAT_PEAK (evqDepth t.hub.evq)

theorem present_of_room (s : State) (e : Event) (h : evqDepth s.hub.evq + eventEntries e.name ≤ 4096) :
    s.present e = (s.latchFor e.name).enter e := by
  unfold State.present
  dsimp only
  rw [latchFor_hub, if_pos h]
  unfold State.enter
  rw [latchFor_hub]

@[simp] theorem enter_umb (s : State) (e : Event) : (s.enter e).umb = s.umb := by
  unfold State.enter State.peak
  rw [State.wf_umb, State.wf_umb]

@[simp] theorem emit_trialUp (s : State) (n : EvName) (o : Nat) (d : List Int) : (s.emit n o d).umb.trialUp = s.umb.trialUp := by
  unfold State.emit
  by_cases room : evqDepth s.hub.evq + eventEntries n ≤ 4096
  · rw [present_of_room _ _ room, enter_umb, latchFor_umb]
  · rw [present_of_full _ _ (Nat.not_le.1 room), passBy_trialUp, latchFor_umb]

@[simp] theorem umberEvent_trialUp (s : State) (n : EvName) (o : Nat) (d : List Int) :
    (s.umberEvent n o d).umb.trialUp = s.umb.trialUp := by
  unfold State.umberEvent
  rw [logRecord_trialUp, latchFor_umb]

@[simp] theorem emit_gaps (s : State) (n : EvName) (o : Nat) (d : List Int) : (s.emit n o d).hub.gaps = s.hub.gaps :=
  (congrArg HubSt.gaps (emit_records s n o d).hub :)

/-! ### A frame of registers, blocks, gap records and the trial -/

theorem State.RegsBut.f {s t : State} {l : List Nat} (h : s.RegsBut t l) {x : RegField} (hl : x.addr ∉ l) (hr : x.addr ∉ recordRegs) :
    t.f x = s.f x := by
  unfold State.f
  rw [h _ hl hr]

/-- The blocks that stand beside the registers, the hub and Umber. -/
theorem State.RestSame.blocks {s t : State} (h : s.RestSame t) :
    t.tick = s.tick ∧ t.kiln = s.kiln ∧ t.front = s.front ∧ t.flk = s.flk ∧ t.ptn = s.ptn ∧ t.ptp = s.ptp ∧ t.edg = s.edg
      ∧ t.knd = s.knd ∧ t.qmg = s.qmg ∧ t.prs = s.prs ∧ t.crd = s.crd ∧ t.upl = s.upl ∧ t.spi = s.spi := by
  have e : { t with mem := s.mem, hub := s.hub, umb := s.umb } = s := h
  exact ⟨(congrArg State.tick e :), (congrArg State.kiln e :), (congrArg State.front e :), (congrArg State.flk e :), (congrArg State.ptn e :),
    (congrArg State.ptp e :), (congrArg State.edg e :), (congrArg State.knd e :), (congrArg State.qmg e :), (congrArg State.prs e :),
    (congrArg State.crd e :), (congrArg State.upl e :), (congrArg State.spi e :)⟩

/-- `t` comes from `s` by writes to the registers of `l`, by records, and by changes of the hub's and Umber's state that spare the gap buffer
and the trial. -/
structure StopFrame (l : List Nat) (s t : State) : Prop where
  regs : s.RegsBut t l
  rest : s.RestSame t
  gaps : t.hub.gaps = s.hub.gaps
  trial : t.umb.trialUp = s.umb.trialUp

theorem StopFrame.refl (l : List Nat) (s : State) : StopFrame l s s := ⟨fun _ _ _ => rfl, rfl, rfl, rfl⟩

theorem StopFrame.trans {l : List Nat} {s t u : State} (h : StopFrame l s t) (k : StopFrame l t u) : StopFrame l s u := by
  refine ⟨fun a ha hr => (k.regs a ha hr).trans (h.regs a ha hr), ?_, k.gaps.trans h.gaps, k.trial.trans h.trial⟩
  have h1 := h.rest
  have k1 := k.rest
  unfold State.RestSame at h1 k1 ⊢
  rw [← k1] at h1
  exact h1

theorem StopFrame.mono {l m : List Nat} {s t : State} (h : StopFrame l s t) (hlm : l ⊆ m) : StopFrame m s t :=
  ⟨fun a ha hr => h.regs a (fun hl => ha (hlm hl)) hr, h.rest, h.gaps, h.trial⟩

theorem StopFrame.wr {l : List Nat} {a : Nat} (s : State) (w : Word) (h : a ∈ l) : StopFrame l s (s.wr a w) :=
  ⟨fun _ hb _ => State.rd_wr_ne s w fun e => hb (e ▸ h), rfl, rfl, rfl⟩

theorem StopFrame.wf {l : List Nat} {x : RegField} (s : State) (v : Nat) (h : x.addr ∈ l) : StopFrame l s (s.wf x v) :=
  StopFrame.wr s _ h

theorem StopFrame.emit (l : List Nat) (s : State) (n : EvName) (o : Nat) (d : List Int) : StopFrame l s (s.emit n o d) :=
  ⟨fun _ _ hr => rd_emit s n o d hr, (emit_records s n o d).rest, emit_gaps s n o d, emit_trialUp s n o d⟩

/-! ### Stoker stops (R13) -/

/-- What STK_STAT shows of a restart (R543). -/
def State.stopStatus (s : State) (c : RestartCause) : State :=
  ((s.wf F.STK_STAT_STATE 0).wf F.STK_STAT_CAUSE (restartCode c)).bump F.STK_STAT_RESTARTS 1

/-- Stoker's domain enters reset, unless it is in reset (R529). -/
def State.stopDomain (s : State) (c : RestartCause) : State :=
  if s.inReset 0 then s else s.domReset 0 (match c with | .watchdog => 4 | .fault => 2 | .activation => 3)

/-- What Stoker had in hand is lost (R478, R535). -/
def State.stopDrop (s : State) : State :=
  { s with hub.evHeld := [], hub.gapArchived := false, hub.gapUplinked := false,
           umb.sessions := s.umb.sessions.map fun (x : Sess) => { x with kept := [] } }

/-- A mailbox that Stoker holds is released (R502). -/
def State.stopMbox (s : State) : State :=
  if s.flag F.UMB_MBOX_STAT_BUSY && s.f F.UMB_MBOX_STAT_OWNER == 3 then s.mboxFree else s

/-- The registers of the stop beside STK_STAT and those of the records. -/
def stopRegs : List Nat := [Reg.RST_DOM, Reg.UMB_MBOX_STAT]

theorem stopDomain_frame (s : State) (c : RestartCause) : StopFrame stopRegs s (s.stopDomain c) := by
  unfold State.stopDomain
  split
  · exact StopFrame.refl _ s
  · unfold State.domReset
    exact (StopFrame.wr s _ (by decide)).trans (StopFrame.emit ..)

theorem stopDrop_frame (l : List Nat) (s : State) : StopFrame l s s.stopDrop := ⟨fun _ _ _ => rfl, rfl, rfl, rfl⟩

theorem stopMbox_frame (s : State) : StopFrame stopRegs s s.stopMbox := by
  unfold State.stopMbox State.mboxFree
  split
  · exact StopFrame.wr s _ (by decide)
  · exact StopFrame.refl _ s

theorem stopMbox_hub (s : State) : s.stopMbox.hub = s.hub := by
  unfold State.stopMbox State.mboxFree
  split
  · exact State.wr_hub ..
  · rfl

/-- What Stoker had is given up, with its load aside. -/
def State.stopRest (s : State) (c : RestartCause) : State := (s.stopDomain c).stopDrop.stopMbox

theorem stopRest_frame (s : State) (c : RestartCause) : StopFrame stopRegs s (s.stopRest c) :=
  ((stopDomain_frame s c).trans (stopDrop_frame _ _)).trans (stopMbox_frame _)

theorem stopRest_evHeld (s : State) (c : RestartCause) : (s.stopRest c).hub.evHeld = [] := by
  unfold State.stopRest
  rw [stopMbox_hub]
  rfl

theorem stopStatus_frame (s : State) (c : RestartCause) : StopFrame [Reg.STK_STAT] s (s.stopStatus c) := by
  unfold State.stopStatus State.bump
  exact ((StopFrame.wf s _ (by decide)).trans (StopFrame.wf _ _ (by decide))).trans (StopFrame.wf _ _ (by decide))

theorem stopStatus_state (s : State) (c : RestartCause) : (s.stopStatus c).f F.STK_STAT_STATE = 0 := by
  unfold State.stopStatus State.bump
  rw [State.f_wf_ne _ ⟨by decide, by decide⟩ (.inr (.inr (by decide))), State.f_wf_ne _ ⟨by decide, by decide⟩ (.inr (.inr (by decide))),
    State.f_wf_same _ ⟨by decide, by decide⟩]
  rfl

theorem stopStatus_cause (s : State) (c : RestartCause) : (s.stopStatus c).f F.STK_STAT_CAUSE = restartCode c := by
  unfold State.stopStatus State.bump
  rw [State.f_wf_ne _ ⟨by decide, by decide⟩ (.inr (.inr (by decide))), State.f_wf_same _ ⟨by decide, by decide⟩]
  cases c <;> rfl

theorem stopStatus_restarts (s : State) (c : RestartCause) :
    (s.stopStatus c).f F.STK_STAT_RESTARTS = min (s.f F.STK_STAT_RESTARTS + 1) (fieldMax F.STK_STAT_RESTARTS) := by
  unfold State.stopStatus
  rw [State.f_bump_same _ ⟨by decide, by decide⟩, State.f_wf_ne _ ⟨by decide, by decide⟩ (.inr (.inl (by decide))),
    State.f_wf_ne _ ⟨by decide, by decide⟩ (.inr (.inl (by decide)))]

/-- A stop is its status word and what Stoker gives up, when no load is Stoker's. -/
theorem stokerStop_eq (s : State) (c : RestartCause) (h : s.f F.KLN_LOAD_STAT_OWNER ≠ 3) :
    s.stokerStop c = (s.stopStatus c).stopRest c := by
  have howner : ((s.stopStatus c).stopRest c).loadOwner ≠ 3 := by
    unfold State.loadOwner
    rw [(stopRest_frame _ c).regs.f (by decide) (by decide), (stopStatus_frame s c).regs.f (by decide) (by decide)]
    exact h
  have hload : (((s.stopStatus c).stopRest c).loading && ((s.stopStatus c).stopRest c).loadOwner == 3) = false := by
    rw [beq_eq_false_iff_ne.2 howner, Bool.and_false]
  unfold State.stokerStop
  exact if_neg (Bool.eq_false_iff.1 hload)

section Stop
variable (s : State) (c : RestartCause) (h : s.f F.KLN_LOAD_STAT_OWNER ≠ 3)
include h

theorem stokerStop_frame : StopFrame (Reg.STK_STAT :: stopRegs) s (s.stokerStop c) := by
  rw [stokerStop_eq s c h]
  exact ((stopStatus_frame s c).mono (by decide)).trans ((stopRest_frame _ c).mono (by decide))

theorem stokerStop_evHeld : (s.stokerStop c).hub.evHeld = [] := by
  rw [stokerStop_eq s c h]
  exact stopRest_evHeld _ c

theorem stokerStop_state : (s.stokerStop c).f F.STK_STAT_STATE = 0 := by
  rw [stokerStop_eq s c h, (stopRest_frame _ c).regs.f (by decide) (by decide), stopStatus_state]

theorem stokerStop_cause : (s.stokerStop c).f F.STK_STAT_CAUSE = restartCode c := by
  rw [stokerStop_eq s c h, (stopRest_frame _ c).regs.f (by decide) (by decide), stopStatus_cause]

theorem stokerStop_restarts :
    (s.stokerStop c).f F.STK_STAT_RESTARTS = min (s.f F.STK_STAT_RESTARTS + 1) (fieldMax F.STK_STAT_RESTARTS) := by
  rw [stokerStop_eq s c h, (stopRest_frame _ c).regs.f (by decide) (by decide), stopStatus_restarts]

end Stop

theorem stokerRestart_eq (s : State) (c : RestartCause) (h : s.f F.KLN_LOAD_STAT_OWNER ≠ 3) (ht : c = .watchdog → s.umb.trialUp = false) :
    s.stokerRestart c = s.stokerStop c := by
  unfold State.stokerRestart
  refine if_neg ?_
  rintro ⟨hc, htrial⟩
  rw [(stokerStop_frame s c h).trial, ht hc] at htrial
  exact absurd htrial (by decide)

/-! ### The image slots (R515, R518) -/

theorem slotF_addr (k : Nat) : (slotF k).addr = Reg.UMB_SLOTS := by
  unfold slotF
  split <;> rfl

theorem slotF_ok (k : Nat) : fieldOk (slotF k) := by
  unfold slotF
  split <;> exact ⟨by decide, by decide⟩

theorem slotF_width (k : Nat) : (slotF k).hi + 1 - (slotF k).lo = 4 := by
  unfold slotF
  split <;> rfl

theorem f_slotF_of_rd {s t : State} (h : t.rd Reg.UMB_SLOTS = s.rd Reg.UMB_SLOTS) (k : Nat) : t.f (slotF k) = s.f (slotF k) := by
  unfold State.f
  rw [slotF_addr, h]

theorem slotIn_of_rd {s t : State} (h : t.rd Reg.UMB_SLOTS = s.rd Reg.UMB_SLOTS) (type st : Nat) :
    t.slotIn type st = s.slotIn type st := by
  unfold State.slotIn
  simp only [f_slotF_of_rd h]

/-- VERSION of Stoker follows the slot whose image runs (R515). -/
def State.showVersion (s : State) (k : Option Nat) : State :=
  match k with | some a => s.wf (verF 2) (s.hdr a).version | none => s

theorem rd_showVersion (s : State) (k : Option Nat) {a : Nat} (h : a ≠ Reg.UMB_VER_S) : (s.showVersion k).rd a = s.rd a := by
  unfold State.showVersion
  split
  · exact State.rd_wf_ne _ _ h
  · rfl

/-- A trial that is given up (R518): slot BAD, the ACTIVE slot's version, no trial, and Umber's record. -/
theorem revert_stoker {s : State} {k : Nat} (h : s.slotIn 2 3 = some k) :
    s.revert 2 = { (s.wf (slotF k) 5).showVersion ((s.wf (slotF k) 5).slotIn 2 4) with umb.trialUp := false, umb.healthy := false }.umberEvent
      .UPDATE_REVERTED 0 [((2 : Nat) : Int)] := by
  unfold State.revert
  rw [h]
  rfl

section Revert
variable {s : State} {k : Nat} (h : s.slotIn 2 3 = some k)
include h

theorem revert_slot_bad : (s.revert 2).f (slotF k) = 5 := by
  have hsame : (s.wf (slotF k) 5).f (slotF k) = 5 := by
    rw [State.f_wf_same s (slotF_ok k), slotF_width]
    rfl
  rw [revert_stoker h, f_umberEvent _ _ _ _ (by rw [slotF_addr]; decide)]
  exact (f_slotF_of_rd (rd_showVersion _ _ (by decide)) k).trans hsame

theorem revert_trialUp : (s.revert 2).umb.trialUp = false := by
  rw [revert_stoker h, umberEvent_trialUp]

theorem revert_state : (s.revert 2).f F.STK_STAT_STATE = s.f F.STK_STAT_STATE := by
  have hslots : F.STK_STAT_STATE.addr ≠ (slotF k).addr := by
    rw [slotF_addr]
    decide
  rw [revert_stoker h, f_umberEvent _ _ _ _ (by decide)]
  unfold State.f
  exact congrArg (fieldOf · _ _) ((rd_showVersion _ _ (by decide)).trans (State.rd_wf_ne s 5 hslots))

end Revert

theorem trialLost_eq {s : State} (h : s.umb.trialUp = true) : s.trialLost = (s.stokerStop .watchdog).revert 2 := if_pos h

/-! ### Stoker runs again (R13, R517) -/

theorem inReset_domRelease (s : State) {b : Nat} (h : b < 32) : (s.domRelease b).inReset b = false := by
  unfold State.domRelease State.inReset
  rw [State.rd_wr_same, BitVec.getLsbD_and, BitVec.getLsbD_not, BitVec.getLsbD_ofNat, Nat.testBit_two_pow_self]
  simp [h]

theorem inReset_of_rd {s t : State} (h : t.rd Reg.RST_DOM = s.rd Reg.RST_DOM) (b : Nat) : t.inReset b = s.inReset b := by
  unfold State.inReset
  rw [h]

/-- Umber's state as the trial of Stoker's image begins (R517). -/
def State.trialBegun (s : State) : State := { s with umb.copying := false, umb.trialUp := true, umb.healthy := false }

@[simp] theorem f_trialBegun (s : State) (x : RegField) : s.trialBegun.f x = s.f x := rfl
@[simp] theorem inReset_trialBegun (s : State) (b : Nat) : s.trialBegun.inReset b = s.inReset b := rfl

theorem stokerRelease_eq {s : State} (h : s.umb.copying = true) :
    ∃ u : State, s.stokerRelease = (((u.wf F.STK_STAT_STATE 1).domRelease 0).wf F.HUB_INT_RAW_STOKER 1).trialBegun := by
  unfold State.stokerRelease
  rw [h]
  exact ⟨_, rfl⟩

/-- Stoker's domain leaves reset, when it is in reset. -/
def State.releaseStoker (s : State) : State := if s.inReset 0 then s.domRelease 0 else s

theorem releaseStoker_inReset (s : State) : s.releaseStoker.inReset 0 = false := by
  unfold State.releaseStoker
  split
  · exact inReset_domRelease s (by decide)
  · next h => exact Bool.eq_false_iff.2 h

/-- The latch of a Stoker that has run before (R551). -/
def State.latchReturn (s : State) (ran : Bool) : State := if !ran then s else s.wf F.HUB_INT_RAW_STOKER 1

/-- The status and the domain of a Stoker that runs again (R13, R517, R529). -/
def State.runStoker (s : State) : State :=
  (s.wf F.STK_STAT_STATE (if s.umb.trialUp then 3 else 2)).releaseStoker.latchReturn s.hub.stokerRan

theorem releaseStoker_frame (s : State) : StopFrame [Reg.RST_DOM] s s.releaseStoker := by
  unfold State.releaseStoker State.domRelease
  split
  · exact StopFrame.wr s _ (by decide)
  · exact StopFrame.refl _ s

theorem latchReturn_frame (s : State) (ran : Bool) : StopFrame [Reg.HUB_INT_RAW] s (s.latchReturn ran) := by
  unfold State.latchReturn
  split
  · exact StopFrame.refl _ s
  · exact StopFrame.wf s _ (by decide)

theorem runStoker_rest (s : State) : s.RestSame s.runStoker := by
  let l : List Nat := [Reg.STK_STAT, Reg.RST_DOM, Reg.HUB_INT_RAW]
  have hstat : StopFrame l s (s.wf F.STK_STAT_STATE (if s.umb.trialUp then 3 else 2)) := StopFrame.wf s _ (by decide)
  exact ((hstat.trans ((releaseStoker_frame _).mono (by decide))).trans ((latchReturn_frame _ _).mono (by decide))).rest

theorem runStoker_inReset (s : State) : s.runStoker.inReset 0 = false := by
  unfold State.runStoker
  rw [inReset_of_rd ((latchReturn_frame _ _).regs _ (by decide) (by decide)), releaseStoker_inReset]

theorem runStoker_state (s : State) : s.runStoker.f F.STK_STAT_STATE = if s.umb.trialUp then 3 else 2 := by
  unfold State.runStoker
  rw [(latchReturn_frame _ _).regs.f (by decide) (by decide), (releaseStoker_frame _).regs.f (by decide) (by decide),
    State.f_wf_same _ ⟨by decide, by decide⟩]
  split <;> rfl

/-- The requests are answered, and Stoker has run (R478). -/
def State.answered (s : State) : State := { s with upl.runs := [], hub.stokerRan := true }

@[simp] theorem f_answered (s : State) (x : RegField) : s.answered.f x = s.f x := rfl
@[simp] theorem inReset_answered (s : State) (b : Nat) : s.answered.inReset b = s.inReset b := rfl

/-- STOKER_RUNNING while no accepted request waits for its answer. -/
theorem stokerRunning_eq {s : State} (hup : s.f F.STK_STAT_STATE < 2) (hth : s.umb.thermal = false) (hheld : s.umb.held = false)
    (hcopy : s.umb.copying = false) (hruns : s.upl.runs = []) : s.stokerRunning = s.runStoker.answered := by
  have hdown : (s.stokerUp || s.umb.thermal || s.umb.held || s.umb.copying) = false := by
    rw [hth, hheld, hcopy, Bool.or_false, Bool.or_false, Bool.or_false]
    exact decide_eq_false (Nat.not_le.2 hup)
  have hnone : s.runStoker.upl.runs = [] := by
    obtain ⟨-, -, -, -, -, -, -, -, -, -, -, hupl, -⟩ := (runStoker_rest s).blocks
    rw [hupl, hruns]
  unfold State.stokerRunning
  rw [hdown, if_neg Bool.false_ne_true]
  change s.runStoker.upl.runs.foldl _ s.runStoker.answered = _
  rw [hnone, List.foldl_nil]

end Sys2Proof.Machine
end

section
open Sys2Proof Sys2Proof.Machine

/-- Settles O38: the stop of Stoker writes its status, its domain and its mailbox alone, and each way back is its own few writes. -/
theorem stokerRestartsAlone : Obligations.StokerRestartsAlone := by
  unfold Obligations.StokerRestartsAlone
  intro s
  dsimp only
  refine ⟨?restart, ?running, ?release, ?noCopy, ?health, ?noTrial, ?reverted⟩
  case restart =>
    intro c howner htrial
    have hframe := stokerStop_frame s c howner
    exact ⟨_, congrArg Host.Outcome.next (stokerRestart_eq s c howner htrial), hframe.rest.blocks, stokerStop_state s c howner,
      (stokerStop_cause s c howner).trans (by cases c <;> rfl), stokerStop_restarts s c howner, hframe.gaps, stokerStop_evHeld s c howner⟩
  case running =>
    intro hup hth hheld hcopy hruns
    obtain ⟨htick, hkiln, -⟩ := (runStoker_rest s).blocks
    refine ⟨_, congrArg Host.Outcome.next (stokerRunning_eq hup hth hheld hcopy hruns), ?_, ?_, htick, hkiln, rfl⟩
    · rw [f_answered, runStoker_state]
    · rw [inReset_answered, runStoker_inReset]
  case release =>
    intro hcopy
    obtain ⟨u, hu⟩ := stokerRelease_eq hcopy
    refine ⟨_, congrArg Host.Outcome.next hu, rfl, rfl, rfl, ?_, ?_⟩
    · rw [inReset_trialBegun, inReset_of_rd (State.rd_wf_ne _ _ (by decide)), inReset_domRelease _ (by decide)]
    · rw [f_trialBegun, State.f_wf_ne _ ⟨by decide, by decide⟩ (.inl (by decide))]
      unfold State.domRelease
      rw [State.f_wr_ne _ _ (by decide), State.f_wf_same _ ⟨by decide, by decide⟩]
      rfl
  case noCopy =>
    intro hcopy
    have hstay : s.stokerRelease = s := by
      unfold State.stokerRelease
      rw [hcopy]
      rfl
    exact congrArg Host.Outcome.next hstay
  case health => exact fun htrial => congrArg Host.Outcome.next (if_pos htrial)
  case noTrial =>
    intro htrial
    have hno : ¬s.umb.trialUp = true := by rw [htrial]; exact Bool.false_ne_true
    exact ⟨congrArg Host.Outcome.next (if_neg hno), congrArg Host.Outcome.next (if_neg hno)⟩
  case reverted =>
    intro k htrial hslot howner
    have hslots := (stokerStop_frame s .watchdog howner).regs Reg.UMB_SLOTS (by decide) (by decide)
    have hk : (s.stokerStop .watchdog).slotIn 2 3 = some k := (slotIn_of_rd hslots 2 3).trans hslot
    exact ⟨_, congrArg Host.Outcome.next (trialLost_eq htrial), revert_slot_bad hk, revert_trialUp hk,
      (revert_state hk).trans (stokerStop_state s .watchdog howner)⟩

end

section
/-!
PROOFS. The tile links (R11, R12, R19, R45): what a frame delivers or loses, and what marks a tile TILE_DOWN and unmarks it.
-/
namespace Sys2Proof.Machine

open Sys2Proof

/-! ### Shared steps -/

/-- A fold over the numbers below `n` brings about at each what its own step brings about and the others keep. -/
theorem foldl_range_establishes {α : Type} {f : α → Nat → α} {P : Nat → α → Prop} (hset : ∀ a i, P i (f a i))
    (hkeep : ∀ a i j, P i a → P i (f a j)) (n : Nat) (a : α) : ∀ i < n, P i ((List.range n).foldl f a) := by
  induction n with
  | zero => exact fun i hi => absurd hi (Nat.not_lt_zero i)
  | succ n ih =>
    intro i hi
    rw [List.range_succ, List.foldl_append, List.foldl_cons, List.foldl_nil]
    rcases Nat.lt_succ_iff_lt_or_eq.1 hi with hlt | rfl
    · exact hkeep _ i n (ih i hlt)
    · exact hset _ i

/-- A fold keeps what each of its steps keeps. -/
theorem foldl_keeps {α β γ : Type} {f : α → β → α} (p : α → γ) (hf : ∀ a b, p (f a b) = p a) (l : List β) (a : α) :
    p (l.foldl f a) = p a := by
  induction l generalizing a with
  | nil => rfl
  | cons b r ih => exact (ih (f a b)).trans (hf a b)

/-- An event after operations that leave the event queue alone joins the queue as it was. -/
theorem emit_joins {s t : State} (h : t.hub.evq = s.hub.evq) (n : EvName) (o : Nat) (d : List Int) : s.Joins (t.emit n o d) n o d := by
  intro room
  rw [← h] at room ⊢
  exact ⟨_, rfl, rfl, rfl, emit_evq t n o d room⟩

@[simp] theorem emit_tile (s : State) (n : EvName) (o : Nat) (d : List Int) (t : Nat) : (s.emit n o d).tile t = s.tile t := by
  unfold State.tile
  rw [(congrArg HubSt.tiles (emit_records s n o d).hub :)]

@[simp] theorem emit_gpeIn (s : State) (n : EvName) (o : Nat) (d : List Int) : (s.emit n o d).hub.gpeIn = s.hub.gpeIn :=
  (congrArg HubSt.gpeIn (emit_records s n o d).hub :)

theorem tile_of_hub {s u : State} (h : u.hub = s.hub) (t : Nat) : u.tile t = s.tile t := by
  unfold State.tile
  rw [h]

@[simp] theorem tile_setTile_same (s : State) (t : Nat) (x : TileSt) : (s.setTile t x).tile t = x := by
  unfold State.tile State.setTile
  exact tabGet_tabSet_same ..

/-! ### A frame of a tile link (R11, R45) -/

/-- The oldest `n` conversions of tile `t` that wait for a frame. -/
def State.frameConvs (s : State) (t n : Nat) : List Conv :=
  (s.front.convs.filter fun (c : Conv) => c.ch / 24 == t && !c.delivered && !c.lost).take n

/-- A result comes late: the staging of its tick has closed (R45). -/
def State.convLate (s : State) (c : Conv) : Bool :=
  decide (c.tick < s.tick.num) && (s.tick.stagingClosed || s.tick.prev != some c.tick)

/-- The conversions of `l` become what `f` makes of them. -/
def State.markConvs (s : State) (l : List Conv) (f : Conv → Conv) : State :=
  { s with front.convs := s.front.convs.map fun c => if c ∈ l then f c else c }

theorem convLate_eq_false {s : State} {c : Conv} (h : s.tick.num ≤ c.tick ∨ (s.tick.prev = some c.tick ∧ s.tick.stagingClosed = false)) :
    s.convLate c = false := by
  unfold State.convLate
  rcases h with h | ⟨hprev, hopen⟩
  · rw [decide_eq_false (Nat.not_lt.2 h), Bool.false_and]
  · simp [hprev, hopen]

theorem lossGaps_nil (s : State) (cause : GapCause) : s.lossGaps cause [] = s := rfl

/-- With no result late, every conversion stays, and those of the frame are marked. -/
theorem markConvs_of_onTime (s : State) (l : List Conv) {late : Conv → Bool} (h : ∀ c ∈ l, late c = false) (f : Conv → Conv) :
    { s with front.convs := (s.front.convs.filter fun c => !(l.contains c && late c)).map fun c => if l.contains c then f c else c }
      = s.markConvs l f := by
  have hall : (s.front.convs.filter fun c => !(l.contains c && late c)) = s.front.convs := by
    refine List.filter_eq_self.2 fun c _ => ?_
    by_cases hc : c ∈ l
    · simp [h c hc]
    · simp [hc]
  unfold State.markConvs
  rw [hall]
  simp only [List.contains_iff_mem]

theorem tileFrame_of_down {s : State} {t : Nat} (h : (s.tile t).down = true) (n : Nat) (ok : Bool) : s.tileFrame t n ok = s := if_pos h

/-- The end of a frame that is not requested again: late results are lost with their records, the others become what `f` makes of them. -/
def State.frameEnds (s : State) (t n : Nat) (cause : GapCause) (f : Conv → Conv) : State :=
  let l := s.frameConvs t n
  let u := (s.setTile t { s.tile t with retrying := false }).lossGaps cause (l.filter s.convLate)
  { u with front.convs := (u.front.convs.filter fun c => !(l.contains c && s.convLate c)).map fun c => if l.contains c then f c else c }

theorem frameEnds_of_onTime {s : State} {t n : Nat} (h : ∀ c ∈ s.frameConvs t n, s.convLate c = false) (cause : GapCause) (f : Conv → Conv) :
    s.frameEnds t n cause f = (s.setTile t { s.tile t with retrying := false }).markConvs (s.frameConvs t n) f := by
  have hnone : (s.frameConvs t n).filter s.convLate = [] := by
    refine List.filter_eq_nil_iff.2 fun c hc => ?_
    rw [h c hc]
    exact Bool.false_ne_true
  unfold State.frameEnds
  dsimp only
  rw [hnone, lossGaps_nil]
  exact markConvs_of_onTime _ _ h f

section Frame
variable {s : State} {t : Nat} (n : Nat) (hup : (s.tile t).down = false)
include hup

theorem tileFrame_ok : s.tileFrame t n true = s.frameEnds t n .stagingLate fun c => { c with delivered := true } :=
  if_neg (Bool.eq_false_iff.1 hup)

theorem tileFrame_first_error (hretry : (s.tile t).retrying = false) :
    s.tileFrame t n false = s.setTile t { s.tile t with retrying := true } := by
  unfold State.tileFrame
  rw [if_neg (Bool.eq_false_iff.1 hup), if_neg Bool.false_ne_true, hretry]
  rfl

theorem tileFrame_second_error (hretry : (s.tile t).retrying = true) :
    s.tileFrame t n false = s.frameEnds t n .tileLink fun c => { c with lost := true } := by
  unfold State.tileFrame
  rw [if_neg (Bool.eq_false_iff.1 hup), if_neg Bool.false_ne_true, hretry]
  rfl

end Frame

/-! ### The drivers of a tile (R12, R140) -/

@[simp] theorem rampTo_hub (s : State) (d v : Nat) : (s.rampTo d v).hub = s.hub := by
  unfold State.rampTo
  split <;> rfl

@[simp] theorem rampTo_visits (s : State) (d v : Nat) : (s.rampTo d v).front.visits = s.front.visits := by
  unfold State.rampTo
  split <;> rfl

theorem rampTo_target (s : State) (d v e : Nat) :
    tabGet (fun _ => 0) (s.rampTo d v).front.rampTo e = if e = d then v else tabGet (fun _ => 0) s.front.rampTo e := by
  unfold State.rampTo
  split
  · next h =>
    split
    · next he => rw [he, h]
    · rfl
  · exact tabGet_tabSet ..

/-- A driver of a tile stops, or takes its set-point again (R12). -/
def State.stopDriver (s : State) (stop : Bool) (d : Nat) : State :=
  { s with front.tileStop := tabSet (fun _ => false) s.front.tileStop d stop }.driverSet d

@[simp] theorem setRun_hub (s : State) (t : Nat) (x : Option CoreRun) : (s.setRun t x).hub = s.hub := rfl
@[simp] theorem setRun_rampTo (s : State) (t : Nat) (x : Option CoreRun) : (s.setRun t x).front.rampTo = s.front.rampTo := rfl

theorem tileDrivers_eq (s : State) (t : Nat) (stop : Bool) :
    s.tileDrivers t stop = (List.range 6).foldl (fun s i => s.stopDriver stop (6 * t + i)) s := rfl

@[simp] theorem stopDriver_hub (s : State) (stop : Bool) (d : Nat) : (s.stopDriver stop d).hub = s.hub := by
  unfold State.stopDriver State.driverSet State.wb
  rw [rampTo_hub, State.wf_hub]

@[simp] theorem stopDriver_visits (s : State) (stop : Bool) (d : Nat) : (s.stopDriver stop d).front.visits = s.front.visits := by
  unfold State.stopDriver State.driverSet State.wb
  rw [rampTo_visits, State.wf_front]

/-- A stopped driver heads for 0 V, and the others for where they did. -/
theorem stopDriver_target (s : State) (d e : Nat) :
    tabGet (fun _ => 0) (s.stopDriver true d).front.rampTo e = if e = d then 0 else tabGet (fun _ => 0) s.front.rampTo e := by
  have hstop : tabGet (fun _ => false) (tabSet (fun _ => false) s.front.tileStop d true) d = true := tabGet_tabSet_same ..
  unfold State.stopDriver State.driverSet State.wb
  dsimp only
  rw [rampTo_target, hstop, Bool.not_true, Bool.and_false, if_neg Bool.false_ne_true, State.wf_front]

@[simp] theorem tileDrivers_hub (s : State) (t : Nat) (stop : Bool) : (s.tileDrivers t stop).hub = s.hub := by
  rw [tileDrivers_eq]
  exact foldl_keeps State.hub (fun a i => stopDriver_hub a stop _) _ s

@[simp] theorem tileDrivers_visit (s : State) (t : Nat) (stop : Bool) (n : Nat) : (s.tileDrivers t stop).visit n = s.visit n := by
  unfold State.visit
  rw [tileDrivers_eq, foldl_keeps (fun a => a.front.visits) (fun a i => stopDriver_visits a stop _)]

/-- The six drivers of a tile that stops head for 0 V (R12). -/
theorem tileDrivers_target (s : State) (t : Nat) {i : Nat} (hi : i < 6) :
    tabGet (fun _ => 0) (s.tileDrivers t true).front.rampTo (6 * t + i) = 0 := by
  have h := foldl_range_establishes (f := fun a i => a.stopDriver true (6 * t + i))
    (P := fun i a => tabGet (fun _ => 0) a.front.rampTo (6 * t + i) = 0)
    (fun a i => by rw [stopDriver_target, if_pos rfl]) (fun a i j h => by rw [stopDriver_target, h, ite_self]) 6 s i hi
  rw [tileDrivers_eq]
  exact h

/-! ### A tile is marked (R12) -/

/-- No visit is in the clusters of the tile: only its core run ends. -/
theorem visitsDown_of_none {s : State} {t : Nat} (h : ∀ k < 3, s.visit (3 * t + k) = none) : s.visitsDown t = s.setRun t none := by
  have hv (k : Nat) (hk : k < 3) : (s.setRun t none).visit (3 * t + k) = none := h k hk
  unfold State.visitsDown
  rw [List.foldl_cons, List.foldl_cons, List.foldl_cons, List.foldl_nil]
  have h0 := hv 0 (by decide)
  have h1 := hv 1 (by decide)
  have h2 := hv 2 (by decide)
  rw [Nat.add_zero] at h0
  simp only [h0, h1, h2]

theorem tileMark_idle {s : State} {t : Nat} (h : (s.tile t).down = false ∨ (s.tile t).marked = true) : s.tileMark t = s := by
  unfold State.tileMark
  rcases h with h | h <;> simp [h]

/-- The tile as TILE_DOWN marks it. -/
def State.withMark (s : State) (t : Nat) : State :=
  s.setTile t { s.tile t with marked := true, fromClock := s.boundaryNow, lossFrom := none }

theorem tileMark_of_noLoss {s : State} {t : Nat} (hdown : (s.tile t).down = true) (hmark : (s.tile t).marked = false)
    (hloss : (s.tile t).lossFrom = none) :
    s.tileMark t = (((s.withMark t).tileDrivers t true).visitsDown t).emit .TILE_DOWN (objLink (23 + t)) [] := by
  unfold State.tileMark
  simp only [hdown, hmark, hloss, Bool.not_true, Bool.or_false, Bool.false_eq_true, if_false, State.withMark]

theorem tileMark_eq {s : State} {t : Nat} (hdown : (s.tile t).down = true) (hmark : (s.tile t).marked = false)
    (hloss : (s.tile t).lossFrom = none) (hvisit : ∀ k < 3, s.visit (3 * t + k) = none) :
    s.tileMark t = (((s.withMark t).tileDrivers t true).setRun t none).emit .TILE_DOWN (objLink (23 + t)) [] := by
  have hv : ∀ k < 3, ((s.withMark t).tileDrivers t true).visit (3 * t + k) = none := by
    intro k hk
    rw [tileDrivers_visit]
    exact hvisit k hk
  rw [tileMark_of_noLoss hdown hmark hloss, visitsDown_of_none hv]

/-! ### Gap records while the buffer has room (R455) -/

/-- `t` comes from `s` in the same tick with the event queue as it was, and with at most `n` gap records more. -/
structure GapsJoin (n : Nat) (s t : State) : Prop where
  tick : t.tick = s.tick
  evq : t.hub.evq = s.hub.evq
  gaps : t.hub.gaps.length ≤ s.hub.gaps.length + n

theorem bump_joins (s : State) (x : RegField) (n : Nat) : GapsJoin 0 s (s.bump x n) := ⟨rfl, rfl, le_rfl⟩

theorem gapGpe_hub (s : State) (g : Gap) :
    (s.gapGpe g).tick = s.tick ∧ (s.gapGpe g).hub.evq = s.hub.evq ∧ (s.gapGpe g).hub.gaps = s.hub.gaps := by
  unfold State.gapGpe
  split
  · exact ⟨rfl, rfl, rfl⟩
  · split <;> exact ⟨rfl, rfl, rfl⟩

theorem gapHeld_joins {s : State} (g : Gap) (h : s.hub.gaps.length < 16384) : GapsJoin 1 s (s.gapHeld g) := by
  have hroom : (s.gapMarks g).hub.gaps.length < 16384 := h
  unfold State.gapHeld
  dsimp only
  rw [if_pos hroom]
  split <;> exact ⟨rfl, rfl, List.length_append.le⟩

theorem gap_joins {s : State} (g : Gap) (h : s.hub.gaps.length < 16384) : GapsJoin 1 s (s.gap g) := by
  obtain ⟨htick, hevq, hgaps⟩ := gapGpe_hub s g
  obtain ⟨ktick, kevq, kgaps⟩ := gapHeld_joins (s := s.gapGpe g) g (by rw [hgaps]; exact h)
  exact ⟨ktick.trans htick, kevq.trans hevq, by rw [hgaps] at kgaps; exact kgaps⟩

theorem GapsJoin.trans {m n : Nat} {s t u : State} (h : GapsJoin m s t) (k : GapsJoin n t u) : GapsJoin (m + n) s u := by
  refine ⟨k.tick.trans h.tick, k.evq.trans h.evq, ?_⟩
  have hlen := h.gaps
  have klen := k.gaps
  omega

/-- The record of one channel of a tile whose conversions are lost, when there are any. -/
def State.channelGap (s : State) (t : Nat) (cause : GapCause) (lo hi i : Nat) : State :=
  match s.convGap (24 * t + i) cause lo hi with
  | none => s
  | some g => (if cause = .domainReset then s.bump F.CLK_XDROP_DROP g.count else s).gap g

theorem tileGaps_eq (s : State) (t : Nat) (cause : GapCause) (lo hi : Nat) :
    s.tileGaps t cause lo hi = (List.range 24).foldl (fun s i => s.channelGap t cause lo hi i) s := rfl

theorem channelGap_joins {s : State} (t : Nat) (cause : GapCause) (lo hi i : Nat) (h : s.hub.gaps.length < 16384) :
    GapsJoin 1 s (s.channelGap t cause lo hi i) := by
  unfold State.channelGap
  split
  · exact ⟨rfl, rfl, Nat.le_succ _⟩
  · split
    · exact (bump_joins s _ _).trans (gap_joins _ h)
    · exact gap_joins _ h

/-- The records of a tile's outage: at most one a channel. -/
theorem tileGaps_joins (t : Nat) (cause : GapCause) (lo hi : Nat) {s : State} (h : s.hub.gaps.length + 24 ≤ 16384) :
    GapsJoin 24 s (s.tileGaps t cause lo hi) := by
  have upTo (n : Nat) (hn : n ≤ 24) : GapsJoin n s ((List.range n).foldl (fun s i => s.channelGap t cause lo hi i) s) := by
    induction n with
    | zero => exact ⟨rfl, rfl, le_rfl⟩
    | succ n ih =>
      have before := ih (by omega)
      have hlen := before.gaps
      rw [List.range_succ, List.foldl_append, List.foldl_cons, List.foldl_nil]
      exact before.trans (channelGap_joins t cause lo hi n (by omega))
  rw [tileGaps_eq]
  exact upTo 24 le_rfl

/-! ### A tile is unmarked (R12, R19) -/

theorem landHeld_of_none {s : State} (h : s.tick.held = []) (p : HeldWrite → Bool) : s.landHeld p = s := by
  unfold State.landHeld
  rw [h, List.foldl_nil]

@[simp] theorem gpeAwait_tick (s : State) (c : Nat) (p : Nat × Nat × Nat) : (s.gpeAwait c p).tick = s.tick := rfl
@[simp] theorem gpeAwait_evq (s : State) (c : Nat) (p : Nat × Nat × Nat) : (s.gpeAwait c p).hub.evq = s.hub.evq := rfl
@[simp] theorem gpeAwait_tile (s : State) (c : Nat) (p : Nat × Nat × Nat) (t : Nat) : (s.gpeAwait c p).tile t = s.tile t := rfl

theorem gpeIn_gpeAwait (s : State) (c d : Nat) (p : Nat × Nat × Nat) :
    tabGet (fun _ => []) (s.gpeAwait c p).hub.gpeIn d
      = if d = c then tabGet (fun _ => []) s.hub.gpeIn c ++ [p] else tabGet (fun _ => []) s.hub.gpeIn d :=
  tabGet_tabSet ..

/-- The 24 channels of a tile await the first sample after its outage: GPE is due on it (R19). -/
def State.awaitTile (s : State) (t : Nat) : State :=
  (List.range 24).foldl (fun s i => s.gpeAwait (24 * t + i) (s.tick.num - 1, 0, 0)) s

theorem awaitTile_tick (s : State) (t : Nat) : (s.awaitTile t).tick = s.tick := by
  unfold State.awaitTile
  rw [foldl_keeps State.tick fun a i => gpeAwait_tick a _ _]

theorem awaitTile_evq (s : State) (t : Nat) : (s.awaitTile t).hub.evq = s.hub.evq := by
  unfold State.awaitTile
  rw [foldl_keeps (fun a => a.hub.evq) fun a i => gpeAwait_evq a _ _]

theorem awaitTile_tile (s : State) (t u : Nat) : (s.awaitTile t).tile u = s.tile u := by
  unfold State.awaitTile
  rw [foldl_keeps (fun a => a.tile u) fun a i => gpeAwait_tile a _ _ u]

theorem awaitTile_gpeIn (s : State) (t : Nat) {i : Nat} (hi : i < 24) :
    (s.tick.num - 1, 0, 0) ∈ tabGet (fun _ => []) (s.awaitTile t).hub.gpeIn (24 * t + i) := by
  have h := foldl_range_establishes (f := fun a i => a.gpeAwait (24 * t + i) (a.tick.num - 1, 0, 0))
    (P := fun i a => (a.tick.num - 1, 0, 0) ∈ tabGet (fun _ => []) a.hub.gpeIn (24 * t + i))
    (fun a i => by
      rw [gpeIn_gpeAwait, if_pos rfl]
      exact List.mem_append_right _ (List.mem_singleton.2 rfl))
    (fun a i j h => by
      rw [gpeIn_gpeAwait]
      split
      · next e => rw [← e]; exact List.mem_append_left _ h
      · exact h) 24 s i hi
  have htick := awaitTile_tick s t
  unfold State.awaitTile at htick ⊢
  rw [htick] at h
  exact h

theorem tileUnmark_idle {s : State} {t : Nat} (h : (s.tile t).marked = false ∨ (s.tile t).down = true) : s.tileUnmark t = s := by
  unfold State.tileUnmark
  rcases h with h | h <;> simp [h]

/-- Tile `t` with the records of its outage, and its mark gone (R12). -/
def State.dropMark (s : State) (t : Nat) : State :=
  let x := s.tile t
  let at' := max s.boundaryNow x.resumeAt
  let u := s.tileGaps t .tileDown x.fromClock at'
  u.setTile t { x with marked := false, resumeAt := at', lossFrom := if u.inReset 1 then some at' else none }

theorem dropMark_tile (s : State) (t : Nat) : ((s.dropMark t).tile t).marked = false := by
  unfold State.dropMark
  dsimp only
  rw [tile_setTile_same]

theorem dropMark_joins {s : State} (t : Nat) (h : s.hub.gaps.length + 24 ≤ 16384) : GapsJoin 24 s (s.dropMark t) := by
  obtain ⟨htick, hevq, hgaps⟩ := tileGaps_joins t .tileDown (s.tile t).fromClock (max s.boundaryNow (s.tile t).resumeAt) h
  exact ⟨htick, hevq, hgaps⟩

theorem tileUnmark_eq {s : State} {t : Nat} (hmark : (s.tile t).marked = true) (hdown : (s.tile t).down = false)
    (hheld : s.tick.held = []) (hroom : s.hub.gaps.length + 24 ≤ 16384) :
    s.tileUnmark t = (((s.dropMark t).awaitTile t).tileDrivers t false).emit .TILE_UP (objLink (23 + t)) [] := by
  have hnone : ((s.dropMark t).awaitTile t).tick.held = [] := by
    rw [awaitTile_tick, (dropMark_joins t hroom).tick, hheld]
  have hcond : ¬(!(s.tile t).marked || (s.tile t).down) = true := by
    rw [hmark, hdown]
    decide
  unfold State.tileUnmark
  refine (if_neg hcond).trans ?_
  change (((((s.dropMark t).awaitTile t).landHeld _).tileDrivers t false).emit .TILE_UP (objLink (23 + t)) []) = _
  rw [landHeld_of_none hnone]

end Sys2Proof.Machine
end

section
open Sys2Proof Sys2Proof.Machine

/-- Settles O36: a frame on time marks the conversions that waited; an outage stops the drivers, and its end awaits GPE on every channel. -/
theorem tileLinkCommandsAct : Obligations.TileLinkCommandsAct := by
  unfold Obligations.TileLinkCommandsAct
  intro s t n
  dsimp only
  refine ⟨?linkDown, ?frame, ?down, ?downIdle, ?up, ?upIdle⟩
  case linkDown => exact fun hdown ok => congrArg Host.Outcome.next (tileFrame_of_down hdown n ok)
  case frame =>
    intro hup hon
    have honTime : ∀ c ∈ s.frameConvs t n, s.convLate c = false := fun c hc => convLate_eq_false (hon c hc)
    refine ⟨⟨_, congrArg Host.Outcome.next ((tileFrame_ok n hup).trans (frameEnds_of_onTime honTime _ _)), rfl, ?_, rfl⟩, fun hretry => ?_,
      fun hretry => ⟨_, congrArg Host.Outcome.next ((tileFrame_second_error n hup hretry).trans (frameEnds_of_onTime honTime _ _)), rfl, ?_⟩⟩
    · exact congrArg TileSt.retrying (tile_setTile_same s t _)
    · exact ⟨_, congrArg Host.Outcome.next (tileFrame_first_error n hup hretry), rfl, congrArg TileSt.retrying (tile_setTile_same s t _)⟩
    · exact congrArg TileSt.retrying (tile_setTile_same s t _)
  case down =>
    intro hdown hmark hloss hvisit
    have hhub : (((s.withMark t).tileDrivers t true).setRun t none).hub = (s.withMark t).hub := by
      rw [setRun_hub, tileDrivers_hub]
    refine ⟨_, congrArg Host.Outcome.next (tileMark_eq hdown hmark hloss hvisit), ?_, fun i hi => ?_, emit_joins ?_ _ _ _⟩
    · rw [emit_tile, tile_of_hub hhub]
      exact congrArg TileSt.marked (tile_setTile_same s t _)
    · rw [emit_front, setRun_rampTo]
      exact tileDrivers_target (s.withMark t) t hi
    · rw [hhub]
      rfl
  case downIdle => exact fun h => congrArg Host.Outcome.next (tileMark_idle h)
  case up =>
    intro hmark hdown hheld hroom
    have hjoins := dropMark_joins t hroom
    have hhub := tileDrivers_hub ((s.dropMark t).awaitTile t) t false
    refine ⟨_, congrArg Host.Outcome.next (tileUnmark_eq hmark hdown hheld hroom), ?_, fun i hi => ?_, emit_joins ?_ _ _ _⟩
    · rw [emit_tile, tile_of_hub hhub, awaitTile_tile, dropMark_tile]
    · rw [emit_gpeIn, hhub, ← hjoins.tick]
      exact awaitTile_gpeIn _ t hi
    · rw [hhub, awaitTile_evq, hjoins.evq]
  case upIdle => exact fun h => congrArg Host.Outcome.next (tileUnmark_idle h)

end

section
/-!
PROOFS. The hub as a whole: what reset leaves, the core cycle of an empty queue (log 1), and which commands move the tick number.
-/
namespace Sys2Proof.Machine

open Sys2Proof

theorem step_of_empty {s : State} (h : s.pending = []) : step s = .next s.coreCycle := by
  unfold step
  rw [h]

/-- While no tick runs, a core cycle is one of the clock and of the rate's ramp alone. -/
theorem coreCycle_of_not_running {s : State} (h : s.genState ≠ 1) : s.coreCycle = s.idle.restServo := by
  unfold State.coreCycle
  rw [if_pos h]

theorem idle_of_not_running {s : State} (h : s.genState ≠ 1) : s.idle = { s.clockPass 1 with tick.rest := s.tick.rest + 1 } := by
  have hrun : (s.genState == 1) = false := beq_false_of_ne h
  unfold State.idle
  rw [hrun]
  rfl

/-- A command that moves no tick number keeps it. -/
theorem exec_tick_num {c : Instr} {s t : State} (hc : movesTick c = false) (h : exec c s = .next t) : t.tick.num = s.tick.num := by
  have k := exec_keeps c s
  rw [h, hc] at k
  exact Keeps.num k rfl

theorem reset_hearth (h : Nat) : State.reset.hearth h = hearth0 := rfl

theorem hearth0_kr (n : Nat) : hearth0.kr n = 0#32 := by
  unfold Hearth.kr
  split <;> rfl

end Sys2Proof.Machine
end

section
open Sys2Proof Sys2Proof.Machine

/-- Settles O2: the cycle is `idle`, which moves the clock and the count, and `restServo`, which acts on a full count alone. -/
theorem emptyQueueIsOneCoreCycle : Obligations.EmptyQueueIsOneCoreCycle := by
  unfold Obligations.EmptyQueueIsOneCoreCycle
  intro s hq hrun
  dsimp only
  rw [step_of_empty hq, coreCycle_of_not_running hrun, idle_of_not_running hrun]
  have hgain : s.clockGain 1 = 81920 * (1099511627776 + s.rateCorr).toNat := by
    unfold State.clockGain
    rw [Nat.one_mul]
  unfold State.clockPass State.restServo
  rw [hgain]
  refine congrArg Host.Outcome.next ?_
  by_cases hrest : s.tick.rest + 1 < s.cycles
  · rw [if_pos hrest]
    exact if_pos (.inr hrest)
  · rw [if_neg hrest]
    exact if_neg (not_or.2 ⟨hrun, hrest⟩)

/-- Settles O7: the values of the register tables, and the empty stores of reset. -/
theorem resetRegisterValues : Obligations.ResetRegisterValues := by
  unfold Obligations.ResetRegisterValues
  dsimp only
  refine ⟨by decide, by decide, by decide, by decide, by decide, by decide, by decide, fun h n => ?_, fun c => rfl, rfl, rfl, rfl, rfl⟩
  rw [reset_hearth]
  exact ⟨rfl, hearth0_kr n, rfl, rfl⟩

/-- Settles O4: the excluded commands are those of `movesTick`. -/
theorem onlyBoundariesAndResetsMoveTheTick : Obligations.OnlyBoundariesAndResetsMoveTheTick := by
  unfold Obligations.OnlyBoundariesAndResetsMoveTheTick
  intro c s t h hc
  refine exec_tick_num ?_ h
  revert hc
  cases c <;> simp [movesTick]

end

section
/-!
PROOFS. The tick in numbers (R27, R30, R31): the valid rates, whole periods, and the clock at a boundary.
-/
namespace Sys2Proof.Machine

open Sys2Proof

/-! ### The valid rates (R27) -/

theorem validRate_iff {n : Nat} : validRate n = true ↔ 1000 ≤ n ∧ n ≤ 100000 ∧ n ∣ 800000000 := by
  unfold validRate
  rw [Bool.and_eq_true, Bool.and_eq_true, decide_eq_true_iff, decide_eq_true_iff, decide_eq_true_iff, and_assoc, Nat.dvd_iff_mod_eq_zero]

/-- The divisors of 800,000,000 by its prime factors. -/
theorem dvd_coreClock_iff {n : Nat} : n ∣ 800000000 ↔ ∃ a b, a ≤ 11 ∧ b ≤ 8 ∧ n = 2 ^ a * 5 ^ b := by
  rw [show 800000000 = 2 ^ 11 * 5 ^ 8 by decide, Nat.dvd_mul]
  constructor
  · rintro ⟨x, y, hx, hy, rfl⟩
    obtain ⟨a, ha, rfl⟩ := (Nat.dvd_prime_pow Nat.prime_two).1 hx
    obtain ⟨b, hb, rfl⟩ := (Nat.dvd_prime_pow Nat.prime_five).1 hy
    exact ⟨a, b, ha, hb, rfl⟩
  · rintro ⟨a, b, ha, hb, rfl⟩
    exact ⟨2 ^ a, 5 ^ b, pow_dvd_pow 2 ha, pow_dvd_pow 5 hb, rfl⟩

theorem validRate_pos {n : Nat} (h : validRate n = true) : 0 < n := by
  obtain ⟨hlo, -, -⟩ := validRate_iff.1 h
  omega

/-- A multiple of 800,000,000 is whole in the periods of every valid rate. -/
theorem validRate_dvd {n m : Nat} (h : validRate n = true) (hm : 800000000 ∣ m) : n ∣ m := by
  obtain ⟨-, -, hdvd⟩ := validRate_iff.1 h
  exact hdvd.trans hm

/-! ### The clock at a boundary (R30, R31) -/

/-- A second is whole in periods, so that tick `t` begins exactly `t` periods after tick 0. -/
theorem boundaryClock_mul {n : Nat} (h : validRate n = true) (t : Nat) : boundaryClock n t * n = t * secUnits := by
  have hsec : n ∣ t % n * secUnits := (validRate_dvd h (by decide : 800000000 ∣ secUnits)).mul_left _
  unfold boundaryClock
  rw [Nat.add_mul, Nat.div_mul_cancel hsec, Nat.mul_right_comm, ← Nat.add_mul, Nat.div_add_mod']

theorem boundaryClock_second {n : Nat} (h : validRate n = true) (sec : Nat) : boundaryClock n (sec * n) = sec * secUnits := by
  refine Nat.eq_of_mul_eq_mul_right (validRate_pos h) ?_
  rw [boundaryClock_mul h, Nat.mul_right_comm]

theorem boundaryClock_lt {n t u : Nat} (h : validRate n = true) (htu : t < u) : boundaryClock n t < boundaryClock n u := by
  refine Nat.lt_of_mul_lt_mul_right (a := n) ?_
  rw [boundaryClock_mul h, boundaryClock_mul h]
  exact Nat.mul_lt_mul_of_pos_right htu (by decide)

end Sys2Proof.Machine
end

section
open Sys2Proof Sys2Proof.Machine

/-- Settles O25: a boundary's clock times the rate is its number times a second. -/
theorem tickNumbersAndSeconds : Obligations.TickNumbersAndSeconds := by
  unfold Obligations.TickNumbersAndSeconds
  refine ⟨fun n sec k hn _ => ⟨?_, boundaryClock_second hn sec⟩, fun n m sec hn hm => ?_, fun n t u hn htu => boundaryClock_lt hn htu, by decide⟩
  · rw [boundaryClock_mul hn, Nat.add_mul, Nat.mul_right_comm]
    rfl
  · rw [boundaryClock_second hn, boundaryClock_second hm]

end

section
/-!
PROOFS. The tick generator under software control (R27, R32 to R35): what a write of KLN_TICK_CTRL leaves alone.
-/
namespace Sys2Proof.Machine

open Sys2Proof

theorem rateSet_of_invalid {n : Nat} (h : validRate n = false) (s : State) : Records s (s.rateSet n) := by
  unfold State.rateSet
  split
  · exact Records.rfl'
  · split
    · exact emit_records ..
    · rw [h]
      exact emit_records ..

@[simp] theorem condNote_f (s : State) (x : RegField) : s.condNote.f x = s.f x := rfl

theorem runStart_field (s : State) {x : RegField} (hrun : fieldsApart x F.KLN_TICK_CTRL_RUN) (hstate : fieldsApart x F.KLN_TICK_STATE_STATE)
    (hev : x.addr ∉ eventRegs) : s.runStart.f x = s.f x := by
  have hok : fieldOk F.KLN_TICK_CTRL_RUN := ⟨by decide, by decide⟩
  unfold State.runStart
  split
  · split
    · rw [f_emit _ _ _ _ hev, State.f_wf_ne _ hok hrun]
    · rw [condNote_f, State.f_wf_ne _ ⟨by decide, by decide⟩ hstate, State.f_wf_ne _ hok hrun]
  · rw [condNote_f, State.f_wf_ne _ hok hrun]

/-- A running or a stopped generator takes a cleared RUN in the register alone. -/
theorem runClear_of_standing {s : State} (h : s.genState = 1 ∨ s.genState = 3) : s.runClear = s.wf F.KLN_TICK_CTRL_RUN 0 := by
  have hgen : (s.wf F.KLN_TICK_CTRL_RUN 0).genState = s.genState := State.f_wf_ne s ⟨by decide, by decide⟩ (.inl (by decide)) 0
  unfold State.runClear
  refine if_neg ?_
  rw [hgen]
  omega

/-- A write whose rate is no valid one leaves every field beside RUN and STATE alone. -/
theorem tickCtrlWrite_field_of_invalid {s : State} {n : Nat} {run : Bool} (hn : validRate n = false)
    (hrun : run = true ∨ s.genState = 1 ∨ s.genState = 3) {x : RegField} (hctrl : fieldsApart x F.KLN_TICK_CTRL_RUN)
    (hstate : fieldsApart x F.KLN_TICK_STATE_STATE) (hev : x.addr ∉ eventRegs) : (s.tickCtrlWrite n run).f x = s.f x := by
  have hrec := rateSet_of_invalid hn s
  have hrate : (s.rateSet n).f x = s.f x := by
    unfold State.f
    rw [hrec.rd _ hev]
  unfold State.tickCtrlWrite
  cases run with
  | true =>
    dsimp only
    rw [if_pos rfl, runStart_field _ hctrl hstate hev, hrate]
  | false =>
    have hgen : (s.rateSet n).genState = s.genState := by
      unfold State.genState State.f
      rw [hrec.rd _ (by decide)]
    have hstand : (s.rateSet n).genState = 1 ∨ (s.rateSet n).genState = 3 := by
      rw [hgen]
      exact hrun.resolve_left Bool.false_ne_true
    dsimp only
    rw [if_neg Bool.false_ne_true, runClear_of_standing hstand, State.f_wf_ne _ ⟨by decide, by decide⟩ hctrl, hrate]

end Sys2Proof.Machine
end

section
open Sys2Proof Sys2Proof.Machine

/-- Settles O24: the divisors of 800,000,000 by their prime factors, and the fields that a refused rate leaves. -/
theorem tickValidRates : Obligations.TickValidRates := by
  unfold Obligations.TickValidRates
  refine ⟨fun n => ?_, fun n => ?_, fun n hn => ?_, fun s m n hlt hn run hrun => ?_⟩
  · rw [validRate_iff, dvd_coreClock_iff]
  · rw [validRate_iff, Nat.dvd_iff_mod_eq_zero]
  · exact Nat.mod_eq_zero_of_dvd (validRate_dvd hn (by decide))
  · have hmod : n % 131072 = n := Nat.mod_eq_of_lt hlt
    refine ⟨s.tickCtrlWrite n run, ?_, ?_, ?_, ?_⟩
    · exact congrArg (fun k => Host.Outcome.next (s.tickCtrlWrite k run)) hmod
    · exact tickCtrlWrite_field_of_invalid hn hrun (.inr (.inl (by decide))) (.inl (by decide)) (by decide)
    · exact tickCtrlWrite_field_of_invalid hn hrun (.inl (by decide)) (.inl (by decide)) (by decide)
    · exact tickCtrlWrite_field_of_invalid hn hrun (.inl (by decide)) (.inl (by decide)) (by decide)

end

section
/-!
PROOFS. The scheduler's decisions (R46, R48 to R50, R53): the refusals of a commit in their order, the item that joins the queue, and the
cancellation under the lead rule.
-/
namespace Sys2Proof.Machine

open Sys2Proof

theorem leadOk_iff {c t : Nat} : leadOk c t = true ↔ c + 3 ≤ t := decide_eq_true_iff

theorem ticking_iff (s : State) : s.ticking = true ↔ s.genState = 1 ∨ s.genState = 2 := by
  unfold State.ticking
  rw [Bool.or_eq_true, beq_iff_eq, beq_iff_eq]

/-- The blocks and registers that no timed write may name, by their addresses (R49, R537). -/
theorem schedTargetBad_iff (a : Nat) :
    schedTargetBad a = true ↔ (0x10000 ≤ a ∧ a < 0x20000) ∨ (0x1300000 ≤ a ∧ a < 0x1500000)
      ∨ (Reg.KLN_SCHED_TICK_LO ≤ a ∧ a ≤ Reg.KLN_SCHED_SEQ) := by
  have hblocks : (a / 0x100000 = 0x13 ∨ a / 0x100000 = 0x14) ↔ (0x1300000 ≤ a ∧ a < 0x1500000) := by omega
  unfold schedTargetBad
  simp only [Bool.or_eq_true, Bool.and_eq_true, decide_eq_true_iff, beq_iff_eq]
  rw [or_assoc, or_assoc, ← or_assoc (b := a / 0x100000 = 0x14), hblocks]

/-! ### The result registers of a master's own copy (R49, R541) -/

@[simp] theorem schedResult_tick (s : State) (m code : Nat) : (s.schedResult m code).tick = s.tick := by
  unfold State.schedResult
  split <;> rfl

/-- SEQ lies beside RESULT in the copy of one master. -/
theorem sched_code_seq_apart (m : Nat) : fieldsApart (privF m F.KLN_SCHED_RESULT_CODE) (privF m F.KLN_SCHED_SEQ_SEQ) :=
  .inl (Nat.add_right_cancel_iff.not.2 (by decide))

theorem schedResult_code (s : State) (m : Nat) {code : Nat} (h : code < 256) :
    (s.schedResult m code).f (privF m F.KLN_SCHED_RESULT_CODE) = code := by
  have hcode : (s.wf (privF m F.KLN_SCHED_RESULT_CODE) code).f (privF m F.KLN_SCHED_RESULT_CODE) = code := by
    rw [State.f_wf_same s (x := privF m F.KLN_SCHED_RESULT_CODE) ⟨Nat.zero_le 7, (by decide : 7 < 32)⟩]
    exact Nat.mod_eq_of_lt h
  unfold State.schedResult
  dsimp only
  split
  · rw [State.f_wf_ne _ (y := privF m F.KLN_SCHED_SEQ_SEQ) ⟨Nat.zero_le 31, (by decide : 31 < 32)⟩ (sched_code_seq_apart m), hcode]
  · exact hcode

theorem schedResult_seq (s : State) (m : Nat) (h : s.tick.seq < 2 ^ 32) :
    (s.schedResult m 0).f (privF m F.KLN_SCHED_SEQ_SEQ) = s.tick.seq := by
  unfold State.schedResult
  dsimp only
  rw [if_pos rfl, State.f_wf_same _ (x := privF m F.KLN_SCHED_SEQ_SEQ) ⟨Nat.zero_le 31, (by decide : 31 < 32)⟩, State.wf_tick]
  exact Nat.mod_eq_of_lt h

/-! ### A commit (R46, R48, R49, R53) -/

theorem lateDue_eq (s : State) (t : Nat) : s.lateDue t = max t (if s.tick.inTail then s.tick.num + 2 else s.tick.num + 1) := rfl

/-- The refusals of R49 in their order. -/
theorem schedCode_eq (s : State) (t addr : Nat) (lateOk : Bool) :
    s.schedCode t addr lateOk =
      if s.genState ≠ 1 ∧ s.genState ≠ 2 then 0x05
      else if (0x10000 ≤ addr ∧ addr < 0x20000) ∨ (0x1300000 ≤ addr ∧ addr < 0x1500000)
          ∨ (Reg.KLN_SCHED_TICK_LO ≤ addr ∧ addr ≤ Reg.KLN_SCHED_SEQ) then 0x03
      else if s.tick.num + 2 ^ 32 < t then 0x04
      else if s.tick.num + 3 ≤ t then
        if 1024 ≤ s.ordinary.length ∨ 128 ≤ (s.ordinary.filter fun i => i.tick == t).length then 0x02 else 0x00
      else if lateOk = false then 0x01
      else if 8 ≤ (s.lateAt (s.lateDue t)).length then 0x02 else 0x00 := by
  have hnoTime : (!s.ticking) = true ↔ s.genState ≠ 1 ∧ s.genState ≠ 2 := by
    rw [Bool.not_eq_true', Bool.eq_false_iff, ne_eq, ticking_iff, not_or]
  have hfull (a b : Nat) : (decide (1024 ≤ a) || decide (128 ≤ b)) = true ↔ 1024 ≤ a ∨ 128 ≤ b := by
    rw [Bool.or_eq_true, decide_eq_true_iff, decide_eq_true_iff]
  have hlateOk : (!lateOk) = true ↔ lateOk = false := Bool.not_eq_true' lateOk ▸ Iff.rfl
  unfold State.schedCode
  exact if_congr hnoTime rfl <| if_congr (schedTargetBad_iff addr) rfl <| if_congr Iff.rfl rfl <|
    if_congr leadOk_iff (if_congr (hfull _ _) rfl rfl) <| if_congr hlateOk rfl rfl

theorem schedCode_lt (s : State) (t addr : Nat) (lateOk : Bool) : s.schedCode t addr lateOk < 256 := by
  unfold State.schedCode
  dsimp only
  repeat' split
  all_goals decide

/-- An accepted item takes the next sequence number and joins at the end of the queue. -/
theorem schedule_accepted {s : State} {t addr : Nat} {lateOk : Bool} (h : s.schedCode t addr lateOk = 0) (m : Nat) (data mask : Word) :
    ∃ i : SchedItem, s.schedule m t addr data mask lateOk
        = (0, { s with tick.seq := (s.tick.seq + 1) % 2 ^ 32, tick.items := s.tick.items ++ [i] })
      ∧ i.seq = (s.tick.seq + 1) % 2 ^ 32 ∧ i.tick = t ∧ i.addr = addr ∧ i.master = m ∧ i.data = data ∧ i.mask = mask
      ∧ (i.late = true ↔ t < s.tick.num + 3) ∧ i.due = if s.tick.num + 3 ≤ t then t else s.lateDue t := by
  have hlate : (!leadOk s.tick.num t) = true ↔ t < s.tick.num + 3 := by
    rw [Bool.not_eq_true', Bool.eq_false_iff, ne_eq, leadOk_iff, Nat.not_le]
  have hdue : (if (!leadOk s.tick.num t) = true then s.lateDue t else t) = if s.tick.num + 3 ≤ t then t else s.lateDue t := by
    rw [if_congr (hlate.trans Nat.not_le.symm) rfl rfl, ite_not]
  unfold State.schedule
  rw [h]
  exact ⟨_, rfl, rfl, rfl, rfl, rfl, rfl, rfl, hlate, hdue⟩

theorem schedule_refused {s : State} {t addr : Nat} {lateOk : Bool} (h : s.schedCode t addr lateOk ≠ 0) (m : Nat) (data mask : Word) :
    s.schedule m t addr data mask lateOk = (s.schedCode t addr lateOk, s) := if_neg h

/-- The target tick and the address that master `m` has staged (R48). -/
def State.stagedTick (s : State) (m : Nat) : Nat := s.f64 (privF m F.KLN_SCHED_TICK_LO_TICK) (privF m F.KLN_SCHED_TICK_HI_TICK)
def State.stagedAddr (s : State) (m : Nat) : Nat := s.f (privF m F.KLN_SCHED_ADDR_ADDR) * 4

theorem schedCommit_both (s : State) (m : Nat) (lateOk : Bool) : s.schedCommit m lateOk true = s.schedResult m 0x08 := rfl

section Commit
variable {s : State} {m : Nat} {lateOk : Bool}

theorem schedCommit_refused (h : s.schedCode (s.stagedTick m) (s.stagedAddr m) lateOk ≠ 0) :
    s.schedCommit m lateOk false = s.schedResult m (s.schedCode (s.stagedTick m) (s.stagedAddr m) lateOk) := by
  have hr := schedule_refused h m (s.rd (priv m Reg.KLN_SCHED_DATA)) (s.rd (priv m Reg.KLN_SCHED_MASK))
  unfold State.stagedTick State.stagedAddr at hr ⊢
  unfold State.schedCommit
  dsimp only
  rw [if_neg Bool.false_ne_true, hr]

theorem schedCommit_accepted (h : s.schedCode (s.stagedTick m) (s.stagedAddr m) lateOk = 0) :
    ∃ i : SchedItem, s.schedCommit m lateOk false
        = { s with tick.seq := (s.tick.seq + 1) % 2 ^ 32, tick.items := s.tick.items ++ [i] }.schedResult m 0
      ∧ i.seq = (s.tick.seq + 1) % 2 ^ 32 ∧ i.tick = s.stagedTick m ∧ i.addr = s.stagedAddr m ∧ i.master = m
      ∧ i.data = s.rd (priv m Reg.KLN_SCHED_DATA) ∧ i.mask = s.rd (priv m Reg.KLN_SCHED_MASK)
      ∧ (i.late = true ↔ s.stagedTick m < s.tick.num + 3)
      ∧ i.due = if s.tick.num + 3 ≤ s.stagedTick m then s.stagedTick m else s.lateDue (s.stagedTick m) := by
  obtain ⟨i, hr, hi⟩ := schedule_accepted h m (s.rd (priv m Reg.KLN_SCHED_DATA)) (s.rd (priv m Reg.KLN_SCHED_MASK))
  refine ⟨i, ?_, hi⟩
  unfold State.stagedTick State.stagedAddr at hr
  unfold State.schedCommit
  dsimp only
  rw [if_neg Bool.false_ne_true, hr]

end Commit

/-! ### A cancellation (R50) -/

theorem cancelCode_unknown {s : State} {seq : Nat} (h : ∀ i ∈ s.tick.items, i.seq ≠ seq) : s.cancelCode seq = 0x07 := by
  have hfind : (s.tick.items.find? fun i => i.seq == seq) = none :=
    List.find?_eq_none.2 fun i hi => by rw [beq_iff_eq]; exact h i hi
  unfold State.cancelCode
  rw [hfind]

theorem cancelCode_of_unique {s : State} {seq : Nat} {i : SchedItem} (hi : i ∈ s.tick.items) (hseq : i.seq = seq)
    (huniq : ∀ j ∈ s.tick.items, j.seq = seq → j = i) : s.cancelCode seq = if leadOk s.tick.num i.tick then 0x06 else 0x01 := by
  have hfind : (s.tick.items.find? fun i => i.seq == seq) = some i := by
    cases h : s.tick.items.find? fun i => i.seq == seq with
    | none => exact absurd (beq_iff_eq.2 hseq) (List.find?_eq_none.1 h i hi)
    | some j => rw [huniq j (List.mem_of_find?_eq_some h) (beq_iff_eq.1 (List.find?_some h :))]
  unfold State.cancelCode
  rw [hfind]

section Cancel
variable {s : State} {m code : Nat} (h : s.cancelCode (s.rd (priv m Reg.KLN_SCHED_DATA)).toNat = code)
include h

theorem schedCancel_taken (hcode : code = 0x06) :
    s.schedCancel m false
      = { s with tick.items := s.tick.items.filter fun i => i.seq != (s.rd (priv m Reg.KLN_SCHED_DATA)).toNat }.schedResult m 0x06 := by
  subst hcode
  unfold State.schedCancel
  dsimp only
  rw [h]
  rfl

theorem schedCancel_refused (hcode : code ≠ 0x06) : s.schedCancel m false = s.schedResult m code := by
  unfold State.schedCancel
  dsimp only
  rw [h, if_neg hcode]
  rfl

end Cancel

end Sys2Proof.Machine
end

section
open Sys2Proof Sys2Proof.Machine

/-- Settles O28: the model's chain of refusals is the statement's, condition by condition, and the item is the one staged. -/
theorem schedulerDecidesACommit : Obligations.SchedulerDecidesACommit := by
  unfold Obligations.SchedulerDecidesACommit
  intro s m lateOk
  have hcode := schedCode_eq s (s.stagedTick (masterCode m)) (s.stagedAddr (masterCode m)) lateOk
  have hdue := lateDue_eq s (s.stagedTick (masterCode m))
  dsimp only
  refine ⟨⟨_, congrArg Host.Outcome.next (schedCommit_both ..), schedResult_code s _ (by decide), schedResult_tick ..⟩, ?_⟩
  unfold State.ordinary State.lateAt at hcode
  rw [hdue] at hcode
  refine hcode ▸ ?_
  by_cases h : s.schedCode (s.stagedTick (masterCode m)) (s.stagedAddr (masterCode m)) lateOk = 0
  · obtain ⟨i, hs, hseq, hi⟩ := schedCommit_accepted h
    rw [hdue] at hi
    refine ⟨_, congrArg Host.Outcome.next hs, (schedResult_code _ _ (by decide)).trans h.symm, fun hne => absurd h hne, fun _ => ?_⟩
    rw [schedResult_tick]
    exact ⟨rfl, schedResult_seq _ _ (Nat.mod_lt _ (by decide)), i, rfl, hseq, hi⟩
  · refine ⟨_, congrArg Host.Outcome.next (schedCommit_refused h), schedResult_code s _ (schedCode_lt ..), fun _ => schedResult_tick .., ?_⟩
    exact fun h0 => absurd h0 h

/-- Settles O29: the item named is the one found, and the lead rule decides on it. -/
theorem schedulerCancelsUnderTheLeadRule : Obligations.SchedulerCancelsUnderTheLeadRule := by
  unfold Obligations.SchedulerCancelsUnderTheLeadRule
  intro s m
  dsimp only
  refine ⟨fun hnone => ?_, fun i hi hseq huniq => ⟨fun hlead => ?_, fun hlate => ?_⟩⟩
  · refine ⟨_, congrArg Host.Outcome.next (schedCancel_refused (cancelCode_unknown hnone) (by decide)), schedResult_code s _ (by decide), ?_⟩
    exact schedResult_tick ..
  · have hcode : s.cancelCode (s.rd (priv (masterCode m) Reg.KLN_SCHED_DATA)).toNat = 0x06 := by
      rw [cancelCode_of_unique hi hseq huniq, if_pos (leadOk_iff.2 hlead)]
    refine ⟨_, congrArg Host.Outcome.next (schedCancel_taken hcode rfl), schedResult_code _ _ (by decide), ?_, fun j hj => ?_⟩
    · rw [schedResult_tick, List.mem_filter]
      rintro ⟨-, hne⟩
      exact (bne_iff_ne.1 hne) hseq
    · rw [schedResult_tick, List.mem_filter]
      refine ⟨And.left, fun hmem => ⟨hmem, bne_iff_ne.2 fun e => hj (huniq j hmem e)⟩⟩
  · have hcode : s.cancelCode (s.rd (priv (masterCode m) Reg.KLN_SCHED_DATA)).toNat = 0x01 := by
      rw [cancelCode_of_unique hi hseq huniq, if_neg (mt leadOk_iff.1 (Nat.not_le.2 hlate))]
    refine ⟨_, congrArg Host.Outcome.next (schedCancel_refused hcode (by decide)), schedResult_code s _ (by decide), ?_⟩
    exact schedResult_tick ..

end

section
/-!
PROOFS. The course of the generator (R30, R34, R37, R43): the number of a boundary, what a stop leaves, and the close of the staging.
-/
namespace Sys2Proof.Machine

open Sys2Proof

/-- What is kept from the head of a boundary on is kept in the tick of that boundary. -/
theorem boundary_num (s : State) (t : Nat) : (s.boundary t).tick.num = t := by
  have hhead : (s.tickHead t).tick.num = t := rfl
  have hrows : Keeps true (s.tickHead t) ((s.tickHead t).boundaryRows t) := boundaryRows_keeps t Keeps.rfl'
  have hblocks := timeMarkers_keeps (slateBoundary_keeps (servoTick_keeps (boundaryBlocks_keeps t hrows)))
  have hall := noticeForget_keeps (boundaryRetry_keeps (activation_keeps t hblocks))
  exact (hall.num rfl).trans hhead

theorem tickBoundary_of_run {s : State} (h : s.genState = 1) (hrun : s.tailGuard.f F.KLN_TICK_CTRL_RUN ≠ 0) :
    s.tickBoundary = s.tailGuard.boundary (s.tailGuard.tick.jump.getD (s.tailGuard.tick.num + 1)) := by
  unfold State.tickBoundary
  rw [if_neg (not_not.2 h)]
  exact if_neg hrun

theorem tickBoundary_of_stop {s : State} (h : s.genState = 1) (hrun : s.tailGuard.f F.KLN_TICK_CTRL_RUN = 0) :
    s.tickBoundary = s.tailGuard.pinsLast.stopNow := by
  unfold State.tickBoundary
  rw [if_neg (not_not.2 h)]
  exact if_pos hrun

theorem tickBoundary_idle {s : State} (h : s.genState ≠ 1) : s.tickBoundary = s := if_pos h

/-! ### The stop (R34) -/

@[simp] theorem f_with_tick (s : State) (k : TickSt) (x : RegField) : { s with tick := k }.f x = s.f x := rfl

/-- A stop ends with its two fields and an empty scheduler: what comes before them is some state. -/
theorem stopNow_ends (s : State) :
    ∃ (u : State) (k : TickSt), s.stopNow = { (u.wf F.KLN_TICK_STATE_STATE 3).wf F.KLN_TICK_CTRL_RUN 0 with tick := k } ∧ k.items = [] := by
  unfold State.stopNow
  exact ⟨_, _, rfl, rfl⟩

theorem stopNow_items (s : State) : s.stopNow.tick.items = [] := by
  obtain ⟨u, k, hu, hk⟩ := stopNow_ends s
  rw [hu, hk]

theorem stopNow_genState (s : State) : s.stopNow.genState = 3 := by
  obtain ⟨u, k, hu, -⟩ := stopNow_ends s
  unfold State.genState
  rw [hu, f_with_tick, State.f_wf_ne _ ⟨by decide, by decide⟩ (.inl (by decide)), State.f_wf_same _ ⟨by decide, by decide⟩]
  rfl

theorem stopNow_run (s : State) : s.stopNow.f F.KLN_TICK_CTRL_RUN = 0 := by
  obtain ⟨u, k, hu, -⟩ := stopNow_ends s
  rw [hu, f_with_tick, State.f_wf_same _ ⟨by decide, by decide⟩]
  rfl

theorem tickStop_eq {s : State} (h : s.genState ≠ 3) : s.tickStop = ((s.wf F.KLN_TICK_CTRL_RUN 0).tailGuard.pinsLast).stopNow := if_neg h

theorem tickStop_idle {s : State} (h : s.genState = 3) : s.tickStop = s := if_pos h

/-! ### The close of the staging (R43) -/

theorem stagingClose_idle {s : State} (h : s.genState ≠ 1 ∨ s.tick.stagingClosed = true) (m : TickMeas) : s.stagingClose m = s := if_pos h

theorem stagingClose_closed {s : State} (h : s.genState = 1) (hopen : s.tick.stagingClosed = false) (m : TickMeas) :
    (s.stagingClose m).tick.stagingClosed = true := by
  have hgo : ¬(s.genState ≠ 1 ∨ s.tick.stagingClosed = true) := by
    rw [h, hopen]
    decide
  unfold State.stagingClose
  rw [if_neg hgo]

end Sys2Proof.Machine
end

section
open Sys2Proof Sys2Proof.Machine

/-- Settles O26: the boundary's number is the one its head gives, and a stop ends with STATE, RUN and an empty scheduler. -/
theorem tickBoundaryCommand : Obligations.TickBoundaryCommand := by
  unfold Obligations.TickBoundaryCommand
  intro s
  dsimp only
  have hstopped (u : State) : u.stopNow.genState = 3 ∧ u.stopNow.f F.KLN_TICK_CTRL_RUN = 0 ∧ u.stopNow.tick.items = [] :=
    ⟨stopNow_genState u, stopNow_run u, stopNow_items u⟩
  have hkeep : Keeps true s s := Keeps.rfl'
  refine ⟨fun hgen => ⟨fun hrun => ?_, fun hrun => ?_⟩, fun hgen => ?_, fun hgen => ?_, fun hgen => ?_, fun m => ⟨fun hgen hopen => ?_, fun hidle => ?_⟩⟩
  · have hne : s.tailGuard.f F.KLN_TICK_CTRL_RUN ≠ 0 := by
      rw [hrun]
      decide
    exact ⟨_, congrArg Host.Outcome.next (tickBoundary_of_run hgen hne), boundary_num ..⟩
  · refine ⟨_, congrArg Host.Outcome.next (tickBoundary_of_stop hgen hrun), hstopped _, ?_⟩
    exact (stopNow_keeps (pinsLast_keeps (tailGuard_keeps hkeep))).num rfl
  · exact congrArg Host.Outcome.next (tickBoundary_idle hgen)
  · refine ⟨_, congrArg Host.Outcome.next (tickStop_eq hgen), hstopped _, ?_⟩
    exact (stopNow_keeps (pinsLast_keeps (tailGuard_keeps (wf_keeps _ _ hkeep)))).num rfl
  · exact congrArg Host.Outcome.next (tickStop_idle hgen)
  · exact ⟨_, rfl, stagingClose_closed hgen hopen m, (stagingClose_keeps m hkeep).num rfl⟩
  · exact congrArg Host.Outcome.next (stagingClose_idle hidle m)

end

section
/-!
PROOFS. The start of the generator lands every write that waits for its boundary (R582), whatever register the write names.
-/
namespace Sys2Proof.Machine

open Sys2Proof

theorem exec_tickGeneratorStart (s : State) : exec .tickGeneratorStart s = .next s.generatorStart := rfl

/-- A write of STOPPED to KLN_TICK_STATE that waits for a boundary. No command of the hub holds a write of this register (`heldReg` leaves it
out), but the state can name one. -/
def stateWrite : HeldWrite := { due := 0, addr := Reg.KLN_TICK_STATE, data := 3#32, mask := 0xFFFFFFFF#32, master := 1 }

/-- A hub after reset that is ready to start its generator (R33), with that write held. -/
def readyWithStateWrite : State :=
  { State.reset.wf F.CLK_STAT_SMP_LOCK 1 with tick.firstLock := true, tick.held := [stateWrite] }

theorem readyWithStateWrite_ready : readyWithStateWrite.startReady = true ∧ readyWithStateWrite.umb.held = false
    ∧ readyWithStateWrite.umb.thermal = false := by decide +kernel

/-- The first boundary lands the write, and the generator shows STOPPED. -/
theorem readyWithStateWrite_starts_stopped : readyWithStateWrite.generatorStart.genState = 3 := by decide +kernel

theorem startReady_iff (s : State) :
    s.startReady = true ↔ s.genState = 0 ∧ s.f F.KLN_TICK_CTRL_RUN = 1 ∧ s.tick.firstLock = true ∧ s.f F.CLK_STAT_SMP_LOCK = 1 := by
  unfold State.startReady
  simp only [Bool.and_eq_true, beq_iff_eq, and_assoc]

end Sys2Proof.Machine
end

section
open Sys2Proof Sys2Proof.Machine

/-- Refutes O27: its `t.genState = 1` after TICK_GENERATOR_START is claimed of every state, and fails in `readyWithStateWrite`, where the boundary
of the start lands a held write of KLN_TICK_STATE. -/
theorem not_tickRateRunAndStart : ¬ Obligations.TickRateRunAndStart := by
  unfold Obligations.TickRateRunAndStart
  rintro ⟨hstart, -⟩
  obtain ⟨hready, hheld, hthermal⟩ := readyWithStateWrite_ready
  obtain ⟨hgen, hrun, hlock, hsmp⟩ := (startReady_iff _).1 hready
  obtain ⟨t, sec, ht, -, hrunning, -⟩ := (hstart readyWithStateWrite).1 ⟨hgen, hrun, hlock, hsmp, hheld, hthermal⟩
  have hnext : readyWithStateWrite.generatorStart = t := Host.Outcome.next.inj ((exec_tickGeneratorStart _).symm.trans ht)
  have hstopped := readyWithStateWrite_starts_stopped
  rw [hnext, hrunning] at hstopped
  exact absurd hstopped (by decide)

end

section
/-!
PROOFS. What edge records, triggers, gap records and frames leave alone: the clock, the tick number, network time's own state, and the
registers between Umber's and the edge timer's, those of the tick generator and of network time among them.
-/
namespace Sys2Proof.Machine

open Sys2Proof

/-- A register of a block between UMB and EDG (R537). -/
def midReg (a : Nat) : Prop := 0x20000 ≤ a ∧ a < 0xB00000

/-- `t` comes from `s` with the clock, the tick number and network time's state untouched; with `b` true, also the registers of `midReg`. -/
structure Spares (b : Bool) (s t : State) : Prop where
  rd : b = true → ∀ a, midReg a → t.rd a = s.rd a
  clock : t.tick.clock = s.tick.clock
  num : t.tick.num = s.tick.num
  ptp : t.ptp = s.ptp

variable {b : Bool} {s0 s : State}

namespace Spares

theorem refl : Spares b s s := ⟨fun _ _ _ => rfl, rfl, rfl, rfl⟩

theorem trans {t : State} (h : Spares b s0 s) (k : Spares b s t) : Spares b s0 t :=
  ⟨fun hb a ha => (k.rd hb a ha).trans (h.rd hb a ha), k.clock.trans h.clock, k.num.trans h.num, k.ptp.trans h.ptp⟩

/-- An update of the parts of the state beside registers and network time, and of the tick beside its clock and number. -/
theorem update (h : Spares b s0 s) {k : TickSt} (hclock : k.clock = s.tick.clock) (hnum : k.num = s.tick.num)
    {ki hu fr fl pn ed kn qm pr cr up sp um pe} :
    Spares b s0 (State.mk s.mem k ki hu fr fl pn s.ptp ed kn qm pr cr up sp um pe) :=
  h.trans ⟨fun _ _ _ => rfl, hclock, hnum, rfl⟩

theorem ite {c : Prop} [Decidable c] {x y : State} (hx : Spares b s0 x) (hy : Spares b s0 y) : Spares b s0 (if c then x else y) := by
  split <;> assumption

theorem foldl {α : Type} {f : State → α → State} (hf : ∀ x a, Spares b s0 x → Spares b s0 (f x a)) (l : List α) (h : Spares b s0 s) :
    Spares b s0 (l.foldl f s) := by
  induction l generalizing s with
  | nil => exact h
  | cons a l ih => exact ih (hf _ a h)

/-! ### Registers and records -/

theorem wr (h : Spares b s0 s) (a : Nat) (w : Word) (ha : b = true → ¬midReg a) : Spares b s0 (s.wr a w) :=
  h.trans ⟨fun hb _ hc => State.rd_wr_ne s w fun e => ha hb (e ▸ hc), rfl, rfl, rfl⟩

theorem wf (h : Spares b s0 s) (x : RegField) (v : Nat) (ha : b = true → ¬midReg x.addr) : Spares b s0 (s.wf x v) := h.wr _ _ ha

/-- Recording writes registers of the HUB and UMB blocks alone. -/
theorem records {t : State} (h : Spares b s0 s) (k : Records s t) : Spares b s0 t := by
  refine h.trans ⟨fun _ a ha => k.rd a fun hm => ?_, congrArg TickSt.clock k.tick, congrArg TickSt.num k.tick, k.ptp⟩
  have hlow : ∀ c ∈ eventRegs, c < 0x20000 := by decide
  exact Nat.not_lt.2 ha.1 (hlow a hm)

theorem emit (h : Spares b s0 s) (n : EvName) (o : Nat) (d : List Int) : Spares b s0 (s.emit n o d) := h.records (emit_records ..)

end Spares

/-- A register of a block at or above the edge timer's is none of `midReg`. -/
theorem not_midReg {a : Nat} (h : 0xB00000 ≤ a) : ¬midReg a := fun k => Nat.not_lt.2 h k.2

theorem not_midReg_add {a k : Nat} (h : 0xB00000 ≤ a) : ¬midReg (a + k) := not_midReg (Nat.le_add_right_of_le h)

/-! ### Queues (R380, R385) -/

theorem takeCells_spares (h : Spares b s0 s) (l : List Nat) (n : Nat) : Spares b s0 (s.takeCells l n).2 := by
  unfold State.takeCells
  exact ((h.wf F.QMG_POOL_FREE _ fun _ => not_midReg (by decide)).update rfl rfl).wf F.QMG_POOL_LOW_LOW _ fun _ => not_midReg (by decide)

theorem showDepth_spares (h : Spares b s0 s) (q : Nat) : Spares b s0 (s.showDepth q) := by
  unfold State.showDepth State.wb
  exact ((h.wf _ _ fun _ => not_midReg_add (by decide)).wf _ _ fun _ => not_midReg_add (by decide)).wf _ _ fun _ => not_midReg_add (by decide)

theorem showQueue_spares (h : Spares b s0 s) (q : Nat) (rise : Bool) : Spares b s0 (s.showQueue q rise) := by
  have hdepth := showDepth_spares h q
  have hmark (x : RegField) (v : Nat) (w : Word) (n : EvName) (d : List Int) (hx : 0xB00000 ≤ x.addr) :
      Spares b s0 ((((s.showDepth q).wf x v).wr (Reg.QMG_DEEP_MAP (q / 32)) w).emit n (objQueue q) d) :=
    ((hdepth.wf x v fun _ => not_midReg hx).wr _ w fun _ => not_midReg_add (by decide)).emit n _ d
  unfold State.showQueue
  exact .ite (hmark _ _ _ _ _ (Nat.le_add_right_of_le (by decide))) (.ite (hmark _ _ _ _ _ (Nat.le_add_right_of_le (by decide))) hdepth)

theorem link_spares (h : Spares b s0 s) (q : Nat) (ws : List Word) (rs : List Range) (bs : List Nat) : Spares b s0 (s.link q ws rs bs) := by
  unfold State.link State.bumpWrap
  refine showQueue_spares (Spares.wf ?_ _ _ fun _ => not_midReg_add (by decide)) q true
  exact h.update rfl rfl

theorem putPacket_spares (h : Spares b s0 s) (q : Nat) (ws : List Word) : Spares b s0 (s.putPacket q ws).2 := by
  unfold State.putPacket State.bump State.linkWhole
  split
  · exact h.wf _ _ fun _ => not_midReg_add (by decide)
  · exact link_spares (takeCells_spares h _ _) ..

theorem putRecord_spares (h : Spares b s0 s) (q : Nat) (ws : List Word) : Spares b s0 (s.putRecord q ws).2 := by
  have hput := putPacket_spares h q ws
  have hdrop : Spares b s0 ((s.putPacket q ws).2.bump F.EDG_STAT_QDROP 1) := hput.wf _ _ fun _ => not_midReg (by decide)
  unfold State.putRecord
  split
  · exact h
  · dsimp only
    split
    · exact hput.update rfl rfl
    · exact (Spares.ite hdrop (hdrop.emit ..)).update rfl rfl

/-! ### Frames that leave (R463, R511) -/

theorem fenceHit_spares (h : Spares b s0 s) (bit : Nat) : Spares b s0 (s.fenceHit bit) := h.wf _ _ fun _ => not_midReg (by decide)

theorem txLeave_spares (h : Spares b s0 s) (i : TxItem) : Spares b s0 (s.txLeave i) := by
  unfold State.txLeave
  exact .foldl (fun _ _ hx => .ite hx (hx.update rfl rfl)) _ (.foldl (fun _ _ hx => hx.update rfl rfl) _ h)

theorem txHold_spares (h : Spares b s0 s) (l : Nat) : Spares b s0 (s.txHold l) := by
  have hmark {x : State} (hx : Spares b s0 x) : Spares b s0 (if l = 16 ∨ l = 17 then x.wf (F.UPL_Un_STAT_CAPPED (l - 16)) 1 else x) :=
    .ite (hx.wf _ _ fun _ => not_midReg_add (by decide)) hx
  have hheld := hmark (x := { s with hub.heldAt := tabSet (fun _ => none) s.hub.heldAt l (some s.tick.clock) }) (h.update rfl rfl)
  unfold State.txHold
  exact .ite ((fenceHit_spares hheld 2).records (umberEvent_records ..)) hheld

theorem txDrain_spares (h : Spares b s0 s) (q : List TxItem) : Spares b s0 (s.txDrain q).1 := by
  induction q generalizing s with
  | nil => exact h
  | cons i r ih =>
    unfold State.txDrain
    split
    · exact ih (txLeave_spares h i)
    · exact .foldl (fun x l hx => txHold_spares hx l) _ h

theorem txPump_spares (h : Spares b s0 s) (l : Nat) : Spares b s0 (s.txPump l) := by
  have hdrain := txDrain_spares h (tabGet (fun _ => []) s.hub.txq l)
  unfold State.txPump
  dsimp only
  split
  · exact ((hdrain.update rfl rfl).wf _ _ fun _ => not_midReg_add (by decide)).wf _ _ fun _ => not_midReg_add (by decide)
  · exact hdrain.update rfl rfl

theorem txSend_spares (h : Spares b s0 s) (l : Nat) (front : Bool) (q : List TxItem) : Spares b s0 (s.txSend l front q) := by
  unfold State.txSend
  exact txPump_spares (h.update rfl rfl) l

theorem slateSend_spares (h : Spares b s0 s) (data : List Int) (payload : List Nat) : Spares b s0 (s.slateSend data payload) :=
  txSend_spares h ..

theorem mirror_spares (h : Spares b s0 s) (rtype : Nat) (data : List Int) : Spares b s0 (s.mirror rtype data) := by
  unfold State.mirror State.mirrorSend
  exact .ite (slateSend_spares (h.update rfl rfl) ..) h

theorem freeWords_spares (h : Spares b s0 s) (n : Nat) : Spares b s0 (s.freeWords n).2 := by
  induction n generalizing s with
  | zero => exact h
  | succ n ih =>
    unfold State.freeWords
    exact ih (h.update rfl rfl)

theorem udpFrame_spares (h : Spares b s0 s) (k : SentKind) (vals : List Int) (d : Dest) (data : List Nat) :
    Spares b s0 (s.udpFrame k vals d data).2 := by
  unfold State.udpFrame State.prpFrame
  exact (freeWords_spares h 1).update rfl rfl

theorem uplinkSend_spares (h : Spares b s0 s) (k : SentKind) (vals : List Int) (d : Dest) (data : List Nat) :
    Spares b s0 (s.uplinkSend k vals d data) := by
  unfold State.uplinkSend
  exact .ite (txSend_spares (udpFrame_spares h ..) ..) h

/-! ### A trigger fires (R362 to R364) -/

theorem toTrig_spares (h : Spares b s0 s) (u st : Nat) : Spares b s0 (s.toTrig u st) := by
  have hst : Spares b s0 (s.wf (F.KND_TRu_STAT_STATE u) st) := h.wf _ _ fun _ => not_midReg_add (by decide)
  have hlatch : Spares b s0 ((s.wf (F.KND_TRu_STAT_STATE u) st).wf F.HUB_INT_RAW_FIRE 1) :=
    hst.wf _ _ fun _ k => absurd k.1 (by decide)
  unfold State.toTrig State.mirrorTrig
  exact .ite (mirror_spares (.ite hlatch hst) ..) (.ite hlatch hst)

theorem sendFire_spares (h : Spares b s0 s) (u time : Nat) (cause : FireCause) : Spares b s0 (s.sendFire u time cause) := by
  unfold State.sendFire State.trigSend
  exact uplinkSend_spares (h.update rfl rfl) ..

theorem fire_spares (h : Spares b s0 s) (u time : Nat) (cause : FireCause) (net : Option Nat) : Spares b s0 (s.fire u time cause net) := by
  have hset (x : TrigSt) : Spares b s0 (s.setTrig u x) := h.update rfl rfl
  have hto (c : Bool) (x : TrigSt) : Spares b s0 (if c then (s.setTrig u x).toTrig u 3 else s.setTrig u x) := .ite (toTrig_spares (hset x) u 3) (hset x)
  unfold State.fire
  exact .ite (h.wf _ _ fun _ => not_midReg_add (by decide)) (.ite (sendFire_spares (hto _ _) ..) (hto _ _))

/-! ### Intervals, groups and released stamps (R347 to R355) -/

theorem setNow_spares (h : Spares b s0 s) {a : Nat} (data mask : Word) (ha : 0xB00000 ≤ a) : Spares b s0 (s.setNow a data mask) := by
  unfold State.setNow
  dsimp only
  split
  · refine Spares.wr ?_ _ _ fun _ => not_midReg ha
    refine h.update ?_ ?_ <;> rfl
  · exact h.wr _ _ fun _ => not_midReg ha

theorem intervalClose_spares (h : Spares b s0 s) (i : Nat) (st : Stamp) (value : Int) (flags : Nat) (timeout : Bool) :
    Spares b s0 (s.intervalClose i st value flags timeout) := by
  have hput (q : Nat) (ws : List Word) (x : Interval) : Spares b s0 ((s.putRecord q ws).2.setInterval i x) :=
    (putRecord_spares h q ws).update rfl rfl
  unfold State.intervalClose
  exact .ite (hput _ _ _) (setNow_spares (hput _ _ _) _ _ (Nat.le_add_right_of_le (by decide)))

theorem intervalEdge_spares (h : Spares b s0 s) (u : Nat × Bool × Bool) (e : Stamp) : Spares b s0 (s.intervalEdge u e) := by
  have hopen {x : State} (hx : Spares b s0 x) (c : Bool) (y : Interval) : Spares b s0 (if c then x.setInterval u.1 y else x) :=
    .ite (hx.update rfl rfl) hx
  unfold State.intervalEdge
  dsimp only
  split
  · exact hopen h _ _
  · exact .ite (hopen (intervalClose_spares h ..) _ _) (.ite (intervalClose_spares h ..) h)

theorem groupReport_spares (h : Spares b s0 s) (g : Nat) (o : Nat × List (Option Stamp)) (extra : Nat) :
    Spares b s0 (s.groupReport g o extra) := by
  have hput (q : Nat) (ws : List Word) (x : GroupSt) : Spares b s0 (((s.putRecord q ws).2.bumpWrap (F.EDG_Gg_CNT_GROUPS g) 1).setGroup g x) :=
    ((putRecord_spares h q ws).wf _ _ fun _ => not_midReg_add (by decide)).update rfl rfl
  unfold State.groupReport
  exact .ite (fire_spares (hput _ _ _) ..) (hput _ _ _)

theorem groupClose_spares (h : Spares b s0 s) (g : Nat) (o : Nat × List (Option Stamp)) (extra : Nat) (at' : Int) :
    Spares b s0 (s.groupClose g o extra at') := by
  unfold State.groupClose
  exact (Spares.ite (groupReport_spares h ..) (h.wf _ _ fun _ => not_midReg_add (by decide))).update rfl rfl

theorem groupEdge_spares (h : Spares b s0 s) (u : Nat × List Nat) (e : Stamp) : Spares b s0 (s.groupEdge u e) := by
  have hset {x : State} (hx : Spares b s0 x) (y : GroupSt) : Spares b s0 (x.setGroup u.1 y) := hx.update rfl rfl
  have htake {x : State} (hx : Spares b s0 x) (c : Bool) (o : Nat × List (Option Stamp)) (at' : Int) (y : GroupSt) :
      Spares b s0 (if c then x.groupClose u.1 o 0 at' else x.setGroup u.1 y) := .ite (groupClose_spares hx ..) (hset hx y)
  have hopen {x : State} (hx : Spares b s0 x) (ks : List Nat) (p : Bool) (f : Nat → State) (hf : ∀ k, Spares b s0 (f k)) :
      Spares b s0 (match ks with | k :: _ => if p then f k else x | [] => x) := by
    split
    · exact .ite (hf _) hx
    · exact hx
  unfold State.groupEdge
  dsimp only
  split
  · exact hopen h _ _ _ fun k => htake (hset h _) _ _ _ _
  · refine .ite (hopen (groupClose_spares h ..) _ _ _ fun k => ?_) (htake h _ _ _ _)
    exact htake (hset (groupClose_spares h ..) _) _ _ _ _

theorem releaseOne_spares (h : Spares b s0 s) : Spares b s0 s.releaseOne := by
  unfold State.releaseOne
  split
  · exact h
  · next e r _ =>
    have hpop : Spares b s0 { s with edg.fifo := r } := h.update rfl rfl
    have hput := putRecord_spares hpop e.queue (recordHead e.src 1 e.flags e.at')
    refine .foldl (fun x u hx => groupEdge_spares hx u e) _ (.foldl (fun x u hx => intervalEdge_spares hx u e) _ ?_)
    exact .ite (.ite hput (hput.update rfl rfl)) hpop

theorem intervalCut_spares (h : Spares b s0 s) (i : Nat) : Spares b s0 (s.intervalCut i) := by
  unfold State.intervalCut
  split
  · exact intervalClose_spares h ..
  · exact h

theorem edgCut_spares (h : Spares b s0 s) : Spares b s0 s.edgCut := by
  unfold State.edgCut
  refine .foldl (fun x i hx => intervalCut_spares hx i) _ (.foldl (fun x g hx => ?_) _ (.foldl (fun x _ hx => releaseOne_spares hx) _ h))
  split
  · exact ((groupClose_spares hx ..).wf _ _ fun _ => not_midReg_add (by decide)).emit ..
  · exact hx

/-! ### Gap records (R19, R455) -/

theorem gap_spares (h : Spares b s0 s) (g : Gap) : Spares b s0 (s.gap g) := by
  have hgpe : Spares b s0 (s.gapGpe g) := by
    unfold State.gapGpe
    exact .ite h (.ite (h.update rfl rfl) (h.update rfl rfl))
  unfold State.gap State.gapHeld
  dsimp only
  split
  · split <;> exact hgpe.update rfl rfl
  · split
    · exact hgpe.update rfl rfl
    · exact .ite (Spares.emit (hgpe.update rfl rfl) ..) (hgpe.update rfl rfl)

theorem idleGap_spares (h : Spares b s0 s) (cause : GapCause) (lo hi t0 t1 c : Nat) : Spares b s0 (s.idleGap cause lo hi t0 t1 c) := by
  unfold State.idleGap
  split
  · split
    · exact gap_spares h _
    · exact h
  · exact .ite h (gap_spares (h.update rfl rfl) _)

theorem holdGap_spares (h : Spares b s0 s) (lo hi c : Nat) : Spares b s0 (s.holdGap lo hi c) := by
  unfold State.holdGap
  split
  · split
    · exact gap_spares h _
    · exact h
  · exact .ite h (gap_spares h _)

/-! ### Launches that a step passes over (R328) -/

theorem launchStep_spares (h : Spares b s0 s) (old new : Nat) : Spares b s0 (s.launchStep old new) := by
  unfold State.launchStep
  refine .foldl (fun x e hx => ?_) _ h
  have hset (y : Option LaunchSlot) : Spares b s0 (x.setLslot e.1 y) := hx.update rfl rfl
  split
  · refine .ite (.ite (hset _) ?_) hx
    unfold State.launchResult
    exact ((hset _).wf _ _ fun _ => not_midReg_add (by decide)).wf _ _ fun _ => not_midReg_add (by decide)
  · exact hx

end Sys2Proof.Machine
end

section
/-!
PROOFS. The restep (R37, R38, R324 to R326): the commands that arm it, its refusals, and its application at the end of the armed tick.
-/
namespace Sys2Proof.Machine

open Sys2Proof

/-! ### Registers written one after another -/

/-- Every register outside `l` keeps its value. -/
def State.SameBut (s t : State) (l : List Nat) : Prop := ∀ a, a ∉ l → t.rd a = s.rd a

namespace State.SameBut

variable {s t u : State} {l : List Nat}

theorem refl (s : State) (l : List Nat) : s.SameBut s l := fun _ _ => rfl

theorem trans (h : s.SameBut t l) (k : t.SameBut u l) : s.SameBut u l := fun a ha => (k a ha).trans (h a ha)

theorem wr (h : s.SameBut t l) {a : Nat} (w : Word) (ha : a ∈ l) : s.SameBut (t.wr a w) l :=
  h.trans fun _ hb => State.rd_wr_ne t w fun e => hb (e.symm.subst (motive := (· ∈ l)) ha)

theorem wf (h : s.SameBut t l) {x : RegField} (v : Nat) (hx : x.addr ∈ l) : s.SameBut (t.wf x v) l := h.wr _ hx

theorem emit (h : s.SameBut t l) (n : EvName) (o : Nat) (d : List Int) (he : eventRegs ⊆ l) : s.SameBut (t.emit n o d) l :=
  h.trans fun _ hb => rd_emit t n o d fun hm => hb (he hm)

theorem mono {m : List Nat} (h : s.SameBut t l) (hlm : l ⊆ m) : s.SameBut t m := fun a ha => h a fun hl => ha (hlm hl)

theorem f (h : s.SameBut t l) {x : RegField} (hx : x.addr ∉ l) : t.f x = s.f x := by
  unfold State.f
  rw [h _ hx]

theorem f64 (h : s.SameBut t l) {lo hi : RegField} (hlo : lo.addr ∉ l) (hhi : hi.addr ∉ l) : t.f64 lo hi = s.f64 lo hi := by
  unfold State.f64
  rw [h.f hlo, h.f hhi]

end State.SameBut

/-! ### A pair of LO and HI words (R542) -/

/-- A number of 64 bits reads as it was written. -/
theorem f64_wf64_same (s : State) {lo hi : RegField} (hlo : lo.hi = 31 ∧ lo.lo = 0) (hhi : hi.hi = 31 ∧ hi.lo = 0) (hne : lo.addr ≠ hi.addr)
    {v : Nat} (hv : v < 2 ^ 64) : (s.wf64 lo hi v).f64 lo hi = v := by
  have hokLo : fieldOk lo := by unfold fieldOk; omega
  have hokHi : fieldOk hi := by unfold fieldOk; omega
  unfold State.wf64 State.f64
  rw [State.f_wf_ne _ hokHi (.inl hne), State.f_wf_same _ hokLo, State.f_wf_same _ hokHi, hlo.1, hlo.2, hhi.1, hhi.2]
  omega

theorem bitsOf_lt (n : Nat) (v : Int) : bitsOf n v < 2 ^ n := by
  have hpos : (0 : Int) < ((2 ^ n : Nat) : Int) := by positivity
  have hlt := Int.emod_lt_of_pos v hpos
  have hge := Int.emod_nonneg v hpos.ne'
  unfold bitsOf
  omega

/-! ### GO and CANCEL (R325) -/

theorem restepArmed_iff (s : State) : s.restepArmed = true ↔ s.f F.PTP_RESTEP_STAT_RESULT = 1 := beq_iff_eq

theorem goCode_lt (s : State) (mode : Bool) : s.goCode mode < 256 := by
  unfold State.goCode
  repeat' split
  all_goals decide

/-- A GO that is accepted shows 1 and takes its mode. -/
def State.goTaken (s : State) (mode : Bool) : State := { s with ptp.mode := mode }.wf F.PTP_RESTEP_STAT_RESULT 1

theorem goTaken_same (s : State) (mode : Bool) : s.SameBut (s.goTaken mode) [Reg.PTP_RESTEP_STAT] :=
  State.SameBut.wf (t := { s with ptp.mode := mode }) (fun _ _ => rfl) _ (by decide)

theorem goTaken_result (s : State) (mode : Bool) : (s.goTaken mode).f F.PTP_RESTEP_STAT_RESULT = 1 := by
  unfold State.goTaken
  rw [State.f_wf_same _ ⟨by decide, by decide⟩]
  rfl

theorem goTaken_mode (s : State) (mode : Bool) : (s.goTaken mode).ptp.mode = mode := by
  unfold State.goTaken
  rw [State.wf_ptp]

theorem goTaken_tick (s : State) (mode : Bool) : (s.goTaken mode).tick = s.tick := by
  unfold State.goTaken
  rw [State.wf_tick]

theorem restepCmd_both (s : State) (mode : Bool) : s.restepCmd true mode true = s.emit .RESTEP_CMD_BAD 0 [] := rfl

theorem restepCmd_go (s : State) (mode : Bool) :
    s.restepCmd true mode false = if s.f F.PTP_RESTEP_STAT_RESULT = 1 then s
      else if s.goCode mode = 1 then s.goTaken mode else s.restepRefuse (s.goCode mode) := by
  unfold State.restepCmd State.goTaken
  rw [Bool.and_false, if_neg Bool.false_ne_true, if_pos rfl]
  exact if_congr (restepArmed_iff s) rfl rfl

theorem restepCmd_cancel {s : State} (h : s.f F.PTP_RESTEP_STAT_RESULT = 1) (hlead : s.tick.num + 2 ≤ s.restepTick) :
    s.restepCmd false false true = s.wf F.PTP_RESTEP_STAT_RESULT 8 := by
  unfold State.restepCmd
  simp [(restepArmed_iff s).2 h, hlead]

theorem restepCmd_cancel_idle {s : State} (h : s.f F.PTP_RESTEP_STAT_RESULT ≠ 1 ∨ s.restepTick < s.tick.num + 2) :
    s.restepCmd false false true = s := by
  have hno : (s.restepArmed && decide (s.tick.num + 2 ≤ s.restepTick)) = false := by
    rw [Bool.and_eq_false_iff, decide_eq_false_iff_not, Nat.not_le, Bool.eq_false_iff, ne_eq, restepArmed_iff]
    exact h
  unfold State.restepCmd
  rw [Bool.and_assoc, hno]
  rfl

/-! ### The end of an authorisation (R324) and of a hold (R38) -/

theorem exec_restepAuthExpiry_due {s : State} (h : s.restepExp ≤ s.tick.num) :
    exec .restepAuthExpiry s = .next (s.wf F.PTP_RESTEP_AUTH_VALID 0) := congrArg Host.Outcome.next (if_pos h)

theorem exec_restepAuthExpiry_early {s : State} (h : s.tick.num < s.restepExp) : exec .restepAuthExpiry s = .next s :=
  congrArg Host.Outcome.next (if_neg (Nat.not_le.2 h))

theorem wf_restores (s : State) (x : RegField) (v : Nat) : { s.wf x v with mem := s.mem } = s := rfl

theorem holdResume_idle {s : State} (h : s.genState ≠ 2) : s.holdResume = s := if_pos h

theorem holdResume_eq {s : State} (h : s.genState = 2) :
    s.holdResume = (s.wf F.KLN_TICK_STATE_STATE 1).boundary (s.tick.num + 1) := if_neg (not_not.2 h)

/-! ### A refusal (R324, R326) -/

/-- The registers that a refusal writes. -/
def refuseRegs : List Nat := [Reg.PTP_RESTEP_STAT, Reg.PTP_RESTEP_AUTH, Reg.FNC_HIT]

/-- RESULT, and the authorisation that RESTEP_BOUND ends. -/
def State.refusalShown (s : State) (code : Nat) : State :=
  if code = 5 then (s.wf F.PTP_RESTEP_STAT_RESULT code).wf F.PTP_RESTEP_AUTH_VALID 0 else s.wf F.PTP_RESTEP_STAT_RESULT code

section Refuse
variable (s : State) (code : Nat)

theorem restepRefuse_eq :
    s.restepRefuse code = if 3 ≤ code ∧ code ≤ 5 then (s.refusalShown code).fenceHit 4 else s.refusalShown code := rfl

theorem refusalShown_result (h : code < 256) : (s.refusalShown code).f F.PTP_RESTEP_STAT_RESULT = code := by
  have hres : (s.wf F.PTP_RESTEP_STAT_RESULT code).f F.PTP_RESTEP_STAT_RESULT = code :=
    (State.f_wf_same s ⟨by decide, by decide⟩ code).trans (Nat.mod_eq_of_lt h)
  unfold State.refusalShown
  split
  · rw [State.f_wf_ne _ ⟨by decide, by decide⟩ (.inl (by decide)), hres]
  · exact hres

theorem refusalShown_valid : (s.refusalShown code).f F.PTP_RESTEP_AUTH_VALID = if code = 5 then 0 else s.f F.PTP_RESTEP_AUTH_VALID := by
  unfold State.refusalShown
  split
  · rw [State.f_wf_same _ ⟨by decide, by decide⟩]
    rfl
  · rw [State.f_wf_ne s ⟨by decide, by decide⟩ (.inl (by decide))]

theorem refusalShown_regs : s.SameBut (s.refusalShown code) refuseRegs := by
  have hstat : s.SameBut (s.wf F.PTP_RESTEP_STAT_RESULT code) refuseRegs := (State.SameBut.refl s _).wf _ (by decide)
  unfold State.refusalShown
  split
  · exact hstat.wf _ (by decide)
  · exact hstat

@[simp] theorem refusalShown_tick : (s.refusalShown code).tick = s.tick := by
  unfold State.refusalShown
  split
  · rw [State.wf_tick, State.wf_tick]
  · rw [State.wf_tick]

@[simp] theorem refusalShown_hub : (s.refusalShown code).hub = s.hub := by
  unfold State.refusalShown
  split
  · rw [State.wf_hub, State.wf_hub]
  · rw [State.wf_hub]

/-- The step fence writes its own register alone. -/
theorem restepRefuse_f {x : RegField} (hx : x.addr ≠ Reg.FNC_HIT) : (s.restepRefuse code).f x = (s.refusalShown code).f x := by
  rw [restepRefuse_eq]
  split
  · exact State.f_wf_ne _ (y := F.FNC_HIT_HIT) ⟨by decide, by decide⟩ (.inl hx) _
  · rfl

theorem restepRefuse_result (h : code < 256) : (s.restepRefuse code).f F.PTP_RESTEP_STAT_RESULT = code := by
  rw [restepRefuse_f s code (by decide), refusalShown_result s code h]

theorem restepRefuse_valid :
    (s.restepRefuse code).f F.PTP_RESTEP_AUTH_VALID = if code = 5 then 0 else s.f F.PTP_RESTEP_AUTH_VALID := by
  rw [restepRefuse_f s code (by decide), refusalShown_valid]

theorem restepRefuse_regs : s.SameBut (s.restepRefuse code) refuseRegs := by
  have hshown := refusalShown_regs s code
  rw [restepRefuse_eq]
  split
  · exact hshown.wf (x := F.FNC_HIT_HIT) _ (by decide)
  · exact hshown

@[simp] theorem restepRefuse_tick : (s.restepRefuse code).tick = s.tick := by
  rw [restepRefuse_eq, apply_ite State.tick, refusalShown_tick]
  exact ite_eq_right_iff.2 fun _ => refusalShown_tick s code

@[simp] theorem restepRefuse_hub : (s.restepRefuse code).hub = s.hub := by
  rw [restepRefuse_eq, apply_ite State.hub, refusalShown_hub]
  exact ite_eq_right_iff.2 fun _ => refusalShown_hub s code

end Refuse

end Sys2Proof.Machine
end

section
/-!
PROOFS. The restep that is applied (R326): the clock moves, the generator passes over ticks or holds, and the servo follows.
-/
namespace Sys2Proof.Machine

open Sys2Proof

/-! ### Its stages -/

/-- The end of the tick that runs, on the hub clock. -/
def State.tickEnd (s : State) : Nat := max s.tick.clock (boundaryClock s.rate (s.tick.num + 1))

/-- The edge timer is cut and the clock moves. -/
def State.stepMoved (s : State) (step : Int) : State :=
  { s.edgCut with tick.clock := ((s.edgCut.tickEnd : Int) + step).toNat, ptp.stepMark := true }

/-- The offset and the ports follow the step, and the registers show it. -/
def State.stepShown (s : State) (ofs step : Int) : State :=
  let s := (s.setOfs ofs).portsStep step
  let s := ((s.wf F.PTP_RESTEP_STAT_RESULT 2).wf F.PTP_RESTEP_AUTH_VALID 0).wf64 F.PTP_RESTEP_DONE_LO_TICK F.PTP_RESTEP_DONE_HI_TICK s.tick.num
  s.emit .RESTEP_DONE 0 [step, (s.tick.num : Nat)]

/-- STATE of the servo for the offset that stands. -/
def State.servoAim (s : State) : Nat := if s.ofs.natAbs ≤ s.lockThr then 2 else 3

/-- The servo enters the state that the offset asks for. -/
def State.servoFollow (s : State) : State :=
  if s.servo ≠ s.servoAim then s.servoEnter s.servoAim 0 else if s.servoAim = 3 then s.timeOffset else s

/-- What RESTEP_APPLY does once the armed tick has ended. -/
def State.restepEnd (s : State) : State :=
  if s.restepCheck s.restepStep ≠ 0 then
    (s.restepRefuse (s.restepCheck s.restepStep)).emit .RESTEP_REFUSED 0 [(s.restepCheck s.restepStep : Nat)]
  else
    (((s.stepMoved s.restepStep).restepTicks s.edgCut.tickEnd s.restepStep).stepShown ((s.stepMoved s.restepStep).ofs + s.restepStep)
      s.restepStep).servoFollow

theorem restepApply_eq (s : State) :
    s.restepApply = if !s.restepArmed ∨ s.genState ≠ 1 ∨ s.tick.num ≠ s.restepTick then s else s.tailGuard.pinsLast.restepEnd := by
  unfold State.restepApply State.restepEnd
  rfl

theorem restepApply_due {s : State} (hres : s.f F.PTP_RESTEP_STAT_RESULT = 1) (hgen : s.genState = 1) (hnum : s.tick.num = s.restepTick) :
    s.restepApply = s.tailGuard.pinsLast.restepEnd := by
  rw [restepApply_eq, if_neg]
  simp [(restepArmed_iff s).2 hres, hgen, hnum]

theorem restepApply_idle {s : State} (h : ¬(s.f F.PTP_RESTEP_STAT_RESULT = 1 ∧ s.genState = 1 ∧ s.tick.num = s.restepTick)) :
    s.restepApply = s := by
  rw [restepApply_eq, if_pos]
  rw [Bool.not_eq_true', Bool.eq_false_iff, ne_eq, restepArmed_iff]
  tauto

theorem restepCheck_lt (s : State) (step : Int) : s.restepCheck step < 256 := by
  unfold State.restepCheck
  repeat' split
  all_goals decide

/-! ### The clock and the generator (R37, R38) -/

theorem rd_of_mem {s t : State} (h : t.mem = s.mem) (a : Nat) : t.rd a = s.rd a := by
  unfold State.rd
  rw [h]

theorem edgCut_tickEnd (s : State) : s.edgCut.tickEnd = s.tickEnd := by
  have h : Spares true s s.edgCut := edgCut_spares .refl
  have hrate : s.edgCut.rate = s.rate := by
    unfold State.rate State.f
    rw [h.rd rfl _ (by unfold midReg; decide)]
  unfold State.tickEnd
  rw [h.clock, h.num, hrate]

theorem stepMoved_mem (s : State) (step : Int) : (s.stepMoved step).mem = s.edgCut.mem := by
  unfold State.stepMoved
  generalize s.edgCut = u
  rfl

theorem stepMoved_rd (s : State) (step : Int) {a : Nat} (ha : midReg a) : (s.stepMoved step).rd a = s.rd a := by
  have h : Spares true s s.edgCut := edgCut_spares .refl
  exact (rd_of_mem (stepMoved_mem s step) a).trans (h.rd rfl a ha)

@[simp] theorem stepMoved_clock (s : State) (step : Int) : (s.stepMoved step).tick.clock = ((s.tickEnd : Int) + step).toNat := by
  rw [← edgCut_tickEnd]
  rfl

/-- A step back of 1 ns or more holds the generator. -/
def State.stepHold (s : State) (step : Int) : State := if step ≤ -65536 then s.wf F.KLN_TICK_STATE_STATE 2 else s

/-- Beside STATE of the generator, the ticks passed over and the hold are gap records and launch slots. -/
theorem restepTicks_spares (s : State) (old : Nat) (step : Int) : Spares true (s.stepHold step) (s.restepTicks old step) := by
  unfold State.restepTicks State.stepHold
  by_cases hsmall : step.natAbs < 65536
  · rw [if_pos hsmall, if_neg (by omega)]
    exact .refl
  · rw [if_neg hsmall]
    by_cases hfwd : 0 < step
    · have hjump (j : Nat) : Spares true s ({ s with tick.jump := some j }.launchStep old s.tick.clock) :=
        launchStep_spares (Spares.refl.update (k := { s.tick with jump := some j }) rfl rfl) _ _
      rw [if_pos hfwd, if_neg (by omega)]
      exact .ite (hjump _) (.foldl (fun _ c hx => idleGap_spares hx ..) _ (hjump _))
    · rw [if_neg hfwd, if_pos (by omega)]
      exact .foldl (fun _ c hx => holdGap_spares hx ..) _ .refl

theorem stepHold_tick (s : State) (step : Int) : (s.stepHold step).tick = s.tick := by
  unfold State.stepHold
  split
  · exact State.wf_tick ..
  · rfl

theorem restepTicks_clock (s : State) (old : Nat) (step : Int) : (s.restepTicks old step).tick.clock = s.tick.clock := by
  rw [(restepTicks_spares s old step).clock, stepHold_tick]

theorem restepTicks_hold (s : State) (old : Nat) {step : Int} (h : step ≤ -65536) : (s.restepTicks old step).genState = 2 := by
  have hst : (s.wf F.KLN_TICK_STATE_STATE 2).f F.KLN_TICK_STATE_STATE = 2 := by
    rw [State.f_wf_same _ ⟨by decide, by decide⟩]
    rfl
  have hsp := restepTicks_spares s old step
  unfold State.stepHold at hsp
  rw [if_pos h] at hsp
  unfold State.genState
  rw [← hst]
  unfold State.f
  rw [hsp.rd rfl _ (by unfold midReg; decide)]

/-! ### The offset and the registers (R324, R326) -/

/-- What a taken step shows behind the offset. -/
def doneRegs : List Nat :=
  [Reg.PTP_RESTEP_STAT, Reg.PTP_RESTEP_AUTH, Reg.PTP_RESTEP_DONE_LO, Reg.PTP_RESTEP_DONE_HI] ++ eventRegs

/-- The registers that a taken step shows. -/
def shownRegs : List Nat := [Reg.PTP_OFFSET_LO, Reg.PTP_OFFSET_HI] ++ doneRegs

@[simp] theorem wf64_tick (s : State) (lo hi : RegField) (v : Nat) : (s.wf64 lo hi v).tick = s.tick := by
  unfold State.wf64
  rw [State.wf_tick, State.wf_tick]

theorem State.SameBut.wf64 {s t : State} {l : List Nat} (h : s.SameBut t l) {lo hi : RegField} (v : Nat) (hlo : lo.addr ∈ l) (hhi : hi.addr ∈ l) :
    s.SameBut (t.wf64 lo hi v) l := (h.wf v hlo).wf _ hhi

@[simp] theorem portsStep_tick (s : State) (d : Int) : (s.portsStep d).tick = s.tick := rfl

theorem portsStep_same (s : State) (d : Int) : s.SameBut (s.portsStep d) [] := fun _ _ => rfl

theorem setOfs_same (s : State) (v : Int) : s.SameBut (s.setOfs v) [Reg.PTP_OFFSET_LO, Reg.PTP_OFFSET_HI] :=
  (State.SameBut.refl s _).wf64 _ (by decide) (by decide)

section Shown
variable (s : State) (ofs step : Int)

theorem stepShown_after_offset : (s.setOfs ofs).SameBut (s.stepShown ofs step) doneRegs := by
  have hports := (portsStep_same (s.setOfs ofs) step).mono (List.nil_subset doneRegs)
  unfold State.stepShown
  exact (((hports.wf _ (by decide)).wf _ (by decide)).wf64 _ (by decide) (by decide)).emit _ _ _ (by decide)

theorem stepShown_same : s.SameBut (s.stepShown ofs step) shownRegs :=
  ((setOfs_same s ofs).mono (by decide)).trans ((stepShown_after_offset s ofs step).mono (by decide))

theorem stepShown_offset : (s.stepShown ofs step).f64 F.PTP_OFFSET_LO_OFS F.PTP_OFFSET_HI_OFS = bitsOf 64 ofs := by
  rw [(stepShown_after_offset s ofs step).f64 (by decide) (by decide)]
  exact f64_wf64_same s ⟨rfl, rfl⟩ ⟨rfl, rfl⟩ (by decide) (bitsOf_lt 64 _)

@[simp] theorem stepShown_clock : (s.stepShown ofs step).tick.clock = s.tick.clock := by
  unfold State.stepShown State.setOfs
  rw [emit_tick, wf64_tick, State.wf_tick, State.wf_tick, portsStep_tick, wf64_tick]

theorem stepShown_result : (s.stepShown ofs step).f F.PTP_RESTEP_STAT_RESULT = 2 := by
  unfold State.stepShown State.wf64
  dsimp only
  rw [f_emit _ _ _ _ (by decide), State.f_wf_ne _ ⟨by decide, by decide⟩ (.inl (by decide)), State.f_wf_ne _ ⟨by decide, by decide⟩ (.inl (by decide)),
    State.f_wf_ne _ ⟨by decide, by decide⟩ (.inl (by decide)), State.f_wf_same _ ⟨by decide, by decide⟩]
  rfl

theorem stepShown_valid : (s.stepShown ofs step).f F.PTP_RESTEP_AUTH_VALID = 0 := by
  unfold State.stepShown State.wf64
  dsimp only
  rw [f_emit _ _ _ _ (by decide), State.f_wf_ne _ ⟨by decide, by decide⟩ (.inl (by decide)), State.f_wf_ne _ ⟨by decide, by decide⟩ (.inl (by decide)),
    State.f_wf_same _ ⟨by decide, by decide⟩]
  rfl

end Shown

/-! ### The servo (R319, R320) -/

/-- The registers that a change of the servo's state writes, beside STATE. -/
def servoRegs : List Nat :=
  [Reg.PTP_Un_STAT 0, Reg.PTP_Un_GM_LO 0, Reg.PTP_Un_GM_HI 0, Reg.PTP_Un_STAT 1, Reg.PTP_Un_GM_LO 1, Reg.PTP_Un_GM_HI 1] ++ eventRegs

theorem showPorts_same (s : State) : s.SameBut s.showPorts servoRegs := by
  have hport {t : State} (h : s.SameBut t servoRegs) (u : Nat) (hstat : (F.PTP_Un_STAT_PSTATE u).addr ∈ servoRegs)
      (hlo : (F.PTP_Un_GM_LO_GMID u).addr ∈ servoRegs) (hhi : (F.PTP_Un_GM_HI_GMID u).addr ∈ servoRegs) :
      s.SameBut (t.showPort u) servoRegs := by
    unfold State.showPort
    exact (h.wf _ hstat).wf64 _ hlo hhi
  exact hport (hport (.refl s _) 0 (by decide) (by decide) (by decide)) 1 (by decide) (by decide) (by decide)

@[simp] theorem showPorts_tick (s : State) : s.showPorts.tick = s.tick := by
  unfold State.showPorts State.showPort
  rw [wf64_tick, State.wf_tick, wf64_tick, State.wf_tick]

/-- TIME_OFFSET is recorded of a slew. -/
def State.slewNote (s : State) (slew : Bool) : State := if slew then s.timeOffset else s

/-- The servo's counts as it enters state `new` from `old`. -/
def State.servoCounts (s : State) (old new : Nat) : State :=
  let s := { s with ptp.inside := 0, ptp.beyond := 0, ptp.switchLeft := 0 }
  if new = 2 then
    { s with ptp.lockAt := s.tick.clock, tick.firstLock := true, ptp.hist := if old = 3 then s.ptp.hist else [],
             ptp.loop := if old = 1 then s.ptp.loop else s.ptp.freq }
  else s

/-- The servo has STATE `new`, before its ports show it. -/
def State.servoTurned (s : State) (new : Nat) : State :=
  (((s.slewNote (s.servo == 3)).wf F.PTP_SERVO_STAT_STATE new).servoCounts s.servo new).slewNote (new == 3)

section Servo
variable (s : State) (new cause : Nat)

theorem servoEnter_eq :
    s.servoEnter new cause = (s.servoTurned new).condNote.showPorts.emit .PTP_STATE 0 [(s.servo : Nat), (new : Nat), (cause : Nat)] := by
  unfold State.servoEnter State.servoTurned State.servoCounts State.slewNote
  simp only [beq_iff_eq]

theorem timeOffset_same : s.SameBut s.timeOffset eventRegs := (State.SameBut.refl s _).emit _ _ _ (List.Subset.refl _)

theorem slewNote_same (c : Bool) : s.SameBut (s.slewNote c) eventRegs := by
  unfold State.slewNote
  split
  · exact timeOffset_same s
  · exact .refl s _

@[simp] theorem slewNote_tick (c : Bool) : (s.slewNote c).tick = s.tick := by
  unfold State.slewNote State.timeOffset
  split
  · exact emit_tick ..
  · rfl

theorem servoCounts_mem (old : Nat) : (s.servoCounts old new).mem = s.mem := by
  unfold State.servoCounts
  split <;> rfl

@[simp] theorem servoCounts_clock (old : Nat) : (s.servoCounts old new).tick.clock = s.tick.clock := by
  unfold State.servoCounts
  split <;> rfl

/-- From STATE on, a change of the servo's state writes records and what the ports show. -/
theorem servoEnter_after_state :
    ((s.slewNote (s.servo == 3)).wf F.PTP_SERVO_STAT_STATE new).SameBut (s.servoEnter new cause) servoRegs := by
  let t := (s.slewNote (s.servo == 3)).wf F.PTP_SERVO_STAT_STATE new
  have hcounts : t.SameBut (t.servoCounts s.servo new) servoRegs := fun a _ => rd_of_mem (servoCounts_mem t new s.servo) a
  have hturned : t.SameBut (s.servoTurned new) servoRegs := hcounts.trans ((slewNote_same _ _).mono (by decide))
  have hports : t.SameBut (s.servoTurned new).condNote.showPorts servoRegs := hturned.trans (showPorts_same (s.servoTurned new).condNote)
  rw [servoEnter_eq]
  exact hports.emit _ _ _ (by decide)

theorem servoEnter_same : s.SameBut (s.servoEnter new cause) (Reg.PTP_SERVO_STAT :: servoRegs) := by
  have hstate : s.SameBut ((s.slewNote (s.servo == 3)).wf F.PTP_SERVO_STAT_STATE new) (Reg.PTP_SERVO_STAT :: servoRegs) :=
    ((slewNote_same s _).mono (by decide)).wf _ (by decide)
  exact hstate.trans ((servoEnter_after_state s new cause).mono (by decide))

theorem servoEnter_servo (hnew : new < 8) : (s.servoEnter new cause).servo = new := by
  have hsame := (servoEnter_after_state s new cause).f (x := F.PTP_SERVO_STAT_STATE) (by decide)
  rw [State.f_wf_same _ ⟨by decide, by decide⟩] at hsame
  exact hsame.trans (Nat.mod_eq_of_lt hnew)

theorem servoEnter_clock : (s.servoEnter new cause).tick.clock = s.tick.clock := by
  have hturned : (s.servoTurned new).tick.clock = s.tick.clock := by
    unfold State.servoTurned
    rw [slewNote_tick, servoCounts_clock, State.wf_tick, slewNote_tick]
  rw [servoEnter_eq, emit_tick, showPorts_tick]
  exact hturned

/-! ### The servo follows a step -/

theorem servoAim_lt : s.servoAim < 8 := by
  unfold State.servoAim
  split <;> decide

theorem servoFollow_same : s.SameBut s.servoFollow (Reg.PTP_SERVO_STAT :: servoRegs) := by
  unfold State.servoFollow
  split
  · exact servoEnter_same s _ 0
  · split
    · exact (timeOffset_same s).mono (by decide)
    · exact .refl s _

theorem servoFollow_clock : s.servoFollow.tick.clock = s.tick.clock := by
  unfold State.servoFollow State.timeOffset
  split
  · exact servoEnter_clock ..
  · split
    · rw [emit_tick]
    · rfl

theorem servoFollow_servo : s.servoFollow.servo = s.servoAim := by
  unfold State.servoFollow
  split
  · exact servoEnter_servo s _ _ (servoAim_lt s)
  · next h =>
    have haim : s.servo = s.servoAim := not_not.1 h
    split
    · exact ((timeOffset_same s).f (by decide)).trans haim
    · exact haim

end Servo

theorem servoAim_of_same {s t : State} {l : List Nat} (h : s.SameBut t l) (hlo : Reg.PTP_OFFSET_LO ∉ l) (hhi : Reg.PTP_OFFSET_HI ∉ l)
    (hcfg : Reg.PTP_SERVO_CFG ∉ l) : t.servoAim = s.servoAim := by
  have hofs : t.ofs = s.ofs := congrArg (signedOf 64) (h.f64 hlo hhi)
  have hthr : t.lockThr = s.lockThr := by
    unfold State.lockThr
    rw [h.f hcfg]
  unfold State.servoAim
  rw [hofs, hthr]

/-! ### A step that is taken, as a whole -/

section Taken
variable (s : State) (step : Int)

/-- The hub after a step that is taken. -/
def State.stepTaken : State :=
  (((s.stepMoved step).restepTicks s.edgCut.tickEnd step).stepShown ((s.stepMoved step).ofs + step) step).servoFollow

theorem restepEnd_refused {code : Nat} (hcode : s.restepCheck s.restepStep = code) (hne : code ≠ 0) :
    s.restepEnd = (s.restepRefuse code).emit .RESTEP_REFUSED 0 [(code : Nat)] := by
  subst hcode
  exact if_pos hne

theorem restepEnd_taken (hcode : s.restepCheck s.restepStep = 0) : s.restepEnd = s.stepTaken s.restepStep := if_neg (not_not.2 hcode)

theorem stepMoved_ofs : (s.stepMoved step).ofs = s.ofs := by
  have h (a : Nat) (ha : midReg a) := stepMoved_rd s step ha
  unfold State.ofs State.f64 State.f
  rw [h _ (by unfold midReg; decide), h _ (by unfold midReg; decide)]

theorem stepTaken_clock : (s.stepTaken step).tick.clock = ((s.tickEnd : Int) + step).toNat := by
  unfold State.stepTaken
  rw [servoFollow_clock, stepShown_clock, restepTicks_clock, stepMoved_clock]

theorem stepTaken_offset : (s.stepTaken step).f64 F.PTP_OFFSET_LO_OFS F.PTP_OFFSET_HI_OFS = bitsOf 64 (s.ofs + step) := by
  unfold State.stepTaken
  rw [(servoFollow_same _).f64 (by decide) (by decide), stepShown_offset, stepMoved_ofs]

theorem stepTaken_result : (s.stepTaken step).f F.PTP_RESTEP_STAT_RESULT = 2 := by
  unfold State.stepTaken
  rw [(servoFollow_same _).f (by decide), stepShown_result]

theorem stepTaken_valid : (s.stepTaken step).f F.PTP_RESTEP_AUTH_VALID = 0 := by
  unfold State.stepTaken
  rw [(servoFollow_same _).f (by decide), stepShown_valid]

theorem stepTaken_servo : (s.stepTaken step).servo = (s.stepTaken step).servoAim := by
  unfold State.stepTaken
  rw [servoFollow_servo, servoAim_of_same (servoFollow_same _) (by decide) (by decide) (by decide)]

theorem stepTaken_hold (h : step ≤ -65536) : (s.stepTaken step).genState = 2 := by
  unfold State.stepTaken State.genState
  rw [(servoFollow_same _).f (by decide), (stepShown_same _ _ _).f (by decide)]
  exact restepTicks_hold _ _ h

end Taken

end Sys2Proof.Machine
end

section
/-!
PROOFS. Hop delays (R332, R333): probes, their echoes and their losses, and what the offers after the first median leave alone.
-/
namespace Sys2Proof.Machine

open Sys2Proof

/-! ### Offers to nodes leave network time's state alone (R277, R286, R289) -/

section Offers
variable {s0 s : State}

/-- Without a claim on registers, any field may be written. -/
theorem Spares.wf' (h : Spares false s0 s) (x : RegField) (v : Nat) : Spares false s0 (s.wf x v) := h.wf x v fun e => absurd e Bool.false_ne_true

theorem Spares.wr' (h : Spares false s0 s) (a : Nat) (w : Word) : Spares false s0 (s.wr a w) := h.wr a w fun e => absurd e Bool.false_ne_true

theorem sendCommand_spares (h : Spares false s0 s) (lane pos cseq op ch tick arg0 arg1 : Nat) :
    Spares false s0 (s.sendCommand lane pos cseq op ch tick arg0 arg1) := by
  unfold State.sendCommand State.nodeFrame State.frameSend State.laneOut State.free
  exact txSend_spares (h.update rfl rfl) ..

theorem setPartner_spares (h : Spares false s0 s) (p : Nat) (x : Partner) : Spares false s0 (s.setPartner p x) := by
  unfold State.setPartner
  refine Spares.wf' (Spares.wf' (Spares.wf' (Spares.wf' (Spares.wf' (Spares.wf' (Spares.wf' (Spares.wf' ?_ _ _) _ _) _ _) _ _) _ _) _ _) _ _) _ _
  exact h.update rfl rfl

theorem refuse_spares (h : Spares false s0 s) (p ch reason : Nat) : Spares false s0 (s.refuse p ch reason) := by
  unfold State.refuse
  split
  · exact h
  · exact .ite (sendCommand_spares ((setPartner_spares h _ _).update rfl rfl) ..) (setPartner_spares h _ _)

theorem command_spares (h : Spares false s0 s) (x : Change) (t : Nat) : Spares false s0 (s.command x t) := by
  unfold State.command
  split
  · exact h
  · have hsent (l : List Change) (lane pos cseq op ch t arg0 arg1 : Nat) :
        Spares false s0 ({ s.nextCseq.2 with ptn.sentCmds := l }.sendCommand lane pos cseq op ch t arg0 arg1) := by
      refine sendCommand_spares ?_ ..
      exact h.update rfl rfl
    dsimp only
    split
    · refine .ite (hsent ..) (Spares.update (Spares.wf' (Spares.wf' (Spares.wr' (Spares.wf' (hsent ..) _ _) _ _) _ _) _ _) rfl rfl)
    · exact Spares.update (Spares.wf' (hsent ..) _ _) rfl rfl
    · exact .ite (hsent ..) (Spares.update (hsent ..) rfl rfl)

theorem change_spares (h : Spares false s0 s) (x : Change) (serial : Nat) : Spares false s0 (s.change x serial) := by
  have hmirror (c : Bool) : Spares false s0 (if c then s.nodeCfg x serial x.state (s.changeTick x) 0 else s) := .ite (mirror_spares h ..) h
  unfold State.change State.sendChange
  refine .ite ((hmirror _).update rfl rfl) (command_spares ?_ _ _)
  exact .ite ((hmirror _).emit ..) (hmirror _)

theorem offer_spares (h : Spares false s0 s) (p : Nat) (d : NodeCh) : Spares false s0 (s.offer p d) := by
  unfold State.offer
  split
  · exact h
  · refine .ite h ?_
    split
    · exact refuse_spares h ..
    · exact .ite (change_spares h ..) (refuse_spares (h.emit ..) ..)

theorem offerAll_spares (h : Spares false s0 s) : Spares false s0 s.offerAll := by
  unfold State.offerAll
  refine .foldl (fun u e hu => ?_) _ h
  split
  · exact .foldl (fun v d hv => offer_spares hv _ d) _ hu
  · exact hu

end Offers

/-! ### The state of a lane's probes -/

theorem hop_of_ptp {s t : State} (h : t.ptp = s.ptp) (l : Nat) : t.hop l = s.hop l := by
  unfold State.hop
  rw [h]

@[simp] theorem hop_setHop_same (s : State) (l : Nat) (x : HopSt) : (s.setHop l x).hop l = x := by
  unfold State.hop State.setHop
  exact tabGet_tabSet_same ..

@[simp] theorem markerSend_ptp (s : State) (l : Nat) (vals : List Int) (bs : List (List Nat)) : (s.markerSend l vals bs).ptp = s.ptp := rfl

theorem setLane_ptp (s : State) (l : Nat) (x : LaneSt) : (s.setLane l x).ptp = s.ptp := rfl

/-- A probe leaves: it is noted with its departure. -/
def HopSt.probed (x : HopSt) (depart : Int) : HopSt :=
  { x with out := x.out ++ [(x.seq, depart)], sent := min 64 (x.sent + 1), seq := (x.seq + 1) % 256 }

theorem probeSend_idle {s : State} {l : Nat} (h : s.laneState l ≠ 6) (depart : Int) : s.probeSend l depart = s := if_pos h

theorem probeSend_eq {s : State} {l : Nat} (h : s.laneState l = 6) (depart : Int) :
    ∃ vals bs, s.probeSend l depart = (s.setHop l ((s.hop l).probed depart)).markerSend l vals bs :=
  ⟨_, _, if_neg (not_not.2 h)⟩

/-! ### The median is published -/

/-- The lane's probes as they stand after a result: with enough of them the median is published. -/
def HopSt.judged (x : HopSt) : HopSt :=
  if x.results.isEmpty ∨ x.sent < 64 ∨ (!x.published ∧ !x.out.isEmpty) then x else { x with published := true }

theorem published_same {x : HopSt} (h : x.published = true) : { x with published := true } = x := by rw [← h]

/-- The registers, the record of a step and the HOPDLY block of a median (R332, R333). -/
def State.hopShown (s : State) (l : Nat) : State :=
  let x := s.hop l
  let d := (hopMedian x.results).toNat
  let was := s.f (F.PTP_FLl_DELAY_DLY l)
  let top := x.results.foldl (fun a v => if a < v then v else a) (x.results.headD 0)
  let low := x.results.foldl (fun a v => if v < a then v else a) (x.results.headD 0)
  let far := x.published && decide (s.f (F.PTP_FLl_TOL_TOL l) < ((d : Int) - (was : Int)).natAbs)
  let t := (s.wf (F.PTP_FLl_DELAY_DLY l) d).wf (F.PTP_FLl_MSTAT_SPREAD l) (min 65535 (rdiv (top - low) 2).toNat)
  let u := if far then t.emit .HOP_DELAY_STEP (objLink l) [(was : Nat), (d : Nat)] else t
  u.markerSend l [0xC3, (d : Nat)] [[0xC3] ++ leBytes 4 d ++ [0, 0, 0]]

theorem hopShown_ptp (s : State) (l : Nat) : (s.hopShown l).ptp = s.ptp := by
  unfold State.hopShown
  dsimp only
  rw [markerSend_ptp]
  split
  · rw [emit_ptp, State.wf_ptp, State.wf_ptp]
  · rw [State.wf_ptp, State.wf_ptp]

/-- The lane's first median: its probes run no longer, and its node's channels are offered (R289). -/
def State.hopFirst (s : State) (l : Nat) (x : HopSt) : State :=
  let t := ((s.wf (F.PTP_FLl_MSTAT_VALID l) 1).wf (F.PTP_FLl_MSTAT_RUNNING l) 0).setHop l x
  (t.setLane l { t.lane l with hopDone := true }).offerAll

theorem hopFirst_hop (s : State) (l : Nat) (x : HopSt) : (s.hopFirst l x).hop l = x := by
  unfold State.hopFirst
  rw [hop_of_ptp (offerAll_spares Spares.refl).ptp, hop_of_ptp (setLane_ptp ..), hop_setHop_same]

theorem hopPublish_eq (s : State) (l : Nat) :
    s.hopPublish l = if (s.hop l).results.isEmpty ∨ (s.hop l).sent < 64 ∨ (!(s.hop l).published ∧ !(s.hop l).out.isEmpty) then s
      else if (s.hop l).published then s.hopShown l else (s.hopShown l).hopFirst l { s.hop l with published := true } := by
  unfold State.hopPublish State.hopShown State.hopFirst
  rfl

theorem hopPublish_hop (s : State) (l : Nat) : (s.hopPublish l).hop l = (s.hop l).judged := by
  rw [hopPublish_eq]
  unfold HopSt.judged
  split
  · rfl
  · split
    · next hpub =>
      rw [hop_of_ptp (hopShown_ptp s l), published_same hpub]
    · rw [hopFirst_hop]

theorem judged_keeps (x : HopSt) : x.judged.out = x.out ∧ x.judged.results = x.results ∧ x.judged.dropped = x.dropped := by
  unfold HopSt.judged
  split <;> exact ⟨rfl, rfl, rfl⟩

/-- The first median is published once 64 probes have left and none is under way (R332). -/
theorem judged_published {x : HopSt} (hres : x.results ≠ []) (hsent : 64 ≤ x.sent) (hout : x.out = []) : x.judged.published = true := by
  have hgo : ¬(x.results.isEmpty ∨ x.sent < 64 ∨ (!x.published ∧ !x.out.isEmpty)) := by
    simp [hres, hsent, hout]
  unfold HopSt.judged
  rw [if_neg hgo]

/-! ### An echo, and none (R332, R333) -/

theorem find_eq_none {out : List (Nat × Int)} {seq : Nat} (h : ∀ p ∈ out, p.1 ≠ seq) : (out.find? fun p => p.1 == seq) = none :=
  List.find?_eq_none.2 fun p hp => by rw [beq_iff_eq]; exact h p hp

theorem echoIn_dead {s : State} {l : Nat} (h : s.laneLive l = false) (seq : Nat) (a turn : Int) : s.echoIn l seq a turn = s := by
  unfold State.echoIn
  rw [h]
  rfl

theorem echoIn_unknown {s : State} {l seq : Nat} (h : ∀ p ∈ (s.hop l).out, p.1 ≠ seq) (a turn : Int) : s.echoIn l seq a turn = s := by
  unfold State.echoIn
  dsimp only
  rw [find_eq_none h, ite_self]

/-- The probe with number `seq` has come back with result `r`. -/
def HopSt.echoed (x : HopSt) (seq : Nat) (r : Int) : HopSt :=
  { x with out := x.out.filter fun q => q.1 != seq, results := (r :: x.results).take 64, dropped := 0 }

theorem echoIn_eq {s : State} {l seq : Nat} {p : Nat × Int} (hlive : s.laneLive l = true)
    (hp : ((s.hop l).out.find? fun p => p.1 == seq) = some p) (a turn : Int) :
    s.echoIn l seq a turn = (s.setHop l ((s.hop l).echoed seq (a - p.2 - turn + 2 * s.fs (F.PTP_FLl_ASYM_ASYM l)))).hopPublish l := by
  unfold State.echoIn
  dsimp only
  rw [hlive, if_pos rfl, hp]
  rfl

theorem probeTimeout_unknown {s : State} {l seq : Nat} (h : ∀ p ∈ (s.hop l).out, p.1 ≠ seq) : s.probeTimeout l seq = s := by
  have hnone : ((s.hop l).out.any fun p => p.1 == seq) = false :=
    List.any_eq_false.2 fun p hp => by rw [beq_iff_eq]; exact h p hp
  unfold State.probeTimeout
  dsimp only
  rw [hnone]
  rfl

/-- The probe with number `seq` is given up. -/
def HopSt.gaveUp (x : HopSt) (seq : Nat) : HopSt := { x with out := x.out.filter fun p => p.1 != seq, dropped := x.dropped + 1 }

/-- The sixteenth probe in a row that is given up is recorded. -/
def State.probeLost (s : State) (l seq : Nat) : State :=
  let t := s.setHop l ((s.hop l).gaveUp seq)
  if (s.hop l).dropped + 1 = 16 then t.emit .HOP_PROBE_LOST (objLink l) [] else t

theorem probeLost_hop (s : State) (l seq : Nat) : (s.probeLost l seq).hop l = (s.hop l).gaveUp seq := by
  unfold State.probeLost
  dsimp only
  split
  · rw [hop_of_ptp (emit_ptp ..), hop_setHop_same]
  · exact hop_setHop_same ..

theorem probeLost_joins {s : State} {l seq : Nat} (h : (s.hop l).dropped + 1 = 16) :
    s.Joins (s.probeLost l seq) .HOP_PROBE_LOST (objLink l) [] := by
  have hlost : s.probeLost l seq = (s.setHop l ((s.hop l).gaveUp seq)).emit .HOP_PROBE_LOST (objLink l) [] := if_pos h
  rw [hlost]
  exact emit_joins (s := s) (t := s.setHop l ((s.hop l).gaveUp seq)) rfl _ _ _

theorem probeTimeout_eq {s : State} {l seq : Nat} {p : Nat × Int} (hp : ((s.hop l).out.find? fun p => p.1 == seq) = some p) :
    s.probeTimeout l seq = if (s.hop l).published then s.probeLost l seq else (s.probeLost l seq).hopPublish l := by
  have hany : ((s.hop l).out.any fun p => p.1 == seq) = true :=
    List.any_eq_true.2 ⟨p, List.mem_of_find?_eq_some hp, (List.find?_some hp :)⟩
  unfold State.probeTimeout
  dsimp only
  rw [hany]
  rfl

theorem probeTimeout_hop {s : State} {l seq : Nat} {p : Nat × Int} (hp : ((s.hop l).out.find? fun p => p.1 == seq) = some p) :
    ((s.probeTimeout l seq).hop l).out = ((s.hop l).out.filter fun q => q.1 != seq)
      ∧ ((s.probeTimeout l seq).hop l).dropped = (s.hop l).dropped + 1 := by
  rw [probeTimeout_eq hp]
  split
  · rw [probeLost_hop]
    exact ⟨rfl, rfl⟩
  · obtain ⟨hout, -, hdropped⟩ := judged_keeps ((s.hop l).gaveUp seq)
    rw [hopPublish_hop, probeLost_hop, hout, hdropped]
    exact ⟨rfl, rfl⟩

end Sys2Proof.Machine
end

section
open Sys2Proof Sys2Proof.Machine

/-- Settles O49: each command is its few writes, and what a taken step sends through the edge timer and the gap buffer spares the clock and the
registers of network time. -/
theorem restepsAndProbesAct : Obligations.RestepsAndProbesAct := by
  unfold Obligations.RestepsAndProbesAct
  intro s m
  dsimp only
  refine ⟨?both, ?go, ?cancel, ?cancelIdle, ⟨?idle, ?due⟩, ?noHold, ?resume, ?expiry, ?notYet, ?hops⟩
  case both => exact fun mode => ⟨_, congrArg Host.Outcome.next (restepCmd_both s mode), fun a _ hr => rd_emit s _ _ _ hr, emit_joins rfl _ _ _⟩
  case go =>
    intro mode
    refine ⟨fun harmed => congrArg Host.Outcome.next ((restepCmd_go s mode).trans (if_pos harmed)), fun hres => ?_⟩
    have hgo := (restepCmd_go s mode).trans (if_neg hres)
    by_cases hc : s.goCode mode = 1
    · rw [if_pos hc] at hgo
      have hsame := goTaken_same s mode
      rw [hc, if_neg (by decide)]
      refine ⟨_, congrArg Host.Outcome.next hgo, goTaken_result s mode, fun _ => goTaken_mode s mode, hsame.f (by decide), goTaken_tick s mode, hsame.mono (by decide)⟩
    · rw [if_neg hc] at hgo
      exact ⟨_, congrArg Host.Outcome.next hgo, restepRefuse_result s _ (goCode_lt s mode), fun h => absurd h hc, restepRefuse_valid s _,
        restepRefuse_tick s _, restepRefuse_regs s _⟩
  case cancel =>
    intro hres hlead
    refine ⟨_, congrArg Host.Outcome.next (restepCmd_cancel hres hlead), ?_, fun a ha => State.rd_wf_ne s _ ha⟩
    rw [State.f_wf_same _ ⟨by decide, by decide⟩]
    rfl
  case cancelIdle => exact fun h => congrArg Host.Outcome.next (restepCmd_cancel_idle h)
  case idle => exact fun h => congrArg Host.Outcome.next (restepApply_idle h)
  case due =>
    rintro ⟨hres, hgen, hnum⟩
    have hend := restepApply_due hres hgen hnum
    generalize s.tailGuard.pinsLast = u at hend ⊢
    by_cases hcode : u.restepCheck u.restepStep = 0
    · refine ⟨_, congrArg Host.Outcome.next (hend.trans (restepEnd_taken u hcode)), fun hne => absurd hcode hne, fun _ => ?_⟩
      exact ⟨stepTaken_result u _, stepTaken_valid u _, stepTaken_clock u _, stepTaken_offset u _, stepTaken_servo u _, stepTaken_hold u _⟩
    · refine ⟨_, congrArg Host.Outcome.next (hend.trans (restepEnd_refused u rfl hcode)), fun _ => ⟨?_, ?_, ?_⟩, fun h => absurd h hcode⟩
      · rw [f_emit _ _ _ _ (by decide), restepRefuse_result u _ (restepCheck_lt u _)]
      · exact emit_joins (congrArg HubSt.evq (restepRefuse_hub u _)) _ _ _
      · rw [emit_tick, restepRefuse_tick]
  case noHold => exact fun h => congrArg Host.Outcome.next (holdResume_idle h)
  case resume =>
    intro hgen
    exact ⟨_, congrArg Host.Outcome.next (holdResume_eq hgen), boundary_num ..⟩
  case expiry =>
    intro hexp
    refine ⟨_, exec_restepAuthExpiry_due hexp, ?_, fun a ha => State.rd_wf_ne s _ ha, wf_restores ..⟩
    rw [State.f_wf_same _ ⟨by decide, by decide⟩]
    rfl
  case notYet => exact fun h => exec_restepAuthExpiry_early h
  case hops =>
    intro l
    refine ⟨fun d => ⟨fun h => congrArg Host.Outcome.next (probeSend_idle h d), fun h => ?_⟩, fun seq => ⟨?dead, ?unknown, fun p hp => ⟨?echo, ?lost⟩⟩⟩
    · obtain ⟨vals, bs, hsend⟩ := probeSend_eq h d
      refine ⟨_, congrArg Host.Outcome.next hsend, rfl, ?_⟩
      rw [hop_of_ptp (markerSend_ptp ..), hop_setHop_same]
      rfl
    case dead => exact fun h a b => congrArg Host.Outcome.next (echoIn_dead h seq a b)
    case unknown =>
      exact fun h => ⟨fun a b => congrArg Host.Outcome.next (echoIn_unknown h a b), congrArg Host.Outcome.next (probeTimeout_unknown h)⟩
    case echo =>
      intro a b hlive
      refine ⟨_, congrArg Host.Outcome.next (echoIn_eq hlive hp a b), ?_⟩
      rw [hopPublish_hop, hop_setHop_same]
      obtain ⟨hout, hresults, hdropped⟩ :=
        judged_keeps ((s.hop l).echoed seq (a - p.2 - b + 2 * s.fs (F.PTP_FLl_ASYM_ASYM l)))
      refine ⟨hresults, hout, hdropped, fun _ hsent hempty => judged_published ?_ hsent (hout.symm.trans hempty)⟩
      exact List.cons_ne_nil _ _
    case lost =>
      obtain ⟨hout, hdropped⟩ := probeTimeout_hop hp
      have heq := probeTimeout_eq hp
      refine ⟨s.probeTimeout l seq, rfl, hout, hdropped, fun hpub hlast => ?_⟩
      rw [heq, if_pos hpub]
      exact probeLost_joins (congrArg (· + 1) hlast)

end

section
/-!
PROOFS. Kiln's instruction words (R81 to R83): a word answers an operation exactly when the operation is well-formed and its opcode and operand
bits are the word's, and so the decoder and the encoder are inverse to each other.
-/
namespace Sys2Proof

/-! ### Guards, register numbers and the codes of the FN and COND fields -/

theorem guarded_eq_some {α : Type} {c : Bool} {v x : α} : guarded c v = some x ↔ c = true ∧ v = x := by
  cases c <;> simp [guarded]

theorem reg5_val (d : Fin 32) : reg5 d = d := Fin.ext (Nat.mod_eq_of_lt d.isLt)

theorem aluFnOf_eq_some {n : Nat} {f : AluFn} : aluFnOf n = some f ↔ n = aluFnCode f := by
  constructor
  · unfold aluFnOf
    split <;> rintro ⟨⟩ <;> rfl
  · rintro rfl
    cases f <;> rfl

theorem swdFnOf_eq_some {n : Nat} {f : SwdFn} : swdFnOf n = some f ↔ n = swdFnCode f := by
  constructor
  · unfold swdFnOf
    split <;> rintro ⟨⟩ <;> rfl
  · rintro rfl
    cases f <;> rfl

theorem fireModeOf_eq_some {n : Nat} {m : FireMode} : fireModeOf n = some m ↔ n = fireModeCode m := by
  constructor
  · unfold fireModeOf
    split <;> rintro ⟨⟩ <;> rfl
  · rintro rfl
    cases m <;> rfl

theorem condOf_condCode (c : Cond) : condOf (condCode c) = c := by cases c <;> rfl
theorem condCode_condOf {n : Nat} (h : n < 8) : condCode (condOf n) = n := by interval_cases n <;> rfl
theorem flopFnOf_flopFnCode (f : FlopFn) : flopFnOf (flopFnCode f) = f := by cases f <;> rfl
theorem flopFnCode_flopFnOf {n : Nat} (h : n < 8) : flopFnCode (flopFnOf n) = n := by interval_cases n <;> rfl

theorem aluFnCode_lt (f : AluFn) : aluFnCode f < 15 := by cases f <;> decide
theorem swdFnCode_lt (f : SwdFn) : swdFnCode f < 3 := by cases f <;> decide
theorem condCode_lt (c : Cond) : condCode c < 8 := by cases c <;> decide
theorem flopFnCode_lt (f : FlopFn) : flopFnCode f < 8 := by cases f <;> decide
theorem fireModeCode_lt (m : FireMode) : fireModeCode m < 3 := by cases m <;> decide

theorem condOf_eq_iff {n : Nat} (h : n < 8) (c : Cond) : condOf n = c ↔ n = condCode c :=
  ⟨fun e => e ▸ (condCode_condOf h).symm, fun e => e ▸ condOf_condCode c⟩

/-- The master of a `spix` word (R104). -/
theorem master_eq_iff {n : Nat} (h : n < 2) (m : Fin 2) : (if n = 0 then 0 else 1 : Fin 2).val = m.val ↔ n = m := by
  interval_cases n <;> rfl

theorem selKnown_lt {n : Nat} (h : selKnown n = true) : n < 4096 := by
  simp only [selKnown, Bool.or_eq_true, Bool.and_eq_true, decide_eq_true_eq] at h
  omega

theorem bitNat_lt (b : Bool) : bitNat b < 2 := by cases b <;> decide

/-! ### Fields of a word -/

/-- The bits of a word that its operation's operands take: the 22 below the predicate (R82). -/
def operandBits (w : Nat) : Nat := w % 2 ^ 22

theorem wordBits_lt (w hi lo : Nat) : wordBits w hi lo < 2 ^ (hi + 1 - lo) := Nat.mod_lt _ (by positivity)

theorem wordBits_low (w hi : Nat) : wordBits w hi 0 = w % 2 ^ (hi + 1) := by simp [wordBits]

theorem beq_one_eq_iff {n : Nat} {b : Bool} : (n == 1) = b ↔ (n = 1 ↔ bitNat b = 1) := by
  cases b <;> simp [bitNat]

theorem decide_eq_iff_bitNat {p : Prop} [Decidable p] {b : Bool} : decide p = b ↔ (p ↔ bitNat b = 1) := by
  cases b <;> simp [bitNat]

theorem packR_iff {w d s t fn : Nat} (hs : s < 32) (ht : t < 32) (hf : fn < 128) :
    operandBits w = packR d s t fn ↔ wordBits w 21 17 = d ∧ wordBits w 16 12 = s ∧ wordBits w 11 7 = t ∧ wordBits w 6 0 = fn := by
  simp only [operandBits, packR, wordBits_low]
  unfold wordBits
  omega

theorem packI_iff {w d s imm : Nat} (hs : s < 32) (hi : imm < 4096) :
    operandBits w = packI d s imm ↔ wordBits w 21 17 = d ∧ wordBits w 16 12 = s ∧ wordBits w 11 0 = imm := by
  simp only [operandBits, packI, wordBits_low]
  unfold wordBits
  omega

theorem ldi_operands_iff {w d hi imm : Nat} (hh : hi < 2) (hi' : imm < 65536) :
    operandBits w = d * 2 ^ 17 + hi * 2 ^ 16 + imm ↔ wordBits w 21 17 = d ∧ wordBits w 16 16 = hi ∧ wordBits w 15 0 = imm := by
  simp only [operandBits, wordBits_low]
  unfold wordBits
  omega

theorem cmpi_operands_iff {w c f s imm : Nat} (hf : f < 8) (hs : s < 32) (hi : imm < 2048) :
    operandBits w = c * 2 ^ 19 + f * 2 ^ 16 + s * 2 ^ 11 + imm
      ↔ wordBits w 21 19 = c ∧ wordBits w 18 16 = f ∧ wordBits w 15 11 = s ∧ wordBits w 10 0 = imm := by
  simp only [operandBits, wordBits_low]
  unfold wordBits
  omega

theorem hpw_operands_iff {w port s t off : Nat} (hs : s < 32) (ht : t < 32) (ho : off < 256) :
    operandBits w = port * 2 ^ 18 + s * 2 ^ 13 + t * 2 ^ 8 + off
      ↔ wordBits w 21 18 = port ∧ wordBits w 17 13 = s ∧ wordBits w 12 8 = t ∧ wordBits w 7 0 = off := by
  simp only [operandBits, wordBits_low]
  unfold wordBits
  omega

theorem hpr_operands_iff {w d port s off : Nat} (hp : port < 16) (hs : s < 32) (ho : off < 256) :
    operandBits w = d * 2 ^ 17 + port * 2 ^ 13 + s * 2 ^ 8 + off
      ↔ wordBits w 21 17 = d ∧ wordBits w 16 13 = port ∧ wordBits w 12 8 = s ∧ wordBits w 7 0 = off := by
  simp only [operandBits, wordBits_low]
  unfold wordBits
  omega

/-! ### The opcode map -/

/-- Whatever `o` answers stands under opcode `code` in the opcode map of R83. -/
def Spells (o : Option KOp) (code : Nat) : Prop := ∀ op, o = some op → (kencodeOp op).1 = code

@[simp] theorem spells_none (code : Nat) : Spells none code := by simp [Spells]
@[simp] theorem spells_some (v : KOp) (code : Nat) : Spells (some v) code ↔ (kencodeOp v).1 = code := by simp [Spells]
@[simp] theorem spells_guarded (c : Bool) (v : KOp) (code : Nat) : Spells (guarded c v) code ↔ (c = true → (kencodeOp v).1 = code) := by
  cases c <;> simp [Spells, guarded]

theorem kdecodeOp_spells (w : Nat) : Spells (kdecodeOp w) (wordBits w 31 26) := by
  unfold kdecodeOp
  dsimp only
  generalize wordBits w 31 26 = code
  split
  case h_44 => exact spells_none code
  all_goals repeat' split
  all_goals simp [kencodeOp]

/-! ### What a word answers: the operations whose form depends on their FN -/

theorem wf_alu (d s t : Fin 32) (fn : AluFn) : (KOp.alu d s t fn).wf = (fn != .abs || t == 0) := by cases fn <;> rfl

theorem wf_fire (u c i : Fin 32) (mode : FireMode) : (KOp.fire u c i mode).wf = (mode != .boundaryPlus || c == 0) := by
  cases mode <;> rfl

section Fn
variable {w : Nat}

theorem kdecodeOp_alu (hop : wordBits w 31 26 = 0x10) : kdecodeOp w = (aluFnOf (wordBits w 6 0)).bind fun f =>
    guarded (f != .abs || wordBits w 11 7 == 0)
      (.alu (reg5 (wordBits w 21 17)) (reg5 (wordBits w 16 12)) (reg5 (wordBits w 11 7)) f) := by
  simp only [kdecodeOp, hop]
  cases aluFnOf (wordBits w 6 0) with
  | none => rfl
  | some f => cases f <;> rfl

theorem kdecodeOp_swd (hop : wordBits w 31 26 = 0x1B) : kdecodeOp w = (swdFnOf (wordBits w 6 0)).bind fun f =>
    guarded (f == .pack || wordBits w 11 7 == 0)
      (.swd (reg5 (wordBits w 21 17)) (reg5 (wordBits w 16 12)) (reg5 (wordBits w 11 7)) f) := by
  simp only [kdecodeOp, hop]
  cases swdFnOf (wordBits w 6 0) with
  | none => rfl
  | some f => cases f <;> rfl

theorem kdecodeOp_fire (hop : wordBits w 31 26 = 0x3E) : kdecodeOp w = (fireModeOf (wordBits w 6 0)).bind fun m =>
    guarded (m != .boundaryPlus || wordBits w 16 12 == 0)
      (.fire (reg5 (wordBits w 21 17)) (reg5 (wordBits w 16 12)) (reg5 (wordBits w 11 7)) m) := by
  simp only [kdecodeOp, hop]
  cases fireModeOf (wordBits w 6 0) with
  | none => rfl
  | some m => cases m <;> rfl

theorem kdecodeOp_alu_iff (hop : wordBits w 31 26 = 0x10) (d s t : Fin 32) (fn : AluFn) :
    kdecodeOp w = some (.alu d s t fn) ↔ (KOp.alu d s t fn).wf = true ∧ operandBits w = packR d s t (aluFnCode fn) := by
  have hd := wordBits_lt w 21 17
  have hs := wordBits_lt w 16 12
  have ht := wordBits_lt w 11 7
  rw [packR_iff s.isLt t.isLt ((aluFnCode_lt fn).trans (by decide)), kdecodeOp_alu hop, wf_alu]
  simp only [Option.bind_eq_some_iff, guarded_eq_some, aluFnOf_eq_some, KOp.alu.injEq, Fin.ext_iff, reg5, Fin.val_zero, Bool.or_eq_true,
    bne_iff_ne, beq_iff_eq]
  constructor
  · rintro ⟨f, hf, hz, h1, h2, h3, rfl⟩
    exact ⟨hz.imp_right fun h => by omega, by omega⟩
  · rintro ⟨hz, h1, h2, h3, h4⟩
    exact ⟨fn, h4, hz.imp_right fun h => by omega, by omega, by omega, by omega, rfl⟩

theorem kdecodeOp_swd_iff (hop : wordBits w 31 26 = 0x1B) (d s t : Fin 32) (fn : SwdFn) :
    kdecodeOp w = some (.swd d s t fn) ↔ (KOp.swd d s t fn).wf = true ∧ operandBits w = packR d s t (swdFnCode fn) := by
  have hd := wordBits_lt w 21 17
  have hs := wordBits_lt w 16 12
  have ht := wordBits_lt w 11 7
  rw [packR_iff s.isLt t.isLt ((swdFnCode_lt fn).trans (by decide)), kdecodeOp_swd hop, KOp.wf]
  simp only [Option.bind_eq_some_iff, guarded_eq_some, swdFnOf_eq_some, KOp.swd.injEq, Fin.ext_iff, reg5, Fin.val_zero, Bool.or_eq_true,
    beq_iff_eq]
  constructor
  · rintro ⟨f, hf, hz, h1, h2, h3, rfl⟩
    exact ⟨hz.imp_right fun h => by omega, by omega⟩
  · rintro ⟨hz, h1, h2, h3, h4⟩
    exact ⟨fn, h4, hz.imp_right fun h => by omega, by omega, by omega, by omega, rfl⟩

theorem kdecodeOp_fire_iff (hop : wordBits w 31 26 = 0x3E) (u c i : Fin 32) (mode : FireMode) :
    kdecodeOp w = some (.fire u c i mode) ↔ (KOp.fire u c i mode).wf = true ∧ operandBits w = packR u c i (fireModeCode mode) := by
  have hd := wordBits_lt w 21 17
  have hs := wordBits_lt w 16 12
  have ht := wordBits_lt w 11 7
  rw [packR_iff c.isLt i.isLt ((fireModeCode_lt mode).trans (by decide)), kdecodeOp_fire hop, wf_fire]
  simp only [Option.bind_eq_some_iff, guarded_eq_some, fireModeOf_eq_some, KOp.fire.injEq, Fin.ext_iff, reg5, Fin.val_zero, Bool.or_eq_true,
    bne_iff_ne, beq_iff_eq]
  constructor
  · rintro ⟨f, hf, hz, h1, h2, h3, rfl⟩
    exact ⟨hz.imp_right fun h => by omega, by omega⟩
  · rintro ⟨hz, h1, h2, h3, h4⟩
    exact ⟨mode, h4, hz.imp_right fun h => by omega, by omega, by omega, by omega, rfl⟩

theorem kdecodeOp_cmp_iff (hop : wordBits w 31 26 = 0x20) (f : Fin 8) (s t : Fin 32) (c : Cond) :
    kdecodeOp w = some (.cmp f s t c) ↔ operandBits w = packR f s t (condCode c) := by
  have hs := wordBits_lt w 16 12
  have ht := wordBits_lt w 11 7
  have := condCode_lt c
  rw [packR_iff s.isLt t.isLt (by omega)]
  simp only [kdecodeOp, hop, guarded_eq_some, Bool.and_eq_true, decide_eq_true_eq, KOp.cmp.injEq, Fin.ext_iff, reg5, flag3]
  constructor
  · rintro ⟨⟨hd8, hf8⟩, heq⟩
    rw [condOf_eq_iff hf8] at heq
    omega
  · intro h
    rw [condOf_eq_iff (by omega)]
    omega

theorem kdecodeOp_flop_iff (hop : wordBits w 31 26 = 0x22) (f a b : Fin 8) (fn : FlopFn) :
    kdecodeOp w = some (.flop f a b fn) ↔ (KOp.flop f a b fn).wf = true ∧ operandBits w = packR f a b (flopFnCode fn) := by
  have := flopFnCode_lt fn
  rw [packR_iff (by omega) (by omega) (by omega)]
  simp only [kdecodeOp, hop, KOp.wf, guarded_eq_some, Bool.and_eq_true, decide_eq_true_eq, KOp.flop.injEq, Fin.ext_iff, flag3, Fin.val_zero,
    Bool.or_eq_true, beq_iff_eq]
  constructor
  · rintro ⟨⟨⟨⟨⟨⟨hd8, hs8⟩, ht8⟩, hf8⟩, ha⟩, hb⟩, h1, h2, h3, rfl⟩
    rw [flopFnCode_flopFnOf hf8]
    exact ⟨⟨ha.imp_right fun h => by omega, hb.imp_right fun h => by omega⟩, by omega⟩
  · rintro ⟨⟨ha, hb⟩, h1, h2, h3, h4⟩
    rw [h1, h2, h3, h4, flopFnOf_flopFnCode]
    exact ⟨⟨⟨by omega, ha⟩, hb⟩, by omega, by omega, by omega, rfl⟩

theorem kdecodeOp_gets_iff (hop : wordBits w 31 26 = 0x09) (d : Fin 32) (sel : Nat) :
    kdecodeOp w = some (.gets d sel) ↔ selKnown sel = true ∧ operandBits w = packI d 0 sel := by
  have hd := wordBits_lt w 21 17
  simp only [kdecodeOp, hop, guarded_eq_some, Bool.and_eq_true, beq_iff_eq, KOp.gets.injEq]
  constructor
  · rintro ⟨⟨hz, hk⟩, rfl, rfl⟩
    exact ⟨hk, (packI_iff (by decide) (wordBits_lt w 11 0)).2 ⟨(Nat.mod_eq_of_lt hd).symm, hz, rfl⟩⟩
  · rintro ⟨hk, hw⟩
    obtain ⟨h1, h2, h3⟩ := (packI_iff (by decide) (selKnown_lt hk)).1 hw
    rw [h1, h2, h3]
    exact ⟨⟨rfl, hk⟩, reg5_val d, rfl⟩

end Fn

/-! ### What a word answers -/

/-- A word under an operation's opcode answers that operation exactly when the operation is well-formed and the word holds its operand bits. -/
theorem kdecodeOp_eq_some_iff {w : Nat} {op : KOp} (hop : wordBits w 31 26 = (kencodeOp op).1) :
    kdecodeOp w = some op ↔ op.wf = true ∧ operandBits w = (kencodeOp op).2 := by
  have hd := wordBits_lt w 21 17
  have hs := wordBits_lt w 16 12
  have ht := wordBits_lt w 11 7
  have hf := wordBits_lt w 6 0
  cases op <;> simp only [kencodeOp] at hop ⊢
  case alu => exact kdecodeOp_alu_iff hop _ _ _ _
  case swd => exact kdecodeOp_swd_iff hop _ _ _ _
  case fire => exact kdecodeOp_fire_iff hop _ _ _ _
  case flop => exact kdecodeOp_flop_iff hop _ _ _ _
  case gets => exact kdecodeOp_gets_iff hop _ _
  case cmp => exact (kdecodeOp_cmp_iff hop _ _ _ _).trans (and_iff_right rfl).symm
  all_goals
    simp only [kdecodeOp, hop, KOp.wf, guarded_eq_some, Option.some.injEq, true_and, Bool.and_eq_true, beq_iff_eq, decide_eq_true_eq]
  case nop | endTick =>
    simp only [wordBits_low, operandBits, and_true]
  case br off | skip off | waitc off =>
    simp only [KOp.br.injEq, KOp.skip.injEq, KOp.waitc.injEq, wordBits_low, operandBits]
    unfold wordBits
    omega
  case rep count len =>
    simp only [KOp.rep.injEq, wordBits_low, operandBits]
    unfold wordBits
    omega
  case sig imm =>
    simp only [KOp.sig.injEq, wordBits_low, operandBits, ← BitVec.toNat_inj, BitVec.toNat_ofNat]
    unfold wordBits
    omega
  case addi d s imm | andi d s imm | ori d s imm | xori d s imm | ld d s imm | st d s imm | ld64 d s imm | st64 d s imm =>
    rw [packI_iff s.isLt imm.isLt]
    simp only [KOp.addi.injEq, KOp.andi.injEq, KOp.ori.injEq, KOp.xori.injEq, KOp.ld.injEq, KOp.st.injEq, KOp.ld64.injEq, KOp.st64.injEq,
      Fin.ext_iff, reg5, acc2, ← BitVec.toNat_inj, BitVec.toNat_ofNat, wordBits_low]
    omega
  case shli d s sh | shri d s sh | srai d s sh =>
    rw [packI_iff s.isLt (by omega)]
    simp only [KOp.shli.injEq, KOp.shri.injEq, KOp.srai.injEq, Fin.ext_iff, reg5, wordBits_low]
    unfold wordBits at *
    omega
  case lda a s t | srd a s t | strd a s t | pins a s t | clra a =>
    rw [packR_iff (by omega) (by omega) (by omega)]
    simp only [KOp.lda.injEq, KOp.clra.injEq, KOp.srd.injEq, KOp.strd.injEq, KOp.pins.injEq, Fin.ext_iff, reg5, acc2]
    omega
  case route s t | qdep s t | schd s t a off | tstb a s t =>
    rw [packR_iff (by omega) (by omega) (by omega)]
    simp only [KOp.route.injEq, KOp.qdep.injEq, KOp.schd.injEq, KOp.tstb.injEq, Fin.ext_iff, reg5, flag3]
    omega
  case mul a s t u =>
    have := bitNat_lt u
    rw [packR_iff s.isLt t.isLt (by omega)]
    simp only [KOp.mul.injEq, Fin.ext_iff, reg5, acc2, beq_one_eq_iff]
    omega
  case enq q v u =>
    have := bitNat_lt u
    rw [packR_iff q.isLt v.isLt (by omega)]
    simp only [KOp.enq.injEq, Fin.ext_iff, reg5, beq_one_eq_iff]
    omega
  case mac a s t u neg =>
    have := bitNat_lt u
    have := bitNat_lt neg
    rw [packR_iff s.isLt t.isLt (by omega)]
    simp only [KOp.mac.injEq, Fin.ext_iff, reg5, acc2, beq_one_eq_iff, decide_eq_iff_bitNat]
    omega
  case mva d a sh rnd =>
    have := bitNat_lt rnd
    rw [packR_iff (by omega) (by decide) (by omega)]
    simp only [KOp.mva.injEq, Fin.ext_iff, reg5, acc2, decide_eq_iff_bitNat]
    omega
  case ldi d hi imm =>
    have := wordBits_lt w 16 16
    have := wordBits_lt w 15 0
    rw [ldi_operands_iff (bitNat_lt hi) imm.isLt]
    simp only [KOp.ldi.injEq, Fin.ext_iff, reg5, beq_one_eq_iff, ← BitVec.toNat_inj, BitVec.toNat_ofNat]
    have := bitNat_lt hi
    omega
  case cmpi f s imm c =>
    have hc : wordBits w 21 19 < 8 := wordBits_lt w 21 19
    have := wordBits_lt w 18 16
    have := wordBits_lt w 15 11
    have := wordBits_lt w 10 0
    rw [cmpi_operands_iff f.isLt s.isLt imm.isLt]
    simp only [KOp.cmpi.injEq, Fin.ext_iff, reg5, flag3, ← BitVec.toNat_inj, BitVec.toNat_ofNat, condOf_eq_iff hc]
    omega
  case hpw port s t off =>
    have := wordBits_lt w 17 13
    have := wordBits_lt w 12 8
    have := wordBits_lt w 7 0
    rw [hpw_operands_iff s.isLt t.isLt off.isLt]
    simp only [Option.dite_none_right_eq_some, Option.some.injEq, KOp.hpw.injEq, Fin.ext_iff, reg5, ← BitVec.toNat_inj, BitVec.toNat_ofNat,
      exists_prop]
    omega
  case hpr d port s off =>
    have := wordBits_lt w 12 8
    have := wordBits_lt w 7 0
    rw [hpr_operands_iff (by omega) s.isLt off.isLt]
    simp only [Option.dite_none_right_eq_some, Option.some.injEq, KOp.hpr.injEq, Fin.ext_iff, reg5, ← BitVec.toNat_inj, BitVec.toNat_ofNat,
      exists_prop]
    omega
  case spix k m =>
    rw [packR_iff (by omega) (by omega) (by omega)]
    constructor
    · rintro ⟨⟨⟨hs0, ht0⟩, hf2⟩, heq⟩
      simp only [KOp.spix.injEq, Fin.ext_iff, reg5, master_eq_iff hf2] at heq
      omega
    · intro h
      simp only [KOp.spix.injEq, Fin.ext_iff, reg5, master_eq_iff (show wordBits w 6 0 < 2 by omega)]
      omega
  case scnt d c v =>
    cases v
    all_goals
      rw [packR_iff c.isLt (by decide) (by decide)]
      simp only [KOp.scnt.injEq, Fin.ext_iff, reg5, ite_eq_left_iff, ite_eq_right_iff, reduceCtorEq, imp_false, not_not]
      omega

/-- Every operation has a six-bit opcode and 22 operand bits (R81, R82). -/
theorem kencodeOp_lt {op : KOp} (h : op.wf = true) : (kencodeOp op).1 < 64 ∧ (kencodeOp op).2 < 2 ^ 22 := by
  cases op <;> simp only [kencodeOp, packR, packI] <;> refine ⟨by decide, ?_⟩
  case nop | endTick => decide
  case alu fn => have := aluFnCode_lt fn; omega
  case swd fn => have := swdFnCode_lt fn; omega
  case cmp c => have := condCode_lt c; omega
  case cmpi c => have := condCode_lt c; omega
  case flop fn => have := flopFnCode_lt fn; omega
  case fire mode => have := fireModeCode_lt mode; omega
  case mul u => have := bitNat_lt u; omega
  case mac u neg => have := bitNat_lt u; have := bitNat_lt neg; omega
  case enq eop => have := bitNat_lt eop; omega
  case mva rnd => have := bitNat_lt rnd; omega
  case ldi hi _ => have := bitNat_lt hi; omega
  case gets sel => have := selKnown_lt h; omega
  case br | skip | rep | waitc =>
    simp only [KOp.wf, Bool.and_eq_true, decide_eq_true_eq] at h
    omega
  case scnt v => cases v <;> dsimp only <;> omega
  all_goals omega

theorem kencode_toNat {i : KInstr} (h : i.op.wf = true) : (kencode i).toNat =
    (kencodeOp i.op).1 * 2 ^ 26 + i.pred.sel * 2 ^ 23 + bitNat i.pred.neg * 2 ^ 22 + (kencodeOp i.op).2 := by
  have := kencodeOp_lt h
  have := bitNat_lt i.pred.neg
  unfold kencode
  rw [BitVec.toNat_ofNat]
  omega

theorem kdecode_eq_some_iff_fields {w : Word} {sel : Fin 8} {neg : Bool} {op : KOp} : kdecode w = some ⟨⟨sel, neg⟩, op⟩
    ↔ kdecodeOp w.toNat = some op ∧ wordBits w.toNat 25 23 = sel ∧ wordBits w.toNat 22 22 = bitNat neg := by
  have hsel : flag3 (wordBits w.toNat 25 23) = sel ↔ wordBits w.toNat 25 23 = sel := by
    rw [Fin.ext_iff, flag3]
    exact (Nat.mod_eq_of_lt (wordBits_lt w.toNat 25 23)).congr_left
  have hneg : (wordBits w.toNat 22 22 == 1) = neg ↔ wordBits w.toNat 22 22 = bitNat neg := by
    have := wordBits_lt w.toNat 22 22
    have := bitNat_lt neg
    rw [beq_one_eq_iff]
    omega
  unfold kdecode
  cases kdecodeOp w.toNat with
  | none => simp
  | some o => simp only [Option.some.injEq, KInstr.mk.injEq, Pred.mk.injEq, hsel, hneg, and_comm]

/-- A word decodes to an instruction exactly when that instruction is well-formed and its word is that word. -/
theorem kdecode_eq_some_iff {w : Word} {i : KInstr} : kdecode w = some i ↔ i.op.wf = true ∧ kencode i = w := by
  obtain ⟨⟨sel, neg⟩, op⟩ := i
  have hneg := bitNat_lt neg
  rw [kdecode_eq_some_iff_fields]
  constructor
  · rintro ⟨hop, hsel, hb⟩
    have hcode := kdecodeOp_spells w.toNat op hop
    obtain ⟨hwf, hbits⟩ := (kdecodeOp_eq_some_iff hcode.symm).1 hop
    refine ⟨hwf, BitVec.eq_of_toNat_eq ((kencode_toNat hwf).trans ?_)⟩
    have hw := w.isLt
    dsimp only
    rw [hcode, ← hbits, ← hsel, ← hb]
    unfold wordBits operandBits
    omega
  · rintro ⟨hwf, rfl⟩
    obtain ⟨hcode, hbits⟩ := kencodeOp_lt hwf
    have hword := kencode_toNat hwf
    dsimp only at hword hcode hbits
    generalize (kencode ⟨⟨sel, neg⟩, op⟩).toNat = n at hword ⊢
    refine ⟨(kdecodeOp_eq_some_iff ?_).2 ⟨hwf, ?_⟩, ?_, ?_⟩
    · unfold wordBits
      omega
    · unfold operandBits
      omega
    · unfold wordBits
      omega
    · unfold wordBits
      omega

end Sys2Proof
end

section
open Sys2Proof Sys2Proof.Machine

/-- Settles O17: both directions are the two readings of `kdecode_eq_some_iff`. -/
theorem klnWordsRoundTrip : Obligations.KlnWordsRoundTrip :=
  ⟨fun _ h => kdecode_eq_some_iff.2 ⟨h, rfl⟩, fun _ _ h => kdecode_eq_some_iff.1 h⟩

/-- Settles O18: each word is decoded as it stands. -/
theorem klnWordsOfTheEncodingTables : Obligations.KlnWordsOfTheEncodingTables := by
  unfold Obligations.KlnWordsOfTheEncodingTables
  decide

end

section
/-!
PROOFS. A hearth's instructions (R57 to R61, R77): what issuing one does when its predicate holds and when it does not, and the three frames
of an instruction that writes a K register, an accumulator or a flag.
-/
namespace Sys2Proof.Machine

open Sys2Proof

section Issue
variable {s : State} {h : Nat} {p : Pred}

/-! ### Issue -/

theorem onlyHearth_setHearth (s : State) (h : Nat) (x : Hearth) : s.OnlyHearth (s.setHearth h x) h :=
  ⟨rfl, fun _ hg => s.hearth_setHearth_ne x hg⟩

theorem issue_of_runs (hr : s.Runs h p) (cost : Nat) (f : State → Hearth → State × Hearth) :
    s.issue h p cost f = (f s (s.hearth h)).1.setHearth h ((f s (s.hearth h)).2.next cost) := by
  obtain ⟨hrun, hp⟩ := hr
  simp [State.issue, hrun, hp]

theorem issueH_of_runs (hr : s.Runs h p) (cost : Nat) (f : Hearth → Hearth) :
    s.issueH h p cost f = s.setHearth h ((f (s.hearth h)).next cost) := issue_of_runs hr cost _

theorem Hearth.advanced_next {x y : Hearth} (hc : y.cyc = x.cyc) (hr : y.reps = x.reps) (hpc : y.pc = x.pc) (cost : Nat) :
    x.Advanced (y.next cost) cost := by
  refine ⟨by rw [Hearth.cyc_next, hc], ?_⟩
  rw [← hr, ← hpc]
  rfl

/-! ### The frames of a result -/

@[simp] theorem Hearth.satIf_false (x : Hearth) : x.satIf false = x := by simp [Hearth.satIf]

theorem writesK_next (s : State) (h d : Nat) (v : Word) (c : Bool) (cost : Nat) :
    s.WritesK (s.setHearth h ((((s.hearth h).kw d v).satIf c).next cost)) h d v c cost := by
  unfold State.WritesK
  rw [State.hearth_setHearth_same]
  refine ⟨onlyHearth_setHearth s h _, ?_, Hearth.advanced_next (by simp) (by simp) (by simp) cost, by simp [Hearth.satIf], fun n => ?_,
    by simp, by simp⟩
  · unfold Hearth.kw
    split <;> rfl
  · rw [Hearth.kr_next, Hearth.kr_satIf, Hearth.kr_kw]
    congr 1
    simp only [eq_iff_iff, and_congr_right_iff]
    rintro rfl
    rfl

theorem writesA_next (s : State) (h a : Nat) (v : Acc) (cost : Nat) :
    s.WritesA (s.setHearth h (((s.hearth h).aw a v).next cost)) h a v cost := by
  unfold State.WritesA
  rw [State.hearth_setHearth_same]
  exact ⟨onlyHearth_setHearth s h _, rfl, Hearth.advanced_next rfl rfl rfl cost, rfl, fun _ => rfl, fun n => Hearth.ar_aw _ a n v, fun _ => rfl⟩

theorem writesF_next (s : State) (h f : Nat) (v : Bool) (cost : Nat) :
    s.WritesF (s.setHearth h (((s.hearth h).fw f v).next cost)) h f v cost := by
  unfold State.WritesF
  rw [State.hearth_setHearth_same]
  refine ⟨onlyHearth_setHearth s h _, ?_, Hearth.advanced_next (by simp) (by simp) (by simp) cost, by simp, by simp, by simp, fun n => ?_⟩
  · unfold Hearth.fw
    split <;> rfl
  · rw [Hearth.fr_next, Hearth.fr_fw]
    congr 1
    simp only [eq_iff_iff, and_congr_right_iff]
    rintro rfl
    rfl

/-! ### Instructions that act on their hearth alone -/

variable {i : Instr} {cost : Nat}

theorem exec_writesK_sat (hr : s.Runs h p) {d : Nat} {f : Hearth → Word × Bool}
    (hi : exec i s = .next (s.issueH h p cost fun x => (x.kw d (f x).1).satIf (f x).2)) {v : Word} {c : Bool} (hv : f (s.hearth h) = (v, c)) :
    ∃ t, exec i s = .next t ∧ s.WritesK t h d v c cost := by
  refine ⟨_, hi.trans (congrArg Host.Outcome.next (issueH_of_runs hr cost _)), ?_⟩
  rw [hv]
  exact writesK_next s h d v c cost

theorem exec_writesK (hr : s.Runs h p) {d : Nat} {f : Hearth → Word} (hi : exec i s = .next (s.issueH h p cost fun x => x.kw d (f x)))
    {v : Word} (hv : f (s.hearth h) = v) : ∃ t, exec i s = .next t ∧ s.WritesK t h d v false cost := by
  refine exec_writesK_sat hr (f := fun x => (f x, false)) ?_ (by rw [hv])
  simpa only [Hearth.satIf_false] using hi

theorem exec_writesA (hr : s.Runs h p) {a : Nat} {f : Hearth → Acc} (hi : exec i s = .next (s.issueH h p cost fun x => x.aw a (f x)))
    {v : Acc} (hv : f (s.hearth h) = v) : ∃ t, exec i s = .next t ∧ s.WritesA t h a v cost :=
  ⟨_, hi.trans (congrArg Host.Outcome.next (issueH_of_runs hr cost _)), hv ▸ writesA_next s h a _ cost⟩

theorem exec_writesF (hr : s.Runs h p) {g : Nat} {f : Hearth → Bool} (hi : exec i s = .next (s.issueH h p cost fun x => x.fw g (f x)))
    {v : Bool} (hv : f (s.hearth h) = v) : ∃ t, exec i s = .next t ∧ s.WritesF t h g v cost :=
  ⟨_, hi.trans (congrArg Host.Outcome.next (issueH_of_runs hr cost _)), hv ▸ writesF_next s h g _ cost⟩

end Issue

/-! ### Results over the integers -/

theorem add_signExtend_eq (x : Word) (imm : BitVec 12) : x + BitVec.signExtend 32 imm = BitVec.ofInt 32 (x.toInt + imm.toInt) := by
  rw [BitVec.ofInt_add, BitVec.ofInt_toInt]
  rfl

theorem shiftLeft_eq_ofNat (x : Word) (n : Nat) : x <<< n = BitVec.ofNat 32 (x.toNat * 2 ^ n) := by
  rw [← Nat.shiftLeft_eq]
  rfl

theorem ushiftRight_eq_ofNat (x : Word) (n : Nat) : x >>> n = BitVec.ofNat 32 (x.toNat / 2 ^ n) := by
  apply BitVec.eq_of_toNat_eq
  rw [BitVec.toNat_ushiftRight, Nat.shiftRight_eq_div_pow, BitVec.toNat_ofNat, Nat.mod_eq_of_lt ((Nat.div_le_self _ _).trans_lt x.isLt)]

theorem sshiftRight_eq_ofInt (x : Word) (n : Nat) : x.sshiftRight n = BitVec.ofInt 32 (x.toInt / 2 ^ n) := by
  unfold BitVec.sshiftRight
  rw [Int.shiftRight_eq_div_pow]
  norm_cast

theorem ldi_high_eq (x : Word) (imm : BitVec 16) :
    (BitVec.setWidth 32 imm <<< 16) ||| (x &&& 0xFFFF#32) = BitVec.ofNat 32 (imm.toNat * 65536 + x.toNat % 65536) := by
  apply BitVec.eq_of_toNat_eq
  have hi := imm.isLt
  have hlow : x.toNat &&& 65535 = x.toNat % 2 ^ 16 := Nat.and_two_pow_sub_one_eq_mod x.toNat 16
  have hhigh : (imm.toNat % 2 ^ 32) <<< 16 % 2 ^ 32 = imm.toNat <<< 16 := by
    rw [Nat.shiftLeft_eq, Nat.shiftLeft_eq]
    omega
  rw [BitVec.toNat_or, BitVec.toNat_and, BitVec.toNat_shiftLeft, BitVec.toNat_setWidth, hhigh, BitVec.toNat_ofNat, BitVec.toNat_ofNat,
    Nat.mod_eq_of_lt (show 65535 < 2 ^ 32 by decide), hlow, ← Nat.shiftLeft_add_eq_or_of_lt (Nat.mod_lt _ (by decide)), Nat.shiftLeft_eq]
  omega

theorem special_sat (s : State) (h : Nat) (x : Hearth) : s.special h x 0x00A = if x.sat then 1#32 else 0#32 :=
  apply_ite (BitVec.ofNat 32) (x.sat = true) 1 0

/-- The iteration counts of the repeat stack, from the outermost body on (R85, R88). -/
theorem special_index (s : State) (h : Nat) (x : Hearth) {k : Nat} (hk : k < 4) :
    s.special h x (0x010 + k) = BitVec.ofNat 32 ((x.reps.reverse[k]?.map (·.idx)).getD 0) := by
  interval_cases k <;> rfl

end Sys2Proof.Machine
end

section
open Sys2Proof Sys2Proof.Machine

/-- Settles O9: each instruction writes one K register of its hearth, and the value is R88's or R90's over the integers. -/
theorem klnRegisterInstructions : Obligations.KlnRegisterInstructions := by
  unfold Obligations.KlnRegisterInstructions
  intro s h p hr d a i16 i12 sh sel
  dsimp only
  have hwide : BitVec.setWidth 32 i12 = BitVec.ofNat 32 i12.toNat := (BitVec.ofNat_toNat 32 i12).symm
  refine ⟨exec_writesK hr rfl rfl, exec_writesK hr rfl (ldi_high_eq _ i16), exec_writesK hr rfl (add_signExtend_eq _ i12),
    exec_writesK hr rfl (congrArg _ hwide), exec_writesK hr rfl (congrArg _ hwide), exec_writesK hr rfl (congrArg _ hwide),
    exec_writesK hr rfl (shiftLeft_eq_ofNat _ _), exec_writesK hr rfl (ushiftRight_eq_ofNat _ _),
    exec_writesK hr rfl (sshiftRight_eq_ofInt _ _), ?_⟩
  obtain ⟨t, ht, hw⟩ := exec_writesK (i := .gets h p d sel) (f := fun x => s.special h x sel) hr rfl rfl
  refine ⟨t, _, ht, hw, ?_⟩
  iterate 10 refine ⟨by rintro rfl; rfl, ?_⟩
  refine ⟨?_, fun k hk => ?_⟩ <;> rintro rfl
  · exact special_sat s h _
  · exact special_index s h _ hk

end

section
/-!
PROOFS. What Kiln's arithmetic computes, over the integers (R89, R91 to R94): the clamp to 32 bits, the `alu` operations, the accumulators, the
conditions and the sample words.
-/
namespace Sys2Proof.Machine

open Sys2Proof

/-! ### The clamp and the operations of `alu` (R89) -/

theorem clamp32_toInt (z : Int) : (clamp32 z).1.toInt = max (-2147483648) (min 2147483647 z) := by
  unfold clamp32
  split_ifs with hlo hhi
  · rw [max_eq_left (by omega)]
    decide
  · rw [min_eq_left (by omega)]
    decide
  · rw [min_eq_right (by omega), max_eq_right (by omega), BitVec.toInt_ofInt]
    exact Int.bmod_eq_of_le (by omega) (by omega)

theorem clamp32_clamped (z : Int) : (clamp32 z).2 = true ↔ z < -2147483648 ∨ 2147483647 < z := by
  unfold clamp32
  split_ifs with hlo hhi <;> simp <;> omega

theorem add_eq_ofInt {n : Nat} (x y : BitVec n) : x + y = BitVec.ofInt n (x.toInt + y.toInt) := by
  rw [BitVec.ofInt_add, BitVec.ofInt_toInt, BitVec.ofInt_toInt]

theorem sub_eq_ofInt {n : Nat} (x y : BitVec n) : x - y = BitVec.ofInt n (x.toInt - y.toInt) := by
  rw [← BitVec.toInt_inj, BitVec.toInt_sub, BitVec.toInt_ofInt]

theorem toInt_sshiftRight_eq (x : Word) (n : Nat) : (x.sshiftRight n).toInt = x.toInt / 2 ^ n := by
  rw [BitVec.toInt_sshiftRight, Int.shiftRight_eq_div_pow]
  norm_cast

theorem toInt_eq_min_iff (u : Word) : u.toInt = -2147483648 ↔ u = 0x80000000#32 := by
  rw [← BitVec.toInt_inj]
  rfl

/-! ### The accumulators (R91) -/

theorem accumulate_eq (x : Acc) (z : Int) (neg : Bool) :
    (if neg then x - BitVec.ofInt 64 z else x + BitVec.ofInt 64 z) = BitVec.ofInt 64 (x.toInt + (if neg then -1 else 1) * z) := by
  cases neg
  · simp [BitVec.ofInt_add]
  · simp [BitVec.ofInt_add, BitVec.ofInt_neg, BitVec.sub_eq_add_neg]

theorem join_words_eq (hi lo : Word) :
    (BitVec.setWidth 64 hi <<< 32) ||| BitVec.setWidth 64 lo = BitVec.ofNat 64 (hi.toNat * 2 ^ 32 + lo.toNat) := by
  apply BitVec.eq_of_toNat_eq
  have hh := hi.isLt
  have hl := lo.isLt
  have hhigh : (hi.toNat % 2 ^ 64) <<< 32 % 2 ^ 64 = hi.toNat <<< 32 := by
    rw [Nat.shiftLeft_eq, Nat.shiftLeft_eq]
    omega
  rw [BitVec.toNat_or, BitVec.toNat_shiftLeft, BitVec.toNat_setWidth, BitVec.toNat_setWidth, hhigh, BitVec.toNat_ofNat,
    Nat.mod_eq_of_lt (show lo.toNat < 2 ^ 64 by omega), ← Nat.shiftLeft_add_eq_or_of_lt hl, Nat.shiftLeft_eq]
  omega

theorem mvaOp_eq (x : Acc) (sh : Nat) (rnd : Bool) :
    mvaOp x sh rnd = clamp32 ((if rnd = true ∧ 1 ≤ sh then x.toInt + 2 ^ (sh - 1) else x.toInt) / 2 ^ sh) := by
  simp only [mvaOp, Bool.and_eq_true, decide_eq_true_eq]

/-! ### The conditions and the flags (R92, R93) -/

theorem condHolds_iff (c : Cond) (u v : Word) : condHolds c u v = true ↔ match c with
    | .eq => u = v
    | .ne => u ≠ v
    | .lt => u.toInt < v.toInt
    | .le => u.toInt ≤ v.toInt
    | .gt => v.toInt < u.toInt
    | .ge => v.toInt ≤ u.toInt
    | .ltu => u.toNat < v.toNat
    | .geu => v.toNat ≤ u.toNat := by
  cases c <;> simp [condHolds]

/-! ### Sample words (R94) -/

theorem setWidth_24_eq (u : Word) : BitVec.setWidth 24 u = BitVec.ofInt 24 u.toInt := by
  apply BitVec.eq_of_toNat_eq
  have := u.isLt
  rw [BitVec.toNat_setWidth, BitVec.toNat_ofInt, BitVec.toInt_eq_toNat_cond]
  split <;> omega

section Pack
variable (b low : Word)

/-- A packed word: the status in the top byte over the data below it (R94). -/
def packed : Word := ((b &&& 0xFF#32) <<< 24) ||| low

theorem packed_data : (packed b low).toNat % 2 ^ 24 = low.toNat % 2 ^ 24 := by
  unfold packed
  rw [BitVec.toNat_or, Nat.or_mod_two_pow, BitVec.toNat_shiftLeft, Nat.shiftLeft_eq]
  rw [Nat.mod_mod_of_dvd _ (by decide), Nat.mul_mod_left, Nat.zero_or]

theorem packed_status {k : Nat} (hk : k < 8) : (packed b low).getLsbD (24 + k) = (b.getLsbD k || low.getLsbD (24 + k)) := by
  unfold packed
  interval_cases k <;> simp
end Pack

theorem ofInt_24_toNat_ne {z : Int} (hlo : -8388607 ≤ z) (hhi : z ≤ 8388607) : (BitVec.ofInt 24 z).toNat ≠ 0x800000 := by
  rw [BitVec.toNat_ofInt]
  omega

/-- What `pack` puts below the status byte: the 24-bit form of the clamped value, with XOV where it clamps (R94). -/
def packLow (u : Word) : Word :=
  if u.toInt < -8388607 then 0x40800001#32 else if u.toInt > 8388607 then 0x407FFFFF#32 else u &&& 0x00FFFFFF#32

/-- Whether `pack` clamps. -/
def packClamps (u : Word) : Bool := decide (u.toInt < -8388607 ∨ 8388607 < u.toInt)

theorem swdOp_pack (u v : Word) : swdOp .pack u v = (packed v (packLow u), packClamps u) := by
  simp only [swdOp, packLow, packed, packClamps]
  split_ifs with hlo hhi
  · simp [hlo]
  · simp [hhi]
  · simp [hlo, hhi]

theorem pack_clamped (u v : Word) : (swdOp .pack u v).2 = true ↔ u.toInt < -8388607 ∨ 8388607 < u.toInt := by
  rw [swdOp_pack]
  exact decide_eq_true_iff

theorem packLow_data (u : Word) : (packLow u).toNat % 2 ^ 24 = (BitVec.ofInt 24 (max (-8388607) (min 8388607 u.toInt))).toNat := by
  unfold packLow
  split_ifs with hlo hhi
  · rw [max_eq_left (by omega)]
    decide
  · rw [min_eq_left (by omega)]
    decide
  · rw [min_eq_right (by omega), max_eq_right (by omega), ← setWidth_24_eq, BitVec.toNat_setWidth, BitVec.toNat_and]
    have hmask : u.toNat &&& 16777215 = u.toNat % 2 ^ 24 := Nat.and_two_pow_sub_one_eq_mod u.toNat 24
    rw [BitVec.toNat_ofNat, Nat.mod_eq_of_lt (show 16777215 < 2 ^ 32 by decide), hmask, Nat.mod_mod]

theorem packLow_top (u : Word) {k : Nat} (hk : k < 8) : (packLow u).getLsbD (24 + k) = (decide (k = 6) && packClamps u) := by
  unfold packLow packClamps
  split_ifs with hlo hhi
  · simp only [hlo, true_or, decide_true, Bool.and_true]
    interval_cases k <;> rfl
  · have hhi' : 8388607 < u.toInt := hhi
    simp only [hhi', or_true, decide_true, Bool.and_true]
    interval_cases k <;> rfl
  · have hin : ¬(u.toInt < -8388607 ∨ 8388607 < u.toInt) := by omega
    simp only [hin, decide_false, Bool.and_false]
    interval_cases k <;> simp

theorem pack_data (u v : Word) :
    (swdOp .pack u v).1.toNat % 2 ^ 24 = (BitVec.ofInt 24 (max (-8388607) (min 8388607 u.toInt))).toNat := by
  rw [swdOp_pack]
  exact (packed_data v (packLow u)).trans (packLow_data u)

theorem pack_status (u v : Word) (k : Nat) (hk : k < 8) :
    (swdOp .pack u v).1.getLsbD (24 + k) = (v.getLsbD k || (decide (k = 6) && (swdOp .pack u v).2)) := by
  rw [swdOp_pack]
  exact (packed_status v _ hk).trans (congrArg _ (packLow_top u hk))

end Sys2Proof.Machine
end

section
open Sys2Proof Sys2Proof.Machine

/-- Settles O10: the operation's value is what the table says over the integers, and SAT is the clamp's. -/
theorem klnAluInstruction : Obligations.KlnAluInstruction := by
  unfold Obligations.KlnAluInstruction
  intro s h p hr d a b fn
  dsimp only
  generalize hu : (s.hearth h).kr a = u
  generalize hv : (s.hearth h).kr b = v
  obtain ⟨t, ht, hw⟩ := exec_writesK_sat (i := .alu h p d a b fn) (f := fun x => aluOp fn (x.kr a) (x.kr b)) hr rfl Prod.mk.eta.symm
  rw [hu, hv] at hw
  refine ⟨t, _, _, ht, hw, ?_⟩
  cases fn
  case add => exact ⟨add_eq_ofInt u v, rfl⟩
  case sub => exact ⟨sub_eq_ofInt u v, rfl⟩
  case and => exact ⟨fun k _ => BitVec.getLsbD_and, rfl⟩
  case or => exact ⟨fun k _ => BitVec.getLsbD_or, rfl⟩
  case xor => exact ⟨fun k _ => BitVec.getLsbD_xor, rfl⟩
  case shl => exact ⟨shiftLeft_eq_ofNat u _, rfl⟩
  case shr => exact ⟨(BitVec.toNat_ushiftRight u _).trans (Nat.shiftRight_eq_div_pow _ _), rfl⟩
  case sra => exact ⟨toInt_sshiftRight_eq u _, rfl⟩
  case min => exact ⟨(apply_ite BitVec.toInt _ u v).trans (min_def _ _).symm, rfl⟩
  case max => exact ⟨(apply_ite BitVec.toInt _ v u).trans (max_def _ _).symm, rfl⟩
  case minu => exact ⟨(apply_ite BitVec.toNat _ u v).trans (min_def _ _).symm, rfl⟩
  case maxu => exact ⟨(apply_ite BitVec.toNat _ v u).trans (max_def _ _).symm, rfl⟩
  case adds => exact ⟨clamp32_toInt _, (clamp32_clamped _).trans (by omega)⟩
  case subs => exact ⟨clamp32_toInt _, (clamp32_clamped _).trans (by omega)⟩
  case abs =>
    have hlo := BitVec.le_toInt u
    have hhi := BitVec.toInt_lt (x := u)
    have habs : (if u.toInt < 0 then -u.toInt else u.toInt) = u.toInt.natAbs := by omega
    refine ⟨(clamp32_toInt _).trans ?_, (clamp32_clamped _).trans ?_⟩
    · rw [habs]; omega
    · rw [habs, ← toInt_eq_min_iff]; omega

/-- Settles O11: products and sums are exact before they wrap to 64 bits, and MVA ends in the clamp. -/
theorem klnAccumulatorInstructions : Obligations.KlnAccumulatorInstructions := by
  unfold Obligations.KlnAccumulatorInstructions
  intro s h p hr n a b d neg rnd sh
  dsimp only
  have hprod : product true ((s.hearth h).kr a) ((s.hearth h).kr b) = (((s.hearth h).kr a).toNat * ((s.hearth h).kr b).toNat : Nat) :=
    (Nat.cast_mul _ _).symm
  refine ⟨exec_writesA hr rfl rfl, exec_writesA hr rfl (congrArg _ hprod), exec_writesA hr rfl (accumulate_eq _ _ neg),
    exec_writesA hr rfl (hprod ▸ accumulate_eq _ _ neg), exec_writesA hr rfl rfl, exec_writesA hr rfl (join_words_eq _ _), ?_⟩
  obtain ⟨t, ht, hw⟩ := exec_writesK_sat (i := .mva h p d n sh rnd) (f := fun x => mvaOp (x.ar n) sh rnd) hr rfl Prod.mk.eta.symm
  rw [mvaOp_eq] at hw
  exact ⟨t, _, _, ht, hw, clamp32_toInt _, clamp32_clamped _⟩

/-- Settles O12: each instruction writes one flag, by the condition's or the operation's table. -/
theorem klnFlagInstructions : Obligations.KlnFlagInstructions := by
  unfold Obligations.KlnFlagInstructions
  intro s h p hr f fa fb a b bit imm c fn
  dsimp only
  refine ⟨?cmp, ?cmpi, exec_writesF hr rfl ?flop, exec_writesF hr rfl rfl⟩
  case cmp =>
    obtain ⟨t, ht, hw⟩ := exec_writesF (i := .cmp h p f a b c) hr rfl rfl
    exact ⟨t, _, ht, hw, (condHolds_iff c _ _).trans (by cases c <;> rfl)⟩
  case cmpi =>
    obtain ⟨t, ht, hw⟩ := exec_writesF (i := .cmpi h p f a imm c) hr rfl rfl
    exact ⟨t, _, ht, hw, (condHolds_iff c _ _).trans (by cases c <;> rfl)⟩
  case flop =>
    cases fn with
    | xor => exact congrFun₂ Bool.bne_eq_xor _ _
    | _ => rfl

/-- Settles O13: a pack is its status over its data, and the clamp keeps the data off the invalid marker. -/
theorem klnSampleWordInstruction : Obligations.KlnSampleWordInstruction := by
  unfold Obligations.KlnSampleWordInstruction
  intro s h p hr d a b
  dsimp only
  generalize hu : (s.hearth h).kr a = u
  generalize hv : (s.hearth h).kr b = v
  refine ⟨exec_writesK_sat hr (f := fun x => swdOp .data (x.kr a) (x.kr b)) rfl ?_,
    exec_writesK_sat hr (f := fun x => swdOp .stat (x.kr a) (x.kr b)) rfl ?_, ?_⟩
  · rw [hu, hv]
    exact congrArg (fun y : BitVec 24 => (BitVec.signExtend 32 y, false)) (setWidth_24_eq u)
  · rw [hu, hv]
    exact congrArg (·, false) (ushiftRight_eq_ofNat u 24)
  · obtain ⟨t, ht, hw⟩ := exec_writesK_sat (i := .swd h p d a b .pack) (f := fun x => swdOp .pack (x.kr a) (x.kr b)) hr rfl Prod.mk.eta.symm
    rw [hu, hv] at hw
    refine ⟨t, _, _, ht, hw, pack_clamped u v, pack_data u v, ?_, pack_status u v⟩
    rw [pack_data u v]
    exact ofInt_24_toNat_ne (by omega) (by omega)

end

section
/-!
PROOFS. The course of a hearth (R72, R75, R77, R78, R84 to R87): control flow, an instruction whose predicate is false, a posted instruction and
a waiting read, and the frame of a fault.
-/
namespace Sys2Proof.Machine

open Sys2Proof

/-! ### Running and not, with the predicate true and false -/

theorem ite_runs {α : Type} {x : Hearth} {p : Pred} (hrun : x.running = true) (hp : x.holds p = true) (a b c : α) :
    (if !x.running then a else if x.holds p then b else c) = b := by
  rw [hrun, hp]
  rfl

theorem ite_passes {α : Type} {x : Hearth} {p : Pred} (hrun : x.running = true) (hp : x.holds p = false) (a b c : α) :
    (if !x.running then a else if x.holds p then b else c) = c := by
  rw [hrun, hp]
  rfl

section Course
variable {s : State} {h : Nat} {p : Pred}

/-- A command that replaces hearth `h` alone. -/
theorem exec_setHearth {i : Instr} {y : Hearth} (hi : exec i s = .next (s.setHearth h y)) :
    ∃ t, exec i s = .next t ∧ s.OnlyHearth t h ∧ t.hearth h = y :=
  ⟨_, hi, onlyHearth_setHearth s h y, s.hearth_setHearth_same h y⟩

theorem issue_of_passes (hrun : (s.hearth h).running = true) (hp : (s.hearth h).holds p = false) (cost : Nat)
    (f : State → Hearth → State × Hearth) : s.issue h p cost f = s.setHearth h ((s.hearth h).next 1) := by
  unfold State.issue
  rw [ite_passes hrun hp]

theorem issueTram_of_passes (hrun : (s.hearth h).running = true) (hp : (s.hearth h).holds p = false) (base src : Nat) (imm : BitVec 12)
    (f : State → Hearth → Nat → State × Hearth) : s.issueTram h p base src imm f = s.setHearth h ((s.hearth h).next 1) := by
  unfold State.issueTram
  exact issue_of_passes hrun hp _ _

theorem post_of_passes (hrun : (s.hearth h).running = true) (hp : (s.hearth h).holds p = false) (op : Hearth → Posted) :
    s.post h p op = s.setHearth h ((s.hearth h).next 1) := by
  simp [State.post, hrun, hp]

theorem readOut_of_passes (hrun : (s.hearth h).running = true) (hp : (s.hearth h).holds p = false) (f : State → Hearth → State × Hearth) :
    s.readOut h p f = s.setHearth h ((s.hearth h).next 1) := by
  simp [State.readOut, hrun, hp]

/-! ### Posted instructions and waiting reads (R72, R75) -/

theorem post_of_room (hr : s.Runs h p) (hroom : (s.hearth h).posted.length < 16) (op : Hearth → Posted) :
    s.post h p op = s.setHearth h
      (({ s.hearth h with posted := (s.hearth h).posted ++ [{ pc := (s.hearth h).pc, op := op (s.hearth h) }] } : Hearth).next 1) := by
  obtain ⟨hrun, hp⟩ := hr
  simp [State.post, hrun, hp, hroom]

theorem post_of_full (hr : s.Runs h p) (hfull : 16 ≤ (s.hearth h).posted.length) (op : Hearth → Posted) :
    s.post h p op = s.setHearth h (s.hearth h).stall := by
  obtain ⟨hrun, hp⟩ := hr
  simp [State.post, hrun, hp, hfull]

theorem readOut_of_entries (hr : s.Runs h p) (he : (s.hearth h).posted ≠ []) (f : State → Hearth → State × Hearth) :
    s.readOut h p f = s.setHearth h (s.hearth h).stall := by
  obtain ⟨hrun, hp⟩ := hr
  simp [State.readOut, hrun, hp, he]

theorem readOut_of_empty (hr : s.Runs h p) (he : (s.hearth h).posted = []) (f : State → Hearth → State × Hearth) :
    s.readOut h p f = (f s (s.hearth h)).1.setHearth h ((f s (s.hearth h)).2.next 12) := by
  obtain ⟨hrun, hp⟩ := hr
  simp [State.readOut, hrun, hp, he]

/-- The command `e.1` is the posted instruction whose entry, made at its issue in `s`, is `e.2`. -/
def State.IssuesPosted (s : State) (h : Nat) (p : Pred) (e : Instr × Posted) : Prop :=
  ∃ op : Hearth → Posted, exec e.1 s = .next (s.post h p op) ∧ op (s.hearth h) = e.2

theorem State.IssuesPosted.posts {e : Instr × Posted} (he : s.IssuesPosted h p e) (hr : s.Runs h p) (hroom : (s.hearth h).posted.length < 16) :
    ∃ t, exec e.1 s = .next t ∧ s.Posts t h e.2 := by
  obtain ⟨op, hi, hop⟩ := he
  refine ⟨_, hi.trans (congrArg _ (post_of_room hr hroom op)), onlyHearth_setHearth s h _, ?_⟩
  rw [State.hearth_setHearth_same, ← hop]
  exact ⟨Hearth.advanced_next rfl rfl rfl 1, rfl, rfl⟩

theorem State.IssuesPosted.waits {e : Instr × Posted} (he : s.IssuesPosted h p e) (hr : s.Runs h p) (hfull : 16 ≤ (s.hearth h).posted.length) :
    ∃ t, exec e.1 s = .next t ∧ s.OnlyHearth t h ∧ t.hearth h = (s.hearth h).stall := by
  obtain ⟨op, hi, -⟩ := he
  exact exec_setHearth (hi.trans (congrArg _ (post_of_full hr hfull op)))

end Course

theorem portOffset_eq (x : Hearth) (k : Nat) (off : BitVec 8) : portOffset x k off = ((x.kr k).toNat + 4 * off.toNat) % 2 ^ 32 := by
  have hoff := off.isLt
  rw [portOffset, BitVec.toNat_add, BitVec.toNat_ofNat, Nat.mod_eq_of_lt (show 4 * off.toNat < 2 ^ 32 by omega)]

end Sys2Proof.Machine
end

section
open Sys2Proof Sys2Proof.Machine

/-- Settles O14: each form ends where `landAt` puts it, and END leaves the hearth stopped. -/
theorem klnControlFlow : Obligations.KlnControlFlow := by
  unfold Obligations.KlnControlFlow
  intro s h p hrun off n count len cyc
  dsimp only
  refine ⟨fun hp => ⟨?nop, ?br, ?skip, ?rep, ?waitc, ?endTick⟩, fun hp => ⟨?br0, ?skip0, ?rep0⟩, fun w => rfl,
    fun r rs w => ⟨?inside, ?again, ?left⟩⟩
  case nop => exact exec_setHearth (congrArg _ (issueH_of_runs ⟨hrun, hp⟩ 1 id))
  case br | skip | rep | endTick => exact exec_setHearth (congrArg _ (ite_runs hrun hp ..))
  case br0 | skip0 | rep0 => exact exec_setHearth (congrArg _ (ite_passes hrun hp ..))
  case waitc =>
    have hcyc : max (s.hearth h).cyc cyc + 1 = (s.hearth h).cyc + (max (s.hearth h).cyc cyc - (s.hearth h).cyc + 1) := by omega
    rw [← hcyc]
    exact exec_setHearth (s := s) (congrArg _ (ite_runs hrun hp ..))
  case inside => exact fun hne => if_neg hne
  case again => exact fun he hleft => (if_pos he).trans (if_pos hleft)
  case left => exact fun he hleft => (if_pos he).trans (if_neg (by omega))

/-- Settles O15: whatever the instruction, it is issued through one of the operations that pass over a false predicate. -/
theorem klnFalsePredicateHasNoEffect : Obligations.KlnFalsePredicateHasNoEffect := by
  unfold Obligations.KlnFalsePredicateHasNoEffect
  rintro s h ⟨p, op⟩ hrun hp hop
  suffices hpass : exec (KInstr.command h ⟨p, op⟩) s = .next (s.setHearth h ((s.hearth h).next 1)) from exec_setHearth hpass
  cases op
  case br | skip | rep => exact hop.elim
  case waitc | endTick => exact congrArg _ (ite_passes hrun hp ..)
  case route | enq | fire | pins | spix | sig | hpw => exact congrArg _ (post_of_passes hrun hp _)
  case qdep | hpr => exact congrArg _ (readOut_of_passes hrun hp _)
  case ld | st | ld64 | st64 => exact congrArg _ (issueTram_of_passes hrun hp ..)
  all_goals exact congrArg _ (issue_of_passes hrun hp _ _)

/-- Settles O19: each of the seven is `State.post` of the entry its registers give. -/
theorem klnPostedInstructionsEnter : Obligations.KlnPostedInstructionsEnter := by
  unfold Obligations.KlnPostedInstructionsEnter
  intro s h p hr a b c eop mode m imm port off
  dsimp only
  refine (fun hposted => ⟨fun hroom e he => (hposted e he).posts hr hroom, fun hfull e he => (hposted e he).waits hr hfull⟩ :
    (∀ e ∈ _, s.IssuesPosted h p e) → _) ?_
  simp only [List.forall_mem_cons, List.not_mem_nil, false_implies, implies_true, and_true]
  refine ⟨⟨_, rfl, rfl⟩, ⟨_, rfl, rfl⟩, ⟨_, rfl, rfl⟩, ⟨_, rfl, rfl⟩, ⟨_, rfl, rfl⟩, ⟨_, rfl, rfl⟩, ⟨_, rfl, ?_⟩⟩
  exact congrArg (Posted.hpw · port _) (portOffset_eq _ a off)

end

section
/-!
PROOFS. Faults of a hearth (R78), the reads that wait for its posted entries (R75), and a parity error of a fetched word (R80).
-/
namespace Sys2Proof.Machine

open Sys2Proof

/-! ### The frame of a fault -/

theorem sticky_getLsbD (s : State) (h : Nat) {code : Nat} (hc : code < 32) (n : Nat) :
    ((s.sticky h code).rd (Reg.KLN_Hn_STICKY h)).getLsbD n = ((s.rd (Reg.KLN_Hn_STICKY h)).getLsbD n || decide (code = n)) := by
  rw [State.sticky, State.rd_wr_same, BitVec.getLsbD_or, BitVec.getLsbD_ofNat, Nat.testBit_two_pow]
  congr 1
  rw [Bool.and_eq_right_iff_imp]
  intro hn
  rw [← of_decide_eq_true hn]
  exact decide_eq_true hc

/-- A state that shows a fault of hearth `h` in its sticky register and its fault word, and nothing else of registers and other hearths. -/
theorem faulted_of {s t : State} {h code pc : Nat} (hc : code < 32) (hmem : t.mem = (s.sticky h code).mem)
    (hrest : { t with mem := s.mem, kiln.hearths := s.kiln.hearths } = s) (hothers : ∀ g, g ≠ h → t.hearth g = s.hearth g)
    (hcode : (t.hearth h).faultCode = ((s.hearth h).fault code pc).faultCode)
    (hpc : (t.hearth h).faultPc = ((s.hearth h).fault code pc).faultPc)
    (hcount : (t.hearth h).faultCount = ((s.hearth h).fault code pc).faultCount) : s.Faulted t h code pc := by
  have hrd (a : Nat) : t.rd a = (s.sticky h code).rd a := rd_of_mem hmem a
  refine ⟨hcode, hpc, hcount, ?_, fun n hn => ?_, fun a ha => ?_, hrest, hothers⟩
  · rw [hrd, sticky_getLsbD s h hc]
    simp
  · rw [hrd, sticky_getLsbD s h hc, decide_eq_false (Ne.symm hn), Bool.or_false]
  · rw [hrd, State.sticky, State.rd_wr_ne s _ ha]

/-- An instruction that faults, leaves `y` of its hearth's registers and goes on (R78). -/
theorem faultNow_faulted (s : State) (h cost : Nat) {code : Nat} (hc : code < 32) {y : Hearth} (hpc : y.pc = (s.hearth h).pc)
    (hcode : y.faultCode = (s.hearth h).faultCode) (hpc' : y.faultPc = (s.hearth h).faultPc) (hcount : y.faultCount = (s.hearth h).faultCount) :
    s.Faulted ((faultNow s h code y).1.setHearth h ((faultNow s h code y).2.next cost)) h code (s.hearth h).pc := by
  refine faulted_of hc rfl rfl (fun g hg => State.hearth_setHearth_ne _ _ hg) ?_ ?_ ?_ <;> rw [State.hearth_setHearth_same]
  · simp only [faultNow, Hearth.faultCode_next, Hearth.fault, hcode, hcount]
  · simp only [faultNow, Hearth.faultPc_next, Hearth.fault, hpc, hpc', hcount]
  · simp only [faultNow, Hearth.faultCount_next, Hearth.fault, hcount]

section Faults
variable (s : State) (h cost : Nat) {code : Nat} (hc : code < 32)
include hc

theorem faultNow_kw_faulted (d : Nat) (v : Word) :
    s.Faulted ((faultNow s h code ((s.hearth h).kw d v)).1.setHearth h ((faultNow s h code ((s.hearth h).kw d v)).2.next cost)) h code
      (s.hearth h).pc :=
  faultNow_faulted s h cost hc (by simp) (by simp) (by simp) (by simp)

omit hc in
theorem faultNow_kw_kr {d : Nat} (hd : d ≠ 0) (v : Word) :
    (((faultNow s h code ((s.hearth h).kw d v)).1.setHearth h ((faultNow s h code ((s.hearth h).kw d v)).2.next cost)).hearth h).kr d = v := by
  rw [State.hearth_setHearth_same, Hearth.kr_next, faultNow, Hearth.kr_fault, Hearth.kr_kw, if_pos ⟨rfl, hd⟩]

end Faults

/-- A waiting read with no entries left: what it answers, 12 cycles later. -/
theorem exec_readOut {s : State} {h : Nat} {p : Pred} {i : Instr} {f : State → Hearth → State × Hearth} (hi : exec i s = .next (s.readOut h p f))
    (hr : s.Runs h p) (he : (s.hearth h).posted = []) {r : State × Hearth} (hf : f s (s.hearth h) = r) :
    exec i s = .next (r.1.setHearth h (r.2.next 12)) := by
  rw [hi, readOut_of_empty hr he, hf]

/-! ### The blocks on the helper ports (R71) -/

theorem portBlock_span (port : Fin 10) : (portBlock port).2 = if port = 0 then 0x3FFFF else 0xFFFFF := by
  revert port
  decide

theorem portBlock_base (port : Fin 10) : (portBlock port).1 =
    [0x400000, 0x500000, 0x700000, 0xB00000, 0xC00000, 0xD00000, 0xF00000, 0x1100000, 0x1200000, 0x900000].getD port 0 := by
  revert port
  decide

theorem portFault_beyond {p a : Nat} (h : (portBlock p).2 < a) : portFault p a = some 0x04 := if_pos h
theorem portFault_unaligned {p a : Nat} (h : a ≤ (portBlock p).2) (ha : a % 4 ≠ 0) : portFault p a = some 0x05 :=
  (if_neg (Nat.not_lt.2 h)).trans (if_pos ha)
theorem portFault_none {p a : Nat} (h : a ≤ (portBlock p).2) (ha : a % 4 = 0) : portFault p a = none :=
  (if_neg (Nat.not_lt.2 h)).trans (if_neg (not_not.2 ha))

section Hpr
variable {s : State} {h : Fin 4} {p : Pred} (hr : s.Runs h p) (he : (s.hearth h).posted = []) (d : Fin 32) {port : Fin 10} {a : Fin 32}
  {off : BitVec 8}
include hr he

theorem exec_hpr_fault {code : Nat} (hf : portFault port (portOffset (s.hearth h) a off) = some code) :
    exec (.hpr h p d port a off) s = .next ((faultNow s h code ((s.hearth h).kw d 0#32)).1.setHearth h
      ((faultNow s h code ((s.hearth h).kw d 0#32)).2.next 12)) :=
  exec_readOut rfl hr he (by simp only [hf])

theorem exec_hpr_read (hf : portFault port (portOffset (s.hearth h) a off) = none) :
    exec (.hpr h p d port a off) s = .next ((s.busRead (5 + h) ((portBlock port).1 + portOffset (s.hearth h) a off)).2.setHearth h
      (((s.hearth h).kw d (s.busRead (5 + h) ((portBlock port).1 + portOffset (s.hearth h) a off)).1).next 12)) :=
  exec_readOut (r := ((s.busRead (5 + h) ((portBlock port).1 + portOffset (s.hearth h) a off)).2, (s.hearth h).kw d _)) rfl hr he
    (by simp only [hf])

end Hpr

/-- An event that a state with the queue of `s` records joins that queue at the end while it has room (R21). -/
theorem emit_joins_end {s u : State} (hq : u.hub.evq = s.hub.evq) (n : EvName) (o : Nat) (d : List Int)
    (hroom : evqDepth s.hub.evq + eventEntries n ≤ 4096) :
    ∃ e : Event, (u.emit n o d).hub.evq = s.hub.evq ++ [e] ∧ e.name = n ∧ e.obj = o ∧ e.detail = d := by
  rw [← hq] at hroom ⊢
  exact ⟨_, emit_evq u n o d hroom, rfl, rfl, rfl⟩

theorem hearth_emit (s : State) (n : EvName) (o : Nat) (d : List Int) (g : Nat) : (s.emit n o d).hearth g = s.hearth g := by
  unfold State.hearth
  rw [emit_kiln]

end Sys2Proof.Machine
end

section
open Sys2Proof Sys2Proof.Machine

/-- Settles O21: with entries waiting the hearth stalls; without, the read is made and takes 12 cycles, or faults with code 7, 4 or 5. -/
theorem klnWaitingReads : Obligations.KlnWaitingReads := by
  unfold Obligations.KlnWaitingReads
  intro s h p hr d a port off
  dsimp only
  have hne {d : Fin 32} (hd : d ≠ 0) : (d : Nat) ≠ 0 := fun e => hd (Fin.ext e)
  rw [← portOffset_eq, ← portBlock_span, ← portBlock_base]
  generalize ho : portOffset (s.hearth h) a off = o
  refine ⟨fun he => ⟨?_, ?_⟩, fun he => ⟨fun hd hq => ?_, fun hq => ?_, fun hin hal hd => ?_, fun hout => ?_, fun hin hal => ?_⟩⟩
  · exact exec_setHearth (congrArg _ (readOut_of_entries hr he _))
  · exact exec_setHearth (congrArg _ (readOut_of_entries hr he _))
  · refine ⟨_, exec_readOut (i := .qdep h p d a) rfl hr he (if_neg (Nat.not_lt.2 hq)), ?_, ?_⟩ <;> rw [State.hearth_setHearth_same]
    · exact congrArg (· + 12) (Hearth.cyc_kw ..)
    · rw [Hearth.kr_next, Hearth.kr_kw, if_pos ⟨rfl, hne hd⟩]
      rfl
  · exact ⟨_, exec_readOut (i := .qdep h p d a) rfl hr he (if_pos hq), faultNow_kw_faulted s h 12 (by decide) d _,
      fun hd => faultNow_kw_kr s h 12 (hne hd) _⟩
  · refine ⟨_, exec_hpr_read hr he d (by rw [ho, portFault_none hin hal]), ?_, ?_⟩ <;> rw [State.hearth_setHearth_same]
    · rw [Hearth.kr_next, Hearth.kr_kw, if_pos ⟨rfl, hne hd⟩, ho]
    · exact congrArg (· + 12) (Hearth.cyc_kw ..)
  · exact ⟨_, exec_hpr_fault hr he d (by rw [ho, portFault_beyond hout]), faultNow_kw_faulted s h 12 (by decide) d _,
      fun hd => faultNow_kw_kr s h 12 (hne hd) _⟩
  · exact ⟨_, exec_hpr_fault hr he d (by rw [ho, portFault_unaligned hin hal]), faultNow_kw_faulted s h 12 (by decide) d _,
      fun hd => faultNow_kw_kr s h 12 (hne hd) _⟩

/-- Settles O22: the stop is one write of the hearth, and the event touches no hearth. -/
theorem klnParityStopsTheHearth : Obligations.KlnParityStopsTheHearth := by
  unfold Obligations.KlnParityStopsTheHearth
  intro s h hrun
  have hexec : exec (.kilnParity h) s = .next ((s.setHearth h { s.hearth h with running := false, reps := [], used := (s.hearth h).cyc - 256 }).emit
      .KILN_PARITY (objUnit h) [(s.activeBank : Nat), ((s.hearth h).pc : Nat)]) := by
    show Host.Outcome.next (s.hearthParity h) = _
    simp [State.hearthParity, hrun]
  refine ⟨_, hexec, ?_, fun g hg => ?_, emit_joins_end (congrArg HubSt.evq (State.setHearth_hub s h _)) _ _ _⟩
  · rw [hearth_emit, State.hearth_setHearth_same]
  · rw [hearth_emit, State.hearth_setHearth_ne _ _ hg]

end

section
/-!
PROOFS. Tick RAM (R62, R66, R95), the views of the previous tick (R68 to R70, R96) and the scheduler path (R101) as a hearth reaches them.
-/
namespace Sys2Proof.Machine

open Sys2Proof

/-! ### A tick RAM instruction -/

theorem tramIndex_eq (x : Hearth) (k : Nat) (imm : BitVec 12) : tramIndex x k imm = ((x.kr k).toNat + imm.toNat) % 2 ^ 32 := by
  rw [tramIndex, BitVec.toNat_add, BitVec.toNat_setWidth, Nat.mod_eq_of_lt (imm.isLt.trans (by decide))]

theorem tramReach_iff (h i : Nat) :
    tramReach h i = true ↔ i < 0x10000 ∧ (0x8000 ≤ i ∨ (0x2000 * h ≤ i ∧ i < 0x2000 * (h + 1))) := by
  have hdiv : i / 0x2000 = h ↔ 0x2000 * h ≤ i ∧ i < 0x2000 * (h + 1) := by omega
  simp [tramReach, hdiv]

theorem tramCost_eq (base i : Nat) : tramCost base i = base + if 0x8000 ≤ i then 1 else 0 := by
  unfold tramCost
  split <;> rfl

theorem issueTram_of_runs {s : State} {h : Nat} {p : Pred} (hr : s.Runs h p) {base src : Nat} {imm : BitVec 12}
    {f : State → Hearth → Nat → State × Hearth} {i : Nat} (hi : tramIndex (s.hearth h) src imm = i) {r : State × Hearth}
    (hf : f s (s.hearth h) i = r) : s.issueTram h p base src imm f = r.1.setHearth h (r.2.next (tramCost base i)) := by
  subst hi hf
  unfold State.issueTram
  exact issue_of_runs hr _ _

theorem faultNow_next_faulted (s : State) (h cost : Nat) {code : Nat} (hc : code < 32) :
    s.Faulted ((faultNow s h code (s.hearth h)).1.setHearth h ((faultNow s h code (s.hearth h)).2.next cost)) h code (s.hearth h).pc :=
  faultNow_faulted s h cost hc rfl rfl rfl rfl

theorem faultNow_aw_faulted (s : State) (h cost : Nat) {code : Nat} (hc : code < 32) (n : Nat) (v : Acc) :
    s.Faulted ((faultNow s h code ((s.hearth h).aw n v)).1.setHearth h ((faultNow s h code ((s.hearth h).aw n v)).2.next cost)) h code
      (s.hearth h).pc :=
  faultNow_faulted s h cost hc rfl rfl rfl rfl

theorem faultNow_aw_ar (s : State) (h cost code n : Nat) (v : Acc) :
    (((faultNow s h code ((s.hearth h).aw n v)).1.setHearth h ((faultNow s h code ((s.hearth h).aw n v)).2.next cost)).hearth h).ar n = v := by
  rw [State.hearth_setHearth_same]
  exact (Hearth.ar_aw _ n n v).trans (if_pos rfl)

/-- A hearth that goes on in a state whose hearths are those of `s`: only its place differs. -/
theorem setHearth_next_frame {s u : State} (hu : u.kiln.hearths = s.kiln.hearths) (h cost : Nat) :
    (s.hearth h).Advanced ((u.setHearth h ((s.hearth h).next cost)).hearth h) cost
      ∧ (∀ m, ((u.setHearth h ((s.hearth h).next cost)).hearth h).kr m = (s.hearth h).kr m)
      ∧ (s.hearth h).SameRest ((u.setHearth h ((s.hearth h).next cost)).hearth h)
      ∧ ∀ g, g ≠ h → (u.setHearth h ((s.hearth h).next cost)).hearth g = s.hearth g := by
  have hhearth (g : Nat) : u.hearth g = s.hearth g := congrArg (tabGet _ · g) hu
  rw [State.hearth_setHearth_same]
  refine ⟨Hearth.advanced_next rfl rfl rfl cost, Hearth.kr_next _ cost, rfl, fun g hg => ?_⟩
  rw [State.hearth_setHearth_ne _ _ hg, hhearth]

/-! ### Reads and writes of a word (R66) -/

theorem tramRead_of_double {s : State} {i : Nat} (h : i ∈ s.kiln.tramDouble) : s.tramRead i = (0#32, true) := by
  simp [State.tramRead, h]

theorem tramRead_of_readable {s : State} {i : Nat} (h : i ∉ s.kiln.tramDouble) : s.tramRead i = (s.rd (tramAddr i), false) := by
  simp [State.tramRead, h]

theorem tramCount_of_double {s : State} {i : Nat} (h : i ∈ s.kiln.tramDouble) : s.tramCount i = s.bump F.KLN_TRAM_ERR_DOUBLE 1 := by
  simp [State.tramCount, h]

theorem tramCount_of_single {s : State} {i : Nat} (hd : i ∉ s.kiln.tramDouble) (h : i ∈ s.kiln.tramSingle) :
    s.tramCount i = s.bump F.KLN_TRAM_ERR_SINGLE 1 := by
  simp [State.tramCount, hd, h]

theorem tramCount_of_good {s : State} {i : Nat} (hd : i ∉ s.kiln.tramDouble) (h : i ∉ s.kiln.tramSingle) : s.tramCount i = s := by
  simp [State.tramCount, hd, h]

theorem rd_tramWrite (s : State) (i : Nat) (v : Word) (b : Nat) : (s.tramWrite i v).rd b = if b = tramAddr i then v else s.rd b :=
  State.rd_wr _ _ _ v

theorem tramAddr_injective : Function.Injective tramAddr := fun i j h => by
  unfold tramAddr at h
  omega

theorem tramAddr_ne_sticky (i : Nat) (h : Fin 4) : tramAddr i ≠ Reg.KLN_Hn_STICKY h := by
  have hh := h.isLt
  unfold tramAddr Reg.KLN_Hn_STICKY
  omega

theorem tramAddr_ne_err (i : Nat) : tramAddr i ≠ Reg.KLN_TRAM_ERR := by
  unfold tramAddr Reg.KLN_TRAM_ERR
  omega

theorem toNat_setWidth_shiftRight (v : Acc) : (BitVec.setWidth 32 (v >>> 32)).toNat = v.toNat / 2 ^ 32 := by
  have hv := v.isLt
  rw [BitVec.toNat_setWidth, BitVec.toNat_ushiftRight, Nat.shiftRight_eq_div_pow]
  omega

/-! ### The tick RAM instructions by the case that applies -/

section Tram
variable {s : State} {h : Fin 4} {p : Pred} (hr : s.Runs h p) {a : Fin 32} {imm : BitVec 12} {i : Nat}
  (hi : tramIndex (s.hearth h) a imm = i)
include hr hi

theorem exec_ld_good (hm : tramReach h i = true) (hd : i ∉ s.kiln.tramDouble) (hs : i ∉ s.kiln.tramSingle) (d : Fin 32) :
    ∃ t, exec (.ld h p d a imm) s = .next t ∧ s.WritesK t h d (s.rd (tramAddr i)) false (tramCost 1 i) := by
  refine ⟨_, congrArg Host.Outcome.next (issueTram_of_runs hr hi (r := (s, (s.hearth h).kw d (s.rd (tramAddr i)))) ?_), ?_⟩
  · simp [hm, tramRead_of_readable hd, tramCount_of_good hd hs]
  · simpa only [Hearth.satIf_false] using writesK_next s h d (s.rd (tramAddr i)) false (tramCost 1 i)

theorem exec_ld_single (hm : tramReach h i = true) (hd : i ∉ s.kiln.tramDouble) (hs : i ∈ s.kiln.tramSingle) (d : Fin 32) :
    ∃ t, exec (.ld h p d a imm) s = .next t ∧ (d ≠ 0 → (t.hearth h).kr d = s.rd (tramAddr i))
      ∧ (t.hearth h).faultCount = (s.hearth h).faultCount
      ∧ t.f F.KLN_TRAM_ERR_SINGLE = min (s.f F.KLN_TRAM_ERR_SINGLE + 1) 65535 := by
  refine ⟨_, congrArg Host.Outcome.next (issueTram_of_runs hr hi
    (r := (s.bump F.KLN_TRAM_ERR_SINGLE 1, (s.hearth h).kw d (s.rd (tramAddr i)))) ?_), fun hd0 => ?_, ?_,
    State.f_bump_same s ⟨by decide, by decide⟩ 1⟩
  · simp [hm, tramRead_of_readable hd, tramCount_of_single hd hs]
  · rw [State.hearth_setHearth_same, Hearth.kr_next, Hearth.kr_kw, if_pos ⟨rfl, fun e => hd0 (Fin.ext e)⟩]
  · rw [State.hearth_setHearth_same]
    simp

theorem exec_ld_double (hm : tramReach h i = true) (hd : i ∈ s.kiln.tramDouble) (d : Fin 32) :
    ∃ t, exec (.ld h p d a imm) s = .next t ∧ (d ≠ 0 → (t.hearth h).kr d = 0#32)
      ∧ (t.hearth h).faultCount = min 255 ((s.hearth h).faultCount + 1) ∧ ((s.hearth h).faultCount = 0 → (t.hearth h).faultCode = 0x03)
      ∧ i ∈ t.kiln.tramDouble ∧ t.rd (tramAddr i) = s.rd (tramAddr i) := by
  refine ⟨_, congrArg Host.Outcome.next (issueTram_of_runs hr hi
    (r := faultNow (s.bump F.KLN_TRAM_ERR_DOUBLE 1) h 0x03 ((s.hearth h).kw d 0#32)) ?_), fun hd0 => ?_, ?_, fun h0 => ?_, hd, ?_⟩
  · simp [hm, tramRead_of_double hd, tramCount_of_double hd]
  · rw [State.hearth_setHearth_same, Hearth.kr_next, faultNow, Hearth.kr_fault, Hearth.kr_kw, if_pos ⟨rfl, fun e => hd0 (Fin.ext e)⟩]
  · rw [State.hearth_setHearth_same]
    simp [faultNow, Hearth.fault]
  · rw [State.hearth_setHearth_same]
    simp [faultNow, Hearth.fault, h0]
  · calc ((s.bump F.KLN_TRAM_ERR_DOUBLE 1).sticky h 0x03).rd (tramAddr i)
      _ = (s.bump F.KLN_TRAM_ERR_DOUBLE 1).rd (tramAddr i) := State.rd_wr_ne _ _ (tramAddr_ne_sticky i h)
      _ = s.rd (tramAddr i) := State.rd_wf_ne _ _ (tramAddr_ne_err i)

theorem exec_st_good (hm : tramReach h i = true) (d : Fin 32) :
    exec (.st h p d a imm) s = .next ((s.tramWrite i ((s.hearth h).kr d)).setHearth h ((s.hearth h).next (tramCost 1 i))) :=
  congrArg Host.Outcome.next (issueTram_of_runs hr hi (r := (s.tramWrite i ((s.hearth h).kr d), s.hearth h)) (by simp [hm]))

theorem exec_ld64_good (hm : tramReach h i = true) (he : i % 2 = 0) (hd : i ∉ s.kiln.tramDouble) (hs : i ∉ s.kiln.tramSingle)
    (hd' : i + 1 ∉ s.kiln.tramDouble) (hs' : i + 1 ∉ s.kiln.tramSingle) (n : Fin 4) :
    ∃ t, exec (.ld64 h p n a imm) s = .next t
      ∧ s.WritesA t h n (BitVec.ofNat 64 ((s.rd (tramAddr (i + 1))).toNat * 2 ^ 32 + (s.rd (tramAddr i)).toNat)) (tramCost 2 i) := by
  rw [← join_words_eq]
  refine ⟨_, congrArg Host.Outcome.next (issueTram_of_runs hr hi (r := (s, (s.hearth h).aw n
    ((BitVec.setWidth 64 (s.rd (tramAddr (i + 1))) <<< 32) ||| BitVec.setWidth 64 (s.rd (tramAddr i))))) ?_), writesA_next s h n _ _⟩
  simp [hm, he, tramRead_of_readable hd, tramRead_of_readable hd', tramCount_of_good hd hs, tramCount_of_good hd' hs']

theorem exec_st64_good (hm : tramReach h i = true) (he : i % 2 = 0) (n : Fin 4) :
    exec (.st64 h p n a imm) s = .next (((s.tramWrite i (BitVec.setWidth 32 ((s.hearth h).ar n))).tramWrite (i + 1)
      (BitVec.setWidth 32 ((s.hearth h).ar n >>> 32))).setHearth h ((s.hearth h).next (tramCost 2 i))) := by
  have hif {α : Type} (u v w : α) : (if !tramReach h i then u else if i % 2 = 1 then v else w) = w := by simp [hm, he]
  exact congrArg Host.Outcome.next (issueTram_of_runs hr hi
    (r := ((s.tramWrite i (BitVec.setWidth 32 ((s.hearth h).ar n))).tramWrite (i + 1) (BitVec.setWidth 32 ((s.hearth h).ar n >>> 32)),
      s.hearth h)) (hif _ _ _))

theorem exec_tram_beyond (hm : tramReach h i = false) (d : Fin 32) (n : Fin 4) :
    (∃ t, exec (.ld h p d a imm) s = .next t ∧ s.Faulted t h 0x01 (s.hearth h).pc ∧ (d ≠ 0 → (t.hearth h).kr d = 0#32))
      ∧ (∃ t, exec (.st h p d a imm) s = .next t ∧ s.Faulted t h 0x01 (s.hearth h).pc)
      ∧ (∃ t, exec (.ld64 h p n a imm) s = .next t ∧ s.Faulted t h 0x01 (s.hearth h).pc ∧ (t.hearth h).ar n = 0#64)
      ∧ ∃ t, exec (.st64 h p n a imm) s = .next t ∧ s.Faulted t h 0x01 (s.hearth h).pc := by
  have hif {α : Type} (u v : α) : (if !tramReach h i then u else v) = u := by simp [hm]
  exact ⟨⟨_, congrArg Host.Outcome.next (issueTram_of_runs hr hi (hif _ _)), faultNow_kw_faulted s h _ (by decide) d _,
      fun hd => faultNow_kw_kr s h _ (fun e => hd (Fin.ext e)) _⟩,
    ⟨_, congrArg Host.Outcome.next (issueTram_of_runs hr hi (hif _ _)), faultNow_next_faulted s h _ (by decide)⟩,
    ⟨_, congrArg Host.Outcome.next (issueTram_of_runs hr hi (hif _ _)), faultNow_aw_faulted s h _ (by decide) n _, faultNow_aw_ar s h _ _ n _⟩,
    ⟨_, congrArg Host.Outcome.next (issueTram_of_runs hr hi (hif _ _)), faultNow_next_faulted s h _ (by decide)⟩⟩

theorem exec_tram_odd (hm : tramReach h i = true) (ho : i % 2 = 1) (n : Fin 4) :
    (∃ t, exec (.ld64 h p n a imm) s = .next t ∧ s.Faulted t h 0x02 (s.hearth h).pc ∧ (t.hearth h).ar n = 0#64)
      ∧ ∃ t, exec (.st64 h p n a imm) s = .next t ∧ s.Faulted t h 0x02 (s.hearth h).pc := by
  have hif {α : Type} (u v w : α) : (if !tramReach h i then u else if i % 2 = 1 then v else w) = v := by simp [hm, ho]
  exact ⟨⟨_, congrArg Host.Outcome.next (issueTram_of_runs hr hi (hif _ _ _)), faultNow_aw_faulted s h _ (by decide) n _,
      faultNow_aw_ar s h _ _ n _⟩,
    ⟨_, congrArg Host.Outcome.next (issueTram_of_runs hr hi (hif _ _ _)), faultNow_next_faulted s h _ (by decide)⟩⟩

end Tram

/-! ### The views -/

theorem viewWord_eq (s : State) (v : View) (c i : Nat) :
    s.viewWord v c i = if e : i < (s.viewOf v c).length then (s.viewOf v c)[i].word else 0x01800000#32 := by
  unfold State.viewWord
  split
  next w hw =>
    obtain ⟨hlt, hget⟩ := List.getElem?_eq_some_iff.1 hw
    rw [dif_pos hlt, hget]
  next hw => rw [dif_neg (Nat.not_lt.2 (List.getElem?_eq_none_iff.1 hw)), invalidWord]

section Views
variable {s : State} {h : Fin 4} {p : Pred} (hr : s.Runs h p) (d a b : Fin 32)
include hr

theorem exec_scnt_in (hc : ((s.hearth h).kr a).toNat ≤ 4191) (v : View) :
    ∃ t, exec (.scnt h p d a v) s = .next t
      ∧ s.WritesK t h d (BitVec.ofNat 32 (s.viewOf v ((s.hearth h).kr a).toNat).length) false 2 := by
  refine ⟨_, congrArg Host.Outcome.next ((issue_of_runs hr 2 _).trans (by rw [if_neg (Nat.not_lt.2 hc)])), ?_⟩
  simpa only [Hearth.satIf_false] using writesK_next s h d _ false 2

theorem issue_readView_in (hc : ((s.hearth h).kr a).toNat ≤ 4191) (v : View) :
    s.WritesK (s.issue h p 4 fun s x => readView h v d a b s x) h d
      (s.viewWord v ((s.hearth h).kr a).toNat ((s.hearth h).kr b).toNat) false 4 := by
  rw [issue_of_runs hr]
  simp only [readView, if_neg (Nat.not_lt.2 hc)]
  simpa only [Hearth.satIf_false] using writesK_next s h d _ false 4

theorem exec_scnt_beyond (hc : 4191 < ((s.hearth h).kr a).toNat) (v : View) :
    ∃ t, exec (.scnt h p d a v) s = .next t ∧ s.Faulted t h 0x06 (s.hearth h).pc ∧ (d ≠ 0 → (t.hearth h).kr d = 0#32) :=
  ⟨_, congrArg Host.Outcome.next ((issue_of_runs hr 2 _).trans (by rw [if_pos hc])), faultNow_kw_faulted s h 2 (by decide) d _,
    fun hd => faultNow_kw_kr s h 2 (fun e => hd (Fin.ext e)) _⟩

theorem issue_readView_beyond (hc : 4191 < ((s.hearth h).kr a).toNat) (v : View) :
    s.Faulted (s.issue h p 4 fun s x => readView h v d a b s x) h 0x06 (s.hearth h).pc
      ∧ (d ≠ 0 → ((s.issue h p 4 fun s x => readView h v d a b s x).hearth h).kr d = 0x01800000#32) := by
  rw [issue_of_runs hr]
  simp only [readView, if_pos hc]
  exact ⟨faultNow_kw_faulted s h 4 (by decide) d _, fun hd => faultNow_kw_kr s h 4 (fun e => hd (Fin.ext e)) _⟩

end Views

/-! ### The scheduler path -/

/-- The result of a hearth's commit: the refusals that the item itself meets, in their order, and a full queue behind them (R49, R101). -/
theorem schedCode_ahead (s : State) {off : Nat} (hoff : off < 128) (addr : Nat) :
    s.schedCode (s.tick.num + off) addr false
      = if (if s.genState ≠ 1 ∧ s.genState ≠ 2 then 0x05 else if schedTargetBad addr then 0x03 else if off < 3 then 0x01 else 0) = 0 then
          if 1024 ≤ s.ordinary.length ∨ 128 ≤ (s.ordinary.filter fun i => i.tick == s.tick.num + off).length then 0x02 else 0x00
        else if s.genState ≠ 1 ∧ s.genState ≠ 2 then 0x05 else if schedTargetBad addr then 0x03 else if off < 3 then 0x01 else 0 := by
  have hnear : ¬s.tick.num + 2 ^ 32 < s.tick.num + off := by omega
  have hlead : s.tick.num + 3 ≤ s.tick.num + off ↔ ¬off < 3 := by omega
  rw [schedCode_eq, if_neg hnear, if_congr hlead rfl rfl, if_congr (schedTargetBad_iff addr) rfl rfl]
  by_cases hgen : s.genState ≠ 1 ∧ s.genState ≠ 2
  · simp [hgen]
  · rw [if_neg hgen, if_neg hgen]
    split
    · rfl
    · by_cases hlate : off < 3 <;> simp [hlate]

theorem not_late_of_accepted {s : State} {t addr : Nat} (h : s.schedCode t addr false = 0) : s.tick.num + 3 ≤ t := by
  by_contra hlate
  rw [schedCode_eq, if_neg hlate, if_pos rfl] at h
  split_ifs at h

section Schd
variable {s : State} {h : Fin 4} {p : Pred} (hr : s.Runs h p) (d a b : Fin 32) (off : Fin 128)
include hr

/-- What SCHD leaves in every case: one K register of its hearth written, and the registers and other hearths as they were. -/
theorem exec_schd {code : Nat} {u : State} {v : Word}
    (hsch : s.schedule (5 + h) (s.tick.num + off) (((s.hearth h).kr a).toNat / 4 * 4) ((s.hearth h).kr b) 0xFFFFFFFF#32 false = (code, u))
    (hu : u.kiln.hearths = s.kiln.hearths) (hmem : u.mem = s.mem)
    (hv : BitVec.ofNat 32 (code + 256 * if code = 0 then u.tick.seq % 2 ^ 24 else 0) = v) :
    ∃ t, exec (.schd h p d a b off) s = .next t ∧ t.tick = u.tick ∧ (d ≠ 0 → (t.hearth h).kr d = v)
      ∧ (s.hearth h).Advanced (t.hearth h) 8 ∧ (∀ n, n ≠ d.val → (t.hearth h).kr n = (s.hearth h).kr n)
      ∧ (∀ g, g ≠ h.val → t.hearth g = s.hearth g) ∧ ∀ w, t.rd w = s.rd w := by
  refine ⟨u.setHearth h (((s.hearth h).kw d v).next 8), congrArg Host.Outcome.next ((issue_of_runs hr 8 _).trans (by simp only [hsch, hv])),
    rfl, fun hd => ?_, ?_, fun n hn => ?_, fun g hg => ?_, fun w => rd_of_mem hmem w⟩
  · rw [State.hearth_setHearth_same, Hearth.kr_next, Hearth.kr_kw, if_pos ⟨rfl, fun e => hd (Fin.ext e)⟩]
  · rw [State.hearth_setHearth_same]
    exact Hearth.advanced_next (by simp) (by simp) (by simp) 8
  · rw [State.hearth_setHearth_same, Hearth.kr_next, Hearth.kr_kw, if_neg fun e => hn e.1]
  · rw [State.hearth_setHearth_ne _ _ hg]
    exact congrArg (tabGet _ · g) hu

end Schd

end Sys2Proof.Machine
end

section
open Sys2Proof Sys2Proof.Machine

/-- Settles O16: tick RAM by the case of the index, the views by the channel number, and SCHD by its result code. -/
theorem klnMemoryViewAndScheduleInstructions : Obligations.KlnMemoryViewAndScheduleInstructions := by
  unfold Obligations.KlnMemoryViewAndScheduleInstructions
  refine ⟨fun s h p hr d a n imm => ?tram, fun s h p hr d a b => ?views, fun s h p hr d a b off => ?schd⟩
  case tram =>
    dsimp only
    have hreach (i : Nat) := tramReach_iff h i
    simp only [← tramIndex_eq, ← tramCost_eq]
    generalize hi : tramIndex (s.hearth h) a imm = i
    simp only [← hreach]
    refine ⟨fun hm hg => ⟨exec_ld_good hr hi hm hg.1 hg.2 d, ?_⟩,
      fun hm he hg hg' => ⟨exec_ld64_good hr hi hm he hg.1 hg.2 hg'.1 hg'.2 n, ?_⟩,
      fun hm => exec_tram_beyond hr hi (Bool.eq_false_iff.2 hm) d n, fun hm ho => exec_tram_odd hr hi hm ho n,
      fun hm hd hs => exec_ld_single hr hi hm hd hs d, fun hm hd => exec_ld_double hr hi hm hd d⟩
    · refine ⟨_, exec_st_good hr hi hm d, (rd_tramWrite s i _ _).trans (if_pos rfl), fun b hb => (rd_tramWrite s i _ b).trans (if_neg hb), ?_⟩
      exact setHearth_next_frame rfl h (tramCost 1 i)
    · refine ⟨_, exec_st64_good hr hi hm he n, ?_, ?_, fun b hb hb' => ?_, setHearth_next_frame rfl h (tramCost 2 i)⟩
      · calc (((s.tramWrite i (BitVec.setWidth 32 ((s.hearth h).ar n))).tramWrite (i + 1) _).rd (tramAddr i)).toNat
          _ = (BitVec.setWidth 32 ((s.hearth h).ar n)).toNat := by
            rw [rd_tramWrite, if_neg fun e => Nat.ne_of_lt (Nat.lt_succ_self i) (tramAddr_injective e), rd_tramWrite, if_pos rfl]
          _ = ((s.hearth h).ar n).toNat % 2 ^ 32 := BitVec.toNat_setWidth ..
      · exact (congrArg BitVec.toNat ((rd_tramWrite _ (i + 1) _ _).trans (if_pos rfl))).trans (toNat_setWidth_shiftRight _)
      · exact (rd_tramWrite _ (i + 1) _ b).trans ((if_neg hb').trans ((rd_tramWrite s i _ b).trans (if_neg hb)))
  case views =>
    dsimp only
    refine ⟨fun hc => ⟨exec_scnt_in hr d a hc .output, exec_scnt_in hr d a hc .staging, ⟨_, rfl, ?_⟩, _, rfl, ?_⟩,
      fun hc => ⟨exec_scnt_beyond hr d a hc, ⟨_, rfl, issue_readView_beyond hr d a b hc .output⟩,
        _, rfl, issue_readView_beyond hr d a b hc .staging⟩⟩
    · exact viewWord_eq s .output _ _ ▸ issue_readView_in hr d a b hc .output
    · exact viewWord_eq s .staging _ _ ▸ issue_readView_in hr d a b hc .staging
  case schd =>
    dsimp only
    have hcode := schedCode_ahead s off.isLt (((s.hearth h).kr a).toNat / 4 * 4)
    revert hcode
    generalize (if s.genState ≠ 1 ∧ s.genState ≠ 2 then 0x05
      else if schedTargetBad (((s.hearth h).kr a).toNat / 4 * 4) then 0x03 else if off.val < 3 then 0x01 else 0 : Nat) = k
    intro hcode
    by_cases hk : k = 0
    · by_cases hfull : 1024 ≤ s.ordinary.length ∨ 128 ≤ (s.ordinary.filter fun i => i.tick == s.tick.num + off).length
      · rw [if_pos hk, if_pos hfull] at hcode
        obtain ⟨t, ht, htick, hkr, hadv, hothers, hhearths, hrd⟩ := exec_schd hr d a b off
          ((schedule_refused (hcode ▸ by decide) (5 + h) _ _).trans (by rw [hcode])) rfl rfl rfl
        exact ⟨t, ht, hadv, hothers, hhearths, hrd, fun hk' => absurd hk hk', fun _ _ => ⟨htick, hkr⟩, fun _ hf => absurd hfull hf⟩
      · rw [if_pos hk, if_neg hfull] at hcode
        obtain ⟨i, hsch, hseq, hdue, haddr, -, hdata, hmask, hlate, -⟩ := schedule_accepted hcode (5 + h) ((s.hearth h).kr b) 0xFFFFFFFF#32
        obtain ⟨t, ht, htick, hkr, hadv, hothers, hhearths, hrd⟩ := exec_schd hr d a b off hsch rfl rfl rfl
        have hnot : i.late = false := Bool.eq_false_iff.2 fun hl => Nat.not_le.2 (hlate.1 hl) (not_late_of_accepted hcode)
        refine ⟨t, ht, hadv, hothers, hhearths, hrd, fun hk' => absurd hk hk', fun _ hf => absurd hf hfull,
          fun _ _ => ⟨by rw [htick], fun hd => ?_,
          i, by rw [htick], hseq, hdue, haddr, hdata, hmask, hnot⟩⟩
        rw [hkr hd, if_pos rfl, Nat.zero_add]
    · rw [if_neg hk] at hcode
      obtain ⟨t, ht, htick, hkr, hadv, hothers, hhearths, hrd⟩ := exec_schd hr d a b off
        ((schedule_refused (hcode ▸ hk) (5 + h) _ _).trans (by rw [hcode])) rfl rfl rfl
      refine ⟨t, ht, hadv, hothers, hhearths, hrd, fun _ => ⟨htick, fun hd => ?_⟩, fun hk' => absurd hk' hk, fun hk' => absurd hk' hk⟩
      rw [hkr hd, if_neg hk, Nat.mul_zero, Nat.add_zero]
end

section
/-!
PROOFS. Posted entries as they drain (R72, R97 to R106) and the pin changes as they act (R42, R103, R490).
-/
namespace Sys2Proof.Machine

open Sys2Proof

/-! ### An entry leaves the buffer -/

/-- The oldest entry of hearth `h` has left its buffer and has not acted yet. -/
def State.popped (s : State) (h : Nat) : State := s.setHearth h { s.hearth h with posted := (s.hearth h).posted.tail }

section Drain
variable {s : State} {h : Fin 4} {pc : Nat} {op : Posted}

theorem postedDrain_of_empty (he : (s.hearth h).posted = []) : exec (.postedDrain h) s = .next s := by
  show Host.Outcome.next (s.drainOne h) = _
  unfold State.drainOne
  rw [he]

theorem postedDrain_of_oldest (ho : s.Oldest h pc op) : exec (.postedDrain h) s = .next ((s.popped h).postedAct h ⟨pc, op⟩) := by
  obtain ⟨r, hr⟩ := List.head?_eq_some_iff.1 ho
  show Host.Outcome.next (s.drainOne h) = _
  unfold State.drainOne State.popped
  rw [hr]
  rfl

theorem popped_hearth (s : State) (h : Nat) : (s.popped h).hearth h = { s.hearth h with posted := (s.hearth h).posted.tail } :=
  s.hearth_setHearth_same h _

theorem popped_left {t : State} (ht : t.kiln.hearths = (s.popped h).kiln.hearths) : s.Left t h := by
  have hhearth (g : Nat) : t.hearth g = (s.popped h).hearth g := congrArg (tabGet _ · g) ht
  refine ⟨?_, fun g hg => ?_⟩ <;> rw [hhearth]
  · exact popped_hearth s h
  · exact s.hearth_setHearth_ne _ hg

/-- A fault of an entry that drains carries the program counter of the entry (R78). -/
theorem popped_faultAt_faulted (s : State) (h : Fin 4) (pc : Nat) {code : Nat} (hc : code < 32) :
    s.Faulted ((s.popped h).faultAt h code pc) h code pc := by
  have hx : ((s.popped h).faultAt h code pc).hearth h = Hearth.fault { s.hearth h with posted := (s.hearth h).posted.tail } code pc :=
    ((s.popped h).hearth_setHearth_same h _).trans (congrArg (Hearth.fault · code pc) (popped_hearth s h))
  refine faulted_of hc rfl rfl (fun g hg => ?_) (by rw [hx]; rfl) (by rw [hx]; rfl) (by rw [hx]; rfl)
  exact ((s.popped h).hearth_setHearth_ne _ hg).trans (s.hearth_setHearth_ne _ hg)

theorem postedDrain_faults {code : Nat} (ho : s.Oldest h pc op) (hc : code < 32)
    (hact : (s.popped h).postedAct h ⟨pc, op⟩ = (s.popped h).faultAt h code pc) :
    ∃ t, exec (.postedDrain h) s = .next t ∧ s.Faulted t h code pc :=
  ⟨_, postedDrain_of_oldest ho, hact ▸ popped_faultAt_faulted s h pc hc⟩

/-- An entry that acts on nothing of the hearths. -/
theorem postedDrain_leaves {t : State} (ho : s.Oldest h pc op) (hact : (s.popped h).postedAct h ⟨pc, op⟩ = t)
    (ht : t.kiln.hearths = (s.popped h).kiln.hearths) : exec (.postedDrain h) s = .next t ∧ s.Left t h :=
  ⟨hact ▸ postedDrain_of_oldest ho, popped_left ht⟩

end Drain

/-! ### Bits of the pins -/

theorem bits_lt (p : Nat → Prop) [DecidablePred p] (k : Nat) : (List.range k).foldl (fun a n => if p n then a + 2 ^ n else a) 0 < 2 ^ k := by
  induction k with
  | zero => exact Nat.one_pos
  | succ k ih =>
    rw [List.range_succ, List.foldl_append, List.foldl_cons, List.foldl_nil, pow_succ]
    split <;> omega

theorem bits_testBit (p : Nat → Prop) [DecidablePred p] (k n : Nat) :
    ((List.range k).foldl (fun a n => if p n then a + 2 ^ n else a) 0).testBit n = decide (n < k ∧ p n) := by
  induction k with
  | zero => simp
  | succ k ih =>
    have hout (m : Nat) (hm : m ≤ n) : ((List.range m).foldl (fun a n => if p n then a + 2 ^ n else a) 0).testBit n = false :=
      Nat.testBit_lt_two_pow ((bits_lt p m).trans_le (Nat.pow_le_pow_right (by decide) hm))
    rcases Nat.lt_trichotomy n k with hlt | rfl | hgt
    · have hnew : n < k + 1 := Nat.lt_succ_of_lt hlt
      rw [List.range_succ, List.foldl_append, List.foldl_cons, List.foldl_nil]
      split
      · rw [Nat.add_comm, Nat.testBit_two_pow_add_gt hlt, ih]
        simp [hlt, hnew]
      · rw [ih]
        simp [hlt, hnew]
    · have hold := hout n le_rfl
      rw [List.range_succ, List.foldl_append, List.foldl_cons, List.foldl_nil]
      split
      next hp =>
        rw [Nat.add_comm, Nat.testBit_two_pow_add_eq, hold]
        simp [hp]
      next hp =>
        rw [hold]
        simp [hp]
    · rw [hout (k + 1) hgt]
      simp [Nat.not_lt.2 hgt]

theorem ownedPins_testBit (s : State) (o n : Nat) : (s.ownedPins o).testBit n = decide (n < 32 ∧ s.ef (F.GPIO_PINn_CFG_OWNER n) = o) :=
  bits_testBit (fun n => s.ef (F.GPIO_PINn_CFG_OWNER n) = o) 32 n

theorem outputPins_testBit (s : State) (n : Nat) :
    ((List.range 32).foldl (fun a n => if s.eflag (F.GPIO_PINn_CFG_DIR n) then a + 2 ^ n else a) 0).testBit n
      = decide (n < 32 ∧ s.ef (F.GPIO_PINn_CFG_DIR n) = 1) := by
  rw [bits_testBit (fun n => s.eflag (F.GPIO_PINn_CFG_DIR n) = true)]
  simp only [State.eflag, beq_iff_eq]

theorem merge_getLsbD (old w mask : Word) {n : Nat} (hn : n < 32) :
    (merge old w mask).getLsbD n = if mask.getLsbD n then w.getLsbD n else old.getLsbD n := by
  unfold merge
  simp only [BitVec.getLsbD_or, BitVec.getLsbD_and, BitVec.getLsbD_not, hn]
  cases mask.getLsbD n <;> simp

/-! ### Pin changes (R42, R103) -/

theorem pinChange_rd_ne (s : State) (c : PinChange) {r : Nat} (hr : r ≠ Reg.GPIO_OUT) : (s.pinChange c).rd r = s.rd r :=
  State.rd_wr_ne _ _ hr

/-- A bit of OUT takes the change that names it, where Kiln may change its pin (R103, R490). -/
theorem pinChange_out (s : State) (c : PinChange) {n : Nat} (hn : n < 32) :
    ((s.pinChange c).rd Reg.GPIO_OUT).getLsbD n
      = if c.mask.getLsbD n = true ∧ s.ef (F.GPIO_PINn_CFG_OWNER n) = 1 ∧ s.ef (F.GPIO_PINn_CFG_DIR n) = 1 then c.value.getLsbD n
        else (s.rd Reg.GPIO_OUT).getLsbD n := by
  unfold State.pinChange
  rw [State.rd_wr_same, merge_getLsbD _ _ _ hn, BitVec.getLsbD_and, BitVec.getLsbD_and, BitVec.getLsbD_ofNat, BitVec.getLsbD_ofNat,
    ownedPins_testBit, outputPins_testBit]
  simp [hn, and_assoc]

theorem pinChange_ef (s : State) (c : PinChange) {x : RegField} (hx : x.addr ≠ Reg.GPIO_OUT) : (s.pinChange c).ef x = s.ef x := by
  unfold State.ef State.eff
  rw [pinChange_rd_ne s c hx]
  rfl

theorem pinCfg_ne_out (n : Nat) : Reg.GPIO_PINn_CFG n ≠ Reg.GPIO_OUT := by
  unfold Reg.GPIO_PINn_CFG Reg.GPIO_OUT
  omega

/-- Two changes that are due act in the order of their cycles, and those of one cycle in the order in which they drained (R42). -/
theorem pinsUpTo_two {s : State} {a b : PinChange} {cyc : Nat} (hnow : s.kiln.pinsNow = [a, b]) (ha : a.cyc ≤ cyc) (hb : b.cyc ≤ cyc) :
    s.pinsUpTo cyc = (({ s with kiln.pinsNow := [] } : State).pinChange (if b.cyc < a.cyc then b else a)).pinChange
      (if b.cyc < a.cyc then a else b) := by
  unfold State.pinsUpTo
  rw [hnow]
  by_cases hlt : b.cyc < a.cyc <;> simp [ha, hb, hlt, pinInsert]

/-! ### Open packets -/

theorem pkt_setPkt_same (x : Queue) {p : Producer} {o : OpenPkt} (ho : o.prod = p) : (x.setPkt p (some o)).pkt p = some o := by
  have hrest : (x.opens.filter fun o => o.prod != p).find? (fun o => o.prod == p) = none := List.find?_eq_none.2 (by simp)
  unfold Queue.setPkt Queue.pkt
  rw [List.find?_append, hrest, List.find?_singleton, ho, beq_self_eq_true]
  rfl

theorem queue_setQueue_same (s : State) (q : Nat) (x : Queue) : (s.setQueue q x).queue q = x := by
  unfold State.setQueue State.queue
  rw [tabGet_tabSet_same]
  rfl

/-- A packet that is admitted takes one cell, and its first word (R99, R385). -/
theorem putWord_opens {s : State} {p : Producer} {q : Nat} (hnone : (s.queue q).pkt p = none) (hadm : s.refuses q 0 1 = false) (w : Word) :
    ∃ l, s.putWord p q w false = (true, (s.takeCells [] 1).2.setQueue q
      ((s.queue q).setPkt p (some { prod := p, words := [w], ranges := [], banks := l, marked := false, dropping := false }))) := by
  unfold State.putWord
  simp only [hnone, hadm]
  exact ⟨_, rfl⟩

theorem takeCells_freeCells (s : State) (l : List Nat) (n : Nat) : (s.takeCells l n).2.freeCells = s.freeCells - n := by
  have hlt : s.freeCells - n < 2 ^ 19 := (Nat.sub_le _ _).trans_lt (State.f_lt s F.QMG_POOL_FREE)
  have hset (u : State) : (u.wf F.QMG_POOL_FREE (s.freeCells - n)).f F.QMG_POOL_FREE = s.freeCells - n :=
    (State.f_wf_same u ⟨by decide, by decide⟩ _).trans (Nat.mod_eq_of_lt hlt)
  exact (State.f_wf_ne _ ⟨by decide, by decide⟩ (.inl (by decide)) _).trans (hset s)

/-- An `enq` entry that opens a packet which the queue manager admits leaves its word alone in the packet and takes one cell (R99). -/
theorem postEnq_opens {u : State} {h : Nat} {q : Word} (hq : q.toNat ≤ 4095) (hnone : (u.queue q.toNat).pkt (.hearth h) = none)
    (hopens : u.hearthOpens h < 8) (hadm : u.refuses q.toNat 0 1 = false) (pc : Nat) (v : Word) :
    ∃ t, u.postEnq h pc q v false = t ∧ t.kiln.hearths = u.kiln.hearths ∧ t.freeCells = u.freeCells - 1
      ∧ ((t.queue q.toNat).pkt (.hearth h)).map (·.words) = some [v] ∧ (t.queue q.toNat).items = (u.queue q.toNat).items := by
  obtain ⟨l, hput⟩ := putWord_opens hnone hadm v
  have hact : u.postEnq h pc q v false = (u.putWord (.hearth h) q.toNat v false).2 := by
    refine (if_neg (Nat.not_lt.2 hq)).trans ((if_neg fun e => Nat.not_le.2 hopens e.2).trans (if_pos ?_))
    rw [hput]
  refine ⟨_, hact.trans (congrArg Prod.snd hput), rfl, takeCells_freeCells u [] 1, ?_, ?_⟩ <;> rw [queue_setQueue_same]
  · rw [pkt_setPkt_same (u.queue q.toNat) (p := .hearth h) rfl]
    rfl
  · rfl

/-! ### Fire entries (R102) -/

section Fire
variable {s : State} {u c : Word} {mode : FireMode} (hc : mode = .boundaryPlus ∨ c.toNat ≤ 4191) (h pc : Nat) (i : Word)
include hc

theorem postFire_bad (hu : 63 < u.toNat) : s.postFire h pc u c i mode = s.faultAt h 0x09 pc :=
  (if_neg fun e => hc.elim e.1 (Nat.not_le.2 e.2)).trans (if_pos hu)

theorem postFire_eq (hu : u.toNat < 64) : s.postFire h pc u c i mode =
    match s.fireTime c.toNat i.toNat mode with | some t => s.fire u.toNat t .kiln none | none => s :=
  (if_neg fun e => hc.elim e.1 (Nat.not_le.2 e.2)).trans (if_neg (Nat.not_lt.2 (Nat.le_of_lt_succ hu)))

end Fire

end Sys2Proof.Machine
end

section
open Sys2Proof Sys2Proof.Machine

/-- Settles O20: each entry acts on the state its hearth has popped, through the operation of its kind. -/
theorem klnPostedEntriesDrain : Obligations.KlnPostedEntriesDrain := by
  unfold Obligations.KlnPostedEntriesDrain
  refine ⟨fun s h => ⟨postedDrain_of_empty, fun pc c q ho => ?route⟩,
    fun s h pc => ⟨fun m v o ho => ?pins, fun imm ho => ?sig, fun a b cyc hnow ha hb => ?pinsApply⟩,
    fun s h pc => ⟨fun q v eop ho => ?enq, fun u c i mode ho => ?fire, fun d m ho hout => ?spix, fun off port v ho hport => ?hpw⟩⟩
  case route =>
    refine ⟨fun hc hq => ?_, fun hc => ?_, fun hc hq hne => ?_⟩
    · have hqueue : ¬(4095 < q.toNat ∧ q ≠ noRoute) := fun hbad => hq.elim (Nat.not_le.2 hbad.1) hbad.2
      obtain ⟨ht, hleft⟩ := postedDrain_leaves ho ((if_neg (Nat.not_lt.2 hc)).trans (if_neg hqueue)) rfl
      exact ⟨_, ht, hleft, fun n => tabGet_tabSet s.kiln.shadow c.toNat n q, rfl⟩
    · exact postedDrain_faults ho (by decide) (if_pos hc)
    · exact postedDrain_faults ho (by decide) ((if_neg (Nat.not_lt.2 hc)).trans (if_pos ⟨hq, hne⟩))
  case pins =>
    refine ⟨fun hc hroom => ?_, fun hc => ?_, fun hc hfull => ?_⟩
    · obtain ⟨ht, hleft⟩ := postedDrain_leaves ho ((if_neg (Nat.not_le.2 hc)).trans (if_neg (Nat.not_le.2 hroom))) rfl
      exact ⟨_, ht, hleft, rfl, rfl⟩
    · exact postedDrain_faults ho (by decide) (if_pos hc)
    · exact postedDrain_faults ho (by decide) ((if_neg (Nat.not_le.2 hc)).trans (if_pos hfull))
  case sig =>
    have hsame : ((s.popped h).hearth h).signalled = (s.hearth h).signalled := by rw [popped_hearth]
    refine ⟨fun hsig => ?_, fun hsig => postedDrain_faults ho (by decide) (if_pos (hsame.trans hsig))⟩
    have hact : (s.popped h).postedAct h ⟨pc, .sig imm⟩
        = ((s.popped h).setHearth h { (s.popped h).hearth h with signalled := true }).emit .KILN_SIGNAL (objUnit h) [(pc : Int), (imm : Int)] :=
      if_neg (by simp [hsame, hsig])
    refine ⟨_, postedDrain_of_oldest ho, ?_⟩
    rw [hact, hearth_emit, State.hearth_setHearth_same, popped_hearth]
    refine ⟨rfl, rfl, fun g hg => ?_, ?_⟩
    · rw [hearth_emit, State.hearth_setHearth_ne _ _ hg]
      exact s.hearth_setHearth_ne _ hg
    · generalize hu : (s.popped h).setHearth h _ = u
      have hq : u.hub.evq = s.hub.evq := by rw [← hu]; rfl
      exact emit_joins_end hq _ _ _
  case pinsApply =>
    dsimp only
    refine ⟨_, congrArg Host.Outcome.next (pinsUpTo_two hnow ha hb), rfl, fun r hr => ?_, fun n hn => ?_⟩
    · rw [pinChange_rd_ne _ _ hr, pinChange_rd_ne _ _ hr]
      rfl
    · generalize (if b.cyc < a.cyc then b else a) = first
      generalize (if b.cyc < a.cyc then a else b) = second
      have hef (x : RegField) : ({ s with kiln.pinsNow := [] } : State).ef x = s.ef x := rfl
      have hout : ({ s with kiln.pinsNow := [] } : State).rd Reg.GPIO_OUT = s.rd Reg.GPIO_OUT := rfl
      rw [pinChange_out _ _ hn, pinChange_out _ _ hn, pinChange_ef _ _ (pinCfg_ne_out n), pinChange_ef _ _ (pinCfg_ne_out n), hef, hef, hout]
      refine ⟨fun hm => ?_, fun hm h2 => if_pos ⟨h2, hm⟩, fun hm h2 h1 => ?_, fun hm h2 h1 => ?_⟩
      · rw [if_neg fun e => hm e.2, if_neg fun e => hm e.2]
      · rw [if_neg fun e => by simp [h2] at e, if_pos ⟨h1, hm⟩]
      · rw [if_neg fun e => by simp [h2] at e, if_neg fun e => by simp [h1] at e]
  case enq =>
    refine ⟨fun hq heop hnone hopens hadm => ?_, fun hq => postedDrain_faults ho (by decide) (if_pos hq)⟩
    subst heop
    obtain ⟨t, ht, hhearths, hrest⟩ := postEnq_opens (u := s.popped h) hq (Option.isNone_iff_eq_none.1 hnone) hopens hadm pc v
    obtain ⟨hexec, hleft⟩ := postedDrain_leaves ho ht hhearths
    exact ⟨t, hexec, hleft, hrest⟩
  case fire =>
    refine ⟨fun hm hu => ?_, fun hm hc => ?_, fun hm hu => ?_, fun hm hc hu hi => ?_⟩
    · subst hm
      have hact : exec (.postedDrain h) s = .next ((s.popped h).fire u.toNat (boundaryClock s.rate (s.tick.num - 1) + i.toNat * 65536) .kiln none) :=
        (postedDrain_of_oldest ho).trans (congrArg Host.Outcome.next (postFire_eq (.inl rfl) h pc i hu))
      rw [hact]
      show _ = Host.Outcome.next ((s.popped h).fire (u.toNat % 64) _ .kiln none)
      rw [Nat.mod_eq_of_lt hu]
    · exact postedDrain_faults ho (by decide) (if_pos ⟨hm, hc⟩)
    · exact postedDrain_faults ho (by decide) (postFire_bad hm h pc i hu)
    · subst hm
      have hnone : (s.popped h).fireTime c.toNat i.toNat .stagingEntry = none := by
        show ((s.viewOf .staging c.toNat)[i.toNat]?).map (·.inst) = none
        rw [List.getElem?_eq_none hi]
        rfl
      have hact : (s.popped h).postedAct h ⟨pc, .fire u c i .stagingEntry⟩ = s.popped h := by
        refine (postFire_eq (.inr hc) h pc i hu).trans ?_
        rw [hnone]
      obtain ⟨ht, hleft⟩ := postedDrain_leaves ho hact rfl
      exact ⟨_, ht, hleft, rfl⟩
  case spix =>
    have hreach : tramReach h d.toNat = false := by
      rw [Bool.eq_false_iff, ne_eq, tramReach_iff]
      omega
    refine postedDrain_faults ho (by decide) (if_pos ?_)
    rw [hreach]
    rfl
  case hpw =>
    have hspan : (portBlock port).2 = if port = 0 then 0x3FFFF else 0xFFFFF := by interval_cases port <;> rfl
    have hact {code : Nat} (hf : portFault port off = some code) :
        (s.popped h).postedAct h ⟨pc, .hpw off port v⟩ = (s.popped h).faultAt h code pc := by
      show (s.popped h).portWrite h pc port off v = _
      unfold State.portWrite
      rw [hf]
    rw [← hspan]
    exact ⟨fun hout => postedDrain_faults ho (by decide) (hact (portFault_beyond hout)),
      fun hin hal => postedDrain_faults ho (by decide) (hact (portFault_unaligned hin hal))⟩

end

section
/-!
PROOFS. The register bus at the edges of the map (R537 to R541, R66): reserved addresses, the reads that latch, and the tick RAM window.
-/
namespace Sys2Proof.Machine

open Sys2Proof

/-! ### The map -/

theorem findRow_eq_none {l : List RegRow} {a : Nat} (h : ∀ r ∈ l, r.base ≤ a → rowInst r.dims (a - r.base) 0 = none) :
    findRow l a = none := by
  induction l with
  | nil => rfl
  | cons r rs ih =>
    have hrs := ih fun x hx => h x (List.mem_cons_of_mem r hx)
    unfold findRow
    split
    next hle => rw [h r List.mem_cons_self hle, hrs]
    next => exact hrs

/-- Bytes from the base of a row on within which its instances lie. -/
def rowExtent : List (Nat × Nat) → Nat
  | [] => 1
  | (c, st) :: _ => c * st

theorem rowInst_beyond {dims : List (Nat × Nat)} (hst : ∀ e ∈ dims, 0 < e.2) {d : Nat} (hd : rowExtent dims ≤ d) (i : Nat) :
    rowInst dims d i = none := by
  cases dims with
  | nil => exact if_neg (Nat.ne_of_gt hd)
  | cons e r => exact if_neg (Nat.not_lt.2 ((Nat.le_div_iff_mul_le (hst e List.mem_cons_self)).2 hd))

/-- No row of the KLN block reaches into the tick RAM window (R63, R537). -/
theorem kln_rows_below_tram : ∀ r ∈ regRowsKLN, r.base + rowExtent r.dims ≤ 0x140000 ∧ ∀ e ∈ r.dims, 0 < e.2 := by decide

theorem rowOf_tram (i : Fin 65536) : rowOf (tramAddr i) = none := by
  have hi := i.isLt
  unfold tramAddr rowOf
  have hblock : blockRows (0x00140000 + 4 * i) = regRowsKLN := by
    have hq : (0x00140000 + 4 * i.val) / 0x100000 = 1 := by omega
    unfold blockRows
    rw [if_neg (by omega), hq]
    rfl
  rw [Nat.mod_eq_of_lt (by omega), hblock]
  refine findRow_eq_none fun r hr _ => ?_
  obtain ⟨hext, hst⟩ := kln_rows_below_tram r hr
  exact rowInst_beyond hst (by omega) 0

theorem rowOf_tickLo : rowOf Reg.KLN_TICK_LO = some (⟨Reg.KLN_TICK_LO, [], .val 0x0, 0x0, 0x0, 0x0, 0x0, 0x0⟩, 0) := by rfl

theorem rowOf_nowSecLo : rowOf Reg.PTP_NOW_SEC_LO = some (⟨Reg.PTP_NOW_SEC_LO, [], .val 0x0, 0x0, 0x0, 0x0, 0x0, 0x0⟩, 0) := by rfl

/-! ### Reads over the bus while it is up -/

section Read
variable {s : State} (ht : s.umb.thermal = false) (hh : s.umb.held = false) (m : Nat)
include ht hh

theorem busDown_eq_false (a : Nat) : s.busDown a = false := by
  unfold State.busDown
  rw [ht, hh]
  rfl

theorem busRead_tickLo : s.busRead m Reg.KLN_TICK_LO = (BitVec.ofNat 32 s.tick.num, s.latchTick m) := by
  have hmap : (reserved Reg.KLN_TICK_LO || stkDenied m Reg.KLN_TICK_LO) = false := rfl
  have humb : (s.umb.down && decide (0x10000 ≤ Reg.KLN_TICK_LO) && decide (Reg.KLN_TICK_LO < 0x20000)) = false := Bool.and_false _
  unfold State.busRead
  rw [busDown_eq_false ht hh, hmap, humb, rowOf_tickLo]
  rfl

theorem busRead_nowSecLo : s.busRead m Reg.PTP_NOW_SEC_LO = (BitVec.ofNat 32 (s.tick.clock / secUnits), s.latchNow m) := by
  have hmap : (reserved Reg.PTP_NOW_SEC_LO || stkDenied m Reg.PTP_NOW_SEC_LO) = false := rfl
  have humb : (s.umb.down && decide (0x10000 ≤ Reg.PTP_NOW_SEC_LO) && decide (Reg.PTP_NOW_SEC_LO < 0x20000)) = false := Bool.and_false _
  unfold State.busRead
  rw [busDown_eq_false ht hh, hmap, humb, rowOf_nowSecLo]
  rfl

theorem busRead_tram (i : Fin 65536) : s.busRead m (tramAddr i) = s.tramBusRead m i := by
  have hi := i.isLt
  have hlo : 0x140000 ≤ tramAddr i := Nat.le_add_right ..
  have hhi : tramAddr i < 0x180000 := by
    unfold tramAddr
    omega
  have hmap : (reserved (tramAddr i) || stkDenied m (tramAddr i)) = false := by
    simp only [reserved, stkDenied, Bool.or_eq_false_iff, Bool.and_eq_false_iff, decide_eq_false_iff_not]
    omega
  have humb : (s.umb.down && decide (0x10000 ≤ tramAddr i) && decide (tramAddr i < 0x20000)) = false := by
    simp only [Bool.and_eq_false_iff, decide_eq_false_iff_not]
    omega
  have hindex : (tramAddr i - 0x140000) / 4 = i := by
    unfold tramAddr
    omega
  unfold State.busRead
  rw [busDown_eq_false ht hh, hmap, humb, rowOf_tram]
  show s.rdWindow m (tramAddr i) = _
  unfold State.rdWindow
  rw [if_neg (by omega), if_pos ⟨hlo, hhi⟩, hindex]

end Read

/-! ### A reserved address (R538) -/

theorem reserved_iff (a : Nat) : reserved a = true ↔
    (0x30000 ≤ a ∧ a < 0x100000) ∨ (0x280000 ≤ a ∧ a < 0x400000) ∨ (0x440000 ≤ a ∧ a < 0x500000) ∨ 0x1500000 ≤ a := by
  simp only [reserved, Bool.or_eq_true, Bool.and_eq_true, decide_eq_true_eq]
  omega

/-- The state in which the error registers show the access of master `m` to address `a`. -/
def State.busErrShown (s : State) (m a : Nat) (write : Bool) : State :=
  (s.wr Reg.HUB_BUS_ERR_ADDR (BitVec.ofNat 32 a)).wr Reg.HUB_BUS_ERR_INFO (BitVec.ofNat 32 (b2n write * 2 ^ 31 + m))

/-- The state in which master `m` has used up its record of a bus error for this tick. -/
def State.busErrNoted (s : State) (m a : Nat) (write : Bool) : State :=
  let u := s.busErrShown m a write
  { u with hub.busErrTick := tabSet (fun _ => 0) u.hub.busErrTick m (u.tick.num + 1) }

section BusError
variable (s : State) (m a : Nat) (write : Bool)

theorem busErrShown_hub : (s.busErrShown m a write).hub = s.hub := by
  unfold State.busErrShown
  rw [State.wr_hub, State.wr_hub]

theorem busErrShown_tick : (s.busErrShown m a write).tick = s.tick := by
  unfold State.busErrShown
  rw [State.wr_tick, State.wr_tick]

theorem busErrShown_rd_addr : (s.busErrShown m a write).rd Reg.HUB_BUS_ERR_ADDR = BitVec.ofNat 32 a := by
  unfold State.busErrShown
  rw [State.rd_wr_ne _ _ (by decide), State.rd_wr_same]

theorem busErrShown_rd_info : (s.busErrShown m a write).rd Reg.HUB_BUS_ERR_INFO = BitVec.ofNat 32 (b2n write * 2 ^ 31 + m) := by
  unfold State.busErrShown
  rw [State.rd_wr_same]

theorem busErrNoted_rd (b : Nat) : (s.busErrNoted m a write).rd b = (s.busErrShown m a write).rd b := by
  unfold State.busErrNoted State.rd
  rfl

theorem busErrNoted_evq : (s.busErrNoted m a write).hub.evq = s.hub.evq := by
  unfold State.busErrNoted
  dsimp only
  rw [busErrShown_hub]

theorem busErrNoted_noted : tabGet (fun _ => 0) (s.busErrNoted m a write).hub.busErrTick m = s.tick.num + 1 := by
  unfold State.busErrNoted
  dsimp only
  rw [tabGet_tabSet_same, busErrShown_tick]

theorem busError_eq : s.busError m a write
    = if tabGet (fun _ => 0) s.hub.busErrTick m = s.tick.num + 1 then s.busErrShown m a write
      else (s.busErrNoted m a write).emitFrom .BUS_ADDR 0 (objMaster m) [(a : Int), (b2n write : Int)] := by
  rw [← busErrShown_hub s m a write, ← busErrShown_tick s m a write]
  rfl

theorem busError_rd {b : Nat} (hb : b ∉ eventRegs) : (s.busError m a write).rd b = (s.busErrShown m a write).rd b := by
  rw [busError_eq]
  split
  · rfl
  · rw [(emitFrom_records ..).rd b hb, busErrNoted_rd]

theorem busError_noted : tabGet (fun _ => 0) (s.busError m a write).hub.busErrTick m = s.tick.num + 1 := by
  rw [busError_eq]
  split
  next h => rw [busErrShown_hub, h]
  next h =>
    rw [← busErrNoted_noted s m a write, ← (emitFrom_records (s.busErrNoted m a write) .BUS_ADDR 0 (objMaster m) _).hub]

theorem busError_evq_again (h : tabGet (fun _ => 0) s.hub.busErrTick m = s.tick.num + 1) : (s.busError m a write).hub.evq = s.hub.evq := by
  rw [busError_eq, if_pos h, busErrShown_hub]

theorem busError_evq_first (h : tabGet (fun _ => 0) s.hub.busErrTick m ≠ s.tick.num + 1)
    (hroom : evqDepth s.hub.evq + eventEntries .BUS_ADDR ≤ 4096) :
    ∃ e : Event, e.name = .BUS_ADDR ∧ e.obj = objMaster m ∧ e.detail = [(a : Int), (b2n write : Int)]
      ∧ (s.busError m a write).hub.evq = s.hub.evq ++ [e] := by
  rw [busError_eq, if_neg h]
  rw [← busErrNoted_evq s m a write] at hroom ⊢
  exact ⟨_, rfl, rfl, rfl, emitFrom_evq _ _ _ _ _ hroom⟩

end BusError

theorem exec_busAddrAccess {s : State} (ht : s.umb.thermal = false) (hh : s.umb.held = false) (m : Master) {a : Nat} (w : Bool) (ha : a % 4 = 0)
    (hres : reserved a = true) : exec (.busAddrAccess m a w) s
      = .next { s.busError (masterCode m) a w with hub.rdata := if w then s.hub.rdata else 0#32 } := by
  refine congrArg Host.Outcome.next (if_pos ⟨ha, ?_, ?_⟩)
  · rw [busDown_eq_false ht hh]
    rfl
  · rw [hres]
    rfl

theorem hostRead_eq {s u : State} {m a : Nat} {w : Word} (h : s.busRead m a = (w, u)) : s.hostRead m a = { u with hub.rdata := w } := by
  unfold State.hostRead
  rw [h]

/-! ### Private copies (R541) -/

theorem priv_ne {n m a b : Nat} (h : n ≠ m) (ha : a < 2 ^ 32) (hb : b < 2 ^ 32) : priv n a ≠ priv m b := by
  unfold priv
  omega

theorem latchNow_rd_ns (s : State) (m : Nat) :
    (s.latchNow m).rd (priv m Reg.PTP_NOW_NS) = BitVec.ofNat 32 (s.tick.clock % secUnits / 65536) :=
  (State.rd_wr_ne _ _ (Nat.add_right_cancel_iff.not.2 (by decide))).trans (State.rd_wr_same ..)

theorem latchNow_rd_others (s : State) {m n b : Nat} (hn : n ≠ m) (hb : b < 2 ^ 32) : (s.latchNow m).rd (priv n b) = s.rd (priv n b) :=
  (State.rd_wr_ne _ _ (priv_ne hn hb (by decide))).trans <| (State.rd_wr_ne _ _ (priv_ne hn hb (by decide))).trans <|
    State.rd_wr_ne _ _ (priv_ne hn hb (by decide))

/-! ### Tick RAM over the bus (R66) -/

theorem mem_tramDouble_upset (s : State) (i : Nat) (e : Ecc) :
    i ∈ (s.tramUpset i e).kiln.tramDouble ↔ i ∈ s.kiln.tramDouble ∨ e = .double := by
  cases e
  case clean => simp [State.tramUpset]
  case single => simp [State.tramUpset]
  case double =>
    unfold State.tramUpset
    dsimp only
    split <;> simp_all

theorem mem_tramSingle_upset (s : State) (i : Nat) : i ∈ (s.tramUpset i .single).kiln.tramSingle := by
  unfold State.tramUpset
  dsimp only
  split <;> simp_all

theorem tramUpset_mem (s : State) (i : Nat) (e : Ecc) : (s.tramUpset i e).mem = s.mem := by cases e <;> rfl
theorem tramUpset_hub (s : State) (i : Nat) (e : Ecc) : (s.tramUpset i e).hub = s.hub := by cases e <;> rfl
theorem tramUpset_umb (s : State) (i : Nat) (e : Ecc) : (s.tramUpset i e).umb = s.umb := by cases e <;> rfl

theorem tramBusRead_readable {s : State} {i : Nat} (h : i ∉ s.kiln.tramDouble) (m : Nat) :
    s.tramBusRead m i = (s.rd (tramAddr i), s.tramCount i) := by
  simp [State.tramBusRead, tramRead_of_readable h]

theorem tramBusRead_double {s : State} {i : Nat} (h : i ∈ s.kiln.tramDouble) (m : Nat) :
    s.tramBusRead m i = (0#32, (s.bump F.KLN_TRAM_ERR_DOUBLE 1).emit .KLN_TRAM_ECC 0 [(i : Int), (m : Int)]) := by
  simp [State.tramBusRead, tramRead_of_double h, tramCount_of_double h]

theorem exec_tramBusRead {s u : State} (ht : s.umb.thermal = false) (hh : s.umb.held = false) (m : Master) (x : TramWord) {w : Word}
    (h : (s.tramUpset x.index x.ecc).tramBusRead (masterCode m) x.index = (w, u)) :
    exec (.tramBusRead m x) s = .next { u with hub.rdata := w } := by
  have hu := tramUpset_umb s x.index x.ecc
  exact congrArg Host.Outcome.next (hostRead_eq ((busRead_tram (hu ▸ ht) (hu ▸ hh) (masterCode m) x.index).trans h))

end Sys2Proof.Machine
end

section
open Sys2Proof Sys2Proof.Machine

/-- Settles O31: the bus error of a reserved address, the two latching reads, and a tick RAM read by its ECC. -/
theorem busErrorsAndLatches : Obligations.BusErrorsAndLatches := by
  unfold Obligations.BusErrorsAndLatches
  intro s m ht hh
  dsimp only
  refine ⟨fun a w ha hres => ?reservedAddr, ?tickLo, ?now, fun x => ⟨fun hd => ?readable, fun hd => ?double⟩⟩
  case reservedAddr =>
    have hinfo : b2n w * 2 ^ 31 = if w then 2 ^ 31 else 0 := by cases w <;> rfl
    have hdir : (b2n w : Int) = if w then 1 else 0 := by cases w <;> rfl
    refine ⟨_, exec_busAddrAccess ht hh m w ha ((reserved_iff a).2 hres), ?_, ?_, fun hw => by rw [hw]; rfl, busError_noted s _ a w,
      busError_evq_again s _ a w, fun hfirst hroom => ?_⟩
    · exact (busError_rd s _ a w (by decide)).trans (busErrShown_rd_addr s _ a w)
    · rw [← hinfo]
      exact (busError_rd s _ a w (by decide)).trans (busErrShown_rd_info s _ a w)
    · rw [← hdir]
      exact busError_evq_first s _ a w hfirst hroom
  case tickLo =>
    refine ⟨_, congrArg Host.Outcome.next (hostRead_eq (busRead_tickLo ht hh (masterCode m))), rfl, ?_, fun b hb => ?_⟩
    · exact State.rd_wr_same s _ _
    · exact State.rd_wr_ne s _ hb
  case now =>
    refine ⟨_, congrArg Host.Outcome.next (hostRead_eq (busRead_nowSecLo ht hh (masterCode m))), rfl, ?_, fun n hn b hb => ?_⟩
    · exact latchNow_rd_ns s _
    · exact latchNow_rd_others s hn hb
  case readable =>
    have hnot : x.index.val ∉ (s.tramUpset x.index x.ecc).kiln.tramDouble := mt (mem_tramDouble_upset s _ _).1 hd
    refine ⟨_, exec_tramBusRead ht hh m x (tramBusRead_readable hnot _), rd_of_mem (tramUpset_mem s _ _) _, fun he => ?_⟩
    rw [he] at hnot ⊢
    have hsingle := mem_tramSingle_upset s x.index
    rw [tramCount_of_single hnot hsingle]
    exact ⟨hsingle, State.f_bump_same (s.tramUpset x.index .single) ⟨by decide, by decide⟩ 1⟩
  case double =>
    have hin : x.index.val ∈ (s.tramUpset x.index x.ecc).kiln.tramDouble := (mem_tramDouble_upset s _ _).2 hd
    have hq : ((s.tramUpset x.index x.ecc).bump F.KLN_TRAM_ERR_DOUBLE 1).hub.evq = s.hub.evq := congrArg HubSt.evq (tramUpset_hub s x.index x.ecc)
    have hcount : ((s.tramUpset x.index x.ecc).bump F.KLN_TRAM_ERR_DOUBLE 1).f F.KLN_TRAM_ERR_DOUBLE = min (s.f F.KLN_TRAM_ERR_DOUBLE + 1) 65535 := by
      rw [State.f_bump_same _ ⟨by decide, by decide⟩, State.f, rd_of_mem (tramUpset_mem s _ _)]
      rfl
    refine ⟨_, exec_tramBusRead ht hh m x (tramBusRead_double hin _), rfl, ?_, ?_, fun hroom => ?_⟩
    · show x.index.val ∈ (State.emit _ _ _ _).kiln.tramDouble
      rw [emit_kiln]
      exact hin
    · exact (f_emit _ _ _ _ (by decide)).trans hcount
    · obtain ⟨e, he, hname, -, hdetail⟩ := emit_joins_end hq .KLN_TRAM_ECC 0 [(x.index.val : Int), (masterCode m : Int)] hroom
      exact ⟨e, hname, hdetail, he⟩

end

section
/-!
PROOFS. What keeps the tail guard open (R41, R71, R74): every operation that a posted entry reaches as it drains leaves `tick.inTail`. One
lemma per operation that has several callers, or parts that act; an operation with one caller is unfolded in its caller's lemma.
-/
namespace Sys2Proof.Machine

open Sys2Proof

/-- The tail guard has begun, and no boundary has come since (R41). -/
def InTail (s : State) : Prop := s.tick.inTail = true

variable {s : State}

theorem InTail.update (h : InTail s) {k : TickSt} (hk : k.inTail = s.tick.inTail) {ki hu fr fl pn pt ed kn qm pr cr up sp um} :
    InTail (State.mk s.mem k ki hu fr fl pn pt ed kn qm pr cr up sp um s.pending) := hk.trans h

theorem InTail.ite {c : Prop} [Decidable c] {x y : State} (hx : InTail x) (hy : InTail y) : InTail (if c then x else y) := by
  split <;> assumption

theorem InTail.ite2 {α : Type} {c : Prop} [Decidable c] {x y : α × State} (hx : InTail x.2) (hy : InTail y.2) :
    InTail (if c then x else y).2 := by
  split <;> assumption

theorem InTail.foldl {α : Type} {f : State → α → State} (hf : ∀ x a, InTail x → InTail (f x a)) (l : List α) (h : InTail s) :
    InTail (l.foldl f s) := by
  induction l generalizing s with
  | nil => exact h
  | cons x r ih => exact ih (hf _ _ h)

theorem InTail.forNat {f : State → Nat → State} (n : Nat) (hf : ∀ x a, InTail x → InTail (f x a)) (h : InTail s) : InTail (forNat n f s) :=
  .foldl hf _ h

theorem InTail.records {t : State} (h : InTail s) (k : Records s t) : InTail t := (congrArg TickSt.inTail k.tick).trans h

/-! ### Registers and records -/

theorem wr_inTail (a w) (h : InTail s) : InTail (s.wr a w) := h

theorem wf_inTail (x v) (h : InTail s) : InTail (s.wf x v) := wr_inTail _ _ h

theorem wb_inTail (x b') (h : InTail s) : InTail (s.wb x b') := wf_inTail _ _ h

theorem peak_inTail (x n) (h : InTail s) : InTail (s.peak x n) := wf_inTail _ _ h

theorem bumpWrap_inTail (x n) (h : InTail s) : InTail (s.bumpWrap x n) := wf_inTail _ _ h

theorem bump_inTail (x n) (h : InTail s) : InTail (s.bump x n) := wf_inTail _ _ h

theorem emit_inTail (n obj detail) (h : InTail s) : InTail (s.emit n obj detail) := h.records (emit_records ..)

theorem umberEvent_inTail (n obj detail) (h : InTail s) : InTail (s.umberEvent n obj detail) := h.records (umberEvent_records ..)

theorem emitFrom_inTail (n block obj detail) (h : InTail s) : InTail (s.emitFrom n block obj detail) :=
  h.records (emitFrom_records ..)

/-! ### Frames on the links -/

theorem fenceHit_inTail (bit) (h : InTail s) : InTail (s.fenceHit bit) := wf_inTail _ _ h

theorem txHold_inTail (l) (h : InTail s) : InTail (s.txHold l) := by
  unfold State.txHold
  with_reducible repeat' first
    | assumption | apply umberEvent_inTail | apply wf_inTail | apply fenceHit_inTail | apply InTail.ite | rfl | split | dsimp only
    | apply InTail.update

theorem hold_inTail (due addr data mask master) (h : InTail s) : InTail (s.hold due addr data mask master) := wr_inTail _ _ h

theorem txLeave_inTail (i) (h : InTail s) : InTail (s.txLeave i) := by
  unfold State.txLeave
  with_reducible repeat' first | assumption | intro _ | apply InTail.ite | rfl | apply InTail.foldl | dsimp only | apply InTail.update

theorem txDrain_inTail (l : List TxItem) (h : InTail s) : InTail (s.txDrain l).1 := by
  induction l generalizing s with
  | nil => exact h
  | cons x r ih =>
    unfold State.txDrain
    split
    · exact ih (txLeave_inTail _ h)
    · exact .foldl (fun _ l hs => txHold_inTail l hs) _ h

theorem setNow_inTail (addr data mask) (h : InTail s) : InTail (s.setNow addr data mask) := by
  unfold State.setNow
  with_reducible repeat' first | assumption | apply wr_inTail | rfl | split | dsimp only | apply InTail.update

theorem free_inTail (h : InTail s) : InTail s.free.2 := h

theorem txSend_inTail (l front l') (h : InTail s) : InTail (s.txSend l front l') := by
  unfold State.txSend State.txPump
  with_reducible repeat' first | assumption | apply txDrain_inTail | apply wf_inTail | apply InTail.ite | rfl | dsimp only | apply InTail.update

theorem schedule_inTail (m t addr data mask lateOk) (h : InTail s) : InTail (s.schedule m t addr data mask lateOk).2 :=
  .ite2 (h.update rfl) h

theorem setHearth_inTail (g x) (h : InTail s) : InTail (s.setHearth g x) := h

theorem faultAt_inTail (g code pc) (h : InTail s) : InTail (s.faultAt g code pc) := wr_inTail _ _ (setHearth_inTail _ _ h)

theorem tramWrite_inTail (i v) (h : InTail s) : InTail (s.tramWrite i v) := wr_inTail _ _ h

theorem freeWords_inTail (n) (h : InTail s) : InTail (s.freeWords n).2 := by
  induction n generalizing s with
  | zero => exact h
  | succ n ih => exact ih (free_inTail h)

theorem prpFrame_inTail (k vals head data) (h : InTail s) : InTail (s.prpFrame k vals head data).2 := h

/-! ### Gap records (R454) -/

theorem gapMarks_inTail (g) (h : InTail s) : InTail (s.gapMarks g) := h

theorem mirror_inTail (rtype data) (h : InTail s) : InTail (s.mirror rtype data) := by
  unfold State.mirror State.mirrorSend State.slateSend
  with_reducible repeat' first | assumption | apply txSend_inTail | apply InTail.ite | rfl | dsimp only | apply InTail.update

theorem gapHeld_inTail (g) (h : InTail s) : InTail (s.gapHeld g) := by
  have hmarks := gapMarks_inTail g h
  unfold State.gapHeld
  dsimp only
  split
  · split
    · exact hmarks.update rfl
    · exact hmarks.update rfl
  · split
    · exact hmarks.update rfl
    · exact .ite (emit_inTail _ _ _ (hmarks.update rfl)) (hmarks.update rfl)

theorem gap_inTail (g) (h : InTail s) : InTail (s.gap g) := by
  unfold State.gap State.gapGpe State.gpeAwait State.setGpe
  with_reducible repeat' first | assumption | apply gapHeld_inTail | apply InTail.ite | rfl | dsimp only | apply InTail.update

/-! ### Front ends and converters -/

theorem envExceeded_inTail (c addr master) (h : InTail s) : InTail (s.envExceeded c addr master) := emit_inTail _ _ _ h

theorem cmReset_inTail (c) (h : InTail s) : InTail (s.cmReset c) := h

theorem corrStart_inTail (c) (h : InTail s) : InTail (s.corrStart c) := h

theorem sessConfig_inTail (l) (h : InTail s) : InTail (s.sessConfig l) := h

theorem calRefresh_inTail (c t') (h : InTail s) : InTail (s.calRefresh c t') := by
  unfold State.calRefresh State.wfs
  with_reducible repeat' first | assumption | apply wb_inTail | apply wf_inTail | apply InTail.ite | rfl | split | dsimp only | apply InTail.update

theorem settle_inTail (c ns) (h : InTail s) : InTail (s.settle c ns) := by
  unfold State.settle State.cmClear
  with_reducible repeat' first
    | assumption | apply cmReset_inTail | apply wf_inTail | apply emit_inTail | apply InTail.ite | rfl | dsimp only | apply InTail.update

theorem cfgTaken_inTail (c old new) (h : InTail s) : InTail (s.cfgTaken c old new) := by
  unfold State.cfgTaken
  with_reducible repeat' first
    | assumption | apply sessConfig_inTail | apply settle_inTail | apply corrStart_inTail | apply wr_inTail | apply wf_inTail
    | apply calRefresh_inTail | apply InTail.ite | rfl | dsimp only | apply InTail.update

theorem setVisit_inTail (n x) (h : InTail s) : InTail (s.setVisit n x) := h

theorem visitResult_inTail (n r) (h : InTail s) : InTail (s.visitResult n r) := wf_inTail _ _ h

theorem scanTaken_inTail (d old new) (h : InTail s) : InTail (s.scanTaken d old new) := by
  unfold State.scanTaken State.setDuty State.visitDoubt State.endVisit State.coreState
  with_reducible repeat' first
    | assumption | apply sessConfig_inTail | apply setVisit_inTail | apply visitResult_inTail | apply wf_inTail | apply InTail.ite | rfl | split
    | dsimp only | apply InTail.update

theorem visitWrite_inTail (n w) (h : InTail s) : InTail (s.visitWrite n w) := by
  unfold State.visitWrite State.request State.visitCancel State.unrequest
  with_reducible repeat' first
    | assumption | apply wf_inTail | apply setVisit_inTail | apply visitResult_inTail | apply InTail.ite | rfl | split | dsimp only
    | apply InTail.update

/-! ### Charcoal -/

theorem setPath_inTail (c p) (h : InTail s) : InTail (s.setPath c p) := h

theorem showRho_inTail (c) (h : InTail s) : InTail (s.showRho c) := wf_inTail _ _ h

theorem gdChange_inTail (c) (h : InTail s) : InTail (s.gdChange c) := emit_inTail _ _ _ (showRho_inTail _ h)

theorem chrRes_inTail (code detail) (h : InTail s) : InTail (s.chrRes code detail) := wf_inTail _ _ (wf_inTail _ _ h)

theorem chrTaken_inTail (c o oldRate) (h : InTail s) : InTail (s.chrTaken c o oldRate) := by
  unfold State.chrTaken State.envZero State.delayStep State.delayGap
  with_reducible repeat' first
    | assumption | apply setPath_inTail | apply wb_inTail | apply gdChange_inTail | apply showRho_inTail | apply gap_inTail | apply gapHeld_inTail
    | apply InTail.ite | rfl | split | dsimp only | apply InTail.update

/-! ### The cell pool -/

theorem takeCells_inTail (have' n) (h : InTail s) : InTail (s.takeCells have' n).2 := by
  unfold State.takeCells
  with_reducible repeat' first | assumption | apply wf_inTail | rfl | split | dsimp only | apply InTail.update

theorem showDepth_inTail (q) (h : InTail s) : InTail (s.showDepth q) := wb_inTail _ _ (wf_inTail _ _ h)

theorem showQueue_inTail (q rise) (h : InTail s) : InTail (s.showQueue q rise) := by
  unfold State.showQueue
  with_reducible repeat' first | assumption | apply showDepth_inTail | apply emit_inTail | apply wr_inTail | apply wf_inTail | apply InTail.ite

theorem setQueue_inTail (q x) (h : InTail s) : InTail (s.setQueue q x) := h

theorem flushDone_inTail (q) (h : InTail s) : InTail (s.flushDone q) := by
  unfold State.flushDone
  with_reducible repeat' first | assumption | apply setQueue_inTail | apply wf_inTail | apply emit_inTail | apply InTail.ite | split | dsimp only

theorem giveCells_inTail (l) (h : InTail s) : InTail (s.giveCells l) := wf_inTail _ _ h

theorem showFull_inTail (h : InTail s) : InTail s.showFull := by
  unfold State.showFull
  with_reducible repeat' first | assumption | apply emit_inTail | apply wf_inTail | apply InTail.ite

theorem freeItem_inTail (q id) (h : InTail s) : InTail (s.freeItem q id) := by
  unfold State.freeItem
  with_reducible repeat' first
    | assumption | apply setQueue_inTail | apply wf_inTail | apply giveCells_inTail | apply showQueue_inTail | apply showFull_inTail | split
    | dsimp only

theorem itemGaps_inTail (q cause i) (h : InTail s) : InTail (s.itemGaps q cause i) := by
  unfold State.itemGaps State.rangeGap State.gpeInQueue State.groupGap
  with_reducible repeat' first
    | assumption | intro _ | apply gap_inTail | apply setQueue_inTail | apply InTail.ite | rfl | apply InTail.foldl | split | dsimp only
    | apply InTail.update

theorem flushQueue_inTail (q force) (h : InTail s) : InTail (s.flushQueue q force) := by
  unfold State.flushQueue State.xferDone
  with_reducible repeat' first
    | assumption | intro _ | apply itemGaps_inTail | apply freeItem_inTail | apply setQueue_inTail | apply giveCells_inTail | apply wf_inTail
    | apply flushDone_inTail | apply showDepth_inTail | apply showFull_inTail | apply InTail.ite | rfl | apply InTail.foldl | dsimp only
    | apply InTail.update

/-! ### Remote channels and partners -/

theorem nextCseq_inTail (h : InTail s) : InTail s.nextCseq.2 := h

theorem sendCommand_inTail (lane pos cseq op ch tick arg0 arg1) (h : InTail s) : InTail (s.sendCommand lane pos cseq op ch tick arg0 arg1) := by
  unfold State.sendCommand State.nodeFrame State.frameSend State.laneOut
  with_reducible repeat' first | assumption | apply txSend_inTail | apply free_inTail | rfl | dsimp only | apply InTail.update

theorem nodeCfg_inTail (x serial state tick base) (h : InTail s) : InTail (s.nodeCfg x serial state tick base) := mirror_inTail _ _ h

theorem command_inTail (x t') (h : InTail s) : InTail (s.command x t') := by
  unfold State.command State.setSlot
  with_reducible repeat' first
    | assumption | apply nextCseq_inTail | apply sendCommand_inTail | apply wr_inTail | apply wf_inTail | apply InTail.ite | rfl | split
    | dsimp only | apply InTail.update

theorem change_inTail (x serial) (h : InTail s) : InTail (s.change x serial) := by
  unfold State.change State.sendChange
  with_reducible repeat' first
    | assumption | apply nodeCfg_inTail | apply emit_inTail | apply command_inTail | apply InTail.ite | rfl | dsimp only | apply InTail.update

theorem offerAll_inTail (h : InTail s) : InTail s.offerAll := by
  unfold State.offerAll State.offer State.refuse State.setPartner
  with_reducible repeat' first
    | assumption | intro _ | apply change_inTail | apply envExceeded_inTail | apply nextCseq_inTail | apply sendCommand_inTail | apply wf_inTail
    | apply InTail.ite | rfl | apply InTail.foldl | split | dsimp only | apply InTail.update

/-! ### Kindling -/

theorem setTrig_inTail (u x) (h : InTail s) : InTail (s.setTrig u x) := h

theorem nextSseq_inTail (h : InTail s) : InTail s.nextSseq.2 := h

theorem trigSend_inTail (k vals body) (h : InTail s) : InTail (s.trigSend k vals body) := by
  unfold State.trigSend State.uplinkSend State.udpFrame
  with_reducible repeat' first | assumption | apply txSend_inTail | apply freeWords_inTail | apply prpFrame_inTail | apply InTail.ite

theorem sendArm_inTail (u tick op) (h : InTail s) : InTail (s.sendArm u tick op) := nextSseq_inTail (trigSend_inTail _ _ _ h)

theorem toTrig_inTail (u st) (h : InTail s) : InTail (s.toTrig u st) := by
  unfold State.toTrig State.mirrorTrig
  with_reducible repeat' first | assumption | apply wf_inTail | apply mirror_inTail | apply InTail.ite

theorem skewApply_inTail (h : InTail s) : InTail s.skewApply := by
  unfold State.skewApply
  with_reducible repeat' first | assumption | apply InTail.ite | rfl | dsimp only | apply InTail.update

theorem skewStart_inTail (h : InTail s) : InTail s.skewStart := by
  unfold State.skewStart
  with_reducible repeat' first | assumption | apply wf_inTail | apply InTail.ite | rfl | dsimp only | apply InTail.update

theorem trigCmd_inTail (m u w) (h : InTail s) : InTail (s.trigCmd m u w) := by
  unfold State.trigCmd State.disarmCmd State.armCmd State.trigRes
  with_reducible repeat' first
    | assumption | apply setTrig_inTail | apply sendArm_inTail | apply emit_inTail | apply schedule_inTail | apply toTrig_inTail | apply wf_inTail
    | apply InTail.ite

/-! ### Settings that land (R582) -/

theorem unwritten_inTail (a) (h : InTail s) : InTail (s.unwritten a) := wr_inTail _ _ h

theorem landCfg_inTail (c a m) {f : State → State} (hf : InTail (f s)) : InTail (s.landCfg c a m f) := by
  unfold State.landCfg
  with_reducible repeat' first
    | assumption | apply cfgTaken_inTail | apply setNow_inTail | apply emit_inTail | apply InTail.ite | rfl | split | dsimp only
    | apply InTail.update

theorem landPath_inTail (c a) {f : State → State} (h : InTail s) (hf : InTail (f s)) : InTail (s.landPath c a f) :=
  .ite (chrTaken_inTail _ _ _ hf) (emit_inTail _ _ _ (unwritten_inTail _ h))

theorem land_inTail (a m) {f : State → State} (h : InTail s) (hf : InTail (f s)) : InTail (s.land a m f) := by
  unfold State.land State.linTaken State.exTaken State.showRhos State.detTaken State.condTaken State.driverSet State.setDet State.setCond State.rampTo
  with_reducible repeat' first
    | assumption | intro _ | apply landCfg_inTail | apply cmReset_inTail | apply gdChange_inTail | apply scanTaken_inTail | apply showRho_inTail
    | apply landPath_inTail | apply wf_inTail | apply sessConfig_inTail | apply emit_inTail | apply fenceHit_inTail | apply wb_inTail
    | apply InTail.ite | rfl | apply InTail.foldl | split | dsimp only | apply InTail.update

/-! ### Press -/

/-- A copy that a queue refuses leaves no state, and so the Briquette is written as a whole or not at all. -/
theorem writeBriq_inTail {x t} (e : s.writeBriq x = some t) (h : InTail s) : InTail t := by
  unfold State.writeBriq at e
  dsimp only at e
  generalize briqWords _ _ x = ws at e
  revert e
  generalize x.copies = l
  induction l generalizing s with
  | nil => intro e; cases e; exact h
  | cons c r ih =>
    intro e
    rw [List.foldl_cons] at e
    dsimp only at e
    by_cases hr : s.refuses c.1 0 ws.length
    · rw [if_pos hr] at e
      exfalso; clear ih h
      induction r with
      | nil => cases e
      | cons _ _ ih => exact ih e
    · rw [if_neg hr] at e
      exact ih (setQueue_inTail _ _ (takeCells_inTail _ _ h)) e

theorem pressPump_inTail (h : InTail s) : InTail s.pressPump := by
  unfold State.pressPump State.showPress State.pumpInf State.pumpOut
  with_reducible repeat' first
    | assumption | intro _ | apply wf_inTail | (refine writeBriq_inTail (by assumption) ?_) | apply InTail.ite | rfl | apply InTail.foldl | split
    | dsimp only | apply InTail.update

theorem pressCfg_inTail (q out w) (h : InTail s) : InTail (s.pressCfg q out w) := by
  unfold State.pressCfg State.closeQueueCtx State.closeCtx
  with_reducible repeat' first
    | assumption | apply emit_inTail | apply wr_inTail | apply pressPump_inTail | apply InTail.ite | rfl | split | dsimp only
    | apply InTail.update

/-! ### Uplinks -/

theorem launchResult_inTail (m code k) (h : InTail s) : InTail (s.launchResult m code k) := wf_inTail _ _ (wf_inTail _ _ h)

theorem setLslot_inTail (k x) (h : InTail s) : InTail (s.setLslot k x) := h

theorem showUplinks_inTail (h : InTail s) : InTail s.showUplinks := by
  unfold State.showUplinks
  with_reducible repeat' first | assumption | apply emit_inTail | apply wb_inTail | apply InTail.ite | rfl | dsimp only | apply InTail.update

theorem portCfg_inTail (u w) (h : InTail s) : InTail (s.portCfg u w) := by
  unfold State.portCfg State.domReset State.domRelease
  with_reducible repeat' first | assumption | apply wr_inTail | apply showUplinks_inTail | apply emit_inTail | apply InTail.ite

theorem launchCommit_inTail (m lateOk cancel) (h : InTail s) : InTail (s.launchCommit m lateOk cancel) := by
  unfold State.launchCommit
  with_reducible repeat' first | assumption | apply launchResult_inTail | apply setLslot_inTail | apply InTail.ite | split

theorem streamWrite_inTail (m w master) (h : InTail s) : InTail (s.streamWrite m w master) := by
  unfold State.streamWrite
  with_reducible repeat' first | assumption | apply emit_inTail | apply showUplinks_inTail | apply wr_inTail | apply InTail.ite

theorem groupJoin_inTail (h : InTail s) : InTail s.groupJoin := by
  unfold State.groupJoin State.stackSend
  with_reducible repeat' first | assumption | apply prpFrame_inTail | apply txSend_inTail | apply InTail.ite | rfl | dsimp only | apply InTail.update

/-! ### A write at its block -/

theorem store_inTail (x w) (h : InTail s) : InTail (s.store x w) := by
  unfold State.store State.landNow
  with_reducible repeat' first
    | assumption | apply hold_inTail | apply wr_inTail | apply land_inTail | apply setNow_inTail | apply InTail.ite | rfl | split | dsimp only
    | apply InTail.update

theorem wrGpio_inTail (x) (h : InTail s) : InTail (s.wrGpio x) := by
  unfold State.wrGpio
  with_reducible repeat' first | assumption | apply wr_inTail | apply store_inTail | apply InTail.ite

theorem wrUpl_inTail (x) (h : InTail s) : InTail (s.wrUpl x) := by
  unfold State.wrUpl State.streamPort State.uplinkQueue State.launchCmd State.launchCancel
  with_reducible repeat' first
    | assumption | apply showUplinks_inTail | apply store_inTail | apply groupJoin_inTail | apply portCfg_inTail | apply streamWrite_inTail
    | apply emit_inTail | apply wr_inTail | apply launchCommit_inTail | apply launchResult_inTail | apply setLslot_inTail | apply InTail.ite
    | split

theorem storeEnv_inTail (x w l) (h : InTail s) : InTail (s.storeEnv x w l) := by
  unfold State.storeEnv
  with_reducible repeat' first | assumption | apply envExceeded_inTail | apply store_inTail | split

theorem wrCnv_inTail (x) (h : InTail s) : InTail (s.wrCnv x) := by
  unfold State.wrCnv State.wrScan
  with_reducible repeat' first
    | assumption | apply visitWrite_inTail | apply store_inTail | apply emit_inTail | apply storeEnv_inTail | apply InTail.ite

theorem wrKnd_inTail (x) (h : InTail s) : InTail (s.wrKnd x) := by
  unfold State.wrKnd State.skewCmd State.skewStop State.skewSet
  with_reducible repeat' first
    | assumption | intro _ | apply trigCmd_inTail | apply emit_inTail | apply store_inTail | apply skewApply_inTail | apply skewStart_inTail
    | apply wf_inTail | apply command_inTail | apply nodeCfg_inTail | apply InTail.ite | rfl | apply InTail.foldl | split | dsimp only
    | apply InTail.update

theorem wrPtn_inTail (x) (h : InTail s) : InTail (s.wrPtn x) := by
  unfold State.wrPtn State.ptnCtrl State.ptnTake State.slotSet State.searchedAll State.becomeSteward
  with_reducible repeat' first
    | assumption | intro _ | apply store_inTail | apply wb_inTail | apply wr_inTail | apply emit_inTail | apply envExceeded_inTail
    | apply change_inTail | apply wf_inTail | apply nextCseq_inTail | apply sendCommand_inTail | apply offerAll_inTail | apply mirror_inTail
    | apply InTail.ite | rfl | apply InTail.foldl | dsimp only | apply InTail.update

theorem wrEdg_inTail (x) (h : InTail s) : InTail (s.wrEdg x) := by
  unfold State.wrEdg
  with_reducible repeat' first | assumption | apply emit_inTail | apply store_inTail | apply InTail.ite

theorem wrQmg_inTail (x) (h : InTail s) : InTail (s.wrQmg x) := by
  unfold State.wrQmg State.wrQueue State.winBind State.histSet State.disableQueue State.setWin
  with_reducible repeat' first
    | assumption | intro _ | apply emit_inTail | apply flushQueue_inTail | apply store_inTail | apply wr_inTail | apply freeItem_inTail
    | apply wf_inTail | apply InTail.ite | rfl | apply InTail.foldl | split | dsimp only | apply InTail.update

/-! ### Windows and errors of the bus -/

theorem umbAbsent_inTail (h : InTail s) : InTail s.umbAbsent := by
  unfold State.umbAbsent
  with_reducible repeat' first | assumption | apply emit_inTail | apply InTail.ite | rfl | dsimp only | apply InTail.update

theorem wrAfe_inTail (x) (h : InTail s) : InTail (s.wrAfe x) := by
  unfold State.wrAfe State.wrAfeCfg State.utSelect
  with_reducible repeat' first
    | assumption | apply store_inTail | apply emit_inTail | apply storeEnv_inTail | apply hold_inTail | apply InTail.ite | split

theorem wrWindow_inTail (m a data mask) (h : InTail s) : InTail (s.wrWindow m a data mask) := by
  unfold State.wrWindow State.chrBankWrite
  with_reducible repeat' first | assumption | apply tramWrite_inTail | apply emit_inTail | apply wr_inTail | apply InTail.ite

theorem wrChr_inTail (x) (h : InTail s) : InTail (s.wrChr x) := by
  unfold State.wrChr State.chrCtrl State.chrSwapRequest State.wrPath State.wrDet State.chrEdit State.chrSeal State.chrSwapDecide
  with_reducible repeat' first
    | assumption | intro _ | apply store_inTail | apply wf_inTail | apply emit_inTail | apply storeEnv_inTail | apply chrRes_inTail
    | apply bump_inTail | apply bumpWrap_inTail | apply gdChange_inTail | apply InTail.ite | rfl | apply InTail.foldl | split | dsimp only
    | apply InTail.update

theorem busError_inTail (m a write) (h : InTail s) : InTail (s.busError m a write) := by
  unfold State.busError
  with_reducible repeat' first | assumption | apply wr_inTail | apply emitFrom_inTail | apply InTail.ite | rfl | dsimp only | apply InTail.update

/-! ### Posted entries -/

theorem postRoute_inTail (h' pc c q) (h : InTail s) : InTail (s.postRoute h' pc c q) := by
  unfold State.postRoute
  with_reducible repeat' first | assumption | apply faultAt_inTail | apply InTail.ite | rfl | dsimp only | apply InTail.update

theorem postEnq_inTail (h' pc q v eop) (h : InTail s) : InTail (s.postEnq h' pc q v eop) := by
  unfold State.postEnq State.putWord State.dropMarked State.link
  with_reducible repeat' first
    | assumption | apply faultAt_inTail | apply setQueue_inTail | apply bump_inTail | apply giveCells_inTail | apply flushDone_inTail
    | apply takeCells_inTail | apply showQueue_inTail | apply bumpWrap_inTail | apply InTail.ite | apply InTail.ite2 | split | dsimp only

theorem postFire_inTail (h' pc u c i mode) (h : InTail s) : InTail (s.postFire h' pc u c i mode) := by
  unfold State.postFire State.fire State.ignore State.sendFire
  with_reducible repeat' first
    | assumption | apply faultAt_inTail | apply setTrig_inTail | apply toTrig_inTail | apply bump_inTail | apply nextSseq_inTail
    | apply trigSend_inTail | apply InTail.ite | split

theorem postPins_inTail (h' pc m v o) (h : InTail s) : InTail (s.postPins h' pc m v o) := by
  unfold State.postPins
  with_reducible repeat' first | assumption | apply faultAt_inTail | apply InTail.ite | rfl | dsimp only | apply InTail.update

theorem postSpix_inTail (h' pc d m) (h : InTail s) : InTail (s.postSpix h' pc d m) := by
  unfold State.postSpix State.tramCount
  with_reducible repeat' first
    | assumption | intro _ | apply faultAt_inTail | apply tramWrite_inTail | apply bump_inTail | apply InTail.ite | rfl | apply InTail.forNat
    | dsimp only | apply InTail.update

theorem postSig_inTail (h' pc imm) (h : InTail s) : InTail (s.postSig h' pc imm) := by
  unfold State.postSig
  with_reducible repeat' first | assumption | apply faultAt_inTail | apply emit_inTail | apply setHearth_inTail | apply InTail.ite

end Sys2Proof.Machine
end

section
/-!
PROOFS. The tail guard and the start of a tick (R41, R42, R57, R60): what they do to each hearth.
-/
namespace Sys2Proof.Machine

open Sys2Proof

/-! ### Writes through the helper ports stay in their blocks (R71, R537) -/

/-- The codes of the blocks that the helper ports name. -/
def portCodes : List Nat := [0x04, 0x05, 0x07, 0x09, 0x0B, 0x0C, 0x0D, 0x0F, 0x11, 0x12]

theorem port_rows : ∀ k ∈ portCodes, ∀ r ∈ blockRows (0x100000 * k), blockOf r.base = k := by decide

theorem blockRows_of_block {a k : Nat} (hk : 0 < k) (ha : a / 0x100000 = k) : blockRows a = blockRows (0x100000 * k) := by
  have hbase : 0x100000 * k / 0x100000 = k := Nat.mul_div_cancel_left k (by decide)
  unfold blockRows
  rw [if_neg (by omega), if_neg (by omega), ha, hbase]

theorem portBlock_in_block (p : Nat) :
    (portBlock p).1 / 0x100000 ∈ portCodes ∧ (portBlock p).1 % 0x100000 = 0 ∧ (portBlock p).2 ≤ 0xFFFFF := by
  unfold portBlock
  split <;> decide

/-- A register inside the span of a helper port belongs to the port's block. -/
theorem blockOf_port_row {p off i : Nat} {r : RegRow} (hoff : off ≤ (portBlock p).2) (hr : rowOf ((portBlock p).1 + off) = some (r, i)) :
    blockOf r.base ∈ portCodes := by
  obtain ⟨hk, hbase, hspan⟩ := portBlock_in_block p
  have hcodes : ∀ k ∈ portCodes, 0 < k ∧ k ≤ 0x12 := by decide
  obtain ⟨hpos, hle⟩ := hcodes _ hk
  have hblock : ((portBlock p).1 + off) / 0x100000 = (portBlock p).1 / 0x100000 := by omega
  rw [rowOf, Nat.mod_eq_of_lt (by omega)] at hr
  have hmem := findRow_mem hr
  rw [blockRows_of_block hpos hblock] at hmem
  exact port_rows _ hk r hmem ▸ hk

theorem wrBlock_inTail {s : State} {x : Wr} (hx : blockOf x.base ∈ portCodes) (h : InTail s) : InTail (s.wrBlock x) := by
  have hnot (k : Nat) (hk : k ∉ portCodes) : blockOf x.base ≠ k := fun e => hk (e ▸ hx)
  unfold State.wrBlock
  split
  case h_3 => exact wrAfe_inTail x h
  case h_4 => exact wrCnv_inTail x h
  case h_6 => exact wrChr_inTail x h
  case h_8 => exact wrPtn_inTail x h
  case h_10 => exact wrEdg_inTail x h
  case h_11 => exact wrKnd_inTail x h
  case h_12 => exact wrQmg_inTail x h
  case h_14 => exact .ite (pressCfg_inTail _ _ _ h) (.ite (pressCfg_inTail _ _ _ h) (store_inTail _ _ h))
  case h_16 => exact wrUpl_inTail x h
  case h_17 => exact wrGpio_inTail x h
  case h_19 => exact store_inTail _ _ h
  all_goals exact absurd ‹blockOf x.base = _› (hnot _ (by decide))

theorem busWrite_inTail {s : State} {a : Nat} (ha : ∀ r i, rowOf a = some (r, i) → blockOf r.base ∈ portCodes) (m : Nat) (data mask : Word)
    (due : Option Nat) (h : InTail s) : InTail (s.busWrite m a data mask due) := by
  unfold State.busWrite
  refine .ite h (.ite (busError_inTail _ _ _ h) (.ite (umbAbsent_inTail h) ?_))
  split
  next => exact wrWindow_inTail _ _ _ _ h
  next r i hr => exact wrBlock_inTail (ha r i hr) (.ite (emitFrom_inTail _ _ _ _ h) (.ite (emitFrom_inTail _ _ _ _ h) h))

theorem portWrite_inTail {s : State} (h' pc p off : Nat) (data : Word) (h : InTail s) : InTail (s.portWrite h' pc p off data) := by
  unfold State.portWrite
  split
  next => exact faultAt_inTail _ _ _ h
  next hf =>
    have hoff : off ≤ (portBlock p).2 := by
      by_contra hout
      rw [portFault_beyond (Nat.lt_of_not_le hout)] at hf
      exact absurd hf (by simp)
    have hwrite := busWrite_inTail (fun r i hr => blockOf_port_row hoff hr) (5 + h') data 0xFFFFFFFF#32 (some s.nextDue) h
    exact .ite (faultAt_inTail _ _ _ hwrite) hwrite

theorem drainOne_inTail {s : State} (h' : Nat) (h : InTail s) : InTail (s.drainOne h') := by
  unfold State.drainOne
  split
  next => exact h
  next e r _ =>
    have hpop : InTail (s.setHearth h' { s.hearth h' with posted := r }) := setHearth_inTail _ _ h
    unfold State.postedAct
    split
    · exact portWrite_inTail _ _ _ _ _ hpop
    · exact postRoute_inTail _ _ _ _ hpop
    · exact postEnq_inTail _ _ _ _ _ hpop
    · exact postFire_inTail _ _ _ _ _ _ hpop
    · exact postPins_inTail _ _ _ _ _ hpop
    · exact postSpix_inTail _ _ _ _ hpop
    · exact postSig_inTail _ _ _ hpop

/-- What drains in the tail guard leaves the tail guard open: a helper port reaches no register that stops the generator. -/
theorem drainFrom_inTail {s : State} (c : Nat) (h : InTail s) : InTail (s.drainFrom c) :=
  .forNat 64 (fun _ _ hs => drainOne_inTail _ hs) h

theorem hearthShow_inTail {s : State} (g : Nat) (h : InTail s) : InTail (s.hearthShow g) := by
  unfold State.hearthShow
  have hused := peak_inTail (F.KLN_Hn_PEAK_PEAK g) (s.hearth g).used (wf_inTail (F.KLN_Hn_USED_USED g) (s.hearth g).used h)
  have hshown := wf_inTail (F.KLN_Hn_FAULT_PC g) (s.hearth g).faultPc <| wf_inTail (F.KLN_Hn_FAULT_COUNT g) (s.hearth g).faultCount <|
    wf_inTail (F.KLN_Hn_FAULT_CODE g) (s.hearth g).faultCode hused
  exact .ite hshown (.ite (setHearth_inTail _ _ hshown) (emit_inTail _ _ _ (setHearth_inTail _ _ hshown)))

/-! ### Hearths set anew, one after another -/

/-- Hearth `g` is replaced by what `f` makes of it. -/
def State.mapHearth (f : Nat → Hearth → Hearth) (s : State) (g : Nat) : State := s.setHearth g (f g (s.hearth g))

theorem foldl_mapHearth (f : Nat → Hearth → Hearth) {l : List Nat} (hl : l.Nodup) (s : State) (h : Nat) :
    (l.foldl (State.mapHearth f) s).hearth h = if h ∈ l then f h (s.hearth h) else s.hearth h := by
  induction l generalizing s with
  | nil => rfl
  | cons g r ih =>
    obtain ⟨hg, hr⟩ := List.nodup_cons.1 hl
    rw [List.foldl_cons, ih hr]
    unfold State.mapHearth
    by_cases he : h = g
    · subst he
      rw [if_neg hg, if_pos List.mem_cons_self, State.hearth_setHearth_same]
    · rw [State.hearth_setHearth_ne _ _ he]
      simp [he]

/-- What the first instruction of a tick finds zero in a hearth (R60). -/
def Hearth.Cleared (x : Hearth) : Prop :=
  (∀ n, x.kr n = 0#32) ∧ (∀ n, x.ar n = 0#64) ∧ (∀ n, x.fr n = decide (n = 0)) ∧ x.reps = []
    ∧ x.faultCode = 0 ∧ x.faultCount = 0 ∧ x.faultPc = 0 ∧ x.sat = false

/-- A hearth without what it held in the tick before, but for its record of the faults it has shown (R79). -/
def Hearth.renewed (x : Hearth) (running : Bool) (pc : Nat) : Hearth :=
  { hearth0 with running := running, pc := pc, lastFault := x.lastFault, suppressed := x.suppressed }

theorem hearth0_cleared : hearth0.Cleared :=
  ⟨fun _ => ite_self _, fun _ => rfl, fun n => by by_cases hn : n = 0 <;> simp [Hearth.fr, hearth0, hn], rfl, rfl, rfl, rfl, rfl⟩

theorem renewed_cleared (x : Hearth) (running : Bool) (pc : Nat) : (x.renewed running pc).Cleared := hearth0_cleared

theorem inTail_begun (s : State) : InTail { s with tick.inTail := true } := rfl

theorem tailGuard_renews {s : State} (hrun : s.genState = 1) (htail : s.tick.inTail = false) :
    ∃ u, InTail u ∧ s.tailGuard = [0, 1, 2, 3].foldl (State.mapHearth fun _ x => x.renewed false 0) u := by
  have hgo : ¬(s.genState ≠ 1 ∨ s.tick.inTail = true) := by simp [hrun, htail]
  unfold State.tailGuard
  rw [if_neg hgo]
  exact ⟨_, .foldl (fun _ g hs => hearthShow_inTail g hs) _ (drainFrom_inTail _ (inTail_begun _)), rfl⟩

theorem kilnStart_renews {s : State} (hrun : s.genState = 1) (hstarted : s.kiln.started = false) (htail : s.tick.inTail = false)
    (hbank : s.bankValid = true) : s.kilnStart
      = { [0, 1, 2, 3].foldl (State.mapHearth fun h x => x.renewed true ((s.bank s.activeBank).entry.getD h 0)) (s.atCycle 256) with
          kiln.started := true } := by
  have hgo : ¬(s.genState ≠ 1 ∨ s.kiln.started = true ∨ s.tick.inTail = true ∨ (!s.bankValid) = true) := by
    simp [hrun, hstarted, htail, hbank]
  unfold State.kilnStart
  rw [if_neg hgo]
  rfl

theorem kilnStart_idle {s : State} (h : s.genState ≠ 1 ∨ s.bankValid = false) : s.kilnStart = s := by
  have hstay : s.genState ≠ 1 ∨ s.kiln.started = true ∨ s.tick.inTail = true ∨ (!s.bankValid) = true :=
    h.elim .inl fun hb => .inr (.inr (.inr (by rw [hb]; rfl)))
  unfold State.kilnStart
  rw [if_pos hstay]

theorem tailGuard_idle {s : State} (h : s.genState ≠ 1) : s.tailGuard = s := if_pos (.inl h)

end Sys2Proof.Machine
end

section
open Sys2Proof Sys2Proof.Machine

/-- Settles O23: both commands renew the four hearths, and no entry that drains in the tail guard can close it. -/
theorem klnTailGuardClearsHearths : Obligations.KlnTailGuardClearsHearths := by
  unfold Obligations.KlnTailGuardClearsHearths
  have hfour {h : Nat} (hh : h < 4) : h ∈ [0, 1, 2, 3] := by simp; omega
  refine ⟨fun h => hearth0_cleared, fun s => ⟨fun hrun htail => ?_, fun hrun hstarted htail hbank => ?_,
    fun h => congrArg Host.Outcome.next (kilnStart_idle h), fun h => congrArg Host.Outcome.next (tailGuard_idle h)⟩⟩
  · obtain ⟨u, hu, ht⟩ := tailGuard_renews hrun htail
    refine ⟨_, congrArg Host.Outcome.next ht, InTail.foldl (fun _ _ hs => setHearth_inTail _ _ hs) _ hu, fun h hh => ?_⟩
    rw [foldl_mapHearth _ (by decide), if_pos (hfour hh)]
    exact ⟨rfl, renewed_cleared _ _ _⟩
  · refine ⟨_, congrArg Host.Outcome.next (kilnStart_renews hrun hstarted htail hbank), rfl, fun h hh => ?_⟩
    have hset := (foldl_mapHearth (fun h x => x.renewed true ((s.bank s.activeBank).entry.getD h 0)) (by decide : [0, 1, 2, 3].Nodup)
      (s.atCycle 256) h).trans (if_pos (hfour hh))
    have hstarted (u : State) (k : Bool) : ({ u with kiln.started := k } : State).hearth h = u.hearth h := rfl
    rw [hstarted, hset]
    exact ⟨rfl, renewed_cleared _ _ _, rfl, rfl⟩

end

section
/-!
PROOFS. Kiln's loader (R113 to R118): the registers of a bank and of a load, the commands that begin, fill and abandon a load, and the checks
of an image.
-/
namespace Sys2Proof.Machine

open Sys2Proof

theorem f_of_rd {s t : State} {x : RegField} (h : t.rd x.addr = s.rd x.addr) : t.f x = s.f x := by
  unfold State.f
  rw [h]

theorem masterCode_lt (m : Master) : masterCode m < 16 := by cases m <;> decide

/-! ### The state of a bank and its contents (R113) -/

theorem bankStateF_addr (b : Nat) : (bankStateF b).addr = Reg.KLN_BANK_STAT := by
  unfold bankStateF
  split <;> rfl

theorem bankStateF_ok (b : Nat) : fieldOk (bankStateF b) := by
  unfold bankStateF
  split <;> exact ⟨by decide, by decide⟩

theorem bankState_of_rd {s t : State} (h : t.rd Reg.KLN_BANK_STAT = s.rd Reg.KLN_BANK_STAT) (b : Nat) : t.bankState b = s.bankState b :=
  f_of_rd (by rw [bankStateF_addr, h])

theorem bankState_wf_same (s : State) (b : Nat) {v : Nat} (hv : v < 16) : (s.wf (bankStateF b) v).bankState b = v := by
  unfold State.bankState
  rw [State.f_wf_same s (bankStateF_ok b)]
  unfold bankStateF
  split <;> exact Nat.mod_eq_of_lt hv

theorem bankState_wf_ne (s : State) {x : RegField} (h : x.addr ≠ Reg.KLN_BANK_STAT) (v b : Nat) : (s.wf x v).bankState b = s.bankState b :=
  bankState_of_rd (State.rd_wf_ne s v h.symm) b

theorem bankState_emit (s : State) (n : EvName) (o : Nat) (d : List Int) (b : Nat) : (s.emit n o d).bankState b = s.bankState b :=
  bankState_of_rd (rd_emit s n o d (by decide)) b

theorem bank_of_kiln {s t : State} (h : t.kiln = s.kiln) (b : Nat) : t.bank b = s.bank b := by
  unfold State.bank
  rw [h]

@[simp] theorem bank_setBank_same (s : State) (b : Nat) (x : KBank) : (s.setBank b x).bank b = x := tabGet_tabSet_same ..

/-! ### A bank that loses its contents -/

/-- Below the record of the banks, a bank that loses its contents and record writes its state alone. -/
theorem rd_wipeBank (s : State) (b st : Nat) {a : Nat} (h : a < 0x100240) : (s.wipeBank b st).rd a = (s.wf (bankStateF b) st).rd a := by
  have hid : a ≠ Reg.KLN_Bb_ID b := by unfold Reg.KLN_Bb_ID; omega
  have hrate : a ≠ Reg.KLN_Bb_RATE b := by unfold Reg.KLN_Bb_RATE; omega
  have hdecl (n : Nat) : a ≠ Reg.KLN_Bb_DECLn b n := by unfold Reg.KLN_Bb_DECLn; omega
  have hcomp (n : Nat) : a ≠ Reg.KLN_Bb_COMPn b n := by unfold Reg.KLN_Bb_COMPn; omega
  unfold State.wipeBank forNat
  rw [foldl_keeps (fun t => t.rd a) fun t n => (State.rd_wr_ne _ _ (hcomp n)).trans (State.rd_wr_ne t _ (hdecl n)),
    State.rd_wr_ne _ _ hrate, State.rd_wr_ne _ _ hid]
  rfl

theorem wipeBank_bankState (s : State) (b : Nat) {st : Nat} (h : st < 16) : (s.wipeBank b st).bankState b = st :=
  (bankState_of_rd (rd_wipeBank s b st (by decide)) b).trans (bankState_wf_same s b h)

theorem wipeBank_kiln (s : State) (b st : Nat) : (s.wipeBank b st).kiln = (s.setBank b bank0).kiln := rfl

@[simp] theorem wipeBank_hub (s : State) (b st : Nat) : (s.wipeBank b st).hub = s.hub := rfl

theorem wipeBank_loaded (s : State) (b st : Nat) : ((s.wipeBank b st).bank b).loaded = false := by
  rw [bank_of_kiln (wipeBank_kiln s b st), bank_setBank_same]
  rfl

/-! ### The status of a load (R115) -/

theorem loading_iff (s : State) : s.loading = true ↔ s.f F.KLN_LOAD_STAT_PHASE = 1 ∨ s.f F.KLN_LOAD_STAT_PHASE = 2 := by
  simp [State.loading, State.loadPhase]

theorem loading_eq_false {s : State} (h : ¬(s.f F.KLN_LOAD_STAT_PHASE = 1 ∨ s.f F.KLN_LOAD_STAT_PHASE = 2)) : s.loading = false :=
  Bool.eq_false_iff.2 (mt (loading_iff s).1 h)

section LoadEnd
variable (s : State) (code : Nat) (detail : Word)

/-- The words received are dropped. -/
def State.imageDropped (s : State) : State := { s with kiln.image := [] }

@[simp] theorem rd_imageDropped (a : Nat) : s.imageDropped.rd a = s.rd a := rfl
@[simp] theorem f_imageDropped (x : RegField) : s.imageDropped.f x = s.f x := rfl
@[simp] theorem bank_imageDropped (b : Nat) : s.imageDropped.bank b = s.bank b := rfl
@[simp] theorem hub_imageDropped : s.imageDropped.hub = s.hub := rfl
@[simp] theorem image_imageDropped : s.imageDropped.kiln.image = [] := rfl

theorem loadEnd_eq : s.loadEnd code detail
    = (((s.wf F.KLN_LOAD_STAT_PHASE 3).wf F.KLN_LOAD_STAT_CODE code).wr Reg.KLN_LOAD_DETAIL detail).imageDropped := rfl

theorem loadEnd_phase : (s.loadEnd code detail).f F.KLN_LOAD_STAT_PHASE = 3 := by
  rw [loadEnd_eq, f_imageDropped, State.f_wr_ne _ _ (by decide), State.f_wf_ne _ ⟨by decide, by decide⟩ (.inr (.inr (by decide))),
    State.f_wf_same _ ⟨by decide, by decide⟩]
  rfl

theorem loadEnd_code : (s.loadEnd code detail).f F.KLN_LOAD_STAT_CODE = code % 256 := by
  rw [loadEnd_eq, f_imageDropped, State.f_wr_ne _ _ (by decide), State.f_wf_same _ ⟨by decide, by decide⟩]
  rfl

theorem rd_loadEnd {a : Nat} (hs : a ≠ Reg.KLN_LOAD_STAT) (hd : a ≠ Reg.KLN_LOAD_DETAIL) : (s.loadEnd code detail).rd a = s.rd a := by
  rw [loadEnd_eq, rd_imageDropped, State.rd_wr_ne _ _ hd, State.rd_wf_ne _ _ hs, State.rd_wf_ne _ _ hs]

theorem loadEnd_bankState (b : Nat) : (s.loadEnd code detail).bankState b = s.bankState b :=
  bankState_of_rd (rd_loadEnd s code detail (by decide) (by decide)) b

theorem loadEnd_bank (b : Nat) : (s.loadEnd code detail).bank b = s.bank b := by
  rw [loadEnd_eq, bank_imageDropped, bank_of_kiln (State.wr_kiln ..), bank_of_kiln (State.wf_kiln ..), bank_of_kiln (State.wf_kiln ..)]

@[simp] theorem loadEnd_hub : (s.loadEnd code detail).hub = s.hub := by
  rw [loadEnd_eq, hub_imageDropped, State.wr_hub, State.wf_hub, State.wf_hub]

@[simp] theorem loadEnd_image : (s.loadEnd code detail).kiln.image = [] := by rw [loadEnd_eq, image_imageDropped]

end LoadEnd

/-! ### Commands that are refused or discarded (R114 to R116) -/

/-- The load in progress, its registers and Kiln's state are as before. -/
def State.LoadStands (s t : State) : Prop :=
  t.rd Reg.KLN_LOAD_STAT = s.rd Reg.KLN_LOAD_STAT ∧ t.rd Reg.KLN_LOAD_DETAIL = s.rd Reg.KLN_LOAD_DETAIL ∧ t.kiln = s.kiln

/-- A command that does no more than record an event leaves the load as it stands. -/
theorem loadStands_of_emit {i : Instr} {s : State} {n : EvName} {o : Nat} {d : List Int} (h : exec i s = .next (s.emit n o d)) :
    ∃ t, exec i s = .next t ∧ s.LoadStands t ∧ s.Joins t n o d :=
  ⟨_, h, ⟨rd_emit s n o d (by decide), rd_emit s n o d (by decide), emit_kiln s n o d⟩, emit_joins rfl n o d⟩

/-! ### LOAD_START (R115) -/

section Start
variable {s : State} {m b : Nat}

/-- A load into bank `b` by master `m` has no words yet; the master's stray words are noted anew. -/
def State.imageFor (s : State) (m b : Nat) : State :=
  { s with kiln.image := [], kiln.loadBank := b, kiln.strayNoted := s.kiln.strayNoted.filter (· != m) }

@[simp] theorem f_imageFor (s : State) (m b : Nat) (x : RegField) : (s.imageFor m b).f x = s.f x := rfl
@[simp] theorem bank_imageFor (s : State) (m b c : Nat) : (s.imageFor m b).bank c = s.bank c := rfl
@[simp] theorem hub_imageFor (s : State) (m b : Nat) : (s.imageFor m b).hub = s.hub := rfl
@[simp] theorem image_imageFor (s : State) (m b : Nat) : (s.imageFor m b).kiln.image = [] := rfl
@[simp] theorem loadBank_imageFor (s : State) (m b : Nat) : (s.imageFor m b).kiln.loadBank = b := rfl

/-- The state in which master `m` loads bank `b`. -/
def State.loadBegun (s : State) (m b : Nat) : State :=
  (((s.wipeBank b 1).wf F.KLN_LOAD_STAT_OWNER m).wf F.KLN_LOAD_STAT_PHASE 1).imageFor m b

theorem loadStart_active (h : s.bankState b = 4) : s.loadStart m b false = s.emit .LOAD_START_REFUSED (objMaster m) [0x19] := by
  unfold State.loadStart
  rw [if_neg Bool.false_ne_true, if_pos h]

theorem loadStart_busy (hb : s.bankState b ≠ 4) (hl : s.loading = true) (ho : s.loadOwner ≠ m) :
    s.loadStart m b false = s.emit .LOAD_START_REFUSED (objMaster m) [0x1A] := by
  unfold State.loadStart
  rw [if_neg Bool.false_ne_true, if_neg hb, hl, Bool.true_and, if_pos (bne_iff_ne.2 ho)]

theorem loadStart_idle (hb : s.bankState b ≠ 4) (hl : s.loading = false) : s.loadStart m b false = s.loadBegun m b := by
  unfold State.loadStart
  rw [if_neg Bool.false_ne_true, if_neg hb, hl]
  rfl

theorem loadBegun_bankState : (s.loadBegun m b).bankState b = 1 := by
  unfold State.loadBegun State.bankState
  rw [f_imageFor]
  exact (bankState_wf_ne _ (by decide) _ _).trans ((bankState_wf_ne _ (by decide) _ _).trans (wipeBank_bankState s b (by decide)))

theorem loadBegun_loaded : ((s.loadBegun m b).bank b).loaded = false := by
  unfold State.loadBegun
  rw [bank_imageFor, bank_of_kiln (State.wf_kiln ..), bank_of_kiln (State.wf_kiln ..), wipeBank_loaded]

theorem loadBegun_owner (hm : m < 16) : (s.loadBegun m b).f F.KLN_LOAD_STAT_OWNER = m := by
  unfold State.loadBegun
  rw [f_imageFor, State.f_wf_ne _ ⟨by decide, by decide⟩ (.inr (.inr (by decide))), State.f_wf_same _ ⟨by decide, by decide⟩]
  exact Nat.mod_eq_of_lt hm

theorem loadBegun_phase : (s.loadBegun m b).f F.KLN_LOAD_STAT_PHASE = 1 := by
  unfold State.loadBegun
  rw [f_imageFor, State.f_wf_same _ ⟨by decide, by decide⟩]
  rfl

theorem loadBegun_hub : (s.loadBegun m b).hub = s.hub := by
  unfold State.loadBegun
  rw [hub_imageFor, State.wf_hub, State.wf_hub, wipeBank_hub]

end Start

/-! ### LOAD_ABORT and LOAD_TIMEOUT (R117) -/

section Abandon
variable (s : State) (code : Nat)

theorem loadAbandon_bankState : (s.loadAbandon code).bankState s.kiln.loadBank = 0 := by
  unfold State.loadAbandon
  rw [bankState_emit, loadEnd_bankState, wipeBank_bankState s _ (by decide)]

theorem loadAbandon_loaded : ((s.loadAbandon code).bank s.kiln.loadBank).loaded = false := by
  unfold State.loadAbandon
  rw [bank_of_kiln (emit_kiln ..), loadEnd_bank, wipeBank_loaded]

theorem loadAbandon_phase : (s.loadAbandon code).f F.KLN_LOAD_STAT_PHASE = 3 := by
  unfold State.loadAbandon
  rw [f_emit _ _ _ _ (by decide), loadEnd_phase]

theorem loadAbandon_code {code : Nat} (h : code < 256) : (s.loadAbandon code).f F.KLN_LOAD_STAT_CODE = code := by
  unfold State.loadAbandon
  rw [f_emit _ _ _ _ (by decide), loadEnd_code, Nat.mod_eq_of_lt h]

theorem loadAbandon_joins : s.Joins (s.loadAbandon code) .LOAD_ABANDONED 0 [(code : Int), (s.loadOwner : Int)] :=
  emit_joins (by rw [loadEnd_hub, wipeBank_hub]) _ _ _

end Abandon

theorem loadAbort_owner {s : State} {m : Nat} (hl : s.loading = true) (ho : s.loadOwner = m) : s.loadAbort m = s.loadAbandon 0x1C :=
  if_pos (by rw [hl, ho, Bool.true_and, beq_self_eq_true])

theorem loadAbort_idle {s : State} {m : Nat} (h : ¬(s.loading = true ∧ s.loadOwner = m)) : s.loadAbort m = s :=
  if_neg (by rwa [Bool.and_eq_true, beq_iff_eq])

/-! ### LOAD_DATA (R116) -/

section Data
variable {s : State} {m : Nat} (w : Word)

/-- A word of master `m` outside a load has been noted. -/
def State.strayMarked (s : State) (m : Nat) : State := { s with kiln.strayNoted := m :: s.kiln.strayNoted }

@[simp] theorem hub_strayMarked (s : State) (m : Nat) : (s.strayMarked m).hub = s.hub := rfl

theorem loadData_stray (hl : s.loading = false) (hm : m ∉ s.kiln.strayNoted) :
    s.loadData m w = (s.strayMarked m).emit .BANK_WRITE (objMaster m) [] := by
  unfold State.loadData
  rw [hl, if_pos (by rfl), if_neg (by simpa using hm)]
  rfl

theorem strayMarked_joins (s : State) (m : Nat) : s.Joins ((s.strayMarked m).emit .BANK_WRITE (objMaster m) []) .BANK_WRITE (objMaster m) [] :=
  emit_joins (congrArg HubSt.evq (hub_strayMarked s m)) _ _ _

theorem loadData_stray_noted (hl : s.loading = false) (hm : m ∈ s.kiln.strayNoted) : s.loadData m w = s := by
  unfold State.loadData
  rw [hl, if_pos (by rfl), if_pos (by simpa using hm)]

theorem loadData_foreign (hl : s.loading = true) (ho : s.loadOwner ≠ m) : s.loadData m w = s.emit .BANK_WRITE (objMaster m) [] := by
  unfold State.loadData
  rw [hl, if_neg (by decide), if_pos ho]

theorem loadData_checking (hp : s.loadPhase = 2) (ho : s.loadOwner = m) : s.loadData m w = s.loadRefuse (0x04, some 0) := by
  unfold State.loadData
  rw [(loading_iff s).2 (.inr hp), if_neg (by decide), if_neg (not_not.2 ho), if_pos hp]

/-- The state with the next word of the image received. -/
def State.taken (s : State) (w : Word) : State := { s with kiln.image := s.kiln.image ++ [w] }

/-- The code of the header checks, made at the 16th word. -/
def State.wordCode (s : State) : Nat := if s.kiln.image.length = 16 then s.headerCode else 0

theorem loadData_receiving (hp : s.loadPhase = 1) (ho : s.loadOwner = m) :
    s.loadData m w = if (s.taken w).kiln.image.length < 16 then s.taken w
      else if (s.taken w).wordCode ≠ 0 then (s.taken w).loadRefuse ((s.taken w).wordCode, some 0)
      else if 4 * (s.taken w).kiln.image.length = (s.taken w).imgTotal then
        ((s.taken w).wf F.KLN_LOAD_STAT_PHASE 2).wf (bankStateF (s.taken w).kiln.loadBank) 2
      else s.taken w := by
  unfold State.loadData
  rw [(loading_iff s).2 (.inl hp), if_neg (by decide), if_neg (not_not.2 ho), if_neg (by rw [hp]; decide)]
  rfl

theorem taken_length : (s.taken w).kiln.image.length = s.kiln.image.length + 1 := List.length_append

theorem loadData_early (hp : s.loadPhase = 1) (ho : s.loadOwner = m) (hn : s.kiln.image.length < 15) : s.loadData m w = s.taken w := by
  rw [loadData_receiving w hp ho, if_pos (by rw [taken_length]; omega)]

theorem loadData_bad_header (hp : s.loadPhase = 1) (ho : s.loadOwner = m) (hn : s.kiln.image.length = 15) (hc : (s.taken w).headerCode ≠ 0) :
    s.loadData m w = (s.taken w).loadRefuse ((s.taken w).headerCode, some 0) := by
  have hlen : (s.taken w).kiln.image.length = 16 := (taken_length w).trans (congrArg Nat.succ hn)
  have hcode : (s.taken w).wordCode = (s.taken w).headerCode := if_pos hlen
  rw [loadData_receiving w hp ho, hlen, if_neg (lt_irrefl 16), hcode, if_pos hc]

end Data

end Sys2Proof.Machine
end

section
open Sys2Proof Sys2Proof.Machine

/-- Settles O32: a refused command is its event alone; the others are one begun, filled or abandoned load. -/
theorem loaderCommandsAct : Obligations.LoaderCommandsAct := by
  unfold Obligations.LoaderCommandsAct
  intro s m b
  dsimp only
  refine ⟨loadStands_of_emit rfl, fun hb => loadStands_of_emit (congrArg Host.Outcome.next (loadStart_active hb)), fun hb hl ho => ?_,
    fun hb hl => ?_, fun hl ho _ => ?_, fun h => ?_, fun hp _ => ?_, fun hp => congrArg Host.Outcome.next (if_neg hp), fun w => ⟨?_, ?_, ?_, ?_⟩,
    fun i => loadStands_of_emit rfl⟩
  · exact loadStands_of_emit (congrArg Host.Outcome.next (loadStart_busy hb ((loading_iff s).2 hl) ho))
  · exact ⟨_, congrArg Host.Outcome.next (loadStart_idle hb (loading_eq_false hl)), loadBegun_bankState, loadBegun_loaded,
      loadBegun_owner (masterCode_lt m), loadBegun_phase, image_imageFor .., loadBank_imageFor .., congrArg HubSt.evq loadBegun_hub⟩
  · refine ⟨_, congrArg Host.Outcome.next (loadAbort_owner ((loading_iff s).2 hl) ho), loadAbandon_bankState s _, loadAbandon_loaded s _,
      loadAbandon_phase s _, loadAbandon_code s (by decide), ?_⟩
    rw [← ho]
    exact loadAbandon_joins s 0x1C
  · exact congrArg Host.Outcome.next (loadAbort_idle (mt (And.imp_left (loading_iff s).1) h))
  · exact ⟨_, congrArg Host.Outcome.next (if_pos hp), loadAbandon_bankState s _, loadAbandon_phase s _, loadAbandon_code s (by decide),
      loadAbandon_joins s 0x1B⟩
  · exact fun hp ho hn => congrArg Host.Outcome.next (loadData_early w hp ho hn)
  · exact fun hl ho => loadStands_of_emit (congrArg Host.Outcome.next (loadData_foreign w ((loading_iff s).2 hl) ho))
  · intro hl hm
    refine ⟨_, congrArg Host.Outcome.next (loadData_stray w (loading_eq_false hl) hm), ?_, ?_, strayMarked_joins s _⟩
    · rw [emit_kiln]
      rfl
    · rw [emit_kiln]
      exact List.mem_cons_self
  · exact fun hl hm => congrArg Host.Outcome.next (loadData_stray_noted w (loading_eq_false hl) hm)

end

section
/-!
PROOFS. The checks of an image (R109, R116, R118): a refusal, and an image admitted to its bank.
-/
namespace Sys2Proof.Machine

open Sys2Proof

/-! ### A refusal -/

/-- The load has ended with bank `b` REFUSED under `code`. -/
def State.LoadRefused (t : State) (b code : Nat) : Prop :=
  t.bankState b = 5 ∧ (t.bank b).loaded = false ∧ t.f F.KLN_LOAD_STAT_PHASE = 3 ∧ t.f F.KLN_LOAD_STAT_CODE = code % 256
    ∧ t.kiln.image = [] ∧ t.f F.HUB_INT_RAW_LOAD = 1

/-- The refusal of a load once its detail is known. -/
def State.refusedWith (s : State) (code : Nat) (detail : Word) : State :=
  let b := s.kiln.loadBank
  ((((s.setBank b bank0).wf (bankStateF b) 5).loadEnd code detail).emit .LOAD_REFUSED 0 [(code : Nat), (detail.toNat : Nat)]).wf
    F.HUB_INT_RAW_LOAD 1

theorem f_loadLatch (s : State) : (s.wf F.HUB_INT_RAW_LOAD 1).f F.HUB_INT_RAW_LOAD = 1 := State.f_wf_same s ⟨by decide, by decide⟩ 1

theorem f_wf_loadLatch (s : State) {x : RegField} (h : x.addr ≠ Reg.HUB_INT_RAW) : (s.wf F.HUB_INT_RAW_LOAD 1).f x = s.f x :=
  State.f_wf_ne s ⟨by decide, by decide⟩ (.inl h) 1

theorem refusedWith_refused (s : State) (code : Nat) (detail : Word) : (s.refusedWith code detail).LoadRefused s.kiln.loadBank code := by
  unfold State.refusedWith
  refine ⟨?_, ?_, ?_, ?_, ?_, f_loadLatch _⟩
  · rw [bankState_wf_ne _ (by decide), bankState_emit, loadEnd_bankState, bankState_wf_same _ _ (by decide)]
  · rw [bank_of_kiln ((State.wf_kiln ..).trans (emit_kiln ..)), loadEnd_bank, bank_of_kiln (State.wf_kiln ..), bank_setBank_same]
    rfl
  · rw [f_wf_loadLatch _ (by decide), f_emit _ _ _ _ (by decide), loadEnd_phase]
  · rw [f_wf_loadLatch _ (by decide), f_emit _ _ _ _ (by decide), loadEnd_code]
  · rw [State.wf_kiln, emit_kiln, loadEnd_image]

/-- Whether or not the spec fixes the detail, the load ends REFUSED under the verdict's code. -/
theorem loadRefuse_refused (s : State) (v : Verdict) : (s.loadRefuse v).LoadRefused s.kiln.loadBank v.1 := by
  obtain ⟨code, detail⟩ := v
  cases detail with
  | none => exact refusedWith_refused s.free.2 code (BitVec.ofInt 32 s.free.1)
  | some d => exact refusedWith_refused s code (BitVec.ofNat 32 d)

/-! ### The image in its bank -/

/-- The bank that the image received makes. -/
def State.imgBank (s : State) : KBank :=
  { loaded := true, base := s.imgBase, code := s.imgCodeSec, parity := s.imgCodeSec.map wordParity, entry := (List.range 4).map s.imgEntry,
    demands := demandsOf s.imgDemandWords, demandWords := s.imgDemandWords, seed := seedsOf s.imgSeedList }

/-- The image is admitted: its bank is READY with it. -/
def State.admitted (s : State) : State :=
  let b := s.kiln.loadBank
  (((((s.setBank b s.imgBank).wf (F.KLN_Bb_ID_BUILD_ID b) (s.imgWord 3)).wf (F.KLN_Bb_RATE_RATE b) s.imgRate).wf (bankStateF b) 3).loadEnd 0
    0#32).wf F.HUB_INT_RAW_LOAD 1

theorem imgWord_of_kiln {s t : State} (h : t.kiln = s.kiln) (i : Nat) : t.imgWord i = s.imgWord i := by
  unfold State.imgWord
  rw [h]

theorem imgBank_of_kiln {s t : State} (h : t.kiln = s.kiln) : t.imgBank = s.imgBank := by
  calc
    t.imgBank = { s with kiln := t.kiln }.imgBank := rfl
    _ = s.imgBank := by rw [h]

theorem imgWord_lt (s : State) (i : Nat) : s.imgWord i < 2 ^ 32 := BitVec.isLt _

section Admitted
variable (s : State)

theorem admitted_bankState : s.admitted.bankState s.kiln.loadBank = 3 := by
  unfold State.admitted
  rw [bankState_wf_ne _ (by decide), loadEnd_bankState, bankState_wf_same _ _ (by decide)]

theorem admitted_bank : s.admitted.bank s.kiln.loadBank = s.imgBank := by
  unfold State.admitted
  rw [bank_of_kiln (State.wf_kiln ..), loadEnd_bank, bank_of_kiln (State.wf_kiln ..), bank_of_kiln (State.wf_kiln ..),
    bank_of_kiln (State.wf_kiln ..), bank_setBank_same]

theorem admitted_image : s.admitted.kiln.image = [] := by
  unfold State.admitted
  rw [State.wf_kiln, loadEnd_image]

theorem admitted_phase : s.admitted.f F.KLN_LOAD_STAT_PHASE = 3 := by
  unfold State.admitted
  rw [f_wf_loadLatch _ (by decide), loadEnd_phase]

theorem admitted_code : s.admitted.f F.KLN_LOAD_STAT_CODE = 0 := by
  unfold State.admitted
  rw [f_wf_loadLatch _ (by decide), loadEnd_code]

/-- The words of a bank's record stand apart from the status of the banks, of the load and of interrupts. -/
theorem rd_admitted_record {a : Nat} (h : 0x100240 ≤ a) : s.admitted.rd a
    = (((s.setBank s.kiln.loadBank s.imgBank).wf (F.KLN_Bb_ID_BUILD_ID s.kiln.loadBank) (s.imgWord 3)).wf
        (F.KLN_Bb_RATE_RATE s.kiln.loadBank) s.imgRate).rd a := by
  have hne {c : Nat} (hc : c < 0x100240) : a ≠ c := (hc.trans_le h).ne'
  unfold State.admitted
  rw [State.rd_wf_ne _ _ (hne (by decide)), rd_loadEnd _ _ _ (hne (by decide)) (hne (by decide)),
    State.rd_wf_ne _ _ (by rw [bankStateF_addr]; exact hne (by decide))]

theorem admitted_rate : s.admitted.f (F.KLN_Bb_RATE_RATE s.kiln.loadBank) = s.imgRate % 2 ^ 17 := by
  rw [f_of_rd (rd_admitted_record s (Nat.le_add_right_of_le (by decide)))]
  exact State.f_wf_same _ ⟨Nat.zero_le _, (by decide : 16 < 32)⟩ _

theorem admitted_buildId : s.admitted.f (F.KLN_Bb_ID_BUILD_ID s.kiln.loadBank) = s.imgWord 3 := by
  have hapart (b : Nat) : (F.KLN_Bb_ID_BUILD_ID b).addr ≠ (F.KLN_Bb_RATE_RATE b).addr := (Nat.add_lt_add_right (by decide) _).ne
  rw [f_of_rd (rd_admitted_record s (Nat.le_add_right_of_le (by decide))),
    State.f_wf_ne _ ⟨Nat.zero_le _, (by decide : 16 < 32)⟩ (.inl (hapart _)), State.f_wf_same _ ⟨Nat.zero_le _, (by decide : 31 < 32)⟩]
  exact Nat.mod_eq_of_lt (imgWord_lt s 3)

end Admitted

/-! ### LOAD_CHECK_DONE (R118) -/

theorem showBounds_kiln (s : State) : s.showBounds.kiln = s.kiln := 
  foldl_keeps State.kiln (fun _ _ => (State.wf_kiln ..).trans (State.wf_kiln ..)) _ s

theorem loadCheckDone_passed {s : State} (hp : s.loadPhase = 2) (hc : s.imageCode.1 = 0) : s.loadCheckDone = s.showBounds.admitted := by
  have hshow : s.imageCode.1 = 0 ∨ 0x0F ≤ s.imageCode.1 := .inl hc
  unfold State.loadCheckDone
  rw [if_neg (not_not.2 hp)]
  dsimp only
  rw [if_neg (not_not.2 hc), if_pos hshow]
  generalize s.showBounds = u
  rfl

/-- Whether or not the bounds were computed and shown, a failed check refuses the load. -/
theorem loadCheckDone_failed {s : State} (hp : s.loadPhase = 2) (hc : s.imageCode.1 ≠ 0) :
    ∃ u : State, u.kiln = s.kiln ∧ s.loadCheckDone = u.loadRefuse s.imageCode := by
  refine ⟨if s.imageCode.1 = 0 ∨ 0x0F ≤ s.imageCode.1 then s.showBounds else s, ?_, ?_⟩
  · split
    · exact showBounds_kiln s
    · rfl
  · exact (if_neg (not_not.2 hp)).trans (if_pos hc)

end Sys2Proof.Machine
end

section
open Sys2Proof Sys2Proof.Machine

/-- Settles O33: the checks end in `admitted` or in `loadRefuse`, and a bad 16th word or one too many ends in `loadRefuse` at once. -/
theorem loaderAdmitsOrRefuses : Obligations.LoaderAdmitsOrRefuses := by
  unfold Obligations.LoaderAdmitsOrRefuses
  intro s m _
  dsimp only
  refine ⟨fun hp => ?_, fun hp => congrArg Host.Outcome.next (if_pos hp), fun w ho => ⟨fun hp hn hc => ?_, fun hp => ?_⟩⟩
  · by_cases hc : s.imageCode.1 = 0
    · have hk := showBounds_kiln s
      have hbank : s.showBounds.admitted.bank s.kiln.loadBank = s.imgBank := by
        rw [← imgBank_of_kiln hk, ← admitted_bank s.showBounds, hk]
      have hrate := admitted_rate s.showBounds
      have hid := admitted_buildId s.showBounds
      have hstate := admitted_bankState s.showBounds
      rw [hk] at hrate hid hstate
      refine ⟨_, congrArg Host.Outcome.next (loadCheckDone_passed hp hc), admitted_phase _, admitted_image _, f_loadLatch _, fun _ => ?_,
        fun h => absurd hc h⟩
      rw [hbank]
      exact ⟨hstate, admitted_code _, rfl, rfl, rfl, rfl, hrate.trans (congrArg (· % 2 ^ 17) (imgWord_of_kiln hk 2)),
        hid.trans (imgWord_of_kiln hk 3)⟩
    · obtain ⟨u, hk, hu⟩ := loadCheckDone_failed hp hc
      have href : (u.loadRefuse s.imageCode).LoadRefused s.kiln.loadBank s.imageCode.1 := hk ▸ loadRefuse_refused u s.imageCode
      obtain ⟨hstate, hloaded, hphase, hcode, himage, hlatch⟩ := href
      exact ⟨_, congrArg Host.Outcome.next hu, hphase, himage, hlatch, fun h => absurd h hc,
        fun _ => ⟨hstate, hloaded, hphase, hcode, himage, hlatch⟩⟩
  · exact ⟨_, congrArg Host.Outcome.next (loadData_bad_header w hp ho hn hc), loadRefuse_refused _ _⟩
  · exact ⟨_, congrArg Host.Outcome.next (loadData_checking w hp ho), loadRefuse_refused _ _⟩

end

section
/-!
PROOFS. The swap of program banks (R126 to R130): a request refused, a bank made active with its seed, and what trying the refused joins
again leaves alone.
-/
namespace Sys2Proof.Machine

open Sys2Proof

/-! ### Kiln's registers, apart from those of the other blocks (R537) -/

/-- A register of Kiln's block: the status of the banks and of the swaps, and tick RAM. -/
def klnReg (a : Nat) : Prop := 0x100000 ≤ a ∧ a < 0x200000

theorem not_klnReg_add {a : Nat} (k : Nat) (h : 0x200000 ≤ a) : ¬klnReg (a + k) := fun hk => Nat.not_lt.2 (Nat.le_add_right_of_le h) hk.2

/-- The registers of Kiln's block read alike. -/
structure State.KlnSame (s t : State) : Prop where
  rd : ∀ a, klnReg a → t.rd a = s.rd a

namespace State.KlnSame

variable {s t u : State}

theorem trans (h : s.KlnSame t) (k : t.KlnSame u) : s.KlnSame u := ⟨fun a ha => (k.rd a ha).trans (h.rd a ha)⟩

theorem wr (h : s.KlnSame t) {a : Nat} (ha : ¬klnReg a) (w : Word) : s.KlnSame (t.wr a w) :=
  h.trans ⟨fun _ hb => State.rd_wr_ne t w fun e => ha (e ▸ hb)⟩

theorem wf (h : s.KlnSame t) {x : RegField} (hx : ¬klnReg x.addr) (v : Nat) : s.KlnSame (t.wf x v) := h.wr hx _

theorem spares (h : s.KlnSame t) (k : Spares true t u) : s.KlnSame u :=
  h.trans ⟨fun a ha => k.rd rfl a ⟨le_trans (by decide) ha.1, ha.2.trans (by decide)⟩⟩

theorem emit (h : s.KlnSame t) (n : EvName) (o : Nat) (d : List Int) : s.KlnSame (t.emit n o d) := h.spares (.emit .refl n o d)

theorem ite {c : Prop} [Decidable c] (ht : s.KlnSame t) (hu : s.KlnSame u) : s.KlnSame (if c then t else u) := by
  split <;> assumption

theorem foldl {α : Type} {f : State → α → State} (hf : ∀ x a, s.KlnSame x → s.KlnSame (f x a)) (l : List α) (h : s.KlnSame t) :
    s.KlnSame (l.foldl f t) := by
  induction l generalizing t with
  | nil => exact h
  | cons a l ih => exact ih (hf _ a h)

end State.KlnSame

/-! ### Offers to nodes leave Kiln's registers alone (R277, R286, R289) -/

section Offers
variable {s t : State}

theorem setPartner_klnSame (h : s.KlnSame t) (p : Nat) (x : Partner) : s.KlnSame (t.setPartner p x) := by
  have hserial : ¬klnReg (Reg.PTN_Pp_SERIAL p) := not_klnReg_add _ (by decide)
  have hstat : ¬klnReg (Reg.PTN_Pp_STAT p) := not_klnReg_add _ (by decide)
  have hepoch : ¬klnReg (Reg.PTN_Pp_EPOCH p) := not_klnReg_add _ (by decide)
  have hset : s.KlnSame { t with ptn.partners := tabSet (fun _ => none) t.ptn.partners p (some x) } := ⟨h.rd⟩
  exact (((((((hset.wf hserial _).wf hstat _).wf hstat _).wf hstat _).wf hstat _).wf hstat _).wf hstat _).wf hepoch _

theorem sendCommand_klnSame (h : s.KlnSame t) (lane pos cseq op ch tick arg0 arg1 : Nat) :
    s.KlnSame (t.sendCommand lane pos cseq op ch tick arg0 arg1) := by
  unfold State.sendCommand State.nodeFrame State.frameSend State.laneOut State.free
  exact h.spares (txSend_spares (Spares.refl.update rfl rfl) ..)

theorem nextCseq_klnSame (h : s.KlnSame t) : s.KlnSame t.nextCseq.2 := ⟨h.rd⟩

theorem refuse_klnSame (h : s.KlnSame t) (p ch reason : Nat) : s.KlnSame (t.refuse p ch reason) := by
  unfold State.refuse
  split
  · exact h
  · next x _ =>
    have hset := setPartner_klnSame h p { x with refused := ch :: x.refused.filter (· != ch) }
    exact .ite (sendCommand_klnSame (nextCseq_klnSame hset) ..) hset

theorem setSlot_klnSame (h : s.KlnSame t) (c : Nat) (x : Option SlotSt) : s.KlnSame (t.setSlot c x) := ⟨h.rd⟩

theorem command_klnSame (h : s.KlnSame t) (x : Change) (n : Nat) : s.KlnSame (t.command x n) := by
  have hstat : ¬klnReg (Reg.PTN_SLs_STAT x.slot) := not_klnReg_add _ (by decide)
  have hid : ¬klnReg (Reg.PTN_SLs_ID x.slot) := not_klnReg_add _ (by decide)
  have hsent (l : List Change) (lane pos cseq op ch n arg0 arg1 : Nat) :
      s.KlnSame ({ t.nextCseq.2 with ptn.sentCmds := l }.sendCommand lane pos cseq op ch n arg0 arg1) :=
    sendCommand_klnSame (t := { t.nextCseq.2 with ptn.sentCmds := l }) ⟨h.rd⟩ ..
  unfold State.command
  split
  · exact h
  · dsimp only
    split
    · exact .ite (hsent ..) (setSlot_klnSame (((((hsent ..).wf hstat _).wr hid _).wf hstat _).wf hstat _) ..)
    · exact setSlot_klnSame ((hsent ..).wf (x := F.PTN_SLs_STAT_STATE x.slot) hstat _) ..
    · exact .ite (hsent ..) (setSlot_klnSame (hsent ..) ..)

theorem change_klnSame (h : s.KlnSame t) (x : Change) (serial : Nat) : s.KlnSame (t.change x serial) := by
  have hmirror (c : Bool) : s.KlnSame (if c then t.nodeCfg x serial x.state (t.changeTick x) 0 else t) := .ite (h.spares (mirror_spares .refl ..)) h
  unfold State.change State.sendChange
  exact .ite ⟨(hmirror _).rd⟩ (command_klnSame (.ite ((hmirror _).emit ..) (hmirror _)) _ _)

theorem offer_klnSame (h : s.KlnSame t) (p : Nat) (d : NodeCh) : s.KlnSame (t.offer p d) := by
  unfold State.offer
  split
  · exact h
  · refine .ite h ?_
    split
    · exact refuse_klnSame h ..
    · exact .ite (change_klnSame h ..) (refuse_klnSame (h.emit ..) ..)

theorem offerAll_klnSame (h : s.KlnSame t) : s.KlnSame t.offerAll := by
  unfold State.offerAll
  refine .foldl (fun u e hu => ?_) _ h
  split
  · exact .foldl (fun v d hv => offer_klnSame hv _ d) _ hu
  · exact hu

theorem retryJoins_klnSame (h : s.KlnSame t) : s.KlnSame t.retryJoins := offerAll_klnSame (t := t.unrefuse) ⟨h.rd⟩

end Offers

/-! ### The status of the banks (R130) -/

theorem bankStateF_apart_high (b : Nat) {x : RegField} (h : 8 ≤ x.lo) : fieldsApart (bankStateF b) x := by
  have hhi : (bankStateF b).hi < 8 := by
    unfold bankStateF
    split <;> decide
  exact .inr (.inl (hhi.trans_le h))

theorem bankStateF_apart_other {b : Nat} (hb : b < 2) : fieldsApart (bankStateF (1 - b)) (bankStateF b) := by
  obtain rfl | rfl := Nat.le_one_iff_eq_zero_or_eq_one.1 (Nat.le_of_lt_succ hb)
  · exact .inr (.inr (by decide))
  · exact .inr (.inl (by decide))

section Status
variable (s : State) {b : Nat}

/-- Bank `b` becomes ACTIVE in the status of the banks, the other READY. -/
def State.bankSwapped (s : State) (b : Nat) : State :=
  (((if s.bankValid then s.wf (bankStateF (1 - b)) 3 else s).wf (bankStateF b) 4).wf F.KLN_BANK_STAT_ACTIVE b).wf F.KLN_BANK_STAT_ACTIVE_VALID 1

theorem bankSwapped_bankState (c : Nat) : (s.bankSwapped b).bankState c
    = ((if s.bankValid then s.wf (bankStateF (1 - b)) 3 else s).wf (bankStateF b) 4).bankState c := by
  unfold State.bankSwapped State.bankState
  rw [State.f_wf_ne _ ⟨by decide, by decide⟩ (bankStateF_apart_high c (by decide)),
    State.f_wf_ne _ ⟨by decide, by decide⟩ (bankStateF_apart_high c (by decide))]

theorem bankSwapped_state : (s.bankSwapped b).bankState b = 4 := by
  rw [bankSwapped_bankState, bankState_wf_same _ _ (by decide)]

theorem bankSwapped_other (hb : b < 2) (hv : s.bankValid = true) : (s.bankSwapped b).bankState (1 - b) = 3 := by
  rw [bankSwapped_bankState, if_pos hv]
  exact (State.f_wf_ne _ (bankStateF_ok b) (bankStateF_apart_other hb) 4).trans (bankState_wf_same s (1 - b) (by decide))

theorem bankSwapped_activeBank (hb : b < 2) : (s.bankSwapped b).activeBank = b := by
  unfold State.bankSwapped State.activeBank
  rw [State.f_wf_ne _ ⟨by decide, by decide⟩ (.inr (.inl (by decide))), State.f_wf_same _ ⟨by decide, by decide⟩]
  exact Nat.mod_eq_of_lt hb

theorem bankSwapped_bankValid : (s.bankSwapped b).bankValid = true := by
  unfold State.bankSwapped State.bankValid State.flag
  rw [State.f_wf_same _ ⟨by decide, by decide⟩]
  rfl

theorem rd_bankSwapped {a : Nat} (h : a ≠ Reg.KLN_BANK_STAT) : (s.bankSwapped b).rd a = s.rd a := by
  have hb (c : Nat) : a ≠ (bankStateF c).addr := by rwa [bankStateF_addr]
  unfold State.bankSwapped
  rw [State.rd_wf_ne _ _ h, State.rd_wf_ne _ _ h, State.rd_wf_ne _ _ (hb b)]
  split
  · exact State.rd_wf_ne _ _ (hb _)
  · rfl

theorem bankSwapped_kiln : (s.bankSwapped b).kiln = s.kiln := by
  unfold State.bankSwapped
  rw [State.wf_kiln, State.wf_kiln, State.wf_kiln]
  split
  · rw [State.wf_kiln]
  · rfl

/-- A swap is counted, with the tick it stands for. -/
def State.swapCounted (s : State) (t : Nat) : State := (s.bumpWrap F.KLN_SWAP_STAT_TAKEN 1).wf64 F.KLN_SWAP_TICK_LO_TICK F.KLN_SWAP_TICK_HI_TICK t

theorem rd_swapCounted_bankStat (t : Nat) : (s.swapCounted t).rd Reg.KLN_BANK_STAT = s.rd Reg.KLN_BANK_STAT := by
  unfold State.swapCounted State.wf64 State.bumpWrap
  rw [State.rd_wf_ne _ _ (by decide), State.rd_wf_ne _ _ (by decide), State.rd_wf_ne _ _ (by decide)]

theorem swapCounted_kiln (t : Nat) : (s.swapCounted t).kiln = s.kiln := by
  unfold State.swapCounted State.wf64 State.bumpWrap
  rw [State.wf_kiln, State.wf_kiln, State.wf_kiln]

theorem swapCounted_taken (t : Nat) :
    (s.swapCounted t).f F.KLN_SWAP_STAT_TAKEN = (s.f F.KLN_SWAP_STAT_TAKEN + 1) % (fieldMax F.KLN_SWAP_STAT_TAKEN + 1) := by
  unfold State.swapCounted State.wf64 State.bumpWrap
  rw [State.f_wf_ne _ ⟨by decide, by decide⟩ (.inl (by decide)), State.f_wf_ne _ ⟨by decide, by decide⟩ (.inl (by decide)),
    State.f_wf_same _ ⟨by decide, by decide⟩]
  rfl

end Status

/-! ### The seed (R112) -/

/-- The entries of a seed section stand in tick RAM. -/
def State.seeded (s : State) (l : List (Nat × Word)) : State := l.foldl (fun t e => t.tramWrite e.1 e.2) s

/-- No seed entry, whatever its index, writes below tick RAM. -/
theorem rd_seeded_below (s : State) (l : List (Nat × Word)) {a : Nat} (h : a < 0x140000) : (s.seeded l).rd a = s.rd a := by
  have hone (t : State) (e : Nat × Word) : (t.tramWrite e.1 e.2).rd a = t.rd a :=
    (rd_tramWrite t e.1 e.2 a).trans (if_neg (h.trans_le (Nat.le_add_right ..)).ne)
  exact foldl_keeps (fun t : State => t.rd a) hone l s

theorem rd_seeded_one (s : State) (i : Nat) (v : Word) : (s.seeded [(i, v)]).rd (tramAddr i) = v :=
  (rd_tramWrite s i v (tramAddr i)).trans (if_pos rfl)

theorem tramAddr_klnReg {i : Nat} (h : i < 65536) : klnReg (tramAddr i) := by
  unfold klnReg tramAddr
  omega

/-! ### The decision (R128, R130) -/

section Decision
variable {s : State} {b : Nat}

theorem swapDecide_refused (h : s.swapReason b ≠ 0) : s.swapDecide b = ((s.bump F.KLN_SWAP_STAT_REFUSED 1).wf F.KLN_SWAP_STAT_REASON
    (s.swapReason b)).emit .SWAP_REFUSED 0 [(s.swapReason b : Int), (b : Int), (s.tick.num : Int)] := by
  unfold State.swapDecide
  dsimp only
  rw [if_pos h]

theorem swapDecide_taken (h : s.swapReason b = 0) : ∃ old new, s.swapDecide b
    = ((((s.bankSwapped b).swapCounted s.tick.num).seeded (s.bank b).seed).divideRing old new).retryJoins.wf F.HUB_INT_RAW_SWAP 1 := by
  have hbank : ((s.bankSwapped b).swapCounted s.tick.num).bank b = s.bank b :=
    bank_of_kiln ((swapCounted_kiln ..).trans (bankSwapped_kiln s)) b
  rw [← hbank]
  unfold State.swapDecide State.bankSwapped
  rw [if_neg (not_not.2 h)]
  exact ⟨_, _, rfl⟩

theorem swapReason_lt (s : State) (b : Nat) : s.swapReason b < 16 := by
  unfold State.swapReason
  split_ifs <;> decide

/-- A request that is refused writes KLN_SWAP_STAT and the event registers alone. -/
theorem rd_swapDecide_refused (h : s.swapReason b ≠ 0) {a : Nat} (ha : a ≠ Reg.KLN_SWAP_STAT) (he : a ∉ eventRegs) :
    (s.swapDecide b).rd a = s.rd a := by
  rw [swapDecide_refused h, rd_emit _ _ _ _ he, State.rd_wf_ne _ _ ha]
  exact State.rd_wf_ne _ _ ha

theorem swapDecide_refused_reason (h : s.swapReason b ≠ 0) : (s.swapDecide b).f F.KLN_SWAP_STAT_REASON = s.swapReason b := by
  rw [swapDecide_refused h, f_emit _ _ _ _ (by decide), State.f_wf_same _ ⟨by decide, by decide⟩]
  exact Nat.mod_eq_of_lt (swapReason_lt s b)

theorem swapDecide_refused_count (h : s.swapReason b ≠ 0) :
    (s.swapDecide b).f F.KLN_SWAP_STAT_REFUSED = min (s.f F.KLN_SWAP_STAT_REFUSED + 1) (fieldMax F.KLN_SWAP_STAT_REFUSED) := by
  rw [swapDecide_refused h, f_emit _ _ _ _ (by decide), State.f_wf_ne _ ⟨by decide, by decide⟩ (.inr (.inr (by decide))),
    State.f_bump_same _ ⟨by decide, by decide⟩]

/-- After a swap that is taken, Kiln's registers are those of the seeded state. -/
theorem rd_swapDecide_taken (h : s.swapReason b = 0) {a : Nat} (ha : klnReg a) :
    (s.swapDecide b).rd a = (((s.bankSwapped b).swapCounted s.tick.num).seeded (s.bank b).seed).rd a := by
  obtain ⟨old, new, e⟩ := swapDecide_taken h
  rw [e]
  have hring : (((s.bankSwapped b).swapCounted s.tick.num).seeded (s.bank b).seed).KlnSame
      ((((s.bankSwapped b).swapCounted s.tick.num).seeded (s.bank b).seed).divideRing old new) := ⟨fun _ _ => rfl⟩
  exact (retryJoins_klnSame hring).wf (x := F.HUB_INT_RAW_SWAP) (by unfold klnReg; decide) 1 |>.rd a ha

theorem rd_swapDecide_bankStat (h : s.swapReason b = 0) : (s.swapDecide b).rd Reg.KLN_BANK_STAT = (s.bankSwapped b).rd Reg.KLN_BANK_STAT := by
  rw [rd_swapDecide_taken h (by unfold klnReg; decide), rd_seeded_below _ _ (by decide), rd_swapCounted_bankStat]

theorem swapDecide_taken_count (h : s.swapReason b = 0) :
    (s.swapDecide b).f F.KLN_SWAP_STAT_TAKEN = (s.f F.KLN_SWAP_STAT_TAKEN + 1) % (fieldMax F.KLN_SWAP_STAT_TAKEN + 1) := by
  have hrd : (s.swapDecide b).rd Reg.KLN_SWAP_STAT = ((s.bankSwapped b).swapCounted s.tick.num).rd Reg.KLN_SWAP_STAT := by
    rw [rd_swapDecide_taken h (by unfold klnReg; decide), rd_seeded_below _ _ (by decide)]
  rw [f_of_rd (x := F.KLN_SWAP_STAT_TAKEN) hrd, swapCounted_taken, f_of_rd (x := F.KLN_SWAP_STAT_TAKEN) (rd_bankSwapped s (by decide))]

/-- What a decision about bank `b` at tick `n` leaves, for the reason `why` of a refusal, or 0 (R128, R130). -/
def State.SwapDecided (s t : State) (b why n : Nat) : Prop :=
  (why ≠ 0 → t.activeBank = s.activeBank ∧ t.bankValid = s.bankValid ∧ t.bank b = s.bank b
    ∧ t.f F.KLN_SWAP_STAT_REASON = why ∧ t.f F.KLN_SWAP_STAT_REFUSED = min (s.f F.KLN_SWAP_STAT_REFUSED + 1) (fieldMax F.KLN_SWAP_STAT_REFUSED)
    ∧ (∀ i < 65536, t.rd (tramAddr i) = s.rd (tramAddr i))
    ∧ (evqDepth s.hub.evq + eventEntries .SWAP_REFUSED ≤ 4096 →
        ∃ e : Event, e.name = .SWAP_REFUSED ∧ e.detail = [(why : Int), (b : Int), (n : Int)] ∧ t.hub.evq = s.hub.evq ++ [e]))
  ∧ (why = 0 → t.bankState b = 4 ∧ t.activeBank = b ∧ t.bankValid = true ∧ (s.bankValid = true → t.bankState (1 - b) = 3)
    ∧ t.f F.KLN_SWAP_STAT_TAKEN = (s.f F.KLN_SWAP_STAT_TAKEN + 1) % (fieldMax F.KLN_SWAP_STAT_TAKEN + 1)
    ∧ ∀ i < 65536, ∀ v, (s.bank b).seed = [(i, v)] → t.rd (tramAddr i) = v)

theorem swapDecide_decided (s : State) {b : Nat} (hb : b < 2) : s.SwapDecided (s.swapDecide b) b (s.swapReason b) s.tick.num := by
  refine ⟨fun h => ?_, fun h => ?_⟩
  · have hstat := rd_swapDecide_refused h (a := Reg.KLN_BANK_STAT) (by decide) (by decide)
    refine ⟨f_of_rd hstat, ?_, ?_, swapDecide_refused_reason h, swapDecide_refused_count h, fun i _ => ?_, fun room => ?_⟩
    · unfold State.bankValid State.flag
      rw [f_of_rd (x := F.KLN_BANK_STAT_ACTIVE_VALID) hstat]
    · rw [swapDecide_refused h, bank_of_kiln (emit_kiln ..)]
      rfl
    · have hbig : ∀ a ∈ Reg.KLN_SWAP_STAT :: eventRegs, a < 0x140000 := by decide
      have hout : tramAddr i ∉ Reg.KLN_SWAP_STAT :: eventRegs := fun hm => Nat.not_lt.2 (Nat.le_add_right ..) (hbig _ hm)
      exact rd_swapDecide_refused h (fun e => hout (e ▸ List.mem_cons_self)) fun hm => hout (List.mem_cons_of_mem _ hm)
    · rw [swapDecide_refused h]
      exact ⟨_, rfl, rfl, emit_evq _ _ _ _ room⟩
  · have hstat := rd_swapDecide_bankStat h
    refine ⟨(bankState_of_rd hstat b).trans (bankSwapped_state s), (f_of_rd hstat).trans (bankSwapped_activeBank s hb), ?_,
      fun hv => (bankState_of_rd hstat _).trans (bankSwapped_other s hb hv), swapDecide_taken_count h, fun i hi v hseed => ?_⟩
    · rw [← bankSwapped_bankValid s (b := b)]
      unfold State.bankValid State.flag
      rw [f_of_rd (x := F.KLN_BANK_STAT_ACTIVE_VALID) hstat]
    · rw [rd_swapDecide_taken h (tramAddr_klnReg hi), hseed, rd_seeded_one]

end Decision

/-! ### When a request is decided (R126, R127) -/

theorem swapReason_eq (s : State) (b : Nat) : s.swapReason b = if s.bankState b = 4 then 2 else if s.bankState b ≠ 3 then 1
    else if s.f (F.KLN_Bb_RATE_RATE b) ≠ s.rate then 3 else if s.envFits b = false then 4 else 0 := by
  unfold State.swapReason
  cases s.envFits b <;> rfl

/-- The tick's number and the requests that wait bear on no reason of a refusal. -/
theorem swapReason_later (s : State) (b n : Nat) (l : List SwapReq) (k : List Nat) :
    { s with tick.num := n, kiln.swaps := l, kiln.swapsNow := k }.swapReason b = s.swapReason b := rfl

/-- A request for bank `b` waits for the boundary of the tick two ahead. -/
def State.swapWaiting (s : State) (b : Nat) : State := { s with kiln.swaps := s.kiln.swaps ++ [{ bank := b, due := s.tick.num + 2 }] }

theorem swapRequest_ticking {s : State} (h : s.ticking = true) (b : Nat) : s.swapRequest b = s.swapWaiting b := if_pos h

theorem swapRequest_standing {s : State} (h : s.ticking ≠ true) (b : Nat) : s.swapRequest b = s.swapDecide b := if_neg h

/-- A boundary that finds that request alone, and due, decides it. -/
theorem swapBoundary_waiting {s : State} (b : Nat) {n : Nat} (hs : s.kiln.swaps = []) (hn : s.kiln.swapsNow = []) (hdue : s.tick.num + 2 ≤ n) :
    { s.swapWaiting b with tick.num := n }.swapBoundary n
      = { s with tick.num := n, kiln.swaps := [], kiln.swapsNow := [] }.swapDecide b := by
  have hdecided : (s.swapWaiting b).kiln.swaps.filter (fun r => decide (r.due ≤ n)) = [{ bank := b, due := s.tick.num + 2 }] := by
    simp [State.swapWaiting, hs, hdue]
  have hleft : (s.swapWaiting b).kiln.swaps.filter (fun r => decide (n < r.due)) = [] := by simp [State.swapWaiting, hs, hdue]
  have hnow : (s.swapWaiting b).kiln.swapsNow = [] := hn
  unfold State.swapBoundary
  dsimp only
  rw [hdecided, hleft, hnow]
  rfl

theorem swapBoundary_waiting_decided (s : State) {b n : Nat} (hb : b < 2) (hs : s.kiln.swaps = []) (hn : s.kiln.swapsNow = [])
    (hdue : s.tick.num + 2 ≤ n) : s.SwapDecided ({ s.swapWaiting b with tick.num := n }.swapBoundary n) b (s.swapReason b) n := by
  rw [swapBoundary_waiting b hs hn hdue, ← swapReason_later s b n [] []]
  exact swapDecide_decided { s with tick.num := n, kiln.swaps := [], kiln.swapsNow := [] } hb

end Sys2Proof.Machine
end

section
open Sys2Proof Sys2Proof.Machine

/-- Settles O34: while ticks run the request waits, alone in the queue, for the boundary that decides it; otherwise the decision is at once. -/
theorem swapRequestIsDecided : Obligations.SwapRequestIsDecided := by
  unfold Obligations.SwapRequestIsDecided
  intro s m b
  dsimp only
  rw [← swapReason_eq]
  by_cases ht : s.genState = 1 ∨ s.genState = 2
  · exact ⟨_, congrArg Host.Outcome.next (swapRequest_ticking ((ticking_iff s).2 ht) b),
      fun _ => ⟨rfl, fun hs hn n hdue => swapBoundary_waiting_decided s b.isLt hs hn hdue⟩, fun h => absurd ht h⟩
  · exact ⟨_, congrArg Host.Outcome.next (swapRequest_standing (mt (ticking_iff s).1 ht) b), fun h => absurd h ht,
      fun _ => swapDecide_decided s b.isLt⟩

end

section
/-!
PROOFS. The commands of the front ends (R138 to R158, R558): settling, the common-mode window, the excitation drivers, the user table's
selection, the end of a code period on a path that does not run, and rail moves.
-/
namespace Sys2Proof.Machine

open Sys2Proof

/-! ### Registers, one-bit fields and records -/

/-- The registers that recording writes are those of the HUB and UMB blocks. -/
theorem not_eventReg {a : Nat} (h : 0x20000 ≤ a) : a ∉ eventRegs := by
  have hlow : ∀ c ∈ eventRegs, c < 0x20000 := by decide
  exact fun hm => Nat.not_lt.2 h (hlow a hm)

namespace State.RegsBut

variable {s t : State} {l : List Nat}

theorem refl (s : State) (l : List Nat) : s.RegsBut s l := fun _ _ _ => rfl

theorem wf (h : s.RegsBut t l) {x : RegField} (v : Nat) (hx : x.addr ∈ l) : s.RegsBut (t.wf x v) l :=
  fun _ ha hr => (State.rd_wf_ne t v fun e => ha (e.symm.subst (motive := (· ∈ l)) hx)).trans (h _ ha hr)

theorem emit (h : s.RegsBut t l) (n : EvName) (o : Nat) (d : List Int) : s.RegsBut (t.emit n o d) l :=
  fun _ ha hr => (rd_emit t n o d hr).trans (h _ ha hr)

end State.RegsBut

theorem flag_eq_true (s : State) (x : RegField) : s.flag x = true ↔ s.f x = 1 := beq_iff_eq

theorem eflag_eq_true (s : State) (x : RegField) : s.eflag x = true ↔ s.ef x = 1 := beq_iff_eq

/-- A field of one bit that is not 0 is 1. -/
theorem State.f_eq_one (s : State) {x : RegField} (hx : x.hi = x.lo) (h : s.f x ≠ 0) : s.f x = 1 := by
  have hlt := s.f_lt x
  rw [hx, Nat.add_sub_cancel_left] at hlt
  omega

theorem State.wf_rest (s : State) (x : RegField) (v : Nat) : { s.wf x v with mem := s.mem } = s := rfl

/-- A bit reads as it was written. -/
theorem State.f_wb_same (s : State) {x : RegField} (h : fieldOk x) (b : Bool) : (s.wb x b).f x = if b then 1 else 0 := by
  have hwide : 1 < 2 ^ (x.hi + 1 - x.lo) := Nat.one_lt_two_pow (Nat.sub_ne_zero_of_lt (Nat.lt_succ_of_le h.1))
  unfold State.wb
  rw [State.f_wf_same s h, Nat.mod_eq_of_lt]
  split <;> omega

/-- The bits of a field, whatever index its address depends on. -/
theorem fieldOk_of {x : RegField} (h : (x.lo.ble x.hi && x.hi.blt 32) = true) : fieldOk x := by
  rw [Bool.and_eq_true, Nat.ble_eq, Nat.blt_eq] at h
  exact h

theorem apart_above {x y : RegField} (h : y.hi.blt x.lo = true) : fieldsApart x y := .inr (.inr (Nat.blt_eq.mp h))

theorem apart_below {x y : RegField} (h : x.hi.blt y.lo = true) : fieldsApart x y := .inr (.inl (Nat.blt_eq.mp h))

@[simp] theorem bump_front (s : State) (x : RegField) (n : Nat) : (s.bump x n).front = s.front := State.wf_front ..

/-! ### The status registers of a channel and a driver -/

theorem afeChStat_ge (c : Nat) : 0x20000 ≤ Reg.AFE_CH_STAT c := by unfold Reg.AFE_CH_STAT; omega

theorem afeExStat_ge (d : Nat) : 0x20000 ≤ Reg.AFE_EX_STAT d := by unfold Reg.AFE_EX_STAT; omega

/-! ### Settling (R138) -/

theorem execSettleEnd_due {s : State} {c : Fin 96} (h : tabGet (fun _ => 0) s.front.settleTo c ≤ s.tick.clock) :
    execSettleEnd c s = .next (s.wf (F.AFE_CH_STAT_SETTLING c) 0) := congrArg Host.Outcome.next (if_neg (Nat.not_lt.2 h))

theorem execSettleEnd_early {s : State} {c : Fin 96} (h : s.tick.clock < tabGet (fun _ => 0) s.front.settleTo c) :
    execSettleEnd c s = .next s := congrArg Host.Outcome.next (if_pos h)

/-! ### Common-mode checks (R146, R147) -/

/-- The counts of consecutive checks out of and inside the window. -/
def State.cmCounts (s : State) (c out inside : Nat) : State :=
  { s with front.cmOut := tabSet (fun _ => 0) s.front.cmOut c out, front.cmIn := tabSet (fun _ => 0) s.front.cmIn c inside }

/-- A common-mode fault of class `cls` is declared. -/
def State.cmDeclare (s : State) (c cls : Nat) : State :=
  let t := { s with front.cmSince := tabSet (fun _ => 0) s.front.cmSince c s.tick.clock }
  (((t.wf (F.AFE_CH_STAT_CMF c) 1).wf (F.AFE_CH_STAT_CMCLASS c) cls).bump (F.AFE_CH_STAT_CMCOUNT c) 1).emit .CM_FAULT (objChannel c) [(cls : Int)]

/-- Channel `c` is checked: it is not in mode OFF and does not settle. -/
def State.cmLive (s : State) (c : Nat) : Prop := s.ef (F.AFE_CH_CFG_MODE c) ≠ 0 ∧ s.f (F.AFE_CH_STAT_SETTLING c) = 0

section CmCheck
variable {s : State} {c : Nat} {mv : Int}

theorem cmCheck_idle_iff : (s.ef (F.AFE_CH_CFG_MODE c) = 0 ∨ s.flag (F.AFE_CH_STAT_SETTLING c) = true) ↔ ¬s.cmLive c := by
  have hbit := s.f_eq_one (x := F.AFE_CH_STAT_SETTLING c) rfl
  rw [flag_eq_true]
  unfold State.cmLive
  omega

theorem cmCheck_idle (h : ¬s.cmLive c) : s.cmCheck c mv = s := if_pos (cmCheck_idle_iff.2 h)

theorem cmCheck_out (hlive : s.cmLive c) (h : s.efs (F.AFE_CH_CM_CM_HI c) * 100 < mv ∨ mv < s.efs (F.AFE_CH_CM_CM_LO c) * 100) :
    s.cmCheck c mv =
      if s.f (F.AFE_CH_STAT_CMF c) ≠ 1 ∧ max 1 (s.ef (F.AFE_CH_CM_DEB_ON c)) ≤ tabGet (fun _ => 0) s.front.cmOut c + 1 then
        (s.cmCounts c (tabGet (fun _ => 0) s.front.cmOut c + 1) 0).cmDeclare c (if s.efs (F.AFE_CH_CM_CM_HI c) * 100 < mv then 1 else 2)
      else s.cmCounts c (tabGet (fun _ => 0) s.front.cmOut c + 1) 0 := by
  unfold State.cmCheck
  rw [if_neg (mt cmCheck_idle_iff.1 (not_not.2 hlive))]
  dsimp only
  rw [if_pos (by simpa using h)]
  refine (if_congr ?_ ?_ rfl).trans rfl
  · rw [Bool.and_eq_true, Bool.not_eq_true', ← Bool.not_eq_true, flag_eq_true, decide_eq_true_iff]
    rfl
  · simp only [decide_eq_true_eq]
    rfl

theorem cmCheck_inside (hlive : s.cmLive c) (hhi : ¬s.efs (F.AFE_CH_CM_CM_HI c) * 100 < mv) (hlo : ¬mv < s.efs (F.AFE_CH_CM_CM_LO c) * 100) :
    s.cmCheck c mv =
      if max 1 (s.ef (F.AFE_CH_CM_DEB_OFF c)) * 64 ≤ tabGet (fun _ => 0) s.front.cmIn c + 1 then
        (s.cmCounts c 0 (tabGet (fun _ => 0) s.front.cmIn c + 1)).cmClear c
      else s.cmCounts c 0 (tabGet (fun _ => 0) s.front.cmIn c + 1) := by
  unfold State.cmCheck
  rw [if_neg (mt cmCheck_idle_iff.1 (not_not.2 hlive))]
  dsimp only
  rw [if_neg (by simpa using ⟨Int.not_lt.1 hhi, Int.not_lt.1 hlo⟩)]
  rfl

end CmCheck

section CmEpisode
variable (s : State) (c : Nat)

@[simp] theorem cmCounts_cmOut (o i : Nat) : tabGet (fun _ => 0) (s.cmCounts c o i).front.cmOut c = o := tabGet_tabSet_same ..
@[simp] theorem cmCounts_cmIn (o i : Nat) : tabGet (fun _ => 0) (s.cmCounts c o i).front.cmIn c = i := tabGet_tabSet_same ..
@[simp] theorem cmCounts_f (o i : Nat) (x : RegField) : (s.cmCounts c o i).f x = s.f x := rfl
@[simp] theorem cmCounts_hub (o i : Nat) : (s.cmCounts c o i).hub = s.hub := rfl

theorem cmDeclare_cmf (cls : Nat) : (s.cmDeclare c cls).f (F.AFE_CH_STAT_CMF c) = 1 := by
  unfold State.cmDeclare State.bump
  rw [f_emit _ _ _ _ (not_eventReg (afeChStat_ge c)), State.f_wf_ne _ (fieldOk_of rfl) (apart_above rfl),
    State.f_wf_ne _ (fieldOk_of rfl) (apart_above rfl), State.f_wf_same _ (fieldOk_of rfl)]
  rfl

theorem cmDeclare_class {cls : Nat} (h : cls < 4) : (s.cmDeclare c cls).f (F.AFE_CH_STAT_CMCLASS c) = cls := by
  unfold State.cmDeclare State.bump
  rw [f_emit _ _ _ _ (not_eventReg (afeChStat_ge c)), State.f_wf_ne _ (fieldOk_of rfl) (apart_above rfl),
    State.f_wf_same _ (fieldOk_of rfl)]
  exact Nat.mod_eq_of_lt h

@[simp] theorem cmDeclare_cmOut (cls : Nat) : (s.cmDeclare c cls).front.cmOut = s.front.cmOut := by
  unfold State.cmDeclare
  rw [emit_front, bump_front, State.wf_front, State.wf_front]

@[simp] theorem cmDeclare_cmIn (cls : Nat) : (s.cmDeclare c cls).front.cmIn = s.front.cmIn := by
  unfold State.cmDeclare
  rw [emit_front, bump_front, State.wf_front, State.wf_front]

theorem cmDeclare_joins (cls : Nat) : s.Joins (s.cmDeclare c cls) .CM_FAULT (objChannel c) [(cls : Int)] := by
  unfold State.cmDeclare
  exact emit_joins (by rw [bump_hub, State.wf_hub, State.wf_hub]) _ _ _

theorem cmClear_declared (h : s.f (F.AFE_CH_STAT_CMF c) = 1) :
    s.cmClear c = (s.wf (F.AFE_CH_STAT_CMF c) 0).emit .CM_CLEAR (objChannel c)
      [(((s.tick.clock - tabGet (fun _ => 0) s.front.cmSince c) / 65536 : Nat) : Int)] := if_pos ((flag_eq_true _ _).2 h)

theorem cmClear_none (h : s.f (F.AFE_CH_STAT_CMF c) ≠ 1) : s.cmClear c = s := if_neg (mt (flag_eq_true _ _).1 h)

@[simp] theorem cmClear_front : (s.cmClear c).front = s.front := by
  unfold State.cmClear
  split
  · rw [emit_front, State.wf_front]
  · rfl

theorem cmClear_cmf : (s.cmClear c).f (F.AFE_CH_STAT_CMF c) = 0 := by
  by_cases h : s.f (F.AFE_CH_STAT_CMF c) = 1
  · rw [cmClear_declared s c h, f_emit _ _ _ _ (not_eventReg (afeChStat_ge c)), State.f_wf_same _ (fieldOk_of rfl)]
    rfl
  · rw [cmClear_none s c h]
    exact not_not.1 (mt (s.f_eq_one rfl) h)

end CmEpisode

/-! ### Excitation drivers (R141, R143) -/

section Comply
variable {s : State} {d : Nat} {force : Int}

/-- Driver `d` regulates remotely. -/
def State.regulates (s : State) (d : Nat) : Prop := s.ef (F.AFE_EX_CTRL_EN d) = 1 ∧ s.ef (F.AFE_EX_CTRL_REMOTE d) = 1

/-- Regulation of driver `d` needs `force`: what it drives, and whether it is at its limit. -/
def State.complied (s : State) (d : Nat) (force : Int) : State :=
  { s with front.force := tabSet (fun _ => 0) s.front.force d (min force (s.forceMax d)),
           front.comply := tabSet (fun _ => false) s.front.comply d (decide (s.forceMax d ≤ force)) }.wb (F.AFE_EX_STAT_COMPLY d)
    (decide (s.forceMax d ≤ force))

theorem regulates_iff : (s.eflag (F.AFE_EX_CTRL_EN d) && s.eflag (F.AFE_EX_CTRL_REMOTE d)) = true ↔ s.regulates d := by
  rw [Bool.and_eq_true, eflag_eq_true, eflag_eq_true]
  rfl

theorem forceMax_eq : s.forceMax d = if s.ef (F.AFE_EX_CTRL_SINGLE d) = 1 then 12000 else 24000 :=
  if_congr (eflag_eq_true _ _) rfl rfl

theorem excComply_idle (h : ¬s.regulates d) : s.excComply d force = s := by
  unfold State.excComply
  rw [Bool.eq_false_iff.2 (mt regulates_iff.1 h)]
  rfl

theorem excComply_begins (h : s.regulates d) (hwas : tabGet (fun _ => false) s.front.comply d = false) (hat : s.forceMax d ≤ force) :
    s.excComply d force = (s.complied d force).emit .EXC_COMPLY (objUnit d) [] := by
  unfold State.excComply
  rw [regulates_iff.2 h, if_neg (by decide)]
  exact if_pos (by rw [hwas, decide_eq_true hat]; rfl)

theorem excComply_quiet (h : s.regulates d) (hq : tabGet (fun _ => false) s.front.comply d = true ∨ force < s.forceMax d) :
    s.excComply d force = s.complied d force := by
  unfold State.excComply
  rw [regulates_iff.2 h, if_neg (by decide)]
  refine if_neg ?_
  rw [Bool.and_eq_true, decide_eq_true_iff, Bool.not_eq_true']
  rintro ⟨hat, hwas⟩
  rcases hq with hq | hq
  · exact absurd (hwas.symm.trans hq) (by decide)
  · omega

/-- An episode's event changes neither the driver's status nor what it drives. -/
theorem excComply_eq (h : s.regulates d) :
    ∃ u, (u = s.complied d force ∨ u = (s.complied d force).emit .EXC_COMPLY (objUnit d) []) ∧ s.excComply d force = u := by
  by_cases hq : tabGet (fun _ => false) s.front.comply d = true ∨ force < s.forceMax d
  · exact ⟨_, .inl rfl, excComply_quiet h hq⟩
  · rw [not_or, Bool.not_eq_true, Int.not_lt] at hq
    exact ⟨_, .inr rfl, excComply_begins h hq.1 hq.2⟩

theorem complied_comply : (s.complied d force).f (F.AFE_EX_STAT_COMPLY d) = if s.forceMax d ≤ force then 1 else 0 := by
  unfold State.complied
  rw [State.f_wb_same _ (fieldOk_of rfl)]
  exact if_congr decide_eq_true_iff rfl rfl

@[simp] theorem complied_hub : (s.complied d force).hub = s.hub := State.wf_hub ..

theorem complied_regs : s.RegsBut (s.complied d force) [Reg.AFE_EX_STAT d] :=
  State.RegsBut.wf (fun _ _ _ => rfl) _ (List.mem_singleton_self _)

/-- What EXC_COMPLY shows and drives while the driver regulates. -/
theorem excComply_shown (h : s.regulates d) :
    (s.excComply d force).f (F.AFE_EX_STAT_COMPLY d) = (if s.forceMax d ≤ force then 1 else 0)
      ∧ tabGet (fun _ => 0) (s.excComply d force).front.force d = min force (s.forceMax d)
      ∧ tabGet (fun _ => false) (s.excComply d force).front.comply d = decide (s.forceMax d ≤ force)
      ∧ s.RegsBut (s.excComply d force) [Reg.AFE_EX_STAT d] := by
  obtain ⟨u, hu, e⟩ := excComply_eq (force := force) h
  rw [e]
  rcases hu with rfl | rfl
  · exact ⟨complied_comply, tabGet_tabSet_same .., tabGet_tabSet_same .., complied_regs⟩
  · rw [f_emit _ _ _ _ (not_eventReg (afeExStat_ge d)), emit_front]
    exact ⟨complied_comply, tabGet_tabSet_same .., tabGet_tabSet_same .., complied_regs.emit _ _ _⟩

end Comply

section Limit
variable {s : State} {d : Fin 24}

/-- Driver `d` reaches its current limit. -/
def State.limited (s : State) (d : Nat) : State :=
  ({ s with front.limitAt := tabSet (fun _ => none) s.front.limitAt d (some s.tick.clock) }.wf (F.AFE_EX_STAT_LIMIT d) 1).fenceHit 1

theorem execExcLimit_begins (hout : 0 < s.driverOut d) (h : s.f (F.AFE_EX_STAT_LIMIT d) = 0) :
    execExcLimit d s = .next ((s.limited d).emit .EXC_LIMIT (objUnit d) []) := by
  have hflag : s.flag (F.AFE_EX_STAT_LIMIT d) = false := beq_eq_false_iff_ne.2 (by omega)
  exact congrArg Host.Outcome.next (if_pos (by rw [hflag, decide_eq_true hout]; rfl))

theorem execExcLimit_again (h : s.f (F.AFE_EX_STAT_LIMIT d) = 1) : execExcLimit d s = .next s := by
  have hflag := (flag_eq_true s _).2 h
  exact congrArg Host.Outcome.next (if_neg (by rw [hflag, Bool.not_true, Bool.and_false]; decide))

theorem afeExStat_ne_fncHit (d : Fin 24) : Reg.AFE_EX_STAT d ≠ Reg.FNC_HIT := by
  unfold Reg.AFE_EX_STAT Reg.FNC_HIT
  omega

theorem limited_limit : (s.limited d).f (F.AFE_EX_STAT_LIMIT d) = 1 := by
  unfold State.limited State.fenceHit
  rw [State.f_wf_ne _ (fieldOk_of rfl) (.inl (afeExStat_ne_fncHit d)), State.f_wf_same _ (fieldOk_of rfl)]
  rfl

@[simp] theorem limited_hub : (s.limited d).hub = s.hub := (State.wf_hub ..).trans (State.wf_hub ..)

theorem limited_limitAt : tabGet (fun _ => none) (s.limited d).front.limitAt d = some s.tick.clock :=
  tabGet_tabSet_same (d := fun _ => none) s.front.limitAt d.val (some s.tick.clock)

theorem limited_regs : s.RegsBut (s.limited d) [Reg.AFE_EX_STAT d, Reg.FNC_HIT] := by
  have hstat : (F.AFE_EX_STAT_LIMIT d).addr ∈ [Reg.AFE_EX_STAT d, Reg.FNC_HIT] := List.mem_cons_self
  have hhit : F.FNC_HIT_HIT.addr ∈ [Reg.AFE_EX_STAT d, Reg.FNC_HIT] := List.mem_cons_of_mem _ (List.mem_singleton_self _)
  exact State.RegsBut.wf (State.RegsBut.wf (fun _ _ _ => rfl) _ hstat) _ hhit

/-- The limit of driver `d` no longer acts. -/
def State.unlimited (s : State) (d : Nat) : State :=
  { s with front.limitAt := tabSet (fun _ => none) s.front.limitAt d none }.wf (F.AFE_EX_STAT_LIMIT d) 0

theorem execExcLimitEnd_ends {b : Nat} (h : s.f (F.AFE_EX_STAT_LIMIT d) = 1) (hb : tabGet (fun _ => none) s.front.limitAt d = some b) :
    execExcLimitEnd d s = .next ((s.unlimited d).emit .EXC_LIMIT_END (objUnit d) [(((s.tick.clock - b) / 65536 : Nat) : Int)]) := by
  unfold execExcLimitEnd
  rw [if_pos ((flag_eq_true s _).2 h), hb]
  rfl

theorem unlimited_limit : (s.unlimited d).f (F.AFE_EX_STAT_LIMIT d) = 0 := State.f_wf_same _ (fieldOk_of rfl) 0

@[simp] theorem unlimited_hub : (s.unlimited d).hub = s.hub := State.wf_hub ..

theorem unlimited_regs : s.RegsBut (s.unlimited d) [Reg.AFE_EX_STAT d] :=
  State.RegsBut.wf (fun _ _ _ => rfl) _ (List.mem_singleton_self _)

end Limit

/-- A field of one bit as that bit. -/
theorem fieldOf_bit (w : Word) (i : Nat) : fieldOf w i i = b2n (w.getLsbD i) := by
  have hbit : b2n (w.getLsbD i) = (w.toNat.testBit i).toNat := by
    unfold b2n BitVec.getLsbD
    cases w.toNat.testBit i <;> rfl
  rw [hbit, Nat.toNat_testBit, fieldOf, Nat.add_sub_cancel_left, pow_one, Nat.shiftRight_eq_div_pow]

/-- The top bit of a word takes that of what is merged in. -/
theorem fieldOf_top_merge (old w : Word) : fieldOf (merge old w 0x80000000#32) 31 31 = b2n (w.getLsbD 31) := by
  rw [fieldOf_bit, merge_getLsbD _ _ _ (by decide)]
  rfl

/-! ### The user table's selection (R153) -/

section UserTable
variable {s : State} {sel : Bool} {m due : Nat}

theorem utValid_iff (k : Nat) :
    s.utValid k = true ↔ 2 ≤ s.utN k ∧ s.utN k ≤ 1024 ∧ ∀ i, i + 1 < s.utN k → s.utX k i < s.utX k (i + 1) := by
  simp only [State.utValid, Bool.and_eq_true, decide_eq_true_eq, List.all_eq_true, List.mem_range, and_assoc, Nat.lt_sub_iff_add_lt]

theorem selFlag_iff : (s.flag F.AFE_UT_CTRL_SEL == sel) = true ↔ s.f F.AFE_UT_CTRL_SEL = b2n sel := by
  have hbit := s.f_eq_one (x := F.AFE_UT_CTRL_SEL) rfl
  have hflag := flag_eq_true s F.AFE_UT_CTRL_SEL
  cases sel
  · rw [beq_iff_eq, ← Bool.not_eq_true, hflag]
    exact ⟨fun h => not_not.1 (mt hbit h), fun h e => absurd (h.symm.trans e) (by decide)⟩
  · rw [beq_iff_eq, hflag]
    rfl

theorem utSelect_same (h : s.f F.AFE_UT_CTRL_SEL = b2n sel) : s.utSelect m due sel = s := if_pos (selFlag_iff.2 h)

theorem utSelect_held (h : s.f F.AFE_UT_CTRL_SEL ≠ b2n sel) (hgood : s.utValid (b2n sel) = true) :
    s.utSelect m due sel = s.hold due Reg.AFE_UT_CTRL (if sel then 0x80000000#32 else 0#32) 0x80000000#32 m := by
  unfold State.utSelect
  rw [if_neg (mt selFlag_iff.1 h), if_pos hgood]

theorem utSelect_bad (h : s.f F.AFE_UT_CTRL_SEL ≠ b2n sel) (hbad : s.utValid (b2n sel) ≠ true) :
    s.utSelect m due sel = s.emit .UT_BAD 0 [(b2n sel : Int)] := by
  unfold State.utSelect
  rw [if_neg (mt selFlag_iff.1 h), if_neg hbad]

/-- The register shows a selection that waits at once (R8, R582). -/
theorem hold_selects (s : State) :
    (s.hold due Reg.AFE_UT_CTRL (if sel then 0x80000000#32 else 0#32) 0x80000000#32 m).f F.AFE_UT_CTRL_SEL = b2n sel := by
  have hshown : (s.hold due Reg.AFE_UT_CTRL (if sel then 0x80000000#32 else 0#32) 0x80000000#32 m).rd Reg.AFE_UT_CTRL
      = merge (s.rd Reg.AFE_UT_CTRL) (if sel then 0x80000000#32 else 0#32) 0x80000000#32 := State.rd_wr_same ..
  unfold State.f
  rw [show F.AFE_UT_CTRL_SEL.addr = Reg.AFE_UT_CTRL from rfl, hshown]
  cases sel <;> exact fieldOf_top_merge ..

end UserTable

/-- The field in force stands while a write of its register waits (R582). -/
theorem hold_ef (s : State) (due : Nat) (x : RegField) (data mask : Word) (m : Nat) : (s.hold due x.addr data mask m).ef x = s.ef x := by
  unfold State.ef State.eff State.hold
  rw [tabGet_tabSet_same]
  rfl

/-! ### The end of a code period on a path that does not run (R158) -/

/-- A write of one key leaves the entries of the others alone. -/
theorem mem_tabSet_ne {α : Type} [DecidableEq α] {d : Nat → α} {t : Tab α} {a : Nat} {v : α} {x : Nat × α} (h : x.1 ≠ a) :
    x ∈ tabSet d t a v ↔ x ∈ t := by
  have hne : x ≠ (a, v) := fun e => h (congrArg Prod.fst e)
  unfold tabSet
  split
  · rw [mem_tabErase]
    exact and_iff_left h
  · rw [mem_tabInsert, mem_tabErase, or_iff_right hne]
    exact and_iff_left h

theorem eff_of_rd {s t : State} {a : Nat} (hforce : t.tick.force = s.tick.force) (h : t.rd a = s.rd a) : t.eff a = s.eff a := by
  unfold State.eff
  rw [hforce, h]

/-- The registers that decide, beside the coefficient banks, whether the path of channel `c` runs (R213, R216). -/
def pathRegs (c : Nat) : List Nat :=
  [Reg.KLN_TICK_CTRL, scanReg (dutyOf c), Reg.AFE_CH_CFG c, Reg.AFE_CH_CODE c, Reg.CHR_CH_CFG c, Reg.CHR_CH_RSMP c, Reg.CHR_CH_DELAY c,
    Reg.CHR_BANK_STAT]

section PathRuns
variable (s : State) {a : Nat} (w : Word)

theorem chrNT_wr (h : a < 0x780000) (b k : Nat) : (s.wr a w).chrNT b k = s.chrNT b k := by
  unfold State.chrNT chrBankAddr
  rw [State.rd_wr_ne _ _ (by omega)]

theorem protoSet_wr (h : a < 0x780000) (b q : Nat) : (s.wr a w).protoSet b q = s.protoSet b q := by
  have hin (e : Nat × Word) (hlo : chrBankAddr b (0x10000 + 0x2000 * q) ≤ e.1) : e ∈ (s.wr a w).mem ↔ e ∈ s.mem := by
    unfold chrBankAddr at hlo
    exact mem_tabSet_ne (by omega)
  rw [Bool.eq_iff_iff]
  unfold State.protoSet
  simp only [List.any_eq_true, Bool.and_eq_true, decide_eq_true_eq]
  exact exists_congr fun e => ⟨fun ⟨hm, hp⟩ => ⟨(hin e hp.1.1).1 hm, hp⟩, fun ⟨hm, hp⟩ => ⟨(hin e hp.1.1).2 hm, hp⟩⟩

/-- A register that no setting of the path lies in does not bear on whether it runs. -/
theorem pathRuns_wr {c : Nat} (hlow : a < 0x780000) (h : a ∉ pathRegs c) : (s.wr a w).pathRuns c = s.pathRuns c := by
  have hrd {b : Nat} (hb : b ∈ pathRegs c) : (s.wr a w).rd b = s.rd b := State.rd_wr_ne s w fun e => h (e ▸ hb)
  have heff {b : Nat} (hb : b ∈ pathRegs c) : (s.wr a w).eff b = s.eff b := eff_of_rd rfl (hrd hb)
  have hset : (s.wr a w).chrSet true c = s.chrSet true c := by
    unfold State.chrSet
    rw [heff (b := Reg.CHR_CH_CFG c) (by simp [pathRegs]), heff (b := Reg.CHR_CH_RSMP c) (by simp [pathRegs]),
      heff (b := Reg.CHR_CH_DELAY c) (by simp [pathRegs])]
    rfl
  have hin : (s.wr a w).inRate true c = s.inRate true c := by
    unfold State.inRate State.frameRate
    rw [heff (b := scanReg (dutyOf c)) (by simp [pathRegs])]
    rfl
  have hcoded : (s.wr a w).coded true c = s.coded true c := by
    unfold State.coded State.gf State.ef
    rw [heff (b := (F.AFE_CH_CFG_CODED c).addr) (by simp [pathRegs, F.AFE_CH_CFG_CODED])]
    rfl
  have hticks : (s.wr a w).codeTicks c = s.codeTicks c := by
    unfold State.codeTicks State.ef
    rw [heff (b := (F.AFE_CH_CODE_CODE_TICKS c).addr) (by simp [pathRegs, F.AFE_CH_CODE_CODE_TICKS])]
  have hrate : (s.wr a w).rate = s.rate := f_of_rd (hrd (by simp [pathRegs, F.KLN_TICK_CTRL_RATE]))
  have hbank : (s.wr a w).chrBank = s.chrBank := by
    have hstat : (s.wr a w).rd Reg.CHR_BANK_STAT = s.rd Reg.CHR_BANK_STAT := hrd (by simp [pathRegs])
    unfold State.chrBank State.flag
    rw [f_of_rd (x := F.CHR_BANK_STAT_ACTIVE_VALID) hstat, f_of_rd (x := F.CHR_BANK_STAT_ACTIVE) hstat]
  unfold State.pathRuns State.chrValid
  rw [hset, hin, hcoded, hticks, hrate, hbank]
  simp only [chrNT_wr s w hlow, protoSet_wr s w hlow]
  rfl

end PathRuns

theorem afeChStat_notPath (c : Fin 96) : Reg.AFE_CH_STAT c ∉ pathRegs c := by
  unfold pathRegs scanReg dutyOf Reg.AFE_CH_STAT Reg.KLN_TICK_CTRL Reg.AFE_CH_CFG Reg.AFE_CH_CODE Reg.CHR_CH_CFG Reg.CHR_CH_RSMP Reg.CHR_CH_DELAY
    Reg.CHR_BANK_STAT Reg.CNV_SCAN_A Reg.CNV_SCAN_B
  simp only [List.mem_cons, List.not_mem_nil, or_false, not_or]
  split <;> omega

theorem chrChAmb_notPath (c : Fin 96) : Reg.CHR_CH_AMB c ∉ pathRegs c := by
  unfold pathRegs scanReg dutyOf Reg.CHR_CH_AMB Reg.KLN_TICK_CTRL Reg.AFE_CH_CFG Reg.AFE_CH_CODE Reg.CHR_CH_CFG Reg.CHR_CH_RSMP Reg.CHR_CH_DELAY
    Reg.CHR_BANK_STAT Reg.CNV_SCAN_A Reg.CNV_SCAN_B
  simp only [List.mem_cons, List.not_mem_nil, or_false, not_or]
  split <;> omega

/-- Chips that an overload excludes from a period, or that none of its conversions fell into. -/
def Corr.excluded (k : Corr) : Nat := 127 - (k.chips.filter fun e => !e.2.ovl).length

/-- The ambient word of a code period (R240). -/
def Corr.ambient (k : Corr) : Word :=
  match k.result k.excluded with
  | some x => sampleWord k.or x.2
  | none => sampleWord (k.or ||| bOVL) (-8388608)

/-- The correlator at the start of the next period, of `n` ticks. -/
def Corr.turn (k : Corr) (n : Nat) : Corr := { k with period := max 1 n, start := k.start + k.period, chips := [], or := 0 }

/-- A code period of channel `c` ends: the excluded chips and the ambient word are shown, and the next period starts. -/
def State.codeTurn (s : State) (c : Nat) (k : Corr) : State :=
  let t := s.wf (F.AFE_CH_STAT_EXCL c) k.excluded
  { t with front.corrs := tabSet (fun _ => none) t.front.corrs c (some (k.turn (t.codeTicks c))) }.wr (Reg.CHR_CH_AMB c) k.ambient

section CodeEnd
variable {s : State} {c : Fin 96} {k : Corr}

theorem codeTurn_pathRuns : (s.codeTurn c k).pathRuns c = s.pathRuns c := by
  have hstat : Reg.AFE_CH_STAT c < 0x780000 := by unfold Reg.AFE_CH_STAT; omega
  have hamb : Reg.CHR_CH_AMB c < 0x780000 := by unfold Reg.CHR_CH_AMB; omega
  exact (pathRuns_wr _ _ hamb (chrChAmb_notPath c)).trans (pathRuns_wr s _ hstat (afeChStat_notPath c))

theorem codeEnd_standing (hk : tabGet (fun _ => none) s.front.corrs c = some k) (hrun : s.pathRuns c = false)
    (hdue : k.start + k.period ≤ s.closedTo) : s.codeEnd c = s.codeTurn c k := by
  have hstands : (s.codeTurn c k).pathRuns c = false := codeTurn_pathRuns.trans hrun
  unfold State.codeEnd
  rw [hk]
  dsimp only
  rw [if_neg (Nat.not_lt.2 hdue)]
  exact if_pos (Bool.or_eq_true_iff.2 (.inl (congrArg not hstands)))

theorem codeTurn_excl : (s.codeTurn c k).f (F.AFE_CH_STAT_EXCL c) = k.excluded := by
  have hne : (F.AFE_CH_STAT_EXCL c).addr ≠ Reg.CHR_CH_AMB c := by
    change Reg.AFE_CH_STAT c ≠ Reg.CHR_CH_AMB c
    unfold Reg.AFE_CH_STAT Reg.CHR_CH_AMB
    omega
  have hsmall : k.excluded < 2 ^ 8 := lt_of_le_of_lt (Nat.sub_le ..) (by decide)
  unfold State.codeTurn
  rw [State.f_wr_ne _ _ hne]
  exact (State.f_wf_same s (fieldOk_of rfl) _).trans (Nat.mod_eq_of_lt hsmall)

theorem codeTurn_corr : tabGet (fun _ => none) (s.codeTurn c k).front.corrs c = some (k.turn (s.codeTicks c)) := by
  have hne : Reg.AFE_CH_CODE c ≠ Reg.AFE_CH_STAT c := by
    unfold Reg.AFE_CH_CODE Reg.AFE_CH_STAT
    omega
  have hticks : (s.wf (F.AFE_CH_STAT_EXCL c) k.excluded).codeTicks c = s.codeTicks c := by
    unfold State.codeTicks State.ef
    exact congrArg (fieldOf · 15 0) (eff_of_rd rfl (State.rd_wf_ne (x := F.AFE_CH_STAT_EXCL c) s _ hne))
  unfold State.codeTurn
  rw [State.wr_front, hticks]
  exact tabGet_tabSet_same (d := fun _ => none) s.front.corrs c.val (some (k.turn (s.codeTicks c)))

end CodeEnd

end Sys2Proof.Machine
end

section
open Sys2Proof Sys2Proof.Machine

/-- Settles O35: each command is the update that its rule names, and what it shows is read off that update. -/
theorem frontEndCommandsAct : Obligations.FrontEndCommandsAct := by
  unfold Obligations.FrontEndCommandsAct
  intro s c d m
  refine ⟨?settled, ?settling, ?cmCheck, ?comply, ?limit, ?limitAgain, ?limitEnd, ?utSelect, ?codeEnd, ?rails⟩
  case settled =>
    exact fun h => ⟨_, execSettleEnd_due h, State.f_wf_same s (fieldOk_of rfl) 0, fun a ha => State.rd_wf_ne s 0 ha, State.wf_rest ..⟩
  case settling => exact fun h => execSettleEnd_early h
  case cmCheck =>
    intro mv
    dsimp only
    refine ⟨fun h => congrArg Host.Outcome.next (cmCheck_idle h), fun hlive h => ?out, fun hlive hhi hlo => ?inside⟩
    case out =>
      refine ⟨_, congrArg Host.Outcome.next (cmCheck_out hlive h), ?_, ?_, fun hcmf hdeb => ?_, fun hno => ?_⟩
      · split
        · rw [cmDeclare_cmOut, cmCounts_cmOut]
        · rw [cmCounts_cmOut]
      · split
        · rw [cmDeclare_cmIn, cmCounts_cmIn]
        · rw [cmCounts_cmIn]
      · rw [if_pos ⟨by omega, hdeb⟩]
        refine ⟨cmDeclare_cmf .., cmDeclare_class _ _ (by split <;> decide), ?_⟩
        have hjoins := cmDeclare_joins (s.cmCounts c (tabGet (fun _ => 0) s.front.cmOut c + 1) 0) c
          (if s.efs (F.AFE_CH_CM_CM_HI c) * 100 < mv then 1 else 2)
        rw [Nat.cast_ite] at hjoins
        exact hjoins
      · rw [if_neg (by omega)]
        exact ⟨rfl, rfl⟩
    case inside =>
      refine ⟨_, congrArg Host.Outcome.next (cmCheck_inside hlive hhi hlo), ?_, ?_, fun hcmf hdeb => ?_, fun hno => ?_⟩
      · split
        · rw [cmClear_front, cmCounts_cmIn]
        · rw [cmCounts_cmIn]
      · split
        · rw [cmClear_front, cmCounts_cmOut]
        · rw [cmCounts_cmOut]
      · rw [if_pos hdeb]
        refine ⟨cmClear_cmf .., ?_⟩
        have hclear := cmClear_declared (s.cmCounts c 0 (tabGet (fun _ => 0) s.front.cmIn c + 1)) c hcmf
        rw [hclear]
        exact emit_joins (by rw [State.wf_hub, cmCounts_hub]) _ _ _
      · rcases hno with hcmf | hdeb
        · rw [cmClear_none _ _ (by rw [cmCounts_f, hcmf]; decide), ite_self]
          exact ⟨rfl, rfl⟩
        · rw [if_neg (Nat.not_le.2 hdeb)]
          exact ⟨rfl, rfl⟩
  case comply =>
    intro force
    dsimp only
    rw [← forceMax_eq]
    refine ⟨fun h => congrArg Host.Outcome.next (excComply_idle h), fun h => ?_⟩
    obtain ⟨hstat, hforce, hcomply, hregs⟩ := excComply_shown (force := force) h
    refine ⟨_, rfl, hstat, hforce, hcomply, hregs, fun hwas hat => ?_, fun hq => ?_⟩
    · rw [excComply_begins h hwas hat]
      exact emit_joins (by rw [complied_hub]) _ _ _
    · exact congrArg HubSt.evq ((congrArg State.hub (excComply_quiet h hq)).trans complied_hub)
  case limit =>
    intro hout h
    refine ⟨_, execExcLimit_begins hout h, ?_, ?_, limited_regs.emit _ _ _, emit_joins (by rw [limited_hub]) _ _ _⟩
    · rw [f_emit _ _ _ _ (not_eventReg (afeExStat_ge d)), limited_limit]
    · rw [emit_front, limited_limitAt]
  case limitAgain => exact fun h => execExcLimit_again h
  case limitEnd =>
    intro b h hb
    refine ⟨_, execExcLimitEnd_ends h hb, ?_, unlimited_regs.emit _ _ _, emit_joins (by rw [unlimited_hub]) _ _ _⟩
    rw [f_emit _ _ _ _ (not_eventReg (afeExStat_ge d)), unlimited_limit]
  case utSelect =>
    intro sel
    dsimp only
    refine ⟨fun h => congrArg Host.Outcome.next (utSelect_same h), fun h hgood => ?held, fun h hbad => ?bad⟩
    case held =>
      refine ⟨_, congrArg Host.Outcome.next (utSelect_held h ((utValid_iff _).2 hgood)), ?_, hold_ef s _ F.AFE_UT_CTRL_SEL .., _, rfl, rfl, rfl⟩
      exact hold_selects s
    case bad =>
      exact ⟨_, congrArg Host.Outcome.next (utSelect_bad h (mt (utValid_iff _).1 hbad)), (State.RegsBut.refl s []).emit _ _ _, emit_joins rfl _ _ _⟩
  case codeEnd =>
    intro k hk hrun hdue
    refine ⟨_, congrArg Host.Outcome.next (codeEnd_standing hk hrun hdue), ?_, _, codeTurn_corr, rfl, rfl, rfl⟩
    rw [codeTurn_excl]
    exact (Nat.mod_eq_of_lt (lt_of_le_of_lt (Nat.sub_le ..) (by decide))).symm
  case rails => exact fun high => ⟨_, rfl, tabGet_tabSet_same .., rfl⟩

end

section
/-!
PROOFS. Conversions (R137, R139, R161 to R167) and the slice-mismatch estimator (R170 to R172): when a conversion is due, the record it leaves,
and what a completed block does.
-/
namespace Sys2Proof.Machine

open Sys2Proof

/-! ### When a conversion is due (R163, R165) -/

section Schedule
variable (s : State) (c j : Nat)

/-- The scan word in force of the duty of channel `c`. -/
def State.scanNow : Word := s.eff (scanReg (dutyOf c))

/-- The offset of frame `j`'s conversion of channel `c` in its second, in 2^-16 ns. -/
def State.convOffset : Nat := (frameStart (scanRate (s.scanNow c)) j + 80 * scanRank (scanMask (s.scanNow c)) (c % 4)) * 81920

/-- The network second of that conversion, which the running tick may still belong to. -/
def State.convSec : Nat :=
  if boundaryClock s.rate (s.tick.num + 1) ≤ s.tick.num / s.rate * secUnits + s.convOffset c j then s.tick.num / s.rate - 1
  else s.tick.num / s.rate

/-- Its instant. -/
def State.convInst : Nat := s.convSec c j * secUnits + s.convOffset c j

/-- The core that converts channel `c`. -/
def State.convCore : Nat := 3 * (dutyOf c / 2) + s.holder (dutyOf c / 2) (dutyOf c % 2)

/-- The schedule has frame `j` of channel `c` in the running tick, and its core is free. -/
def State.convDue : Prop :=
  s.genState = 1 ∧ scanOn (s.scanNow c) c = true ∧ j < scanRate (s.scanNow c) ∧ boundaryClock s.rate s.tick.num ≤ s.convInst c j
    ∧ s.convInst c j < boundaryClock s.rate (s.tick.num + 1)
    ∧ (s.duty (dutyOf c)).since ≤ s.convSec c j * secUnits + frameStart (scanRate (s.scanNow c)) j * 81920
    ∧ s.tileConverts (c / 24) (s.convInst c j) = true ∧ ∀ l, (s.core (s.convCore c)).last = some l → l + 6553600 ≤ s.convInst c j

end Schedule

theorem coreFree_iff (x : CoreSt) (i : Nat) : coreFree x i = true ↔ ∀ l, x.last = some l → l + 6553600 ≤ i := by
  unfold coreFree
  cases x.last with
  | none => exact ⟨fun _ l h => absurd h nofun, fun _ => rfl⟩
  | some l => exact ⟨fun h m e => Option.some.inj e ▸ of_decide_eq_true h, fun h => decide_eq_true (h l rfl)⟩

section Convert
variable {s : State} {c j : Nat} {input : Int} {ovr : Option Nat} {spare : Option Int}

theorem convDue_iff : (s.genState == 1 && scanOn (s.scanNow c) c && decide (j < scanRate (s.scanNow c))
      && decide (boundaryClock s.rate s.tick.num ≤ s.convInst c j) && decide (s.convInst c j < boundaryClock s.rate (s.tick.num + 1))
      && decide ((s.duty (dutyOf c)).since ≤ s.convSec c j * secUnits + frameStart (scanRate (s.scanNow c)) j * 81920)
      && s.tileConverts (c / 24) (s.convInst c j) && coreFree (s.core (s.convCore c)) (s.convInst c j)) = true ↔ s.convDue c j := by
  simp only [Bool.and_eq_true, beq_iff_eq, decide_eq_true_eq, coreFree_iff, and_assoc]
  rfl

theorem convert_due (h : s.convDue c j) :
    s.convert c j false input ovr spare = s.convertAt c (dutyOf c) (s.convSec c j) j (s.convInst c j)
      (s.nextInst (dutyOf c) c (s.scanNow c) false (s.convSec c j) j (s.convInst c j)) input ovr spare := if_pos (convDue_iff.2 h)

theorem convert_idle (h : ¬s.convDue c j) : s.convert c j false input ovr spare = s := if_neg (mt convDue_iff.1 h)

end Convert

/-! ### What a conversion leaves (R137, R139, R162, R167, R177) -/

theorem ovrHolds_iff (o : Option Nat) (inst late : Nat) : ovrHolds o inst late = true ↔ ∃ e, o = some e ∧ (inst < e + late ∨ inst ≤ e) := by
  cases o with
  | none => exact ⟨nofun, fun ⟨_, h, _⟩ => absurd h nofun⟩
  | some e =>
    simp only [ovrHolds, Bool.or_eq_true, decide_eq_true_eq, Option.some.injEq, exists_eq_left']

/-- An overload noted at an instant counts at that instant. -/
theorem ovrNote_holds (t : Tab (Option Nat)) (c inst late : Nat) (y : Int) :
    ovrHolds (tabGet (fun _ => none) (ovrNote t c inst y) c) inst late = true
      ↔ 513803 ≤ y.natAbs ∨ ovrHolds (tabGet (fun _ => none) t c) inst late = true := by
  unfold ovrNote overRange
  by_cases hy : 513803 ≤ y.natAbs
  · rw [if_pos (decide_eq_true hy), tabGet_tabSet_same, ovrHolds_iff]
    exact ⟨fun _ => .inl hy, fun _ => ⟨inst, rfl, .inr le_rfl⟩⟩
  · rw [if_neg (by simpa using hy), or_iff_right hy]

/-- Nothing differs but the cores and the overloads noted of conversions. -/
def State.ConvFrame (s t : State) : Prop :=
  { t with front.cores := s.front.cores, front.ovr := s.front.ovr, front.ovrS := s.front.ovrS } = s

theorem State.ConvFrame.trans {s t u : State} (h : s.ConvFrame t) (k : t.ConvFrame u) : s.ConvFrame u := by
  unfold State.ConvFrame at h k ⊢
  rw [← k] at h
  exact h

namespace State.ConvFrame

variable {s t : State} (h : s.ConvFrame t)
include h

theorem rd (a : Nat) : t.rd a = s.rd a := (congrArg (State.rd · a) h :)
theorem hub : t.hub = s.hub := (congrArg State.hub h :)
theorem tick : t.tick = s.tick := (congrArg State.tick h :)
theorem visit (n : Nat) : t.visit n = s.visit n := (congrArg (State.visit · n) h :)
theorem convs : t.front.convs = s.front.convs := (congrArg (fun t : State => t.front.convs) h :)
theorem settleTo : t.front.settleTo = s.front.settleTo := (congrArg (fun t : State => t.front.settleTo) h :)

end State.ConvFrame

theorem shadowConv_frame (s : State) (p : Option Nat) (c inst : Nat) (next : Option Nat) (y : Int) (late : Nat) (ovl : Bool) :
    s.ConvFrame (s.shadowConv p c inst next y late ovl).2 := by
  unfold State.shadowConv
  cases p <;> rfl

/-- A conversion record joins. -/
def State.addConv (s : State) (k : Conv) : State := { s with front.convs := s.front.convs ++ [k] }

@[simp] theorem addConv_rd (s : State) (k : Conv) (a : Nat) : (s.addConv k).rd a = s.rd a := rfl
@[simp] theorem addConv_hub (s : State) (k : Conv) : (s.addConv k).hub = s.hub := rfl
@[simp] theorem addConv_tick (s : State) (k : Conv) : (s.addConv k).tick = s.tick := rfl
@[simp] theorem addConv_core (s : State) (k : Conv) (q : Nat) : (s.addConv k).core q = s.core q := rfl
@[simp] theorem addConv_convs (s : State) (k : Conv) : (s.addConv k).front.convs = s.front.convs ++ [k] := rfl

theorem core_wf (s : State) (x : RegField) (v q : Nat) : (s.wf x v).core q = s.core q := rfl

section ConvertAt
variable (s : State) (c d sec j inst : Nat) (next : Option Nat) (input : Int) (ovr : Option Nat) (spare : Option Int)

/-- The core that holds duty `d`. -/
def State.dutyCore : Nat := 3 * (d / 2) + s.holder (d / 2) (d % 2)

/-- The conversion of an input under the settings of channel `c`. -/
def State.convCode : Int :=
  codeOf (s.ef (F.AFE_CH_CFG_MODE c)) (s.ef (F.AFE_CH_CFG_VRANGE c)) (s.ef (F.AFE_CH_CFG_TIA c)) input

/-- How long an overload of channel `c` holds. -/
def State.ovrHold : Nat := recovery (s.ef (F.AFE_CH_CFG_MODE c)) (s.ef (F.AFE_CH_CFG_TIA c))

/-- The core of duty `d` has converted, and an overload of a channel that is not off is noted. -/
def State.convTaken : State :=
  let t := s.setCore (s.dutyCore d) (afterConv (s.core (s.dutyCore d)) (sliceAt (s.core (s.dutyCore d)) inst) inst next)
  if s.ef (F.AFE_CH_CFG_MODE c) = 0 then t else { t with front.ovr := ovrNote s.front.ovr c inst (s.convCode c input) }

/-- The spare core that shadows duty `d` in tick `t` (R177). -/
def State.shadowOf (t : Nat) : Option Nat :=
  match s.visit (d / 2) with
  | some v =>
    if v.duty == some (d % 2) && decide (v.ts ≤ t) && s.holder (d / 2) (d % 2) == v.core then some (3 * (d / 2) + v.spare) else none
  | none => none

/-- The comparator's overload, which ended `a` ns ago, still holds. -/
def compHolds (late : Nat) : Bool := match ovr with | some a => a == 0 || decide (a * 65536 < late) | none => false

/-- OVL of the conversion. -/
def State.convOvl : Bool :=
  decide (inst < tabGet (fun _ => 0) (s.convTaken c d inst next input).front.settleTo c) || compHolds ovr (s.ovrHold c)
    || s.ef (F.AFE_CH_CFG_MODE c) == 0 || ovrHolds (tabGet (fun _ => none) (s.convTaken c d inst next input).front.ovr c) inst (s.ovrHold c)

/-- The spare core has converted too. -/
def State.convShadowed : State :=
  ((s.convTaken c d inst next input).shadowConv ((s.convTaken c d inst next input).shadowOf d s.tick.num) c inst next (s.convCode c (spare.getD input))
    (s.ovrHold c) (s.convOvl c d inst next input ovr)).2

/-- The channel's status shows OVL. -/
def State.convShown : State :=
  (s.convShadowed c d inst next input ovr spare).wb (F.AFE_CH_STAT_OVL_NOW c) (s.convOvl c d inst next input ovr)

theorem convertAt_eq : ∃ k : Conv, s.convertAt c d sec j inst next input ovr spare = (s.convShown c d inst next input ovr spare).addConv k
    ∧ k.ch = c ∧ k.core = s.dutyCore d ∧ k.slice = sliceAt (s.core (s.dutyCore d)) inst ∧ k.j = j ∧ k.sec = sec ∧ k.inst = inst
    ∧ k.tick = s.tick.num ∧ k.raw = (if s.ef (F.AFE_CH_CFG_MODE c) = 0 then -524288 else s.convCode c input)
    ∧ k.cmf = (s.convShown c d inst next input ovr spare).flag (F.AFE_CH_STAT_CMF c) ∧ k.delivered = false
    ∧ k.ovl = s.convOvl c d inst next input ovr := by
  refine ⟨_, rfl, ?_⟩
  exact ⟨rfl, rfl, rfl, rfl, rfl, rfl, rfl, rfl, rfl, rfl, rfl⟩

/-! What a conversion leaves alone, and its core's part. -/

theorem convTaken_frame : s.ConvFrame (s.convTaken c d inst next input) := by
  unfold State.convTaken State.ConvFrame
  dsimp only
  split <;> rfl

theorem convShadowed_frame : s.ConvFrame (s.convShadowed c d inst next input ovr spare) := (convTaken_frame ..).trans (shadowConv_frame ..)

theorem convShown_rd {a : Nat} (h : a ≠ Reg.AFE_CH_STAT c) : (s.convShown c d inst next input ovr spare).rd a = s.rd a := by
  unfold State.convShown State.wb
  rw [State.rd_wf_ne _ _ h, (convShadowed_frame ..).rd]

theorem convShown_hub : (s.convShown c d inst next input ovr spare).hub = s.hub := by
  unfold State.convShown State.wb
  rw [State.wf_hub, (convShadowed_frame ..).hub]

theorem convShown_tick : (s.convShown c d inst next input ovr spare).tick = s.tick := by
  unfold State.convShown State.wb
  rw [State.wf_tick, (convShadowed_frame ..).tick]

theorem convShown_convs : (s.convShown c d inst next input ovr spare).front.convs = s.front.convs := by
  unfold State.convShown State.wb
  rw [State.wf_front, (convShadowed_frame ..).convs]

theorem convShown_cmf : (s.convShown c d inst next input ovr spare).flag (F.AFE_CH_STAT_CMF c) = s.flag (F.AFE_CH_STAT_CMF c) := by
  unfold State.convShown State.wb State.flag
  rw [State.f_wf_ne _ (fieldOk_of rfl) (apart_above rfl), f_of_rd ((convShadowed_frame ..).rd _)]

theorem core_setCore (t : State) (q : Nat) (x : CoreSt) : (t.setCore q x).core q = x := tabGet_tabSet_same ..

theorem core_setCore_ne (t : State) {q k : Nat} (x : CoreSt) (h : k ≠ q) : (t.setCore q x).core k = t.core k := tabGet_tabSet_ne _ _ h

theorem convTaken_core : (s.convTaken c d inst next input).core (s.dutyCore d)
    = afterConv (s.core (s.dutyCore d)) (sliceAt (s.core (s.dutyCore d)) inst) inst next := by
  unfold State.convTaken
  dsimp only
  split
  · exact core_setCore ..
  · exact core_setCore ..

theorem afterConv_stays {x y : CoreSt} {sl i : Nat} (h : y = afterConv x sl i next) :
    y = { x with up := y.up, next := 1 - sl, last := some i } := by
  subst h
  rfl

/-- A core stays powered for a next instant within 2 µs of its busy interval. -/
theorem afterConv_up {x y : CoreSt} {sl i z : Nat} (h : y = afterConv x sl i (some z)) : y.up = true ↔ z ≤ i + 1760 * 81920 := by
  subst h
  exact decide_eq_true_iff.trans (by omega)

/-- Outside a visit no spare converts beside the duty's core. -/
theorem convShown_core (h : s.visit (d / 2) = none) : (s.convShown c d inst next input ovr spare).core (s.dutyCore d)
    = afterConv (s.core (s.dutyCore d)) (sliceAt (s.core (s.dutyCore d)) inst) inst next := by
  have hvisit : (s.convTaken c d inst next input).visit (d / 2) = none := ((convTaken_frame ..).visit _).trans h
  have hnone : (s.convTaken c d inst next input).shadowOf d s.tick.num = none := by
    unfold State.shadowOf
    rw [hvisit]
  unfold State.convShown State.convShadowed State.wb
  rw [core_wf, hnone]
  exact convTaken_core ..

/-- The last overload noted of the channel at the moment of its conversion. -/
theorem convTaken_ovr (hmode : s.ef (F.AFE_CH_CFG_MODE c) ≠ 0) :
    (s.convTaken c d inst next input).front.ovr = ovrNote s.front.ovr c inst (s.convCode c input) := by
  unfold State.convTaken
  dsimp only
  rw [if_neg hmode]

theorem compHolds_iff (late : Nat) : compHolds ovr late = true ↔ ∃ a, ovr = some a ∧ (a = 0 ∨ a * 65536 < late) := by
  cases ovr with
  | none => exact ⟨nofun, fun ⟨_, h, _⟩ => absurd h nofun⟩
  | some a => simp only [compHolds, Bool.or_eq_true, beq_iff_eq, decide_eq_true_eq, Option.some.injEq, exists_eq_left']

theorem convOvl_iff : s.convOvl c d inst next input ovr = true ↔
    s.ef (F.AFE_CH_CFG_MODE c) = 0 ∨ inst < tabGet (fun _ => 0) s.front.settleTo c ∨ (∃ a, ovr = some a ∧ (a = 0 ∨ a * 65536 < s.ovrHold c))
      ∨ (s.ef (F.AFE_CH_CFG_MODE c) ≠ 0 ∧ 513803 ≤ (s.convCode c input).natAbs)
      ∨ ∃ e, tabGet (fun _ => none) s.front.ovr c = some e ∧ (inst < e + s.ovrHold c ∨ inst ≤ e) := by
  unfold State.convOvl
  rw [Bool.or_eq_true, Bool.or_eq_true, Bool.or_eq_true, (convTaken_frame ..).settleTo, decide_eq_true_iff, compHolds_iff, beq_iff_eq]
  by_cases hmode : s.ef (F.AFE_CH_CFG_MODE c) = 0
  · exact ⟨fun _ => .inl hmode, fun _ => .inl (.inr hmode)⟩
  · rw [convTaken_ovr s c d inst next input hmode, ovrNote_holds, ovrHolds_iff]
    simp only [hmode, or_false, false_or, ne_eq, not_false_eq_true, true_and, or_assoc]

end ConvertAt

/-! ### Requests of visits (R173) -/

/-- A request changes the queue of requests, and shows a queued duty. -/
theorem request_cases (s : State) (r : VisitReq) : s.request r = s ∨ ∃ l : List VisitReq,
    s.request r = { s with front.reqs := l } ∨ ∃ v, s.request r = { s with front.reqs := l }.wf (F.CNV_VISIT_STAT_QUEUED r.cluster) v := by
  unfold State.request
  split
  · exact .inl rfl
  · refine .inr ⟨if s.front.reqs.any fun q => q.cluster == r.cluster && q.duty == r.duty then
        s.front.reqs.map fun q => if q.cluster == r.cluster && q.duty == r.duty then { q with force := q.force || r.force } else q
      else s.front.reqs ++ [r], ?_⟩
    dsimp only
    split
    · split
      · exact .inr ⟨_, rfl⟩
      · exact .inr ⟨_, rfl⟩
    · split
      · exact .inl rfl
      · exact .inl rfl

section Request
variable (s : State) (r : VisitReq)

theorem request_hub : (s.request r).hub = s.hub := by
  rcases request_cases s r with e | ⟨l, e | ⟨v, e⟩⟩ <;> rw [e]
  exact State.wf_hub ..

theorem request_core (q : Nat) : (s.request r).core q = s.core q := by
  rcases request_cases s r with e | ⟨l, e | ⟨v, e⟩⟩ <;> rw [e]
  · rfl
  · exact core_wf ..

theorem request_rd {a : Nat} (h : a ≠ Reg.CNV_VISIT_STAT r.cluster) : (s.request r).rd a = s.rd a := by
  rcases request_cases s r with e | ⟨l, e | ⟨v, e⟩⟩ <;> rw [e]
  · rfl
  · exact State.rd_wf_ne _ _ h

end Request

/-! ### The slice-mismatch estimator (R170 to R172) -/

/-- The block's spread over both slices, as the estimator weighs it. -/
def BlockSums.spread (b : BlockSums) : Int := (b.n : Int) * ((b.q0 + b.q1 : Nat) : Int) - (b.s0 + b.s1) * (b.s0 + b.s1)

section Estimate
variable (s : State) (q : Nat) (b : BlockSums)

/-- The offset that a block moves OFS to. -/
def State.estOfs : Int :=
  s.efs (F.CNV_Pp_MIS_OFS_OFS (q / 3) (q % 3)) + rdiv (16 * (b.s1 * (b.n0 : Nat) - b.s0 * (b.n1 : Nat))
    - s.efs (F.CNV_Pp_MIS_OFS_OFS (q / 3) (q % 3)) * ((b.n0 : Nat) * (b.n1 : Nat))) (16 * ((b.n0 : Nat) * (b.n1 : Nat)))

/-- A block is counted. -/
def State.estCounted : State := s.bumpWrap (F.CNV_Pp_EST_BLOCKS (q / 3) (q % 3)) 1

/-- Field `f` is out of range: the estimator freezes (R171). -/
def State.estFrozen (f : Nat) : State :=
  ((s.estCounted q).wf (F.CNV_Pp_EST_FROZEN (q / 3) (q % 3)) 1).emit .MISMATCH_RANGE (objUnit q) [(f : Int)]

/-- And the core's duty is to be visited. -/
def State.estFreeze (f : Nat) : State :=
  match (s.estFrozen q f).dutyHeld q with
  | some d => (s.estFrozen q f).request { cls := 2, cluster := q / 3, duty := some (d % 2), force := false }
  | none => s.estFrozen q f

/-- The fields that core `q` takes at the next boundary. -/
def State.estMove (m : Int × Int × Int) : State := (s.estCounted q).setCore q { s.core q with moved := some m }

theorem estCounted_hub : (s.estCounted q).hub = s.hub := State.wf_hub ..

theorem estimate_narrow (h : b.spread < ((4096 * b.n) ^ 2 : Nat)) : s.estimate q b = s := if_pos h

theorem estCounted_efs : (s.estCounted q).efs (F.CNV_Pp_MIS_OFS_OFS (q / 3) (q % 3)) = s.efs (F.CNV_Pp_MIS_OFS_OFS (q / 3) (q % 3)) := by
  have hne : Reg.CNV_Pp_MIS_OFS (q / 3) (q % 3) ≠ Reg.CNV_Pp_EST (q / 3) (q % 3) := by
    unfold Reg.CNV_Pp_MIS_OFS Reg.CNV_Pp_EST
    omega
  have heff : (s.estCounted q).eff (Reg.CNV_Pp_MIS_OFS (q / 3) (q % 3)) = s.eff (Reg.CNV_Pp_MIS_OFS (q / 3) (q % 3)) :=
    eff_of_rd (congrArg TickSt.force (State.wf_tick s _ _)) (State.rd_wf_ne (x := F.CNV_Pp_EST_BLOCKS (q / 3) (q % 3)) s _ hne)
  exact congrArg (fun w => signedOf 16 (fieldOf w 15 0)) heff

theorem estCounted_estOfs : (s.estCounted q).estOfs q b = s.estOfs q b := by
  unfold State.estOfs
  rw [estCounted_efs]

/-- The first of three fields that is out of range (R171). -/
def estBad (m : Int × Int × Int) : Option Nat :=
  if 1024 < m.1.natAbs then some 0 else if 4194 < m.2.1.natAbs then some 1 else if 20000 < m.2.2.natAbs then some 2 else none

theorem estimate_eq (h : ¬b.spread < ((4096 * b.n) ^ 2 : Nat)) : ∃ g k : Int,
    s.estimate q b = match estBad ((s.estCounted q).estOfs q b, g, k) with
      | some f => s.estFreeze q f
      | none => s.estMove q ((s.estCounted q).estOfs q b, g, k) := by
  unfold State.estimate
  exact ⟨_, _, (if_neg h).trans rfl⟩

/-- A block that is wide enough freezes the estimator over its first field out of range, or moves the three. -/
theorem estimate_wide (h : ¬b.spread < ((4096 * b.n) ^ 2 : Nat)) :
    (1024 < (s.estOfs q b).natAbs ∧ s.estimate q b = s.estFreeze q 0)
      ∨ ((s.estOfs q b).natAbs ≤ 1024 ∧ ((∃ f, s.estimate q b = s.estFreeze q f)
        ∨ ∃ g k : Int, g.natAbs ≤ 4194 ∧ k.natAbs ≤ 20000 ∧ s.estimate q b = s.estMove q (s.estOfs q b, g, k))) := by
  obtain ⟨g, k, e⟩ := estimate_eq s q b h
  rw [estCounted_estOfs] at e
  rw [e]
  unfold estBad
  by_cases ho : 1024 < (s.estOfs q b).natAbs
  · exact .inl ⟨ho, by rw [if_pos ho]⟩
  · rw [if_neg ho]
    refine .inr ⟨Nat.not_lt.1 ho, ?_⟩
    by_cases hg : 4194 < g.natAbs
    · exact .inl ⟨1, by rw [if_pos hg]⟩
    · rw [if_neg hg]
      by_cases hk : 20000 < k.natAbs
      · exact .inl ⟨2, by rw [if_pos hk]⟩
      · exact .inr ⟨g, k, Nat.not_lt.1 hg, Nat.not_lt.1 hk, by rw [if_neg hk]⟩

/-! What a frozen estimator shows. -/

theorem estFreeze_cases (f : Nat) : s.estFreeze q f = s.estFrozen q f
    ∨ ∃ r : VisitReq, r.cluster = q / 3 ∧ s.estFreeze q f = (s.estFrozen q f).request r := by
  unfold State.estFreeze
  split
  · exact .inr ⟨_, rfl, rfl⟩
  · exact .inl rfl

/-- The registers that a block of core `q` may write. -/
def estRegs : List Nat := [Reg.CNV_Pp_EST (q / 3) (q % 3), Reg.CNV_VISIT_STAT (q / 3)]

theorem estCounted_regs : s.RegsBut (s.estCounted q) (estRegs q) :=
  (State.RegsBut.refl s _).wf (x := F.CNV_Pp_EST_BLOCKS (q / 3) (q % 3)) _ List.mem_cons_self

theorem estFrozen_regs (f : Nat) : s.RegsBut (s.estFrozen q f) (estRegs q) :=
  ((estCounted_regs s q).wf (x := F.CNV_Pp_EST_FROZEN (q / 3) (q % 3)) _ List.mem_cons_self).emit _ _ _

theorem estFreeze_rd (f : Nat) {a : Nat} (h : a ≠ Reg.CNV_VISIT_STAT (q / 3)) : (s.estFreeze q f).rd a = (s.estFrozen q f).rd a := by
  rcases estFreeze_cases s q f with e | ⟨r, hr, e⟩
  · rw [e]
  · rw [e, request_rd _ _ (hr ▸ h)]

theorem estFreeze_regs (f : Nat) : s.RegsBut (s.estFreeze q f) (estRegs q) := fun a ha hr =>
  (estFreeze_rd s q f fun e : a = _ => ha (e.symm ▸ List.mem_cons_of_mem _ (List.mem_singleton_self _))).trans (estFrozen_regs s q f a ha hr)

theorem cnvEst_ge (n p : Nat) : 0x20000 ≤ Reg.CNV_Pp_EST n p := by unfold Reg.CNV_Pp_EST; omega

theorem estFreeze_frozen (f : Nat) : (s.estFreeze q f).f (F.CNV_Pp_EST_FROZEN (q / 3) (q % 3)) = 1 := by
  have hne : Reg.CNV_Pp_EST (q / 3) (q % 3) ≠ Reg.CNV_VISIT_STAT (q / 3) := by
    unfold Reg.CNV_Pp_EST Reg.CNV_VISIT_STAT
    omega
  have hrd := f_of_rd (x := F.CNV_Pp_EST_FROZEN (q / 3) (q % 3)) (estFreeze_rd s q f hne)
  rw [hrd]
  unfold State.estFrozen
  rw [f_emit _ _ _ _ (not_eventReg (cnvEst_ge ..)), State.f_wf_same _ (fieldOk_of rfl)]
  rfl

theorem estFreeze_core (f k : Nat) : (s.estFreeze q f).core k = s.core k := by
  have hfrozen : (s.estFrozen q f).core k = s.core k := by
    unfold State.estFrozen State.core
    rw [emit_front, State.wf_front]
    rfl
  rcases estFreeze_cases s q f with e | ⟨r, -, e⟩
  · rw [e, hfrozen]
  · rw [e, request_core, hfrozen]

theorem estFreeze_joins (f : Nat) : s.Joins (s.estFreeze q f) .MISMATCH_RANGE (objUnit q) [(f : Int)] := by
  have hjoins : s.Joins (s.estFrozen q f) .MISMATCH_RANGE (objUnit q) [(f : Int)] :=
    emit_joins (by rw [State.wf_hub, estCounted_hub]) _ _ _
  have hhub : (s.estFreeze q f).hub = (s.estFrozen q f).hub := by
    rcases estFreeze_cases s q f with e | ⟨r, -, e⟩
    · rw [e]
    · rw [e, request_hub]
  unfold State.Joins
  rw [hhub]
  exact hjoins

theorem estMove_core (m : Int × Int × Int) : (s.estMove q m).core q = { s.core q with moved := some m } := core_setCore ..

theorem estMove_regs (m : Int × Int × Int) : s.RegsBut (s.estMove q m) (estRegs q) := estCounted_regs s q

end Estimate

/-! ### A completed block is taken up (R170) -/

section Block
variable {s : State} {q : Nat}

/-- The completed block of core `q` is gone. -/
def State.estTaken (s : State) (q : Nat) : State := s.setCore q { s.core q with full := none }

theorem estRuns_setCore (s : State) (q k : Nat) (x : CoreSt) : (s.setCore k x).estRuns q = s.estRuns q := rfl

theorem estBlock_none (h : (s.core q).full = none) : s.estBlock q = s := by
  unfold State.estBlock
  rw [h]

theorem estBlock_stopped {b : BlockSums} (h : (s.core q).full = some b) (hruns : s.estRuns q = false) : s.estBlock q = s.estTaken q := by
  unfold State.estBlock
  rw [h]
  dsimp only
  rw [estRuns_setCore, hruns]
  rfl

theorem estBlock_runs {b : BlockSums} (h : (s.core q).full = some b) (hruns : s.estRuns q = true) :
    s.estBlock q = (s.estTaken q).estimate q b := by
  unfold State.estBlock
  rw [h]
  dsimp only
  rw [estRuns_setCore, hruns]
  rfl

theorem estTaken_moved : ((s.estTaken q).core q).moved = (s.core q).moved := by
  unfold State.estTaken
  rw [core_setCore]

end Block

/-! ### A core's start-up (R167) -/

theorem execCoreStartUp_up {s : State} {q : Fin 36} (h : (s.core q).up = true) : execCoreStartUp q s = .next s :=
  congrArg Host.Outcome.next (if_pos h)

theorem execCoreStartUp_down {s : State} {q : Fin 36} (h : (s.core q).up = false) :
    execCoreStartUp q s = .next (s.setCore q { s.core q with up := true, next := 0 }) :=
  congrArg Host.Outcome.next (if_neg (Bool.eq_false_iff.1 h))

end Sys2Proof.Machine
end

section
open Sys2Proof Sys2Proof.Machine

/-- Settles O39: a due conversion is the one record that `convertAt_eq` names, and a completed block freezes the estimator or moves its fields. -/
theorem conversionsAndEstimator : Obligations.ConversionsAndEstimator := by
  unfold Obligations.ConversionsAndEstimator
  intro s
  refine ⟨?conversion, ?startUp, ?estimator⟩
  case conversion =>
    intro c j input ovr spare
    refine ⟨fun hdue => ?due, fun hno => congrArg Host.Outcome.next (convert_idle (s := s) (c := c) (j := j) hno)⟩
    have hdue : s.convDue c j := hdue
    obtain ⟨k, hk, hch, hcore, hslice, hj, hsec, hinst, htick, hraw, hcmf, hdel, hovl⟩ := convertAt_eq s c (dutyOf c) (s.convSec c j) j (s.convInst c j)
      (s.nextInst (dutyOf c) c (s.scanNow c) false (s.convSec c j) j (s.convInst c j)) input ovr spare
    refine ⟨_, congrArg Host.Outcome.next ((convert_due hdue).trans hk), fun a ha => ?_, ?_, ?_, fun hvisit => ?_, k, ?_, hch, hcore, hslice, hj, hsec,
      hinst, htick, hraw, ?_, hdel, ?_⟩
    · rw [addConv_rd, convShown_rd _ _ _ _ _ _ _ _ ha]
    · rw [addConv_hub, convShown_hub]
    · rw [addConv_tick, convShown_tick]
    · have hcore := convShown_core s c (dutyOf c) (s.convInst c j)
        (s.nextInst (dutyOf c) c (s.scanNow c) false (s.convSec c j) j (s.convInst c j)) input ovr spare hvisit
      rw [addConv_core]
      refine ⟨afterConv_stays _ hcore, fun z hz => ?_⟩
      have hnext : s.nextInst (dutyOf c) c (s.scanNow c) false (s.convSec c j) j (s.convInst c j) = some z := hz
      rw [hnext] at hcore
      exact afterConv_up (by rw [hnext]; exact hcore)
    · rw [addConv_convs, convShown_convs]
    · rw [hcmf, convShown_cmf]
    · rw [hovl]
      exact convOvl_iff ..
  case startUp =>
    intro q
    exact ⟨fun h => execCoreStartUp_up h, fun h => ⟨_, execCoreStartUp_down h, core_setCore .., fun x hx => core_setCore_ne _ _ hx, rfl⟩⟩
  case estimator =>
    intro tile cluster p
    have hq : 9 * tile.val + 3 * cluster.val + p.val = 3 * (3 * tile.val + cluster.val) + p.val := by omega
    have hexec : exec (.estimatorBlock tile cluster p) s = .next (s.estBlock (3 * (3 * tile.val + cluster.val) + p.val)) :=
      congrArg (fun q => Host.Outcome.next (s.estBlock q)) hq
    dsimp only
    rw [hexec]
    generalize 3 * tile.val + cluster.val = n
    have hdiv : (3 * n + p.val) / 3 = n := by omega
    have hmod : (3 * n + p.val) % 3 = p.val := by omega
    generalize hqe : 3 * n + p.val = q at hdiv hmod
    refine ⟨fun h => congrArg Host.Outcome.next (estBlock_none h), fun b hfull hb h0 h1 => ?_⟩
    have hofs : (s.estTaken q).estOfs q b = s.efs (F.CNV_Pp_MIS_OFS_OFS n p)
        + rdiv (16 * (b.s1 * 524288 - b.s0 * 524288) - s.efs (F.CNV_Pp_MIS_OFS_OFS n p) * (524288 * 524288)) (16 * (524288 * 524288)) := by
      unfold State.estOfs
      rw [h0, h1, hdiv, hmod]
      rfl
    have hspread : b.spread < ((4096 * b.n) ^ 2 : Nat) ↔
        2 * 524288 * ((b.q0 + b.q1 : Nat) : Int) - (b.s0 + b.s1) * (b.s0 + b.s1) < 18446744073709551616 := by
      unfold BlockSums.spread
      rw [hb]
      norm_num
    have hregs : estRegs q = [Reg.CNV_Pp_EST n p, Reg.CNV_VISIT_STAT n] := by
      unfold estRegs
      rw [hdiv, hmod]
    refine ⟨fun hruns => ?stopped, fun hruns hall => ?narrow, fun hruns hall ho => ?moves, fun hruns hall ho => ?freezes⟩
    case stopped => exact congrArg Host.Outcome.next (estBlock_stopped hfull hruns)
    case narrow => exact congrArg Host.Outcome.next ((estBlock_runs hfull hruns).trans (estimate_narrow _ _ _ (hspread.2 hall)))
    case moves =>
      rw [estBlock_runs hfull hruns, ← hregs]
      rcases estimate_wide (s.estTaken q) q b (mt hspread.1 (Int.not_lt.2 hall)) with ⟨hbad, -⟩ | ⟨-, ⟨f, e⟩ | ⟨g, k, hg, hk, e⟩⟩
      · rw [hofs] at hbad
        exact absurd hbad (Nat.not_lt.2 ho)
      · refine ⟨_, congrArg Host.Outcome.next e, estFreeze_regs (s.estTaken q) q f, fun hzero => ?_⟩
        have hone := estFreeze_frozen (s.estTaken q) q f
        rw [hdiv, hmod] at hone
        exact absurd (hone.symm.trans hzero) (by decide)
      · refine ⟨_, congrArg Host.Outcome.next e, estMove_regs (s.estTaken q) q _, fun _ => ⟨g, k, ?_, hg, hk⟩⟩
        rw [estMove_core, hofs]
    case freezes =>
      rw [estBlock_runs hfull hruns]
      rcases estimate_wide (s.estTaken q) q b (mt hspread.1 (Int.not_lt.2 hall)) with ⟨-, e⟩ | ⟨hgood, -⟩
      · have hone := estFreeze_frozen (s.estTaken q) q 0
        rw [hdiv, hmod] at hone
        refine ⟨_, congrArg Host.Outcome.next e, hone, ?_, estFreeze_joins (s.estTaken q) q 0⟩
        rw [estFreeze_core, estTaken_moved]
      · rw [hofs] at hgood
        exact absurd hgood (Nat.not_le.2 ho)

end

section
/-!
PROOFS. What records, frames and triggers leave alone of the edge timer (R347, R348, R364): its stamps, sources, interval units and groups, and
its registers but EDG_STAT. `EdgeStands` is this frame; each operation extends it, so that a longer one is a chain of shorter ones.
-/
namespace Sys2Proof.Machine

open Sys2Proof

/-- A register of the edge timer (R537) that a record does not write. -/
def edgReg (a : Nat) : Prop := 0xB00000 ≤ a ∧ a < 0xC00000 ∧ a ≠ Reg.EDG_STAT

/-- `t` comes from `s` with the tick, the edge timer's state beside its EDG_QUEUE_FULL episode, and the registers of `edgReg` untouched. -/
structure EdgeStands (s t : State) : Prop where
  rd : ∀ a, edgReg a → t.rd a = s.rd a
  tick : t.tick = s.tick
  edg : { t.edg with full := s.edg.full } = s.edg

theorem not_edgReg_low {a : Nat} (h : a < 0xB00000) : ¬edgReg a := fun k => Nat.not_lt.2 k.1 h

theorem not_edgReg_high {a : Nat} (h : 0xC00000 ≤ a) : ¬edgReg a := fun k => Nat.not_lt.2 h k.2.1

theorem not_edgReg_add {a k : Nat} (h : 0xC00000 ≤ a) : ¬edgReg (a + k) := not_edgReg_high (Nat.le_add_right_of_le h)

theorem not_edgReg_stat : ¬edgReg Reg.EDG_STAT := fun k => k.2.2 rfl

namespace EdgeStands

variable {s0 s t : State}

theorem refl : EdgeStands s s := ⟨fun _ _ => rfl, rfl, rfl⟩

theorem trans (h : EdgeStands s0 s) (k : EdgeStands s t) : EdgeStands s0 t := by
  refine ⟨fun a ha => (k.rd a ha).trans (h.rd a ha), k.tick.trans h.tick, ?_⟩
  have hs := h.edg
  rw [← k.edg] at hs
  exact hs

/-- An update of the parts of the state beside registers, tick and edge timer. -/
theorem update (h : EdgeStands s0 s) {b : Bool} {ki hu fr fl pn pt kn qm pr cr up sp um pe} :
    EdgeStands s0 (State.mk s.mem s.tick ki hu fr fl pn pt { s.edg with full := b } kn qm pr cr up sp um pe) :=
  h.trans ⟨fun _ _ => rfl, rfl, rfl⟩

theorem ite {c : Prop} [Decidable c] {x y : State} (hx : EdgeStands s0 x) (hy : EdgeStands s0 y) : EdgeStands s0 (if c then x else y) := by
  split <;> assumption

theorem foldl {α : Type} {f : State → α → State} (hf : ∀ x a, EdgeStands s0 x → EdgeStands s0 (f x a)) (l : List α) (h : EdgeStands s0 s) :
    EdgeStands s0 (l.foldl f s) := by
  induction l generalizing s with
  | nil => exact h
  | cons a l ih => exact ih (hf _ a h)

theorem wr (h : EdgeStands s0 s) (a : Nat) (w : Word) (ha : ¬edgReg a) : EdgeStands s0 (s.wr a w) :=
  h.trans ⟨fun _ hc => State.rd_wr_ne s w fun e => ha (e ▸ hc), rfl, rfl⟩

theorem wf (h : EdgeStands s0 s) (x : RegField) (v : Nat) (ha : ¬edgReg x.addr) : EdgeStands s0 (s.wf x v) := h.wr _ _ ha

theorem records (h : EdgeStands s0 s) (k : Records s t) : EdgeStands s0 t := by
  have hedg : t.edg = s.edg := (congrArg State.edg k.rest :)
  refine h.trans ⟨fun a ha => k.rd a (not_eventReg (Nat.le_trans (by decide) ha.1)), k.tick, ?_⟩
  rw [hedg]

theorem emit (h : EdgeStands s0 s) (n : EvName) (o : Nat) (d : List Int) : EdgeStands s0 (s.emit n o d) := h.records (emit_records ..)

end EdgeStands

/-! ### What the frame leaves readable -/

namespace EdgeStands

variable {s t : State} (h : EdgeStands s t)
include h

theorem srcs : t.edg.srcs = s.edg.srcs := (congrArg EdgSt.srcs h.edg :)
theorem fifo : t.edg.fifo = s.edg.fifo := (congrArg EdgSt.fifo h.edg :)
theorem interval (i : Nat) : t.interval i = s.interval i := (congrArg (fun x => (tabGet (fun _ => none) x.intervals i).getD interval0) h.edg :)
theorem group (g : Nat) : t.group g = s.group g := (congrArg (fun x => (tabGet (fun _ => none) x.groups g).getD group0) h.edg :)
theorem f {x : RegField} (hx : edgReg x.addr) : t.f x = s.f x := f_of_rd (h.rd _ hx)
theorem eff {a : Nat} (ha : edgReg a) : t.eff a = s.eff a := eff_of_rd (congrArg TickSt.force h.tick) (h.rd _ ha)
theorem ef {x : RegField} (hx : edgReg x.addr) : t.ef x = s.ef x := congrArg (fieldOf · x.hi x.lo) (h.eff hx)

end EdgeStands

section Chain
variable {s0 s : State}

/-! ### Queues (R380, R385) -/

theorem takeCells_stands (h : EdgeStands s0 s) (l : List Nat) (n : Nat) : EdgeStands s0 (s.takeCells l n).2 := by
  unfold State.takeCells
  exact ((h.wf F.QMG_POOL_FREE _ (not_edgReg_high (by decide))).update).wf F.QMG_POOL_LOW_LOW _ (not_edgReg_high (by decide))

theorem showDepth_stands (h : EdgeStands s0 s) (q : Nat) : EdgeStands s0 (s.showDepth q) := by
  unfold State.showDepth State.wb
  exact ((h.wf _ _ (not_edgReg_add (by decide))).wf _ _ (not_edgReg_add (by decide))).wf _ _ (not_edgReg_add (by decide))

theorem showQueue_stands (h : EdgeStands s0 s) (q : Nat) (rise : Bool) : EdgeStands s0 (s.showQueue q rise) := by
  have hdepth := showDepth_stands h q
  have hmark (v : Nat) (w : Word) (n : EvName) (d : List Int) :
      EdgeStands s0 ((((s.showDepth q).wf (F.QMG_Qq_STAT_DEEP q) v).wr (Reg.QMG_DEEP_MAP (q / 32)) w).emit n (objQueue q) d) :=
    ((hdepth.wf _ v (not_edgReg_add (by decide))).wr _ w (not_edgReg_add (by decide))).emit n _ d
  unfold State.showQueue
  exact .ite (hmark _ _ _ _) (.ite (hmark _ _ _ _) hdepth)

theorem link_stands (h : EdgeStands s0 s) (q : Nat) (ws : List Word) (rs : List Range) (bs : List Nat) : EdgeStands s0 (s.link q ws rs bs) := by
  unfold State.link State.bumpWrap
  exact showQueue_stands (EdgeStands.wf h.update _ _ (not_edgReg_add (by decide))) q true

theorem putPacket_stands (h : EdgeStands s0 s) (q : Nat) (ws : List Word) : EdgeStands s0 (s.putPacket q ws).2 := by
  unfold State.putPacket State.bump State.linkWhole
  split
  · exact h.wf _ _ (not_edgReg_add (by decide))
  · exact link_stands (takeCells_stands h _ _) ..

theorem putRecord_stands (h : EdgeStands s0 s) (q : Nat) (ws : List Word) : EdgeStands s0 (s.putRecord q ws).2 := by
  have hput := putPacket_stands h q ws
  have hdrop : EdgeStands s0 ((s.putPacket q ws).2.bump F.EDG_STAT_QDROP 1) := hput.wf _ _ not_edgReg_stat
  unfold State.putRecord
  split
  · exact h
  · dsimp only
    split
    · exact hput.update
    · exact (EdgeStands.ite hdrop (hdrop.emit ..)).update

/-! ### Frames that leave (R463, R511) -/

theorem txLeave_stands (h : EdgeStands s0 s) (i : TxItem) : EdgeStands s0 (s.txLeave i) := by
  unfold State.txLeave
  exact .foldl (fun _ _ hx => .ite hx hx.update) _ (.foldl (fun _ _ hx => hx.update) _ h)

theorem txHold_stands (h : EdgeStands s0 s) (l : Nat) : EdgeStands s0 (s.txHold l) := by
  have hmark {x : State} (hx : EdgeStands s0 x) : EdgeStands s0 (if l = 16 ∨ l = 17 then x.wf (F.UPL_Un_STAT_CAPPED (l - 16)) 1 else x) :=
    .ite (hx.wf _ _ (not_edgReg_add (by decide))) hx
  have hheld := hmark (x := { s with hub.heldAt := tabSet (fun _ => none) s.hub.heldAt l (some s.tick.clock) }) h.update
  unfold State.txHold State.fenceHit
  exact .ite ((hheld.wf _ _ (not_edgReg_high (by decide))).records (umberEvent_records ..)) hheld

theorem txDrain_stands (h : EdgeStands s0 s) (q : List TxItem) : EdgeStands s0 (s.txDrain q).1 := by
  induction q generalizing s with
  | nil => exact h
  | cons i r ih =>
    unfold State.txDrain
    split
    · exact ih (txLeave_stands h i)
    · exact .foldl (fun x l hx => txHold_stands hx l) _ h

theorem txPump_stands (h : EdgeStands s0 s) (l : Nat) : EdgeStands s0 (s.txPump l) := by
  have hdrain := txDrain_stands h (tabGet (fun _ => []) s.hub.txq l)
  unfold State.txPump
  dsimp only
  split
  · exact ((hdrain.update).wf _ _ (not_edgReg_add (by decide))).wf _ _ (not_edgReg_add (by decide))
  · exact hdrain.update

theorem txSend_stands (h : EdgeStands s0 s) (l : Nat) (front : Bool) (q : List TxItem) : EdgeStands s0 (s.txSend l front q) := by
  unfold State.txSend
  exact txPump_stands h.update l

theorem mirror_stands (h : EdgeStands s0 s) (rtype : Nat) (data : List Int) : EdgeStands s0 (s.mirror rtype data) := by
  unfold State.mirror State.mirrorSend State.slateSend
  exact .ite (txSend_stands h.update ..) h

theorem freeWords_stands (h : EdgeStands s0 s) (n : Nat) : EdgeStands s0 (s.freeWords n).2 := by
  induction n generalizing s with
  | zero => exact h
  | succ n ih =>
    unfold State.freeWords
    exact ih h.update

theorem uplinkSend_stands (h : EdgeStands s0 s) (k : SentKind) (vals : List Int) (d : Dest) (data : List Nat) :
    EdgeStands s0 (s.uplinkSend k vals d data) := by
  unfold State.uplinkSend State.udpFrame State.prpFrame
  exact .ite (txSend_stands (freeWords_stands h 1).update ..) h

/-! ### A trigger fires (R362 to R364) -/

theorem toTrig_stands (h : EdgeStands s0 s) (u st : Nat) : EdgeStands s0 (s.toTrig u st) := by
  have hst : EdgeStands s0 (s.wf (F.KND_TRu_STAT_STATE u) st) := h.wf _ _ (not_edgReg_add (by decide))
  have hlatch := hst.wf F.HUB_INT_RAW_FIRE 1 (not_edgReg_low (by decide))
  unfold State.toTrig State.mirrorTrig
  exact .ite (mirror_stands (.ite hlatch hst) ..) (.ite hlatch hst)

theorem fire_stands (h : EdgeStands s0 s) (u time : Nat) (cause : FireCause) (net : Option Nat) : EdgeStands s0 (s.fire u time cause net) := by
  have hto (c : Bool) (x : TrigSt) : EdgeStands s0 (if c then (s.setTrig u x).toTrig u 3 else s.setTrig u x) :=
    .ite (toTrig_stands h.update u 3) h.update
  unfold State.fire State.sendFire State.trigSend
  exact .ite (h.wf _ _ (not_edgReg_add (by decide))) (.ite (uplinkSend_stands (hto _ _).update ..) (hto _ _))

end Chain

end Sys2Proof.Machine
end

section
/-!
PROOFS. Interval units and event groups (R349 to R354): what closing one leaves, and when its time has passed.
-/
namespace Sys2Proof.Machine

open Sys2Proof

/-! ### When no edge can still be released (R347, R352) -/

theorem releaseLag_eq : releaseLag = 3276800 := by decide

theorem edgesPast_iff (s : State) (t : Int) :
    s.edgesPast t = true ↔ t + 3276800 ≤ (s.tick.clock : Int) ∧ ∀ e ∈ s.edg.fifo, t < e.at' := by
  unfold State.edgesPast
  rw [releaseLag_eq, Bool.and_eq_true, decide_eq_true_iff, List.all_eq_true]
  simp only [decide_eq_true_eq]

/-! ### Units and groups by number -/

@[simp] theorem setInterval_interval (s : State) (i : Nat) (x : Interval) : (s.setInterval i x).interval i = x := by
  simp only [State.interval, State.setInterval, tabGet_tabSet_same, Option.getD_some]

@[simp] theorem setGroup_group (s : State) (g : Nat) (x : GroupSt) : (s.setGroup g x).group g = x := by
  simp only [State.group, State.setGroup, tabGet_tabSet_same, Option.getD_some]

@[simp] theorem setEdgeSrc_edgeSrc (s : State) (e : Nat) (x : EdgeSrc) : (s.setEdgeSrc e x).edgeSrc e = x := by
  simp only [State.edgeSrc, State.setEdgeSrc, tabGet_tabSet_same, Option.getD_some]

theorem edgReg_interval {i : Nat} (hi : i < 16) : edgReg (Reg.EDG_Ii_CFG i) := by
  unfold edgReg Reg.EDG_Ii_CFG Reg.EDG_STAT
  omega

theorem edgReg_group {g : Nat} (hg : g < 32) : edgReg (Reg.EDG_Gg_CFG g) := by
  unfold edgReg Reg.EDG_Gg_CFG Reg.EDG_STAT
  omega

theorem edgGgCnt_ne (g : Nat) : Reg.EDG_Gg_CFG g ≠ Reg.EDG_Gg_CNT g := by
  unfold Reg.EDG_Gg_CFG Reg.EDG_Gg_CNT
  omega

/-! ### A setting made at once -/

theorem setNow_edg (s : State) (a : Nat) (data mask : Word) : (s.setNow a data mask).edg = s.edg := by
  unfold State.setNow
  dsimp only
  split <;> rfl

theorem setNow_interval (s : State) (a : Nat) (data mask : Word) (i : Nat) : (s.setNow a data mask).interval i = s.interval i := by
  unfold State.interval
  rw [setNow_edg]

theorem setNow_top (s : State) (a : Nat) (data : Word) : (s.setNow a data 0x80000000#32).f ⟨a, 31, 31⟩ = b2n (data.getLsbD 31) := by
  unfold State.setNow State.f
  dsimp only
  rw [State.rd_wr_same]
  split <;> exact fieldOf_top_merge ..

/-! ### Intervals (R349, R350) -/

section Interval
variable (s : State) (i : Nat)

theorem intervalClose_interval (st : Stamp) (v : Int) (fl : Nat) (late : Bool) : ∃ m,
    (s.intervalClose i st v fl late).interval i
      = { s.interval i with start := none, missed := m, count := (s.interval i).count + 1, last := some (v, late) } := by
  unfold State.intervalClose
  dsimp only
  split
  · exact ⟨_, setInterval_interval ..⟩
  · exact ⟨_, (setNow_interval ..).trans (setInterval_interval ..)⟩

theorem intervalClose_disables (hi : i < 16) (hcont : s.ef (F.EDG_Ii_CFG_CONT i) = 0) (st : Stamp) (v : Int) (fl : Nat) (late : Bool) :
    (s.intervalClose i st v fl late).f (F.EDG_Ii_CFG_EN i) = 0 := by
  unfold State.intervalClose
  dsimp only
  have hput (q : Nat) (ws : List Word) (x : Interval) : ((s.putRecord q ws).2.setInterval i x).eflag (F.EDG_Ii_CFG_CONT i) ≠ true := by
    have hstands : ((s.putRecord q ws).2.setInterval i x).ef (F.EDG_Ii_CFG_CONT i) = s.ef (F.EDG_Ii_CFG_CONT i) :=
      (putRecord_stands .refl q ws).ef (x := F.EDG_Ii_CFG_CONT i) (edgReg_interval hi)
    rw [ne_eq, eflag_eq_true, hstands, hcont]
    decide
  rw [if_neg (hput _ _ _)]
  exact setNow_top ..

variable {s i}

theorem intervalTimeout_closed (h : (s.interval i).start = none) : s.intervalTimeout i = s := by
  unfold State.intervalTimeout
  rw [h]

theorem intervalTimeout_waits {a : Stamp} (h : (s.interval i).start = some a) (hp : ¬s.edgesPast (a.at' + s.intervalTO i) = true) :
    s.intervalTimeout i = s := by
  unfold State.intervalTimeout
  rw [h]
  exact if_neg hp

theorem intervalTimeout_past {a : Stamp} (h : (s.interval i).start = some a) (hp : s.edgesPast (a.at' + s.intervalTO i) = true) :
    s.intervalTimeout i = s.intervalClose i a 0 0 true := by
  unfold State.intervalTimeout State.intervalCut
  rw [h]
  exact if_pos hp

theorem intervalEdge_stop {b : Bool} {a e : Stamp} (h : (s.interval i).start = some a) (hto : e.at' ≤ a.at' + s.intervalTO i)
    (hlt : a.at' < e.at') : s.intervalEdge (i, b, true) e = s.intervalClose i a (e.at' - a.at') e.flags false := by
  unfold State.intervalEdge
  dsimp only
  rw [h]
  dsimp only
  rw [if_neg (Int.not_lt.2 hto), if_pos (by simpa using hlt)]

theorem intervalEdge_start {b : Bool} {e : Stamp} (h : (s.interval i).start = none) (hen : s.ef (F.EDG_Ii_CFG_EN i) = 1) :
    s.intervalEdge (i, true, b) e = s.setInterval i { s.interval i with start := some e } := by
  unfold State.intervalEdge
  dsimp only
  rw [h]
  dsimp only
  rw [if_pos (by rw [Bool.and_true, eflag_eq_true, hen])]

end Interval

/-! ### Groups (R351 to R354) -/

section Group
variable (s : State) (g : Nat) (o : Nat × List (Option Stamp)) (extra : Nat)

/-- A group that `x` was is reported: it counts once more, and the report of `o` is its last. -/
def GroupReported (x y : GroupSt) : Prop :=
  y.count = x.count + 1 ∧ ∃ r, y.last = some r ∧ r.t0 = groupT0 o ∧ r.offs = o.2.map (groupOfs (groupT0 o))

theorem fireIf_stands (c : Prop) [Decidable c] (u time : Nat) (cause : FireCause) :
    EdgeStands s (if c then s.fire u time cause none else s) := .ite (fire_stands .refl ..) .refl

theorem groupReport_group : GroupReported o (s.group g) ((s.groupReport g o extra).group g) := by
  unfold State.groupReport
  dsimp only
  rw [(fireIf_stands ..).group g, setGroup_group]
  exact ⟨rfl, _, rfl, rfl, rfl⟩

theorem groupReport_ef (hg : g < 32) : (s.groupReport g o extra).ef (F.EDG_Gg_CFG_HOLDOFF g) = s.ef (F.EDG_Gg_CFG_HOLDOFF g) := by
  have hreg := edgReg_group hg
  have hput (q : Nat) (ws : List Word) (x : GroupSt) :
      (((s.putRecord q ws).2.bumpWrap (F.EDG_Gg_CNT_GROUPS g) 1).setGroup g x).ef (F.EDG_Gg_CFG_HOLDOFF g) = s.ef (F.EDG_Gg_CFG_HOLDOFF g) := by
    have hstands := putRecord_stands (s := s) .refl q ws
    refine congrArg (fieldOf · 15 0) (eff_of_rd (congrArg TickSt.force hstands.tick) ?_)
    exact (State.rd_wf_ne _ _ (edgGgCnt_ne g)).trans (hstands.rd _ hreg)
  unfold State.groupReport
  dsimp only
  exact ((fireIf_stands ..).ef (x := F.EDG_Gg_CFG_HOLDOFF g) hreg).trans (hput _ _ _)

/-- Members of a group that have come, and how many it needs (R352). -/
def groupHits : Nat := (o.2.filter (·.isSome)).length
def State.groupNeed : Nat := min (max 1 (s.ef (F.EDG_Gg_CFG_MINHIT g))) (s.members g).length

/-- The group as it closes, before it holds off: it is reported, or counts SHORT. -/
def State.groupDone : State := if s.groupNeed g ≤ groupHits o then s.groupReport g o extra else s.bump (F.EDG_Gg_CNT_SHORT g) 1

theorem groupClose_eq (at' : Int) : s.groupClose g o extra at' = (s.groupDone g o extra).setGroup g
    { (s.groupDone g o extra).group g with
      open' := none, lost := false, holdoff := some (at' + 65536000 * ((s.groupDone g o extra).ef (F.EDG_Gg_CFG_HOLDOFF g) : Nat)),
      holding := (s.groupDone g o extra).ef (F.EDG_Gg_CFG_HOLDOFF g) != 0 } := rfl

theorem groupDone_ef (hg : g < 32) : (s.groupDone g o extra).ef (F.EDG_Gg_CFG_HOLDOFF g) = s.ef (F.EDG_Gg_CFG_HOLDOFF g) := by
  unfold State.groupDone
  split
  · exact groupReport_ef s g o extra hg
  · exact congrArg (fieldOf · 15 0) (eff_of_rd rfl (State.rd_wf_ne _ _ (edgGgCnt_ne g)))

variable {s g o}

theorem groupDone_short (h : groupHits o < s.groupNeed g) : s.groupDone g o extra = s.bump (F.EDG_Gg_CNT_SHORT g) 1 := if_neg (Nat.not_le.2 h)

theorem groupDone_reported (h : s.groupNeed g ≤ groupHits o) : s.groupDone g o extra = s.groupReport g o extra := if_pos h

theorem groupTimeout_closed (h : (s.group g).open' = none) : s.groupTimeout g = s := by
  unfold State.groupTimeout
  rw [h]

theorem groupTimeout_waits (h : (s.group g).open' = some o) (hp : ¬s.edgesPast (groupT0 o + s.groupWin g) = true) : s.groupTimeout g = s := by
  unfold State.groupTimeout
  rw [h]
  exact if_neg hp

theorem groupTimeout_past (h : (s.group g).open' = some o) (hp : s.edgesPast (groupT0 o + s.groupWin g) = true) :
    s.groupTimeout g = s.groupClose g o eTIMEOUT (groupT0 o + s.groupWin g + releaseLag) := by
  unfold State.groupTimeout
  rw [h]
  exact if_pos hp

theorem groupHoldoffEnd_passed (h : ∀ k, (s.group g).holdoff = some k → k ≤ (s.tick.clock : Int)) :
    (s.groupHoldoffEnd g = s ∧ (s.group g).holding = false) ∨ s.groupHoldoffEnd g = s.setGroup g { s.group g with holding := false } := by
  unfold State.groupHoldoffEnd
  dsimp only
  cases hold : (s.group g).holding with
  | false => exact .inl ⟨rfl, rfl⟩
  | true =>
    refine .inr (if_pos ?_)
    split
    · next k hk => exact decide_eq_true (h k hk)
    · rfl

theorem groupHoldoffEnd_early {k : Int} (h : (s.group g).holdoff = some k) (hk : (s.tick.clock : Int) < k) : s.groupHoldoffEnd g = s := by
  unfold State.groupHoldoffEnd
  dsimp only
  rw [h]
  refine if_neg fun hc => ?_
  rw [Bool.and_eq_true] at hc
  exact absurd (of_decide_eq_true hc.2) (Int.not_le.2 hk)

end Group

/-! ### A closed group opens (R351) -/

theorem listSet_eq_set {α : Type} (l : List α) (i : Nat) (v : α) : listSet l i v = l.set i v := by
  induction l generalizing i with
  | nil => rfl
  | cons x r ih =>
    cases i with
    | zero => rfl
    | succ i => exact congrArg (x :: ·) (ih i)

theorem listSet_getD_ne {α : Type} (l : List α) {i k : Nat} (h : k ≠ i) (v d : α) : (listSet l i v).getD k d = l.getD k d := by
  rw [listSet_eq_set, List.getD_eq_getElem?_getD, List.getD_eq_getElem?_getD, List.getElem?_set_ne (Ne.symm h)]

/-- The first member of a group is `k`, with `e`; member `j` has not come. -/
def Leads (k j : Nat) (e : Stamp) (o : Nat × List (Option Stamp)) : Prop := o.1 = k ∧ o.2.getD k none = some e ∧ o.2.getD j none = none

theorem Leads.arrive {k j i : Nat} {e : Stamp} {o : Nat × List (Option Stamp)} (h : Leads k j e o) (hi : k < i) (hj : j ≠ i) :
    Leads k j e (groupArrive o i e) := by
  obtain ⟨hk, hfirst, hlast⟩ := h
  unfold groupArrive
  split
  · exact ⟨hk, hfirst, hlast⟩
  · refine ⟨?_, (listSet_getD_ne _ (Nat.ne_of_lt hi) ..).trans hfirst, (listSet_getD_ne _ hj ..).trans hlast⟩
    rw [if_neg fun hc => Nat.lt_asymm hi (hk ▸ hc.2)]
    exact hk

theorem Leads.arrivals {k j : Nat} {e : Stamp} {ks : List Nat} (hks : ∀ i ∈ ks, k < i) (hj : j ∉ ks) {o : Nat × List (Option Stamp)}
    (h : Leads k j e o) : Leads k j e (ks.foldl (fun o i => groupArrive o i e) o) := by
  induction ks generalizing o with
  | nil => exact h
  | cons i r ih =>
    rw [List.forall_mem_cons] at hks
    rw [List.mem_cons, not_or] at hj
    exact ih hks.2 hj.2 (h.arrive hks.1 hj.1)

theorem groupArrive_same {o : Nat × List (Option Stamp)} {k : Nat} {e : Stamp} (h : o.2.getD k none = some e) : groupArrive o k e = o :=
  if_pos (by rw [h]; rfl)

theorem leads_first {k j : Nat} (hk : k < 8) (hj : j ≠ k) (e : Stamp) : Leads k j e (k, listSet (List.replicate 8 none) k (some e)) := by
  refine ⟨rfl, ?_, (listSet_getD_ne _ hj ..).trans ?_⟩
  · simp [listSet_eq_set, List.getD_eq_getElem?_getD, hk]
  · rw [List.getD_eq_getElem?_getD, List.getElem?_replicate]
    split <;> rfl

theorem groupEdge_opens {s : State} {g k j : Nat} {ks : List Nat} {e : Stamp} (hopen : (s.group g).open' = none)
    (hafter : ∀ h, (s.group g).holdoff = some h → h < e.at') (hen : s.ef (F.EDG_Gg_CFG_EN g) = 1) (hk : k < 8) (hks : ∀ i ∈ ks, k < i)
    (hj : j ∈ s.members g) (hjk : j ∉ k :: ks) :
    ∃ o x, Leads k j e o ∧ s.groupEdge (g, k :: ks) e = (s.setGroup g x).setGroup g { x with open' := some o } := by
  rw [List.mem_cons, not_or] at hjk
  have hfirst := leads_first hk hjk.1 e
  have hall := hfirst.arrivals hks hjk.2
  refine ⟨_, { s.group g with holding := false }, hall, ?_⟩
  unfold State.groupEdge
  dsimp only
  rw [hopen]
  dsimp only
  rw [if_pos, List.foldl_cons, groupArrive_same hfirst.2.1, if_neg, setGroup_group]
  · intro hfull
    have hcome := List.all_eq_true.1 hfull j hj
    rw [hall.2.2] at hcome
    exact absurd hcome Bool.false_ne_true
  · rw [Bool.and_eq_true, eflag_eq_true]
    refine ⟨hen, ?_⟩
    split
    · next h hh => exact decide_eq_true (hafter h hh)
    · rfl

end Sys2Proof.Machine
end

section
/-!
PROOFS. The release of the earliest stamp (R347), and the arrival of an edge (R155, R342 to R346).
-/
namespace Sys2Proof.Machine

open Sys2Proof

/-! ### Release (R347, R348) -/

section Release
variable {s : State} {e : Stamp} {r : List Stamp}

/-- The earliest stamp has left the FIFO. -/
def State.edgePopped (s : State) (r : List Stamp) : State := { s with edg.fifo := r }

/-- Its record has gone to its queue; one that was refused marks the source's next. -/
def State.streamed (s : State) (e : Stamp) : State :=
  let p := s.putRecord e.queue (recordHead e.src 1 e.flags e.at')
  if p.1 then p.2 else p.2.setEdgeSrc e.src { p.2.edgeSrc e.src with missed := true }

theorem edgeRelease_none (h : s.edg.fifo = []) : s.edgeRelease = s := by
  unfold State.edgeRelease
  rw [h]

theorem edgeRelease_early (h : s.edg.fifo = e :: r) (ht : (s.tick.clock : Int) < e.at' + 3276800) : s.edgeRelease = s := by
  unfold State.edgeRelease
  rw [h, releaseLag_eq]
  exact if_neg (Int.not_le.2 ht)

theorem edgeRelease_due (h : s.edg.fifo = e :: r) (ht : e.at' + 3276800 ≤ (s.tick.clock : Int)) :
    s.edgeRelease = e.groups.foldl (fun s u => s.groupEdge u e)
      (e.units.foldl (fun s u => s.intervalEdge u e) (if e.stream then (s.edgePopped r).streamed e else s.edgePopped r)) := by
  unfold State.edgeRelease State.releaseOne
  rw [h, releaseLag_eq]
  exact if_pos ht

theorem putRecord_unrouted {q : Nat} (h : 4096 ≤ q) (s : State) (ws : List Word) : s.putRecord q ws = (true, s) := by
  unfold State.putRecord
  rw [if_pos h]

theorem putRecord_fst {q : Nat} (h : q < 4096) (s : State) (ws : List Word) : (s.putRecord q ws).1 = (s.putPacket q ws).1 := by
  unfold State.putRecord
  rw [if_neg (Nat.not_le.2 h)]
  dsimp only
  split
  · next hput => exact hput.symm
  · next hput => exact (Bool.eq_false_of_not_eq_true hput).symm

/-- Whether a queue takes a packet does not turn on the FIFO. -/
theorem putPacket_popped (s : State) (r : List Stamp) (q : Nat) (ws : List Word) : ((s.edgePopped r).putPacket q ws).1 = (s.putPacket q ws).1 := by
  have hrefuses : (s.edgePopped r).refuses q 0 ws.length = s.refuses q 0 ws.length := rfl
  unfold State.putPacket
  rw [hrefuses]
  split <;> rfl

theorem streamed_unrouted (s : State) (h : 4096 ≤ e.queue) : s.streamed e = s := by
  unfold State.streamed
  rw [putRecord_unrouted h]
  rfl

theorem streamed_fifo (s : State) : (s.streamed e).edg.fifo = s.edg.fifo := by
  have hput := (putRecord_stands (s := s) .refl e.queue (recordHead e.src 1 e.flags e.at')).fifo
  unfold State.streamed
  dsimp only
  split <;> exact hput

theorem streamed_refused (s : State) (h : e.queue < 4096) (hput : (s.putPacket e.queue (recordHead e.src 1 e.flags e.at')).1 = false) :
    ((s.streamed e).edgeSrc e.src).missed = true := by
  unfold State.streamed
  dsimp only
  rw [putRecord_fst h, hput, if_neg Bool.false_ne_true, setEdgeSrc_edgeSrc]

end Release

/-! ### Whether an edge is taken, and from which interpolator (R155, R342, R343) -/

/-- The instant of an edge. -/
def edgeTime (m : EdgeMeas) : Int := (m.h : Int) - m.u * edgeStep

theorem compArmed_iff (s : State) (e : Nat) (t : Int) (back : Nat) : s.compArmed e t back = true ↔ e < 16 ∨ ∀ l, (s.edgeSrc e).comp = some l →
    l + 65536000 * (s.ef (F.AFE_CH_AE_LOCKOUT (e - 16)) : Nat) ≤ t ∧ s.ef (F.AFE_CH_AE_HYST (e - 16)) ≤ back := by
  unfold State.compArmed
  rw [Bool.or_eq_true, decide_eq_true_iff]
  refine or_congr_right ?_
  cases (s.edgeSrc e).comp with
  | none => exact ⟨fun _ l h => absurd h nofun, fun _ => rfl⟩
  | some l => simp

/-- Source `e` sees the edge: it takes its direction, and its comparator has re-armed. -/
def State.edgeSeen (s : State) (e : Nat) (rise : Bool) (m : EdgeMeas) : Prop := s.edgeTaken e rise = true ∧ s.compArmed e (edgeTime m) m.back = true

theorem edgeSeen_iff (s : State) (e : Nat) (rise : Bool) (m : EdgeMeas) :
    (!s.edgeTaken e rise || !s.compArmed e (edgeTime m) m.back) = true ↔ ¬s.edgeSeen e rise m := by
  unfold State.edgeSeen
  cases s.edgeTaken e rise <;> cases s.compArmed e (edgeTime m) m.back <;> decide

/-- 3 ns have passed since the source's last edge. -/
def EdgeSrc.apart (x : EdgeSrc) (t : Int) : Bool := match x.last with | some l => decide (l + 196608 ≤ t) | none => true

/-- Interpolator `k` is free. -/
def EdgeSrc.free (x : EdgeSrc) (t : Int) (k : Nat) : Bool := match x.interps[k]? with | some i => decide ((i.busy : Int) ≤ t) | none => false

/-- The interpolator that takes an edge. -/
def EdgeSrc.pick (x : EdgeSrc) (t : Int) : Option Nat := if x.free t 0 then some 0 else if x.free t 1 then some 1 else none

theorem EdgeSrc.apart_iff (x : EdgeSrc) (t : Int) : x.apart t = true ↔ ∀ l, x.last = some l → l + 196608 ≤ t := by
  unfold EdgeSrc.apart
  cases x.last with
  | none => exact ⟨fun _ l h => absurd h nofun, fun _ => rfl⟩
  | some l => simp

theorem EdgeSrc.free_iff (x : EdgeSrc) (t : Int) (k : Nat) : x.free t k = true ↔ ∃ i, x.interps[k]? = some i ∧ (i.busy : Int) ≤ t := by
  unfold EdgeSrc.free
  cases x.interps[k]? with
  | none => exact ⟨nofun, fun ⟨_, h, _⟩ => absurd h nofun⟩
  | some i => simp

theorem EdgeSrc.pick_none {x : EdgeSrc} {t : Int} (h0 : ¬x.free t 0 = true) (h1 : ¬x.free t 1 = true) : x.pick t = none := by
  unfold EdgeSrc.pick
  rw [if_neg h0, if_neg h1]

/-! ### What an arrival makes of the state -/

/-- The source, its comparator's last emission at `c`. -/
def EdgeSrc.emitted (x : EdgeSrc) (c : Option Int) : EdgeSrc := { x with comp := c }

@[simp] theorem emitted_apart (x : EdgeSrc) (c : Option Int) (t : Int) : (x.emitted c).apart t = x.apart t := rfl
@[simp] theorem emitted_pick (x : EdgeSrc) (c : Option Int) (t : Int) : (x.emitted c).pick t = x.pick t := rfl

/-- A comparator source notes when it emitted (R155). -/
def State.edgeNoted (s : State) (e : Nat) (t : Int) : State := if e < 16 then s else s.setEdgeSrc e { s.edgeSrc e with comp := some t }

theorem edgeNoted_srcs (s : State) (e : Nat) (t : Int) : ∃ y, s.edgeNoted e t = { s with edg.srcs := y } := by
  unfold State.edgeNoted
  split
  · exact ⟨s.edg.srcs, rfl⟩
  · exact ⟨_, rfl⟩

theorem edgeNoted_edgeSrc (s : State) (e : Nat) (t : Int) : ∃ c, (s.edgeNoted e t).edgeSrc e = (s.edgeSrc e).emitted c := by
  unfold State.edgeNoted
  split
  · exact ⟨(s.edgeSrc e).comp, rfl⟩
  · exact ⟨_, setEdgeSrc_edgeSrc ..⟩

/-- The edge is lost in dead time (R343). -/
def State.edgeDead (s : State) (e : Nat) : State :=
  ((s.setEdgeSrc e { s.edgeSrc e with missed := true }).bump (F.EDG_Ss_CNT_DEAD e) 1).edgeLost e

/-- The interpolator as the edge calibrates it. -/
def EdgeSrc.taken (x : EdgeSrc) (k : Nat) (m : EdgeMeas) : Interp := (x.interps.getD k interp0).calibrate m.u1 m.u2

/-- The source once interpolator `k` has taken the edge, with its credit brought up to `now`. -/
def EdgeSrc.stamped (x : EdgeSrc) (k : Nat) (m : EdgeMeas) (rate now : Nat) : EdgeSrc :=
  let l := listSet x.interps k { x.taken k m with busy := (edgeTime m + 720896).toNat }
  Machine.refill { x with interps := l, last := some (edgeTime m), calEp := l.any (·.stale) } rate now

/-- The edge counts in ACC, and a new calibration that failed is recorded. -/
def State.edgeCounted (s : State) (e : Nat) (bad : Bool) : State :=
  if bad then (s.bumpWrap (F.EDG_Ss_CNT_ACC e) 1).emit .INTERP_CAL_BAD (objUnit e) [] else s.bumpWrap (F.EDG_Ss_CNT_ACC e) 1

/-- The edge is over the rate (R346). -/
def State.edgeOver (s : State) (e : Nat) (y : EdgeSrc) : State :=
  let s := (s.setEdgeSrc e { y with missed := true, ovr := true, overEp := true }).bump (F.EDG_Ss_CNT_OVER e) 1
  (if y.overEp then s else s.emit .EDGE_OVERRATE (objUnit e) []).edgeLost e

/-- The stamp has its place in the FIFO. -/
def State.edgeQueued (s : State) (e : Nat) (y : EdgeSrc) (st : Stamp) : State :=
  let s := s.setEdgeSrc e { y with credit := y.credit - secUnits, fullAt := none, missed := false, ovr := false }
  let s := { s with edg.fifo := fifoInsert st s.edg.fifo }
  (s.peak F.EDG_STAT_FIFO_PEAK s.edg.fifo.length).skewEdge e st.at'

section Arrival
variable {s : State} {e : Nat} {rise : Bool} {m : EdgeMeas}

theorem edgeArrival_unseen (h : ¬s.edgeSeen e rise m) : s.edgeArrival e rise m = s := if_pos ((edgeSeen_iff ..).2 h)

theorem edgeNoted_edgeOn (s : State) (e : Nat) (t : Int) : (s.edgeNoted e t).edgeOn e = s.edgeOn e := by
  obtain ⟨y, hy⟩ := edgeNoted_srcs s e t
  rw [hy]
  rfl

theorem edgeNoted_mem (s : State) (e : Nat) (t : Int) : (s.edgeNoted e t).mem = s.mem := by
  obtain ⟨y, hy⟩ := edgeNoted_srcs s e t
  rw [hy]

theorem edgeNoted_genState (s : State) (e : Nat) (t : Int) : (s.edgeNoted e t).genState = s.genState :=
  f_of_rd (congrArg (tabGet resetWord · _) (edgeNoted_mem ..))

theorem edgeArrival_off (h : s.edgeSeen e rise m) (hoff : ¬s.edgeOn e = true) : s.edgeArrival e rise m = s.edgeNoted e (edgeTime m) := by
  have hnoted : (!(s.edgeNoted e (edgeTime m)).edgeOn e) = true := by
    rw [edgeNoted_edgeOn, Bool.eq_false_of_not_eq_true hoff]
    rfl
  unfold State.edgeArrival
  exact (if_neg (mt (edgeSeen_iff ..).1 (not_not.2 h))).trans (if_pos hnoted)

theorem edgeNoted_on (t : Int) (hon : s.edgeOn e = true) : ¬(!(s.edgeNoted e t).edgeOn e) = true := by
  rw [edgeNoted_edgeOn, hon]
  decide

theorem edgeArrival_stopped (h : s.edgeSeen e rise m) (hon : s.edgeOn e = true) (hgen : s.genState ≠ 1) :
    s.edgeArrival e rise m = (s.edgeNoted e (edgeTime m)).bump (F.EDG_Ss_CNT_DEAD e) 1 := by
  rw [← edgeNoted_genState s e (edgeTime m)] at hgen
  unfold State.edgeArrival
  exact (if_neg (mt (edgeSeen_iff ..).1 (not_not.2 h))).trans ((if_neg (edgeNoted_on _ hon)).trans (if_pos hgen))

/-- The two outcomes of a choice on a flag and an option. -/
theorem both_taken {α : Type} {f : Nat → α} {d : α} {a : Bool} {p : Option Nat} {k : Nat} :
    a = true → p = some k → (match a, p with | true, some k => f k | _, _ => d) = f k := by
  rintro rfl rfl
  rfl

theorem both_missed {α : Type} {f : Nat → α} {d : α} {a : Bool} {p : Option Nat} :
    ¬(a = true ∧ ∃ k, p = some k) → (match a, p with | true, some k => f k | _, _ => d) = d := by
  cases a with
  | false => exact fun _ => rfl
  | true =>
    cases p with
    | none => exact fun _ => rfl
    | some k => exact fun h => absurd ⟨rfl, k, rfl⟩ h

section Running
variable {n : State} (hn : s.edgeNoted e (edgeTime m) = n)
  (h : s.edgeSeen e rise m) (hon : s.edgeOn e = true) (hgen : s.genState = 1)
include hn h hon hgen

theorem edgeArrival_dead (hno : ¬((n.edgeSrc e).apart (edgeTime m) = true ∧ ∃ k, (n.edgeSrc e).pick (edgeTime m) = some k)) :
    s.edgeArrival e rise m = n.edgeDead e := by
  subst hn
  rw [← edgeNoted_genState s e (edgeTime m)] at hgen
  unfold State.edgeArrival
  exact (if_neg (mt (edgeSeen_iff ..).1 (not_not.2 h))).trans ((if_neg (edgeNoted_on _ hon)).trans ((if_neg (not_not.2 hgen)).trans
    (both_missed hno)))

theorem edgeArrival_stamped {k : Nat} (ha : (n.edgeSrc e).apart (edgeTime m) = true) (hk : (n.edgeSrc e).pick (edgeTime m) = some k) :
    ∃ w y, w = n.edgeCounted e (((n.edgeSrc e).taken k m).stale && !(n.edgeSrc e).calEp)
      ∧ y = (n.edgeSrc e).stamped k m (n.edgeInRate e) n.tick.clock
      ∧ (y.credit < secUnits → s.edgeArrival e rise m = w.edgeOver e y)
      ∧ (¬y.credit < secUnits → ∃ st, s.edgeArrival e rise m = w.edgeQueued e y st ∧ st.src = e ∧ st.rise = rise
        ∧ st.at' = stampOf ((n.edgeSrc e).taken k m) m (n.f (F.EDG_Ss_LAT_LAT e) : Nat) (n.efs (F.EDG_Ss_OFS_OFS e))
        ∧ st.stream = w.eflag (F.EDG_Ss_CFG_STREAM e)) := by
  subst hn
  rw [← edgeNoted_genState s e (edgeTime m)] at hgen
  refine ⟨_, _, rfl, rfl, fun hc => ?_, fun hc => ?_⟩
  · unfold State.edgeArrival
    exact (if_neg (mt (edgeSeen_iff ..).1 (not_not.2 h))).trans ((if_neg (edgeNoted_on _ hon)).trans ((if_neg (not_not.2 hgen)).trans
      ((both_taken ha hk).trans (if_pos hc))))
  · unfold State.edgeArrival
    exact ⟨_, (if_neg (mt (edgeSeen_iff ..).1 (not_not.2 h))).trans ((if_neg (edgeNoted_on _ hon)).trans ((if_neg (not_not.2 hgen)).trans
      ((both_taken ha hk).trans (if_neg hc)))), rfl, rfl, rfl, rfl⟩

end Running

end Arrival

/-! ### What the outcomes leave (R343, R346, R347) -/

theorem foldl_groups {f : State → Nat → State} (hf : ∀ s g, ∃ y, f s g = { s with edg.groups := y }) (l : List Nat) (s : State) :
    ∃ y, l.foldl f s = { s with edg.groups := y } := by
  induction l generalizing s with
  | nil => exact ⟨s.edg.groups, rfl⟩
  | cons g r ih =>
    obtain ⟨y, hy⟩ := hf s g
    obtain ⟨z, hz⟩ := ih (f s g)
    refine ⟨z, hz.trans ?_⟩
    rw [hy]

/-- An edge that is lost marks open groups alone (R351). -/
theorem edgeLost_groups (s : State) (e : Nat) : ∃ y, s.edgeLost e = { s with edg.groups := y } := by
  refine foldl_groups (fun s g => ?_) _ s
  dsimp only
  split
  · exact ⟨_, rfl⟩
  · exact ⟨s.edg.groups, rfl⟩

/-- The first edge after a pulse marks the skew run alone (R377). -/
theorem skewEdge_knd (s : State) (e : Nat) (t : Int) : ∃ y, s.skewEdge e t = { s with knd := y } := by
  unfold State.skewEdge
  split
  · exact ⟨s.knd, rfl⟩
  · split
    · exact ⟨s.knd, rfl⟩
    · dsimp only
      split
      · exact ⟨s.knd, rfl⟩
      · exact ⟨_, rfl⟩

theorem edgSsCnt_ge (e : Nat) : 0x20000 ≤ Reg.EDG_Ss_CNT e := by unfold Reg.EDG_Ss_CNT; omega

theorem edgSsCfg_ge (e : Nat) : 0x20000 ≤ Reg.EDG_Ss_CFG e := by unfold Reg.EDG_Ss_CFG; omega

theorem edgSsCfg_ne (e : Nat) : Reg.EDG_Ss_CFG e ≠ Reg.EDG_Ss_CNT e := by unfold Reg.EDG_Ss_CFG Reg.EDG_Ss_CNT; omega

theorem edgSsCnt_ne_stat (e : Nat) : Reg.EDG_Ss_CNT e ≠ Reg.EDG_STAT := by unfold Reg.EDG_Ss_CNT Reg.EDG_STAT; omega

/-- DEAD counts an edge, and no other register nor the FIFO changes. -/
def DeadCounted (s t : State) (e : Nat) : Prop :=
  t.f (F.EDG_Ss_CNT_DEAD e) = min (s.f (F.EDG_Ss_CNT_DEAD e) + 1) 255 ∧ t.edg.fifo = s.edg.fifo ∧ ∀ a, a ≠ Reg.EDG_Ss_CNT e → t.rd a = s.rd a

theorem DeadCounted.of_srcs {s t : State} {e : Nat} {z : Tab (Option EdgeSrc)} (h : DeadCounted { s with edg.srcs := z } t e) :
    DeadCounted s t e := by
  obtain ⟨hcount, hfifo, hrd⟩ := h
  exact ⟨hcount, hfifo, hrd⟩

theorem bump_dead (s : State) (e : Nat) : DeadCounted s (s.bump (F.EDG_Ss_CNT_DEAD e) 1) e :=
  ⟨State.f_bump_same s (fieldOk_of rfl) 1, rfl, fun _ ha => State.rd_wf_ne _ _ ha⟩

theorem edgeDead_counted (s : State) (e : Nat) : DeadCounted s (s.edgeDead e) e := by
  unfold State.edgeDead
  obtain ⟨y, hy⟩ := edgeLost_groups ((s.setEdgeSrc e { s.edgeSrc e with missed := true }).bump (F.EDG_Ss_CNT_DEAD e) 1) e
  rw [hy]
  exact bump_dead (s.setEdgeSrc e { s.edgeSrc e with missed := true }) e

theorem edgeDead_missed (s : State) (e : Nat) : ((s.edgeDead e).edgeSrc e).missed = true := by
  unfold State.edgeDead
  obtain ⟨y, hy⟩ := edgeLost_groups ((s.setEdgeSrc e { s.edgeSrc e with missed := true }).bump (F.EDG_Ss_CNT_DEAD e) 1) e
  rw [hy]
  exact congrArg EdgeSrc.missed (setEdgeSrc_edgeSrc ..)

section Counted
variable (s : State) (e : Nat) (bad : Bool)

theorem edgeCounted_records : Records (s.bumpWrap (F.EDG_Ss_CNT_ACC e) 1) (s.edgeCounted e bad) := by
  unfold State.edgeCounted
  split
  · exact emit_records ..
  · exact .rfl'

theorem edgeCounted_fifo : (s.edgeCounted e bad).edg.fifo = s.edg.fifo :=
  (congrArg (fun t : State => t.edg.fifo) (edgeCounted_records s e bad).rest :)

theorem edgeCounted_rd {a : Nat} (hlow : 0x20000 ≤ a) (ha : a ≠ Reg.EDG_Ss_CNT e) : (s.edgeCounted e bad).rd a = s.rd a :=
  ((edgeCounted_records s e bad).rd a (not_eventReg hlow)).trans (State.rd_wf_ne _ _ ha)

theorem edgeCounted_acc : (s.edgeCounted e bad).f (F.EDG_Ss_CNT_ACC e) = (s.f (F.EDG_Ss_CNT_ACC e) + 1) % 65536 :=
  (f_of_rd ((edgeCounted_records s e bad).rd _ (not_eventReg (edgSsCnt_ge e)))).trans (State.f_wf_same s (fieldOk_of rfl) _)

theorem edgeCounted_over : (s.edgeCounted e bad).f (F.EDG_Ss_CNT_OVER e) = s.f (F.EDG_Ss_CNT_OVER e) :=
  (f_of_rd ((edgeCounted_records s e bad).rd _ (not_eventReg (edgSsCnt_ge e)))).trans
    (State.f_wf_ne (x := F.EDG_Ss_CNT_OVER e) s (fieldOk_of rfl) (apart_below rfl) _)

theorem edgeCounted_stream : (s.edgeCounted e bad).eflag (F.EDG_Ss_CFG_STREAM e) = s.eflag (F.EDG_Ss_CFG_STREAM e) :=
  congrArg (fieldOf · 28 28 == 1) (eff_of_rd (congrArg TickSt.force (edgeCounted_records s e bad).tick)
    (edgeCounted_rd s e bad (edgSsCfg_ge e) (edgSsCfg_ne e)))

end Counted

theorem edgeOver_leaves (s : State) (e : Nat) (y : EdgeSrc) :
    (s.edgeOver e y).edg.fifo = s.edg.fifo ∧ ((s.edgeOver e y).edgeSrc e).missed = true ∧ ((s.edgeOver e y).edgeSrc e).ovr = true
      ∧ (s.edgeOver e y).f (F.EDG_Ss_CNT_OVER e) = min (s.f (F.EDG_Ss_CNT_OVER e) + 1) 255 := by
  unfold State.edgeOver
  dsimp only
  generalize hb : (s.setEdgeSrc e { y with missed := true, ovr := true, overEp := true }).bump (F.EDG_Ss_CNT_OVER e) 1 = b
  have hrec : Records b (if y.overEp then b else b.emit .EDGE_OVERRATE (objUnit e) []) := by
    split
    · exact .rfl'
    · exact emit_records ..
  have hedg : (if y.overEp then b else b.emit .EDGE_OVERRATE (objUnit e) []).edg = b.edg := (congrArg State.edg hrec.rest :)
  obtain ⟨z, hz⟩ := edgeLost_groups (if y.overEp then b else b.emit .EDGE_OVERRATE (objUnit e) []) e
  have hsrc : ((if y.overEp then b else b.emit .EDGE_OVERRATE (objUnit e) []).edgeLost e).edgeSrc e
      = { y with missed := true, ovr := true, overEp := true } := by
    rw [hz]
    unfold State.edgeSrc
    dsimp only
    rw [hedg, ← hb]
    exact setEdgeSrc_edgeSrc ..
  rw [hsrc, hz]
  refine ⟨?_, rfl, rfl, ?_⟩
  · dsimp only
    rw [hedg, ← hb]
    rfl
  · refine (f_of_rd (hrec.rd _ (not_eventReg (edgSsCnt_ge e)))).trans ?_
    rw [← hb]
    exact State.f_bump_same _ (fieldOk_of rfl) 1

theorem edgeQueued_leaves (s : State) (e : Nat) (y : EdgeSrc) (st : Stamp) :
    (s.edgeQueued e y st).edg.fifo = fifoInsert st s.edg.fifo ∧ ((s.edgeQueued e y st).edgeSrc e).last = y.last
      ∧ ((s.edgeQueued e y st).edgeSrc e).missed = false
      ∧ (s.edgeQueued e y st).f (F.EDG_Ss_CNT_ACC e) = s.f (F.EDG_Ss_CNT_ACC e) := by
  unfold State.edgeQueued
  dsimp only
  generalize hx : { y with credit := y.credit - secUnits, fullAt := none, missed := false, ovr := false } = x
  generalize hb : ({ s.setEdgeSrc e x with edg.fifo := fifoInsert st (s.setEdgeSrc e x).edg.fifo } : State).peak F.EDG_STAT_FIFO_PEAK _ = b
  obtain ⟨k, hk⟩ := skewEdge_knd b e st.at'
  have hsrc : (b.skewEdge e st.at').edgeSrc e = x := by
    rw [hk, ← hb]
    exact setEdgeSrc_edgeSrc s e x
  rw [hsrc, hk, ← hb, ← hx]
  refine ⟨rfl, rfl, rfl, ?_⟩
  exact f_of_rd (State.rd_wf_ne _ _ (edgSsCnt_ne_stat e))

/-! ### What the edge brings the source to -/

@[simp] theorem emitted_taken (x : EdgeSrc) (c : Option Int) (k : Nat) (m : EdgeMeas) : (x.emitted c).taken k m = x.taken k m := rfl

theorem emitted_credit (x : EdgeSrc) (c : Option Int) (k : Nat) (m : EdgeMeas) (rate now : Nat) :
    ((x.emitted c).stamped k m rate now).credit = (refill x rate now).credit := rfl

theorem stamped_last (x : EdgeSrc) (k : Nat) (m : EdgeMeas) (rate now : Nat) : (x.stamped k m rate now).last = some (edgeTime m) := rfl

theorem pick_first {x : EdgeSrc} {i : Interp} {t : Int} (hi : x.interps[0]? = some i) (hb : (i.busy : Int) ≤ t) : x.pick t = some 0 :=
  if_pos ((x.free_iff t 0).2 ⟨i, hi, hb⟩)

theorem taken_first {x : EdgeSrc} {i : Interp} (hi : x.interps[0]? = some i) (m : EdgeMeas) : x.taken 0 m = i.calibrate m.u1 m.u2 := by
  unfold EdgeSrc.taken
  rw [List.getD_eq_getElem?_getD, hi, Option.getD_some]

/-! ### A running source's edges (R343, R346, R347) -/

section Running
variable {s : State} {e : Nat} {rise : Bool} {m : EdgeMeas} (h : s.edgeSeen e rise m) (hon : s.edgeOn e = true) (hgen : s.genState = 1)
include h hon hgen

theorem edgeArrival_busy (hbusy : ¬(s.edgeSrc e).apart (edgeTime m) = true
      ∨ ¬(s.edgeSrc e).free (edgeTime m) 0 = true ∧ ¬(s.edgeSrc e).free (edgeTime m) 1 = true) :
    ∃ t, s.edgeArrival e rise m = t ∧ DeadCounted s t e ∧ (t.edgeSrc e).missed = true := by
  obtain ⟨z, hz⟩ := edgeNoted_srcs s e (edgeTime m)
  obtain ⟨c, hc⟩ := edgeNoted_edgeSrc s e (edgeTime m)
  rw [hz] at hc
  refine ⟨_, edgeArrival_dead hz h hon hgen ?_, ?_, edgeDead_missed ..⟩
  · rw [hc, emitted_apart, emitted_pick]
    rintro ⟨ha, k, hk⟩
    rcases hbusy with hno | ⟨h0, h1⟩
    · exact hno ha
    · exact Option.some_ne_none k (hk.symm.trans (EdgeSrc.pick_none h0 h1))
  · exact .of_srcs (edgeDead_counted ..)

variable {i : Interp} (hapart : (s.edgeSrc e).apart (edgeTime m) = true) (hi : (s.edgeSrc e).interps[0]? = some i)
  (hb : (i.busy : Int) ≤ edgeTime m)
include hapart hi hb

theorem edgeArrival_rich (hrich : secUnits ≤ (refill (s.edgeSrc e) (s.edgeInRate e) s.tick.clock).credit) :
    ∃ t st, s.edgeArrival e rise m = t ∧ t.edg.fifo = fifoInsert st s.edg.fifo ∧ st.src = e ∧ st.rise = rise
      ∧ st.at' = stampOf (i.calibrate m.u1 m.u2) m (s.f (F.EDG_Ss_LAT_LAT e) : Nat) (s.efs (F.EDG_Ss_OFS_OFS e))
      ∧ st.stream = s.eflag (F.EDG_Ss_CFG_STREAM e)
      ∧ t.f (F.EDG_Ss_CNT_ACC e) = (s.f (F.EDG_Ss_CNT_ACC e) + 1) % 65536 ∧ (t.edgeSrc e).last = some (edgeTime m)
      ∧ (t.edgeSrc e).missed = false := by
  obtain ⟨z, hz⟩ := edgeNoted_srcs s e (edgeTime m)
  obtain ⟨c, hc⟩ := edgeNoted_edgeSrc s e (edgeTime m)
  rw [hz] at hc
  obtain ⟨w, y, hw, hy, -, hqueued⟩ := edgeArrival_stamped hz h hon hgen (k := 0)
    (by rw [hc, emitted_apart, hapart]) (by rw [hc, emitted_pick, pick_first hi hb])
  have hlast : y.last = some (edgeTime m) := by rw [hy, stamped_last]
  have hcredit : ¬y.credit < secUnits := by
    rw [hy, hc, emitted_credit]
    exact Nat.not_lt.2 hrich
  obtain ⟨st, hexec, hsrc, hrise, hat, hstream⟩ := hqueued hcredit
  obtain ⟨hfifo, hlast', hmissed, hacc⟩ := edgeQueued_leaves w e y st
  rw [hc] at hat
  refine ⟨_, st, hexec, hfifo.trans ?_, hsrc, hrise, hat.trans ?_, hstream.trans ?_, hacc.trans ?_, hlast'.trans hlast, hmissed⟩
  · rw [hw, edgeCounted_fifo]
  · rw [emitted_taken, taken_first hi]
    rfl
  · rw [hw, edgeCounted_stream]
    rfl
  · rw [hw, edgeCounted_acc]
    rfl

theorem edgeArrival_poor (hpoor : ¬secUnits ≤ (refill (s.edgeSrc e) (s.edgeInRate e) s.tick.clock).credit) :
    ∃ t, s.edgeArrival e rise m = t ∧ t.edg.fifo = s.edg.fifo ∧ (t.edgeSrc e).missed = true ∧ (t.edgeSrc e).ovr = true
      ∧ t.f (F.EDG_Ss_CNT_OVER e) = min (s.f (F.EDG_Ss_CNT_OVER e) + 1) 255 := by
  obtain ⟨z, hz⟩ := edgeNoted_srcs s e (edgeTime m)
  obtain ⟨c, hc⟩ := edgeNoted_edgeSrc s e (edgeTime m)
  rw [hz] at hc
  obtain ⟨w, y, hw, hy, hover, -⟩ := edgeArrival_stamped hz h hon hgen (k := 0)
    (by rw [hc, emitted_apart, hapart]) (by rw [hc, emitted_pick, pick_first hi hb])
  have hcredit : y.credit < secUnits := by
    rw [hy, hc, emitted_credit]
    exact Nat.not_le.1 hpoor
  obtain ⟨hfifo, hmissed, hovr, hcount⟩ := edgeOver_leaves w e y
  refine ⟨_, hover hcredit, hfifo.trans ?_, hmissed, hovr, hcount.trans ?_⟩
  · rw [hw, edgeCounted_fifo]
  · rw [hw, edgeCounted_over]
    rfl

end Running

end Sys2Proof.Machine
end

section
open Sys2Proof Sys2Proof.Machine

/-- Settles O50: each outcome of an edge, a release and a closing is an equation for its operation, and `EdgeStands` carries what a record, a
frame and a trigger leave of the timer. -/
theorem edgesAreTimed : Obligations.EdgesAreTimed := by
  unfold Obligations.EdgesAreTimed
  intro s
  refine ⟨?arrival, fun h => congrArg Host.Outcome.next (edgeRelease_none h), fun e r h ht => congrArg Host.Outcome.next (edgeRelease_early h ht),
    ?release, ?intervals, ?groups⟩
  case arrival =>
    intro e rise m
    have hseen : s.edgeSeen e rise m ↔ s.edgeTaken e rise = true ∧ _ := and_congr_right' (compArmed_iff s e (edgeTime m) m.back)
    obtain ⟨z, hz⟩ := edgeNoted_srcs s e (edgeTime m)
    refine ⟨fun h => congrArg Host.Outcome.next (edgeArrival_unseen (mt hseen.1 h)), fun h hoff => ⟨_, congrArg Host.Outcome.next
      (edgeArrival_off (hseen.2 h) fun hon => hoff ⟨hon, h⟩), ?_⟩, fun ⟨hon, h⟩ hgen => ⟨_, congrArg Host.Outcome.next
      (edgeArrival_stopped (hseen.2 h) hon hgen), ?_, ?_⟩, fun ⟨hon, h⟩ hgen hbusy => ?_,
      fun i ⟨hon, h⟩ hgen hapart hi hb => ⟨fun hrich => ?_, fun hpoor => ?_⟩⟩
    · rw [hz]
    · rw [hz]
      exact bump_dead { s with edg.srcs := z } e
    · rw [hz]
      rfl
    · obtain ⟨t, ht, hdead⟩ := edgeArrival_busy (hseen.2 h) hon hgen (hbusy.imp (mt (EdgeSrc.apart_iff ..).1)
        (And.imp (mt (EdgeSrc.free_iff ..).1) (mt (EdgeSrc.free_iff ..).1)))
      exact ⟨t, congrArg Host.Outcome.next ht, hdead⟩
    · obtain ⟨t, st, ht, hrest⟩ := edgeArrival_rich (hseen.2 h) hon hgen ((EdgeSrc.apart_iff ..).2 hapart) hi hb hrich
      exact ⟨t, st, congrArg Host.Outcome.next ht, hrest⟩
    · obtain ⟨t, ht, hrest⟩ := edgeArrival_poor (hseen.2 h) hon hgen ((EdgeSrc.apart_iff ..).2 hapart) hi hb hpoor
      exact ⟨t, congrArg Host.Outcome.next ht, hrest⟩
  case release =>
    intro e r h ht
    have hdue := edgeRelease_due h ht
    refine ⟨fun hs hu hg => ?_, fun hs hu hg => ?_, fun i b hs hg => ⟨fun a hu ha hto hlt => ?_, fun hu ha hen => ?_⟩,
      fun g k j ks hs hu hg hopen hafter hen hk hks hj hjk => ?_⟩
    · rw [hs, hu, hg] at hdue
      exact congrArg Host.Outcome.next hdue
    · rw [hs, hu, hg] at hdue
      refine ⟨fun hq => congrArg Host.Outcome.next (hdue.trans (streamed_unrouted _ hq)), fun hq => ⟨_, congrArg Host.Outcome.next hdue,
        streamed_fifo .., fun hput => streamed_refused _ hq ((putPacket_popped ..).trans hput)⟩⟩
    · rw [hs, hu, hg] at hdue
      obtain ⟨x, hx⟩ := intervalClose_interval (s.edgePopped r) i a (e.at' - a.at') e.flags false
      refine ⟨_, congrArg Host.Outcome.next (hdue.trans (intervalEdge_stop (s := s.edgePopped r) ha hto hlt)), ?_⟩
      rw [hx]
      exact ⟨rfl, rfl, rfl⟩
    · rw [hs, hu, hg] at hdue
      refine ⟨_, congrArg Host.Outcome.next (hdue.trans (intervalEdge_start (s := s.edgePopped r) ha hen)), ?_, rfl⟩
      rw [setInterval_interval]
    · rw [hs, hu, hg] at hdue
      obtain ⟨⟨f, l⟩, x, ⟨hfirst, hlead, hlast⟩, hedge⟩ := groupEdge_opens (s := s.edgePopped r) hopen hafter hen hk hks hj hjk
      refine ⟨_, l, congrArg Host.Outcome.next (hdue.trans hedge), ?_, hlead, hlast, rfl⟩
      rw [setGroup_group, ← hfirst]
  case intervals =>
    refine fun i => ⟨fun h => congrArg Host.Outcome.next (intervalTimeout_closed h), fun a h => ⟨fun hp => congrArg Host.Outcome.next
      (intervalTimeout_waits h (mt (edgesPast_iff ..).1 hp)), fun hp => ⟨_, congrArg Host.Outcome.next
      (intervalTimeout_past h ((edgesPast_iff ..).2 hp)), ?_⟩⟩⟩
    obtain ⟨x, hx⟩ := intervalClose_interval s i a 0 0 true
    rw [hx]
    exact ⟨rfl, rfl, rfl, fun hcont => intervalClose_disables s i i.isLt hcont ..⟩
  case groups =>
    refine fun g => ⟨fun h => congrArg Host.Outcome.next (groupTimeout_closed h), fun o h => ⟨fun hp => congrArg Host.Outcome.next
      (groupTimeout_waits h (mt (edgesPast_iff ..).1 hp)), fun hp => ⟨_, congrArg Host.Outcome.next
      (groupTimeout_past h ((edgesPast_iff ..).2 hp)), ?_⟩⟩, fun h => ?_, fun k h hk => congrArg Host.Outcome.next (groupHoldoffEnd_early h hk)⟩
    · rw [groupClose_eq, setGroup_group, groupDone_ef s g o _ g.isLt]
      refine ⟨rfl, ?_, fun hshort => ?_, fun hneed => ?_⟩
      · rw [Bool.eq_iff_iff, bne_iff_ne, decide_eq_true_iff]
      · rw [groupDone_short _ hshort]
        exact ⟨State.f_bump_same s (fieldOk_of rfl) 1, rfl⟩
      · rw [groupDone_reported _ hneed]
        obtain ⟨hcount, q, hlast, ht0, hoffs⟩ := groupReport_group s g o eTIMEOUT
        exact ⟨q, hlast, ht0, hoffs, hcount⟩
    · rcases groupHoldoffEnd_passed h with ⟨he, hold⟩ | he
      · exact ⟨s, congrArg Host.Outcome.next he, hold, rfl, rfl⟩
      · refine ⟨_, congrArg Host.Outcome.next he, ?_, rfl, rfl⟩
        rw [setGroup_group]

end

section
/-!
PROOFS. Requests of visits and of core runs (R173, R175, R176): how they join the queue or merge into it, rotation, and the temperature trigger.
-/
namespace Sys2Proof.Machine

open Sys2Proof

/-! ### The queue of requests (R173) -/

/-- Work for duty `d` of cluster `n`, or a run of its spare, is queued. -/
def State.Queued (s : State) (n : Nat) (d : Option Nat) : Prop := ∃ r ∈ s.front.reqs, r.cluster = n ∧ r.duty = d

/-- Request `q` asks for the same work as `r`. -/
def VisitReq.same (r q : VisitReq) : Bool := q.cluster == r.cluster && q.duty == r.duty

/-- A queued request once `r` has come: the forced one of two that ask for the same work prevails. -/
def VisitReq.merge (r q : VisitReq) : VisitReq := if r.same q then { q with force := q.force || r.force } else q

/-- The queue once `r` has come. -/
def VisitReq.joined (r : VisitReq) (l : List VisitReq) : List VisitReq := if l.any r.same then l.map r.merge else l ++ [r]

/-- CNV_VISIT_STAT shows the duty of `r` queued. -/
def State.showQueued (s : State) (r : VisitReq) : State :=
  match r.duty with
  | some k => s.wf (F.CNV_VISIT_STAT_QUEUED r.cluster) (s.f (F.CNV_VISIT_STAT_QUEUED r.cluster) ||| 2 ^ k)
  | none => s

section Request
variable {s : State} {r : VisitReq}

theorem any_same_iff : s.front.reqs.any r.same = true ↔ s.Queued r.cluster r.duty := by
  simp only [List.any_eq_true, VisitReq.same, Bool.and_eq_true, beq_iff_eq, State.Queued]

theorem merge_cls (q : VisitReq) : (r.merge q).cls = q.cls := by unfold VisitReq.merge; split <;> rfl
theorem merge_cluster (q : VisitReq) : (r.merge q).cluster = q.cluster := by unfold VisitReq.merge; split <;> rfl
theorem merge_duty (q : VisitReq) : (r.merge q).duty = q.duty := by unfold VisitReq.merge; split <;> rfl

/-- A request that does not force leaves what is queued as it is. -/
theorem merge_unforced (h : r.force = false) (q : VisitReq) : r.merge q = q := by
  unfold VisitReq.merge
  rw [h, Bool.or_false]
  exact ite_self q

theorem showQueued_front : (s.showQueued r).front = s.front := by
  unfold State.showQueued
  split <;> rfl

theorem showQueued_same : s.SameBut (s.showQueued r) [Reg.CNV_VISIT_STAT r.cluster] := by
  unfold State.showQueued
  split
  · exact (State.SameBut.refl s _).wf _ (List.mem_singleton_self _)
  · exact State.SameBut.refl s _

theorem showQueued_bit {k : Nat} (hk : r.duty = some k) (h : k < 2) :
    ((s.showQueued r).f (F.CNV_VISIT_STAT_QUEUED r.cluster)).testBit k = true := by
  unfold State.showQueued
  rw [hk]
  dsimp only
  rw [State.f_wf_same s (fieldOk_of rfl), Nat.testBit_mod_two_pow, Nat.testBit_or, Nat.testBit_two_pow_self, Bool.or_true, Bool.and_true]
  exact decide_eq_true h

theorem request_barred (h : s.reqBarred r = true) : s.request r = s := if_pos h

/-- A request that is not barred joins the queue and is shown. -/
theorem request_eq (h : s.reqBarred r = false) :
    s.request r = { s with front.reqs := r.joined s.front.reqs }.showQueued r := by
  have hjoined : { s with front.reqs := r.joined s.front.reqs } = if s.front.reqs.any r.same
      then { s with front.reqs := s.front.reqs.map r.merge } else { s with front.reqs := s.front.reqs ++ [r] } := by
    unfold VisitReq.joined
    split <;> rfl
  rw [hjoined]
  exact if_neg (Bool.eq_false_iff.1 h)

theorem request_reqs (h : s.reqBarred r = false) : (s.request r).front.reqs = r.joined s.front.reqs := by
  rw [request_eq h, showQueued_front]

/-- Request `r` joined the end of the queue, and CNV_VISIT_STAT shows it. -/
structure State.Asked (s t : State) (r : VisitReq) : Prop where
  reqs : t.front.reqs = s.front.reqs ++ [r]
  regs : s.SameBut t [Reg.CNV_VISIT_STAT r.cluster]
  shown : ∀ k, r.duty = some k → k < 2 → (t.f (F.CNV_VISIT_STAT_QUEUED r.cluster)).testBit k = true

theorem request_asked (h : s.reqBarred r = false) (hnew : ¬s.Queued r.cluster r.duty) : s.Asked (s.request r) r := by
  have hreqs : r.joined s.front.reqs = s.front.reqs ++ [r] := if_neg (mt any_same_iff.1 hnew)
  refine ⟨(request_reqs h).trans hreqs, ?_, fun k hk hlt => ?_⟩
  · rw [request_eq h]
    exact showQueued_same
  · rw [request_eq h]
    exact showQueued_bit hk hlt

theorem State.Asked.completes {c : Instr} {t : State} (h : s.Asked t r) (hexec : exec c s = .next t) :
    ∃ t, exec c s = .next t ∧ t.front.reqs = s.front.reqs ++ [r] ∧ s.RegsBut t [Reg.CNV_VISIT_STAT r.cluster]
      ∧ ∀ k, r.duty = some k → k < 2 → (t.f (F.CNV_VISIT_STAT_QUEUED r.cluster)).testBit k = true :=
  ⟨t, hexec, h.reqs, fun a ha _ => h.regs a ha, h.shown⟩

/-- A repeated request changes neither what is queued nor its order. -/
theorem request_keys (hold : s.Queued r.cluster r.duty) :
    ((s.request r).front.reqs.map fun q => (q.cls, q.cluster, q.duty)) = s.front.reqs.map fun q => (q.cls, q.cluster, q.duty) := by
  cases h : s.reqBarred r
  case true => rw [request_barred h]
  case false =>
    have hmerged : r.joined s.front.reqs = s.front.reqs.map r.merge := if_pos (any_same_iff.2 hold)
    rw [request_reqs h, hmerged, List.map_map]
    exact List.map_congr_left fun q _ => by simp only [Function.comp_apply, merge_cls, merge_cluster, merge_duty]

/-- A run of the spare is never barred: three failed checks bar visits only (R180). -/
theorem reqBarred_run (h : r.duty = none) : s.reqBarred r = false := by
  unfold State.reqBarred
  rw [h]

theorem reqBarred_duty {k : Nat} (h : r.duty = some k) :
    s.reqBarred r = true ↔ r.cls ≠ 3 ∧ 3 ≤ (s.duty (2 * r.cluster + k)).fails := by
  unfold State.reqBarred
  rw [h]
  simp only [Bool.and_eq_true, bne_iff_ne, decide_eq_true_eq]

theorem reqBarred_free {k : Nat} (h : r.duty = some k) (hfree : r.cls = 3 ∨ (s.duty (2 * r.cluster + k)).fails < 3) : s.reqBarred r = false :=
  Bool.eq_false_iff.2 fun hbarred => by
    obtain ⟨hcls, hfails⟩ := (reqBarred_duty h).1 hbarred
    exact hfree.elim hcls (Nat.not_lt.2 hfails)

/-- A repeated request of a run changes nothing. -/
theorem request_run_again (hd : r.duty = none) (hf : r.force = false) (hold : s.Queued r.cluster r.duty) : s.request r = s := by
  have hsame : r.joined s.front.reqs = s.front.reqs := by
    refine (if_pos (any_same_iff.2 hold)).trans ?_
    exact (List.map_congr_left fun q _ => merge_unforced hf q).trans (List.map_id _)
  rw [request_eq (reqBarred_run hd), hsame]
  unfold State.showQueued
  rw [hd]

/-- What is queued stays queued. -/
theorem request_queued {n : Nat} {d : Option Nat} (h : s.Queued n d) : (s.request r).Queued n d := by
  cases hb : s.reqBarred r
  case true => rwa [request_barred hb]
  case false =>
    obtain ⟨q, hq, hn, hd⟩ := h
    unfold State.Queued
    rw [request_reqs hb]
    unfold VisitReq.joined
    split
    · exact ⟨r.merge q, List.mem_map_of_mem hq, (merge_cluster q).trans hn, (merge_duty q).trans hd⟩
    · exact ⟨q, List.mem_append_left _ hq, hn, hd⟩

/-- And so is what a request that is not barred asks for. -/
theorem request_queues (h : s.reqBarred r = false) : (s.request r).Queued r.cluster r.duty := by
  by_cases hold : s.Queued r.cluster r.duty
  · exact request_queued hold
  · exact ⟨r, by rw [(request_asked h hold).reqs]; exact List.mem_append_right _ (List.mem_singleton_self r), rfl, rfl⟩

end Request

/-! ### Rotation (R175) -/

section Rotation
variable {s : State} {n : Fin 12}

/-- The rotation of cluster `n` passes to its other duty. -/
def State.rotated (s : State) (n : Nat) : State :=
  { s with front.rot := tabSet (fun _ => 0) s.front.rot n (1 - tabGet (fun _ => 0) s.front.rot n) }

/-- The request of a rotation visit. -/
def State.rotReq (s : State) (n : Nat) : VisitReq := { cls := 4, cluster := n, duty := some (tabGet (fun _ => 0) s.front.rot n), force := false }

theorem any_visit_iff (s : State) (n : Nat) : (s.front.reqs.any fun q => q.cluster == n && q.duty.isSome) = true ↔ ∃ d, s.Queued n (some d) := by
  simp only [List.any_eq_true, Bool.and_eq_true, beq_iff_eq, Option.isSome_iff_exists, State.Queued]
  exact ⟨fun ⟨q, hq, hn, d, hd⟩ => ⟨d, q, hq, hn, hd⟩, fun ⟨d, q, hq, hn, hd⟩ => ⟨q, hq, hn, d, hd⟩⟩

theorem execRotationRequest_off (h : s.f F.CNV_ROT_CTRL_AUTO = 0) : execRotationRequest n s = .next s :=
  congrArg Host.Outcome.next (if_neg fun hflag => absurd ((flag_eq_true ..).1 hflag) (by rw [h]; decide))

theorem execRotationRequest_waits (h : s.f F.CNV_ROT_CTRL_AUTO = 1) (hq : ∃ d, s.Queued n (some d)) :
    execRotationRequest n s = .next (s.rotated n) :=
  congrArg Host.Outcome.next ((if_pos ((flag_eq_true ..).2 h)).trans (if_pos ((any_visit_iff s n).2 hq)))

theorem execRotationRequest_asks (h : s.f F.CNV_ROT_CTRL_AUTO = 1) (hq : ¬∃ d, s.Queued n (some d)) :
    execRotationRequest n s = .next ((s.rotated n).request (s.rotReq n)) :=
  congrArg Host.Outcome.next ((if_pos ((flag_eq_true ..).2 h)).trans (if_neg (mt (any_visit_iff s n).1 hq)))

theorem request_rot (s : State) (r : VisitReq) : (s.request r).front.rot = s.front.rot := by
  cases h : s.reqBarred r
  case true => rw [request_barred h]
  case false => rw [request_eq h, showQueued_front]

theorem rotated_rot (s : State) (n : Nat) : tabGet (fun _ => 0) (s.rotated n).front.rot n = 1 - tabGet (fun _ => 0) s.front.rot n :=
  tabGet_tabSet_same ..

theorem rotated_asked {t : State} {r : VisitReq} {k : Nat} (h : (s.rotated k).Asked t r) : s.Asked t r := ⟨h.reqs, h.regs, h.shown⟩

/-- Three failed checks bar the rotation visit. -/
theorem rotReq_barred (h : 3 ≤ (s.duty (2 * n + tabGet (fun _ => 0) s.front.rot n)).fails) : (s.rotated n).reqBarred (s.rotReq n) = true := by
  have hcls : (s.rotReq n).cls ≠ 3 := show 4 ≠ 3 by decide
  exact (reqBarred_duty rfl).2 ⟨hcls, h⟩

end Rotation

/-! ### The temperature trigger (R176) -/

/-- The trigger looks at core `q` with CAL_DT `dt`. -/
def State.tempStep (s : State) (dt q : Nat) : State :=
  let n := q / 3
  let p := q % 3
  let far := dt != 0 && (s.core q).ran &&
    decide (2 * dt < (s.fs (F.UMB_SENSs_VALUE (tileOfCluster n)) - s.fs (F.CNV_Pp_RUN_TEMP_TEMP n p)).natAbs)
  if s.f (F.CNV_Pp_STATE_STATE n p) = 5 then s
  else if p = s.spareOf n then
    if far then s.request { cls := 1, cluster := n, duty := none, force := false } else s
  else if far then
    s.request { cls := 2, cluster := n, duty := some (if p = s.holder n 0 then 0 else 1), force := false }
  else s

theorem tempTrigger_eq (s : State) :
    s.tempTrigger = (List.range 36).foldl (fun t q => t.tempStep (s.f F.CNV_ROT_CTRL_CAL_DT) q) s := rfl

theorem tempStep_cases (s : State) (dt q : Nat) :
    s.tempStep dt q = s ∨ ∃ r : VisitReq, r.cluster = q / 3 ∧ s.tempStep dt q = s.request r := by
  unfold State.tempStep
  dsimp only
  split
  · exact .inl rfl
  · split
    · split
      · exact .inr ⟨_, rfl, rfl⟩
      · exact .inl rfl
    · split
      · exact .inr ⟨_, rfl, rfl⟩
      · exact .inl rfl

/-- The spare of cluster `i` is not FAULTY, and its last run was taken more than `dt` away. -/
structure State.SpareFar (s : State) (dt i : Nat) : Prop where
  sound : s.f (F.CNV_Pp_STATE_STATE i (s.spareOf i)) ≠ 5
  ran : (s.core (3 * i + s.spareOf i)).ran = true
  on : dt ≠ 0
  far : 2 * dt < (s.fs (F.UMB_SENSs_VALUE (i / 3)) - s.fs (F.CNV_Pp_RUN_TEMP_TEMP i (s.spareOf i))).natAbs

/-- The trigger queues the run of such a spare. -/
theorem tempStep_spare {s : State} {dt i : Nat} (hp : s.spareOf i < 3) (h : s.SpareFar dt i) :
    (s.tempStep dt (3 * i + s.spareOf i)).Queued i none := by
  have hdiv : (3 * i + s.spareOf i) / 3 = i := by omega
  have hmod : (3 * i + s.spareOf i) % 3 = s.spareOf i := by omega
  have hfar : (dt != 0 && (s.core (3 * i + s.spareOf i)).ran && decide (2 * dt < (s.fs (F.UMB_SENSs_VALUE (tileOfCluster i))
      - s.fs (F.CNV_Pp_RUN_TEMP_TEMP i (s.spareOf i))).natAbs)) = true := by
    rw [Bool.and_eq_true, Bool.and_eq_true, bne_iff_ne, decide_eq_true_iff]
    exact ⟨⟨h.on, h.ran⟩, h.far⟩
  unfold State.tempStep
  rw [hdiv, hmod]
  dsimp only
  rw [if_neg h.sound, if_pos rfl, if_pos hfar]
  exact request_queues (r := { cls := 1, cluster := i, duty := none, force := false }) (reqBarred_run rfl)

/-- The registers that requests of the twelve clusters write. -/
def visitStats : List Nat := (List.range 12).map Reg.CNV_VISIT_STAT

/-- `t` comes from `s` by requests. -/
structure State.Asking (s t : State) : Prop where
  regs : s.SameBut t visitStats
  core : ∀ q, t.core q = s.core q
  queued : ∀ n d, s.Queued n d → t.Queued n d

theorem State.Asking.refl (s : State) : s.Asking s := ⟨State.SameBut.refl s _, fun _ => rfl, fun _ _ h => h⟩

theorem State.Asking.trans {s t u : State} (h : s.Asking t) (k : t.Asking u) : s.Asking u :=
  ⟨h.regs.trans k.regs, fun q => (k.core q).trans (h.core q), fun n d hq => k.queued n d (h.queued n d hq)⟩

theorem visitStat_mem {n : Nat} (h : n < 12) : Reg.CNV_VISIT_STAT n ∈ visitStats := List.mem_map_of_mem (List.mem_range.2 h)

theorem not_visitStat {a : Nat} (h : ∀ n < 12, a ≠ Reg.CNV_VISIT_STAT n) : a ∉ visitStats := fun hm => by
  obtain ⟨n, hn, e⟩ := List.mem_map.1 hm
  exact h n (List.mem_range.1 hn) e.symm

theorem tempStep_asking (s : State) (dt : Nat) {q : Nat} (hq : q < 36) : s.Asking (s.tempStep dt q) := by
  rcases tempStep_cases s dt q with e | ⟨r, hr, e⟩
  · rw [e]
    exact .refl s
  · rw [e]
    have hmem : Reg.CNV_VISIT_STAT r.cluster ∈ visitStats := visitStat_mem (by omega)
    exact ⟨fun a ha => request_rd s r fun h => ha (h ▸ hmem), request_core s r, fun _ _ => request_queued⟩

theorem foldl_asking (dt : Nat) (l : List Nat) (hl : ∀ q ∈ l, q < 36) (s : State) : s.Asking (l.foldl (fun t q => t.tempStep dt q) s) := by
  induction l generalizing s with
  | nil => exact .refl s
  | cons q l ih =>
    exact (tempStep_asking s dt (hl q List.mem_cons_self)).trans (ih (fun x hx => hl x (List.mem_cons_of_mem _ hx)) _)

theorem State.Asking.f {s t : State} (h : s.Asking t) {x : RegField} (hx : ∀ n < 12, x.addr ≠ Reg.CNV_VISIT_STAT n) : t.f x = s.f x :=
  h.regs.f (not_visitStat hx)

theorem State.Asking.spareOf {s t : State} (h : s.Asking t) (i : Nat) : t.spareOf i = s.spareOf i := by
  refine h.f fun n _ => ?_
  unfold F.CNV_ROLE_S_CORE Reg.CNV_ROLE Reg.CNV_VISIT_STAT
  dsimp only
  omega

theorem State.Asking.spareFar {s t : State} (h : s.Asking t) {dt i : Nat} (hi : i < 12) (hfar : s.SpareFar dt i) : t.SpareFar dt i := by
  have hstate : t.f (F.CNV_Pp_STATE_STATE i (s.spareOf i)) = s.f (F.CNV_Pp_STATE_STATE i (s.spareOf i)) := by
    refine h.f fun n _ => ?_
    unfold F.CNV_Pp_STATE_STATE Reg.CNV_Pp_STATE Reg.CNV_VISIT_STAT
    dsimp only
    omega
  have hrun : t.f (F.CNV_Pp_RUN_TEMP_TEMP i (s.spareOf i)) = s.f (F.CNV_Pp_RUN_TEMP_TEMP i (s.spareOf i)) := by
    refine h.f fun n _ => ?_
    unfold F.CNV_Pp_RUN_TEMP_TEMP Reg.CNV_Pp_RUN_TEMP Reg.CNV_VISIT_STAT
    dsimp only
    omega
  have htemp : t.f (F.UMB_SENSs_VALUE (i / 3)) = s.f (F.UMB_SENSs_VALUE (i / 3)) := by
    refine h.f fun n _ => ?_
    unfold F.UMB_SENSs_VALUE Reg.UMB_SENSs Reg.CNV_VISIT_STAT
    dsimp only
    omega
  obtain ⟨hsound, hran, hon, hfar⟩ := hfar
  constructor
  · rwa [h.spareOf, hstate]
  · rwa [h.spareOf, h.core]
  · exact hon
  · unfold State.fs at hfar ⊢
    rwa [h.spareOf, hrun, htemp]

/-- What the trigger queues for a spare at its turn is still queued in the end. -/
theorem foldl_spare {s : State} {dt i : Nat} (hi : i < 12) (hp : s.spareOf i < 3) (h : s.SpareFar dt i) {l : List Nat} (hl : ∀ q ∈ l, q < 36)
    (hturn : 3 * i + s.spareOf i ∈ l) : (l.foldl (fun t q => t.tempStep dt q) s).Queued i none := by
  obtain ⟨l, l', rfl⟩ := List.append_of_mem hturn
  rw [List.foldl_append, List.foldl_cons]
  have hbefore := foldl_asking dt l (fun q hq => hl q (List.mem_append_left _ hq)) s
  have hqueued := tempStep_spare (by rwa [hbefore.spareOf]) (hbefore.spareFar hi h)
  rw [hbefore.spareOf] at hqueued
  exact (foldl_asking dt l' (fun q hq => hl q (List.mem_append_right _ (List.mem_cons_of_mem _ hq))) _).queued i none hqueued

theorem tempTrigger_asking (s : State) : s.Asking s.tempTrigger := by
  rw [tempTrigger_eq]
  exact foldl_asking _ _ (fun _ => List.mem_range.1) s

theorem tempTrigger_spare {s : State} {i : Nat} (hi : i < 12) (hp : s.spareOf i < 3) (h : s.SpareFar (s.f F.CNV_ROT_CTRL_CAL_DT) i) :
    s.tempTrigger.Queued i none := by
  rw [tempTrigger_eq]
  exact foldl_spare hi hp h (fun _ => List.mem_range.1) (List.mem_range.2 (by omega))

end Sys2Proof.Machine
end

section
/-!
PROOFS. The course of the visits of the spare core (R173, R174, R178 to R181, R185): retries, cancelled and cut visits, the match check, and the
begin of queued work.
-/
namespace Sys2Proof.Machine

open Sys2Proof

/-! ### Visits and runs that are set -/

section Set
variable {s : State}

theorem visit_setVisit (s : State) (n : Nat) (x : Option Visit) : (s.setVisit n x).visit n = x := tabGet_tabSet_same ..

@[simp] theorem visit_wf (s : State) (x : RegField) (v n : Nat) : (s.wf x v).visit n = s.visit n := rfl

@[simp] theorem visit_setRun (s : State) (t : Nat) (x : Option CoreRun) (n : Nat) : (s.setRun t x).visit n = s.visit n := rfl

@[simp] theorem setRun_mem (s : State) (t : Nat) (x : Option CoreRun) : (s.setRun t x).mem = s.mem := rfl

@[simp] theorem setRun_reqs (s : State) (t : Nat) (x : Option CoreRun) : (s.setRun t x).front.reqs = s.front.reqs := rfl

@[simp] theorem setVisit_mem (s : State) (n : Nat) (x : Option Visit) : (s.setVisit n x).mem = s.mem := rfl

@[simp] theorem setVisit_reqs (s : State) (n : Nat) (x : Option Visit) : (s.setVisit n x).front.reqs = s.front.reqs := rfl

@[simp] theorem f_setVisit (s : State) (n : Nat) (x : Option Visit) (y : RegField) : (s.setVisit n x).f y = s.f y := rfl

theorem State.SameBut.setVisit {t : State} {l : List Nat} (h : s.SameBut t l) (n : Nat) (x : Option Visit) : s.SameBut (t.setVisit n x) l := h

end Set

/-! ### Retries (R180, R185) -/

section Retry
variable {s : State} {n : Fin 12}

theorem execVisitRetry_waits {k : Fin 2} (h : ¬(1 ≤ (s.duty (2 * n + k)).fails ∧ (s.duty (2 * n + k)).fails < 3)) :
    execVisitRetry n k s = .next s := congrArg Host.Outcome.next (if_neg h)

theorem execVisitRetry_asks {k : Fin 2} (h : 1 ≤ (s.duty (2 * n + k)).fails ∧ (s.duty (2 * n + k)).fails < 3) :
    execVisitRetry n k s = .next (s.request { cls := 4, cluster := n, duty := some k.val, force := false }) :=
  congrArg Host.Outcome.next (if_pos h)

/-- The spare of cluster `n` was refused, is not FAULTY, and no visit goes on. -/
def State.runRefused (s : State) (n : Nat) : Prop :=
  s.f (F.CNV_Pp_STATE_REFUSALS n (s.spareOf n)) ≠ 0 ∧ s.f (F.CNV_Pp_STATE_STATE n (s.spareOf n)) ≠ 5 ∧ (s.visit n).isNone

theorem execCoreRunRetry_waits (h : ¬s.runRefused n) : execCoreRunRetry n s = .next s := congrArg Host.Outcome.next (if_neg h)

theorem execCoreRunRetry_asks (h : s.runRefused n) :
    execCoreRunRetry n s = .next (s.request { cls := 1, cluster := n, duty := none, force := false }) :=
  congrArg Host.Outcome.next (if_pos h)

end Retry

/-! ### Cancelled and cut visits (R181) -/

section Cancel
variable {s : State} {n : Nat} {v : Visit}

theorem visitCancel_idle (hv : s.visit n = none) (hq : ¬∃ d, s.Queued n (some d)) : s.visitCancel n = s := by
  unfold State.visitCancel
  rw [hv]
  exact if_neg (mt (any_visit_iff s n).1 hq)

theorem visitCancel_queued (hv : s.visit n = none) (hq : ∃ d, s.Queued n (some d)) :
    s.visitCancel n = (s.unrequest n (·.duty.isSome)).visitResult n 8 := by
  unfold State.visitCancel
  rw [hv]
  exact if_pos ((any_visit_iff s n).2 hq)

theorem visitCancel_open (hv : s.visit n = some v) (hd : v.duty ≠ none) (hverdict : v.verdict = none) :
    s.visitCancel n = s.setVisit n (some { v with stopping := some 8 }) := by
  have hopen : (v.duty.isSome && v.verdict.isNone) = true := by
    rw [Bool.and_eq_true, Option.isSome_iff_ne_none, Option.isNone_iff_eq_none]
    exact ⟨hd, hverdict⟩
  unfold State.visitCancel
  rw [hv]
  exact if_pos hopen

theorem visitCancel_late (hv : s.visit n = some v) (h : v.duty = none ∨ v.verdict ≠ none) : s.visitCancel n = s := by
  unfold State.visitCancel
  rw [hv]
  refine if_neg fun hand => ?_
  rw [Bool.and_eq_true, Option.isSome_iff_ne_none, Option.isNone_iff_eq_none] at hand
  exact h.elim hand.1 fun hverdict => hverdict hand.2

/-- A request that `p` picks is not queued afterwards. -/
theorem unrequest_mem {p : VisitReq → Bool} {r : VisitReq} (h : r ∈ (s.unrequest n p).front.reqs) : r.cluster = n → p r = false := by
  have hkept := (List.mem_filter.1 h).2
  rw [Bool.not_eq_true', Bool.and_eq_false_iff, beq_eq_false_iff_ne] at hkept
  exact fun hn => hkept.resolve_left (not_not_intro hn)

@[simp] theorem unrequest_tick (s : State) (n : Nat) (p : VisitReq → Bool) : (s.unrequest n p).tick = s.tick := State.wf_tick ..

theorem unrequest_visits_queued : (s.unrequest n (·.duty.isSome)).f (F.CNV_VISIT_STAT_QUEUED n) = 0 := by
  have hgone (k : Nat) : ((s.front.reqs.filter fun q => !(q.cluster == n && q.duty.isSome)).any
      fun q => q.cluster == n && q.duty == some k) = false := by
    refine Bool.eq_false_iff.2 fun hany => ?_
    obtain ⟨q, hq, hand⟩ := List.any_eq_true.1 hany
    rw [Bool.and_eq_true, beq_iff_eq, beq_iff_eq] at hand
    have hvisit := unrequest_mem (s := s) (p := (·.duty.isSome)) hq hand.1
    rw [hand.2] at hvisit
    exact absurd hvisit nofun
  unfold State.unrequest
  dsimp only
  rw [hgone, hgone]
  exact State.f_wf_same _ (fieldOk_of rfl) _

@[simp] theorem visitResult_front (s : State) (n res : Nat) : (s.visitResult n res).front = s.front := State.wf_front ..

theorem cancelled_shows :
    ((s.unrequest n (·.duty.isSome)).visitResult n 8).f (F.CNV_VISIT_STAT_RESULT n) = 8
      ∧ ((s.unrequest n (·.duty.isSome)).visitResult n 8).f (F.CNV_VISIT_STAT_QUEUED n) = 0 := by
  unfold State.visitResult
  exact ⟨State.f_wf_same _ (fieldOk_of rfl) 8, (State.f_wf_ne _ (fieldOk_of rfl) (apart_below rfl) 8).trans unrequest_visits_queued⟩

theorem cancelled_mem {r : VisitReq} (h : r ∈ ((s.unrequest n (·.duty.isSome)).visitResult n 8).front.reqs) (hn : r.cluster = n) :
    r.duty = none := by
  rw [visitResult_front] at h
  have hgone : r.duty.isSome = false := unrequest_mem h hn
  exact Option.not_isSome_iff_eq_none.1 (Bool.eq_false_iff.1 hgone)

end Cancel

section Short
variable {s : State} {n : Fin 12} {v : Visit}

/-- The staging of the last tick that visit `v` may shadow has closed. -/
def State.shadowPast (s : State) (v : Visit) : Prop :=
  v.ts + s.f F.CNV_SHADOW_MAX_TICKS < s.tick.num ∨ (v.ts + s.f F.CNV_SHADOW_MAX_TICKS = s.tick.num ∧ s.tick.stagingClosed = true)

theorem shadowPast_iff (s : State) (v : Visit) : (decide (v.ts + s.f F.CNV_SHADOW_MAX_TICKS < s.tick.num)
    || (v.ts + s.f F.CNV_SHADOW_MAX_TICKS == s.tick.num && s.tick.stagingClosed)) = true ↔ s.shadowPast v := by
  simp only [Bool.or_eq_true, decide_eq_true_eq, Bool.and_eq_true, beq_iff_eq, State.shadowPast]

theorem execShadowShort_cuts (hv : s.visit n = some v) (hd : v.duty ≠ none) (htm : v.tm = none) (hpast : s.shadowPast v) :
    execShadowShort n s = .next (s.setVisit n (some { v with stopping := some 3 })) := by
  unfold execShadowShort
  rw [hv]
  refine congrArg Host.Outcome.next (if_pos ?_)
  rw [Bool.and_eq_true, Bool.and_eq_true, Option.isSome_iff_ne_none, Option.isNone_iff_eq_none, shadowPast_iff]
  exact ⟨⟨hd, htm⟩, hpast⟩

theorem execShadowShort_waits (hv : s.visit n = some v) (h : v.tm ≠ none ∨ ¬s.shadowPast v) : execShadowShort n s = .next s := by
  unfold execShadowShort
  rw [hv]
  refine congrArg Host.Outcome.next (if_neg fun hand => ?_)
  rw [Bool.and_eq_true, Bool.and_eq_true, Option.isNone_iff_eq_none, shadowPast_iff] at hand
  exact h.elim (fun htm => htm hand.1.2) fun hpast => hpast hand.2

end Short

/-! ### The match check (R178, R179) -/

section Match
variable {s : State} {n : Nat} {v : Visit}

/-- Every channel that the check of visit `v` covers is within MEAN and RMS. -/
def State.matches (s : State) (v : Visit) (tm : Nat) : Bool :=
  v.chans.all fun c => withinLimits (checkDiffs v.pairs c tm s.matchPairs) (s.f F.CNV_MATCH_CFG_MEAN) (s.f F.CNV_MATCH_CFG_RMS)

/-- The worst channel and its figures are shown. -/
def State.matchShown (s : State) (n ch : Nat) (mean : Int) (rms : Nat) : State :=
  ((s.wf (F.CNV_MATCH_RES_CH n) ch).wfs (F.CNV_MATCH_RES_MEAN n) mean).wf (F.CNV_MATCH_RES_RMS n) rms

/-- A verdict `ok` moves the visit to its next phase. -/
def State.matchPhase (s : State) (n : Nat) (ok : Bool) : State := if ok then s.wf (F.CNV_ROLE_PHASE n) 2 else s

theorem matchCheck_eq {tm : Nat} (hv : s.visit n = some v) (htm : v.tm = some tm) (hverdict : v.verdict = none) : ∃ ch mean rms,
    s.matchCheck n = ((s.matchShown n ch mean rms).matchPhase n (s.matches v tm || v.force)).setVisit n
      (some { v with verdict := some (s.matches v tm || v.force), forced := !s.matches v tm && v.force }) := by
  have hall : ((v.chans.map fun c => (c, checkDiffs v.pairs c tm s.matchPairs)).all fun x =>
      withinLimits x.2 (s.f F.CNV_MATCH_CFG_MEAN) (s.f F.CNV_MATCH_CFG_RMS)) = s.matches v tm := List.all_map
  unfold State.matchCheck
  rw [hv]
  dsimp only
  rw [htm, hverdict]
  dsimp only
  rw [hall]
  exact ⟨_, _, _, rfl⟩

theorem matchShown_same (s : State) (n ch : Nat) (mean : Int) (rms : Nat) : s.SameBut (s.matchShown n ch mean rms) [Reg.CNV_MATCH_RES n] :=
  (((State.SameBut.refl s _).wf (x := F.CNV_MATCH_RES_CH n) _ (List.mem_singleton_self _)).wf (x := F.CNV_MATCH_RES_MEAN n) _
    (List.mem_singleton_self _)).wf (x := F.CNV_MATCH_RES_RMS n) _ (List.mem_singleton_self _)

theorem matchPhase_same (s : State) (n : Nat) (ok : Bool) : s.SameBut (s.matchPhase n ok) [Reg.CNV_ROLE n] := by
  cases ok
  case false => exact .refl s _
  case true => exact (State.SameBut.refl s _).wf (x := F.CNV_ROLE_PHASE n) _ (List.mem_singleton_self _)

theorem matchPhase_phase (s : State) (n : Nat) (ok : Bool) :
    (s.matchPhase n ok).f (F.CNV_ROLE_PHASE n) = if ok then 2 else s.f (F.CNV_ROLE_PHASE n) := by
  cases ok
  case false => rfl
  case true => exact State.f_wf_same s (fieldOk_of rfl) 2

theorem role_not_matchRes (n : Nat) : Reg.CNV_ROLE n ∉ [Reg.CNV_MATCH_RES n] := by
  rw [List.mem_singleton]
  unfold Reg.CNV_ROLE Reg.CNV_MATCH_RES
  omega

/-- The check gives the visit its verdict, and shows the worst channel and the phase. -/
theorem matchCheck_shows {tm : Nat} (hv : s.visit n = some v) (htm : v.tm = some tm) (hverdict : v.verdict = none) :
    (s.matchCheck n).visit n = some { v with verdict := some (s.matches v tm || v.force), forced := !s.matches v tm && v.force }
      ∧ (s.matchCheck n).f (F.CNV_ROLE_PHASE n) = (if s.matches v tm || v.force then 2 else s.f (F.CNV_ROLE_PHASE n))
      ∧ s.SameBut (s.matchCheck n) [Reg.CNV_MATCH_RES n, Reg.CNV_ROLE n] := by
  obtain ⟨ch, mean, rms, e⟩ := matchCheck_eq hv htm hverdict
  have hshown := matchShown_same s n ch mean rms
  have hphase := matchPhase_same (s.matchShown n ch mean rms) n (s.matches v tm || v.force)
  rw [e]
  refine ⟨visit_setVisit .., ?_, ?_⟩
  · rw [f_setVisit, matchPhase_phase, hshown.f (x := F.CNV_ROLE_PHASE n) (role_not_matchRes n)]
  · exact ((hshown.mono (List.cons_subset.2 ⟨List.mem_cons_self, List.nil_subset _⟩)).trans (hphase.mono (List.subset_cons_self ..))).setVisit _ _

end Match

/-! ### Work begins (R173, R174) -/

section Begin
variable {s : State} {t : Nat} {r : VisitReq}

theorem stokerUp_iff (s : State) : s.stokerUp = true ↔ 2 ≤ s.f F.STK_STAT_STATE := decide_eq_true_iff

theorem visitBegin_idle (h : s.f F.STK_STAT_STATE < 2 ∨ s.nextReq t = none) : s.visitBegin t = s := by
  unfold State.visitBegin
  split
  · rfl
  · next hup =>
    rw [Bool.not_eq_true', Bool.not_eq_false, stokerUp_iff] at hup
    rw [h.resolve_left (Nat.not_lt.2 hup)]

/-- The visit that request `r` opens: core `x` is freed, or the spare itself for a run in place. -/
def State.visitOf (s : State) (r : VisitReq) (x : Nat) : Visit :=
  { duty := r.duty, force := r.force, core := x, spare := s.spareOf r.cluster, ts := s.tick.num + 2, tm := none, verdict := none, forced := false,
    stopping := none, doubt := none, chans := [], pairs := [] }

/-- Request `r` has left the queue, and its visit, which shows VISIT, is in phase `ph`. -/
def State.visitOpened (s : State) (r : VisitReq) (x ph : Nat) : State :=
  (((s.unrequest r.cluster (· == r)).setVisit r.cluster (some (s.visitOf r x))).wf (F.CNV_ROLE_VISIT r.cluster) 1).wf (F.CNV_ROLE_PHASE r.cluster) ph

theorem visitBegin_duty {k : Nat} (hup : 2 ≤ s.f F.STK_STAT_STATE) (h : s.nextReq t = some r) (hk : r.duty = some k) :
    ∃ x, s.visitBegin t = (s.visitOpened r x 1).coreState r.cluster (s.spareOf r.cluster) 3 := by
  unfold State.visitBegin
  rw [(stokerUp_iff s).2 hup, h]
  dsimp only [Bool.not_true]
  rw [hk, unrequest_tick]
  unfold State.visitOpened State.visitOf
  rw [hk]
  exact ⟨_, rfl⟩

theorem visitBegin_run (hup : 2 ≤ s.f F.STK_STAT_STATE) (h : s.nextReq t = some r) (hd : r.duty = none) :
    ∃ x run,
    s.visitBegin t = ((s.visitOpened r x 4).setRun (tileOfCluster r.cluster) run).coreState r.cluster (s.spareOf r.cluster) 4 := by
  unfold State.visitBegin
  rw [(stokerUp_iff s).2 hup, h]
  dsimp only [Bool.not_true]
  rw [hd, unrequest_tick]
  unfold State.visitOpened State.visitOf
  rw [hd]
  exact ⟨_, _, rfl⟩

theorem cnvPpState_ne_role (n p : Nat) : Reg.CNV_Pp_STATE n p ≠ Reg.CNV_ROLE n := by
  unfold Reg.CNV_Pp_STATE Reg.CNV_ROLE
  omega

/-- What a begun visit shows, whichever run its core begins. -/
structure State.Begun (s t : State) (r : VisitReq) (ph st : Nat) : Prop where
  gone : r ∉ t.front.reqs
  visit : t.f (F.CNV_ROLE_VISIT r.cluster) = 1
  phase : t.f (F.CNV_ROLE_PHASE r.cluster) = ph
  state : t.f (F.CNV_Pp_STATE_STATE r.cluster (s.spareOf r.cluster)) = st
  opened : ∃ x, t.visit r.cluster = some (s.visitOf r x)

section Opened
variable (s r) (x ph : Nat)

theorem visitOpened_reqs : r ∉ (s.visitOpened r x ph).front.reqs := by
  unfold State.visitOpened
  rw [State.wf_front, State.wf_front, setVisit_reqs]
  intro hmem
  have hpicked : (r == r) = false := unrequest_mem (s := s) (n := r.cluster) (p := (· == r)) hmem rfl
  rw [beq_self_eq_true] at hpicked
  exact absurd hpicked nofun

theorem visitOpened_visit : (s.visitOpened r x ph).f (F.CNV_ROLE_VISIT r.cluster) = 1 := by
  unfold State.visitOpened
  rw [State.f_wf_ne _ (fieldOk_of rfl) (apart_above rfl), State.f_wf_same _ (fieldOk_of rfl)]
  rfl

theorem visitOpened_phase (hph : ph < 8) : (s.visitOpened r x ph).f (F.CNV_ROLE_PHASE r.cluster) = ph := by
  unfold State.visitOpened
  rw [State.f_wf_same _ (fieldOk_of rfl)]
  exact Nat.mod_eq_of_lt hph

theorem visitOpened_visits : (s.visitOpened r x ph).visit r.cluster = some (s.visitOf r x) := by
  unfold State.visitOpened
  rw [visit_wf, visit_wf, visit_setVisit]

end Opened

theorem coreState_role (u : State) (n p st : Nat) {y : RegField} (hy : y.addr = Reg.CNV_ROLE n) : (u.coreState n p st).f y = u.f y := by
  refine f_of_rd (State.rd_wf_ne u st ?_)
  rw [hy]
  exact (cnvPpState_ne_role n p).symm

theorem coreState_state (u : State) (n p : Nat) {st : Nat} (hst : st < 8) : (u.coreState n p st).f (F.CNV_Pp_STATE_STATE n p) = st := by
  unfold State.coreState
  rw [State.f_wf_same _ (fieldOk_of rfl)]
  exact Nat.mod_eq_of_lt hst

/-- An opened visit whose core, and at most whose tile's run, are set as well has begun. -/
theorem visitOpened_begun {u : State} {x ph st : Nat} (hph : ph < 8) (hst : st < 8) (hmem : u.mem = (s.visitOpened r x ph).mem)
    (hreqs : u.front.reqs = (s.visitOpened r x ph).front.reqs) (hvisit : u.visit r.cluster = (s.visitOpened r x ph).visit r.cluster) :
    s.Begun (u.coreState r.cluster (s.spareOf r.cluster) st) r ph st := by
  have hfield (y : RegField) : u.f y = (s.visitOpened r x ph).f y := by
    unfold State.f State.rd
    rw [hmem]
  constructor
  case gone =>
    unfold State.coreState
    rw [State.wf_front, hreqs]
    exact visitOpened_reqs s r x ph
  case visit => rw [coreState_role _ _ _ _ rfl, hfield, visitOpened_visit]
  case phase => rw [coreState_role _ _ _ _ rfl, hfield, visitOpened_phase _ _ _ _ hph]
  case state => exact coreState_state _ _ _ hst
  case opened => exact ⟨x, hvisit.trans (visitOpened_visits s r x ph)⟩

theorem visitBegin_begun (hup : 2 ≤ s.f F.STK_STAT_STATE) (h : s.nextReq t = some r) :
    s.Begun (s.visitBegin t) r (if r.duty = none then 4 else 1) (if r.duty = none then 4 else 3) := by
  by_cases hd : r.duty = none
  · obtain ⟨x, run, e⟩ := visitBegin_run hup h hd
    rw [e, if_pos hd, if_pos hd]
    exact visitOpened_begun (by decide) (by decide) (setRun_mem ..) (setRun_reqs ..) (visit_setRun ..)
  · obtain ⟨k, hk⟩ := Option.ne_none_iff_exists'.1 hd
    obtain ⟨x, e⟩ := visitBegin_duty hup h hk
    rw [e, if_neg hd, if_neg hd]
    exact visitOpened_begun (by decide) (by decide) rfl rfl rfl

end Begin

end Sys2Proof.Machine
end

section
/-!
PROOFS. The end of a core run (R184, R185, R192, R193): what it closes, what a run without a failed check takes over, and what a refusal shows.
-/
namespace Sys2Proof.Machine

open Sys2Proof

/-! ### What the registers of a run leave alone -/

/-- `t` comes from `s` by writes to the registers of `l` and by changes of the cores and of settings in force. -/
structure State.RunFrame (s t : State) (l : List Nat) : Prop where
  regs : s.SameBut t l
  hub : t.hub = s.hub
  runs : t.front.runs = s.front.runs
  visits : t.front.visits = s.front.visits

namespace State.RunFrame

variable {s t : State} {l : List Nat}

theorem refl (s : State) (l : List Nat) : s.RunFrame s l := ⟨.refl s l, rfl, rfl, rfl⟩

theorem wr (h : s.RunFrame t l) {a : Nat} (w : Word) (ha : a ∈ l) : s.RunFrame (t.wr a w) l := ⟨h.regs.wr w ha, h.hub, h.runs, h.visits⟩

theorem wf (h : s.RunFrame t l) {x : RegField} (v : Nat) (hx : x.addr ∈ l) : s.RunFrame (t.wf x v) l := h.wr _ hx

theorem wfs (h : s.RunFrame t l) {x : RegField} (v : Int) (hx : x.addr ∈ l) : s.RunFrame (t.wfs x v) l := h.wf _ hx

theorem wf64 (h : s.RunFrame t l) {lo hi : RegField} (v : Nat) (hlo : lo.addr ∈ l) (hhi : hi.addr ∈ l) : s.RunFrame (t.wf64 lo hi v) l :=
  (h.wf v hlo).wf _ hhi

theorem setNow (h : s.RunFrame t l) {a : Nat} (data mask : Word) (ha : a ∈ l) : s.RunFrame (t.setNow a data mask) l := by
  have hforce (f : Tab (Option Word)) : s.RunFrame { t with tick.force := f } l := ⟨h.regs, h.hub, h.runs, h.visits⟩
  unfold State.setNow
  dsimp only
  split
  · exact (hforce _).wr _ ha
  · exact h.wr _ ha

theorem setCore (h : s.RunFrame t l) (q : Nat) (x : CoreSt) : s.RunFrame (t.setCore q x) l := ⟨h.regs, h.hub, h.runs, h.visits⟩

theorem coreRun (h : s.RunFrame t l) (i : Nat) : t.coreRun i = s.coreRun i := by
  unfold State.coreRun
  rw [h.runs]

theorem visit (h : s.RunFrame t l) (n : Nat) : t.visit n = s.visit n := by
  unfold State.visit
  rw [h.visits]

end State.RunFrame

@[simp] theorem coreRun_wf (s : State) (x : RegField) (v i : Nat) : (s.wf x v).coreRun i = s.coreRun i := rfl

@[simp] theorem coreRun_setVisit (s : State) (n : Nat) (x : Option Visit) (i : Nat) : (s.setVisit n x).coreRun i = s.coreRun i := rfl

@[simp] theorem coreRun_setRun (s : State) (i : Nat) (x : Option CoreRun) : (s.setRun i x).coreRun i = x := tabGet_tabSet_same ..

/-! ### The parts of a run's end (R184, R192, R193) -/

section CoreRun
variable (s : State) (i : Nat) (r : CoreRun) (m0 m1 : SliceMeas) (ovl : Bool)

/-- The run ends an in-place run of the spare, not a visit. -/
def State.runInPlace : Bool := match s.visit (r.core / 3) with | some v => v.duty.isNone | none => true

/-- The run ends a visit whose handover was forced. -/
def State.runForced : Bool := match s.visit (r.core / 3) with | some v => v.forced | none => false

/-- The run and its visit are over, and the code and the linearity are shown. -/
def State.runShown (code lin : Nat) : State :=
  (((((s.setRun i none).setVisit (r.core / 3) none).wf (F.CAL_CORE_RES_CODE r.core) code).wf (F.CAL_CORE_RES_LIN r.core) lin).wf
    (F.CNV_ROLE_VISIT (r.core / 3)) 0).wf (F.CNV_ROLE_PHASE (r.core / 3)) 0

/-- A visit counts. -/
def State.runCounted (code lin : Nat) : State :=
  if s.runInPlace r then s.runShown i r code lin else (s.runShown i r code lin).bumpWrap (F.CNV_VISIT_STAT_COUNT (r.core / 3)) 1

end CoreRun

section Outcome
variable (u : State) (i q : Nat) (m0 m1 : SliceMeas) (r : CoreRun)

/-- The core's offset, gain and tag are shown, measured by its own run. -/
def State.runNoted : State :=
  let u := (u.wfs (F.CAL_CORE_OFS_OFS q) (rdiv (sumPN m0 * 16) 512)).wfs (F.CAL_CORE_GAIN_GAIN q)
    (rdivs ((difPN m0 * 2500000 - gainDen r) * 16777216) (gainDen r))
  (u.wr (Reg.CAL_CORE_TAG q) (u.rd (Reg.CAL_REF_TAG i))).wf (F.CAL_CORE_RES_SRC q) 1

/-- The core's mismatch and the moment and temperature of its run are taken, and its estimator begins anew. -/
def State.runTaken : State :=
  let n := q / 3
  let p := q % 3
  let u := (u.putMis (3 * n + p) (misOfs m0 m1) (misGain m0 m1) 0).wf (F.CNV_Pp_EST_FROZEN n p) 0
  let u := (u.wf64 (F.CNV_Pp_RUN_LO_TICK n p) (F.CNV_Pp_RUN_HI_TICK n p) u.tick.num).wf (F.CNV_Pp_RUN_TEMP_TEMP n p) (u.f (F.UMB_SENSs_VALUE i))
  u.setCore q { u.core q with ran := true, moved := none, run := some (misOfs m0 m1, misGain m0 m1), strayed := false, block := block0,
                              full := none }

/-- The core is STANDBY and valid with RESULT `res`. -/
def State.runValid (res : Nat) : State :=
  (((u.wf (F.CNV_Pp_STATE_REFUSALS (q / 3) (q % 3)) 0).coreState (q / 3) (q % 3) 2).wf (F.CNV_ROLE_S_VALID (q / 3)) 1).visitResult (q / 3) res

/-- The core has been refused once more, and is FAULTY at the third time. -/
def State.runInvalid : State :=
  (((u.bump (F.CNV_Pp_STATE_REFUSALS (q / 3) (q % 3)) 1).wf (F.CNV_ROLE_S_VALID (q / 3)) 0).visitResult (q / 3) 7).coreState (q / 3) (q % 3)
    (if 3 ≤ u.f (F.CNV_Pp_STATE_REFUSALS (q / 3) (q % 3)) + 1 then 5 else 4)

/-- And a core that is FAULTY is reported. -/
def State.runRefusal (code : Nat) (tag : Int) : State :=
  let t := (u.runInvalid q).emit .CORE_CAL_REFUSED (objUnit q) [(code : Int), tag]
  if 3 ≤ u.f (F.CNV_Pp_STATE_REFUSALS (q / 3) (q % 3)) + 1 then t.emit .CORE_FAULTY (objUnit q) [] else t

end Outcome

/-! ### The run and its visit are over -/

section Counted
variable (s : State) (i : Nat) (r : CoreRun) (code lin : Nat)

/-- The registers that the end of a run of core `q` writes before its outcome. -/
def countedRegs (q : Nat) : List Nat := [Reg.CAL_CORE_RES q, Reg.CNV_ROLE (q / 3), Reg.CNV_VISIT_STAT (q / 3)]

theorem State.SameBut.setRun {s t : State} {l : List Nat} (h : s.SameBut t l) (i : Nat) (x : Option CoreRun) : s.SameBut (t.setRun i x) l := h

theorem runShown_same : s.SameBut (s.runShown i r code lin) (countedRegs r.core) := by
  have hres : Reg.CAL_CORE_RES r.core ∈ countedRegs r.core := List.mem_cons_self
  have hrole : Reg.CNV_ROLE (r.core / 3) ∈ countedRegs r.core := List.mem_cons_of_mem _ List.mem_cons_self
  have hclosed := ((State.SameBut.refl s (countedRegs r.core)).setRun i none).setVisit (r.core / 3) none
  have hcode := (hclosed.wf (x := F.CAL_CORE_RES_CODE r.core) code hres).wf (x := F.CAL_CORE_RES_LIN r.core) lin hres
  exact (hcode.wf (x := F.CNV_ROLE_VISIT (r.core / 3)) 0 hrole).wf (x := F.CNV_ROLE_PHASE (r.core / 3)) 0 hrole

/-- A count of visits changes CNV_VISIT_STAT alone. -/
theorem runCounted_frame : (s.runShown i r code lin).RunFrame (s.runCounted i r code lin) [Reg.CNV_VISIT_STAT (r.core / 3)] := by
  unfold State.runCounted
  split
  · exact .refl _ _
  · exact (State.RunFrame.refl _ _).wf (x := F.CNV_VISIT_STAT_COUNT (r.core / 3)) _ (List.mem_singleton_self _)

theorem runCounted_same :
    s.SameBut (s.runCounted i r code lin) (countedRegs r.core) :=
  (runShown_same s i r code lin).trans ((runCounted_frame s i r code lin).regs.mono fun _ h =>
    List.mem_cons_of_mem _ (List.mem_cons_of_mem _ h))

theorem runCounted_hub : (s.runCounted i r code lin).hub = s.hub := by
  rw [(runCounted_frame s i r code lin).hub]
  unfold State.runShown
  rw [State.wf_hub, State.wf_hub, State.wf_hub, State.wf_hub]
  rfl

theorem runCounted_run : (s.runCounted i r code lin).coreRun i = none := by
  rw [(runCounted_frame s i r code lin).coreRun]
  unfold State.runShown
  rw [coreRun_wf, coreRun_wf, coreRun_wf, coreRun_wf, coreRun_setVisit, coreRun_setRun]

theorem runCounted_visit : (s.runCounted i r code lin).visit (r.core / 3) = none := by
  rw [(runCounted_frame s i r code lin).visit]
  unfold State.runShown
  rw [visit_wf, visit_wf, visit_wf, visit_wf, visit_setVisit]

theorem calCoreRes_ne_role (q n : Nat) : Reg.CAL_CORE_RES q ≠ Reg.CNV_ROLE n := by
  unfold Reg.CAL_CORE_RES Reg.CNV_ROLE
  omega

theorem calCoreRes_ne_visitStat (q n : Nat) : Reg.CAL_CORE_RES q ≠ Reg.CNV_VISIT_STAT n := by
  unfold Reg.CAL_CORE_RES Reg.CNV_VISIT_STAT
  omega

theorem runCounted_code (hcode : code < 256) : (s.runCounted i r code lin).f (F.CAL_CORE_RES_CODE r.core) = code := by
  have hcount : Reg.CAL_CORE_RES r.core ∉ [Reg.CNV_VISIT_STAT (r.core / 3)] := mt List.mem_singleton.1 (calCoreRes_ne_visitStat _ _)
  rw [(runCounted_frame s i r code lin).regs.f (x := F.CAL_CORE_RES_CODE r.core) hcount]
  unfold State.runShown
  rw [State.f_wf_ne _ (fieldOk_of rfl) (.inl (calCoreRes_ne_role _ _)), State.f_wf_ne _ (fieldOk_of rfl) (.inl (calCoreRes_ne_role _ _)),
    State.f_wf_ne _ (fieldOk_of rfl) (apart_above rfl), State.f_wf_same _ (fieldOk_of rfl)]
  exact Nat.mod_eq_of_lt hcode

theorem cnvPpState_not_counted (q : Nat) :
    Reg.CNV_Pp_STATE (q / 3) (q % 3) ∉ countedRegs q := by
  simp only [countedRegs, List.mem_cons, List.not_mem_nil, or_false]
  unfold Reg.CNV_Pp_STATE Reg.CAL_CORE_RES Reg.CNV_ROLE Reg.CNV_VISIT_STAT
  omega

theorem calRefTag_not_counted {q : Nat} (hi : i < 4) (hq : q < 36) :
    Reg.CAL_REF_TAG i ∉ countedRegs q := by
  simp only [countedRegs, List.mem_cons, List.not_mem_nil, or_false]
  unfold Reg.CAL_REF_TAG Reg.CAL_CORE_RES Reg.CNV_ROLE Reg.CNV_VISIT_STAT
  omega

end Counted

/-! ### What a run without a failed check takes over (R192) -/

section Taken
variable (u : State) (i q : Nat) (m0 m1 : SliceMeas) (r : CoreRun)

/-- The registers of what a run measured. -/
def notedRegs (q : Nat) : List Nat := [Reg.CAL_CORE_OFS q, Reg.CAL_CORE_GAIN q, Reg.CAL_CORE_TAG q, Reg.CAL_CORE_RES q]

theorem runNoted_frame : u.RunFrame (u.runNoted i q m0 r) (notedRegs q) := by
  have hofs : Reg.CAL_CORE_OFS q ∈ notedRegs q := List.mem_cons_self
  have hgain : Reg.CAL_CORE_GAIN q ∈ notedRegs q := List.mem_cons_of_mem _ List.mem_cons_self
  have htag : Reg.CAL_CORE_TAG q ∈ notedRegs q := List.mem_cons_of_mem _ (List.mem_cons_of_mem _ List.mem_cons_self)
  have hres : Reg.CAL_CORE_RES q ∈ notedRegs q := List.mem_cons_of_mem _ (List.mem_cons_of_mem _ (List.mem_cons_of_mem _ List.mem_cons_self))
  unfold State.runNoted
  exact ((((State.RunFrame.refl u _).wfs (x := F.CAL_CORE_OFS_OFS q) _ hofs).wfs (x := F.CAL_CORE_GAIN_GAIN q) _ hgain).wr _ htag).wf
    (x := F.CAL_CORE_RES_SRC q) _ hres

/-- Of CAL_CORE_RES a run notes SRC beside its code. -/
theorem runNoted_code : (u.runNoted i q m0 r).f (F.CAL_CORE_RES_CODE q) = u.f (F.CAL_CORE_RES_CODE q) := by
  have hofs : Reg.CAL_CORE_RES q ≠ Reg.CAL_CORE_OFS q := by unfold Reg.CAL_CORE_RES Reg.CAL_CORE_OFS; omega
  have hgain : Reg.CAL_CORE_RES q ≠ Reg.CAL_CORE_GAIN q := by unfold Reg.CAL_CORE_RES Reg.CAL_CORE_GAIN; omega
  have htag : Reg.CAL_CORE_RES q ≠ Reg.CAL_CORE_TAG q := by unfold Reg.CAL_CORE_RES Reg.CAL_CORE_TAG; omega
  unfold State.runNoted State.wfs
  dsimp only
  rw [State.f_wf_ne _ (fieldOk_of rfl) (apart_above rfl), State.f_wr_ne _ _ htag, State.f_wf_ne _ (fieldOk_of rfl) (.inl hgain),
    State.f_wf_ne _ (fieldOk_of rfl) (.inl hofs)]

/-- The registers of a core's mismatch, estimator and last run. -/
def takenRegs (n p : Nat) : List Nat :=
  [Reg.CNV_Pp_MIS_OFS n p, Reg.CNV_Pp_MIS_GAIN n p, Reg.CNV_Pp_MIS_SKEW n p, Reg.CNV_Pp_EST n p, Reg.CNV_Pp_RUN_LO n p, Reg.CNV_Pp_RUN_HI n p,
    Reg.CNV_Pp_RUN_TEMP n p]

theorem putMis_frame (ofs gain skew : Int) : u.RunFrame (u.putMis q ofs gain skew) (takenRegs (q / 3) (q % 3)) := by
  have hofs : Reg.CNV_Pp_MIS_OFS (q / 3) (q % 3) ∈ takenRegs (q / 3) (q % 3) := List.mem_cons_self
  have hgain : Reg.CNV_Pp_MIS_GAIN (q / 3) (q % 3) ∈ takenRegs (q / 3) (q % 3) := List.mem_cons_of_mem _ List.mem_cons_self
  have hskew : Reg.CNV_Pp_MIS_SKEW (q / 3) (q % 3) ∈ takenRegs (q / 3) (q % 3) :=
    List.mem_cons_of_mem _ (List.mem_cons_of_mem _ List.mem_cons_self)
  exact (((State.RunFrame.refl u _).setNow _ _ hofs).setNow _ _ hgain).setNow _ _ hskew

theorem runTaken_frame : u.RunFrame (u.runTaken i q m0 m1) (takenRegs (q / 3) (q % 3)) := by
  unfold State.runTaken
  dsimp only
  rw [Nat.div_add_mod]
  have hlast : ∀ a ∈ [Reg.CNV_Pp_EST (q / 3) (q % 3), Reg.CNV_Pp_RUN_LO (q / 3) (q % 3), Reg.CNV_Pp_RUN_HI (q / 3) (q % 3),
      Reg.CNV_Pp_RUN_TEMP (q / 3) (q % 3)], a ∈ takenRegs (q / 3) (q % 3) := fun _ h =>
    List.mem_cons_of_mem _ (List.mem_cons_of_mem _ (List.mem_cons_of_mem _ h))
  simp only [List.forall_mem_cons] at hlast
  obtain ⟨hest, hlo, hhi, htemp, -⟩ := hlast
  exact ((((putMis_frame u q _ _ 0).wf (x := F.CNV_Pp_EST_FROZEN (q / 3) (q % 3)) 0 hest).wf64 (lo := F.CNV_Pp_RUN_LO_TICK (q / 3) (q % 3))
    (hi := F.CNV_Pp_RUN_HI_TICK (q / 3) (q % 3)) _ hlo hhi).wf (x := F.CNV_Pp_RUN_TEMP_TEMP (q / 3) (q % 3)) _ htemp).setCore _ _

theorem calCoreRes_not_taken {q : Nat} (hq : q < 36) : Reg.CAL_CORE_RES q ∉ takenRegs (q / 3) (q % 3) := by
  simp only [takenRegs, List.mem_cons, List.not_mem_nil, or_false]
  unfold Reg.CAL_CORE_RES Reg.CNV_Pp_MIS_OFS Reg.CNV_Pp_MIS_GAIN Reg.CNV_Pp_MIS_SKEW Reg.CNV_Pp_EST Reg.CNV_Pp_RUN_LO Reg.CNV_Pp_RUN_HI
    Reg.CNV_Pp_RUN_TEMP
  omega

end Taken

/-! ### What the outcome shows (R185, R193) -/

section Shown
variable (u : State) (q : Nat)

/-- The registers that show what became of a run. -/
def outcomeRegs (q : Nat) : List Nat := [Reg.CNV_Pp_STATE (q / 3) (q % 3), Reg.CNV_ROLE (q / 3), Reg.CNV_VISIT_STAT (q / 3)]

theorem cnvPpState_ne_visitStat (n p : Nat) : Reg.CNV_Pp_STATE n p ≠ Reg.CNV_VISIT_STAT n := by
  unfold Reg.CNV_Pp_STATE Reg.CNV_VISIT_STAT
  omega

theorem role_ne_visitStat (n : Nat) : Reg.CNV_ROLE n ≠ Reg.CNV_VISIT_STAT n := by
  unfold Reg.CNV_ROLE Reg.CNV_VISIT_STAT
  omega

theorem calCoreRes_not_outcome (q : Nat) : Reg.CAL_CORE_RES q ∉ outcomeRegs q := by
  simp only [outcomeRegs, List.mem_cons, List.not_mem_nil, or_false]
  unfold Reg.CAL_CORE_RES Reg.CNV_Pp_STATE Reg.CNV_ROLE Reg.CNV_VISIT_STAT
  omega

theorem state_mem_outcome : Reg.CNV_Pp_STATE (q / 3) (q % 3) ∈ outcomeRegs q := List.mem_cons_self
theorem role_mem_outcome : Reg.CNV_ROLE (q / 3) ∈ outcomeRegs q := List.mem_cons_of_mem _ List.mem_cons_self
theorem visitStat_mem_outcome : Reg.CNV_VISIT_STAT (q / 3) ∈ outcomeRegs q := List.mem_cons_of_mem _ (List.mem_cons_of_mem _ List.mem_cons_self)

theorem runValid_frame (res : Nat) : u.RunFrame (u.runValid q res) (outcomeRegs q) :=
  ((((State.RunFrame.refl u _).wf (x := F.CNV_Pp_STATE_REFUSALS (q / 3) (q % 3)) _ (state_mem_outcome q)).wf
    (x := F.CNV_Pp_STATE_STATE (q / 3) (q % 3)) _ (state_mem_outcome q)).wf (x := F.CNV_ROLE_S_VALID (q / 3)) _ (role_mem_outcome q)).wf
    (x := F.CNV_VISIT_STAT_RESULT (q / 3)) _ (visitStat_mem_outcome q)

theorem runInvalid_frame : u.RunFrame (u.runInvalid q) (outcomeRegs q) :=
  ((((State.RunFrame.refl u _).wf (x := F.CNV_Pp_STATE_REFUSALS (q / 3) (q % 3)) _ (state_mem_outcome q)).wf
    (x := F.CNV_ROLE_S_VALID (q / 3)) _ (role_mem_outcome q)).wf (x := F.CNV_VISIT_STAT_RESULT (q / 3)) _ (visitStat_mem_outcome q)).wf
    (x := F.CNV_Pp_STATE_STATE (q / 3) (q % 3)) _ (state_mem_outcome q)

theorem runValid_shows {res : Nat} (hres : res < 256) :
    (u.runValid q res).f (F.CNV_Pp_STATE_STATE (q / 3) (q % 3)) = 2 ∧ (u.runValid q res).f (F.CNV_Pp_STATE_REFUSALS (q / 3) (q % 3)) = 0
      ∧ (u.runValid q res).f (F.CNV_ROLE_S_VALID (q / 3)) = 1 ∧ (u.runValid q res).f (F.CNV_VISIT_STAT_RESULT (q / 3)) = res := by
  unfold State.runValid State.visitResult State.coreState
  refine ⟨?_, ?_, ?_, ?_⟩
  · rw [State.f_wf_ne _ (fieldOk_of rfl) (.inl (cnvPpState_ne_visitStat _ _)), State.f_wf_ne _ (fieldOk_of rfl) (.inl (cnvPpState_ne_role _ _)),
      State.f_wf_same _ (fieldOk_of rfl)]
    rfl
  · rw [State.f_wf_ne _ (fieldOk_of rfl) (.inl (cnvPpState_ne_visitStat _ _)), State.f_wf_ne _ (fieldOk_of rfl) (.inl (cnvPpState_ne_role _ _)),
      State.f_wf_ne _ (fieldOk_of rfl) (apart_above rfl), State.f_wf_same _ (fieldOk_of rfl)]
    rfl
  · rw [State.f_wf_ne _ (fieldOk_of rfl) (.inl (role_ne_visitStat _)), State.f_wf_same _ (fieldOk_of rfl)]
    rfl
  · rw [State.f_wf_same _ (fieldOk_of rfl)]
    exact Nat.mod_eq_of_lt hres

theorem runInvalid_shows :
    (u.runInvalid q).f (F.CNV_VISIT_STAT_RESULT (q / 3)) = 7 ∧ (u.runInvalid q).f (F.CNV_ROLE_S_VALID (q / 3)) = 0
      ∧ (u.runInvalid q).f (F.CNV_Pp_STATE_STATE (q / 3) (q % 3)) = if 3 ≤ u.f (F.CNV_Pp_STATE_REFUSALS (q / 3) (q % 3)) + 1 then 5 else 4 := by
  unfold State.runInvalid
  refine ⟨?_, ?_, coreState_state _ _ _ (by split <;> decide)⟩
  · unfold State.visitResult State.coreState
    rw [State.f_wf_ne _ (fieldOk_of rfl) (.inl (cnvPpState_ne_visitStat _ _).symm), State.f_wf_same _ (fieldOk_of rfl)]
    rfl
  · rw [coreState_role _ _ _ _ rfl]
    unfold State.visitResult
    rw [State.f_wf_ne _ (fieldOk_of rfl) (.inl (role_ne_visitStat _)), State.f_wf_same _ (fieldOk_of rfl)]
    rfl

/-- The reports of a refused run leave every register but those of recording, and all blocks but the hub and Umber, as the refusal left them. -/
theorem runRefusal_records (code : Nat) (tag : Int) : Records (u.runInvalid q) (u.runRefusal q code tag) := by
  have hrefused := emit_records (u.runInvalid q) .CORE_CAL_REFUSED (objUnit q) [(code : Int), tag]
  unfold State.runRefusal
  dsimp only
  split
  · exact hrefused.trans (emit_records ..)
  · exact hrefused

theorem runRefusal_early {code : Nat} {tag : Int} (h : u.f (F.CNV_Pp_STATE_REFUSALS (q / 3) (q % 3)) + 1 < 3) :
    u.runRefusal q code tag = (u.runInvalid q).emit .CORE_CAL_REFUSED (objUnit q) [(code : Int), tag] := if_neg (Nat.not_le.2 h)

end Shown

/-! ### The two ends of a run -/

section Ends
variable {s : State} {i : Nat} {r : CoreRun} {m0 m1 : SliceMeas} {ovl : Bool}

theorem coreCalDone_none (h : s.coreRun i = none) : s.coreCalDone i m0 m1 ovl = s := by
  unfold State.coreCalDone
  rw [h]

/-- The end of a run, cut into its parts: what it closes, then what a code without a failed check takes over, or a refusal. -/
theorem coreCalDone_eq (h : s.coreRun i = some r) : ∃ lin,
    let u := s.runCounted i r (s.coreCode r m0 m1 ovl) lin
    s.coreCalDone i m0 m1 ovl =
      if s.coreCode r m0 m1 ovl = 32 then
        (((u.runNoted i r.core m0 r).runTaken i r.core m0 m1).runValid r.core (if s.runInPlace r then 9 else if s.runForced r then 6 else 1)).emit
          .CORE_CAL_DONE (objUnit r.core) [(s.coreCode r m0 m1 ovl : Int), ((u.rd (Reg.CAL_REF_TAG i)).toNat : Int)]
      else u.runRefusal r.core (s.coreCode r m0 m1 ovl) ((u.rd (Reg.CAL_REF_TAG i)).toNat : Int) := by
  unfold State.coreCalDone
  rw [h]
  exact ⟨_, rfl⟩

theorem ite_lt_of_lt {c : Prop} [Decidable c] {a b k : Nat} (ha : a < k) (hb : b < k) : (if c then a else b) < k := by
  split
  · exact ha
  · exact hb

/-- A code fits its field. -/
theorem coreCode_lt (s : State) (r : CoreRun) (m0 m1 : SliceMeas) (ovl : Bool) : s.coreCode r m0 m1 ovl < 256 := by
  unfold State.coreCode
  exact ite_lt_of_lt (by decide) <| ite_lt_of_lt (by decide) <| ite_lt_of_lt (by decide) <| ite_lt_of_lt (by decide) <|
    ite_lt_of_lt (by decide) <| ite_lt_of_lt (by decide) <| ite_lt_of_lt (by decide) <| ite_lt_of_lt (by decide) (by decide)

/-- The run of tile `i` and its visit are over in `t`, which shows the run's code. -/
structure State.RunOver (t : State) (i : Nat) (r : CoreRun) (code : Nat) : Prop where
  run : t.coreRun i = none
  visit : t.visit (r.core / 3) = none
  code : t.f (F.CAL_CORE_RES_CODE r.core) = code

theorem State.RunOver.frame {t u : State} {l : List Nat} {code : Nat} (h : t.RunOver i r code) (k : t.RunFrame u l)
    (hcode : u.f (F.CAL_CORE_RES_CODE r.core) = t.f (F.CAL_CORE_RES_CODE r.core)) : u.RunOver i r code :=
  ⟨(k.coreRun i).trans h.run, (k.visit _).trans h.visit, hcode.trans h.code⟩

/-- A record leaves a field outside the HUB and UMB blocks alone. -/
theorem Records.f {t u : State} (h : Records t u) {x : RegField} (hx : 0x20000 ≤ x.addr) : u.f x = t.f x := f_of_rd (h.rd _ (not_eventReg hx))

theorem State.RunOver.records {t u : State} {code : Nat} (h : t.RunOver i r code) (k : Records t u) : u.RunOver i r code := by
  have hlow : 0x20000 ≤ Reg.CAL_CORE_RES r.core := by unfold Reg.CAL_CORE_RES; omega
  refine ⟨?_, ?_, (k.f hlow).trans h.code⟩
  · unfold State.coreRun
    rw [k.front]
    exact h.run
  · unfold State.visit
    rw [k.front]
    exact h.visit

theorem runCounted_over (s : State) (i : Nat) (r : CoreRun) (lin : Nat) {code : Nat} (h : code < 256) :
    (s.runCounted i r code lin).RunOver i r code :=
  ⟨runCounted_run .., runCounted_visit .., runCounted_code s i r code lin h⟩

/-- What a run without a failed check leaves, with RESULT `res`. -/
structure State.RunPassed (s t : State) (i : Nat) (r : CoreRun) (res : Nat) (tag : Int) : Prop where
  ended : t.RunOver i r 32
  state : t.f (F.CNV_Pp_STATE_STATE (r.core / 3) (r.core % 3)) = 2
  refusals : t.f (F.CNV_Pp_STATE_REFUSALS (r.core / 3) (r.core % 3)) = 0
  valid : t.f (F.CNV_ROLE_S_VALID (r.core / 3)) = 1
  result : t.f (F.CNV_VISIT_STAT_RESULT (r.core / 3)) = res
  joins : s.Joins t .CORE_CAL_DONE (objUnit r.core) [32, tag]

/-- What a run with the failed check `code` leaves. -/
structure State.RunFailed (s t : State) (i : Nat) (r : CoreRun) (code : Nat) (tag : Int) : Prop where
  ended : t.RunOver i r code
  result : t.f (F.CNV_VISIT_STAT_RESULT (r.core / 3)) = 7
  valid : t.f (F.CNV_ROLE_S_VALID (r.core / 3)) = 0
  state : t.f (F.CNV_Pp_STATE_STATE (r.core / 3) (r.core % 3))
    = if 3 ≤ s.f (F.CNV_Pp_STATE_REFUSALS (r.core / 3) (r.core % 3)) + 1 then 5 else 4
  joins : s.f (F.CNV_Pp_STATE_REFUSALS (r.core / 3) (r.core % 3)) + 1 < 3 → s.Joins t .CORE_CAL_REFUSED (objUnit r.core) [(code : Int), tag]

theorem cnvPpState_ge (n p : Nat) : 0x20000 ≤ Reg.CNV_Pp_STATE n p := by unfold Reg.CNV_Pp_STATE; omega
theorem cnvRole_ge (n : Nat) : 0x20000 ≤ Reg.CNV_ROLE n := by unfold Reg.CNV_ROLE; omega
theorem cnvVisitStat_ge (n : Nat) : 0x20000 ≤ Reg.CNV_VISIT_STAT n := by unfold Reg.CNV_VISIT_STAT; omega

theorem runValid_passed {u : State} (hover : u.RunOver i r 32) (hhub : u.hub = s.hub) {res : Nat} (hres : res < 256) (tag : Int) :
    s.RunPassed ((u.runValid r.core res).emit .CORE_CAL_DONE (objUnit r.core) [32, tag]) i r res tag := by
  have hrec := emit_records (u.runValid r.core res) .CORE_CAL_DONE (objUnit r.core) [32, tag]
  have hvalid := runValid_frame u r.core res
  obtain ⟨hstate, hrefusals, hs, hresult⟩ := runValid_shows u r.core hres
  exact ⟨(hover.frame hvalid (hvalid.regs.f (calCoreRes_not_outcome _))).records hrec, (hrec.f (cnvPpState_ge _ _)).trans hstate,
    (hrec.f (cnvPpState_ge _ _)).trans hrefusals, (hrec.f (cnvRole_ge _)).trans hs, (hrec.f (cnvVisitStat_ge _)).trans hresult,
    emit_joins (congrArg HubSt.evq (hvalid.hub.trans hhub)) _ _ _⟩

theorem runRefusal_failed {u : State} {code : Nat} (hover : u.RunOver i r code) (hhub : u.hub = s.hub)
    (hk : u.f (F.CNV_Pp_STATE_REFUSALS (r.core / 3) (r.core % 3)) = s.f (F.CNV_Pp_STATE_REFUSALS (r.core / 3) (r.core % 3))) (tag : Int) :
    s.RunFailed (u.runRefusal r.core code tag) i r code tag := by
  have hrec := runRefusal_records u r.core code tag
  have hinvalid := runInvalid_frame u r.core
  obtain ⟨hresult, hs, hstate⟩ := runInvalid_shows u r.core
  rw [hk] at hstate
  refine ⟨(hover.frame hinvalid (hinvalid.regs.f (calCoreRes_not_outcome _))).records hrec, (hrec.f (cnvVisitStat_ge _)).trans hresult,
    (hrec.f (cnvRole_ge _)).trans hs, (hrec.f (cnvPpState_ge _ _)).trans hstate, fun hearly => ?_⟩
  rw [runRefusal_early u r.core (hk.symm ▸ hearly)]
  exact emit_joins (congrArg HubSt.evq (hinvalid.hub.trans hhub)) _ _ _

theorem runCounted_tag (s : State) (hi : i < 4) (hq : r.core < 36) (code lin : Nat) :
    (s.runCounted i r code lin).rd (Reg.CAL_REF_TAG i) = s.rd (Reg.CAL_REF_TAG i) := runCounted_same s i r code lin _ (calRefTag_not_counted i hi hq)

theorem runCounted_refusals (s : State) (i : Nat) (r : CoreRun) (code lin : Nat) : (s.runCounted i r code lin).f
    (F.CNV_Pp_STATE_REFUSALS (r.core / 3) (r.core % 3)) = s.f (F.CNV_Pp_STATE_REFUSALS (r.core / 3) (r.core % 3)) :=
  (runCounted_same s i r code lin).f (cnvPpState_not_counted r.core)

theorem coreCalDone_passed (h : s.coreRun i = some r) (hi : i < 4) (hq : r.core < 36) (hcode : s.coreCode r m0 m1 ovl = 32) :
    s.RunPassed (s.coreCalDone i m0 m1 ovl) i r (if s.runInPlace r then 9 else if s.runForced r then 6 else 1)
      ((s.rd (Reg.CAL_REF_TAG i)).toNat : Int) := by
  obtain ⟨lin, e⟩ := coreCalDone_eq (m0 := m0) (m1 := m1) (ovl := ovl) h
  rw [hcode] at e
  dsimp only at e
  rw [if_pos rfl, runCounted_tag s hi hq] at e
  have hnoted := runNoted_frame (s.runCounted i r 32 lin) i r.core m0 r
  have htaken := runTaken_frame ((s.runCounted i r 32 lin).runNoted i r.core m0 r) i r.core m0 m1
  have hover := ((runCounted_over s i r lin (code := 32) (by decide)).frame hnoted (runNoted_code ..)).frame htaken
    (htaken.regs.f (calCoreRes_not_taken hq))
  rw [e]
  exact runValid_passed hover (htaken.hub.trans (hnoted.hub.trans (runCounted_hub ..)))
    (ite_lt_of_lt (by decide) (ite_lt_of_lt (by decide) (by decide))) _

theorem coreCalDone_failed (h : s.coreRun i = some r) (hi : i < 4) (hq : r.core < 36) (hcode : s.coreCode r m0 m1 ovl ≠ 32) :
    s.RunFailed (s.coreCalDone i m0 m1 ovl) i r (s.coreCode r m0 m1 ovl) ((s.rd (Reg.CAL_REF_TAG i)).toNat : Int) := by
  obtain ⟨lin, e⟩ := coreCalDone_eq (m0 := m0) (m1 := m1) (ovl := ovl) h
  dsimp only at e
  rw [if_neg hcode, runCounted_tag s hi hq] at e
  rw [e]
  exact runRefusal_failed (runCounted_over s i r lin (coreCode_lt ..)) (runCounted_hub ..) (runCounted_refusals ..) _

end Ends

end Sys2Proof.Machine
end

section
open Sys2Proof Sys2Proof.Machine

/-- Settles O40: a request is an equation for the queue, a visit's command one for its visit, and the end of a core run its registers' frame
with the two outcomes. -/
theorem visitsTakeTheirCourse : Obligations.VisitsTakeTheirCourse := by
  unfold Obligations.VisitsTakeTheirCourse
  intro s m n
  refine ⟨?visit, ?run, ?runAgain, ?rotationOff, ?rotation, ?temperature, ?visitRetry, ?runRetry, ?cancel, ?cancelIdle, ?inProgress, ?tile⟩
  case visit =>
    intro k force
    exact ⟨fun hnew => (request_asked (r := ⟨3, n, some k, force⟩) (reqBarred_free rfl (.inl rfl)) hnew).completes rfl,
      fun hold => ⟨_, rfl, request_keys hold⟩⟩
  case run => exact fun hnew => (request_asked (r := ⟨1, n, none, false⟩) (reqBarred_run rfl) hnew).completes rfl
  case runAgain => exact fun hold => congrArg Host.Outcome.next (request_run_again rfl rfl hold)
  case rotationOff => exact fun h => execRotationRequest_off h
  case rotation =>
    intro hon
    refine ⟨fun t ht => ?turns, fun hnew hfails => ?asks, fun hwaits => ?waits⟩
    case turns =>
      by_cases hq : ∃ d, s.Queued n (some d)
      · obtain rfl : s.rotated n = t := Host.Outcome.next.inj ((execRotationRequest_waits hon hq).symm.trans ht)
        exact rotated_rot s n
      · obtain rfl : (s.rotated n).request (s.rotReq n) = t := Host.Outcome.next.inj ((execRotationRequest_asks hon hq).symm.trans ht)
        rw [request_rot]
        exact rotated_rot s n
    case asks =>
      have hasked : s.Asked ((s.rotated n).request (s.rotReq n)) (s.rotReq n) :=
        rotated_asked (request_asked (r := s.rotReq n) (reqBarred_free rfl (.inr hfails)) (hnew _))
      exact hasked.completes (execRotationRequest_asks hon fun ⟨d, hd⟩ => hnew d hd)
    case waits =>
      by_cases hq : ∃ d, s.Queued n (some d)
      · exact ⟨_, execRotationRequest_waits hon hq, rfl⟩
      · have hbarred : (s.rotated n).reqBarred (s.rotReq n) = true := rotReq_barred (hwaits.resolve_left hq)
        exact ⟨_, execRotationRequest_asks hon hq, by rw [request_barred hbarred]; rfl⟩
  case temperature =>
    exact ⟨_, rfl, fun a ha _ => (tempTrigger_asking s).regs a ha, fun i hp hsound hran hdt hfar =>
      tempTrigger_spare i.isLt hp ⟨hsound, hran, hdt, hfar⟩⟩
  case visitRetry =>
    intro k
    refine ⟨fun h => execVisitRetry_waits (by omega), fun h1 h3 hnew => ?_⟩
    exact (request_asked (r := ⟨4, n, some k, false⟩) (reqBarred_free rfl (.inr h3)) hnew).completes (execVisitRetry_asks ⟨h1, h3⟩)
  case runRetry =>
    refine ⟨fun h => execCoreRunRetry_waits fun ⟨hrefusals, hstate, hvisit⟩ => ?_, fun hrefusals hstate hvisit hnew => ?_⟩
    · rcases h with h | h | h
      · exact hrefusals h
      · exact hstate h
      · exact h (Option.isNone_iff_eq_none.1 hvisit)
    · exact (request_asked (r := ⟨1, n, none, false⟩) (reqBarred_run rfl) hnew).completes
        (execCoreRunRetry_asks ⟨hrefusals, hstate, Option.isNone_iff_eq_none.2 hvisit⟩)
  case cancel =>
    intro hv hq
    obtain ⟨hresult, hqueued⟩ := cancelled_shows (s := s) (n := n)
    refine ⟨_, congrArg Host.Outcome.next (visitCancel_queued hv hq), hresult, hqueued, fun r => cancelled_mem⟩
  case cancelIdle => exact fun hv hq => congrArg Host.Outcome.next (visitCancel_idle hv fun ⟨d, hd⟩ => hq d hd)
  case inProgress =>
    intro v hv
    refine ⟨fun hd hverdict => ⟨_, congrArg Host.Outcome.next (visitCancel_open hv hd hverdict), visit_setVisit .., setVisit_mem ..⟩,
      fun h => congrArg Host.Outcome.next (visitCancel_late hv h),
      ⟨fun hd htm hpast => ⟨_, execShadowShort_cuts hv hd htm hpast, visit_setVisit .., setVisit_mem ..⟩, fun h => execShadowShort_waits hv h⟩,
      fun k tm hk htm hverdict => ?check⟩
    obtain ⟨hvisit, hphase, hregs⟩ := matchCheck_shows hv htm hverdict
    exact ⟨_, rfl, hvisit, hphase, fun a ha _ => hregs a ha⟩
  case tile =>
    intro i
    refine ⟨fun h => congrArg Host.Outcome.next (visitBegin_idle h), fun r hup hr _ => ?begins, fun m0 m1 ovl =>
      ⟨fun h => congrArg Host.Outcome.next (coreCalDone_none h), fun r hr hq => ?ends⟩⟩
    case begins =>
      obtain ⟨hgone, hvisit, hphase, hstate, x, hopened⟩ := visitBegin_begun hup hr
      exact ⟨_, rfl, hgone, hvisit, hphase, hstate, _, hopened, rfl, rfl, rfl⟩
    case ends =>
      by_cases hcode : s.coreCode r m0 m1 ovl = 32
      · obtain ⟨⟨hrun, hvisit, hshown⟩, hstate, hrefusals, hvalid, hresult, hjoins⟩ := coreCalDone_passed hr i.isLt hq hcode
        exact ⟨_, rfl, hrun, hvisit, hshown.trans hcode.symm, fun _ => ⟨hstate, hrefusals, hvalid, hresult, hjoins⟩, fun h => absurd hcode h⟩
      · obtain ⟨⟨hrun, hvisit, hshown⟩, hresult, hvalid, hstate, hjoins⟩ := coreCalDone_failed hr i.isLt hq hcode
        exact ⟨_, rfl, hrun, hvisit, hshown, fun h => absurd h hcode, fun _ => ⟨hresult, hvalid, hstate, hjoins⟩⟩

end

section
/-!
PROOFS. What a frame that leaves or is held (R302, R511) leaves alone: every block beside the hub and Umber, the event queue, and the mirror
records that wait for their acknowledgement. The registers are those of `Spares`.
-/
namespace Sys2Proof.Machine

open Sys2Proof

/-- Beside registers, Umber's log and the hub's output queues, `t` is `s`. -/
structure State.Outs (s t : State) : Prop where
  rest : s.RestSame t
  evq : t.hub.evq = s.hub.evq
  mirrorOut : t.hub.mirrorOut = s.hub.mirrorOut

namespace State.Outs

variable {s t u : State}

theorem refl (s : State) : s.Outs s := ⟨rfl, rfl, rfl⟩

theorem trans (h : s.Outs t) (k : t.Outs u) : s.Outs u := by
  refine ⟨?_, k.evq.trans h.evq, k.mirrorOut.trans h.mirrorOut⟩
  have hrest : { t with mem := s.mem, hub := s.hub, umb := s.umb } = s := h.rest
  rw [← (k.rest : { u with mem := t.mem, hub := t.hub, umb := t.umb } = t)] at hrest
  exact hrest

theorem wf (h : s.Outs t) (x : RegField) (v : Nat) : s.Outs (t.wf x v) := h.trans ⟨rfl, rfl, rfl⟩

theorem hub (h : s.Outs t) {x : HubSt} (he : x.evq = t.hub.evq := by rfl) (hm : x.mirrorOut = t.hub.mirrorOut := by rfl) :
    s.Outs (State.mk t.mem t.tick t.kiln x t.front t.flk t.ptn t.ptp t.edg t.knd t.qmg t.prs t.crd t.upl t.spi t.umb t.pending) :=
  h.trans ⟨rfl, he, hm⟩

theorem umberEvent (h : s.Outs t) (n : EvName) (o : Nat) (d : List Int) : s.Outs (t.umberEvent n o d) := by
  have hhub : (t.umberEvent n o d).hub = t.hub := (logRecord_hub ..).trans (latchFor_hub ..)
  refine h.trans ⟨(umberEvent_records t n o d).rest, congrArg HubSt.evq hhub, congrArg HubSt.mirrorOut hhub⟩

theorem ite {c : Prop} [Decidable c] (ht : s.Outs t) (hu : s.Outs u) : s.Outs (if c then t else u) := by
  split <;> assumption

theorem foldl {α : Type} {f : State → α → State} (hf : ∀ x a, s.Outs x → s.Outs (f x a)) (l : List α) (h : s.Outs t) : s.Outs (l.foldl f t) := by
  induction l generalizing t with
  | nil => exact h
  | cons a l ih => exact ih (hf _ a h)

theorem txLeave (h : s.Outs t) (i : TxItem) : s.Outs (t.txLeave i) := by
  unfold State.txLeave
  exact .foldl (fun _ _ hx => .ite hx (hx.hub)) _ (.foldl (fun _ _ hx => hx.hub) _ h)

theorem txHold (h : s.Outs t) (l : Nat) : s.Outs (t.txHold l) := by
  have hmark {x : State} (hx : s.Outs x) : s.Outs (if l = 16 ∨ l = 17 then x.wf (F.UPL_Un_STAT_CAPPED (l - 16)) 1 else x) := .ite (hx.wf ..) hx
  have hheld := hmark (x := { t with hub.heldAt := tabSet (fun _ => none) t.hub.heldAt l (some t.tick.clock) }) (h.hub)
  unfold State.txHold State.fenceHit
  exact .ite ((hheld.wf ..).umberEvent ..) hheld

theorem txDrain (h : s.Outs t) (q : List TxItem) : s.Outs (t.txDrain q).1 := by
  induction q generalizing t with
  | nil => exact h
  | cons i r ih =>
    unfold State.txDrain
    split
    · exact ih (h.txLeave i)
    · exact .foldl (fun _ l hx => hx.txHold l) _ h

theorem txPump (h : s.Outs t) (l : Nat) : s.Outs (t.txPump l) := by
  have hdrain := h.txDrain (tabGet (fun _ => []) t.hub.txq l)
  unfold State.txPump
  dsimp only
  split
  · exact ((hdrain.hub).wf ..).wf ..
  · exact hdrain.hub

theorem txSend (h : s.Outs t) (l : Nat) (front : Bool) (q : List TxItem) : s.Outs (t.txSend l front q) := by
  unfold State.txSend
  exact txPump (h.hub) l

theorem slateSend (h : s.Outs t) (data : List Int) (payload : List Nat) : s.Outs (t.slateSend data payload) := h.txSend ..

theorem frameSend (h : s.Outs t) (l : Nat) (data : List Int) (head payload : List Nat) : s.Outs (t.frameSend l data head payload) := by
  unfold State.frameSend State.laneOut State.free
  exact (h.hub).txSend ..

theorem front (h : s.Outs t) : t.front = s.front := by
  obtain ⟨-, -, hfront, -⟩ := h.rest.blocks
  exact hfront

theorem ptn (h : s.Outs t) : t.ptn = s.ptn := by
  obtain ⟨-, -, -, -, hptn, -⟩ := h.rest.blocks
  exact hptn

end State.Outs

/-! ### A mirror record (R302) -/

/-- The mirror record that a steward of a pair makes next waits for its acknowledgement. -/
def State.mirrorNext (s : State) (rtype : Nat) (data : List Int) : State :=
  let m := (s.hub.mseq + 1) % 2 ^ 32
  { s with hub.mseq := m, hub.mirrorOut := s.hub.mirrorOut ++ [MirrorRec.mk m rtype data] }

theorem mirror_cases (s : State) (rtype : Nat) (data : List Int) :
    s.mirror rtype data = s ∨ (s.mirrorNext rtype data).Outs (s.mirror rtype data) := by
  unfold State.mirror
  split
  · exact .inr ((State.Outs.refl (s.mirrorNext rtype data)).slateSend ..)
  · exact .inl rfl

theorem mirror_front (s : State) (rtype : Nat) (data : List Int) : (s.mirror rtype data).front = s.front := by
  rcases mirror_cases s rtype data with h | h
  · rw [h]
  · exact h.front

theorem mirror_rd (s : State) (rtype : Nat) (data : List Int) {a : Nat} (ha : midReg a) : (s.mirror rtype data).rd a = s.rd a :=
  (mirror_spares (b := true) .refl rtype data).rd rfl a ha

end Sys2Proof.Machine
end

section
/-!
PROOFS. The session of a system calibration (R197, R198, R202, R203, R205): how it begins, ends, and closes its phases.
-/
namespace Sys2Proof.Machine

open Sys2Proof

/-- A fold brings about at each of its elements what that element's own step brings about and the others keep. -/
theorem foldl_mem_establishes {α β : Type} {f : α → β → α} {P : β → α → Prop} (hset : ∀ a b, P b (f a b)) (hkeep : ∀ a b c, P b a → P b (f a c))
    {l : List β} (a : α) {b : β} (hb : b ∈ l) : P b (l.foldl f a) := by
  have hrest (r : List β) {x : α} (hx : P b x) : P b (r.foldl f x) := by
    induction r generalizing x with
    | nil => exact hx
    | cons c r ih => exact ih (hkeep x b c hx)
  induction l generalizing a with
  | nil => exact absurd hb List.not_mem_nil
  | cons c r ih =>
    rcases List.mem_cons.1 hb with rfl | hmem
    · exact hrest r (hset a b)
    · exact ih _ hmem

/-! ### The status of the session -/

theorem calChCtrl_ge (c : Nat) : 0x20000 ≤ Reg.CAL_CH_CTRL c := by unfold Reg.CAL_CH_CTRL; omega

theorem calChCtrl_ne_stat (c : Nat) : Reg.CAL_CH_CTRL c ≠ Reg.CAL_SYS_STAT := by unfold Reg.CAL_CH_CTRL Reg.CAL_SYS_STAT; omega

theorem calChCtrl_injective : Function.Injective Reg.CAL_CH_CTRL := fun a b h => by unfold Reg.CAL_CH_CTRL at h; omega

section Session
variable {s : State} {first : Nat} {x : Session}

/-- A command that comes in another phase is CAL_BUSY, with its number. -/
def State.CalBusy (s t : State) (d : Int) : Prop := t = s.emit .CAL_BUSY 0 [d]

theorem State.CalBusy.shows {t : State} {d : Int} (h : s.CalBusy t d) : s.RegsBut t [] ∧ t.front = s.front ∧ s.Joins t .CAL_BUSY 0 [d] := by
  subst h
  exact ⟨(State.RegsBut.refl s []).emit _ _ _, emit_front .., emit_joins rfl _ _ _⟩

/-! ### START_ZERO (R197, R205) -/

/-- The armed channels that a hub does not calibrate: remote ones while it is not steward. -/
def State.armedOut (s : State) : List Nat := s.armedList.filter fun c => decide (96 ≤ c) && !s.steward

/-- The armed channels that a session takes. -/
def State.armedIn (s : State) : List Nat := s.armedList.filter fun c => decide (c < 96) || s.steward

/-- An armed channel is left out, with REASON 3. -/
def State.leftOut (s : State) (c : Nat) : State := (s.wf (F.CAL_CH_CTRL_REASON c) 0x03).emit .CAL_NOT_STEWARD (objChannel c) []

/-- The session that START_ZERO opens for the channels `l`. -/
def State.sessionOf (s : State) (first : Nat) (l : List Nat) : Session :=
  { span := s.flag F.CAL_SYS_CFG_SPAN, settle := s.f F.CAL_SYS_CFG_SETTLE, avg := max 1 (s.f F.CAL_SYS_CFG_AVG),
    cert := (List.range 4).map fun i => s.rd (Reg.CAL_SYS_CERT i), chans := l.map (s.latchCh ·), start := first,
    begun := false, sysOn := false, zeroFrom := none, fullFrom := none, delayed := false, ending := none }

/-- A session opens, in phase ZERO. -/
def State.sessionOpen (s : State) (x : Session) (n : Nat) : State :=
  (({ s with front.session := some x }.wf F.CAL_SYS_STAT_PHASE 1).wf F.CAL_SYS_STAT_ARMED n).wf F.CAL_SYS_STAT_PASSED 0

theorem startZero_busy (h : s.f F.CAL_SYS_STAT_PHASE ≠ 0) : s.CalBusy (s.startZero first) 0 := if_pos h

theorem startZero_opens (h : s.f F.CAL_SYS_STAT_PHASE = 0) : s.startZero first = (s.armedOut.foldl State.leftOut s).sessionOpen
    ((s.armedOut.foldl State.leftOut s).sessionOf first s.armedIn) s.armedIn.length := if_neg (not_not.2 h)

theorem sessionOf_chans (l : List Nat) : (s.sessionOf first l).chans.map (·.ch) = l := by
  unfold State.sessionOf
  rw [List.map_map]
  exact List.map_id l

theorem sessionOpen_phase (n : Nat) : (s.sessionOpen x n).f F.CAL_SYS_STAT_PHASE = 1 := by
  unfold State.sessionOpen
  rw [State.f_wf_ne _ (fieldOk_of rfl) (apart_above rfl), State.f_wf_ne _ (fieldOk_of rfl) (apart_above rfl), State.f_wf_same _ (fieldOk_of rfl)]
  rfl

theorem sessionOpen_passed (n : Nat) : (s.sessionOpen x n).f F.CAL_SYS_STAT_PASSED = 0 := State.f_wf_same _ (fieldOk_of rfl) 0

theorem sessionOpen_rd (n : Nat) {a : Nat} (ha : a ≠ Reg.CAL_SYS_STAT) : (s.sessionOpen x n).rd a = s.rd a := by
  unfold State.sessionOpen
  rw [State.rd_wf_ne _ _ ha, State.rd_wf_ne _ _ ha, State.rd_wf_ne _ _ ha]
  rfl

theorem leftOut_reason (c : Nat) : (s.leftOut c).f (F.CAL_CH_CTRL_REASON c) = 3 :=
  (f_emit _ _ _ _ (not_eventReg (calChCtrl_ge c))).trans (State.f_wf_same s (fieldOk_of rfl) 3)

theorem leftOut_keeps_reason (b c : Nat) (h : s.f (F.CAL_CH_CTRL_REASON b) = 3) : (s.leftOut c).f (F.CAL_CH_CTRL_REASON b) = 3 := by
  by_cases hbc : b = c
  · rw [hbc]
    exact leftOut_reason c
  · refine (f_emit _ _ _ _ (not_eventReg (calChCtrl_ge b))).trans (Eq.trans ?_ h)
    exact State.f_wf_ne s (fieldOk_of rfl) (.inl fun e => hbc (calChCtrl_injective e)) 3

theorem armedOut_reason {c : Nat} (hc : c ∈ s.armedList) (hremote : 96 ≤ c) (hno : s.steward = false) :
    (s.armedOut.foldl State.leftOut s).f (F.CAL_CH_CTRL_REASON c) = 3 := by
  have hout : c ∈ s.armedOut := List.mem_filter.2 ⟨hc, by rw [hno, decide_eq_true hremote]; rfl⟩
  exact foldl_mem_establishes (P := fun b (t : State) => t.f (F.CAL_CH_CTRL_REASON b) = 3) (fun _ b => leftOut_reason b)
    (fun _ b c h => leftOut_keeps_reason b c h) s hout

/-! ### START_FULL, FINISH, ABORT and the timeout (R197, R198) -/

theorem startFull_busy (h : s.f F.CAL_SYS_STAT_PHASE ≠ 2) : s.CalBusy (s.startFull first) 1 := by
  unfold State.startFull
  split
  · exact if_neg h
  · rfl

theorem startFull_begins (hx : s.front.session = some x) (h : s.f F.CAL_SYS_STAT_PHASE = 2) :
    s.startFull first = { s with front.session := some { x with start := first, begun := false } }.wf F.CAL_SYS_STAT_PHASE 3 := by
  unfold State.startFull
  rw [hx]
  exact if_pos h

/-- A phase other than the last is shown. -/
theorem phase_shows (t : State) {v : Nat} (hv : v < 8) : (t.wf F.CAL_SYS_STAT_PHASE v).f F.CAL_SYS_STAT_PHASE = v :=
  (State.f_wf_same t (fieldOk_of rfl) v).trans (Nat.mod_eq_of_lt hv)

theorem calEnding_regs (r : Option Nat) : s.RegsBut (s.calEnding r) [Reg.CAL_SYS_STAT] := by
  unfold State.calEnding
  exact State.RegsBut.wf (fun _ _ _ => rfl) _ (List.mem_singleton.2 rfl)

theorem calAbort_idle (h : s.f F.CAL_SYS_STAT_PHASE = 0) : s.calAbort = s := if_pos h

theorem calAbort_busy (h : s.f F.CAL_SYS_STAT_PHASE = 5) : s.CalBusy s.calAbort 3 := by
  have h0 : s.calPhase ≠ 0 := by unfold State.calPhase; omega
  exact (if_neg h0).trans (if_pos h)

theorem calAbort_ends (h0 : s.f F.CAL_SYS_STAT_PHASE ≠ 0) (h5 : s.f F.CAL_SYS_STAT_PHASE ≠ 5) : s.calAbort = s.calEnding (some 1) :=
  (if_neg h0).trans (if_neg h5)

theorem calFinish_ends (h : s.f F.CAL_SYS_STAT_PHASE = 4) : s.calFinish = s.calEnding none := if_pos h

theorem calFinish_busy (h : s.f F.CAL_SYS_STAT_PHASE = 5) : s.CalBusy s.calFinish 2 := by
  have h4 : s.calPhase ≠ 4 := by unfold State.calPhase; omega
  exact (if_neg h4).trans (if_pos h)

theorem calFinish_early (h : s.f F.CAL_SYS_STAT_PHASE < 4) : s.calFinish = s.calAbort := by
  have h4 : s.calPhase ≠ 4 := Nat.ne_of_lt h
  have h5 : s.calPhase ≠ 5 := Nat.ne_of_lt (Nat.lt_succ_of_lt h)
  exact (if_neg h4).trans (if_neg h5)

/-! ### A phase closes (R197, R202, R203) -/

/-- The tick with whose staging the words of the phase are complete: two ticks on when a channel is remote. -/
def Session.closing (x : Session) : Nat := x.start + x.settle + x.avg + (if x.chans.any fun y => decide (96 ≤ y.ch) then 2 else 0)

theorem phaseOver_iff (s : State) (x : Session) :
    s.phaseOver x = true ↔ x.closing < s.tick.num ∨ (x.closing = s.tick.num ∧ s.tick.stagingClosed = true) := by
  unfold State.phaseOver Session.closing
  simp only [Bool.or_eq_true, Bool.and_eq_true, decide_eq_true_eq, beq_iff_eq]

theorem closing_eq [Decidable (∃ y ∈ x.chans, 96 ≤ y.ch)] :
    x.closing = x.start + x.settle + x.avg + (if ∃ y ∈ x.chans, 96 ≤ y.ch then 2 else 0) := by
  unfold Session.closing
  simp only [List.any_eq_true, decide_eq_true_eq]

theorem calPhaseEnd_none (h : s.front.session = none) : s.calPhaseEnd = s := by
  unfold State.calPhaseEnd
  rw [h]

theorem calPhaseEnd_waits (hx : s.front.session = some x) (h : x.begun = false ∨ ¬s.phaseOver x = true) : s.calPhaseEnd = s := by
  unfold State.calPhaseEnd
  rw [hx]
  refine if_pos ?_
  rw [Bool.or_eq_true, Bool.not_eq_true', Bool.not_eq_true']
  exact h.imp_right Bool.eq_false_of_not_eq_true

/-- The first two guards of the end of a phase are passed. -/
theorem phaseEnd_guard (hb : x.begun = true) (ho : s.phaseOver x = true) : ¬(!x.begun || !s.phaseOver x) = true := by
  rw [hb, ho]
  decide

theorem calPhaseEnd_zero (hx : s.front.session = some x) (hb : x.begun = true) (ho : s.phaseOver x = true) (h : s.f F.CAL_SYS_STAT_PHASE = 1) :
    s.calPhaseEnd = ({ s with front.session := some { x with begun := false } }.wf F.CAL_SYS_STAT_PHASE 2).wf F.CAL_SYS_STAT_PASSED
      (x.chans.filter fun y => reasonZero x.span false y == 0).length := by
  unfold State.calPhaseEnd
  rw [hx]
  exact (if_neg (phaseEnd_guard hb ho)).trans (if_pos h)

/-- The results of the channels of a session are shown, in phase FULL_WAIT. -/
def State.fullShown (s : State) (x : Session) (l : List SessCh) : State :=
  ({ s with front.session := some { x with begun := false, chans := l } }.wf F.CAL_SYS_STAT_PHASE 4).wf F.CAL_SYS_STAT_PASSED
    (l.filter fun (y : SessCh) => y.reason == some 0).length

theorem calPhaseEnd_full (hx : s.front.session = some x) (hb : x.begun = true) (ho : s.phaseOver x = true) (h : s.f F.CAL_SYS_STAT_PHASE = 3) :
    s.calPhaseEnd = (s.calComputeAll x.span x.chans).2.fullShown x (s.calComputeAll x.span x.chans).1 := by
  have h1 : s.calPhase ≠ 1 := by unfold State.calPhase; omega
  unfold State.calPhaseEnd
  rw [hx]
  exact (if_neg (phaseEnd_guard hb ho)).trans ((if_neg h1).trans (if_pos h))

/-- The phase stands beside PASSED. -/
theorem phase_passed_shows (t : State) {v : Nat} (hv : v < 8) (n : Nat) :
    ((t.wf F.CAL_SYS_STAT_PHASE v).wf F.CAL_SYS_STAT_PASSED n).f F.CAL_SYS_STAT_PHASE = v :=
  (State.f_wf_ne _ (fieldOk_of rfl) (apart_above rfl) n).trans (phase_shows t hv)

theorem phase_passed_regs {t : State} (h : t.mem = s.mem) (v n : Nat) :
    s.RegsBut ((t.wf F.CAL_SYS_STAT_PHASE v).wf F.CAL_SYS_STAT_PASSED n) [Reg.CAL_SYS_STAT] := by
  have ht : s.RegsBut t [Reg.CAL_SYS_STAT] := fun a _ _ => congrArg (tabGet resetWord · a) h
  exact State.RegsBut.wf (State.RegsBut.wf ht _ (List.mem_singleton.2 rfl)) _ (List.mem_singleton.2 rfl)

/-- What a session holds of a channel's result: its new pair and its reason. -/
def SessCh.result (y : SessCh) : Nat × Int × Int × Option Nat := (y.ch, y.g1, y.b1, y.reason)

/-- The result of a channel whose two means differ (R202, R203). -/
def SessCh.judged (span : Bool) (y : SessCh) : Nat × Int × Int × Option Nat :=
  (y.ch, (newPair span y 0).1, (newPair span y 0).2, some (reasonOf span y (newPair span y 0).1 (newPair span y 0).2))

theorem calCompute_result {span : Bool} {y : SessCh} (h : y.full.mean ≠ y.zero.mean) : (s.calCompute span y).1.result = y.judged span := by
  unfold State.calCompute
  simp only [if_neg h]
  rfl

theorem calComputeAll_results {span : Bool} {l : List SessCh} (h : ∀ y ∈ l, y.full.mean ≠ y.zero.mean) :
    (s.calComputeAll span l).1.map SessCh.result = l.map (SessCh.judged span) := by
  induction l generalizing s with
  | nil => rfl
  | cons y r ih =>
    rw [List.forall_mem_cons] at h
    exact congrArg₂ List.cons (calCompute_result h.1) (ih h.2)

end Session

end Sys2Proof.Machine
end

section
/-!
PROOFS. LOAD of a pair (R206, R207, R209, R210), and the end of a sense-reference cycle (R190, R196).
-/
namespace Sys2Proof.Machine

open Sys2Proof

/-! ### The record of a channel (R209) -/

section Record
variable (s : State) (c t : Nat) (cert : List Word) (temp trace : Nat)

theorem calRecord_front : (s.calRecord c t cert temp trace).front = s.front :=
  foldl_keeps State.front (fun u i => State.wr_front u (Reg.CAL_CH_CERT c i) (cert.getD i 0#32)) _ s

/-- The record lies in the registers of the channels. -/
theorem calRecord_rd {a : Nat} (ha : a < 0x610000) : (s.calRecord c t cert temp trace).rd a = s.rd a := by
  have hwf (u : State) (x : RegField) (v : Nat) (hx : 0x610000 ≤ x.addr) : (u.wf x v).rd a = u.rd a :=
    State.rd_wf_ne u v fun e => Nat.not_lt.2 hx (e ▸ ha)
  have hcert (i : Nat) : a ≠ Reg.CAL_CH_CERT c i := by unfold Reg.CAL_CH_CERT; omega
  unfold State.calRecord State.wf64
  dsimp only
  rw [hwf _ _ _ (Nat.le_add_right_of_le (by decide)), hwf _ _ _ (Nat.le_add_right_of_le (by decide)),
    hwf _ _ _ (Nat.le_add_right_of_le (by decide)), hwf _ _ _ (Nat.le_add_right_of_le (by decide)), hwf _ _ _ (Nat.le_add_right_of_le (by decide))]
  exact foldl_keeps (fun u : State => u.rd a) (fun u i => State.rd_wr_ne u _ (hcert i)) _ s

theorem calRecord_trace (h : trace < 4) : (s.calRecord c t cert temp trace).f (F.CAL_CH_CTRL_TRACE c) = trace :=
  (State.f_wf_same _ (fieldOk_of rfl) trace).trans (Nat.mod_eq_of_lt h)

theorem calRecord_f {x : RegField} (hx : x.addr < 0x610000) : (s.calRecord c t cert temp trace).f x = s.f x := f_of_rd (calRecord_rd s c t cert temp trace hx)

theorem calRecord_ticking : (s.calRecord c t cert temp trace).ticking = s.ticking := by
  unfold State.ticking State.genState
  rw [calRecord_f s c t cert temp trace (by decide)]

end Record

/-! ### A new pair (R206, R207) -/

section Pair
variable {s : State} {c t : Nat} {g b : Int}

theorem pairAt_of_front {u : State} (h : u.front = s.front) (c k : Nat) : u.pairAt c k = s.pairAt c k := by
  unfold State.pairAt State.slewOf
  rw [h]

/-- The slew to a new pair from the one in force. -/
def State.slewTo (s : State) (c t : Nat) (g b : Int) : Slew :=
  { g0 := (s.pairAt c (t - 1)).1, b0 := (s.pairAt c (t - 1)).2, g1 := g, b1 := b, start := t, len := s.slewLen, cut := none }

/-- A pair stands at once, and no slew is left. -/
def State.pairStands (s : State) (c : Nat) (g b : Int) : State :=
  { s with front.slews := tabSet (fun _ => none) s.front.slews c none, front.slewOld := tabSet (fun _ => none) s.front.slewOld c none,
           front.pairs := tabSet (fun _ => none) s.front.pairs c (some (g, b)) }

theorem applyPair_slews (h : s.ticking = true) : tabGet (fun _ => none) (s.applyPair c t g b).front.slews c = some (s.slewTo c t g b) := by
  unfold State.applyPair
  rw [if_pos h]
  exact tabGet_tabSet_same _ c (some (s.slewTo c t g b))

theorem calRefresh_trace (s : State) (c t : Nat) : (s.calRefresh c t).f (F.CAL_CH_CTRL_TRACE c) = s.f (F.CAL_CH_CTRL_TRACE c) := by
  have hgain : (F.CAL_CH_CTRL_TRACE c).addr ≠ (F.CAL_CH_GAIN_G c).addr := by
    change Reg.CAL_CH_CTRL c ≠ Reg.CAL_CH_GAIN c
    unfold Reg.CAL_CH_CTRL Reg.CAL_CH_GAIN
    omega
  have hofs : (F.CAL_CH_CTRL_TRACE c).addr ≠ (F.CAL_CH_OFS_B c).addr := by
    change Reg.CAL_CH_CTRL c ≠ Reg.CAL_CH_OFS c
    unfold Reg.CAL_CH_CTRL Reg.CAL_CH_OFS
    omega
  unfold State.calRefresh State.wb State.wfs
  dsimp only
  rw [State.f_wf_ne _ (fieldOk_of rfl) (apart_below rfl), State.f_wf_ne _ (fieldOk_of rfl) (.inl hofs),
    State.f_wf_ne _ (fieldOk_of rfl) (.inl hgain)]
  split
  · rfl
  · split <;> rfl

theorem calRefresh_front (h : tabGet (fun _ => none) s.front.slews c = none) (t : Nat) : (s.calRefresh c t).front = s.front := by
  unfold State.calRefresh State.wb State.wfs
  dsimp only
  rw [h, State.wf_front, State.wf_front, State.wf_front]

theorem applyPair_stands (h : s.ticking = false) : tabGet (fun _ => none) (s.applyPair c t g b).front.pairs c = some (g, b)
    ∧ tabGet (fun _ => none) (s.applyPair c t g b).front.slews c = none := by
  have hset : tabGet (fun _ => none) (s.pairStands c g b).front.slews c = none := tabGet_tabSet_same _ c none
  have happly : s.applyPair c t g b = (s.pairStands c g b).calRefresh c t := if_neg (Bool.eq_false_iff.1 h)
  rw [happly, calRefresh_front hset]
  exact ⟨tabGet_tabSet_same _ c (some (g, b)), hset⟩

theorem applyPair_trace (s : State) (c t : Nat) (g b : Int) :
    (s.applyPair c t g b).f (F.CAL_CH_CTRL_TRACE c) = s.f (F.CAL_CH_CTRL_TRACE c) := by
  unfold State.applyPair
  dsimp only
  split
  · rfl
  · exact calRefresh_trace ..

theorem keepRemote_coefficients (s : State) (c t : Nat) (g b : Int) :
    (s.keepRemote c t g b).front.pairs = s.front.pairs ∧ (s.keepRemote c t g b).front.slews = s.front.slews := by
  unfold State.keepRemote
  split
  · exact ⟨rfl, rfl⟩
  · rw [mirror_front]
    exact ⟨rfl, rfl⟩

theorem keepRemote_trace (s : State) {c : Nat} (hc : c < 4192) (t : Nat) (g b : Int) :
    (s.keepRemote c t g b).f (F.CAL_CH_CTRL_TRACE c) = s.f (F.CAL_CH_CTRL_TRACE c) := by
  have hmid : midReg (Reg.CAL_CH_CTRL c) := by unfold midReg Reg.CAL_CH_CTRL; omega
  unfold State.keepRemote
  split
  · rfl
  · exact f_of_rd (mirror_rd _ _ _ hmid)

end Pair

/-! ### LOAD (R210) -/

section Load
variable {s : State} {c t : Nat}

/-- The pair that LOAD takes. -/
def State.loadG (s : State) (c : Nat) : Int := (s.f (F.CAL_CH_LGAIN_G c) : Nat)
def State.loadB (s : State) (c : Nat) : Int := s.fs (F.CAL_CH_LOFS_B c)

/-- The pair is in range. -/
def State.loadOk (s : State) (c : Nat) : Prop := 134217728 ≤ s.loadG c ∧ s.loadG c ≤ 536870912 ∧ (s.loadB c).natAbs < 2147483648

/-- The session that is open takes channel `c`. -/
def State.inSession (s : State) (c : Nat) : Prop := ∃ x, s.front.session = some x ∧ ∃ y ∈ x.chans, y.ch = c

/-- There is a channel `c`: a local one, or one that is attached. -/
def State.isChannel (s : State) (c : Nat) : Prop := c < 96 ∨ s.remoteCh c ≠ none

/-- The record of a pair that is loaded, with TRACE 2. -/
def State.loadNoted (s : State) (c t : Nat) : State := s.calRecord c t ((List.range 4).map fun i => s.rd (Reg.CAL_SYS_CERT i)) 0x8000 2

/-- The pair is loaded. -/
def State.loaded (s : State) (c t : Nat) : State :=
  ((s.loadNoted c t).applyPair c t (s.loadG c) (s.loadB c)).keepRemote c t (s.loadG c) (s.loadB c)

theorem inSession_iff : (match s.front.session with | some x => x.chans.any (·.ch == c) | none => false) = true ↔ s.inSession c := by
  unfold State.inSession
  cases s.front.session with
  | none => simp
  | some x => simp

theorem isChannel_guard (h : s.isChannel c) : ¬(96 ≤ c ∧ (s.remoteCh c).isNone = true) := fun ⟨hc, hnone⟩ =>
  h.elim (fun hlt => absurd hlt (Nat.not_lt.2 hc)) fun hsome => hsome (Option.isNone_iff_eq_none.1 hnone)

theorem calLoad_absent (h : ¬s.isChannel c) : s.calLoad c t = s := by
  refine if_pos ?_
  unfold State.isChannel at h
  rw [not_or, Nat.not_lt, not_not] at h
  exact ⟨h.1, Option.isNone_iff_eq_none.2 h.2⟩

theorem calLoad_busy (h : s.isChannel c) (ha : s.inSession c) : s.calLoad c t = s.emit .CAL_BUSY (objChannel c) [] :=
  (if_neg (isChannel_guard h)).trans (if_pos (inSession_iff.2 ha))

theorem calLoad_bad (h : s.isChannel c) (ha : ¬s.inSession c) (hb : ¬s.loadOk c) : s.calLoad c t = s.emit .CAL_CFG_BAD (objChannel c) [] := by
  refine (if_neg (isChannel_guard h)).trans ((if_neg (mt inSession_iff.1 ha)).trans (if_pos ?_))
  unfold State.loadOk State.loadG State.loadB at hb
  omega

theorem calLoad_good (h : s.isChannel c) (ha : ¬s.inSession c) (hb : s.loadOk c) : s.calLoad c t = s.loaded c t := by
  refine (if_neg (isChannel_guard h)).trans ((if_neg (mt inSession_iff.1 ha)).trans (if_neg ?_))
  unfold State.loadOk State.loadG State.loadB at hb
  omega

theorem loaded_trace (hc : c < 4192) : (s.loaded c t).f (F.CAL_CH_CTRL_TRACE c) = 2 := by
  unfold State.loaded
  rw [keepRemote_trace _ hc, applyPair_trace]
  exact calRecord_trace _ _ _ _ _ _ (by decide)

theorem loadNoted_ticking : (s.loadNoted c t).ticking = s.ticking := calRecord_ticking ..

theorem loaded_stands (h : s.ticking = false) : tabGet (fun _ => none) (s.loaded c t).front.pairs c = some (s.loadG c, s.loadB c)
    ∧ tabGet (fun _ => none) (s.loaded c t).front.slews c = none := by
  unfold State.loaded
  obtain ⟨hpairs, hslews⟩ := keepRemote_coefficients ((s.loadNoted c t).applyPair c t (s.loadG c) (s.loadB c)) c t (s.loadG c) (s.loadB c)
  rw [hpairs, hslews]
  exact applyPair_stands (loadNoted_ticking.trans h)

theorem loaded_slews (h : s.ticking = true) :
    tabGet (fun _ => none) (s.loaded c t).front.slews c = some ((s.loadNoted c t).slewTo c t (s.loadG c) (s.loadB c)) := by
  unfold State.loaded
  obtain ⟨-, hslews⟩ := keepRemote_coefficients ((s.loadNoted c t).applyPair c t (s.loadG c) (s.loadB c)) c t (s.loadG c) (s.loadB c)
  rw [hslews]
  exact applyPair_slews (loadNoted_ticking.trans h)

theorem loadNoted_slewTo (g b : Int) : (s.loadNoted c t).slewTo c t g b = s.slewTo c t g b := by
  unfold State.slewTo State.slewLen State.loadNoted
  rw [pairAt_of_front (calRecord_front ..), calRecord_f _ _ _ _ _ _ (by decide)]

theorem loadTick_running (h : s.ticking = true) : s.loadTick = s.nextDue := if_pos h

end Load

/-! ### The end of a sense-reference cycle (R190, R196) -/

section Sense
variable {s : State} {t : Nat} {l : List SenseMeas}

/-- The declared voltages of a tile's reference, in nV. -/
def State.refVfs (s : State) (t : Nat) : Int := (s.f (F.CAL_REF_VFS_VFS t) * 1000 : Nat)
def State.refVmid (s : State) (t : Nat) : Int := (s.f (F.CAL_REF_VMID_VMID t) * 1000 : Nat)

/-- The means are those of a present reference. -/
def State.refFits (s : State) (t : Nat) (l : List SenseMeas) : Bool := l.length == 24 && refAgrees (s.refVfs t) (s.refVmid t) l

/-- REF_OK and the measured voltage are shown. -/
def State.refShown (s : State) (t : Nat) (l : List SenseMeas) : State :=
  (s.wb (F.CAL_REF_STAT_REF_OK t) (s.refFits t l)).wf (F.CAL_REF_STAT_MEAS_VFS t) (min 4194303 (medianDiv (l.map (·.plus)) 1000).toNat)

/-- The reference is lost, for the core run that is in progress too. -/
def State.refLost (s : State) (t : Nat) : State :=
  (s.setRun t ((s.coreRun t).map fun r => { r with refFell := true })).emit .REFCAL_LOST (objUnit t) []

/-- A change of REF_OK is recorded. -/
def State.refNoted (s : State) (t : Nat) (l : List SenseMeas) : State :=
  if s.flag (F.CAL_REF_STAT_REF_OK t) && !s.refFits t l then (s.refShown t l).refLost t
  else if !s.flag (F.CAL_REF_STAT_REF_OK t) && s.refFits t l then (s.refShown t l).emit .REFCAL_OK (objUnit t) [] else s.refShown t l

/-- The coefficients of converter `c` after a cycle that measured `fit`: of a first cycle as measured, later a sixteenth of the way. -/
def State.senseMoved (s : State) (c : Nat) (fit : Int × Int) : Int × Int :=
  match tabGet (fun _ => none) s.front.senseCal c with
  | none => fit
  | some o => (o.1 + rdiv (fit.1 - o.1) 16, o.2 + rdiv (fit.2 - o.2) 16)

/-- The next coefficients of converter `c` are `v`. -/
def State.senseAwaits (s : State) (c : Nat) (v : Int × Int) : State :=
  { s with front.senseNext := tabSet (fun _ => none) s.front.senseNext c (some v) }

/-- One converter of tile `t` takes what the cycle measured, or is out of range. -/
def senseTaken (t : Nat) (vfs : Int) (s : State) (x : Nat × SenseMeas) : State :=
  if decide (20000000 < (senseFit vfs x.2).1.natAbs) || decide (167772 < (senseFit vfs x.2).2.natAbs) then
    s.emit .SENSE_CAL_RANGE (objChannel (24 * t + x.1)) []
  else s.senseAwaits (24 * t + x.1) (s.senseMoved (24 * t + x.1) (senseFit vfs x.2))

/-- What a converter measured is in range. -/
def SenseInRange (vfs : Int) (x : SenseMeas) : Prop := (senseFit vfs x).1.natAbs ≤ 20000000 ∧ (senseFit vfs x).2.natAbs ≤ 167772

theorem senseCycle_eq : s.senseCycle t l = if !s.refFits t (l.take 24) then s.refNoted t (l.take 24)
    else ((List.range 24).zip (l.take 24)).foldl (senseTaken t (s.refVfs t)) (s.refNoted t (l.take 24)) := rfl

theorem refFits_iff : s.refFits t (l.take 24) = true ↔ 24 ≤ l.length ∧ refAgrees (s.refVfs t) (s.refVmid t) (l.take 24) = true := by
  unfold State.refFits
  rw [Bool.and_eq_true, beq_iff_eq, List.length_take, min_eq_left_iff]

theorem calRefStat_ge (t : Nat) : 0x20000 ≤ Reg.CAL_REF_STAT t := by unfold Reg.CAL_REF_STAT; omega

theorem refShown_ok : (s.refShown t l).f (F.CAL_REF_STAT_REF_OK t) = if s.refFits t l then 1 else 0 :=
  (State.f_wf_ne _ (fieldOk_of rfl) (apart_above rfl) _).trans (State.f_wb_same s (fieldOk_of rfl) _)

theorem refShown_evq : (s.refShown t l).hub.evq = s.hub.evq := by
  unfold State.refShown State.wb
  rw [State.wf_hub, State.wf_hub]

theorem refShown_front : (s.refShown t l).front = s.front := by
  unfold State.refShown State.wb
  rw [State.wf_front, State.wf_front]

theorem refLost_ok (u : State) : (u.refLost t).f (F.CAL_REF_STAT_REF_OK t) = u.f (F.CAL_REF_STAT_REF_OK t) :=
  f_emit _ _ _ _ (not_eventReg (calRefStat_ge t))

theorem refLost_sense (u : State) : (u.refLost t).front.senseNext = u.front.senseNext ∧ (u.refLost t).front.senseCal = u.front.senseCal := by
  unfold State.refLost
  rw [emit_front]
  exact ⟨rfl, rfl⟩

/-- What recording a change of REF_OK is: the loss, the return, or nothing. -/
theorem refNoted_cases : s.refNoted t l = (s.refShown t l).refLost t
    ∨ s.refNoted t l = (s.refShown t l).emit .REFCAL_OK (objUnit t) [] ∨ s.refNoted t l = s.refShown t l := by
  unfold State.refNoted
  split
  · exact .inl rfl
  · split
    · exact .inr (.inl rfl)
    · exact .inr (.inr rfl)

theorem refNoted_ok : (s.refNoted t l).f (F.CAL_REF_STAT_REF_OK t) = if s.refFits t l then 1 else 0 := by
  rw [← refShown_ok]
  rcases refNoted_cases (s := s) (t := t) (l := l) with h | h | h <;> rw [h]
  · exact refLost_ok _
  · exact f_emit _ _ _ _ (not_eventReg (calRefStat_ge t))

theorem refNoted_sense : (s.refNoted t l).front.senseNext = s.front.senseNext ∧ (s.refNoted t l).front.senseCal = s.front.senseCal := by
  have hshown : (s.refShown t l).front.senseNext = s.front.senseNext ∧ (s.refShown t l).front.senseCal = s.front.senseCal := by
    rw [refShown_front]
    exact ⟨rfl, rfl⟩
  rcases refNoted_cases (s := s) (t := t) (l := l) with h | h | h <;> rw [h]
  · obtain ⟨hnext, hcal⟩ := refLost_sense (t := t) (s.refShown t l)
    exact ⟨hnext.trans hshown.1, hcal.trans hshown.2⟩
  · rw [emit_front]
    exact hshown
  · exact hshown

theorem refLost_joins {u : State} (hq : u.hub.evq = s.hub.evq) : s.Joins (u.refLost t) .REFCAL_LOST (objUnit t) [] :=
  emit_joins (t := u.setRun t _) hq _ _ _

theorem refNoted_lost (h : s.f (F.CAL_REF_STAT_REF_OK t) = 1) (hno : ¬s.refFits t l = true) :
    s.Joins (s.refNoted t l) .REFCAL_LOST (objUnit t) [] := by
  have hlost : s.refNoted t l = (s.refShown t l).refLost t :=
    if_pos (by rw [(flag_eq_true ..).2 h, Bool.eq_false_of_not_eq_true hno]; rfl)
  rw [hlost]
  exact refLost_joins refShown_evq

theorem refNoted_back (h : s.f (F.CAL_REF_STAT_REF_OK t) = 0) (hok : s.refFits t l = true) :
    s.Joins (s.refNoted t l) .REFCAL_OK (objUnit t) [] := by
  have hwas : s.flag (F.CAL_REF_STAT_REF_OK t) = false := by
    unfold State.flag
    rw [h]
    rfl
  have hback : s.refNoted t l = (s.refShown t l).emit .REFCAL_OK (objUnit t) [] := by
    unfold State.refNoted
    rw [hwas, hok, if_neg (by decide), if_pos (by decide)]
  rw [hback]
  exact emit_joins refShown_evq _ _ _

theorem senseTaken_ok (vfs : Int) (u : State) (x : Nat × SenseMeas) :
    (senseTaken t vfs u x).f (F.CAL_REF_STAT_REF_OK t) = u.f (F.CAL_REF_STAT_REF_OK t) := by
  unfold senseTaken
  split
  · exact f_emit _ _ _ _ (not_eventReg (calRefStat_ge t))
  · rfl

theorem senseTaken_inRange {vfs : Int} {x : Nat × SenseMeas} (h : SenseInRange vfs x.2) (u : State) :
    senseTaken t vfs u x = u.senseAwaits (24 * t + x.1) (u.senseMoved (24 * t + x.1) (senseFit vfs x.2)) := by
  obtain ⟨hofs, hgain⟩ := h
  refine if_neg ?_
  rw [Bool.or_eq_true, decide_eq_true_eq, decide_eq_true_eq]
  omega

theorem senseAwaits_next (u : State) (c d : Nat) (v : Int × Int) : tabGet (fun _ => none) (u.senseAwaits c v).front.senseNext d
    = if d = c then some v else tabGet (fun _ => none) u.front.senseNext d := tabGet_tabSet u.front.senseNext c d (some v)

/-- Cycles in range leave the hub and the coefficients in force alone, and the next ones of converters they do not name. -/
theorem senseTaken_fold {vfs : Int} {L : List (Nat × SenseMeas)} (h : ∀ p ∈ L, SenseInRange vfs p.2) (u : State) :
    (L.foldl (senseTaken t vfs) u).hub = u.hub ∧ ∀ k, k ∉ L.map Prod.fst →
      tabGet (fun _ => none) (L.foldl (senseTaken t vfs) u).front.senseNext (24 * t + k) = tabGet (fun _ => none) u.front.senseNext (24 * t + k) := by
  induction L generalizing u with
  | nil => exact ⟨rfl, fun _ _ => rfl⟩
  | cons p r ih =>
    rw [List.forall_mem_cons] at h
    obtain ⟨hhub, hnext⟩ := ih h.2 (senseTaken t vfs u p)
    rw [senseTaken_inRange h.1 u] at hhub hnext
    rw [List.foldl_cons, senseTaken_inRange h.1 u]
    refine ⟨hhub, fun k hk => ?_⟩
    rw [List.map_cons, List.mem_cons, not_or] at hk
    rw [hnext k hk.2, senseAwaits_next, if_neg fun e => hk.1 (Nat.add_left_cancel e)]

/-- A converter's first cycle, in range, gives its next coefficients. -/
theorem senseTaken_first {vfs : Int} {L : List (Nat × SenseMeas)} (h : ∀ p ∈ L, SenseInRange vfs p.2) (hkeys : (L.map Prod.fst).Nodup) (u : State)
    {k : Nat} {x : SenseMeas} (hx : (k, x) ∈ L) (hnew : tabGet (fun _ => none) u.front.senseCal (24 * t + k) = none) :
    tabGet (fun _ => none) (L.foldl (senseTaken t vfs) u).front.senseNext (24 * t + k) = some (senseFit vfs x) := by
  induction L generalizing u with
  | nil => exact absurd hx List.not_mem_nil
  | cons p r ih =>
    rw [List.forall_mem_cons] at h
    rw [List.map_cons, List.nodup_cons] at hkeys
    rw [List.foldl_cons, senseTaken_inRange h.1 u]
    rcases List.mem_cons.1 hx with rfl | hmem
    · rw [(senseTaken_fold h.2 _).2 k hkeys.1, senseAwaits_next, if_pos rfl]
      unfold State.senseMoved
      rw [hnew]
    · exact ih h.2 hkeys.2 _ hmem hnew

theorem cycle_keys (h : 24 ≤ l.length) : ((List.range 24).zip (l.take 24)).map Prod.fst = List.range 24 :=
  List.map_fst_zip (by rw [List.length_range, List.length_take, Nat.min_eq_left h])

theorem mem_cycle {k : Nat} {x : SenseMeas} (hx : l[k]? = some x) (hk : k < 24) : (k, x) ∈ (List.range 24).zip (l.take 24) := by
  refine List.mem_of_getElem? (i := k) (List.getElem?_zip_eq_some.2 ⟨?_, ?_⟩)
  · exact List.getElem?_range hk
  · rw [List.getElem?_take_of_lt hk]
    exact hx

theorem cycle_inRange {vfs : Int} (h : ∀ x ∈ l.take 24, SenseInRange vfs x) : ∀ p ∈ (List.range 24).zip (l.take 24), SenseInRange vfs p.2 :=
  fun p hp => h p.2 (List.of_mem_zip hp).2

end Sense

end Sys2Proof.Machine
end

section
open Sys2Proof Sys2Proof.Machine

/-- Settles O41: the session by the phase it is in, LOAD by what refuses it, and a reference cycle by the fold over its converters. -/
theorem calibrationCommandsAct : Obligations.CalibrationCommandsAct := by
  unfold Obligations.CalibrationCommandsAct
  intro s m
  dsimp only
  have hends (c : Instr) (r : Option Nat) (hc : exec c s = .next (s.calEnding r)) : ∃ t, exec c s = .next t ∧ t.f F.CAL_SYS_STAT_PHASE = 5
      ∧ s.RegsBut t [Reg.CAL_SYS_STAT]
      ∧ t.front.session = s.front.session.map fun (x : Session) => { x with ending := some (s.tick.num + 3, r) } :=
    ⟨_, hc, phase_shows _ (by decide), calEnding_regs r, rfl⟩
  refine ⟨fun h => ⟨_, rfl, (startZero_busy h).shows⟩, fun h => ?startZero, fun x h hx => ?startFull, fun h => ⟨_, rfl, (startFull_busy h).shows⟩,
    fun h => hends _ _ (congrArg Host.Outcome.next (calFinish_ends h)),
    fun h => ⟨⟨_, rfl, (calFinish_busy h).shows⟩, ⟨_, rfl, (calAbort_busy h).shows⟩⟩,
    fun h0 h4 => hends _ _ (congrArg Host.Outcome.next ((calFinish_early h4).trans (calAbort_ends h0 (by omega)))),
    fun h0 h5 => hends _ _ (congrArg Host.Outcome.next (calAbort_ends h0 h5)),
    fun h => ⟨congrArg Host.Outcome.next ((calFinish_early (by omega)).trans (calAbort_idle h)), congrArg Host.Outcome.next (calAbort_idle h)⟩,
    fun h => hends _ _ (congrArg Host.Outcome.next (if_pos h)),
    fun h2 h4 => congrArg Host.Outcome.next (if_neg (not_or.2 ⟨h2, h4⟩)),
    fun x hx => ?phaseEnd, fun h => congrArg Host.Outcome.next (calPhaseEnd_none h), fun c => ?load, fun i l => ?reference⟩
  case startZero =>
    refine ⟨_, congrArg Host.Outcome.next (startZero_opens h), sessionOpen_phase _, sessionOpen_passed _,
      ⟨_, rfl, rfl, rfl, rfl, rfl, sessionOf_chans _⟩, fun c hc hremote hno => ?_⟩
    exact (f_of_rd (sessionOpen_rd _ (calChCtrl_ne_stat c))).trans (armedOut_reason hc hremote hno)
  case startFull =>
    exact ⟨_, congrArg Host.Outcome.next (startFull_begins hx h), phase_shows _ (by decide), rfl,
      State.RegsBut.wf (fun _ _ _ => rfl) _ (List.mem_singleton.2 rfl)⟩
  case phaseEnd =>
    rw [← closing_eq]
    refine ⟨fun h => ?waits, fun hb ho h1 => ?zero, fun hb ho h3 hmeans => ?full⟩
    case waits => exact congrArg Host.Outcome.next (calPhaseEnd_waits hx (h.imp_right (mt (phaseOver_iff s x).1)))
    case zero =>
      refine ⟨_, congrArg Host.Outcome.next (calPhaseEnd_zero hx hb ((phaseOver_iff s x).2 ho) h1), phase_passed_shows _ (by decide) _, rfl, ?_⟩
      exact phase_passed_regs rfl _ _
    case full =>
      exact ⟨_, _, congrArg Host.Outcome.next (calPhaseEnd_full hx hb ((phaseOver_iff s x).2 ho) h3), phase_passed_shows _ (by decide) _, rfl, rfl,
        calComputeAll_results hmeans⟩
  case load =>
    refine ⟨fun h => congrArg Host.Outcome.next (calLoad_absent h),
      fun h ha => ⟨_, congrArg Host.Outcome.next (calLoad_busy h ha), State.RegsBut.emit (State.RegsBut.refl s []) _ _ _, emit_joins rfl _ _ _⟩,
      fun h ha hb => ⟨_, congrArg Host.Outcome.next (calLoad_bad h ha hb), State.RegsBut.emit (State.RegsBut.refl s []) _ _ _, emit_joins rfl _ _ _⟩,
      fun h ha hb h1 h2 => ?still, fun h ha hb hrun => ?running⟩
    case still =>
      have hstill : s.ticking = false := Bool.eq_false_of_not_eq_true fun ht => ((ticking_iff s).1 ht).elim h1 h2
      exact ⟨_, congrArg Host.Outcome.next (calLoad_good h ha hb), loaded_trace c.isLt, loaded_stands hstill⟩
    case running =>
      have hticks := (ticking_iff s).2 hrun
      have hslews := loaded_slews (c := c.val) (t := s.loadTick) hticks
      rw [loadNoted_slewTo, loadTick_running hticks] at hslews
      refine ⟨_, s.slewTo c s.nextDue (s.loadG c) (s.loadB c), congrArg Host.Outcome.next (calLoad_good h ha hb), loaded_trace c.isLt, ?_, rfl, rfl, rfl, rfl, rfl⟩
      rw [loadTick_running hticks]
      exact hslews
  case reference =>
    refine ⟨fun h => ?bad, fun h => ?good⟩
    case bad =>
      have hno : ¬s.refFits i (l.take 24) = true := mt refFits_iff.1 h
      have hnext : s.senseCycle i l = s.refNoted i (l.take 24) := senseCycle_eq.trans (if_pos (by rw [Bool.eq_false_of_not_eq_true hno]; rfl))
      exact ⟨_, congrArg Host.Outcome.next hnext, refNoted_ok.trans (if_neg hno), refNoted_sense.1, fun hwas => refNoted_lost hwas hno⟩
    case good =>
      have hok := refFits_iff.2 h
      have hnext := (senseCycle_eq (s := s) (t := i) (l := l)).trans (if_neg (by rw [hok]; decide))
      refine ⟨_, congrArg Host.Outcome.next hnext, ?_, fun hwithin => ?_⟩
      · exact (foldl_keeps (fun u : State => u.f (F.CAL_REF_STAT_REF_OK i)) (senseTaken_ok _) _ _).trans (refNoted_ok.trans (if_pos hok))
      · obtain ⟨hhub, -⟩ := senseTaken_fold (t := i) (cycle_inRange hwithin) (s.refNoted i (l.take 24))
        refine ⟨fun hwas room => ?_, fun k x hx hk hnew => ?_⟩
        · obtain ⟨e, hname, hobj, hdetail, hq⟩ := refNoted_back hwas hok room
          exact ⟨e, hname, hobj, hdetail, (congrArg HubSt.evq hhub).trans hq⟩
        · refine senseTaken_first (cycle_inRange hwithin) ?_ _ (mem_cycle hx hk) ?_
          · rw [cycle_keys h.1]
            exact List.nodup_range
          · rw [refNoted_sense.2]
            exact hnew

end

section
/-!
PROOFS. What the frames, changes and offers that follow stewardship (R286 to R301) leave alone: what the hub knows of its peer, the partner
manager's own registers, and the events that stand in the queue.
-/
namespace Sys2Proof.Machine

open Sys2Proof

/-- A register of the partner manager itself, apart from those of its partners and slots. -/
def stewReg (a : Nat) : Prop := 0x900000 ≤ a ∧ a < 0x910000

theorem not_stewReg_add {a : Nat} (k : Nat) (h : 0x910000 ≤ a) : ¬stewReg (a + k) := fun hk => Nat.not_lt.2 (Nat.le_add_right_of_le h) hk.2

theorem midReg_of_stewReg {a : Nat} (h : stewReg a) : midReg a := ⟨le_trans (by decide) h.1, h.2.trans (by decide)⟩

/-- What the partner manager keeps of its peer and for the next boundary: the peer's epoch, the last heartbeat, the record applied last, and what
may end stewardship. -/
def PtnSt.told (x : PtnSt) : Nat × Nat × Nat × Bool × Bool := (x.peerEpoch, x.lastBeat, x.applied, x.outranked, x.stop)

/-- `t` is told of its peer what `s` is; with `b` true its stewardship registers read alike too, and the events of `s` still stand. -/
structure StewSame (b : Bool) (s t : State) : Prop where
  rd : b = true → ∀ a, stewReg a → t.rd a = s.rd a
  evq : b = true → s.hub.evq ⊆ t.hub.evq
  told : t.ptn.told = s.ptn.told

namespace StewSame

variable {b : Bool} {s t u : State}

theorem refl : StewSame b s s := ⟨fun _ _ _ => rfl, fun _ => List.Subset.refl _, rfl⟩

theorem trans (h : StewSame b s t) (k : StewSame b t u) : StewSame b s u :=
  ⟨fun hb a ha => (k.rd hb a ha).trans (h.rd hb a ha), fun hb => List.Subset.trans (h.evq hb) (k.evq hb), k.told.trans h.told⟩

/-- An update beside registers, the event queue and what the hub is told. -/
theorem update (h : StewSame b s t) {k ki hu fr fl pn pt ed kn qm pr cr up sp um pe} (he : hu.evq = t.hub.evq := by rfl)
    (hp : pn.told = t.ptn.told := by rfl) : StewSame b s (State.mk t.mem k ki hu fr fl pn pt ed kn qm pr cr up sp um pe) :=
  h.trans ⟨fun _ _ _ => rfl, fun _ => he ▸ List.Subset.refl _, hp⟩

theorem wr (h : StewSame b s t) {a : Nat} (ha : b = true → ¬stewReg a) (w : Word) : StewSame b s (t.wr a w) :=
  h.trans ⟨fun hb _ hc => State.rd_wr_ne t w fun e => ha hb (e ▸ hc), fun _ => List.Subset.refl _, rfl⟩

theorem wf (h : StewSame b s t) {x : RegField} (hx : b = true → ¬stewReg x.addr) (v : Nat) : StewSame b s (t.wf x v) := h.wr hx _

theorem emit (h : StewSame b s t) (n : EvName) (o : Nat) (d : List Int) : StewSame b s (t.emit n o d) := by
  refine h.trans ⟨fun _ a ha => (Spares.emit (b := true) .refl n o d).rd rfl a (midReg_of_stewReg ha), fun _ => ?_, congrArg PtnSt.told (emit_ptn ..)⟩
  by_cases hroom : evqDepth t.hub.evq + eventEntries n ≤ 4096
  · rw [emit_evq t n o d hroom]
    exact List.subset_append_left ..
  · rw [emit_evq_full t n o d (Nat.not_le.1 hroom)]
    exact List.Subset.refl _

theorem ite {c : Prop} [Decidable c] (ht : StewSame b s t) (hu : StewSame b s u) : StewSame b s (if c then t else u) := by
  split <;> assumption

theorem foldl {α : Type} {f : State → α → State} (hf : ∀ x a, StewSame b s x → StewSame b s (f x a)) (l : List α) (h : StewSame b s t) :
    StewSame b s (l.foldl f t) := by
  induction l generalizing t with
  | nil => exact h
  | cons a l ih => exact ih (hf _ a h)

/-- A frame that leaves tells the hub nothing. -/
theorem outs (h : StewSame b s t) (k : Spares true t u) (o : t.Outs u) : StewSame b s u :=
  h.trans ⟨fun _ a ha => k.rd rfl a (midReg_of_stewReg ha), fun _ => o.evq ▸ List.Subset.refl _, congrArg PtnSt.told o.ptn⟩

theorem peerEpoch (h : StewSame b s t) : t.ptn.peerEpoch = s.ptn.peerEpoch := congrArg (fun x => x.1) h.told

theorem lastBeat (h : StewSame b s t) : t.ptn.lastBeat = s.ptn.lastBeat := congrArg (fun x => x.2.1) h.told

theorem applied (h : StewSame b s t) : t.ptn.applied = s.ptn.applied := congrArg (fun x => x.2.2.1) h.told

theorem outranked (h : StewSame b s t) : t.ptn.outranked = s.ptn.outranked := congrArg (fun x => x.2.2.2.1) h.told

theorem stop (h : StewSame b s t) : t.ptn.stop = s.ptn.stop := congrArg (fun x => x.2.2.2.2) h.told

theorem f (h : StewSame true s t) {x : RegField} (hx : stewReg x.addr) : t.f x = s.f x := f_of_rd (h.rd rfl _ hx)

theorem flag (h : StewSame true s t) {x : RegField} (hx : stewReg x.addr) : t.flag x = s.flag x := congrArg (· == 1) (h.f hx)

end StewSame

/-! ### Frames and records that leave (R279, R286, R302) -/

section Leaving
variable {b : Bool} {s t : State}

theorem slateSend_stewSame (h : StewSame b s t) (data : List Int) (payload : List Nat) : StewSame b s (t.slateSend data payload) :=
  h.outs (slateSend_spares .refl ..) (.slateSend (.refl t) ..)

theorem frameSend_stewSame (h : StewSame b s t) (l : Nat) (data : List Int) (head payload : List Nat) :
    StewSame b s (t.frameSend l data head payload) := by
  refine h.outs ?_ (.frameSend (.refl t) ..)
  unfold State.frameSend State.laneOut State.free
  exact txSend_spares (Spares.refl.update rfl rfl) ..

theorem mirror_stewSame (h : StewSame b s t) (rtype : Nat) (data : List Int) : StewSame b s (t.mirror rtype data) := by
  unfold State.mirror State.mirrorSend
  exact .ite (slateSend_stewSame (h.update) ..) h

theorem sendCommand_stewSame (h : StewSame b s t) (lane pos cseq op ch tick arg0 arg1 : Nat) :
    StewSame b s (t.sendCommand lane pos cseq op ch tick arg0 arg1) := by
  unfold State.sendCommand State.nodeFrame
  exact frameSend_stewSame (h.update) ..

end Leaving

/-! ### Changes and offers (R283 to R289) -/

section Offers
variable {b : Bool} {s t : State}

theorem setPartner_stewSame (h : StewSame b s t) (p : Nat) (x : Partner) : StewSame b s (t.setPartner p x) := by
  have hserial : b = true → ¬stewReg (Reg.PTN_Pp_SERIAL p) := fun _ => not_stewReg_add _ (by decide)
  have hstat : b = true → ¬stewReg (Reg.PTN_Pp_STAT p) := fun _ => not_stewReg_add _ (by decide)
  have hepoch : b = true → ¬stewReg (Reg.PTN_Pp_EPOCH p) := fun _ => not_stewReg_add _ (by decide)
  have hset : StewSame b s { t with ptn.partners := tabSet (fun _ => none) t.ptn.partners p (some x) } := h.update
  exact (((((((hset.wf hserial _).wf hstat _).wf hstat _).wf hstat _).wf hstat _).wf hstat _).wf hstat _).wf hepoch _

theorem nextCseq_stewSame (h : StewSame b s t) : StewSame b s t.nextCseq.2 := h.update

theorem refuse_stewSame (h : StewSame b s t) (p ch reason : Nat) : StewSame b s (t.refuse p ch reason) := by
  unfold State.refuse
  split
  · exact h
  · next x _ =>
    have hset := setPartner_stewSame h p { x with refused := ch :: x.refused.filter (· != ch) }
    exact .ite (sendCommand_stewSame (nextCseq_stewSame hset) ..) hset

theorem setSlot_stewSame (h : StewSame b s t) (c : Nat) (x : Option SlotSt) : StewSame b s (t.setSlot c x) := h.update

theorem command_stewSame (h : StewSame b s t) (x : Change) (n : Nat) : StewSame b s (t.command x n) := by
  have hstat : b = true → ¬stewReg (Reg.PTN_SLs_STAT x.slot) := fun _ => not_stewReg_add _ (by decide)
  have hid : b = true → ¬stewReg (Reg.PTN_SLs_ID x.slot) := fun _ => not_stewReg_add _ (by decide)
  have hsent (l : List Change) (lane pos cseq op ch n arg0 arg1 : Nat) :
      StewSame b s ({ t.nextCseq.2 with ptn.sentCmds := l }.sendCommand lane pos cseq op ch n arg0 arg1) := by
    refine sendCommand_stewSame ?_ ..
    exact h.update
  unfold State.command
  split
  · exact h
  · dsimp only
    split
    · exact .ite (hsent ..) (setSlot_stewSame (((((hsent ..).wf hstat _).wr hid _).wf hstat _).wf hstat _) ..)
    · exact setSlot_stewSame ((hsent ..).wf (x := F.PTN_SLs_STAT_STATE x.slot) hstat _) ..
    · exact .ite (hsent ..) (setSlot_stewSame (hsent ..) ..)

theorem change_stewSame (h : StewSame b s t) (x : Change) (serial : Nat) : StewSame b s (t.change x serial) := by
  have hmirror (c : Bool) : StewSame b s (if c then t.nodeCfg x serial x.state (t.changeTick x) 0 else t) := .ite (mirror_stewSame h ..) h
  unfold State.change State.sendChange
  exact .ite ((hmirror _).update) (command_stewSame (.ite ((hmirror _).emit ..) (hmirror _)) _ _)

theorem offer_stewSame (h : StewSame b s t) (p : Nat) (d : NodeCh) : StewSame b s (t.offer p d) := by
  unfold State.offer
  split
  · exact h
  · refine .ite h ?_
    split
    · exact refuse_stewSame h ..
    · exact .ite (change_stewSame h ..) (refuse_stewSame (h.emit ..) ..)

theorem offerAll_stewSame (h : StewSame b s t) : StewSame b s t.offerAll := by
  unfold State.offerAll
  refine .foldl (fun u e hu => ?_) _ h
  split
  · exact .foldl (fun v d hv => offer_stewSame hv _ d) _ hu
  · exact hu

theorem retryJoins_stewSame (h : StewSame b s t) : StewSame b s t.retryJoins := offerAll_stewSame (t := t.unrefuse) (h.update)

theorem slateChanges_stewSame (h : StewSame b s t) : StewSame b s t.slateChanges := by
  unfold State.slateChanges State.sendChange
  exact .foldl (fun u x hu => command_stewSame hu _ _) _ (h.update)

theorem sendBeat_stewSame (h : StewSame b s t) (take : Bool) : StewSame b s (t.sendBeat take) := slateSend_stewSame h ..

end Offers

/-! ### Channels that join and leave (R285, R290, R292), and the mirrored triggers (R375) -/

section Slots
variable {s t : State}

theorem told_of_ptn {u : State} (h : StewSame false s t) (hp : u.ptn = t.ptn) : StewSame false s u :=
  h.trans ⟨fun e => absurd e Bool.false_ne_true, fun e => absurd e Bool.false_ne_true, congrArg PtnSt.told hp⟩

theorem calRefresh_ptn (c n : Nat) : (t.calRefresh c n).ptn = t.ptn := by
  unfold State.calRefresh
  dsimp only
  rw [State.wb, State.wfs, State.wfs, State.wf_ptn, State.wf_ptn, State.wf_ptn]
  split
  · rfl
  · split <;> rfl

theorem applyPair_ptn (c n : Nat) (g v : Int) : (t.applyPair c n g v).ptn = t.ptn := by
  unfold State.applyPair
  dsimp only
  split
  · rfl
  · exact calRefresh_ptn ..

theorem wrAll_ptn {α : Type} (f : α → Nat) (g : α → Word) (l : List α) (u : State) : (l.foldl (fun s i => s.wr (f i) (g i)) u).ptn = u.ptn :=
  foldl_keeps State.ptn (fun x i => State.wr_ptn x (f i) (g i)) l u

theorem calShow_ptn (c : Nat) (e : Option RemoteCal) : (t.calShow c e).ptn = t.ptn := by
  unfold State.calShow
  dsimp only
  rw [calRefresh_ptn, State.wr_ptn, State.wr_ptn, State.wr_ptn, State.wr_ptn, wrAll_ptn, State.wf_ptn]

theorem setPath_ptn (u : State) (c : Nat) (p : Path) : (u.setPath c p).ptn = u.ptn := rfl

theorem envZero_ptn (u : State) (c : Nat) : (u.envZero c).ptn = u.ptn := rfl

theorem wb_ptn (u : State) (x : RegField) (v : Bool) : (u.wb x v).ptn = u.ptn := rfl

theorem showRho_ptn (u : State) (c : Nat) : (u.showRho c).ptn = u.ptn := by
  unfold State.showRho State.wf64
  dsimp only
  rw [State.wf_ptn, State.wf_ptn, State.wf_ptn, State.wf_ptn]

theorem chrJudge_ptn (u : State) (c : Nat) : (u.chrJudge c).ptn = u.ptn := by
  unfold State.chrJudge
  dsimp only
  split
  · rfl
  · split
    · rw [emit_ptn, setPath_ptn, wb_ptn]
    · split
      · rw [showRho_ptn, envZero_ptn, setPath_ptn, wb_ptn]
      · exact wb_ptn ..

theorem joinNow_ptn (c : Nat) : (t.joinNow c).ptn = (t.setSlot c (some { t.slot c with joined := true })).ptn := by
  unfold State.joinNow
  dsimp only
  rw [chrJudge_ptn, showRho_ptn, wb_ptn, envZero_ptn, setPath_ptn, calShow_ptn]

theorem joinNow_told (h : StewSame false s t) (c : Nat) : StewSame false s (t.joinNow c) :=
  told_of_ptn (setSlot_stewSame h ..) (joinNow_ptn c)

/-- The registers of a slot that is attached (R284, R290). -/
def State.attachShown (s : State) (x : Change) (p : Partner) (base : Nat) : State :=
  let s := (s.wf (F.PTN_SLs_STAT_STATE x.slot) 2).wr (Reg.PTN_SLs_ID x.slot) (BitVec.ofNat 32 p.serial)
  let s := (s.wf (F.PTN_SLs_STAT_PARTNER x.slot) x.partner).wf (F.PTN_SLs_STAT_NODE_CH x.slot) x.ch
  (s.wr (Reg.PTN_SLs_SEQ x.slot) (BitVec.ofNat 32 (base + 2 ^ 32 - 1))).wr (Reg.PTN_SLs_JOIN x.slot) (BitVec.ofNat 32 x.tick)

/-- What the hub holds of a slot that is attached. -/
def State.attachSlot (s : State) (x : Change) (p : Partner) (base : Nat) : SlotSt :=
  let d := (p.chans.find? fun d => d.ch == x.ch).getD { ch := x.ch, rate := x.arg0, theta := 0 }
  let first := firstIndex (max 1 x.arg0) (d.theta * 65536) (boundaryClock (max 1 s.rate) x.tick)
  let down := s.routesDown x.slot
  { slot0 with rate := x.arg0, theta := d.theta, lane := p.home.1, join := x.tick, base := base, next := first,
               linkOut := down.1, linkBoth := down.2 }

/-- The slot an identity takes is remembered (R284). -/
def State.identNoted (s : State) (serial ch c : Nat) : State :=
  { s with ptn.idents := (Identity.mk serial ch c :: s.ptn.idents.filter fun i => !(i.serial == serial && i.ch == ch)).take 4096 }

/-- A slot is attached, and does not join yet. -/
def State.attached (s : State) (x : Change) (p : Partner) (base : Nat) : State :=
  ((s.attachShown x p base).setSlot x.slot (some ((s.attachShown x p base).attachSlot x p base))).identNoted p.serial x.ch x.slot

theorem attachNow_eq (t : State) (x : Change) (p : Partner) (base : Nat) : t.attachNow x p base
    = if x.tick ≤ (t.attached x p base).tick.num then (t.attached x p base).joinNow x.slot else t.attached x p base := rfl

theorem attachShown_ptn (x : Change) (p : Partner) (base : Nat) : (t.attachShown x p base).ptn = t.ptn := by
  unfold State.attachShown
  dsimp only
  rw [State.wr_ptn, State.wr_ptn, State.wf_ptn, State.wf_ptn, State.wr_ptn, State.wf_ptn]

theorem attached_told (h : StewSame false s t) (x : Change) (p : Partner) (base : Nat) : StewSame false s (t.attached x p base) := by
  have hshown : StewSame false s (t.attachShown x p base) := told_of_ptn h (attachShown_ptn ..)
  have hslot := setSlot_stewSame hshown x.slot (some ((t.attachShown x p base).attachSlot x p base))
  exact hslot.update

theorem attachNow_told (h : StewSame false s t) (x : Change) (p : Partner) (base : Nat) : StewSame false s (t.attachNow x p base) := by
  rw [attachNow_eq]
  exact .ite (joinNow_told (attached_told h ..) _) (attached_told h ..)

theorem attach_told (h : StewSame false s t) (x : Change) (p : Partner) (base : Nat) : StewSame false s (t.attach x p base) :=
  .ite (setSlot_stewSame h ..) (attachNow_told h ..)

theorem slotDrop_told (h : StewSame false s t) (c : Nat) : StewSame false s (t.slotDrop c) := by
  unfold State.slotDrop
  dsimp only
  refine setSlot_stewSame (told_of_ptn h ?_) ..
  rw [State.wf_ptn, State.wf_ptn, State.wr_ptn, State.wf_ptn]

theorem slotFree_told (h : StewSame false s t) (c : Nat) : StewSame false s (t.slotFree c) := by
  unfold State.slotFree
  dsimp only
  refine told_of_ptn (slotDrop_told h c) ?_
  rw [State.wf_ptn, State.wf_ptn, calShow_ptn]

theorem leaveNow_told (h : StewSame false s t) (c : Nat) : StewSame false s (t.leaveNow c) := by
  unfold State.leaveNow
  dsimp only
  refine retryJoins_stewSame ?_
  split
  · split
    · exact attachNow_told (slotFree_told h c) ..
    · exact slotFree_told h c
  · exact slotFree_told h c

theorem StewSame.wf' (h : StewSame false s t) (x : RegField) (v : Nat) : StewSame false s (t.wf x v) := told_of_ptn h (State.wf_ptn ..)

theorem StewSame.wr' (h : StewSame false s t) (a : Nat) (w : Word) : StewSame false s (t.wr a w) := told_of_ptn h (State.wr_ptn ..)

theorem schedule_told (h : StewSame false s t) (m n addr : Nat) (data mask : Word) (lateOk : Bool) :
    StewSame false s (t.schedule m n addr data mask lateOk).2 := by
  unfold State.schedule
  dsimp only
  split
  · exact h.update
  · exact h

theorem setTrig_told (h : StewSame false s t) (u : Nat) (x : TrigSt) : StewSame false s (t.setTrig u x) := h.update

theorem toTrig_told (h : StewSame false s t) (u st : Nat) : StewSame false s (t.toTrig u st) := by
  unfold State.toTrig State.mirrorTrig
  exact .ite (mirror_stewSame (.ite ((h.wf' ..).wf' ..) (h.wf' ..)) ..) (.ite ((h.wf' ..).wf' ..) (h.wf' ..))

theorem armFrom_told (h : StewSame false s t) (u tick pre post : Nat) : StewSame false s (t.armFrom u tick pre post) := by
  have hsched := schedule_told h 0 tick (armAddr u) 0#32 0xFFFFFFFF#32 false
  unfold State.armFrom State.trigRes
  refine .ite (h.wf' ..) (.ite ?_ (h.wf' ..))
  exact toTrig_told ((setTrig_told ((hsched.wf' ..).wf' ..) ..).wf' ..) ..

/-- A fire request of another hub sends no frame. -/
theorem fire_told (h : StewSame false s t) (u time : Nat) (cause : FireCause) (net : Nat) : StewSame false s (t.fire u time cause (some net)) := by
  have hto (c : Bool) (x : TrigSt) : StewSame false s (if c then (t.setTrig u x).toTrig u 3 else t.setTrig u x) :=
    .ite (toTrig_told (setTrig_told h ..) ..) (setTrig_told h ..)
  unfold State.fire
  refine .ite (h.wf' ..) ?_
  dsimp only
  rw [Option.isNone_some, Bool.and_false, Bool.false_and, if_neg Bool.false_ne_true]
  exact hto ..

theorem armMirror_told (h : StewSame false s t) (netid st armTick pre post tf orig : Nat) :
    StewSame false s (t.armMirror netid st armTick pre post tf orig) := by
  unfold State.armMirror
  refine .foldl (fun x u hx => .ite ?_ (.ite (.ite hx (armFrom_told hx ..)) (fire_told hx ..))) _ h
  exact setTrig_told hx ..

end Slots

end Sys2Proof.Machine
end

section
/-!
PROOFS. Heartbeats and TAKE at a boundary (R298 to R300), and a hub that becomes steward (R297, R299).
-/
namespace Sys2Proof.Machine

open Sys2Proof

/-! ### A hub becomes steward (R297) -/

/-- The greater of an epoch and that of a present partner. -/
def epochAbove (a : Nat) (e : Nat × Option Partner) : Nat :=
  match e.2 with
  | some x => if x.present then max a x.epoch else a
  | none => a

theorem le_epochAbove (a : Nat) (e : Nat × Option Partner) : a ≤ epochAbove a e := by
  unfold epochAbove
  split
  · split
    · exact Nat.le_max_left ..
    · exact Nat.le_refl a
  · exact Nat.le_refl a

theorem le_epochsAbove (l : List (Nat × Option Partner)) (a : Nat) : a ≤ l.foldl epochAbove a := by
  induction l generalizing a with
  | nil => exact Nat.le_refl a
  | cons e l ih => exact (le_epochAbove a e).trans (ih _)

theorem epoch_le_epochsAbove {l : List (Nat × Option Partner)} {p : Nat} {x : Partner} (h : (p, some x) ∈ l) (hx : x.present = true) (a : Nat) :
    x.epoch ≤ l.foldl epochAbove a := by
  induction l generalizing a with
  | nil => exact absurd h List.not_mem_nil
  | cons e l ih =>
    rcases List.mem_cons.1 h with rfl | hl
    · refine le_trans ?_ (le_epochsAbove l _)
      have hmax : epochAbove a (p, some x) = max a x.epoch := if_pos hx
      exact hmax ▸ Nat.le_max_right ..
    · exact ih hl _

/-- The highest epoch that the hub knows: its own, its peer's, and those of the present partners. -/
def State.bestEpoch (s : State) : Nat := s.ptn.partners.foldl epochAbove (max (s.f F.PTN_EPOCH_EPOCH) s.ptn.peerEpoch)

/-- No partner outranks the hub, and its TAKE is done. -/
def State.takeDone (s : State) : State := { s with ptn.outranked := false, ptn.take := false }

theorem takeDone_rd (s : State) (a : Nat) : s.takeDone.rd a = s.rd a := rfl

theorem takeDone_hub (s : State) : s.takeDone.hub = s.hub := rfl

theorem takeDone_stays (s : State) : s.takeDone.ptn.outranked = false ∧ s.takeDone.ptn.stop = s.ptn.stop := ⟨rfl, rfl⟩

/-- The hub is steward with an epoch above the highest that it knows. -/
def State.epochTaken (s : State) : State := ((s.wf F.PTN_EPOCH_EPOCH (s.bestEpoch + 1)).wf F.PTN_STEW_STEWARD 1).takeDone

/-- An EPOCH command leaves on a lane. -/
def State.epochSent (s : State) (l : Nat) : State := s.nextCseq.2.sendCommand l 0xFF s.nextCseq.1 5 0xFF 0 0 0

/-- The epoch that is taken is sent on every lane that is active. -/
def State.epochTold (s : State) : State := s.epochTaken.activeLanes.foldl State.epochSent s.epochTaken

/-- What follows the event: STEWARD_UNSYNCED of a copy that is not in step, the mirror record, and the offers to nodes. -/
def State.stewardBegins (s : State) (unsynced : Bool) (epoch : Nat) : State :=
  let t := if unsynced then s.emit .STEWARD_UNSYNCED 0 [] else s
  (t.mirror 0x03 [(epoch : Int), (t.tick.num : Nat)]).offerAll

theorem becomeSteward_eq (s : State) : s.becomeSteward = (s.epochTold.emit .STEWARD_TAKEN 0 [((s.bestEpoch + 1 : Nat) : Int)]).stewardBegins
    (s.flag F.PTN_CTRL_PAIR && !s.flag F.PTN_STEW_SYNCED) (s.bestEpoch + 1) := rfl

section Becomes
variable (s : State)

theorem own_lt_best : s.f F.PTN_EPOCH_EPOCH < s.bestEpoch + 1 :=
  Nat.lt_succ_of_le (le_trans (Nat.le_max_left ..) (le_epochsAbove _ _))

theorem peer_lt_best : s.ptn.peerEpoch < s.bestEpoch + 1 := Nat.lt_succ_of_le (le_trans (Nat.le_max_right ..) (le_epochsAbove _ _))

theorem partner_lt_best (p : Nat) (x : Partner) (h : (p, some x) ∈ s.ptn.partners) (hx : x.present = true) : x.epoch < s.bestEpoch + 1 :=
  Nat.lt_succ_of_le (epoch_le_epochsAbove h hx _)

theorem epochSent_same (u : State) (l : Nat) : StewSame true u (u.epochSent l) := sendCommand_stewSame (nextCseq_stewSame .refl) ..

theorem epochSent_evq (u : State) (l : Nat) : (u.epochSent l).hub.evq = u.hub.evq := by
  unfold State.epochSent State.sendCommand State.nodeFrame
  exact (State.Outs.frameSend (.refl _) ..).evq

theorem epochTold_same : StewSame true s.epochTaken s.epochTold := .foldl (fun u l hu => hu.trans (epochSent_same u l)) _ .refl

theorem epochTaken_hub : s.epochTaken.hub = s.hub := by
  unfold State.epochTaken
  rw [takeDone_hub, State.wf_hub, State.wf_hub]

theorem epochTold_evq : s.epochTold.hub.evq = s.hub.evq :=
  (foldl_keeps (fun u : State => u.hub.evq) epochSent_evq s.epochTaken.activeLanes s.epochTaken).trans (congrArg HubSt.evq (epochTaken_hub s))

theorem stewardBegins_same (u : State) (unsynced : Bool) (e : Nat) : StewSame true u (u.stewardBegins unsynced e) := by
  unfold State.stewardBegins
  exact offerAll_stewSame (mirror_stewSame (.ite (StewSame.refl.emit ..) .refl) ..)

theorem becomeSteward_same : StewSame true s.epochTaken s.becomeSteward := by
  rw [becomeSteward_eq]
  exact ((epochTold_same s).emit ..).trans (stewardBegins_same ..)

theorem stewReg_stew : stewReg Reg.PTN_STEW := by unfold stewReg; decide

theorem stewReg_epoch : stewReg Reg.PTN_EPOCH := by unfold stewReg; decide

theorem takeDone_f (x : RegField) : s.takeDone.f x = s.f x := f_of_rd (takeDone_rd ..)

theorem epochTaken_steward : s.epochTaken.f F.PTN_STEW_STEWARD = 1 := by
  unfold State.epochTaken
  rw [takeDone_f, State.f_wf_same _ (fieldOk_of rfl)]
  rfl

theorem epochTaken_epoch : s.epochTaken.f F.PTN_EPOCH_EPOCH = (s.bestEpoch + 1) % 2 ^ 32 := by
  unfold State.epochTaken
  rw [takeDone_f, f_of_rd (State.rd_wf_ne _ _ (by decide)), State.f_wf_same _ (fieldOk_of rfl)]
  rfl

theorem epochTaken_stays : s.epochTaken.ptn.outranked = false ∧ s.epochTaken.ptn.stop = s.ptn.stop := by
  obtain ⟨houtranked, hstop⟩ := takeDone_stays ((s.wf F.PTN_EPOCH_EPOCH (s.bestEpoch + 1)).wf F.PTN_STEW_STEWARD 1)
  rw [State.wf_ptn, State.wf_ptn] at hstop
  exact ⟨houtranked, hstop⟩

theorem becomeSteward_enters : s.Enters s.becomeSteward .STEWARD_TAKEN 0 [((s.bestEpoch + 1 : Nat) : Int)] := by
  intro room
  obtain ⟨e, hname, hobj, hdetail, hq⟩ := emit_joins (epochTold_evq s) .STEWARD_TAKEN 0 [((s.bestEpoch + 1 : Nat) : Int)] room
  refine ⟨e, hname, hobj, hdetail, ?_⟩
  rw [becomeSteward_eq]
  refine (stewardBegins_same _ _ _).evq rfl ?_
  rw [hq]
  exact List.mem_concat_self

/-- A hub that has become steward has the epoch above the highest that it knew. -/
theorem becomeSteward_stewards : s.becomeSteward.steward = true ∧ s.becomeSteward.f F.PTN_EPOCH_EPOCH = (s.bestEpoch + 1) % 2 ^ 32 := by
  have hsame := becomeSteward_same s
  exact ⟨(flag_eq_true ..).2 ((hsame.f stewReg_stew).trans (epochTaken_steward s)), (hsame.f stewReg_epoch).trans (epochTaken_epoch s)⟩

/-- Nothing but a STOP ends the stewardship that has begun. -/
theorem becomeSteward_stays : s.becomeSteward.ptn.outranked = false ∧ s.becomeSteward.ptn.stop = s.ptn.stop :=
  ⟨(becomeSteward_same s).outranked.trans (epochTaken_stays s).1, (becomeSteward_same s).stop.trans (epochTaken_stays s).2⟩

end Becomes

/-! ### Silence of the peer (R299) -/

section Silence
variable {s : State}

theorem peerSilent_same (s : State) : StewSame true s s.peerSilent := by
  unfold State.peerSilent
  split
  · exact .refl
  · exact StewSame.emit (t := { s with ptn.silentNoted := true }) (StewSame.refl.update) ..

theorem peerSilent_noted (h : s.ptn.silentNoted = true) : s.peerSilent = s := if_pos h

theorem peerSilent_ptn (s : State) : s.peerSilent.ptn = { s.ptn with silentNoted := true } := by
  unfold State.peerSilent
  split
  · next h => rw [← h]
  · rw [emit_ptn]

theorem peerSilent_best (s : State) : s.peerSilent.bestEpoch = s.bestEpoch := by
  have hepoch : s.peerSilent.f F.PTN_EPOCH_EPOCH = s.f F.PTN_EPOCH_EPOCH := (peerSilent_same s).f stewReg_epoch
  unfold State.bestEpoch
  rw [hepoch, peerSilent_ptn]

/-- What makes a silent pair's hub steward. -/
def State.silenceDue (s : State) : Prop :=
  s.f F.PTN_CTRL_EN = 1 ∧ s.f F.PTN_CTRL_PAIR = 1 ∧ s.steward = false ∧ s.silenceNeeded ≤ s.f F.PTN_STEW_SILENT

theorem silenceDue_iff : (s.flag F.PTN_CTRL_EN && s.flag F.PTN_CTRL_PAIR && !s.steward && decide (s.silenceNeeded ≤ s.f F.PTN_STEW_SILENT)) = true
    ↔ s.silenceDue := by
  unfold State.silenceDue
  rw [Bool.and_eq_true, Bool.and_eq_true, Bool.and_eq_true, flag_eq_true, flag_eq_true, Bool.not_eq_true', decide_eq_true_eq, and_assoc, and_assoc]

theorem takeSilence_idle (h : ¬s.silenceDue) : s.takeSilence = s := if_neg (mt silenceDue_iff.1 h)

theorem takeSilence_due (h : s.silenceDue) : s.takeSilence = s.peerSilent.becomeSteward := if_pos (silenceDue_iff.2 h)

theorem takeSilence_enters (h : s.silenceDue) (hnoted : s.ptn.silentNoted = true) :
    s.Enters s.takeSilence .STEWARD_TAKEN 0 [((s.bestEpoch + 1 : Nat) : Int)] := by
  rw [takeSilence_due h, peerSilent_noted hnoted]
  exact becomeSteward_enters s

end Silence

/-! ### The boundary in its parts (R298 to R300) -/

/-- The heartbeats of the tick before are noted, or their absence. -/
def State.beatsHeard (s : State) : State := { s with ptn.beats := [] }.slateBeats (s.flag F.PTN_CTRL_PAIR) s.ptn.beats

section Boundary
variable (s h u : State)

/-- The peer runs at another rate, as `h` heard. -/
def State.beatsBad : Bool := !s.ptn.beats.isEmpty && h.flag F.PTN_STEW_RATE_MISMATCH

/-- A TAKE is carried out in `h`. -/
def State.boundaryTakes : Bool := h.ptn.take && s.flag F.PTN_CTRL_PAIR && s.flag F.PTN_CTRL_EN && !s.beatsBad h && !h.steward

def State.boundaryTook : State := if s.boundaryTakes h then h.becomeSteward else h

/-- A steward yields in `u`, as `h` heard. -/
def State.boundaryYields : Bool :=
  u.ptn.stop || (u.ptn.outranked && !s.beatsBad h) || (s.flag F.PTN_CTRL_PAIR && s.ptn.beats.any u.beatYields)

def State.stewEnds (yields : Bool) : State := if s.steward && yields then s.yieldSteward else { s with ptn.stop := false }

/-- The boundary after what was heard. -/
def State.boundaryEnds : State :=
  let t := ((s.boundaryTook h).stewEnds (s.boundaryYields h (s.boundaryTook h))).slateChanges
  if s.flag F.PTN_CTRL_PAIR then t.sendBeat (s.boundaryTakes h) else t

theorem slateBoundary_eq : s.slateBoundary = s.boundaryEnds s.beatsHeard := rfl

theorem boundaryEnds_same : StewSame true ((s.boundaryTook h).stewEnds (s.boundaryYields h (s.boundaryTook h))) (s.boundaryEnds h) := by
  unfold State.boundaryEnds
  exact .ite (sendBeat_stewSame (slateChanges_stewSame .refl) _) (slateChanges_stewSame .refl)

end Boundary

/-- What a steward that yields drops. -/
def State.changesDropped (s : State) : State := { s with ptn.waiting := [], ptn.sentCmds := [], ptn.outranked := false, ptn.stop := false }

theorem changesDropped_rd (s : State) (a : Nat) : s.changesDropped.rd a = s.rd a := rfl

theorem changesDropped_peer (s : State) : s.changesDropped.ptn.peerEpoch = s.ptn.peerEpoch ∧ s.changesDropped.ptn.lastBeat = s.ptn.lastBeat :=
  ⟨rfl, rfl⟩

theorem yieldSteward_eq (s : State) : s.yieldSteward
    = (s.changesDropped.wf F.PTN_STEW_STEWARD 0).emit .STEWARD_YIELDED 0 [(s.changesDropped.f F.PTN_EPOCH_EPOCH : Nat)] := rfl

section Ends
variable {u : State} {y : Bool}

theorem yieldSteward_f {x : RegField} (hx : 0x20000 ≤ x.addr) (hd : fieldsApart x F.PTN_STEW_STEWARD) : u.yieldSteward.f x = u.f x := by
  rw [yieldSteward_eq, f_emit _ _ _ _ (not_eventReg hx), State.f_wf_ne _ (fieldOk_of rfl) hd]
  exact f_of_rd (changesDropped_rd ..)

theorem stewEnds_f {x : RegField} (hx : 0x20000 ≤ x.addr) (hd : fieldsApart x F.PTN_STEW_STEWARD) : (u.stewEnds y).f x = u.f x := by
  unfold State.stewEnds
  split
  · exact yieldSteward_f hx hd
  · rfl

theorem yieldSteward_steward : u.yieldSteward.steward = false := by
  have hzero : u.yieldSteward.f F.PTN_STEW_STEWARD = 0 := by
    rw [yieldSteward_eq, f_emit _ _ _ _ (not_eventReg (by decide)), State.f_wf_same _ (fieldOk_of rfl)]
    rfl
  unfold State.steward State.flag
  rw [hzero]
  rfl

theorem stewEnds_yields (hs : u.steward = true) : (u.stewEnds true).steward = false := by
  have hyield : u.stewEnds true = u.yieldSteward := if_pos (by rw [hs]; rfl)
  rw [hyield]
  exact yieldSteward_steward

theorem stewEnds_stays : (u.stewEnds false).steward = u.steward := by
  have hstay : u.stewEnds false = { u with ptn.stop := false } := if_neg (by rw [Bool.and_false]; decide)
  rw [hstay]
  rfl

theorem stewEnds_peer : (u.stewEnds y).ptn.peerEpoch = u.ptn.peerEpoch ∧ (u.stewEnds y).ptn.lastBeat = u.ptn.lastBeat := by
  unfold State.stewEnds
  split
  · rw [yieldSteward_eq, emit_ptn, State.wf_ptn]
    exact changesDropped_peer u
  · exact ⟨rfl, rfl⟩

end Ends

/-! ### A heartbeat (R298) -/

section Beats
variable {s : State} (b : Beat)

/-- A heartbeat is shown in PTN_STEW. -/
def State.beatShown (s : State) (b : Beat) : State :=
  ((s.wb F.PTN_STEW_RATE_MISMATCH (b.rate != s.rate)).wf F.PTN_STEW_SLATE_UP 1).wf F.PTN_STEW_SILENT 0

/-- Another rate than the hub's is recorded once. -/
def State.beatRated (s : State) (b : Beat) (bad : Bool) : State :=
  if bad && !s.ptn.rateNoted then { s with ptn.rateNoted := true }.emit .SLATE_RATE_MISMATCH 0 [(b.rate : Nat)] else s

/-- What a heartbeat says of the peer is kept, and the records it acknowledges are dropped. -/
def State.beatTold (s : State) (b : Beat) : State :=
  { s with ptn.silentNoted := false, ptn.firstCount := false, ptn.peerEpoch := b.epoch, ptn.peerRole := some b.role,
           ptn.peerSerial := b.serial, ptn.lastBeat := b.tick,
           hub.mirrorOut := s.hub.mirrorOut.filter fun (m : MirrorRec) => seqAbove m.mseq b.ack, ptn.acked := b.ack }

/-- A clash of roles is recorded once. -/
def State.beatClash (s : State) (b : Beat) : State :=
  if b.role = s.flag F.PTN_CTRL_ROLE ∧ !s.ptn.clashNoted then { s with ptn.clashNoted := true }.emit .SLATE_ROLE_CLASH 0 [(b.serial : Nat)] else s

theorem noteBeat_eq (s : State) : s.noteBeat b = (((s.beatShown b).beatRated b (b.rate != s.rate)).beatTold b).beatClash b := rfl

theorem beatRated_rd (s : State) (bad : Bool) {a : Nat} (ha : 0x20000 ≤ a) : (s.beatRated b bad).rd a = s.rd a := by
  unfold State.beatRated
  split
  · exact rd_emit { s with ptn.rateNoted := true } _ _ _ (not_eventReg ha)
  · rfl

theorem beatClash_rd (s : State) {a : Nat} (ha : 0x20000 ≤ a) : (s.beatClash b).rd a = s.rd a := by
  unfold State.beatClash
  split
  · exact rd_emit { s with ptn.clashNoted := true } _ _ _ (not_eventReg ha)
  · rfl

theorem noteBeat_rd (s : State) {a : Nat} (ha : 0x20000 ≤ a) : (s.noteBeat b).rd a = (s.beatShown b).rd a := by
  rw [noteBeat_eq, beatClash_rd b _ ha]
  exact beatRated_rd b _ _ ha

theorem beatShown_rd (s : State) {a : Nat} (ha : a ≠ Reg.PTN_STEW) : (s.beatShown b).rd a = s.rd a := by
  unfold State.beatShown State.wb
  rw [State.rd_wf_ne _ _ ha, State.rd_wf_ne _ _ ha, State.rd_wf_ne _ _ ha]

/-- A heartbeat writes no register beside PTN_STEW and those of events. -/
theorem noteBeat_f (s : State) {x : RegField} (hx : 0x20000 ≤ x.addr) (hne : x.addr ≠ Reg.PTN_STEW) : (s.noteBeat b).f x = s.f x :=
  f_of_rd ((noteBeat_rd b s hx).trans (beatShown_rd b s hne))

theorem beatShown_steward (s : State) : (s.beatShown b).f F.PTN_STEW_STEWARD = s.f F.PTN_STEW_STEWARD := by
  unfold State.beatShown State.wb
  rw [State.f_wf_ne _ (fieldOk_of rfl) (apart_above rfl), State.f_wf_ne _ (fieldOk_of rfl) (apart_above rfl),
    State.f_wf_ne _ (fieldOk_of rfl) (apart_above rfl)]

theorem noteBeat_steward (s : State) : (s.noteBeat b).steward = s.steward :=
  congrArg (· == 1) ((f_of_rd (noteBeat_rd b s (by decide))).trans (beatShown_steward b s))

theorem noteBeat_rate (s : State) : (s.noteBeat b).rate = s.rate := noteBeat_f b s (by decide) (by decide)

theorem beatClash_ptn (s : State) : (s.beatClash b).ptn.peerEpoch = s.ptn.peerEpoch ∧ (s.beatClash b).ptn.lastBeat = s.ptn.lastBeat
    ∧ (s.beatClash b).ptn.take = s.ptn.take := by
  unfold State.beatClash
  split
  · rw [emit_ptn]
    exact ⟨rfl, rfl, rfl⟩
  · exact ⟨rfl, rfl, rfl⟩

theorem beatRated_take (s : State) (bad : Bool) : (s.beatRated b bad).ptn.take = s.ptn.take := by
  unfold State.beatRated
  split
  · rw [emit_ptn]
  · rfl

theorem beatShown_ptn (s : State) : (s.beatShown b).ptn = s.ptn := by
  unfold State.beatShown State.wb
  rw [State.wf_ptn, State.wf_ptn, State.wf_ptn]

theorem noteBeat_take (s : State) : (s.noteBeat b).ptn.take = s.ptn.take := by
  obtain ⟨-, -, htake⟩ := beatClash_ptn b (((s.beatShown b).beatRated b (b.rate != s.rate)).beatTold b)
  rw [noteBeat_eq, htake]
  exact (beatRated_take b _ _).trans (congrArg PtnSt.take (beatShown_ptn b s))

theorem noteBeat_peer (s : State) : (s.noteBeat b).ptn.peerEpoch = b.epoch ∧ (s.noteBeat b).ptn.lastBeat = b.tick := by
  obtain ⟨hepoch, htick, -⟩ := beatClash_ptn b (((s.beatShown b).beatRated b (b.rate != s.rate)).beatTold b)
  rw [noteBeat_eq]
  exact ⟨hepoch, htick⟩

/-- What PTN_STEW shows after a heartbeat. -/
theorem noteBeat_shows (s : State) : (s.noteBeat b).f F.PTN_STEW_SLATE_UP = 1 ∧ (s.noteBeat b).f F.PTN_STEW_SILENT = 0
    ∧ (s.noteBeat b).f F.PTN_STEW_RATE_MISMATCH = if b.rate != s.rate then 1 else 0 := by
  have hshown (x : RegField) (hx : 0x20000 ≤ x.addr) : (s.noteBeat b).f x = (s.beatShown b).f x := f_of_rd (noteBeat_rd b s hx)
  rw [hshown _ (by decide), hshown _ (by decide), hshown _ (by decide)]
  unfold State.beatShown
  refine ⟨?_, State.f_wf_same _ (fieldOk_of rfl) 0, ?_⟩
  · rw [State.f_wf_ne _ (fieldOk_of rfl) (apart_above rfl)]
    exact State.f_wf_same _ (fieldOk_of rfl) 1
  · rw [State.f_wf_ne _ (fieldOk_of rfl) (apart_above rfl), State.f_wf_ne _ (fieldOk_of rfl) (apart_below rfl)]
    exact State.f_wb_same _ (fieldOk_of rfl) _

end Beats

/-- The heartbeat is held for the boundary. -/
def State.beatHeld (s : State) (b : Beat) : State := { s with ptn.beats := s.ptn.beats ++ [b] }

section Heartbeat
variable {s : State} {b : Beat}

/-- The heartbeats that came before the last are noted. -/
def State.beatsBefore (s : State) : State := s.ptn.beats.foldl State.noteBeat { s with ptn.beats := [] }

theorem beatsHeard_last (h : s.f F.PTN_CTRL_PAIR = 1) : (s.beatHeld b).beatsHeard = s.beatsBefore.noteBeat b := by
  have hpair : (s.beatHeld b).flag F.PTN_CTRL_PAIR = true := (flag_eq_true ..).2 h
  have hsome : (s.ptn.beats ++ [b]).isEmpty = false := by
    rw [List.isEmpty_eq_false_iff]
    exact List.append_ne_nil_of_right_ne_nil _ (List.cons_ne_nil b [])
  unfold State.beatsHeard State.slateBeats
  rw [hpair, if_neg (by decide)]
  refine (if_neg ?_).trans (List.foldl_append ..)
  rw [Bool.not_eq_true]
  exact hsome

theorem beatsBefore_f {x : RegField} (hx : 0x20000 ≤ x.addr) (hne : x.addr ≠ Reg.PTN_STEW) : s.beatsBefore.f x = s.f x :=
  foldl_keeps (fun u : State => u.f x) (fun u b => noteBeat_f b u hx hne) s.ptn.beats _

theorem beatsBefore_rate : s.beatsBefore.rate = s.rate := foldl_keeps State.rate (fun u b => noteBeat_rate b u) s.ptn.beats _

theorem beatsBefore_steward : s.beatsBefore.steward = s.steward := foldl_keeps State.steward (fun u b => noteBeat_steward b u) s.ptn.beats _

theorem beatsBefore_take : s.beatsBefore.ptn.take = s.ptn.take :=
  foldl_keeps (fun u : State => u.ptn.take) (fun u b => noteBeat_take b u) s.ptn.beats _

theorem boundaryTook_none {h : State} (ht : h.ptn.take = false) : s.boundaryTook h = h := by
  refine if_neg ?_
  unfold State.boundaryTakes
  rw [ht, Bool.false_and, Bool.false_and, Bool.false_and, Bool.false_and]
  exact Bool.false_ne_true

/-- A heartbeat that names a steward of a higher epoch at the same rate makes a steward yield. -/
theorem beatYields_outranked {u : State} (hrate : b.rate = u.rate) (hs : b.steward = true) (he : u.f F.PTN_EPOCH_EPOCH < b.epoch) :
    u.beatYields b = true := by
  unfold State.beatYields
  dsimp only
  rw [hrate, hs, decide_eq_true he, beq_self_eq_true]
  rfl

theorem boundaryYields_beat {h u : State} (hpair : s.f F.PTN_CTRL_PAIR = 1) (hb : u.beatYields b = true) :
    (s.beatHeld b).boundaryYields h u = true := by
  have hany : (s.ptn.beats ++ [b]).any u.beatYields = true := by
    rw [List.any_append, List.any_cons, hb, Bool.true_or, Bool.or_true]
  have hflag : (s.beatHeld b).flag F.PTN_CTRL_PAIR = true := (flag_eq_true ..).2 hpair
  unfold State.boundaryYields
  rw [hflag]
  refine (congrArg (Bool.or _) ?_).trans (Bool.or_true _)
  exact hany

end Heartbeat

end Sys2Proof.Machine
end

section
/-!
PROOFS. What a boundary shows after a heartbeat (R298, R300), and after a TAKE (R299).
-/
namespace Sys2Proof.Machine

open Sys2Proof

/-! ### After a heartbeat -/

section Heartbeat
variable {s : State} {b : Beat}

/-- The heartbeats are noted, with `b` the last. -/
def State.beatsNoted (s : State) (b : Beat) : State := s.beatsBefore.noteBeat b

theorem heartbeat_boundary (hpair : s.f F.PTN_CTRL_PAIR = 1) (htake : s.ptn.take = false) :
    StewSame true ((s.beatsNoted b).stewEnds ((s.beatHeld b).boundaryYields (s.beatsNoted b) (s.beatsNoted b))) (s.beatHeld b).slateBoundary := by
  have hheard : (s.beatHeld b).beatsHeard = s.beatsNoted b := beatsHeard_last hpair
  have hsame := boundaryEnds_same (s.beatHeld b) (s.beatsNoted b)
  have hnone : (s.beatsNoted b).ptn.take = false := (noteBeat_take ..).trans (beatsBefore_take.trans htake)
  rw [boundaryTook_none hnone] at hsame
  rw [slateBoundary_eq, hheard]
  exact hsame

theorem heartbeat_shows (hpair : s.f F.PTN_CTRL_PAIR = 1) (htake : s.ptn.take = false) {x : RegField} (hx : stewReg x.addr)
    (hd : fieldsApart x F.PTN_STEW_STEWARD) : (s.beatHeld b).slateBoundary.f x = (s.beatsNoted b).f x := by
  rw [(heartbeat_boundary hpair htake).f hx]
  exact stewEnds_f (le_trans (by decide) hx.1) hd

theorem heartbeat_peer (hpair : s.f F.PTN_CTRL_PAIR = 1) (htake : s.ptn.take = false) :
    (s.beatHeld b).slateBoundary.ptn.peerEpoch = b.epoch ∧ (s.beatHeld b).slateBoundary.ptn.lastBeat = b.tick := by
  have hsame := heartbeat_boundary (b := b) hpair htake
  obtain ⟨hepoch, hlast⟩ := noteBeat_peer b s.beatsBefore
  exact ⟨hsame.peerEpoch.trans (stewEnds_peer.1.trans hepoch), hsame.lastBeat.trans (stewEnds_peer.2.trans hlast)⟩

theorem beatsNoted_shows : (s.beatsNoted b).f F.PTN_STEW_SLATE_UP = 1 ∧ (s.beatsNoted b).f F.PTN_STEW_SILENT = 0
    ∧ ((s.beatsNoted b).f F.PTN_STEW_RATE_MISMATCH = 1 ↔ b.rate ≠ s.rate) := by
  obtain ⟨hup, hsilent, hrate⟩ := noteBeat_shows b s.beatsBefore
  rw [beatsBefore_rate] at hrate
  refine ⟨hup, hsilent, ?_⟩
  unfold State.beatsNoted
  rw [hrate, ← bne_iff_ne]
  split
  · next h => exact ⟨fun _ => h, fun _ => rfl⟩
  · next h => exact ⟨fun e => absurd e (by decide), fun e => absurd e h⟩

theorem heartbeat_yields (hpair : s.f F.PTN_CTRL_PAIR = 1) (htake : s.ptn.take = false) (hs : s.steward = true) (hrate : b.rate = s.rate)
    (hpeer : b.steward = true) (he : s.f F.PTN_EPOCH_EPOCH < b.epoch) : (s.beatHeld b).slateBoundary.steward = false := by
  have hnotedRate : (s.beatsNoted b).rate = s.rate := (noteBeat_rate ..).trans beatsBefore_rate
  have hnotedSteward : (s.beatsNoted b).steward = s.steward := (noteBeat_steward ..).trans beatsBefore_steward
  have hnotedEpoch : (s.beatsNoted b).f F.PTN_EPOCH_EPOCH = s.f F.PTN_EPOCH_EPOCH :=
    (noteBeat_f b _ (by decide) (by decide)).trans (beatsBefore_f (by decide) (by decide))
  have hyields : (s.beatsNoted b).beatYields b = true := beatYields_outranked (hrate.trans hnotedRate.symm) hpeer (hnotedEpoch ▸ he)
  have hsame := heartbeat_boundary (b := b) hpair htake
  rw [boundaryYields_beat hpair hyields] at hsame
  have hends := stewEnds_yields (hnotedSteward.trans hs)
  exact (hsame.flag (x := F.PTN_STEW_STEWARD) stewReg_stew).trans hends

end Heartbeat

/-! ### After a TAKE -/

section Take
variable {s : State}

/-- A tick without heartbeats is shown in PTN_STEW. -/
def State.quietShown (s : State) : State := (s.wf F.PTN_STEW_SLATE_UP 0).bump F.PTN_STEW_SILENT 1

/-- A tick without heartbeats: the peer may be silent now. -/
def State.quietHeard (s : State) : State := if s.quietShown.f F.PTN_STEW_SILENT = 64 then s.quietShown.peerSilent else s.quietShown

theorem slateBeats_none (u : State) : u.slateBeats true [] = u.quietHeard := by
  unfold State.slateBeats State.quietHeard State.quietShown
  rw [if_neg (by decide), if_pos List.isEmpty_nil]

theorem beatsHeard_none (hpair : s.f F.PTN_CTRL_PAIR = 1) (hb : s.ptn.beats = []) :
    s.beatsHeard = { s with ptn.beats := [] }.quietHeard := by
  unfold State.beatsHeard
  rw [(flag_eq_true ..).2 hpair, hb]
  exact slateBeats_none _

theorem quietShown_ptn (s : State) : s.quietShown.ptn = s.ptn := by
  unfold State.quietShown State.bump
  rw [State.wf_ptn, State.wf_ptn]

theorem quietShown_f (s : State) {x : RegField} (hup : fieldsApart x F.PTN_STEW_SLATE_UP) (hsilent : fieldsApart x F.PTN_STEW_SILENT) :
    s.quietShown.f x = s.f x := by
  unfold State.quietShown State.bump
  rw [State.f_wf_ne _ (fieldOk_of rfl) hsilent, State.f_wf_ne _ (fieldOk_of rfl) hup]

theorem quietHeard_same (s : State) : StewSame true s.quietShown s.quietHeard := by
  unfold State.quietHeard
  exact .ite (peerSilent_same _) .refl

theorem quietHeard_ptn (s : State) : s.quietHeard.ptn.take = s.ptn.take ∧ s.quietHeard.ptn.stop = s.ptn.stop
    ∧ s.quietHeard.ptn.peerEpoch = s.ptn.peerEpoch := by
  unfold State.quietHeard
  split
  · rw [peerSilent_ptn, quietShown_ptn]
    exact ⟨rfl, rfl, rfl⟩
  · rw [quietShown_ptn]
    exact ⟨rfl, rfl, rfl⟩

theorem quietHeard_f (s : State) {x : RegField} (hx : stewReg x.addr) (hup : fieldsApart x F.PTN_STEW_SLATE_UP)
    (hsilent : fieldsApart x F.PTN_STEW_SILENT) : s.quietHeard.f x = s.f x :=
  ((quietHeard_same s).f hx).trans (quietShown_f s hup hsilent)

/-- TAKE in a tick without heartbeats is carried out at the boundary. -/
theorem boundaryTook_quiet {h : State} (hpair : s.f F.PTN_CTRL_PAIR = 1) (hen : s.f F.PTN_CTRL_EN = 1) (hb : s.ptn.beats = [])
    (htake : h.ptn.take = true) (hs : h.steward = false) : s.boundaryTook h = h.becomeSteward := by
  refine if_pos ?_
  unfold State.boundaryTakes State.beatsBad
  rw [htake, (flag_eq_true ..).2 hpair, (flag_eq_true ..).2 hen, hb, hs]
  rfl

theorem boundaryYields_quiet {h u : State} (hb : s.ptn.beats = []) (hstop : u.ptn.stop = false) (houtranked : u.ptn.outranked = false) :
    s.boundaryYields h u = false := by
  unfold State.boundaryYields
  rw [hstop, houtranked, hb, List.any_nil, Bool.and_false, Bool.false_and, Bool.or_false, Bool.or_false]

/-- The hub that takes is steward after the boundary, with the epoch it has taken. -/
theorem take_stewards (hen : s.f F.PTN_CTRL_EN = 1) (hpair : s.f F.PTN_CTRL_PAIR = 1) (hs : s.steward = false) (hb : s.ptn.beats = [])
    (hstop : s.ptn.stop = false) (htake : s.ptn.take = true) : ∃ e : Nat, s.slateBoundary.steward = true
      ∧ s.slateBoundary.f F.PTN_EPOCH_EPOCH = e % 2 ^ 32 ∧ s.f F.PTN_EPOCH_EPOCH < e ∧ s.ptn.peerEpoch < e := by
  obtain ⟨hquietTake, hquietStop, hquietPeer⟩ := quietHeard_ptn { s with ptn.beats := [] }
  have hquietEpoch : (State.quietHeard { s with ptn.beats := [] }).f F.PTN_EPOCH_EPOCH = s.f F.PTN_EPOCH_EPOCH :=
    quietHeard_f _ stewReg_epoch (.inl (by decide)) (.inl (by decide))
  have hquietSteward : (State.quietHeard { s with ptn.beats := [] }).steward = s.steward :=
    congrArg (· == 1) (quietHeard_f _ stewReg_stew (apart_above rfl) (apart_above rfl))
  rw [slateBoundary_eq, beatsHeard_none hpair hb]
  generalize State.quietHeard { s with ptn.beats := [] } = h at *
  have hsame := boundaryEnds_same s h
  obtain ⟨houtranked, hstays⟩ := becomeSteward_stays h
  obtain ⟨hsteward, hepoch⟩ := becomeSteward_stewards h
  rw [boundaryTook_quiet hpair hen hb (hquietTake.trans htake) (hquietSteward.trans hs),
    boundaryYields_quiet hb (hstays.trans (hquietStop.trans hstop)) houtranked] at hsame
  refine ⟨h.bestEpoch + 1, ?_, ?_, ?_, ?_⟩
  · exact (hsame.flag (x := F.PTN_STEW_STEWARD) stewReg_stew).trans (stewEnds_stays.trans hsteward)
  · exact (hsame.f stewReg_epoch).trans ((stewEnds_f (by decide) (.inl (by decide))).trans hepoch)
  · exact hquietEpoch ▸ own_lt_best h
  · exact hquietPeer ▸ peer_lt_best h

end Take

end Sys2Proof.Machine
end

section
/-!
PROOFS. The mirror records that the hub of a pair applies which is not steward (R302 to R304, R205, R375).
-/
namespace Sys2Proof.Machine

open Sys2Proof

/-! ### The order of the records (R303) -/

/-- The record `m` is the one applied last. -/
def State.appliedUpTo (s : State) (m : Nat) : State := { s with ptn.applied := m }

section Order
variable {s : State} {mseq : Nat} {r : MirrorIn}

/-- The hub of a pair that is not steward applies records. -/
def State.mirrors (s : State) : Prop := s.steward = false ∧ s.f F.PTN_CTRL_PAIR = 1

/-- The record is the next in order. -/
def State.mirrorsNext (s : State) (mseq : Nat) : Prop := mseq = (s.ptn.applied + 1) % 2 ^ 32

theorem mirrors_iff : ¬(s.steward || !s.flag F.PTN_CTRL_PAIR) = true ↔ s.mirrors := by
  unfold State.mirrors
  rw [Bool.or_eq_true, Bool.not_eq_true', not_or, Bool.not_eq_true, Bool.not_eq_false, flag_eq_true]

theorem mirrorRecord_kept (h : ¬s.mirrors ∨ (¬s.mirrorsNext mseq ∧ r ≠ .syncBegin)) : s.mirrorRecord mseq r = s := by
  unfold State.mirrorRecord
  split
  · rfl
  · next hmine => exact if_neg (not_or.2 (h.resolve_left (not_not.2 (mirrors_iff.1 hmine))))

theorem mirrorRecord_applies (h : s.mirrors) (hn : s.mirrorsNext mseq ∨ r = .syncBegin) :
    s.mirrorRecord mseq r = (s.appliedUpTo (mseq % 2 ^ 32)).mirrorApply r := by
  unfold State.mirrorRecord
  rw [if_neg (mirrors_iff.2 h)]
  exact if_pos hn

theorem mirrorRecord_next (h : s.mirrors) (hn : s.mirrorsNext mseq) : s.mirrorRecord mseq r = (s.appliedUpTo mseq).mirrorApply r := by
  have hlt : mseq % 2 ^ 32 = mseq := by
    rw [hn, Nat.mod_mod]
  rw [mirrorRecord_applies h (.inl hn), hlt]

end Order

/-! ### What is applied stays applied -/

section Applied
variable (s : State)

/-- The identity of a record that is received between SYNC_BEGIN and SYNC_END is noted (R304). -/
def State.syncNoted (s : State) (serial ch : Nat) : State := { s with ptn.syncing := s.ptn.syncing.map fun l => (serial, ch) :: l }

theorem syncNoted_told (serial ch : Nat) : StewSame false s (s.syncNoted serial ch) := StewSame.refl.update

theorem mirrorNode_told (serial ch state rate : Nat) (ncfg : Word) (tick base : Nat) :
    StewSame false s (s.mirrorNode serial ch state rate ncfg tick base) := by
  have h : StewSame false s { s with ptn.syncing := s.ptn.syncing.map fun l => (serial, ch) :: l } := syncNoted_told s serial ch
  unfold State.mirrorNode State.envExceeded
  dsimp only
  split
  · exact h
  · split
    · exact h
    · split
      · split
        · split
          · exact .ite h (setSlot_stewSame h ..)
          · exact ((setSlot_stewSame h ..).wr' ..).wr' ..
        · split
          · exact h
          · exact .ite (h.emit ..) (attach_told ((StewSame.ite (h.emit ..) h).wr' ..) ..)
      · split
        · exact h
        · exact setSlot_stewSame (h.wf' ..) ..

theorem mirrorCoeff_ptn (serial ch : Nat) (g b : Int) (record : List Word) (tick : Nat) :
    (s.mirrorCoeff serial ch g b record tick).ptn = s.ptn := by
  unfold State.mirrorCoeff
  dsimp only
  split
  · rfl
  · rw [applyPair_ptn, State.wf_ptn, State.wr_ptn, State.wr_ptn, State.wr_ptn, State.wr_ptn, wrAll_ptn]

/-- SYNC_BEGIN: the copy is not in step, and no identity has been received. -/
def State.syncStarted (s : State) : State := { s with ptn.syncing := some [] }.wf F.PTN_STEW_SYNCED 0

theorem syncStarted_ptn : s.syncStarted.ptn = { s.ptn with syncing := some [] } := State.wf_ptn { s with ptn.syncing := some [] } ..

theorem syncStarted_shows : s.syncStarted.f F.PTN_STEW_SYNCED = 0 := State.f_wf_same { s with ptn.syncing := some [] } (fieldOk_of rfl) 0

/-- The copy is in step. -/
def State.inStep (s : State) : State := { s with ptn.syncing := none }.wf F.PTN_STEW_SYNCED 1

theorem inStep_ptn : s.inStep.ptn = { s.ptn with syncing := none } := State.wf_ptn { s with ptn.syncing := none } ..

theorem inStep_hub : s.inStep.hub = s.hub := State.wf_hub { s with ptn.syncing := none } ..

theorem inStep_shows : s.inStep.f F.PTN_STEW_SYNCED = 1 := State.f_wf_same { s with ptn.syncing := none } (fieldOk_of rfl) 1

/-- The slots that are not FREE and have not been received. -/
def State.notReceived (s : State) : List Nat := s.usedSlots.filter fun c => s.slotState c != 0 &&
  !((s.ptn.syncing.getD []).contains ((s.rd (Reg.PTN_SLs_ID c)).toNat, s.f (F.PTN_SLs_STAT_NODE_CH c)))

/-- The slots of `l` are released. -/
def State.released (s : State) (l : List Nat) : State :=
  let t := l.foldl (fun s c => s.leaveNow c) s
  if l.isEmpty then t else t.emit .MIRROR_OVERWRITTEN 0 [(l.length : Int)]

theorem syncEnd_eq : s.syncEnd = (s.released s.notReceived).inStep := rfl

theorem released_told (l : List Nat) : StewSame false s (s.released l) := by
  have hleave : StewSame false s (l.foldl (fun s c => s.leaveNow c) s) := .foldl (fun _ c hx => leaveNow_told hx c) _ .refl
  exact .ite hleave (hleave.emit ..)

theorem syncEnd_applied : s.syncEnd.ptn.applied = s.ptn.applied := by
  rw [syncEnd_eq, inStep_ptn]
  exact (released_told s _).applied

theorem mirrorApply_applied (r : MirrorIn) : (s.mirrorApply r).ptn.applied = s.ptn.applied := by
  cases r with
  | nodeCfg serial ch state rate ncfg tick base => exact (mirrorNode_told s serial ch state rate ncfg tick base).applied
  | coeff serial ch g b record tick => exact congrArg PtnSt.applied (mirrorCoeff_ptn s serial ch g b record tick)
  | epoch e tick => rfl
  | arm netid st armTick pre post tf orig => exact (armMirror_told (.refl (b := false)) netid st armTick pre post tf orig).applied
  | syncBegin => exact (congrArg PtnSt.applied (syncStarted_ptn s) :)
  | syncEnd n => exact syncEnd_applied s

end Applied

/-! ### SYNC_BEGIN, SYNC_END and ARM (R304, R375) -/

section Sync
variable {s : State}

/-- Every slot that is not FREE has been received. -/
def State.allReceived (s : State) (l : List (Nat × Nat)) : Prop :=
  ∀ c ∈ s.usedSlots, s.slotState c ≠ 0 → ((s.rd (Reg.PTN_SLs_ID c)).toNat, s.f (F.PTN_SLs_STAT_NODE_CH c)) ∈ l

theorem syncEnd_complete {l : List (Nat × Nat)} (hl : s.ptn.syncing = some l) (h : s.allReceived l) : s.syncEnd = s.inStep := by
  have hnone : s.notReceived = [] := by
    refine List.filter_eq_nil_iff.2 fun c hc => ?_
    rw [hl, Option.getD_some, Bool.and_eq_true, bne_iff_ne, Bool.not_eq_true', List.contains_eq_mem, decide_eq_false_iff_not]
    exact fun ⟨hstate, hnot⟩ => hnot (h c hc hstate)
  rw [syncEnd_eq, hnone]
  rfl

theorem trig_setTrig_same (s : State) (u : Nat) (x : TrigSt) : (s.setTrig u x).trig u = x := by
  unfold State.trig State.setTrig
  dsimp only
  rw [tabGet_tabSet_same]
  rfl

theorem trig_setTrig_ne (s : State) {u v : Nat} (x : TrigSt) (h : v ≠ u) : (s.setTrig u x).trig v = s.trig v := by
  unfold State.trig State.setTrig
  dsimp only
  rw [tabGet_tabSet_ne _ _ h]

/-- A disarm of trigger `u` for the next boundary. -/
theorem disarmCmd_eq (s : State) (u : Nat) : s.disarmCmd u false = s.setTrig u { s.trig u with disarm := some s.nextDue } := rfl

/-- A disarm leaves those that are set. -/
theorem disarm_keeps (t : State) (u v : Nat) (n : Nat) (hn : t.nextDue = n) (h : v = u ∨ (t.trig v).disarm = some n) :
    ((t.disarmCmd u false).trig v).disarm = some n := by
  rw [disarmCmd_eq, hn]
  by_cases e : v = u
  · rw [e, trig_setTrig_same]
  · rw [trig_setTrig_ne _ _ e]
    exact h.resolve_left e

theorem disarm_all (l : List Nat) (s : State) : ∀ u ∈ l, ((l.foldl (fun t u => t.disarmCmd u false) s).trig u).disarm = some s.nextDue := by
  have hkeeps (t : State) (l : List Nat) : ∀ u, (u ∈ l ∨ (t.trig u).disarm = some t.nextDue) →
      ((l.foldl (fun t u => t.disarmCmd u false) t).trig u).disarm = some t.nextDue := by
    induction l generalizing t with
    | nil => exact fun u h => h.resolve_left List.not_mem_nil
    | cons v l ih =>
      refine fun u h => ih (t.disarmCmd v false) u ?_
      rw [List.mem_cons, or_right_comm] at h
      refine h.symm.imp_right fun hu => ?_
      exact disarm_keeps t v u _ rfl hu
  exact fun u hu => hkeeps s l u (.inl hu)

end Sync

end Sys2Proof.Machine
end

section
/-!
PROOFS. What a COEFF record keeps (R205), and the three effects of a NODE_CFG record (R302, R303).
-/
namespace Sys2Proof.Machine

open Sys2Proof

/-! ### COEFF (R205) -/

section Coeff
variable {s : State}

theorem calRefresh_remCal (c n : Nat) : (s.calRefresh c n).front.remCal = s.front.remCal := by
  unfold State.calRefresh State.wb State.wfs
  dsimp only
  rw [State.wf_front, State.wf_front, State.wf_front]
  split
  · rfl
  · split <;> rfl

theorem applyPair_remCal (c n : Nat) (g b : Int) : (s.applyPair c n g b).front.remCal = s.front.remCal := by
  unfold State.applyPair
  dsimp only
  split
  · rfl
  · exact calRefresh_remCal c n

theorem wrAll_front {α : Type} (f : α → Nat) (g : α → Word) (l : List α) (u : State) : (l.foldl (fun s i => s.wr (f i) (g i)) u).front = u.front :=
  foldl_keeps State.front (fun x i => State.wr_front x (f i) (g i)) l u

/-- A COEFF record is kept first of all. -/
theorem mirrorCoeff_head (s : State) (serial ch : Nat) (g b : Int) (record : List Word) (tick : Nat) :
    (s.mirrorCoeff serial ch g b record tick).front.remCal.head?
      = some { serial := serial, nodeCh := ch, g := g, b := b, record := record, trace := 1 } := by
  unfold State.mirrorCoeff
  dsimp only
  split
  · exact List.head?_take.trans (if_neg (by decide))
  · rw [applyPair_remCal, State.wf_front, State.wr_front, State.wr_front, State.wr_front, State.wr_front, wrAll_front]
    exact List.head?_take.trans (if_neg (by decide))

end Coeff

/-! ### NODE_CFG: the slot of an identity -/

section Slot
variable {s : State}

theorem slot_setSlot_same (s : State) (c : Nat) (x : SlotSt) : (s.setSlot c (some x)).slot c = x := by
  unfold State.slot State.setSlot
  dsimp only
  rw [tabGet_tabSet_same]
  rfl

theorem slotState_setSlot (s : State) (c d : Nat) (x : Option SlotSt) : (s.setSlot c x).slotState d = s.slotState d := rfl

/-- The record was made for the tick that the base belongs to. -/
theorem laterBase_same (rate : Nat) (theta : Int) (base j : Nat) : s.laterBase rate theta base j j = base % 2 ^ 32 := by
  unfold State.laterBase
  dsimp only
  rw [Nat.add_sub_cancel]

theorem identNoted_slot (s : State) (serial ch c d : Nat) : (s.identNoted serial ch c).slot d = s.slot d := rfl

theorem identNoted_slotState (s : State) (serial ch c d : Nat) : (s.identNoted serial ch c).slotState d = s.slotState d := rfl

theorem attachShown_tick (x : Change) (p : Partner) (base : Nat) : (s.attachShown x p base).tick = s.tick := by
  unfold State.attachShown
  dsimp only
  rw [State.wr_tick, State.wr_tick, State.wf_tick, State.wf_tick, State.wr_tick, State.wf_tick]

theorem identNoted_tick (s : State) (serial ch c : Nat) : (s.identNoted serial ch c).tick = s.tick := rfl

theorem setSlot_tick (s : State) (c : Nat) (x : Option SlotSt) : (s.setSlot c x).tick = s.tick := rfl

theorem attached_tick (x : Change) (p : Partner) (base : Nat) : (s.attached x p base).tick = s.tick := by
  unfold State.attached
  rw [identNoted_tick, setSlot_tick, attachShown_tick]

theorem attachShown_state (x : Change) (p : Partner) (base : Nat) : (s.attachShown x p base).slotState x.slot = 2 := by
  have hid : Reg.PTN_SLs_STAT x.slot ≠ Reg.PTN_SLs_ID x.slot := by unfold Reg.PTN_SLs_STAT Reg.PTN_SLs_ID; omega
  have hseq : Reg.PTN_SLs_STAT x.slot ≠ Reg.PTN_SLs_SEQ x.slot := by unfold Reg.PTN_SLs_STAT Reg.PTN_SLs_SEQ; omega
  have hjoin : Reg.PTN_SLs_STAT x.slot ≠ Reg.PTN_SLs_JOIN x.slot := by unfold Reg.PTN_SLs_STAT Reg.PTN_SLs_JOIN; omega
  unfold State.slotState State.attachShown
  dsimp only
  rw [f_of_rd (State.rd_wr_ne _ _ hjoin), f_of_rd (State.rd_wr_ne _ _ hseq), State.f_wf_ne _ (fieldOk_of rfl) (apart_above rfl),
    State.f_wf_ne _ (fieldOk_of rfl) (apart_above rfl), f_of_rd (State.rd_wr_ne _ _ hid), State.f_wf_same _ (fieldOk_of rfl)]
  rfl

theorem attached_state (x : Change) (p : Partner) (base : Nat) : (s.attached x p base).slotState x.slot = 2 := by
  unfold State.attached
  rw [identNoted_slotState, slotState_setSlot, attachShown_state]

theorem attached_slot (x : Change) (p : Partner) (base : Nat) :
    (s.attached x p base).slot x.slot = (s.attachShown x p base).attachSlot x p base := by
  unfold State.attached
  rw [identNoted_slot, slot_setSlot_same]

/-- A channel whose slot does not leave and whose join tick is to come is attached. -/
theorem attach_later {x : Change} (p : Partner) (base : Nat) (hleave : s.slotState x.slot ≠ 3) (htick : s.tick.num < x.tick) :
    s.attach x p base = s.attached x p base := by
  refine (if_neg hleave).trans ?_
  rw [attachNow_eq, attached_tick, if_neg (Nat.not_le.2 htick)]

end Slot

/-! ### NODE_CFG: its three effects -/

/-- The JOIN that a NODE_CFG record stands for. -/
def mirrorJoin (p c ch rate : Nat) (ncfg : Word) (tick : Nat) : Change :=
  { op := 1, partner := p, slot := c, ch := ch, arg0 := rate, arg1 := ncfg, rateReg := none, ncfgReg := none,
    tick := tick, mseq := 0, cseq := 0, repeats := 0 }

/-- An identity attaches to slot `c`, at the record's tick or, when that is past, two ticks on. -/
def State.nodeJoins (s : State) (p : Nat) (x : Partner) (c ch rate : Nat) (ncfg : Word) (tick base : Nat) : State :=
  if !s.slotFits c rate x.home.1 then s.envExceeded c (Reg.PTN_SLs_STAT c) 0
  else
    let late := decide (tick ≤ s.tick.num)
    let j := if late then s.tick.num + 2 else tick
    let theta := match x.chans.find? fun d => d.ch == ch with | some d => d.theta | none => 0
    let s := if late then s.emit .MIRROR_LATE (objPartner p) [(c : Int), (tick : Int), (j : Int)] else s
    let s := s.wr (Reg.PTN_SLs_NCFG c) ncfg
    s.attach (mirrorJoin p c ch rate ncfg j) x (s.laterBase rate theta base tick j)

/-- An attached identity takes a changed rate or NCFG, or a new join tick. -/
def State.nodeChanges (s : State) (c rate : Nat) (ncfg : Word) (tick base : Nat) : State :=
  let y := s.slot c
  if y.joined then
    if s.slotAsked c = (rate, ncfg) then s
    else s.setSlot c (some { y with sets := y.sets ++ [SlotSetting.mk 0 (max tick (s.tick.num + 1)) rate none (some ncfg)] })
  else
    let j := if tick ≤ s.tick.num then y.join else tick
    let base := s.laterBase y.rate y.theta base tick j
    let first := firstIndex (max 1 y.rate) (y.theta * 65536) (boundaryClock (max 1 s.rate) j)
    (((s.setSlot c (some { y with join := j, base := base, next := first })).wr (Reg.PTN_SLs_JOIN c) (BitVec.ofNat 32 j)).wr
      (Reg.PTN_SLs_SEQ c) (BitVec.ofNat 32 (base + 2 ^ 32 - 1)))

/-- An identity leaves slot `c`. -/
def State.nodeLeaves (s : State) (c tick : Nat) : State :=
  (s.wf (F.PTN_SLs_STAT_STATE c) 3).setSlot c (some { s.slot c with leave := some (max tick (s.tick.num + 1)) })

/-- A NODE_CFG record of a partner takes effect. -/
def State.nodeTakes (s : State) (p : Nat) (x : Partner) (serial ch state rate : Nat) (ncfg : Word) (tick base : Nat) : State :=
  if state = 1 ∨ state = 2 then
    match (s.slotOf serial ch).filter fun c => s.slotState c == 2 with
    | some c => s.nodeChanges c rate ncfg tick base
    | none => match s.chooseSlot serial ch with
      | none => s
      | some c => s.nodeJoins p x c ch rate ncfg tick base
  else match s.slotOf serial ch with
    | none => s
    | some c => s.nodeLeaves c tick

section NodeCfg
variable {s : State} {serial ch state rate tick base p c : Nat} {ncfg : Word} {x : Partner}

theorem mirrorNode_takes (hp : s.partnerOf serial = some p) (hx : s.partner p = some x) :
    s.mirrorNode serial ch state rate ncfg tick base = (s.syncNoted serial ch).nodeTakes p x serial ch state rate ncfg tick base := by
  have hnoted : ({ s with ptn.syncing := s.ptn.syncing.map fun l => (serial, ch) :: l } : State) = s.syncNoted serial ch := rfl
  have hp' : (s.syncNoted serial ch).partnerOf serial = some p := hp
  have hx' : (s.syncNoted serial ch).partner p = some x := hx
  unfold State.mirrorNode
  change (match State.partnerOf { s with ptn.syncing := s.ptn.syncing.map fun l => (serial, ch) :: l } serial with | none => _ | some p => _) = _
  rw [hnoted, hp']
  dsimp only
  rw [hx']
  dsimp only
  generalize s.syncNoted serial ch = u
  unfold State.nodeTakes
  split
  · cases (u.slotOf serial ch).filter fun c => u.slotState c == 2 with
    | some c => rfl
    | none =>
      dsimp only
      cases u.chooseSlot serial ch with
      | none => rfl
      | some c => rfl
  · cases u.slotOf serial ch with
    | none => rfl
    | some c => rfl

theorem nodeTakes_joins (hnone : s.slotOf serial ch = none) (hc : s.chooseSlot serial ch = some c) :
    s.nodeTakes p x serial ch 2 rate ncfg tick base = s.nodeJoins p x c ch rate ncfg tick base := by
  unfold State.nodeTakes
  rw [if_pos (.inr rfl), hnone, Option.filter_none]
  dsimp only
  rw [hc]

theorem nodeTakes_changes (hc : s.slotOf serial ch = some c) (hstate : s.slotState c = 2) :
    s.nodeTakes p x serial ch 2 rate ncfg tick base = s.nodeChanges c rate ncfg tick base := by
  have hmine : (s.slotOf serial ch).filter (fun c => s.slotState c == 2) = some c := by
    rw [hc, Option.filter_some, hstate]
    rfl
  unfold State.nodeTakes
  rw [if_pos (.inr rfl), hmine]

theorem nodeTakes_leaves (hc : s.slotOf serial ch = some c) :
    s.nodeTakes p x serial ch 3 rate ncfg tick base = s.nodeLeaves c tick := by
  unfold State.nodeTakes
  rw [if_neg (by decide), hc]

/-- What a slot holds that attaches before its join tick. -/
theorem nodeJoins_attaches (hstate : s.slotState c = 0) (hfits : s.slotFits c rate x.home.1 = true) (htick : s.tick.num < tick) :
    let t := s.nodeJoins p x c ch rate ncfg tick base
    t.slotState c = 2 ∧ (t.slot c).join = tick ∧ (t.slot c).rate = rate ∧ (t.slot c).base = base % 2 ^ 32 := by
  have hlate : decide (tick ≤ s.tick.num) = false := decide_eq_false (Nat.not_le.2 htick)
  have hncfg : Reg.PTN_SLs_STAT c ≠ Reg.PTN_SLs_NCFG c := by unfold Reg.PTN_SLs_STAT Reg.PTN_SLs_NCFG; omega
  have hleave : (s.wr (Reg.PTN_SLs_NCFG c) ncfg).slotState (mirrorJoin p c ch rate ncfg tick).slot ≠ 3 := by
    unfold State.slotState
    rw [f_of_rd (State.rd_wr_ne _ _ hncfg)]
    exact fun e => absurd (hstate.symm.trans e) (by decide)
  unfold State.nodeJoins
  rw [if_neg (by rw [hfits]; decide), hlate]
  dsimp only
  rw [if_neg Bool.false_ne_true, if_neg Bool.false_ne_true, laterBase_same, attach_later x _ hleave htick]
  generalize s.wr (Reg.PTN_SLs_NCFG c) ncfg = u
  have hslot := attached_slot (s := u) (mirrorJoin p c ch rate ncfg tick) x (base % 2 ^ 32)
  refine ⟨attached_state (mirrorJoin p c ch rate ncfg tick) x _, ?_⟩
  change (u.attached _ x _).slot c = _ at hslot
  rw [hslot]
  exact ⟨rfl, rfl, rfl⟩

theorem nodeChanges_sets (hjoined : (s.slot c).joined = true) (hasked : s.slotAsked c ≠ (rate, ncfg)) :
    ((s.nodeChanges c rate ncfg tick base).slot c).sets = (s.slot c).sets ++ [⟨0, max tick (s.tick.num + 1), rate, none, some ncfg⟩] := by
  unfold State.nodeChanges
  dsimp only
  rw [if_pos hjoined, if_neg hasked, slot_setSlot_same]

theorem nodeLeaves_leaves : (s.nodeLeaves c tick).slotState c = 3
    ∧ ((s.nodeLeaves c tick).slot c).leave = some (max tick (s.tick.num + 1)) := by
  unfold State.nodeLeaves
  rw [slotState_setSlot, slot_setSlot_same]
  exact ⟨State.f_wf_same s (fieldOk_of rfl) 3, rfl⟩

end NodeCfg

/-! ### The slots when a record is noted -/

section Noted
variable (s : State) (q : PtnSt) (m serial ch c n d : Nat)

/-- The partner manager's own state is `q`. -/
def State.withPtn : State := { s with ptn := q }

theorem withPtn_usable (h : q.waiting = s.ptn.waiting) : (s.withPtn q).slotUsable c n d = s.slotUsable c n d := by
  unfold State.slotUsable
  change (if s.slotState c = 0 then !(q.waiting.any fun x => x.slot == c) else _) = _
  rw [h]
  rfl

theorem withPtn_reserved : (s.withPtn q).reservedFor c n d = s.reservedFor c n d := rfl

theorem withPtn_flag (x : RegField) : (s.withPtn q).flag x = s.flag x := rfl

theorem withPtn_state : (s.withPtn q).slotState c = s.slotState c := rfl

theorem withPtn_idents : (s.withPtn q).ptn.idents = q.idents := rfl

theorem withPtn_choose (hidents : q.idents = s.ptn.idents) (hwaiting : q.waiting = s.ptn.waiting) :
    (s.withPtn q).chooseSlot n d = s.chooseSlot n d := by
  unfold State.chooseSlot
  simp only [withPtn_usable s q _ _ _ hwaiting, withPtn_reserved, withPtn_flag, withPtn_state, withPtn_idents, hidents]

theorem withPtn_fits (rate lane : Nat) : (s.withPtn q).slotFits c rate lane = s.slotFits c rate lane := rfl

/-- Record `m` is the last applied, and its identity is noted. -/
def State.recordNoted : State := s.withPtn { s.ptn with applied := m, syncing := s.ptn.syncing.map fun l => (serial, ch) :: l }

theorem recordNoted_eq : (s.appliedUpTo m).syncNoted serial ch = s.recordNoted m serial ch := rfl

theorem recordNoted_choose : (s.recordNoted m serial ch).chooseSlot n d = s.chooseSlot n d := withPtn_choose s _ n d rfl rfl

theorem recordNoted_fits (rate lane : Nat) : (s.recordNoted m serial ch).slotFits c rate lane = s.slotFits c rate lane := withPtn_fits ..

theorem recordNoted_slotOf : (s.recordNoted m serial ch).slotOf n d = s.slotOf n d := rfl

theorem recordNoted_asked : (s.recordNoted m serial ch).slotAsked c = s.slotAsked c := rfl

theorem recordNoted_state : (s.recordNoted m serial ch).slotState c = s.slotState c := rfl

theorem recordNoted_slot : (s.recordNoted m serial ch).slot c = s.slot c := rfl

theorem recordNoted_tick : (s.recordNoted m serial ch).tick = s.tick := rfl

end Noted

section Record
variable {s : State} {serial ch rate tick base p c : Nat} {ncfg : Word} {x : Partner} (m : Nat)

/-- The next record, of a node that is a partner, is applied to its slot. -/
theorem nodeRecord_takes (hp : s.partnerOf serial = some p) (hx : s.partner p = some x) (state : Nat) :
    (s.appliedUpTo m).mirrorApply (.nodeCfg serial ch state rate ncfg tick base)
      = (s.recordNoted m serial ch).nodeTakes p x serial ch state rate ncfg tick base := by
  have htakes := mirrorNode_takes (s := s.appliedUpTo m) (ch := ch) (state := state) (rate := rate) (ncfg := ncfg) (tick := tick) (base := base) hp hx
  rw [recordNoted_eq] at htakes
  exact htakes

theorem nodeRecord_attaches (hp : s.partnerOf serial = some p) (hx : s.partner p = some x) (hnone : s.slotOf serial ch = none)
    (hc : s.chooseSlot serial ch = some c) (hstate : s.slotState c = 0) (hfits : s.slotFits c rate x.home.1 = true) (htick : s.tick.num < tick) :
    let t := (s.appliedUpTo m).mirrorApply (.nodeCfg serial ch 2 rate ncfg tick base)
    t.slotState c = 2 ∧ (t.slot c).join = tick ∧ (t.slot c).rate = rate ∧ (t.slot c).base = base % 2 ^ 32 := by
  rw [nodeRecord_takes m hp hx, nodeTakes_joins ((recordNoted_slotOf ..).trans hnone) ((recordNoted_choose ..).trans hc)]
  exact nodeJoins_attaches ((recordNoted_state ..).trans hstate) ((recordNoted_fits ..).trans hfits) htick

theorem nodeRecord_sets (hp : s.partnerOf serial = some p) (hx : s.partner p = some x) (hc : s.slotOf serial ch = some c)
    (hstate : s.slotState c = 2) (hjoined : (s.slot c).joined = true) (hasked : s.slotAsked c ≠ (rate, ncfg)) :
    (((s.appliedUpTo m).mirrorApply (.nodeCfg serial ch 2 rate ncfg tick base)).slot c).sets
      = (s.slot c).sets ++ [⟨0, max tick (s.tick.num + 1), rate, none, some ncfg⟩] := by
  rw [nodeRecord_takes m hp hx, nodeTakes_changes ((recordNoted_slotOf ..).trans hc) ((recordNoted_state ..).trans hstate),
    nodeChanges_sets (recordNoted_slot s m serial ch c ▸ hjoined) (recordNoted_asked s m serial ch c ▸ hasked), recordNoted_slot, recordNoted_tick]

theorem nodeRecord_leaves (hp : s.partnerOf serial = some p) (hx : s.partner p = some x) (hc : s.slotOf serial ch = some c) :
    let t := (s.appliedUpTo m).mirrorApply (.nodeCfg serial ch 3 rate ncfg tick base)
    t.slotState c = 3 ∧ (t.slot c).leave = some (max tick (s.tick.num + 1)) := by
  rw [nodeRecord_takes m hp hx, nodeTakes_leaves ((recordNoted_slotOf ..).trans hc)]
  exact nodeLeaves_leaves

end Record

end Sys2Proof.Machine
end

section
/-!
PROOFS. The Slate link returns (R304), and the records that are not acknowledged are sent again (R303).
-/
namespace Sys2Proof.Machine

open Sys2Proof

/-! ### Records that are made (R302) -/

/-- From `s` to `t` mirror records are added behind those that wait, and registers of `midReg` read alike. -/
structure MirrorsOn (s t : State) : Prop where
  rd : ∀ a, midReg a → t.rd a = s.rd a
  out : ∃ l, t.hub.mirrorOut = s.hub.mirrorOut ++ l

namespace MirrorsOn

variable {s t u : State}

theorem refl : MirrorsOn s s := ⟨fun _ _ => rfl, [], (List.append_nil _).symm⟩

theorem trans (h : MirrorsOn s t) (k : MirrorsOn t u) : MirrorsOn s u := by
  obtain ⟨l, hl⟩ := h.out
  obtain ⟨r, hr⟩ := k.out
  refine ⟨fun a ha => (k.rd a ha).trans (h.rd a ha), l ++ r, ?_⟩
  rw [hr, hl, List.append_assoc]

theorem mirror (h : MirrorsOn s t) (rtype : Nat) (data : List Int) : MirrorsOn s (t.mirror rtype data) := by
  refine h.trans ⟨fun a ha => mirror_rd t rtype data ha, ?_⟩
  rcases mirror_cases t rtype data with hsame | houts
  · exact ⟨[], by rw [hsame, List.append_nil]⟩
  · exact ⟨_, houts.mirrorOut⟩

theorem ite {c : Prop} [Decidable c] (ht : MirrorsOn s t) (hu : MirrorsOn s u) : MirrorsOn s (if c then t else u) := by
  split <;> assumption

theorem foldl {α : Type} {f : State → α → State} (hf : ∀ x a, MirrorsOn s x → MirrorsOn s (f x a)) (l : List α) (h : MirrorsOn s t) :
    MirrorsOn s (l.foldl f t) := by
  induction l generalizing t with
  | nil => exact h
  | cons a l ih => exact ih (hf _ a h)

theorem f (h : MirrorsOn s t) {x : RegField} (hx : midReg x.addr) : t.f x = s.f x := f_of_rd (h.rd _ hx)

end MirrorsOn

/-- The hub is the steward of a pair. -/
def State.mirroring (s : State) : Prop := s.steward = true ∧ s.f F.PTN_CTRL_PAIR = 1

theorem MirrorsOn.mirroring {s t : State} (h : MirrorsOn s t) (hs : s.mirroring) : t.mirroring := by
  obtain ⟨hsteward, hpair⟩ := hs
  have hstew : t.f F.PTN_STEW_STEWARD = s.f F.PTN_STEW_STEWARD := h.f (midReg_of_stewReg stewReg_stew)
  have hctrl : t.f F.PTN_CTRL_PAIR = s.f F.PTN_CTRL_PAIR := h.f (by unfold midReg; decide)
  exact ⟨(congrArg (· == 1) hstew).trans hsteward, hctrl.trans hpair⟩

/-- The steward of a pair makes a record behind those that wait. -/
theorem mirror_makes {s : State} (h : s.mirroring) (rtype : Nat) (data : List Int) : ∃ r : MirrorRec, r.rtype = rtype
    ∧ (s.mirror rtype data).hub.mirrorOut = s.hub.mirrorOut ++ [r] := by
  obtain ⟨hsteward, hpair⟩ := h
  have hmade : s.mirror rtype data = (s.mirrorNext rtype data).mirrorSend rtype ((s.hub.mseq + 1) % 2 ^ 32) data :=
    if_pos (by rw [hsteward, (flag_eq_true ..).2 hpair]; rfl)
  refine ⟨MirrorRec.mk ((s.hub.mseq + 1) % 2 ^ 32) rtype data, rfl, ?_⟩
  rw [hmade]
  exact (State.Outs.slateSend (.refl _) ..).mirrorOut

/-! ### The whole state (R304) -/

/-- The records between SYNC_BEGIN and SYNC_END: slots, coefficients, the epoch, and triggers. -/
def State.mirrorRecords (s : State) : State :=
  let s := s.usedSlots.foldl (fun s c =>
    let x := s.slot c
    if s.slotState c = 0 then s
    else s.mirror 0x01 [((s.rd (Reg.PTN_SLs_ID c)).toNat : Int), (s.f (F.PTN_SLs_STAT_NODE_CH c) : Int), (s.slotState c : Int), (x.rate : Int),
      ((s.rd (Reg.PTN_SLs_NCFG c)).toNat : Int), (x.leave.getD x.join : Int), (x.base : Int)]) s
  let s := s.front.remCal.foldl (fun s e =>
    s.mirror 0x02 ([(e.serial : Int), (e.nodeCh : Int), e.g, e.b, (s.tick.num : Int)] ++ e.record.map fun w => (w.toNat : Int))) s
  let s := s.mirror 0x03 [(s.f F.PTN_EPOCH_EPOCH : Int), (s.tick.num : Int)]
  (List.range 64).foldl (fun s u => s.mirrorTrig u (s.trigState u)) s

theorem mirrorAll_eq (s : State) : s.mirrorAll = (s.mirror 0x05 []).mirrorRecords.mirror 0x06
    [(((s.mirror 0x05 []).mirrorRecords.hub.mirrorOut.length - s.hub.mirrorOut.length : Nat) : Int)] := rfl

theorem mirrorRecords_on (s : State) : MirrorsOn s s.mirrorRecords := by
  unfold State.mirrorRecords State.mirrorTrig
  dsimp only
  refine .foldl (fun x u hx => .ite (hx.mirror ..) hx) _ (MirrorsOn.mirror (.foldl (fun x e hx => hx.mirror ..) _ ?_) ..)
  exact .foldl (fun x c hx => .ite hx (hx.mirror ..)) _ .refl

theorem mirrorAll_on (s : State) : MirrorsOn s s.mirrorAll := by
  rw [mirrorAll_eq]
  exact ((MirrorsOn.refl.mirror ..).trans (mirrorRecords_on _)).mirror ..

/-- The steward of a pair sends SYNC_BEGIN first and SYNC_END last. -/
theorem mirrorAll_ends {s : State} (h : s.mirroring) : ∃ l : List MirrorRec, s.mirrorAll.hub.mirrorOut = s.hub.mirrorOut ++ l
    ∧ l.head?.map (·.rtype) = some 5 ∧ l.getLast?.map (·.rtype) = some 6 := by
  have hfirst : MirrorsOn s (s.mirror 0x05 []) := MirrorsOn.refl.mirror ..
  have hbetween := mirrorRecords_on (s.mirror 0x05 [])
  obtain ⟨r, hr, hbegin⟩ := mirror_makes h 0x05 []
  obtain ⟨l, hl⟩ := hbetween.out
  obtain ⟨q, hq, hend⟩ := mirror_makes ((hfirst.trans hbetween).mirroring h) 0x06
    [(((s.mirror 0x05 []).mirrorRecords.hub.mirrorOut.length - s.hub.mirrorOut.length : Nat) : Int)]
  refine ⟨r :: l ++ [q], ?_, congrArg some hr, ?_⟩
  · rw [mirrorAll_eq, hend, hl, hbegin, List.append_assoc, List.append_assoc]
    rfl
  · rw [List.getLast?_concat]
    exact congrArg some hq

/-! ### The link returns (R304) -/

section SlateUp
variable {s : State}

/-- The link is shown, and roles may clash anew. -/
def State.linkShown (s : State) : State := { s with ptn.clashNoted := false }.wf F.PTN_STEW_SLATE_UP 1

theorem linkShown_up (s : State) : s.linkShown.f F.PTN_STEW_SLATE_UP = 1 :=
  State.f_wf_same { s with ptn.clashNoted := false } (fieldOk_of rfl) 1

theorem linkShown_hub (s : State) : s.linkShown.hub = s.hub := State.wf_hub { s with ptn.clashNoted := false } ..

theorem linkShown_steward (s : State) : s.linkShown.steward = s.steward :=
  congrArg (· == 1) (State.f_wf_ne { s with ptn.clashNoted := false } (fieldOk_of rfl) (apart_above rfl) 1 (x := F.PTN_STEW_STEWARD))

theorem linkShown_rd (s : State) {a : Nat} (ha : a ≠ Reg.PTN_STEW) : s.linkShown.rd a = s.rd a :=
  State.rd_wf_ne { s with ptn.clashNoted := false } _ ha

theorem slateUp_single (h : s.f F.PTN_CTRL_PAIR = 0) : s.slateUp = s := by
  refine if_pos ?_
  unfold State.flag
  rw [h]
  rfl

theorem slateUp_pair (h : s.f F.PTN_CTRL_PAIR = 1) :
    s.slateUp = if s.linkShown.steward then s.linkShown.mirrorAll else s.linkShown.wf F.PTN_STEW_SYNCED 0 :=
  if_neg (by rw [(flag_eq_true ..).2 h]; decide)

theorem slateUp_other (h : s.f F.PTN_CTRL_PAIR = 1) (hs : s.steward = false) : s.slateUp = s.linkShown.wf F.PTN_STEW_SYNCED 0 := by
  rw [slateUp_pair h, linkShown_steward, hs]
  exact if_neg Bool.false_ne_true

theorem slateUp_steward (h : s.f F.PTN_CTRL_PAIR = 1) (hs : s.steward = true) : s.slateUp = s.linkShown.mirrorAll := by
  rw [slateUp_pair h, linkShown_steward, hs]
  exact if_pos rfl

/-- A hub that is not steward shows the link, and is not in step any longer. -/
theorem notInStep_shows (s : State) : (s.linkShown.wf F.PTN_STEW_SYNCED 0).f F.PTN_STEW_SLATE_UP = 1
    ∧ (s.linkShown.wf F.PTN_STEW_SYNCED 0).f F.PTN_STEW_SYNCED = 0
    ∧ ∀ a, a ≠ Reg.PTN_STEW → (s.linkShown.wf F.PTN_STEW_SYNCED 0).rd a = s.rd a :=
  ⟨(State.f_wf_ne _ (fieldOk_of rfl) (apart_above rfl) 0).trans (linkShown_up s), State.f_wf_same _ (fieldOk_of rfl) 0,
    fun _ ha => (State.rd_wf_ne _ _ ha).trans (linkShown_rd s ha)⟩

theorem linkShown_mirroring (h : s.f F.PTN_CTRL_PAIR = 1) (hs : s.steward = true) : s.linkShown.mirroring :=
  ⟨(linkShown_steward s).trans hs, (f_of_rd (linkShown_rd s (by decide))).trans h⟩

end SlateUp

/-- The records that wait are sent again. -/
theorem resend_outs (s : State) : s.Outs (s.hub.mirrorOut.foldl (fun s m => s.mirrorSend m.rtype m.mseq m.data) s) :=
  .foldl (fun _ _ hx => hx.slateSend ..) _ (.refl s)

end Sys2Proof.Machine
end

section
/-!
PROOFS. What each group of commands does, as the statement on stewardship and the mirror lists it.
-/
namespace Sys2Proof.Machine

open Sys2Proof

/-- What the boundary after a heartbeat of a pair shows, without a TAKE. -/
theorem heartbeat_acts {s : State} {b : Beat} (hpair : s.f F.PTN_CTRL_PAIR = 1) (htake : s.ptn.take = false) :
    let u := (s.beatHeld b).slateBoundary
    u.f F.PTN_STEW_SLATE_UP = 1 ∧ u.f F.PTN_STEW_SILENT = 0 ∧ u.ptn.peerEpoch = b.epoch ∧ u.ptn.lastBeat = b.tick
      ∧ (u.f F.PTN_STEW_RATE_MISMATCH = 1 ↔ b.rate ≠ s.rate)
      ∧ (s.steward = true → b.rate = s.rate → b.steward = true → s.f F.PTN_EPOCH_EPOCH < b.epoch → u.steward = false) := by
  have hshown (x : RegField) (hx : x.addr = Reg.PTN_STEW) (hd : x.hi.blt 31 = true) :
      (s.beatHeld b).slateBoundary.f x = (s.beatsNoted b).f x :=
    heartbeat_shows hpair htake (hx ▸ stewReg_stew) (apart_below hd)
  obtain ⟨hup, hsilent, hmismatch⟩ := beatsNoted_shows (s := s) (b := b)
  obtain ⟨hepoch, hlast⟩ := heartbeat_peer (b := b) hpair htake
  dsimp only
  rw [hshown F.PTN_STEW_SLATE_UP rfl rfl, hshown F.PTN_STEW_SILENT rfl rfl, hshown F.PTN_STEW_RATE_MISMATCH rfl rfl]
  exact ⟨hup, hsilent, hepoch, hlast, hmismatch, heartbeat_yields hpair htake⟩

/-- A hub that takes because its peer is silent. -/
theorem takeSilence_stewards {s : State} (h : s.silenceDue) : ∃ e : Nat, s.takeSilence.steward = true
    ∧ s.takeSilence.f F.PTN_EPOCH_EPOCH = e % 2 ^ 32 ∧ s.f F.PTN_EPOCH_EPOCH < e ∧ s.ptn.peerEpoch < e
    ∧ (∀ p x, (p, some x) ∈ s.ptn.partners → x.present = true → x.epoch < e)
    ∧ (s.ptn.silentNoted = true → s.Enters s.takeSilence .STEWARD_TAKEN 0 [(e : Int)]) := by
  obtain ⟨hsteward, hepoch⟩ := becomeSteward_stewards s.peerSilent
  rw [peerSilent_best] at hepoch
  refine ⟨s.bestEpoch + 1, ?_, ?_, own_lt_best s, peer_lt_best s, partner_lt_best s, takeSilence_enters h⟩
  · rw [takeSilence_due h]
    exact hsteward
  · rw [takeSilence_due h]
    exact hepoch

end Sys2Proof.Machine
end

section
open Sys2Proof Sys2Proof.Machine

/-- Settles O47: stewardship by the parts of the boundary, a mirror record by its kind, and the whole state by its first and last records. -/
theorem stewardshipAndMirrorAct : Obligations.StewardshipAndMirrorAct := by
  unfold Obligations.StewardshipAndMirrorAct
  intro s m
  dsimp only
  refine ⟨fun b => ⟨s.beatHeld b, rfl, rfl, heartbeat_acts⟩,
    ⟨s.ptnTake, rfl, rfl, fun hen hpair hs hb hstop => take_stewards (s := s.ptnTake) hen hpair hs hb hstop rfl⟩,
    ⟨fun h => congrArg Host.Outcome.next (takeSilence_idle h), fun h => ?silence⟩, fun mseq r => ?record, fun hs => ?idle, fun hs => ?resend,
    fun h => congrArg Host.Outcome.next (slateUp_single h), fun hpair hs => ?other, fun hpair hs => ?all⟩
  case silence =>
    obtain ⟨e, htaken⟩ := takeSilence_stewards h
    exact ⟨_, e, rfl, htaken⟩
  case record =>
    refine ⟨fun h => congrArg Host.Outcome.next (mirrorRecord_kept h),
      fun h hn => ⟨_, congrArg Host.Outcome.next (mirrorRecord_applies h hn), mirrorApply_applied ..⟩, fun h hn => ?next, fun h hr => ?begins⟩
    case next =>
      have happlies : exec (.mirrorRecord mseq r) s = .next ((s.appliedUpTo mseq).mirrorApply r) :=
        congrArg Host.Outcome.next (mirrorRecord_next h hn)
      refine ⟨fun e tick hr => ?epoch, fun n l hr hl hall => ?syncEnd, fun serial ch g b rec tick hr => ?coeff,
        fun netid tick pre post tf orig hr => ?arm, fun serial ch st rate ncfg tick base p x hr hp hx => ?nodeCfg⟩
      case epoch =>
        subst hr
        exact happlies
      case syncEnd =>
        subst hr
        have hstep : (s.appliedUpTo mseq).syncEnd = (s.appliedUpTo mseq).inStep := syncEnd_complete hl hall
        exact ⟨_, happlies.trans (congrArg Host.Outcome.next hstep), inStep_shows _, congrArg PtnSt.syncing (inStep_ptn _),
          congrArg HubSt.evq (inStep_hub _)⟩
      case coeff =>
        subst hr
        exact ⟨_, happlies, mirrorApply_applied .., mirrorCoeff_head ..⟩
      case arm =>
        subst hr
        exact ⟨_, happlies, disarm_all _ (s.appliedUpTo mseq)⟩
      case nodeCfg =>
        subst hr
        refine ⟨fun c hnone hst hc _ hstate hfits htick => ?attaches, fun c hc hst hstate hjoined hasked => ?sets, fun c hc hst _ => ?leaves⟩
        case attaches =>
          subst hst
          exact ⟨_, happlies, nodeRecord_attaches mseq hp hx hnone hc hstate hfits htick⟩
        case sets =>
          subst hst
          exact ⟨_, happlies, nodeRecord_sets mseq hp hx hc hstate hjoined hasked⟩
        case leaves =>
          subst hst
          exact ⟨_, happlies, nodeRecord_leaves mseq hp hx hc⟩
    case begins =>
      subst hr
      exact ⟨_, congrArg Host.Outcome.next (mirrorRecord_applies h (.inr rfl)), syncStarted_shows _, congrArg PtnSt.syncing (syncStarted_ptn _),
        mirrorApply_applied ..⟩
  case idle => exact congrArg Host.Outcome.next (if_neg (by rw [hs]; decide))
  case resend =>
    have houts := resend_outs s
    exact ⟨_, congrArg Host.Outcome.next (if_pos hs), houts.ptn, houts.mirrorOut⟩
  case other => exact ⟨_, congrArg Host.Outcome.next (slateUp_other hpair hs), notInStep_shows s⟩
  case all =>
    obtain ⟨l, hout, hfirst, hlast⟩ := mirrorAll_ends (linkShown_mirroring hpair hs)
    rw [linkShown_hub] at hout
    exact ⟨_, l, congrArg Host.Outcome.next (slateUp_steward hpair hs),
      ((mirrorAll_on _).f (midReg_of_stewReg stewReg_stew)).trans (linkShown_up s), hout, hfirst, hlast⟩

end
